-- ==== Sys2Proof/Word.lean ====
section
/-! DEFINITION. The plain word types: bytes, 32-bit register words, sparse maps from numbers, and exact
binary numbers (the values of R48's formats before any rounding). -/
namespace Sys2Proof

/-- A byte. -/
abbrev Byte := BitVec 8

/-- A 32-bit register word (R11). -/
abbrev Word := BitVec 32

/-- A 64-byte descriptor as one little-endian number: byte k is bits [8k+7:8k] (R181). -/
abbrev Descriptor := BitVec 512

/-- A sparse map from numbers: keys strictly rising, no entry equal to what an unlisted key holds. -/
abbrev Sparse (β : Type) := List (Nat × β)

/-- An exact number: NaN, an infinity, or (−1)^neg × m × 2^e. A zero has m = 0 and keeps its sign. -/
inductive Num where
  | nan
  | inf (neg : Bool)
  | fin (neg : Bool) (m : Nat) (e : Int)
deriving DecidableEq, Repr

/-- The formats of R48, the moment block format (R54), and a format code that names none. -/
inductive Fmt where
  | fp32 | fp16 | bf16 | e4m3 | e5m2 | e3m2 | e2m3 | e2m1 | e8m0 | int8 | moment | unknown
deriving DecidableEq, Repr

/-- The vector functions whose algorithm the manual does not give (R122, R128). -/
inductive VFn where
  | div | sqrt | rcp | rsqrt | exp | exp2 | log | log2 | sigmoid | tanh | erf | gelu | silu | sin | cos
  | dsigmoid | dtanh | dgelu | dsilu | derf
deriving DecidableEq, Repr

end Sys2Proof
end

