-- ==== Sys2Proof/Syntax.lean ====
section
/-! DEFINITION. The commands of the module: one constructor per row of spec/opcode_table.json, with the
operands that the row's rule gives it. An operand is what comes from outside the module (a register value
written, a message, a sensor reading, host memory read by the module) or names the unit that acts. Unit
numbers are Fin, so that no command names a unit that does not exist. -/
namespace Sys2Proof

/-- Who writes or reads a register (R166, R206, R462): firmware without naming its control processor, or the firmware of
one control processor, which mailboxes tell apart (R200). -/
inductive Party where
  | host | firmware | idfort | operator
  | cp (k : Fin 8)
deriving DecidableEq, Repr

/-- The firmware of the control complex, whichever control processor runs it. -/
def Party.fw : Party → Bool
  | .firmware => true
  | .cp _ => true
  | _ => false

/-- A time message on λ17 (R26). Stamps are in 1/64 hub cycle. -/
structure TimeMsg where
  /-- departure stamp of this message -/
  depart : BitVec 64
  /-- arrival stamp, at the neighbour, of the last message received from this module -/
  arrived : BitVec 64
  master : BitVec 13
  epoch : BitVec 16
  depth : BitVec 6
  locked : Bool
  /-- the master-origin frame -/
  origin : BitVec 64
deriving DecidableEq, Repr

/-- Memory errors that an operation meets (R155–R157, R344): the addresses at which a read finds a
corrected error, an uncorrectable error and a failed block check, those whose carried check word fails at a write, and
those whose bytes meet a wrong parity on their way. -/
structure MemErr where
  ce : List Nat := []
  ue : List Nat := []
  chk : List Nat := []
  par : List Nat := []
deriving DecidableEq, Repr

/-- Errors that a read of accumulator words meets (R155–R157): how many it corrects, and whether one is
uncorrectable. -/
structure TileErr where
  ce : Nat
  ue : Bool
deriving DecidableEq, Repr

/-- What the dispatcher reads from one control block in host memory at a tick (R173). -/
structure RingPoll where
  ring : Fin 256
  pi : Word
  cqCi : Word
deriving DecidableEq, Repr

/-- A synchronisation message on λ17 (R219). -/
structure SyncMsg where
  kind : Byte
  sense : Bool
  payOp : BitVec 2
  dest : BitVec 13
  src : BitVec 13
  slice : BitVec 12
  vcid : BitVec 16
  epoch : BitVec 16
  object : BitVec 16
  tag : BitVec 16
  value : BitVec 64
deriving DecidableEq, Repr

/-- A slice announcement (R380). -/
structure Announce where
  hold : Bool
  vcid : BitVec 16
  epoch : BitVec 16
  step : BitVec 64
  attempt : Word
  frame : BitVec 64
deriving DecidableEq, Repr

/-- A waiter: a descriptor of a ring, by its ring index, or a core. -/
inductive Waiter where
  | desc (ring : Fin 256) (idx : Word)
  | core (c : Fin 144)
  /-- the module itself, at the replay barrier, for a context (R378) -/
  | replay (ctx : Fin 64)
deriving DecidableEq, Repr

/-- The value of an SSIG: an immediate, or a 64-bit word of scratchpad (R214). -/
inductive SigVal where
  | imm (v : BitVec 64)
  | sp (addr : BitVec 22)
deriving DecidableEq, Repr

/-- A unit by kind and index (R425). -/
structure UnitRef where
  kind : Fin 16
  unit : BitVec 16
deriving DecidableEq, Repr

/-- What a patrol read finds (R156, R157). -/
inductive ReadResult where
  | clean | corrected | uncorrectable
deriving DecidableEq, Repr

/-- A ring of a port (R233): on the transmit or the receive side, λ0–λ16 of the bus, or λ17's own. -/
structure RingName where
  port : Fin 16
  rx : Bool
  lam : Fin 18
deriving DecidableEq, Repr

/-- What the tuning loop of a ring reads at a tick (R243): its error in heater codes, and the correction
that it asks for. -/
structure RingRead where
  ring : RingName
  err : Int
  move : Int
deriving DecidableEq, Repr

/-- One frame's reading of a cartridge, in 10 µW (R239, R270). -/
structure LaserRead where
  cart : Fin 22
  power : BitVec 16
deriving DecidableEq, Repr

/-- A demodulated tone (R240, R245): its cartridge and its level in 0.1 dB. -/
structure Tone where
  cart : Fin 22
  level : BitVec 16
deriving DecidableEq, Repr

/-- A link or lane message body (R505). -/
structure LinkMsg where
  kind : Byte
  code : Byte
  src : BitVec 13
  dest : BitVec 13
  port : BitVec 4
  count : Byte
  lseq : BitVec 16
  gen : BitVec 16
  xfer : Word
deriving DecidableEq, Repr

/-- A beacon (R256); `hops` is the header's count, 0 for the direct neighbour's own. -/
structure Beacon where
  hops : Byte
  src : BitVec 13
  port : BitVec 4
  slice : BitVec 12
  bypassOpen : Bool
  txSpare : BitVec 5
  sources : List (BitVec 5)
deriving DecidableEq, Repr

/-- A cell (R271, R272): its header fields, payload, block checks, TAG with its first byte the most significant, and
CRC. With ENC the payload and the block checks are ciphertext. -/
structure Cell where
  type : Byte
  flags : Byte
  slice : BitVec 12
  dest : BitVec 13
  src : BitVec 13
  vcid : BitVec 16
  epoch : BitVec 16
  gen : BitVec 16
  lseq : BitVec 16
  hops : Byte
  key : Byte
  length : BitVec 16
  xfer : Word
  addr : BitVec 64
  index : Word
  group : Word
  tensor : Word
  birth : BitVec 16
  nonce : BitVec 64
  payload : List Byte
  bchk : List Word
  tag : BitVec 128 := 0
  crc : Word := 0
deriving DecidableEq, Repr

/-- What the receiver of a slot finds (R235–R237, R246, R343): the symbols that arrive wrong, by lane and position in
the lane, the marker read on each lane, none for a missing one, and whether parity is right in its buffers. -/
structure RxEnv where
  errs : List (Fin 16 × Fin 1318)
  markers : List (Option (BitVec 36))
  parityOk : Bool
deriving DecidableEq, Repr

/-- What the environment gives the module at one frame tick: what the tick's polls read in host memory, the
readings of the ring loops and the laser taps, and the 48 V input of the ended frame in W, 10 mV and 10 mA. -/
structure TickEnv where
  polls : List RingPoll
  /-- CI of the checkpoint target area and of the fault log, where they lie in host memory (R404, R427) -/
  ckptCi : Word
  flogCi : Word
  rings : List RingRead
  lasers : List LaserRead
  watts : BitVec 16
  vin : BitVec 16
  iin : BitVec 16
  /-- TRIG_IN at the tick, and whether it was low for the whole ended frame (R485) -/
  trigHigh : Bool
  trigLow : Bool
  /-- memory errors that the tick's accesses to device rings meet (R157) -/
  ringErr : MemErr := {}
deriving DecidableEq, Repr

/-- A vector stream (R113, R114): base byte address in scratchpad, format, scale array of a block format,
counts and strides of the four dimensions. -/
structure Stream where
  base : BitVec 32
  fmt : Fmt
  scale : Option (BitVec 32)
  n0 : BitVec 17
  n1 : BitVec 17
  n2 : BitVec 17
  n3 : BitVec 17
  t0 : BitVec 25
  t1 : BitVec 25
  t2 : BitVec 25
  t3 : BitVec 25
deriving DecidableEq, Repr

/-- The operands of random bits (R67, R129): element-index base, tensor ID, draw number. -/
structure Draw where
  e0 : BitVec 45
  tensor : BitVec 32
  draw : BitVec 64
deriving DecidableEq, Repr

/-- The relation of CMP (R121); the codes are the compiler's. -/
inductive Rel where
  | eq | ne | lt | le | unknown
deriving DecidableEq, Repr

/-- The operands of an MMA (R81). -/
structure MmaArgs where
  tile : Byte
  acc : Bool
  exact : Bool
  /-- none for ANCHOR = auto -/
  anchor : Option (BitVec 16)
  m : BitVec 16
  n : BitVec 16
  k : BitVec 32
  aAddr : BitVec 32
  aFmt : Fmt
  aScale : Option (BitVec 32)
  bAddr : BitVec 32
  bFmt : Fmt
  bScale : Option (BitVec 32)
  trans : Bool
  keep : Bool
deriving DecidableEq, Repr

/-- The reduction of an ARD (R105). -/
inductive Red where
  | none | max | min | unknown
deriving DecidableEq, Repr

/-- The operands of an ARD (R105). -/
structure ArdArgs where
  tile : Byte
  m : BitVec 16
  n : BitVec 16
  fmt : Fmt
  dst : BitVec 32
  dstScale : Option (BitVec 32)
  red : Red
  jb : BitVec 32
  rs : BitVec 45
  dr : Draw
deriving DecidableEq, Repr

/-- An input set as the partner's guest area describes it (R368, R391): its slot data. -/
structure GuestSlot where
  step : BitVec 32
  first : BitVec 22
  pages : BitVec 22
deriving DecidableEq, Repr

/-- What the partner answers before a Daybreak load (R391): its LAST_STEP, its mirror's STATE, and the input sets that
its guest area holds. -/
structure PartnerState where
  lastStep : Word
  state : BitVec 2
  sets : List GuestSlot
deriving DecidableEq, Repr

/-- What the hardware does to a re-run (R348): an error of the arrays flips bits of one element and of the marks, none where
both are 0; and the die temperatures of the producing and the checking core in °C (R351). -/
structure DupRun where
  element : BitVec 14
  flip : BitVec 128
  marks : BitVec 5
  temp : Int
  checkTemp : Int
deriving DecidableEq, Repr

/-- How this module stands in a digest comparison (R356, R357). -/
inductive Standing where
  | majority | minority | noMajority
deriving DecidableEq, Repr

/-- A unit that has a health score (R357). -/
inductive HealthUnit where
  | core (c : Fin 144) | cluster (k : Fin 36) | module
deriving DecidableEq, Repr

/-- Whose key verifies the signature of a test pack (R361); none for a signature that verifies against no key. -/
inductive PackKey where
  | colutas | operator (k : Fin 4)
deriving DecidableEq, Repr

/-- An item of a test pack (R361): its core program, its operands, the hash expected over its end tile state, and its die
temperature window in °C. -/
structure TestItem where
  program : List Byte
  operands : List Byte
  hash : BitVec 128
  low : Int
  high : Int
deriving DecidableEq, Repr

/-- A test pack pushed over the management network (R361): its header, its items, its SVN (R455), its size in bytes, and the
key that verifies it. -/
structure PackPush where
  id : Word
  operatorMade : Bool
  admission : Bool
  items : List TestItem
  svn : BitVec 24
  size : Nat
  key : Option PackKey
deriving DecidableEq, Repr

/-- Why the dump engine records a section as UNREADABLE after a read (R431). -/
inductive DumpMiss where
  | noResponse | truncated | ringError
deriving DecidableEq, Repr

/-- How whole-module recovery ends (R437). -/
inductive RecoveryEnd where
  | done | imageBad | trainingFailed
deriving DecidableEq, Repr

/-- A key request (R456): kind 1 weight, 2 link; VCID, broker nonce, and the dump public key. -/
structure KeyReq where
  kind : Byte
  vcid : BitVec 16
  nonce : BitVec 256
  dump : BitVec 768
deriving DecidableEq, Repr

/-- KEY_WRAP (R456): kind and slot of the offer that it answers, the broker's ephemeral public key, the 32 wrapped key bytes
and the tag, their first bytes the most significant. -/
structure KeyWrapMsg where
  kind : Byte
  slot : Byte
  pub : BitVec 768
  wrapped : BitVec 256
  tag : BitVec 128
deriving DecidableEq, Repr

/-- The client certificate of a TLS connection (R452). -/
inductive ClientCert where
  | absent | verifies | fails
deriving DecidableEq, Repr

/-- A vendor token (R464, R466): whether its signature, serial number and validity hold, and the fuse words that it
names. -/
structure VendorToken where
  valid : Bool
  fuses : List Nat
deriving DecidableEq, Repr

/-- A processor that an invasive session halts (R464). -/
inductive HaltTarget where
  | core (c : Fin 144) | control (k : Fin 8)
deriving DecidableEq, Repr

/-- What an invasive session reads or writes (R464): a PA with a length in bytes, a scratchpad, or a tile's 128 × 128
binary32 codes. -/
inductive DebugTarget where
  | memory (pa : BitVec 40) (n : Nat)
  | scratchpad (c : Fin 144) (a : BitVec 22) (n : Nat)
  | tile (c : Fin 144) (t : Fin 32)
deriving DecidableEq, Repr

/-- What Idfort finds in an image (R454, R455): the copy's host read, the header, the key, the signature, the SVN and
the digest. -/
structure ImageCheck where
  readError : Bool
  malformed : Bool
  key : Fin 4
  sigOk : Bool
  svn : BitVec 24
  digest : BitVec 384
deriving DecidableEq, Repr

/-- The commands: one constructor per row of the table of operations and events. -/
inductive Instr where
  /-- FRAME_TICK (R21): At each frame tick the module carries out its tick-aligned actions in the fixed order, starting with the frame counter advance. -/
  | frameTick (e : TickEnv)
  /-- FTB_FRAME_LO_READ (R23): Reading FTB_FRAME_LO latches FTB_FRAME_HI and FTB_PHASE in the same hub cycle. -/
  | ftbFrameLoRead (cycle : Fin 8192) (fine : Fin 64)
  /-- TIME_MESSAGE_RECEIVE (R26): A received time message yields the offset and delay to that neighbour and its eligibility as parent. -/
  | timeMessageReceive (port : Fin 16) (m : TimeMsg) (arrival : BitVec 64)
  /-- TIME_LOCK (R28): After 16 consecutive frames within 25 ps a follower sets LOCKED, clearing TIME_LOSS and TERM_ONLY after a step. -/
  | timeLock
  /-- TIME_UNLOCK (R28): After 4 consecutive frames beyond 100 ps a follower clears LOCKED. -/
  | timeUnlock
  /-- DEPUTY_PROMOTION (R31): At the second consecutive stale tick the deputy promotes itself to master with a new epoch. -/
  | deputyPromotion
  /-- TIME_LOSS (R37): HOLD_CNT reaching HOLD_LIMIT raises TIME_LOSS and limits the slot switch to termination. -/
  | timeLoss
  /-- TIME_STEP (R39): At the next tick the module steps its phase and frame counter to its parent's values. -/
  | timeStep (parentFrame : BitVec 64)
  /-- FTB_LOAD_HI_WRITE (R47): Writing FTB_LOAD_HI arms a load of the frame counter. -/
  | ftbLoadHiWrite (p : Party) (v : Word)
  /-- COUNTER_LOAD (R47): At the next tick or PPS_IN edge the counter takes the loaded value and VALID is set. -/
  | counterLoad
  /-- FRAME_OVERRUN (R43): At the B-th counted tick an uncompleted descriptor is stopped and completes with FRAME_OVERRUN. -/
  | frameOverrun (ring : Fin 256) (idx : Word)
  /-- REGISTER_WRITE (R166): A write to a register without a row of its own applies its writable fields, ignoring host writes to firmware-only fields. -/
  | registerWrite (p : Party) (addr v : Word)
  /-- ACW_WRITE (R62): The core program writes its arithmetic control word through a sequencer instruction. -/
  | acwWrite (core : Fin 144) (v : Word)
  /-- ASW_CLEAR (R63): The core program clears flags of its arithmetic status word through a sequencer instruction. -/
  | aswClear (core : Fin 144) (v : Word)
  /-- MMA (R81): The sequencer runs the passes of a matrix multiply into an accumulator tile. -/
  | mma (core : Fin 144) (a : MmaArgs) (e : MemErr) (x : TileErr)
  /-- ARD (R106): The sequencer reads a tile region out into scratchpad in the given format, with optional row reduction. -/
  | ard (core : Fin 144) (a : ArdArgs) (x : TileErr)
  /-- ADD (R119): Vector instruction writing a + b. -/
  | add (core : Fin 144) (a b d : Stream) (dr : Draw) (e : MemErr)
  /-- SUB (R119): Vector instruction writing a − b. -/
  | sub (core : Fin 144) (a b d : Stream) (dr : Draw) (e : MemErr)
  /-- MUL (R119): Vector instruction writing a × b. -/
  | mul (core : Fin 144) (a b d : Stream) (dr : Draw) (e : MemErr)
  /-- FMA (R119): Vector instruction writing a × b + c with one rounding. -/
  | fma (core : Fin 144) (a b c d : Stream) (dr : Draw) (e : MemErr)
  /-- MAX (R121): Vector instruction writing the larger input, A on equality. -/
  | max (core : Fin 144) (a b d : Stream) (dr : Draw) (e : MemErr)
  /-- MIN (R121): Vector instruction writing the smaller input, A on equality. -/
  | min (core : Fin 144) (a b d : Stream) (dr : Draw) (e : MemErr)
  /-- ABS (R122): Vector instruction writing the magnitude of a. -/
  | abs (core : Fin 144) (a d : Stream) (dr : Draw) (e : MemErr)
  /-- NEG (R122): Vector instruction writing −a. -/
  | neg (core : Fin 144) (a d : Stream) (dr : Draw) (e : MemErr)
  /-- CVT (R122): Vector instruction converting a into the output format. -/
  | cvt (core : Fin 144) (a d : Stream) (dr : Draw) (e : MemErr)
  /-- CMP (R121): Vector instruction writing 1 or 0 for EQ, NE, LT or LE. -/
  | cmp (core : Fin 144) (rel : Rel) (a b d : Stream) (dr : Draw) (e : MemErr)
  /-- SEL (R121): Vector instruction writing A where C is non-zero and B otherwise. -/
  | sel (core : Fin 144) (a b c d : Stream) (dr : Draw) (e : MemErr)
  /-- DIV (R119): Vector instruction writing a / b. -/
  | div (core : Fin 144) (a b d : Stream) (dr : Draw) (e : MemErr)
  /-- SQRT (R119): Vector instruction writing √a. -/
  | sqrt (core : Fin 144) (a d : Stream) (dr : Draw) (e : MemErr)
  /-- RCP (R122): Vector instruction writing 1 / a. -/
  | rcp (core : Fin 144) (a d : Stream) (dr : Draw) (e : MemErr)
  /-- RSQRT (R122): Vector instruction writing 1 / √a. -/
  | rsqrt (core : Fin 144) (a d : Stream) (dr : Draw) (e : MemErr)
  /-- EXP (R122): Vector instruction writing e^a. -/
  | exp (core : Fin 144) (a d : Stream) (dr : Draw) (e : MemErr)
  /-- EXP2 (R122): Vector instruction writing 2^a. -/
  | exp2 (core : Fin 144) (a d : Stream) (dr : Draw) (e : MemErr)
  /-- SUBEXP (R122): Vector instruction writing e^(a − b) with a − b exact. -/
  | subexp (core : Fin 144) (a b d : Stream) (dr : Draw) (e : MemErr)
  /-- LOG (R122): Vector instruction writing ln a. -/
  | log (core : Fin 144) (a d : Stream) (dr : Draw) (e : MemErr)
  /-- LOG2 (R122): Vector instruction writing log2 a. -/
  | log2 (core : Fin 144) (a d : Stream) (dr : Draw) (e : MemErr)
  /-- SIGMOID (R122): Vector instruction writing 1 / (1 + e^−a). -/
  | sigmoid (core : Fin 144) (a d : Stream) (dr : Draw) (e : MemErr)
  /-- TANH (R122): Vector instruction writing tanh a. -/
  | tanh (core : Fin 144) (a d : Stream) (dr : Draw) (e : MemErr)
  /-- ERF (R122): Vector instruction writing erf a. -/
  | erf (core : Fin 144) (a d : Stream) (dr : Draw) (e : MemErr)
  /-- GELU (R122): Vector instruction writing the GELU of a. -/
  | gelu (core : Fin 144) (a d : Stream) (dr : Draw) (e : MemErr)
  /-- SILU (R122): Vector instruction writing a × sigmoid(a). -/
  | silu (core : Fin 144) (a d : Stream) (dr : Draw) (e : MemErr)
  /-- SIN (R122): Vector instruction writing sin a for |a| up to 2^20. -/
  | sin (core : Fin 144) (a d : Stream) (dr : Draw) (e : MemErr)
  /-- COS (R122): Vector instruction writing cos a for |a| up to 2^20. -/
  | cos (core : Fin 144) (a d : Stream) (dr : Draw) (e : MemErr)
  /-- DSIGMOID (R128): Derivative instruction writing dy × y × (1 − y) from the saved output. -/
  | dsigmoid (core : Fin 144) (a b d : Stream) (dr : Draw) (e : MemErr)
  /-- DTANH (R128): Derivative instruction writing dy × (1 − y²) from the saved output. -/
  | dtanh (core : Fin 144) (a b d : Stream) (dr : Draw) (e : MemErr)
  /-- DEXP (R128): Derivative instruction writing dy × y, the elementary MUL under another name. -/
  | dexp (core : Fin 144) (a b d : Stream) (dr : Draw) (e : MemErr)
  /-- DRELU (R128): Derivative instruction writing dy where y > 0, +0 elsewhere and NaN where y is NaN. -/
  | drelu (core : Fin 144) (a b d : Stream) (dr : Draw) (e : MemErr)
  /-- DGELU (R128): Derivative instruction writing the GELU derivative times dy from the saved input. -/
  | dgelu (core : Fin 144) (a b d : Stream) (dr : Draw) (e : MemErr)
  /-- DSILU (R128): Derivative instruction writing the SiLU derivative times dy from the saved input. -/
  | dsilu (core : Fin 144) (a b d : Stream) (dr : Draw) (e : MemErr)
  /-- DERF (R128): Derivative instruction writing dy × (2/√π) × e^(−x²) from the saved input. -/
  | derf (core : Fin 144) (a b d : Stream) (dr : Draw) (e : MemErr)
  /-- RSUM (R123): Row reduction writing the sum of each row in the fixed grouped order. -/
  | rsum (core : Fin 144) (rdims : Byte) (a d : Stream) (dr : Draw) (e : MemErr)
  /-- RDOT (R123): Row reduction writing the sum of products a × b of each row. -/
  | rdot (core : Fin 144) (rdims : Byte) (a b d : Stream) (dr : Draw) (e : MemErr)
  /-- RSUMSQ (R123): Row reduction writing the sum of squares of each row. -/
  | rsumsq (core : Fin 144) (rdims : Byte) (a d : Stream) (dr : Draw) (e : MemErr)
  /-- RMAX (R124): Row reduction writing each row's maximum and its index. -/
  | rmax (core : Fin 144) (rdims : Byte) (ib : Word) (a d d2 : Stream) (dr : Draw) (e : MemErr)
  /-- RMIN (R124): Row reduction writing each row's minimum and its index. -/
  | rmin (core : Fin 144) (rdims : Byte) (ib : Word) (a d d2 : Stream) (dr : Draw) (e : MemErr)
  /-- RAND (R129): Vector instruction writing a Philox uniform value in [0, 1) per element. -/
  | rand (core : Fin 144) (d : Stream) (dr : Draw) (e : MemErr)
  /-- DROP (R129): Vector instruction keeping or zeroing each element by its Philox draw against a threshold. -/
  | drop (core : Fin 144) (thr : BitVec 24) (k : Word) (a d : Stream) (mask : Option Stream) (dr : Draw) (e : MemErr)
  /-- SAMPLE (R129): Vector instruction writing the index of the Gumbel-max sample of each row. -/
  | sample (core : Fin 144) (rdims : Byte) (tauInv ib : Word) (a d : Stream) (dr : Draw) (e : MemErr)
  /-- SSIG (R214): The sequencer signals a local or remote counter after its earlier writes have landed. -/
  | ssig (core : Fin 144) (vid : BitVec 16) (mod : Option (BitVec 13)) (v : SigVal)
  /-- SWAIT (R215): The core gates its clock until a counter reaches the threshold. -/
  | swait (core : Fin 144) (vid : BitVec 16) (thr : BitVec 64) (wdog : Word)
  /-- SBAR (R224): The core arrives at a barrier with a payload and waits for the release. -/
  | sbar (core : Fin 144) (vid : BitVec 16) (payOp : Byte) (payload : BitVec 64) (res : BitVec 22) (wdog : Word)
  /-- COMMIT (R193): The core marks that its earlier writes form a complete sub-step. -/
  | commit (core : Fin 144)
  /-- POST (R198): The core copies a descriptor into the next slot of a device-resident ring of its context. -/
  | post (core : Fin 144) (ring : Fin 256) (src : BitVec 22) (e : MemErr)
  /-- GCLAIM (R314): The core claims a gradient region for a producer tag in the open attempt. -/
  | gclaim (core : Fin 144) (region tag : BitVec 16) (e : MemErr)
  /-- KICK_WRITE (R173): A write to SUB_KICKn delivers a producer index that the dispatcher examines within 1 µs. -/
  | kickWrite (ring : Fin 256) (pi : Word)
  /-- RING_ENABLE (R172): Setting ENABLE starts a ring and resets CI and CQ_PI to 0. -/
  | ringEnable (p : Party) (ring : Fin 256) (v : Word)
  /-- RING_DISABLE (R172): Clearing ENABLE stops fetching at the next tick while issued descriptors run on. -/
  | ringDisable (p : Party) (ring : Fin 256) (v : Word)
  /-- DESCRIPTOR_FETCH (R176): The dispatcher reads the slot at CI, checks its sequence number and accepts or rejects the descriptor. -/
  | descriptorFetch (ring : Fin 256) (slot : Descriptor) (e : MemErr)
  /-- RING_STALL (R176): After 16 consecutive failed sequence checks of one index the dispatcher posts the RING_STALL notice. -/
  | ringStall (ring : Fin 256)
  /-- LAUNCH (R184): The dispatcher issues a program to every core of the set in the same hub cycle. -/
  | launch (ring : Fin 256)
  /-- DMA (R148): A DMA engine copies bytes between regions of memory, scratchpad or a remote module. `part`: how many units
  of 64 bytes it handles now, none for all that are left. -/
  | dma (ring : Fin 256) (e : MemErr) (part : Option Word)
  /-- COLL (R295): The collective engine runs a reduce-scatter, all-gather, all-reduce, broadcast or reduce over a group. -/
  | coll (ring : Fin 256) (e : MemErr)
  /-- SIGNAL (R211): A SIGNAL descriptor adds its value to a local or remote counter. -/
  | signal (ring : Fin 256)
  /-- WAIT (R213): A WAIT descriptor completes once its counter reaches the threshold. -/
  | wait (ring : Fin 256)
  /-- BARRIER (R224): A BARRIER descriptor arrives at a barrier with a payload and completes at release. -/
  | barrier (ring : Fin 256)
  /-- UPDATE (R320): Fused update units apply an optimizer rule to a range of parameters and write master, moments and copies. -/
  | update (ring : Fin 256) (e : MemErr) (part : Option Word)
  /-- DIGEST (R354): The digest engines hash a range of pages and write the 16-byte digest. -/
  | digest (ring : Fin 256) (e : MemErr) (part : Option Word)
  /-- PHASE (R278): A PHASE descriptor makes a loaded schedule bank pending for a swap frame. -/
  | phase (ring : Fin 256)
  /-- SNAP (R472): A SNAP descriptor arms a module or slice Midnight capture. -/
  | snap (ring : Fin 256)
  /-- FENCE (R186): A FENCE completes when every earlier descriptor in its scope has completed, with writes visible if asked. -/
  | fence (ring : Fin 256)
  /-- NOON (R317): Once earlier work and duplicates have reported, the module forms its vote and arrives at the Noon barrier. -/
  | noon (ring : Fin 256)
  /-- CLOSE (R329): A CLOSE names the step, close frame and retention of the step to commit. -/
  | close (ring : Fin 256)
  /-- DESCRIPTOR_COMPLETE (R188): A finished descriptor gets its completion record, completion signal and interrupt. -/
  | descriptorComplete (ring : Fin 256) (idx : Word) (e : MemErr)
  /-- CONTEXT_ACTIVATE (R166): Firmware writes ACTIVATE to move a FREE context to ACTIVE. -/
  | contextActivate (p : Party) (ctx : Fin 64) (v : Word)
  /-- SUB_PROG_DATA0_READ (R196): Reading SUB_PROG_DATA0 latches DATA1–7 of the selected progress record. -/
  | subProgData0Read
  /-- MBX_TX (R201): An endpoint writes a word with its identity into the queue towards the other endpoint. -/
  | mbxTx (who : BitVec 16) (ch : Fin 32) (w : Word)
  /-- MBX_RX (R203): Reading MBX_CHn_RX removes the oldest word and latches its sender stamp. -/
  | mbxRx (who : BitVec 16) (ch : Fin 32)
  /-- SIGNAL_MESSAGE (R220): A remote SIGNAL message is checked, applied once and answered with ACK or NACK. -/
  | signalMessage (port : Fin 16) (m : SyncMsg)
  /-- SYNC_ACK (R220): An ACK completes the remote SIGNAL descriptor or acknowledges the SSIG. -/
  | syncAck (m : SyncMsg)
  /-- SYNC_NACK (R222): A NACK fails the sender's descriptor or LAUNCH with its code. -/
  | syncNack (m : SyncMsg)
  /-- REMOTE_SIGNAL_TIMEOUT (R221): No ACK or NACK within 16 frames fails the sender with LINK_DOWN. -/
  | remoteSignalTimeout (tag : BitVec 16)
  /-- BARRIER_ARRIVE (R226): An ARRIVE from a child is counted and may complete the module's part of the episode. -/
  | barrierArrive (port : Fin 16) (m : SyncMsg)
  /-- BARRIER_RELEASE (R226): A RELEASE is forwarded to children, local arrivals complete with the result and the sense flips. -/
  | barrierRelease (port : Fin 16) (m : SyncMsg)
  /-- BARRIER_BREAK (R228): A received BREAK breaks the barrier and fails its local arrivals. -/
  | barrierBreak (port : Fin 16) (m : SyncMsg)
  /-- SYNC_WATCHDOG (R216): A wait unsatisfied at its W-th counted tick ends with SYNC_WATCHDOG. -/
  | syncWatchdog (w : Waiter)
  /-- SYN_OBJ_VAL_LO_READ (R230): Reading SYN_OBJ_VAL_LO latches SYN_OBJ_VAL_HI and SYN_OBJ_STATE. -/
  | synObjValLoRead
  /-- SYN_OBJ_VAL_HI_WRITE (R230): Writing SYN_OBJ_VAL_HI sets the counter and re-evaluates its waiters. -/
  | synObjValHiWrite (p : Party) (v : Word)
  /-- SYN_BAR_REARM (R228): A rearm aborts remaining arrivals and resets the barrier to sense 0. -/
  | synBarRearm (p : Party) (v : Word)
  /-- SYN_XLAT_INVAL (R210): Firmware starts invalidation of cached synchronisation translations. -/
  | synXlatInval (p : Party) (v : Word)
  /-- SYN_XLAT_DONE (R210): The synchronisation translation invalidation completes and BUSY clears. -/
  | synXlatDone
  /-- CORE_MX_PASS_LO_READ (R112): Reading CORE_MX_PASS_LO latches CORE_MX_PASS_HI. -/
  | coreMxPassLoRead (core : Fin 144)
  /-- CORE_VX_ELEM_LO_READ (R132): Reading CORE_VX_ELEM_LO latches CORE_VX_ELEM_HI. -/
  | coreVxElemLoRead (core : Fin 144)
  /-- INT_DUP_SAMPLED_LO_READ (R364): Reading INT_DUP_SAMPLED_LO latches INT_DUP_SAMPLED_HI. -/
  | intDupSampledLoRead
  /-- MEM_XLAT_INVAL (R142): Firmware starts invalidation of cached address translations for a context or all. -/
  | memXlatInval (p : Party) (v : Word)
  /-- MEM_XLAT_DONE (R142): The address translation invalidation completes and BUSY clears. -/
  | memXlatDone
  /-- MEM_REPAIR_GO (R159): Firmware requests a soft post-package repair of a row chunk. -/
  | memRepairGo (p : Party) (v : Word)
  /-- REPAIR_START (R160): At the tick the controller moves the chunk into the hold buffer and closes the bank. -/
  | repairStart
  /-- REPAIR_DONE (R160): The buffer is written to the spare row, the bank reopens and DONE or NO_SPARE is set. -/
  | repairDone (stalls : BitVec 16)
  /-- MEM_TEMP_SAMPLE (R153): Every 256 frames each controller samples its hottest device and sets its refresh state. -/
  | memTempSample (mem : Fin 9) (temp : Byte)
  /-- SCRUB_READ (R158): Patrol scrub reads a granule in idle cycles and poisons it on an uncorrectable error. -/
  | scrubRead (granule : BitVec 34) (result : ReadResult)
  /-- CE_WINDOW_EXPIRE (R156): The 24 h window of a row chunk ends before 16 errors and its count is dropped. -/
  | ceWindowExpire (granule : BitVec 34)
  /-- RING_LOCK (R244): After 16 frames within ±5 codes a ring becomes LOCKED and its tone check starts. -/
  | ringLock (r : RingName)
  /-- TONE_CHECK_END (R245): A tone check block ends and the ring becomes VERIFIED or raises WRONG_LAMBDA. -/
  | toneCheckEnd (r : RingName) (tones : List Tone)
  /-- RING_SWEEP_END (R249): A 250-frame recovery sweep ends and the ring moves to its extremum to acquire. -/
  | ringSweepEnd (r : RingName) (extremum : Option (BitVec 16))
  /-- LANE_ALARM (R246): After 4 slots with a lane in error the receiver raises a lane alarm and starts short checks. -/
  | laneAlarm (port : Fin 16)
  /-- LANE_ALARM_MESSAGE (R246): A received LANE_ALARM starts short tone checks on the named transmit rings. -/
  | laneAlarmMessage (port : Fin 16) (m : LinkMsg)
  /-- LANE_MOVE (R250): A received LANE_MOVE announcement prepares the receiver for the lane on the new wavelength. -/
  | laneMove (port : Fin 16) (m : LinkMsg)
  /-- LANE_MOVE_REQUEST (R250): A source receives a request to move a lane onto λ16 and starts the move. -/
  | laneMoveRequest (port : Fin 16) (m : LinkMsg)
  /-- LANE_MOVE_REFUSAL (R251): A refused LANE_MOVE request leaves the requesting port on RX_HOLD. -/
  | laneMoveRefusal (port : Fin 16) (m : LinkMsg)
  /-- LANE_MOVE_SWITCH (R250): At tick D+18 the lane travels on its new wavelength and TX_SPARE changes. -/
  | laneMoveSwitch (port : Fin 16)
  /-- SPARE_LOCKED (R258): The spare cartridge locks on the target wavelength and power matching starts. -/
  | spareLocked (lam : Fin 18)
  /-- SPARE_LOCK_TIMEOUT (R258): A spare not locked in 24,414 frames is FAILED and the next spare starts. -/
  | spareLockTimeout (lam : Fin 18)
  /-- SPARE_MATCHED (R258): The spare is power-matched and the swap frame and new source are announced in beacons. -/
  | spareMatched (lam : Fin 18)
  /-- LASER_SOURCE_SWITCH (R258): In the slot 0 guard of the swap frame the selector switches the wavelength to the spare. -/
  | laserSourceSwitch (lam : Fin 18)
  /-- OLD_SOURCE_DARK (R258): At S+16 the old cartridge goes dark and READY_TO_PULL, and the spare rises to its own P_c. -/
  | oldSourceDark (lam : Fin 18) (pc : BitVec 16)
  /-- LASER_FAIL (R260): A sudden power drop or a pulled lit cartridge fails the cartridge and moves its lane to λ16. -/
  | laserFail (cart : Fin 22)
  /-- CARTRIDGE_RELEASE (R242): Firmware writes RELEASE and the bank swaps the cartridge out until READY_TO_PULL. -/
  | cartridgeRelease (p : Party) (cart : Fin 22) (v : Word)
  /-- LEVER_OPEN (R242): Opening a cartridge lever starts the same release as RELEASE. -/
  | leverOpen (cart : Fin 22)
  /-- CARTRIDGE_PULL (R242): A cartridge is removed from the bank, counting as a failure when lit. -/
  | cartridgePull (cart : Fin 22)
  /-- CARTRIDGE_INSERT (R242): A new cartridge is warmed and measured and its wavelength handed back by planned swap. -/
  | cartridgeInsert (cart : Fin 22) (pc : BitVec 16)
  /-- CELL_LAUNCH (R283): A cell is launched in a FIXED slot of its flow or an OPEN slot against a credit. -/
  | cellLaunch (slot : Fin 64) (port : Fin 16) (term : BitVec 13)
  /-- CELL_RECEIVE (R281): A terminated cell is decoded, checked, aged and then delivered or forwarded. -/
  | cellReceive (slot : Fin 64) (port : Fin 16) (c : Cell) (e : RxEnv)
  /-- READ_REQ_SERVE (R271): A hub DMA engine answers a READ_REQ with READ_DATA cells. -/
  | readReqServe (src : BitVec 13) (xfer : Word) (e : MemErr)
  /-- LINK_ACK (R252): A cumulative ACK ends the flight of the acknowledged cells. -/
  | linkAck (port : Fin 16) (m : LinkMsg)
  /-- LINK_NAK (R253): A NAK returns the refused cell to the head of its queue for relaunch. -/
  | linkNak (port : Fin 16) (m : LinkMsg)
  /-- HOLD_REFUSAL (R248): A HOLD refusal keeps the cell queued until the port sends RESUME. -/
  | holdRefusal (port : Fin 16) (m : LinkMsg)
  /-- RESUME (R248): A RESUME lets the source relaunch cells held for the port. -/
  | resume (port : Fin 16) (m : LinkMsg)
  /-- CREDIT (R283): A CREDIT message returns open-buffer credits for the port. -/
  | credit (port : Fin 16) (m : LinkMsg)
  /-- DELIVERED (R289): A DELIVERED report completes a transfer of a DMA or COLL descriptor. -/
  | delivered (m : LinkMsg)
  /-- CELL_REFUSAL (R289): A refusal report ends the source descriptor FAULTED with its code. -/
  | cellRefusal (m : LinkMsg)
  /-- CELL_INFLIGHT_TIMEOUT (R252): A cell without ACK or refusal for 16 frames counts as refused. -/
  | cellInflightTimeout (port : Fin 16) (term : BitVec 13) (lseq : BitVec 16)
  /-- DELIVERY_TIMEOUT (R289): No DELIVERED within 16 frames of the last ACK ends the descriptor with LINK_DOWN. -/
  | deliveryTimeout (xfer : Word)
  /-- QUIET_LIMIT_EXPIRE (R254): A port quiet or held for OPT_QUIET_LIMIT frames raises LINK_DOWN. -/
  | quietLimitExpire (port : Fin 16)
  /-- SERVICE_MESSAGE_RECEIVE (R255): A service message is checked per hop, forwarded cut-through or terminated, with NAK on errors. -/
  | serviceMessageReceive (port : Fin 16) (bytes : List Byte) (route : Option (BitVec 13 × BitVec 13))
  /-- BEACON_SEND (R256): Every 64 frames, or on a change, each port sends its beacon. -/
  | beaconSend (port : Fin 16)
  /-- BEACON_RECEIVE (R256): A received beacon updates the source's stored lane map and cartridges. -/
  | beaconReceive (port : Fin 16) (b : Beacon)
  /-- PORT_TRAINING_DONE (R269): After 16 training frames the port may launch and terminate cells again. -/
  | portTrainingDone (port : Fin 16)
  /-- DELAY_MEASURE_DONE (R293): After 16 frames the port delay, slot lag, offset and EXPRESS_OK are updated. -/
  | delayMeasureDone (port : Fin 16)
  /-- PEER_SILENT (R389): A port without a valid service message for 64 frames reports its peer silent. -/
  | peerSilent (port : Fin 16)
  /-- PORT_GAP_START (R267): A port gap begins at the programmed frame and the port launches no cells. -/
  | portGapStart (port : Fin 16)
  /-- PORT_GAP_END (R267): A port gap ends after its length. -/
  | portGapEnd (port : Fin 16)
  /-- BYPASS_ARM (R267): Firmware arms a bypass motion to TARGET at a frame. -/
  | bypassArm (p : Party) (b : Fin 8) (v : Word)
  /-- BYPASS_CLOSE_COMMAND (R265): Firmware or Idfort commands CLOSED and the hold ends at once. -/
  | bypassCloseCommand (p : Party) (b : Fin 8)
  /-- BYPASS_MOTION_START (R266): A bypass switch starts moving, or defers an opening under the rate limit. -/
  | bypassMotionStart (b : Fin 8)
  /-- BYPASS_MOTION_END (R266): A bypass switch reaches its new position after at most 8 ms. -/
  | bypassMotionEnd (b : Fin 8)
  /-- LISTENER_MESSAGE (R268): The standby listener decodes a passing time message or beacon and keeps the frame count. -/
  | listenerMessage (b : Fin 8) (frame : BitVec 64)
  /-- SCHED_LOAD (R277): Firmware starts loading a schedule bank from an image. -/
  | schedLoad (p : Party) (v : Word)
  /-- SCHED_LOAD_DONE (R277): The loader finishes checking the image and sets LOADED or ERROR. -/
  | schedLoadDone
  /-- SCHEDULE_SWAP (R278): At the tick of the swap frame the pending bank becomes active. -/
  | scheduleSwap
  /-- ROUTE_DATA_WRITE (R285): Firmware writes a routing entry, to take effect at the next tick. -/
  | routeDataWrite (p : Party) (v : Word)
  /-- ROUTE_ENTRY_EFFECT (R285): A written routing entry takes effect at the tick. -/
  | routeEntryEffect (index : BitVec 13)
  /-- REROUTE (R290): At the tick after LINK_DOWN, routes with an alternative use ALT_PORT, and return when the port is UP. -/
  | reroute (port : Fin 16)
  /-- KEY_SWITCH_ARM (R302): Writing SWT_KEY_SWITCH_HI arms or disarms a link key switch. -/
  | keySwitchArm (p : Party) (v : Word)
  /-- KEY_SWITCH (R302): At the switch frame launches use the other key slot. -/
  | keySwitch
  /-- OLD_KEY_ERASE (R302): 64 frames after the switch the old key slot is erased. -/
  | oldKeyErase
  /-- STEP_TRACKING_ENABLE (R306): Firmware sets or clears step tracking, clearing it ending a stall. -/
  | stepTrackingEnable (p : Party) (v : Word)
  /-- STEP_ARM (R307): Firmware arms a step open at frame F_o. -/
  | stepArm (p : Party) (v : Word)
  /-- STEP_CANCEL (R336): Firmware writes CANCEL to clear an armed open. -/
  | stepCancel (p : Party) (v : Word)
  /-- STEP_OPEN (R307): At the open tick the module opens the attempt, clears dirt and takes step bases. -/
  | stepOpen (ctx : Fin 64)
  /-- CLOSE_READY (R329): The CLOSE becomes ready once every earlier descriptor has completed with writes visible. -/
  | closeReady (ctx : Fin 64)
  /-- STEP_COMMIT (R330): At F_c a ready CLOSE on a VOTED attempt commits the step. -/
  | stepCommit (ctx : Fin 64)
  /-- CLOSE_DEADLINE (R331): At F_c − 3 a CLOSE not yet ready fails and BREAK is sent on the Noon barrier. -/
  | closeDeadline (ctx : Fin 64)
  /-- VOTED_TIMEOUT (R332): A VOTED attempt with no CLOSE one watchdog after release sends BREAK and discards. -/
  | votedTimeout (ctx : Fin 64)
  /-- ATTEMPT_DISCARD (R372): At the discard tick the attempt's descriptors abort and the drain starts. -/
  | attemptDiscard (ctx : Fin 64)
  /-- DISCARD_DRAIN_END (R374): At D+32 the module restores objects and pages and drains the context's rings. -/
  | discardDrainEnd (ctx : Fin 64)
  /-- RESTORE_COMPLETE (R374): Restore finishes, the context is READY and arrives at the replay barrier. -/
  | restoreComplete (ctx : Fin 64)
  /-- REPLAY_DISCARD_WRITE (R371): Firmware writes RPL_REPLAY_CTRL.DISCARD to discard the open attempt. -/
  | replayDiscardWrite (p : Party) (v : Word)
  /-- REPLAY_ARRIVE_WRITE (R395): Firmware writes ARRIVE to clear HOLD and arrive at the replay barrier. -/
  | replayArriveWrite (p : Party) (v : Word)
  /-- REPLAY_OPEN (R379): A REPLAY_OPEN announcement arms the next attempt for F_r. -/
  | replayOpen (m : Announce)
  /-- DISCARD_ANNOUNCE (R380): A DISCARD announcement arms a discard at its frame, with optional HOLD. -/
  | discardAnnounce (m : Announce)
  /-- ARRIVE_ANNOUNCE (R380): An ARRIVE announcement clears HOLD so the module arrives at the replay barrier. -/
  | arriveAnnounce (m : Announce)
  /-- DUSK_ANNOUNCE (R445): A DUSK announcement starts Dusk on the named context at its frame. -/
  | duskAnnounce (m : Announce)
  /-- IDENTITY_REQUEST (R490): A class-7 identity or health request addressed to the module is answered. -/
  | identityRequest (src : BitVec 13) (dest : BitVec 13)
  /-- SET_OPEN (R367): Firmware opens a FILLING input set in the replay ring, or it is refused. -/
  | setOpen (p : Party) (v : Word)
  /-- SET_SEAL (R368): Firmware seals the newest set and the ring engine copies it to the partner's guest area. -/
  | setSeal (p : Party) (v : Word)
  /-- SET_SEALED (R368): The partner's DELIVERED report makes the set SEALED. -/
  | setSealed
  /-- CLUSTER_FENCE (R387): Firmware requests a cluster fence, which is refused or made PENDING. -/
  | clusterFence (p : Party) (v : Word)
  /-- DAYBREAK_LOAD (R391): Firmware starts the state load from the partner, checking its LAST_STEP. -/
  | daybreakLoad (p : Party) (v : Word) (ans : Option PartnerState)
  /-- DAYBREAK_DONE (R391): State load and ADMISSION items finish and the context reaches READY. -/
  | daybreakDone
  /-- CKPT_ARM (R398): Firmware arms a checkpoint cut at the commit of a step. -/
  | ckptArm (p : Party) (v : Word)
  /-- CKPT_CANCEL (R406): CANCEL clears ARM, fails a running copy or ends RESTORE_FAILED. -/
  | ckptCancel (p : Party) (v : Word)
  /-- CKPT_PAGE_COPY (R401): The copy engine hashes a pending page and sends it or skips it. -/
  | ckptPageCopy (e : MemErr) (fail : Option Byte)
  /-- CKPT_DONE (R405): The END record is visible and the checkpoint is DONE. -/
  | ckptDone (fail : Option Byte)
  /-- CKPT_TARGET_STALL (R406): CI unchanged for TGT_LIMIT while the ring is full fails the checkpoint. -/
  | ckptTargetStall
  /-- CKPT_TGT_ENABLE (R417): Setting TGT_CFG.ENABLE puts the target area in use and restarts SEQ at 0. -/
  | ckptTgtEnable (p : Party) (v : Word)
  /-- CKPT_RESTORE (R412): Firmware starts a restore and the engine consumes the target area. -/
  | ckptRestore (p : Party) (v : Word)
  /-- RESTORE_RECORD (R413): The engine checks a restore record and writes its page or fails. -/
  | restoreRecord (rec : BitVec 512) (page : List Byte)
  /-- CKPT_RESTORE_DONE (R415): A successful restore rebuilds derived pages and sets RESTORED. -/
  | ckptRestoreDone
  /-- DUP_CHECK_RUN (R348): The checking core re-runs a sampled sequence and compares the end state. -/
  | dupCheckRun (pcore : Fin 144) (q : Word) (run : DupRun)
  /-- DUP_LIMIT_EXPIRE (R349): A duplicate not reported LIMIT frames after the NOON is held counts as skipped. -/
  | dupLimitExpire (ctx : Fin 64)
  /-- DIGEST_FAULT_RAISE (R356): Firmware writes INT_DIGEST_FAULT.GO to raise DIGEST_MISMATCH. -/
  | digestFaultRaise (p : Party) (v : Word) (standing : Standing)
  /-- HEALTH_SCORE_WRITE (R358): Firmware writes a health score, which is recorded in CPER. -/
  | healthScoreWrite (p : Party) (v : Word)
  /-- TEMP_BAND_CHECK (R351): Every 256 frames each core's temperature is compared with its band entries. -/
  | tempBandCheck (core : Fin 144) (temp : Int)
  /-- BAND_ENTRY_EXPIRE (R351): A temperature band entry older than BAND_DAYS is dropped. -/
  | bandEntryExpire (core : Fin 144)
  /-- HEALTH_RECOVERY (R357): A unit 24 h without a charge gains 25 points. -/
  | healthRecovery (u : HealthUnit)
  /-- TEST_ITEM_START (R362): An idle core starts a test item in the Idfort context. -/
  | testItemStart (core : Fin 144) (pack : Word) (item : BitVec 16) (temp : Int)
  /-- TEST_ITEM_END (R362): A test item ends and its hash is compared, charging the core on failure. -/
  | testItemEnd (core : Fin 144) (hash : BitVec 128) (temp : Int) (sp : List (BitVec 22 × Byte))
  /-- TEST_PACK_PUSH (R361): A pushed test pack is verified and stored or rejected. -/
  | testPackPush (port : Fin 2) (pack : PackPush)
  /-- HEARTBEAT_CHECK (R419): Every 256 frames each core with a LAUNCH in flight is checked for progress. -/
  | heartbeatCheck (waited : List (Fin 144))
  /-- STOP_TIMEOUT (R424): A unit not stopped 16 frames after the request raises CORE_HANG and is reset. -/
  | stopTimeout (u : UnitRef)
  /-- INTERNAL_LINK_STALL (R420): A die-to-die or hub request unanswered for 64 frames raises LINK_DOWN and module recovery. -/
  | internalLinkStall (link : Fin 5)
  /-- HRC_FW_KICK (R421): A write restarts the control-complex watchdog. -/
  | hrcFwKick (p : Party)
  /-- FW_WATCHDOG_EXPIRE (R421): No kick within HRC_FW_WDOG raises CORE_HANG and whole-module recovery. -/
  | fwWatchdogExpire (cp : Fin 8)
  /-- DUMP_REQUEST (R432): The host requests a core, cluster or module dump. -/
  | dumpRequest (p : Party) (v : Word)
  /-- DUMP_ACK (R434): The host frees a dump slot. -/
  | dumpAck (p : Party) (v : Word)
  /-- DUMP_BLOCK_TIMEOUT (R431): A block silent for 1 ms has its section recorded UNREADABLE. -/
  | dumpBlockTimeout (block : BitVec 16) (section_ : Byte) (why : DumpMiss)
  /-- DUMP_END (R430): A dump finishes in its slot and DUMP_DONE is set. -/
  | dumpEnd
  /-- CORE_RESET_REQUEST (R435): Firmware requests the reset of a core. -/
  | coreResetRequest (p : Party) (v : Word)
  /-- CLUSTER_RESET_REQUEST (R435): Firmware requests the reset of a cluster. -/
  | clusterResetRequest (p : Party) (v : Word)
  /-- MODULE_RECOVERY_REQUEST (R435): Firmware requests whole-module recovery. -/
  | moduleRecoveryRequest (p : Party) (v : Word)
  /-- CORE_RESET_DONE (R435): A core reset and self-test end, possibly escalating to a fence request. -/
  | coreResetDone (core : Fin 144) (ok : Bool) (rtc : Nat)
  /-- CLUSTER_RESET_DONE (R435): A cluster reset and self-test end. -/
  | clusterResetDone (cluster : Fin 36) (ok : Bool) (rtc : Nat)
  /-- MODULE_RECOVERY (R437): Whole-module recovery ends every context, dumps, closes the bypass and resets the module. -/
  | moduleRecovery
  /-- MODULE_RECOVERY_DONE (R437): Firmware restarts and the module is Idle with its bypass closed. -/
  | moduleRecoveryDone (r : RecoveryEnd) (rtc : Nat)
  /-- FLOG_ENABLE (R427): Setting FLOG_CFG.ENABLE starts the fault log ring with PI at 0. -/
  | flogEnable (p : Party) (v : Word)
  /-- DUSK_REQUEST (R441): Firmware writes DUSK on an ACTIVE context to request teardown. -/
  | duskRequest (p : Party) (ctx : Fin 64) (v : Word)
  /-- DUSK (R441): At the tick the context's generation increments and its work is aborted and drained. -/
  | dusk (ctx : Fin 64)
  /-- DUSK_DRAIN_DONE (R443): At T+32 the context becomes FREE and sealed-page zeroing starts. -/
  | duskDrainDone (ctx : Fin 64)
  /-- ZEROING_DONE (R461): Zeroing of freed sealed pages finishes and ZEROING clears. -/
  | zeroingDone
  /-- GET_VERSION (R449): SPDM request answered with the supported version. -/
  | getVersion (net : Bool)
  /-- GET_CAPABILITIES (R449): SPDM request answered with the responder capabilities. -/
  | getCapabilities (net : Bool)
  /-- NEGOTIATE_ALGORITHMS (R449): SPDM request settling the single offered algorithm set. -/
  | negotiateAlgorithms (net : Bool) (offers : Bool)
  /-- GET_DIGESTS (R449): SPDM request answered with the digest of certificate slot 0. -/
  | getDigests (net : Bool)
  /-- GET_CERTIFICATE (R449): SPDM request answered with the DeviceID and Alias chain. -/
  | getCertificate (net : Bool) (slot : Byte)
  /-- CHALLENGE (R449): SPDM request answered with a signed challenge response. -/
  | challenge (net : Bool) (slot : Byte) (nonce : BitVec 256)
  /-- GET_MEASUREMENTS (R450): SPDM request answered with the measurement blocks. -/
  | getMeasurements (net : Bool) (index : Option Byte)
  /-- KEY_EXCHANGE (R449): SPDM request starting a secured session. -/
  | keyExchange (net : Bool) (sess : BitVec 16)
  /-- FINISH (R449): SPDM request completing the secured session handshake. -/
  | finish (net : Bool) (sess : BitVec 16) (macOk : Bool)
  /-- END_SESSION (R449): SPDM request ending a secured session. -/
  | endSession (net : Bool) (sess : BitVec 16)
  /-- KEY_REQUEST (R456): A broker's key request is bound to a context and slot and answered with KEY_OFFER. -/
  | keyRequest (net : Bool) (sess : BitVec 16) (r : KeyReq)
  /-- KEY_WRAP (R457): The wrapped key is opened into the slot or refused on a tag failure. -/
  | keyWrap (net : Bool) (sess : BitVec 16) (m : KeyWrapMsg)
  /-- MGMT_CONNECT (R452): A TLS connection on a management port is accepted or closed by its client certificate. -/
  | mgmtConnect (port : Fin 2) (cert : ClientCert)
  /-- OPERATOR_ENROLMENT (R453): The enrolment action installs the operator CA certificate. -/
  | operatorEnrolment (port : Fin 2) (ca : BitVec 384)
  /-- DECOMMISSION (R451): The operator erases credentials and tenant keys and the module becomes Decommissioned. -/
  | decommission (port : Fin 2)
  /-- HOST_VIEW_SET (R462): The operator sets the host's view to operator or tenant. -/
  | hostViewSet (port : Fin 2) (tenant : Bool)
  /-- ROLL_FORWARD_ENABLE (R455): The operator enables firmware SVN roll-forward. -/
  | rollForwardEnable (port : Fin 2)
  /-- FW_SVN_ROLL_FORWARD (R455): After 24 h of clean running Idfort raises the fused minimum SVN. -/
  | fwSvnRollForward
  /-- INVASIVE_SESSION_OPEN (R464): The operator opens an invasive debug session. -/
  | invasiveSessionOpen (port : Fin 2)
  /-- VENDOR_SESSION_OPEN (R466): A vendor session opens against a Colutas token after Dusk of sealed contexts. -/
  | vendorSessionOpen (port : Fin 2) (t : VendorToken)
  /-- DEBUG_SESSION_CLOSE (R464): The open debug session is closed. -/
  | debugSessionClose (port : Fin 2)
  /-- CORE_HALT (R464): An invasive session halts a core or control processor at an instruction boundary. -/
  | coreHalt (t : HaltTarget)
  /-- CORE_SINGLE_STEP (R464): An invasive session single-steps a halted core. -/
  | coreSingleStep (t : HaltTarget)
  /-- DEBUG_MEMORY_READ (R465): An invasive read returns data, encrypted for sealed sources. -/
  | debugMemoryRead (t : DebugTarget)
  /-- DEBUG_MEMORY_WRITE (R465): An invasive write is applied, or refused for sealed data. -/
  | debugMemoryWrite (t : DebugTarget) (bytes : List Byte)
  /-- SCAN_REQUEST (R466): A vendor scan request runs, or is refused while a context is ACTIVE. -/
  | scanRequest
  /-- FUSE_READ (R466): A vendor session reads fuses. -/
  | fuseRead (word : BitVec 16)
  /-- FUSE_WRITE (R466): A vendor session writes the fuses its token names. -/
  | fuseWrite (word : BitVec 16) (v : Word)
  /-- REFURBISH_TO_BLANK (R466): A vendor session returns a Decommissioned module to Blank. -/
  | refurbishToBlank
  /-- BYPASS_OPEN_REQUEST (R492): The slice manager asks Idfort to open the bypass at a frame. -/
  | bypassOpenRequest (port : Fin 2) (frame : BitVec 64)
  /-- THERM_TRIP_CLEAR (R485): The operator clears THERM_TRIP_N. -/
  | thermTripClear (port : Fin 2)
  /-- RETURN_TO_SERVICE (R440): The operator returns an out-of-service module to service. -/
  | returnToService (port : Fin 2)
  /-- INTAKE_REQUEST (R458): A mailbox request starts a weight intake into sealed pages. -/
  | intakeRequest (ch : Fin 16) (words : List Word)
  /-- INTAKE_DONE (R459): The intake ends on success, tag failure or PERMISSION and firmware replies. -/
  | intakeDone (ch : Fin 16) (blob : List (List Byte × BitVec 128)) (e : MemErr)
  /-- DUTY_UPDATE (R469): Every 256 frames Idfort sets each die's duty level as the lowest cap. -/
  | dutyUpdate (temps : Word)
  /-- OVERCURRENT (R469): Input current above 82 A in a frame sets the current cap to MIN_DUTY. -/
  | overcurrent
  /-- THERMAL_TRIP (R470): A die at 115 °C removes compute power, asserts THERM_TRIP_N and closes the bypass. -/
  | thermalTrip (die : Fin 4) (temp : Byte)
  /-- POWER_AVG_UPDATE (R463): Every 244,141 frames the tenant-view power reading is updated. -/
  | powerAvgUpdate
  /-- SNP_ARM_WRITE (R472): Writing SNP_ARM_HI arms a capture for the given frame. -/
  | snpArmWrite (v : Word)
  /-- CAPTURE_ANNOUNCE (R472): A received capture announcement arms a capture for its frame. -/
  | captureAnnounce (frame : BitVec 64)
  /-- MIDNIGHT_CAPTURE (R471): At the capture tick every powered block copies its live set into its capture set. -/
  | midnightCapture (reading : Bool)
  /-- TRIG_IN_EDGE (R485): A rising edge on TRIG_IN arms a capture or is ignored and counted. -/
  | trigInEdge (short : Bool)
  /-- TRIG_IN_STUCK (R485): TRIG_IN held high for 1 s sets TRIG_STUCK. -/
  | trigInStuck
  /-- PPS_IN_EDGE (R485): A PPS_IN edge is accepted or ignored, and aligns the frame when external reference is in use. -/
  | ppsInEdge (short : Bool) (cycles : Nat)
  /-- PPS_VALID_TIMEOUT (R486): 1.5 s without an accepted PPS edge clears PPS_VALID. -/
  | ppsValidTimeout
  /-- TIME_REF_LOSS (R485): No TIME_REF_10M edge for 1 µs clears REF_VALID. -/
  | timeRefLoss
  /-- TIME_REF_FREQ_FAULT (R485): TIME_REF_10M outside ±20 ppm over 1 ms clears REF_VALID. -/
  | timeRefFreqFault
  /-- TIME_REF_RECOVER (R485): TIME_REF_10M within ±10 ppm for 1 ms sets REF_VALID again. -/
  | timeRefRecover
  /-- MAIN_48V_APPLY (R478): 48 V rises into range and the module's loads may start. -/
  | main48vApply (mv : BitVec 16)
  /-- MAIN_48V_LOSS (R467): Loss of 48 V ends every context, moves to Standby and closes the bypass. -/
  | main48vLoss
  /-- UNDERVOLT (R478): 48 V between 40 and 44 V runs the module at MIN_DUTY for up to 10 ms. -/
  | undervolt
  /-- STANDBY_12V_APPLY (R479): 12 V arrives and Idfort starts. -/
  | standby12vApply
  /-- STANDBY_12V_LOSS (R467): Loss of 12 V moves the module to Off. -/
  | standby12vLoss
  /-- BODY_INSERT (R479): The body mates and its loads wait until presence has been mated for 100 ms. -/
  | bodyInsert
  /-- BODY_REMOVE (R477): The body is withdrawn and the cassette's switches rest CLOSED. -/
  | bodyRemove
  /-- MOD_RESET_N_ASSERT (R487): MOD_RESET_N low for 1 µs closes the bypass, ends contexts and holds the module in reset. -/
  | modResetNAssert
  /-- MOD_RESET_N_RELEASE (R489): Releasing MOD_RESET_N starts Dawn. -/
  | modResetNRelease
  /-- RELAY_READY (R489): Memory training and λ17 acquisition finish and RELAY_READY is set. -/
  | relayReady
  /-- RELAY_EXIT (R491): At the tick after SWT_CTRL.ENABLE is set the active bank replaces static express. -/
  | relayExit
  /-- I3C_PRIVATE_READ (R483): An I3C private read returns the 32-byte status record. -/
  | i3cPrivateRead
  /-- ENTDAA (R483): The I3C target takes a dynamic address by ENTDAA. -/
  | entdaa (addr : BitVec 7)
  /-- SETDASA (R483): The I3C target takes a dynamic address by SETDASA. -/
  | setdasa (addr : BitVec 7)
  /-- FW_LOAD (R493): The host starts copying a firmware image into an SRAM half. -/
  | fwLoad (p : Party) (v : Word)
  /-- FW_LOAD_DONE (R454): The copy ends and Idfort verifies the image, setting VERIFIED or rejecting it. -/
  | fwLoadDone (i : ImageCheck)
  /-- FW_START (R493): The host starts a verified half and the control processors begin at the next tick. -/
  | fwStart (p : Party) (v : Word)
  /-- FW_SWAP (R497): Firmware arms a hand-over to the other half at a frame, or it is refused. -/
  | fwSwap (p : Party) (v : Word)
  /-- FW_HANDOVER (R496): At the hand-over frame the control processors restart in the other half. -/
  | fwHandover
  /-- FW_GOOD (R497): A half that kicked the watchdog for 1 s becomes GOOD. -/
  | fwGood
  /-- CAL_PORT_RINGS (R498): Firmware starts ring calibration of a port within a gap. -/
  | calPortRings (p : Party) (v : Word)
  /-- CAL_CARTRIDGE (R498): Firmware starts re-measurement of a fixed cartridge's commissioned power. -/
  | calCartridge (p : Party) (v : Word)
  /-- CAL_DONE (R498): A calibration ends with DONE or FAIL. -/
  | calDone
  /-- LAUNCH_CORE_COMPLETION (R184): The program of a LAUNCH completes on one core of its set, advancing the LAUNCH's progress units and ending that core's tile sequences. -/
  | launchCoreCompletion (core : Fin 144)
  /-- ADMISSION_LIMIT_EXPIRE (R363): ADMISSION items still running when INT_TEST_CFG.ADMIT_MS runs out set INT_EVENT.TEST_FAIL, and the spare is not admitted. -/
  | admissionLimitExpire
  /-- PRESENCE_MATED (R479): The presence contact has been mated for 100 ms, and the module releases its held 48 V loads. -/
  | presenceMated
  /-- PCIE_CONFIG_READY (R481): 100 ms after MOD_RESET_N is released, with MOD_PWR_OK asserted throughout, the host port starts accepting configuration requests. -/
  | pcieConfigReady
  /-- CPER_ACKNOWLEDGE (R360): The operator acknowledges a stored CPER record over the management network, so that overwriting it later no longer sets CPER_OVERWRITE. -/
  | cperAcknowledge (n : BitVec 12)
  /-- TEST_KEY_ENROL (R361): An operator test key is enrolled in Idfort, up to four, so that test packs signed with it verify. -/
  | testKeyEnrol (port : Fin 2)
  /-- IDFORT_FW_UPDATE (R455): A new Idfort firmware image is verified, stored and Idfort restarted, with no effect on the functional domain. -/
  | idfortFwUpdate (i : ImageCheck)
deriving DecidableEq, Repr

end Sys2Proof
end

