-- ==== Sys2Proof/Decode.lean ====
section
/-! DEFINITION. The commands that a word spells. The module is commanded by register accesses, messages and
events, and spec/opcode_table.json gives none of its rows bits: no word spells a command. -/
namespace Sys2Proof

/-- The command that the low `nbits` bits of a word spell by the opcode table: none, since no row has bits. -/
def decodeTableWord (_nbits _w : Nat) : Option Instr := none

end Sys2Proof
end

