-- ==== Sys2Proof/Config.lean ====
section
/-! DEFINITION. What an implementation fixes and the manual leaves open: constants without a body, so
that no proof can see their values (notes/assumptions). -/
namespace Sys2Proof

/-- The n-th free value: a value that the manual leaves open, drawn by a step at its counter n. -/
opaque Config.freeValue : Nat → Nat

/-- Which of the translations that an access may use it takes (R142, R210): by a free number and the page or identifier. -/
opaque Config.oldEntry : Nat → Nat → Nat

/-- Parity symbol k of a codeword's data symbols (R235): the manual gives the code's size but not its generator. -/
opaque Config.rsParity : List Nat → Nat → Nat

/-- The chip identity of GLB_SERIAL_LO and GLB_SERIAL_HI (R500): fused at manufacture, low word at 0. -/
opaque Config.serial : Nat → BitVec 32

/-- The binary32 code that the fixed algorithm of a vector function gives for its decoded inputs (R122):
the manual leaves the algorithm to the reference library. -/
opaque Config.vecFn : VFn → Num → Num → BitVec 32

/-- How near a zero of SIN and COS the absolute bound of R122 holds: below 2^-(1 + it). -/
opaque Config.sinZeroBand : Nat

/-- The commissioned heater code of a ring, as Idfort stores it at delivery (R243, R498). -/
opaque Config.ringCal : Nat → Nat

/-- The commissioned heater code of a ring corrected for the die temperatures that SEC_TEMP shows (R243): the manual
gives no formula. -/
opaque Config.calAt : Nat → Nat → Nat → Nat

/-- The module on which the slice manager runs: the manual names no register for it. -/
opaque Config.sliceManager : Nat

/-- The commissioned power of a cartridge in 10 µW, as Idfort stores it at delivery (R239). -/
opaque Config.laserCal : Nat → Nat

/-- The fuse word and bit that mark a signing key revoked (R454, R455): firmware keys 0–3, Idfort keys 4–7, the Colutas test
key 8. -/
opaque Config.revocationFuse : Nat → Nat × Nat

/-- The 384-bit unique device secret that is fused at manufacture (R448), the contents of the Idfort ROM (R450), and the
Colutas CA's signature of the DeviceID certificate. -/
opaque Config.deviceSecret : BitVec 384
opaque Config.romImage : List (BitVec 8)
opaque Config.deviceSignature : BitVec 768

/-- The algorithms that the manual names and does not define: SHA-384; the P-384 point of a private key and the shared secret
of ECDH with another's point (R457); an ECDSA signature by private key and nonce; HKDF-SHA-384 by salt, input key and info;
and the private key that a DICE layer derives from a secret and the values that it measures (R448). -/
opaque Config.sha384 : List (BitVec 8) → BitVec 384
opaque Config.ecPoint : Nat → BitVec 768
opaque Config.ecdh : Nat → BitVec 768 → BitVec 384
opaque Config.ecSign : Nat → Nat → List (BitVec 8) → BitVec 768
opaque Config.hkdf : List (BitVec 8) → BitVec 384 → List (BitVec 8) → BitVec 256
opaque Config.diceKey : BitVec 384 → List Nat → Nat

/-- A byte of a dump's section or of a snapshot set whose layout the manual leaves open (R430, R471), by section and block,
what it holds, and place; how much of a TRUNCATED section was received (R431), by dump and section; the place of CORE_ASW in
a core's snapshot set (R63); and the size of a cluster's duplicate buffer state. -/
opaque Config.dumpByte : Nat → List Nat → Nat → BitVec 8
opaque Config.dumpCut : Nat → Nat → Nat
opaque Config.aswPlace : Nat
opaque Config.dupState : Nat

/-- The size of a block's snapshot set in 16-byte units (R471, R476), by unit kind × 4096 + unit. -/
opaque Config.snapSize : Nat → Nat

end Sys2Proof
end

