-- ==== Sys2Proof/Machine/Bits.lean ====
section
/-! DEFINITION. Bit-field, sign-extension, saturation and byte-order helpers over natural numbers. -/
namespace Sys2Proof

/-- Bits [lo+w-1:lo] of n (R10). -/
def bitsOf (n lo w : Nat) : Nat := n / 2 ^ lo % 2 ^ w

/-- Bit i of n as a truth value. -/
def bitOn (n i : Nat) : Bool := n / 2 ^ i % 2 == 1

/-- n with bits [lo+w-1:lo] replaced by v. -/
def setBits (n lo w v : Nat) : Nat := n - bitsOf n lo w * 2 ^ lo + v % 2 ^ w * 2 ^ lo

/-- 1 for true, 0 for false. -/
def b2n (b : Bool) : Nat := if b then 1 else 0

/-- a + b held at a maximum: the saturating counters of the manual. -/
def satAdd (max a b : Nat) : Nat := min max (a + b)

/-- A w-bit field read as a signed number. -/
def signed (w n : Nat) : Int := if n % 2 ^ w < 2 ^ (w - 1) then (n % 2 ^ w : Nat) else (n % 2 ^ w : Nat) - (2 ^ w : Nat)

/-- A signed number as a w-bit field. -/
def toField (w : Nat) (i : Int) : Nat := (i % (2 ^ w : Nat)).toNat

/-- The n bytes of v, lowest first (R11, R181). -/
def leBytes : Nat → Nat → List Byte
  | 0, _ => []
  | n + 1, v => BitVec.ofNat 8 v :: leBytes n (v / 256)

/-- The number that little-endian bytes hold. -/
def leNat : List Byte → Nat
  | [] => 0
  | b :: bs => b.toNat + 256 * leNat bs

/-- Byte k to k+n-1 of a descriptor, as a number (R181). -/
def descBytes (d : Descriptor) (k n : Nat) : Nat := d.toNat / 2 ^ (8 * k) % 2 ^ (8 * n)

/-- The positions below n at which a mask has a 1, in ascending order. -/
def maskBits (n mask : Nat) : List Nat := (List.range n).filter (bitOn mask)

/-- The number of ones of a mask below bit n. -/
def popCount (n mask : Nat) : Nat := (maskBits n mask).length

/-- a mod 2^32: the free-running indices of R170. -/
def mod32 (a : Nat) : Nat := a % 2 ^ 32

/-- (a − b) mod 2^32 (R174). -/
def sub32 (a b : Nat) : Nat := (a % 2 ^ 32 + 2 ^ 32 - b % 2 ^ 32) % 2 ^ 32

/-- ⌈a / b⌉. -/
def ceilDiv (a b : Nat) : Nat := (a + b - 1) / b

/-- The CRC-32C of a byte string (R338): reflected polynomial 0x82F63B78, initial value and final
exclusive-or of all ones. -/
def crc32cByte (crc : Nat) (b : Byte) : Nat :=
  (List.range 8).foldl (fun c _ => if c % 2 = 1 then (c / 2) ^^^ 0x82F63B78 else c / 2) (crc ^^^ b.toNat)

def crc32c (bs : List Byte) : Nat := (bs.foldl crc32cByte 0xFFFFFFFF) ^^^ 0xFFFFFFFF

/-- Cut a list into pieces of n, with fuel. -/
def pieces {α : Type} (n : Nat) : Nat → List α → List (List α)
  | 0, _ => []
  | _, [] => []
  | k + 1, l => l.take n :: pieces n k (l.drop n)

/-! ### The hash of R353 -/

def hashP : Nat := 2 ^ 61 - 1
def hashA : Nat := 0x0F3D5A79C1E28B47
def hashB : Nat := 0x1A6C04B39E57D2F1

/-- Powers modulo p. -/
def powP (b : Nat) : Nat → Nat → Nat
  | 0, _ => 1
  | k + 1, n => if n = 0 then 1 else let h := powP (b * b % hashP) k (n / 2); if n % 2 = 1 then b * h % hashP else h

/-- One lane of the hash of a page's words: Σ c_i × A^(16,384 − i). -/
def hashLane (m : Nat) (ws : List Nat) : Nat := ws.foldl (fun h c => (h + c) * m % hashP) 0

/-- The 32-bit words of bytes. -/
def wordsOf (bs : List Byte) : List Nat := (pieces 4 bs.length bs).map leNat

end Sys2Proof
end

