-- ==== Sys2Proof/Machine/RegMap.lean ====
section
/-! DEFINITION. The register window: the byte offset of every register in BAR0 (R499, R500 and the
register maps of every chapter) and every named field of it (bits [high:low], R10, R13).
Registers that a rule banks by the context selected in RPL_STEP_SEL (R336, R395) have one copy per
context at an internal address at and above 0x1_0000_0000, outside BAR0. -/
namespace Sys2Proof.Reg

/-- A field: the address of its register, its low bit and its width (R13). -/
structure Fld where
  reg : Nat
  lo : Nat
  w : Nat
deriving DecidableEq, Repr

abbrev FTB_CTRL : Nat := 0x100000
def FTB_CTRL_ROLE : Fld := ⟨FTB_CTRL, 0, 2⟩
def FTB_CTRL_DEPUTY : Fld := ⟨FTB_CTRL, 2, 1⟩
def FTB_CTRL_ENABLE : Fld := ⟨FTB_CTRL, 3, 1⟩
abbrev FTB_STATUS : Nat := 0x100004
def FTB_STATUS_LOCKED : Fld := ⟨FTB_STATUS, 0, 1⟩
def FTB_STATUS_HOLDOVER : Fld := ⟨FTB_STATUS, 1, 1⟩
def FTB_STATUS_TIME_LOSS : Fld := ⟨FTB_STATUS, 2, 1⟩
def FTB_STATUS_MASTER : Fld := ⟨FTB_STATUS, 3, 1⟩
def FTB_STATUS_EXT_REF_OK : Fld := ⟨FTB_STATUS, 4, 1⟩
def FTB_STATUS_DEPTH_OVER : Fld := ⟨FTB_STATUS, 5, 1⟩
def FTB_STATUS_TERM_ONLY : Fld := ⟨FTB_STATUS, 6, 1⟩
def FTB_STATUS_VALID : Fld := ⟨FTB_STATUS, 7, 1⟩
def FTB_STATUS_PARENT : Fld := ⟨FTB_STATUS, 8, 4⟩
def FTB_STATUS_DEPTH : Fld := ⟨FTB_STATUS, 12, 6⟩
abbrev FTB_EVENT : Nat := 0x100008
def FTB_EVENT_TIME_LOSS : Fld := ⟨FTB_EVENT, 0, 1⟩
def FTB_EVENT_PARENT_CHANGE : Fld := ⟨FTB_EVENT, 1, 1⟩
def FTB_EVENT_MASTER_CHANGE : Fld := ⟨FTB_EVENT, 2, 1⟩
def FTB_EVENT_STEP : Fld := ⟨FTB_EVENT, 3, 1⟩
def FTB_EVENT_HOLDOVER_ENTER : Fld := ⟨FTB_EVENT, 4, 1⟩
def FTB_EVENT_DEPTH_OVER : Fld := ⟨FTB_EVENT, 5, 1⟩
abbrev FTB_FRAME_LO : Nat := 0x100010
def FTB_FRAME_LO_FRAME_LO : Fld := ⟨FTB_FRAME_LO, 0, 32⟩
abbrev FTB_FRAME_HI : Nat := 0x100014
def FTB_FRAME_HI_FRAME_HI : Fld := ⟨FTB_FRAME_HI, 0, 32⟩
abbrev FTB_PHASE : Nat := 0x100018
def FTB_PHASE_HUB_CYCLE : Fld := ⟨FTB_PHASE, 0, 13⟩
def FTB_PHASE_FINE : Fld := ⟨FTB_PHASE, 13, 6⟩
abbrev FTB_OFFSET : Nat := 0x10001c
def FTB_OFFSET_OFFSET : Fld := ⟨FTB_OFFSET, 0, 32⟩
abbrev FTB_MASTER : Nat := 0x100020
def FTB_MASTER_MASTER_ID : Fld := ⟨FTB_MASTER, 0, 13⟩
def FTB_MASTER_EPOCH : Fld := ⟨FTB_MASTER, 16, 16⟩
abbrev FTB_HOLD : Nat := 0x100024
def FTB_HOLD_HOLD_CNT : Fld := ⟨FTB_HOLD, 0, 13⟩
def FTB_HOLD_HOLD_LIMIT : Fld := ⟨FTB_HOLD, 16, 13⟩
abbrev FTB_DEFAULT_BUDGET : Nat := 0x100028
def FTB_DEFAULT_BUDGET_BUDGET : Fld := ⟨FTB_DEFAULT_BUDGET, 0, 32⟩
abbrev FTB_STEP_CNT : Nat := 0x10002c
def FTB_STEP_CNT_STEPS : Fld := ⟨FTB_STEP_CNT, 0, 32⟩
abbrev FTB_LOAD_LO : Nat := 0x100030
def FTB_LOAD_LO_LOAD_LO : Fld := ⟨FTB_LOAD_LO, 0, 32⟩
abbrev FTB_LOAD_HI : Nat := 0x100034
def FTB_LOAD_HI_LOAD_HI : Fld := ⟨FTB_LOAD_HI, 0, 32⟩
abbrev FTB_PORT_ASYM (n : Nat) : Nat := 0x100040 + 0x4 * n
def FTB_PORT_ASYM_ASYM (n : Nat) : Fld := ⟨FTB_PORT_ASYM n, 0, 16⟩
abbrev CORE_MX_STATUS (n : Nat) : Nat := 0x1000080 + 0x10000 * n
def CORE_MX_STATUS_BUSY (n : Nat) : Fld := ⟨CORE_MX_STATUS n, 0, 1⟩
def CORE_MX_STATUS_STRICT (n : Nat) : Fld := ⟨CORE_MX_STATUS n, 1, 1⟩
def CORE_MX_STATUS_EXACT (n : Nat) : Fld := ⟨CORE_MX_STATUS n, 2, 1⟩
def CORE_MX_STATUS_TRANS (n : Nat) : Fld := ⟨CORE_MX_STATUS n, 3, 1⟩
def CORE_MX_STATUS_TILE (n : Nat) : Fld := ⟨CORE_MX_STATUS n, 4, 5⟩
def CORE_MX_STATUS_CLASS (n : Nat) : Fld := ⟨CORE_MX_STATUS n, 9, 2⟩
abbrev CORE_ACC_STATE_LO (n : Nat) : Nat := 0x1000084 + 0x10000 * n
def CORE_ACC_STATE_LO_STATE0 (n : Nat) : Fld := ⟨CORE_ACC_STATE_LO n, 0, 2⟩
def CORE_ACC_STATE_LO_STATE1 (n : Nat) : Fld := ⟨CORE_ACC_STATE_LO n, 2, 2⟩
def CORE_ACC_STATE_LO_STATE2 (n : Nat) : Fld := ⟨CORE_ACC_STATE_LO n, 4, 2⟩
def CORE_ACC_STATE_LO_STATE3 (n : Nat) : Fld := ⟨CORE_ACC_STATE_LO n, 6, 2⟩
def CORE_ACC_STATE_LO_STATE4 (n : Nat) : Fld := ⟨CORE_ACC_STATE_LO n, 8, 2⟩
def CORE_ACC_STATE_LO_STATE5 (n : Nat) : Fld := ⟨CORE_ACC_STATE_LO n, 10, 2⟩
def CORE_ACC_STATE_LO_STATE6 (n : Nat) : Fld := ⟨CORE_ACC_STATE_LO n, 12, 2⟩
def CORE_ACC_STATE_LO_STATE7 (n : Nat) : Fld := ⟨CORE_ACC_STATE_LO n, 14, 2⟩
def CORE_ACC_STATE_LO_STATE8 (n : Nat) : Fld := ⟨CORE_ACC_STATE_LO n, 16, 2⟩
def CORE_ACC_STATE_LO_STATE9 (n : Nat) : Fld := ⟨CORE_ACC_STATE_LO n, 18, 2⟩
def CORE_ACC_STATE_LO_STATE10 (n : Nat) : Fld := ⟨CORE_ACC_STATE_LO n, 20, 2⟩
def CORE_ACC_STATE_LO_STATE11 (n : Nat) : Fld := ⟨CORE_ACC_STATE_LO n, 22, 2⟩
def CORE_ACC_STATE_LO_STATE12 (n : Nat) : Fld := ⟨CORE_ACC_STATE_LO n, 24, 2⟩
def CORE_ACC_STATE_LO_STATE13 (n : Nat) : Fld := ⟨CORE_ACC_STATE_LO n, 26, 2⟩
def CORE_ACC_STATE_LO_STATE14 (n : Nat) : Fld := ⟨CORE_ACC_STATE_LO n, 28, 2⟩
def CORE_ACC_STATE_LO_STATE15 (n : Nat) : Fld := ⟨CORE_ACC_STATE_LO n, 30, 2⟩
abbrev CORE_ACC_STATE_HI (n : Nat) : Nat := 0x1000088 + 0x10000 * n
def CORE_ACC_STATE_HI_STATE0 (n : Nat) : Fld := ⟨CORE_ACC_STATE_HI n, 0, 2⟩
def CORE_ACC_STATE_HI_STATE1 (n : Nat) : Fld := ⟨CORE_ACC_STATE_HI n, 2, 2⟩
def CORE_ACC_STATE_HI_STATE2 (n : Nat) : Fld := ⟨CORE_ACC_STATE_HI n, 4, 2⟩
def CORE_ACC_STATE_HI_STATE3 (n : Nat) : Fld := ⟨CORE_ACC_STATE_HI n, 6, 2⟩
def CORE_ACC_STATE_HI_STATE4 (n : Nat) : Fld := ⟨CORE_ACC_STATE_HI n, 8, 2⟩
def CORE_ACC_STATE_HI_STATE5 (n : Nat) : Fld := ⟨CORE_ACC_STATE_HI n, 10, 2⟩
def CORE_ACC_STATE_HI_STATE6 (n : Nat) : Fld := ⟨CORE_ACC_STATE_HI n, 12, 2⟩
def CORE_ACC_STATE_HI_STATE7 (n : Nat) : Fld := ⟨CORE_ACC_STATE_HI n, 14, 2⟩
def CORE_ACC_STATE_HI_STATE8 (n : Nat) : Fld := ⟨CORE_ACC_STATE_HI n, 16, 2⟩
def CORE_ACC_STATE_HI_STATE9 (n : Nat) : Fld := ⟨CORE_ACC_STATE_HI n, 18, 2⟩
def CORE_ACC_STATE_HI_STATE10 (n : Nat) : Fld := ⟨CORE_ACC_STATE_HI n, 20, 2⟩
def CORE_ACC_STATE_HI_STATE11 (n : Nat) : Fld := ⟨CORE_ACC_STATE_HI n, 22, 2⟩
def CORE_ACC_STATE_HI_STATE12 (n : Nat) : Fld := ⟨CORE_ACC_STATE_HI n, 24, 2⟩
def CORE_ACC_STATE_HI_STATE13 (n : Nat) : Fld := ⟨CORE_ACC_STATE_HI n, 26, 2⟩
def CORE_ACC_STATE_HI_STATE14 (n : Nat) : Fld := ⟨CORE_ACC_STATE_HI n, 28, 2⟩
def CORE_ACC_STATE_HI_STATE15 (n : Nat) : Fld := ⟨CORE_ACC_STATE_HI n, 30, 2⟩
abbrev CORE_ACC_OWNER (n : Nat) : Nat := 0x100008c + 0x10000 * n
def CORE_ACC_OWNER_CONTEXT (n : Nat) : Fld := ⟨CORE_ACC_OWNER n, 0, 6⟩
def CORE_ACC_OWNER_VALID (n : Nat) : Fld := ⟨CORE_ACC_OWNER n, 6, 1⟩
def CORE_ACC_OWNER_GENERATION (n : Nat) : Fld := ⟨CORE_ACC_OWNER n, 16, 16⟩
abbrev CORE_EXACT_FB_CNT (n : Nat) : Nat := 0x1000090 + 0x10000 * n
def CORE_EXACT_FB_CNT_COUNT (n : Nat) : Fld := ⟨CORE_EXACT_FB_CNT n, 0, 32⟩
abbrev CORE_ACC_CONFLICT_CNT (n : Nat) : Nat := 0x1000094 + 0x10000 * n
def CORE_ACC_CONFLICT_CNT_COUNT (n : Nat) : Fld := ⟨CORE_ACC_CONFLICT_CNT n, 0, 32⟩
abbrev CORE_MX_PASS_LO (n : Nat) : Nat := 0x1000098 + 0x10000 * n
def CORE_MX_PASS_LO_PASSES_LO (n : Nat) : Fld := ⟨CORE_MX_PASS_LO n, 0, 32⟩
abbrev CORE_MX_PASS_HI (n : Nat) : Nat := 0x100009c + 0x10000 * n
def CORE_MX_PASS_HI_PASSES_HI (n : Nat) : Fld := ⟨CORE_MX_PASS_HI n, 0, 32⟩
abbrev CORE_VX_STATUS (n : Nat) : Nat := 0x10000a0 + 0x10000 * n
def CORE_VX_STATUS_BUSY (n : Nat) : Fld := ⟨CORE_VX_STATUS n, 0, 1⟩
def CORE_VX_STATUS_PACKED (n : Nat) : Fld := ⟨CORE_VX_STATUS n, 1, 1⟩
def CORE_VX_STATUS_SERIAL (n : Nat) : Fld := ⟨CORE_VX_STATUS n, 2, 1⟩
def CORE_VX_STATUS_STRICT (n : Nat) : Fld := ⟨CORE_VX_STATUS n, 3, 1⟩
def CORE_VX_STATUS_CLASS (n : Nat) : Fld := ⟨CORE_VX_STATUS n, 4, 2⟩
abbrev CORE_VX_SERIAL_CNT (n : Nat) : Nat := 0x10000a4 + 0x10000 * n
def CORE_VX_SERIAL_CNT_COUNT (n : Nat) : Fld := ⟨CORE_VX_SERIAL_CNT n, 0, 32⟩
abbrev CORE_VX_HAZARD_CNT (n : Nat) : Nat := 0x10000a8 + 0x10000 * n
def CORE_VX_HAZARD_CNT_CYCLES (n : Nat) : Fld := ⟨CORE_VX_HAZARD_CNT n, 0, 32⟩
abbrev CORE_VX_ELEM_LO (n : Nat) : Nat := 0x10000ac + 0x10000 * n
def CORE_VX_ELEM_LO_ELEM_LO (n : Nat) : Fld := ⟨CORE_VX_ELEM_LO n, 0, 32⟩
abbrev CORE_VX_ELEM_HI (n : Nat) : Nat := 0x10000b0 + 0x10000 * n
def CORE_VX_ELEM_HI_ELEM_HI (n : Nat) : Fld := ⟨CORE_VX_ELEM_HI n, 0, 32⟩
abbrev MEM_CTRL : Nat := 0x400000
def MEM_CTRL_SCRUB_EN : Fld := ⟨MEM_CTRL, 0, 1⟩
def MEM_CTRL_REFRESH_AUTO : Fld := ⟨MEM_CTRL, 1, 1⟩
abbrev MEM_STATUS : Nat := 0x400004
def MEM_STATUS_NM_TRAINED : Fld := ⟨MEM_STATUS, 0, 8⟩
def MEM_STATUS_BC_TRAINED : Fld := ⟨MEM_STATUS, 8, 1⟩
def MEM_STATUS_REPAIR_BUSY : Fld := ⟨MEM_STATUS, 9, 1⟩
def MEM_STATUS_XLAT_BUSY : Fld := ⟨MEM_STATUS, 10, 1⟩
abbrev MEM_EVENT : Nat := 0x400008
def MEM_EVENT_UE : Fld := ⟨MEM_EVENT, 0, 1⟩
def MEM_EVENT_CE_THRESH : Fld := ⟨MEM_EVENT, 1, 1⟩
def MEM_EVENT_REFRESH_CHANGE : Fld := ⟨MEM_EVENT, 2, 1⟩
def MEM_EVENT_REPAIR_DONE : Fld := ⟨MEM_EVENT, 3, 1⟩
def MEM_EVENT_REPAIR_FAIL : Fld := ⟨MEM_EVENT, 4, 1⟩
abbrev MEM_NM_STATUS (n : Nat) : Nat := 0x400010 + 0x4 * n
def MEM_NM_STATUS_TEMP (n : Nat) : Fld := ⟨MEM_NM_STATUS n, 0, 8⟩
def MEM_NM_STATUS_REFRESH (n : Nat) : Fld := ⟨MEM_NM_STATUS n, 8, 2⟩
def MEM_NM_STATUS_TRAINED (n : Nat) : Fld := ⟨MEM_NM_STATUS n, 10, 1⟩
def MEM_NM_STATUS_SPARE_ROWS (n : Nat) : Fld := ⟨MEM_NM_STATUS n, 16, 16⟩
abbrev MEM_BC_TRAINED : Nat := 0x400030
def MEM_BC_TRAINED_CHANNELS : Fld := ⟨MEM_BC_TRAINED, 0, 32⟩
abbrev MEM_BC_TEMP : Nat := 0x400034
def MEM_BC_TEMP_TEMP : Fld := ⟨MEM_BC_TEMP, 0, 8⟩
def MEM_BC_TEMP_REFRESH : Fld := ⟨MEM_BC_TEMP, 8, 2⟩
def MEM_BC_TEMP_SPARE_ROWS : Fld := ⟨MEM_BC_TEMP, 16, 16⟩
abbrev MEM_NM_CE_CNT (n : Nat) : Nat := 0x400040 + 0x4 * n
def MEM_NM_CE_CNT_COUNT (n : Nat) : Fld := ⟨MEM_NM_CE_CNT n, 0, 32⟩
abbrev MEM_BC_CE_CNT : Nat := 0x400060
def MEM_BC_CE_CNT_COUNT : Fld := ⟨MEM_BC_CE_CNT, 0, 32⟩
abbrev MEM_UE_CNT : Nat := 0x400064
def MEM_UE_CNT_COUNT : Fld := ⟨MEM_UE_CNT, 0, 32⟩
abbrev MEM_ERR_ADDR_LO : Nat := 0x400068
def MEM_ERR_ADDR_LO_PA_LO : Fld := ⟨MEM_ERR_ADDR_LO, 0, 32⟩
abbrev MEM_ERR_ADDR_HI : Nat := 0x40006c
def MEM_ERR_ADDR_HI_PA_HI : Fld := ⟨MEM_ERR_ADDR_HI, 0, 8⟩
abbrev MEM_ERR_INFO : Nat := 0x400070
def MEM_ERR_INFO_KIND : Fld := ⟨MEM_ERR_INFO, 0, 2⟩
def MEM_ERR_INFO_MEMORY : Fld := ⟨MEM_ERR_INFO, 2, 4⟩
def MEM_ERR_INFO_CONTEXT : Fld := ⟨MEM_ERR_INFO, 6, 6⟩
def MEM_ERR_INFO_CTX_VALID : Fld := ⟨MEM_ERR_INFO, 12, 1⟩
def MEM_ERR_INFO_GENERATION : Fld := ⟨MEM_ERR_INFO, 16, 16⟩
abbrev MEM_XLAT_INVAL : Nat := 0x400078
def MEM_XLAT_INVAL_CONTEXT : Fld := ⟨MEM_XLAT_INVAL, 0, 6⟩
def MEM_XLAT_INVAL_ALL : Fld := ⟨MEM_XLAT_INVAL, 6, 1⟩
def MEM_XLAT_INVAL_GO : Fld := ⟨MEM_XLAT_INVAL, 7, 1⟩
def MEM_XLAT_INVAL_BUSY : Fld := ⟨MEM_XLAT_INVAL, 8, 1⟩
abbrev MEM_SCRUB_CFG : Nat := 0x40007c
def MEM_SCRUB_CFG_PERIOD_H : Fld := ⟨MEM_SCRUB_CFG, 0, 16⟩
abbrev MEM_REPAIR_CTRL : Nat := 0x400080
def MEM_REPAIR_CTRL_PAGE : Fld := ⟨MEM_REPAIR_CTRL, 0, 24⟩
def MEM_REPAIR_CTRL_CHUNK : Fld := ⟨MEM_REPAIR_CTRL, 24, 6⟩
def MEM_REPAIR_CTRL_GO : Fld := ⟨MEM_REPAIR_CTRL, 31, 1⟩
abbrev MEM_REPAIR_STATUS : Nat := 0x400084
def MEM_REPAIR_STATUS_BUSY : Fld := ⟨MEM_REPAIR_STATUS, 0, 1⟩
def MEM_REPAIR_STATUS_DONE : Fld := ⟨MEM_REPAIR_STATUS, 1, 1⟩
def MEM_REPAIR_STATUS_NO_SPARE : Fld := ⟨MEM_REPAIR_STATUS, 2, 1⟩
def MEM_REPAIR_STATUS_STALL : Fld := ⟨MEM_REPAIR_STATUS, 16, 16⟩
abbrev MEM_RETIRED_CNT : Nat := 0x400088
def MEM_RETIRED_CNT_NM_PAGES : Fld := ⟨MEM_RETIRED_CNT, 0, 16⟩
def MEM_RETIRED_CNT_BC_PAGES : Fld := ⟨MEM_RETIRED_CNT, 16, 16⟩
abbrev MEM_PT_BASE_LO (n : Nat) : Nat := 0x400100 + 0x8 * n
def MEM_PT_BASE_LO_VALID (n : Nat) : Fld := ⟨MEM_PT_BASE_LO n, 0, 1⟩
def MEM_PT_BASE_LO_BASE_LO (n : Nat) : Fld := ⟨MEM_PT_BASE_LO n, 17, 15⟩
abbrev MEM_PT_BASE_HI (n : Nat) : Nat := 0x400104 + 0x8 * n
def MEM_PT_BASE_HI_BASE_HI (n : Nat) : Fld := ⟨MEM_PT_BASE_HI n, 0, 8⟩
abbrev CORE_SP_STALL_CNT (n : Nat) : Nat := 0x10000c0 + 0x10000 * n
def CORE_SP_STALL_CNT_CYCLES (n : Nat) : Fld := ⟨CORE_SP_STALL_CNT n, 0, 32⟩
abbrev CORE_SP_CE_CNT (n : Nat) : Nat := 0x10000c4 + 0x10000 * n
def CORE_SP_CE_CNT_COUNT (n : Nat) : Fld := ⟨CORE_SP_CE_CNT n, 0, 32⟩
abbrev CORE_SP_UE_CNT (n : Nat) : Nat := 0x10000c8 + 0x10000 * n
def CORE_SP_UE_CNT_COUNT (n : Nat) : Fld := ⟨CORE_SP_UE_CNT n, 0, 32⟩
abbrev SUB_CTRL : Nat := 0x200000
def SUB_CTRL_DISPATCH_EN : Fld := ⟨SUB_CTRL, 0, 1⟩
abbrev SUB_EVENT : Nat := 0x200004
def SUB_EVENT_HOST_DENIED : Fld := ⟨SUB_EVENT, 0, 1⟩
def SUB_EVENT_BAD_PI : Fld := ⟨SUB_EVENT, 1, 1⟩
def SUB_EVENT_RING_STALL : Fld := ⟨SUB_EVENT, 2, 1⟩
def SUB_EVENT_INFLIGHT_FULL : Fld := ⟨SUB_EVENT, 3, 1⟩
abbrev SUB_INFLIGHT : Nat := 0x200008
def SUB_INFLIGHT_COUNT : Fld := ⟨SUB_INFLIGHT, 0, 17⟩
abbrev SUB_INFLIGHT_DIE (n : Nat) : Nat := 0x200010 + 0x4 * n
def SUB_INFLIGHT_DIE_COUNT (n : Nat) : Fld := ⟨SUB_INFLIGHT_DIE n, 0, 15⟩
abbrev SUB_PROG_SEL : Nat := 0x200020
def SUB_PROG_SEL_RING : Fld := ⟨SUB_PROG_SEL, 0, 8⟩
def SUB_PROG_SEL_INDEX : Fld := ⟨SUB_PROG_SEL, 8, 16⟩
def SUB_PROG_SEL_VALID : Fld := ⟨SUB_PROG_SEL, 31, 1⟩
abbrev SUB_PROG_DATA (n : Nat) : Nat := 0x200040 + 0x4 * n
def SUB_PROG_DATA_DATA (n : Nat) : Fld := ⟨SUB_PROG_DATA n, 0, 32⟩
abbrev SUB_CTX_CTRL (n : Nat) : Nat := 0x200800 + 0x10 * n
def SUB_CTX_CTRL_STATE (n : Nat) : Fld := ⟨SUB_CTX_CTRL n, 0, 2⟩
def SUB_CTX_CTRL_ACTIVATE (n : Nat) : Fld := ⟨SUB_CTX_CTRL n, 2, 1⟩
def SUB_CTX_CTRL_DUSK (n : Nat) : Fld := ⟨SUB_CTX_CTRL n, 3, 1⟩
def SUB_CTX_CTRL_VCID (n : Nat) : Fld := ⟨SUB_CTX_CTRL n, 16, 16⟩
abbrev SUB_CTX_GEN (n : Nat) : Nat := 0x200804 + 0x10 * n
def SUB_CTX_GEN_GENERATION (n : Nat) : Fld := ⟨SUB_CTX_GEN n, 0, 16⟩
abbrev SUB_CTX_SEED (n : Nat) : Nat := 0x200808 + 0x10 * n
def SUB_CTX_SEED_SEED (n : Nat) : Fld := ⟨SUB_CTX_SEED n, 0, 32⟩
abbrev SUB_RING_CFG (n : Nat) : Nat := 0x201000 + 0x40 * n
def SUB_RING_CFG_ENABLE (n : Nat) : Fld := ⟨SUB_RING_CFG n, 0, 1⟩
def SUB_RING_CFG_LOC (n : Nat) : Fld := ⟨SUB_RING_CFG n, 1, 1⟩
def SUB_RING_CFG_SIZE_LOG2 (n : Nat) : Fld := ⟨SUB_RING_CFG n, 2, 5⟩
def SUB_RING_CFG_PRIO (n : Nat) : Fld := ⟨SUB_RING_CFG n, 7, 2⟩
def SUB_RING_CFG_IRQ_EN (n : Nat) : Fld := ⟨SUB_RING_CFG n, 9, 1⟩
def SUB_RING_CFG_MAX_INFLIGHT (n : Nat) : Fld := ⟨SUB_RING_CFG n, 16, 16⟩
abbrev SUB_RING_CTX (n : Nat) : Nat := 0x201004 + 0x40 * n
def SUB_RING_CTX_CONTEXT (n : Nat) : Fld := ⟨SUB_RING_CTX n, 0, 6⟩
def SUB_RING_CTX_VCID (n : Nat) : Fld := ⟨SUB_RING_CTX n, 16, 16⟩
abbrev SUB_RING_RING_LO (n : Nat) : Nat := 0x201008 + 0x40 * n
def SUB_RING_RING_LO_BASE_LO (n : Nat) : Fld := ⟨SUB_RING_RING_LO n, 12, 20⟩
abbrev SUB_RING_RING_HI (n : Nat) : Nat := 0x20100c + 0x40 * n
def SUB_RING_RING_HI_BASE_HI (n : Nat) : Fld := ⟨SUB_RING_RING_HI n, 0, 32⟩
abbrev SUB_RING_CQ_LO (n : Nat) : Nat := 0x201010 + 0x40 * n
def SUB_RING_CQ_LO_BASE_LO (n : Nat) : Fld := ⟨SUB_RING_CQ_LO n, 12, 20⟩
abbrev SUB_RING_CQ_HI (n : Nat) : Nat := 0x201014 + 0x40 * n
def SUB_RING_CQ_HI_BASE_HI (n : Nat) : Fld := ⟨SUB_RING_CQ_HI n, 0, 32⟩
abbrev SUB_RING_CB_LO (n : Nat) : Nat := 0x201018 + 0x40 * n
def SUB_RING_CB_LO_BASE_LO (n : Nat) : Fld := ⟨SUB_RING_CB_LO n, 6, 26⟩
abbrev SUB_RING_CB_HI (n : Nat) : Nat := 0x20101c + 0x40 * n
def SUB_RING_CB_HI_BASE_HI (n : Nat) : Fld := ⟨SUB_RING_CB_HI n, 0, 32⟩
abbrev SUB_RING_SEQ_LO (n : Nat) : Nat := 0x201020 + 0x40 * n
def SUB_RING_SEQ_LO_SEQ (n : Nat) : Fld := ⟨SUB_RING_SEQ_LO n, 0, 32⟩
abbrev SUB_RING_SEQ_HI (n : Nat) : Nat := 0x201024 + 0x40 * n
def SUB_RING_SEQ_HI_SEQ (n : Nat) : Fld := ⟨SUB_RING_SEQ_HI n, 0, 32⟩
abbrev SUB_RING_STATUS (n : Nat) : Nat := 0x201028 + 0x40 * n
def SUB_RING_STATUS_IDLE (n : Nat) : Fld := ⟨SUB_RING_STATUS n, 0, 1⟩
def SUB_RING_STATUS_STALL (n : Nat) : Fld := ⟨SUB_RING_STATUS n, 1, 1⟩
def SUB_RING_STATUS_CQ_FULL (n : Nat) : Fld := ⟨SUB_RING_STATUS n, 2, 1⟩
def SUB_RING_STATUS_BAD_PI (n : Nat) : Fld := ⟨SUB_RING_STATUS n, 3, 1⟩
def SUB_RING_STATUS_HELD (n : Nat) : Fld := ⟨SUB_RING_STATUS n, 4, 1⟩
def SUB_RING_STATUS_INFLIGHT (n : Nat) : Fld := ⟨SUB_RING_STATUS n, 8, 17⟩
abbrev SUB_RING_CI (n : Nat) : Nat := 0x20102c + 0x40 * n
def SUB_RING_CI_CI (n : Nat) : Fld := ⟨SUB_RING_CI n, 0, 32⟩
abbrev SUB_RING_STALL_CNT (n : Nat) : Nat := 0x201030 + 0x40 * n
def SUB_RING_STALL_CNT_COUNT (n : Nat) : Fld := ⟨SUB_RING_STALL_CNT n, 0, 32⟩
abbrev SUB_RING_REJECT_CNT (n : Nat) : Nat := 0x201034 + 0x40 * n
def SUB_RING_REJECT_CNT_COUNT (n : Nat) : Fld := ⟨SUB_RING_REJECT_CNT n, 0, 32⟩
abbrev MBX_CH_TX (n : Nat) : Nat := 0xb00000 + 0x20 * n
def MBX_CH_TX_DATA (n : Nat) : Fld := ⟨MBX_CH_TX n, 0, 32⟩
abbrev MBX_CH_RX (n : Nat) : Nat := 0xb00004 + 0x20 * n
def MBX_CH_RX_DATA (n : Nat) : Fld := ⟨MBX_CH_RX n, 0, 32⟩
abbrev MBX_CH_RX_STAMP (n : Nat) : Nat := 0xb00008 + 0x20 * n
def MBX_CH_RX_STAMP_SENDER (n : Nat) : Fld := ⟨MBX_CH_RX_STAMP n, 0, 16⟩
abbrev MBX_CH_STATUS (n : Nat) : Nat := 0xb0000c + 0x20 * n
def MBX_CH_STATUS_IN_COUNT (n : Nat) : Fld := ⟨MBX_CH_STATUS n, 0, 4⟩
def MBX_CH_STATUS_OUT_COUNT (n : Nat) : Fld := ⟨MBX_CH_STATUS n, 4, 4⟩
def MBX_CH_STATUS_IN_COLLISION (n : Nat) : Fld := ⟨MBX_CH_STATUS n, 8, 1⟩
def MBX_CH_STATUS_OUT_COLLISION (n : Nat) : Fld := ⟨MBX_CH_STATUS n, 9, 1⟩
def MBX_CH_STATUS_COLL_CNT (n : Nat) : Fld := ⟨MBX_CH_STATUS n, 16, 16⟩
abbrev MBX_CH_CFG (n : Nat) : Nat := 0xb00010 + 0x20 * n
def MBX_CH_CFG_E0 (n : Nat) : Fld := ⟨MBX_CH_CFG n, 0, 16⟩
def MBX_CH_CFG_E1 (n : Nat) : Fld := ⟨MBX_CH_CFG n, 16, 16⟩
abbrev MBX_CH_WAKE (n : Nat) : Nat := 0xb00014 + 0x20 * n
def MBX_CH_WAKE_IRQ_EN (n : Nat) : Fld := ⟨MBX_CH_WAKE n, 0, 1⟩
abbrev MBX_EVENT : Nat := 0xb00400
def MBX_EVENT_FOREIGN : Fld := ⟨MBX_EVENT, 0, 1⟩
abbrev MBX_FOREIGN_CNT : Nat := 0xb00404
def MBX_FOREIGN_CNT_COUNT : Fld := ⟨MBX_FOREIGN_CNT, 0, 32⟩
abbrev SYN_CTRL : Nat := 0x300000
def SYN_CTRL_ENABLE : Fld := ⟨SYN_CTRL, 0, 1⟩
abbrev SYN_EVENT : Nat := 0x300004
def SYN_EVENT_OVERFLOW : Fld := ⟨SYN_EVENT, 0, 1⟩
def SYN_EVENT_WATCHDOG : Fld := ⟨SYN_EVENT, 1, 1⟩
def SYN_EVENT_REMOTE_MISS : Fld := ⟨SYN_EVENT, 2, 1⟩
def SYN_EVENT_STALE : Fld := ⟨SYN_EVENT, 3, 1⟩
def SYN_EVENT_BROKEN : Fld := ⟨SYN_EVENT, 4, 1⟩
def SYN_EVENT_WAITERS_FULL : Fld := ⟨SYN_EVENT, 5, 1⟩
abbrev SYN_WAITERS : Nat := 0x300008
def SYN_WAITERS_IN_USE : Fld := ⟨SYN_WAITERS, 0, 13⟩
abbrev SYN_REMOTE_PEND : Nat := 0x30000c
def SYN_REMOTE_PEND_COUNT : Fld := ⟨SYN_REMOTE_PEND, 0, 11⟩
abbrev SYN_OBJ_SEL : Nat := 0x300010
def SYN_OBJ_SEL_INDEX : Fld := ⟨SYN_OBJ_SEL, 0, 13⟩
abbrev SYN_OBJ_VAL_LO : Nat := 0x300014
def SYN_OBJ_VAL_LO_VAL_LO : Fld := ⟨SYN_OBJ_VAL_LO, 0, 32⟩
abbrev SYN_OBJ_VAL_HI : Nat := 0x300018
def SYN_OBJ_VAL_HI_VAL_HI : Fld := ⟨SYN_OBJ_VAL_HI, 0, 32⟩
abbrev SYN_OBJ_STATE : Nat := 0x30001c
def SYN_OBJ_STATE_KIND : Fld := ⟨SYN_OBJ_STATE, 0, 1⟩
def SYN_OBJ_STATE_BROKEN : Fld := ⟨SYN_OBJ_STATE, 1, 1⟩
def SYN_OBJ_STATE_SENSE : Fld := ⟨SYN_OBJ_STATE, 2, 1⟩
def SYN_OBJ_STATE_ARRIVED : Fld := ⟨SYN_OBJ_STATE, 4, 12⟩
def SYN_OBJ_STATE_WAITERS : Fld := ⟨SYN_OBJ_STATE, 16, 13⟩
abbrev SYN_BAR_CFG : Nat := 0x300020
def SYN_BAR_CFG_LOCAL_N : Fld := ⟨SYN_BAR_CFG, 0, 12⟩
def SYN_BAR_CFG_PARENT_PORT : Fld := ⟨SYN_BAR_CFG, 12, 4⟩
def SYN_BAR_CFG_ROOT : Fld := ⟨SYN_BAR_CFG, 16, 1⟩
abbrev SYN_BAR_CHILD : Nat := 0x300024
def SYN_BAR_CHILD_CHILD_MASK : Fld := ⟨SYN_BAR_CHILD, 0, 16⟩
def SYN_BAR_CHILD_ARRIVED_MASK : Fld := ⟨SYN_BAR_CHILD, 16, 16⟩
abbrev SYN_BAR_REARM : Nat := 0x300028
def SYN_BAR_REARM_REARM : Fld := ⟨SYN_BAR_REARM, 0, 1⟩
abbrev SYN_XLAT_INVAL : Nat := 0x30002c
def SYN_XLAT_INVAL_CONTEXT : Fld := ⟨SYN_XLAT_INVAL, 0, 6⟩
def SYN_XLAT_INVAL_ALL : Fld := ⟨SYN_XLAT_INVAL, 6, 1⟩
def SYN_XLAT_INVAL_GO : Fld := ⟨SYN_XLAT_INVAL, 7, 1⟩
def SYN_XLAT_INVAL_BUSY : Fld := ⟨SYN_XLAT_INVAL, 8, 1⟩
abbrev SYN_OVERFLOW_CNT : Nat := 0x300030
def SYN_OVERFLOW_CNT_COUNT : Fld := ⟨SYN_OVERFLOW_CNT, 0, 32⟩
abbrev SYN_WDOG_CNT : Nat := 0x300034
def SYN_WDOG_CNT_COUNT : Fld := ⟨SYN_WDOG_CNT, 0, 32⟩
abbrev SYN_REMOTE_MISS_CNT : Nat := 0x300038
def SYN_REMOTE_MISS_CNT_COUNT : Fld := ⟨SYN_REMOTE_MISS_CNT, 0, 32⟩
abbrev SYN_STALE_CNT : Nat := 0x30003c
def SYN_STALE_CNT_COUNT : Fld := ⟨SYN_STALE_CNT, 0, 32⟩
abbrev SYN_FOREIGN_CNT : Nat := 0x300040
def SYN_FOREIGN_CNT_COUNT : Fld := ⟨SYN_FOREIGN_CNT, 0, 32⟩
abbrev SYN_CTX_XT_LO (n : Nat) : Nat := 0x300800 + 0x10 * n
def SYN_CTX_XT_LO_VALID (n : Nat) : Fld := ⟨SYN_CTX_XT_LO n, 0, 1⟩
def SYN_CTX_XT_LO_BASE_LO (n : Nat) : Fld := ⟨SYN_CTX_XT_LO n, 18, 14⟩
abbrev SYN_CTX_XT_HI (n : Nat) : Nat := 0x300804 + 0x10 * n
def SYN_CTX_XT_HI_BASE_HI (n : Nat) : Fld := ⟨SYN_CTX_XT_HI n, 0, 8⟩
abbrev SYN_CTX_WDOG (n : Nat) : Nat := 0x300808 + 0x10 * n
def SYN_CTX_WDOG_FRAMES (n : Nat) : Fld := ⟨SYN_CTX_WDOG n, 0, 32⟩
abbrev SYN_CTX_EPOCH (n : Nat) : Nat := 0x30080c + 0x10 * n
def SYN_CTX_EPOCH_EPOCH (n : Nat) : Fld := ⟨SYN_CTX_EPOCH n, 0, 16⟩
abbrev OPT_CTRL : Nat := 0x500000
def OPT_CTRL_BANK_EN : Fld := ⟨OPT_CTRL, 0, 1⟩
def OPT_CTRL_AUTO_SWAP : Fld := ⟨OPT_CTRL, 1, 1⟩
def OPT_CTRL_TONE_EN : Fld := ⟨OPT_CTRL, 2, 1⟩
abbrev OPT_STATUS : Nat := 0x500004
def OPT_STATUS_SPARES_FREE : Fld := ⟨OPT_STATUS, 0, 3⟩
def OPT_STATUS_PARKED : Fld := ⟨OPT_STATUS, 3, 1⟩
def OPT_STATUS_PARK_SPARE : Fld := ⟨OPT_STATUS, 4, 2⟩
def OPT_STATUS_PORTS_UP : Fld := ⟨OPT_STATUS, 6, 16⟩
abbrev OPT_EVENT : Nat := 0x500008
def OPT_EVENT_WRONG_LAMBDA : Fld := ⟨OPT_EVENT, 0, 1⟩
def OPT_EVENT_LANE_ALARM : Fld := ⟨OPT_EVENT, 1, 1⟩
def OPT_EVENT_LANE_MOVE : Fld := ⟨OPT_EVENT, 2, 1⟩
def OPT_EVENT_LASER_WARN : Fld := ⟨OPT_EVENT, 3, 1⟩
def OPT_EVENT_LASER_SWAP : Fld := ⟨OPT_EVENT, 4, 1⟩
def OPT_EVENT_LASER_FAIL : Fld := ⟨OPT_EVENT, 5, 1⟩
def OPT_EVENT_SPARE_EXHAUSTED : Fld := ⟨OPT_EVENT, 6, 1⟩
def OPT_EVENT_PORT_QUIET : Fld := ⟨OPT_EVENT, 7, 1⟩
def OPT_EVENT_LINK_DOWN : Fld := ⟨OPT_EVENT, 8, 1⟩
def OPT_EVENT_PEER_CHANGE : Fld := ⟨OPT_EVENT, 9, 1⟩
def OPT_EVENT_BYPASS_MOVE : Fld := ⟨OPT_EVENT, 10, 1⟩
def OPT_EVENT_BYPASS_DEFER : Fld := ⟨OPT_EVENT, 11, 1⟩
def OPT_EVENT_SWAP_DONE : Fld := ⟨OPT_EVENT, 12, 1⟩
abbrev OPT_QUIET_LIMIT : Nat := 0x50000c
def OPT_QUIET_LIMIT_FRAMES : Fld := ⟨OPT_QUIET_LIMIT, 0, 32⟩
abbrev OPT_LASER_THRESH : Nat := 0x500010
def OPT_LASER_THRESH_WARN_DB : Fld := ⟨OPT_LASER_THRESH, 0, 8⟩
def OPT_LASER_THRESH_SWAP_DB : Fld := ⟨OPT_LASER_THRESH, 8, 8⟩
def OPT_LASER_THRESH_FAIL_DB : Fld := ⟨OPT_LASER_THRESH, 16, 8⟩
abbrev OPT_RING_SEL : Nat := 0x500014
def OPT_RING_SEL_PORT : Fld := ⟨OPT_RING_SEL, 0, 4⟩
def OPT_RING_SEL_BUS : Fld := ⟨OPT_RING_SEL, 4, 1⟩
def OPT_RING_SEL_LAMBDA : Fld := ⟨OPT_RING_SEL, 5, 5⟩
abbrev OPT_RING_DATA : Nat := 0x500018
def OPT_RING_DATA_HEATER : Fld := ⟨OPT_RING_DATA, 0, 16⟩
def OPT_RING_DATA_STATE : Fld := ⟨OPT_RING_DATA, 16, 3⟩
def OPT_RING_DATA_TONE_LC : Fld := ⟨OPT_RING_DATA, 19, 5⟩
def OPT_RING_DATA_ATTEMPT : Fld := ⟨OPT_RING_DATA, 24, 2⟩
abbrev OPT_RING_CAL : Nat := 0x50001c
def OPT_RING_CAL_H_CAL : Fld := ⟨OPT_RING_CAL, 0, 16⟩
abbrev OPT_WRONG_CNT : Nat := 0x500020
def OPT_WRONG_CNT_COUNT : Fld := ⟨OPT_WRONG_CNT, 0, 32⟩
abbrev OPT_LASER_FAIL_CNT : Nat := 0x500024
def OPT_LASER_FAIL_CNT_COUNT : Fld := ⟨OPT_LASER_FAIL_CNT, 0, 32⟩
abbrev OPT_LC_CTRL (n : Nat) : Nat := 0x500100 + 0x10 * n
def OPT_LC_CTRL_RELEASE (n : Nat) : Fld := ⟨OPT_LC_CTRL n, 0, 1⟩
def OPT_LC_CTRL_PARK (n : Nat) : Fld := ⟨OPT_LC_CTRL n, 1, 1⟩
abbrev OPT_LC_STATUS (n : Nat) : Nat := 0x500104 + 0x10 * n
def OPT_LC_STATUS_PRESENT (n : Nat) : Fld := ⟨OPT_LC_STATUS n, 0, 1⟩
def OPT_LC_STATUS_LEVER_OPEN (n : Nat) : Fld := ⟨OPT_LC_STATUS n, 1, 1⟩
def OPT_LC_STATUS_STATE (n : Nat) : Fld := ⟨OPT_LC_STATUS n, 2, 3⟩
def OPT_LC_STATUS_LAMBDA (n : Nat) : Fld := ⟨OPT_LC_STATUS n, 5, 5⟩
def OPT_LC_STATUS_WARN (n : Nat) : Fld := ⟨OPT_LC_STATUS n, 10, 1⟩
def OPT_LC_STATUS_SWAP (n : Nat) : Fld := ⟨OPT_LC_STATUS n, 11, 1⟩
abbrev OPT_LC_POWER (n : Nat) : Nat := 0x500108 + 0x10 * n
def OPT_LC_POWER_AVG (n : Nat) : Fld := ⟨OPT_LC_POWER n, 0, 16⟩
def OPT_LC_POWER_LAST (n : Nat) : Fld := ⟨OPT_LC_POWER n, 16, 16⟩
abbrev OPT_LC_COMM (n : Nat) : Nat := 0x50010c + 0x10 * n
def OPT_LC_COMM_P_C (n : Nat) : Fld := ⟨OPT_LC_COMM n, 0, 16⟩
abbrev OPT_WL_SRC (n : Nat) : Nat := 0x500300 + 0x4 * n
def OPT_WL_SRC_SOURCE (n : Nat) : Fld := ⟨OPT_WL_SRC n, 0, 5⟩
abbrev OPT_PORT_STATUS (n : Nat) : Nat := 0x500400 + 0x20 * n
def OPT_PORT_STATUS_UP (n : Nat) : Fld := ⟨OPT_PORT_STATUS n, 0, 1⟩
def OPT_PORT_STATUS_TX_QUIET (n : Nat) : Fld := ⟨OPT_PORT_STATUS n, 1, 1⟩
def OPT_PORT_STATUS_RX_HOLD (n : Nat) : Fld := ⟨OPT_PORT_STATUS n, 2, 1⟩
def OPT_PORT_STATUS_LINK_DOWN (n : Nat) : Fld := ⟨OPT_PORT_STATUS n, 3, 1⟩
def OPT_PORT_STATUS_GAP (n : Nat) : Fld := ⟨OPT_PORT_STATUS n, 4, 1⟩
def OPT_PORT_STATUS_PEER (n : Nat) : Fld := ⟨OPT_PORT_STATUS n, 16, 13⟩
def OPT_PORT_STATUS_PEER_VALID (n : Nat) : Fld := ⟨OPT_PORT_STATUS n, 29, 1⟩
abbrev OPT_PORT_LANE (n : Nat) : Nat := 0x500404 + 0x20 * n
def OPT_PORT_LANE_TX_SPARE (n : Nat) : Fld := ⟨OPT_PORT_LANE n, 0, 5⟩
abbrev OPT_PORT_GAP_START (n : Nat) : Nat := 0x500408 + 0x20 * n
def OPT_PORT_GAP_START_START (n : Nat) : Fld := ⟨OPT_PORT_GAP_START n, 0, 32⟩
abbrev OPT_PORT_GAP_LEN (n : Nat) : Nat := 0x50040c + 0x20 * n
def OPT_PORT_GAP_LEN_FRAMES (n : Nat) : Fld := ⟨OPT_PORT_GAP_LEN n, 0, 16⟩
abbrev OPT_PORT_RETRY_CNT (n : Nat) : Nat := 0x500410 + 0x20 * n
def OPT_PORT_RETRY_CNT_COUNT (n : Nat) : Fld := ⟨OPT_PORT_RETRY_CNT n, 0, 32⟩
abbrev OPT_PORT_FEC_CORR_CNT (n : Nat) : Nat := 0x500414 + 0x20 * n
def OPT_PORT_FEC_CORR_CNT_COUNT (n : Nat) : Fld := ⟨OPT_PORT_FEC_CORR_CNT n, 0, 32⟩
abbrev OPT_PORT_FEC_UNCORR_CNT (n : Nat) : Nat := 0x500418 + 0x20 * n
def OPT_PORT_FEC_UNCORR_CNT_COUNT (n : Nat) : Fld := ⟨OPT_PORT_FEC_UNCORR_CNT n, 0, 32⟩
abbrev OPT_PORT_ALARM_CNT (n : Nat) : Nat := 0x50041c + 0x20 * n
def OPT_PORT_ALARM_CNT_COUNT (n : Nat) : Fld := ⟨OPT_PORT_ALARM_CNT n, 0, 32⟩
abbrev OPT_BYP_CTRL (n : Nat) : Nat := 0x500600 + 0x10 * n
def OPT_BYP_CTRL_TARGET (n : Nat) : Fld := ⟨OPT_BYP_CTRL n, 0, 1⟩
def OPT_BYP_CTRL_ARM (n : Nat) : Fld := ⟨OPT_BYP_CTRL n, 1, 1⟩
abbrev OPT_BYP_STATUS (n : Nat) : Nat := 0x500604 + 0x10 * n
def OPT_BYP_STATUS_POSITION (n : Nat) : Fld := ⟨OPT_BYP_STATUS n, 0, 2⟩
def OPT_BYP_STATUS_DEFERRED (n : Nat) : Fld := ⟨OPT_BYP_STATUS n, 2, 1⟩
def OPT_BYP_STATUS_LISTEN_OK (n : Nat) : Fld := ⟨OPT_BYP_STATUS n, 3, 1⟩
def OPT_BYP_STATUS_MOVES (n : Nat) : Fld := ⟨OPT_BYP_STATUS n, 16, 16⟩
abbrev OPT_BYP_FRAME (n : Nat) : Nat := 0x500608 + 0x10 * n
def OPT_BYP_FRAME_FRAME (n : Nat) : Fld := ⟨OPT_BYP_FRAME n, 0, 32⟩
abbrev SWT_CTRL : Nat := 0x600000
def SWT_CTRL_ENABLE : Fld := ⟨SWT_CTRL, 0, 1⟩
def SWT_CTRL_MODE : Fld := ⟨SWT_CTRL, 1, 1⟩
def SWT_CTRL_REROUTE : Fld := ⟨SWT_CTRL, 2, 1⟩
abbrev SWT_STATUS : Nat := 0x600004
def SWT_STATUS_ACTIVE_BANK : Fld := ⟨SWT_STATUS, 0, 1⟩
def SWT_STATUS_SWAP_PENDING : Fld := ⟨SWT_STATUS, 1, 1⟩
def SWT_STATUS_TERM_ONLY : Fld := ⟨SWT_STATUS, 2, 1⟩
def SWT_STATUS_KEY_SLOT : Fld := ⟨SWT_STATUS, 3, 1⟩
def SWT_STATUS_COLL_INFLIGHT : Fld := ⟨SWT_STATUS, 4, 6⟩
abbrev SWT_EVENT : Nat := 0x600008
def SWT_EVENT_ROUTE_MISS : Fld := ⟨SWT_EVENT, 0, 1⟩
def SWT_EVENT_STALE : Fld := ⟨SWT_EVENT, 1, 1⟩
def SWT_EVENT_AGED : Fld := ⟨SWT_EVENT, 2, 1⟩
def SWT_EVENT_AUTH_FAIL : Fld := ⟨SWT_EVENT, 3, 1⟩
def SWT_EVENT_SWAP_DONE : Fld := ⟨SWT_EVENT, 4, 1⟩
def SWT_EVENT_LOAD_ERROR : Fld := ⟨SWT_EVENT, 5, 1⟩
def SWT_EVENT_DEGRADE : Fld := ⟨SWT_EVENT, 6, 1⟩
def SWT_EVENT_REROUTE : Fld := ⟨SWT_EVENT, 7, 1⟩
def SWT_EVENT_FLOW_MOVE : Fld := ⟨SWT_EVENT, 8, 1⟩
def SWT_EVENT_LATE_ANNOUNCE : Fld := ⟨SWT_EVENT, 9, 1⟩
abbrev SWT_ID : Nat := 0x60000c
def SWT_ID_MODULE_ID : Fld := ⟨SWT_ID, 0, 13⟩
abbrev SWT_SLICE : Nat := 0x600010
def SWT_SLICE_TAG : Fld := ⟨SWT_SLICE, 0, 12⟩
def SWT_SLICE_ENC : Fld := ⟨SWT_SLICE, 12, 1⟩
def SWT_SLICE_KEY0_VALID : Fld := ⟨SWT_SLICE, 13, 1⟩
def SWT_SLICE_KEY1_VALID : Fld := ⟨SWT_SLICE, 14, 1⟩
abbrev SWT_SCHED_BANK : Nat := 0x600014
def SWT_SCHED_BANK_ACTIVE : Fld := ⟨SWT_SCHED_BANK, 0, 1⟩
def SWT_SCHED_BANK_LOADED0 : Fld := ⟨SWT_SCHED_BANK, 1, 1⟩
def SWT_SCHED_BANK_LOADED1 : Fld := ⟨SWT_SCHED_BANK, 2, 1⟩
abbrev SWT_SWAP_FRAME_LO : Nat := 0x600018
def SWT_SWAP_FRAME_LO_FRAME : Fld := ⟨SWT_SWAP_FRAME_LO, 0, 32⟩
abbrev SWT_SWAP_FRAME_HI : Nat := 0x60001c
def SWT_SWAP_FRAME_HI_FRAME : Fld := ⟨SWT_SWAP_FRAME_HI, 0, 32⟩
abbrev SWT_SCHED_LOAD_LO : Nat := 0x600020
def SWT_SCHED_LOAD_LO_PA_LO : Fld := ⟨SWT_SCHED_LOAD_LO, 13, 19⟩
abbrev SWT_SCHED_LOAD_HI : Nat := 0x600024
def SWT_SCHED_LOAD_HI_PA_HI : Fld := ⟨SWT_SCHED_LOAD_HI, 0, 8⟩
abbrev SWT_SCHED_LOAD_CTRL : Nat := 0x600028
def SWT_SCHED_LOAD_CTRL_BANK : Fld := ⟨SWT_SCHED_LOAD_CTRL, 0, 1⟩
def SWT_SCHED_LOAD_CTRL_GO : Fld := ⟨SWT_SCHED_LOAD_CTRL, 1, 1⟩
def SWT_SCHED_LOAD_CTRL_BUSY : Fld := ⟨SWT_SCHED_LOAD_CTRL, 2, 1⟩
def SWT_SCHED_LOAD_CTRL_ERROR : Fld := ⟨SWT_SCHED_LOAD_CTRL, 3, 1⟩
def SWT_SCHED_LOAD_CTRL_REASON : Fld := ⟨SWT_SCHED_LOAD_CTRL, 4, 4⟩
def SWT_SCHED_LOAD_CTRL_ERR_SLOT : Fld := ⟨SWT_SCHED_LOAD_CTRL, 8, 6⟩
def SWT_SCHED_LOAD_CTRL_ERR_PORT : Fld := ⟨SWT_SCHED_LOAD_CTRL, 14, 4⟩
abbrev SWT_ROUTE_SEL : Nat := 0x600030
def SWT_ROUTE_SEL_INDEX : Fld := ⟨SWT_ROUTE_SEL, 0, 13⟩
abbrev SWT_ROUTE_DATA : Nat := 0x600034
def SWT_ROUTE_DATA_ENTRY : Fld := ⟨SWT_ROUTE_DATA, 0, 32⟩
abbrev SWT_GROUP_BASE_LO : Nat := 0x600038
def SWT_GROUP_BASE_LO_PA_LO : Fld := ⟨SWT_GROUP_BASE_LO, 18, 14⟩
abbrev SWT_GROUP_BASE_HI : Nat := 0x60003c
def SWT_GROUP_BASE_HI_PA_HI : Fld := ⟨SWT_GROUP_BASE_HI, 0, 8⟩
abbrev SWT_KEY_SWITCH_LO : Nat := 0x600040
def SWT_KEY_SWITCH_LO_FRAME_LO : Fld := ⟨SWT_KEY_SWITCH_LO, 0, 32⟩
abbrev SWT_KEY_SWITCH_HI : Nat := 0x600044
def SWT_KEY_SWITCH_HI_FRAME_HI : Fld := ⟨SWT_KEY_SWITCH_HI, 0, 32⟩
abbrev SWT_MISS_CNT : Nat := 0x600050
def SWT_MISS_CNT_COUNT : Fld := ⟨SWT_MISS_CNT, 0, 32⟩
abbrev SWT_STALE_CNT : Nat := 0x600054
def SWT_STALE_CNT_COUNT : Fld := ⟨SWT_STALE_CNT, 0, 32⟩
abbrev SWT_AGED_CNT : Nat := 0x600058
def SWT_AGED_CNT_COUNT : Fld := ⟨SWT_AGED_CNT, 0, 32⟩
abbrev SWT_AUTH_FAIL_CNT : Nat := 0x60005c
def SWT_AUTH_FAIL_CNT_COUNT : Fld := ⟨SWT_AUTH_FAIL_CNT, 0, 32⟩
abbrev SWT_DEGRADE_CNT : Nat := 0x600060
def SWT_DEGRADE_CNT_COUNT : Fld := ⟨SWT_DEGRADE_CNT, 0, 32⟩
abbrev SWT_FLOW_MOVE_CNT : Nat := 0x600064
def SWT_FLOW_MOVE_CNT_COUNT : Fld := ⟨SWT_FLOW_MOVE_CNT, 0, 32⟩
abbrev SWT_PORT_DELAY (n : Nat) : Nat := 0x600100 + 0x4 * n
def SWT_PORT_DELAY_DELAY (n : Nat) : Fld := ⟨SWT_PORT_DELAY n, 0, 24⟩
def SWT_PORT_DELAY_VALID (n : Nat) : Fld := ⟨SWT_PORT_DELAY n, 24, 1⟩
def SWT_PORT_DELAY_EXPRESS_OK (n : Nat) : Fld := ⟨SWT_PORT_DELAY n, 25, 1⟩
abbrev RPL_STEP_SEL : Nat := 0x800000
def RPL_STEP_SEL_CONTEXT : Fld := ⟨RPL_STEP_SEL, 0, 6⟩
abbrev RPL_STEP_CTRL (n : Nat) : Nat := 0x100000004 + 0x1000 * n
def RPL_STEP_CTRL_ENABLE (n : Nat) : Fld := ⟨RPL_STEP_CTRL n, 0, 1⟩
def RPL_STEP_CTRL_PHASE_OWNER (n : Nat) : Fld := ⟨RPL_STEP_CTRL n, 1, 1⟩
def RPL_STEP_CTRL_ARM (n : Nat) : Fld := ⟨RPL_STEP_CTRL n, 2, 1⟩
def RPL_STEP_CTRL_CANCEL (n : Nat) : Fld := ⟨RPL_STEP_CTRL n, 3, 1⟩
def RPL_STEP_CTRL_MAX_ATTEMPTS (n : Nat) : Fld := ⟨RPL_STEP_CTRL n, 8, 4⟩
abbrev RPL_STEP_STATUS (n : Nat) : Nat := 0x100000008 + 0x1000 * n
def RPL_STEP_STATUS_STATE (n : Nat) : Fld := ⟨RPL_STEP_STATUS n, 0, 2⟩
def RPL_STEP_STATUS_DIRTY (n : Nat) : Fld := ⟨RPL_STEP_STATUS n, 2, 1⟩
def RPL_STEP_STATUS_ARMED (n : Nat) : Fld := ⟨RPL_STEP_STATUS n, 3, 1⟩
def RPL_STEP_STATUS_CLOSE_READY (n : Nat) : Fld := ⟨RPL_STEP_STATUS n, 4, 1⟩
def RPL_STEP_STATUS_CARRY (n : Nat) : Fld := ⟨RPL_STEP_STATUS n, 5, 1⟩
abbrev RPL_STEP_ATTEMPT (n : Nat) : Nat := 0x10000000c + 0x1000 * n
def RPL_STEP_ATTEMPT_ATTEMPT (n : Nat) : Fld := ⟨RPL_STEP_ATTEMPT n, 0, 32⟩
abbrev RPL_STEP_NUM_LO (n : Nat) : Nat := 0x100000010 + 0x1000 * n
def RPL_STEP_NUM_LO_STEP (n : Nat) : Fld := ⟨RPL_STEP_NUM_LO n, 0, 32⟩
abbrev RPL_STEP_NUM_HI (n : Nat) : Nat := 0x100000014 + 0x1000 * n
def RPL_STEP_NUM_HI_STEP (n : Nat) : Fld := ⟨RPL_STEP_NUM_HI n, 0, 32⟩
abbrev RPL_STEP_OPEN_LO (n : Nat) : Nat := 0x100000018 + 0x1000 * n
def RPL_STEP_OPEN_LO_FRAME (n : Nat) : Fld := ⟨RPL_STEP_OPEN_LO n, 0, 32⟩
abbrev RPL_STEP_OPEN_HI (n : Nat) : Nat := 0x10000001c + 0x1000 * n
def RPL_STEP_OPEN_HI_FRAME (n : Nat) : Fld := ⟨RPL_STEP_OPEN_HI n, 0, 32⟩
abbrev RPL_STEP_NEXT_LO (n : Nat) : Nat := 0x100000020 + 0x1000 * n
def RPL_STEP_NEXT_LO_STEP (n : Nat) : Fld := ⟨RPL_STEP_NEXT_LO n, 0, 32⟩
abbrev RPL_STEP_NEXT_HI (n : Nat) : Nat := 0x100000024 + 0x1000 * n
def RPL_STEP_NEXT_HI_STEP (n : Nat) : Fld := ⟨RPL_STEP_NEXT_HI n, 0, 32⟩
abbrev RPL_STEP_CLOSE_LO (n : Nat) : Nat := 0x100000028 + 0x1000 * n
def RPL_STEP_CLOSE_LO_FRAME (n : Nat) : Fld := ⟨RPL_STEP_CLOSE_LO n, 0, 32⟩
abbrev RPL_STEP_CLOSE_HI (n : Nat) : Nat := 0x10000002c + 0x1000 * n
def RPL_STEP_CLOSE_HI_FRAME (n : Nat) : Fld := ⟨RPL_STEP_CLOSE_HI n, 0, 32⟩
abbrev RPL_STEP_VOTE (n : Nat) : Nat := 0x100000030 + 0x1000 * n
def RPL_STEP_VOTE_OWN (n : Nat) : Fld := ⟨RPL_STEP_VOTE n, 0, 8⟩
def RPL_STEP_VOTE_SLICE (n : Nat) : Fld := ⟨RPL_STEP_VOTE n, 16, 8⟩
abbrev RPL_GRAD_BASE_LO (n : Nat) : Nat := 0x100000034 + 0x1000 * n
def RPL_GRAD_BASE_LO_VALID (n : Nat) : Fld := ⟨RPL_GRAD_BASE_LO n, 0, 1⟩
def RPL_GRAD_BASE_LO_PA_LO (n : Nat) : Fld := ⟨RPL_GRAD_BASE_LO n, 18, 14⟩
abbrev RPL_GRAD_BASE_HI (n : Nat) : Nat := 0x100000038 + 0x1000 * n
def RPL_GRAD_BASE_HI_PA_HI (n : Nat) : Fld := ⟨RPL_GRAD_BASE_HI n, 0, 8⟩
def RPL_GRAD_BASE_HI_COUNT (n : Nat) : Fld := ⟨RPL_GRAD_BASE_HI n, 16, 14⟩
abbrev RPL_STEP_EVENT : Nat := 0x800080
def RPL_STEP_EVENT_OPENED : Fld := ⟨RPL_STEP_EVENT, 0, 1⟩
def RPL_STEP_EVENT_CLOSED : Fld := ⟨RPL_STEP_EVENT, 1, 1⟩
def RPL_STEP_EVENT_DISCARD : Fld := ⟨RPL_STEP_EVENT, 2, 1⟩
def RPL_STEP_EVENT_BREAK_SENT : Fld := ⟨RPL_STEP_EVENT, 3, 1⟩
def RPL_STEP_EVENT_LATE_BREAK : Fld := ⟨RPL_STEP_EVENT, 4, 1⟩
def RPL_STEP_EVENT_OPEN_MISSED : Fld := ⟨RPL_STEP_EVENT, 5, 1⟩
def RPL_STEP_EVENT_GRAD_ALIAS : Fld := ⟨RPL_STEP_EVENT, 6, 1⟩
def RPL_STEP_EVENT_STALLED : Fld := ⟨RPL_STEP_EVENT, 7, 1⟩
def RPL_STEP_EVENT_UPD_NAN : Fld := ⟨RPL_STEP_EVENT, 8, 1⟩
def RPL_STEP_EVENT_UPD_OVF : Fld := ⟨RPL_STEP_EVENT, 9, 1⟩
abbrev RPL_GRAD_ALIAS_CNT : Nat := 0x800084
def RPL_GRAD_ALIAS_CNT_COUNT : Fld := ⟨RPL_GRAD_ALIAS_CNT, 0, 32⟩
abbrev RPL_LATE_BREAK_CNT : Nat := 0x800088
def RPL_LATE_BREAK_CNT_COUNT : Fld := ⟨RPL_LATE_BREAK_CNT, 0, 32⟩
abbrev RPL_UPD_NAN_CNT : Nat := 0x80008c
def RPL_UPD_NAN_CNT_COUNT : Fld := ⟨RPL_UPD_NAN_CNT, 0, 32⟩
abbrev RPL_UPD_OVF_CNT : Nat := 0x800090
def RPL_UPD_OVF_CNT_COUNT : Fld := ⟨RPL_UPD_OVF_CNT, 0, 32⟩
abbrev RPL_UPD_STATUS : Nat := 0x800094
def RPL_UPD_STATUS_BUSY : Fld := ⟨RPL_UPD_STATUS, 0, 9⟩
abbrev INT_CTRL : Nat := 0x700000
def INT_CTRL_DUP_EN : Fld := ⟨INT_CTRL, 0, 1⟩
def INT_CTRL_BAND_EN : Fld := ⟨INT_CTRL, 1, 1⟩
def INT_CTRL_TEST_EN : Fld := ⟨INT_CTRL, 2, 1⟩
abbrev INT_STATUS : Nat := 0x700004
def INT_STATUS_DUP_PENDING : Fld := ⟨INT_STATUS, 0, 16⟩
def INT_STATUS_TEST_RUNNING : Fld := ⟨INT_STATUS, 16, 1⟩
def INT_STATUS_PACKS : Fld := ⟨INT_STATUS, 17, 7⟩
abbrev INT_EVENT : Nat := 0x700008
def INT_EVENT_CHECK_FAIL : Fld := ⟨INT_EVENT, 0, 1⟩
def INT_EVENT_PARITY : Fld := ⟨INT_EVENT, 1, 1⟩
def INT_EVENT_DUP_MISMATCH : Fld := ⟨INT_EVENT, 2, 1⟩
def INT_EVENT_DUP_SKIP : Fld := ⟨INT_EVENT, 3, 1⟩
def INT_EVENT_DIGEST_MISMATCH : Fld := ⟨INT_EVENT, 4, 1⟩
def INT_EVENT_PROBATION : Fld := ⟨INT_EVENT, 5, 1⟩
def INT_EVENT_REMOVE : Fld := ⟨INT_EVENT, 6, 1⟩
def INT_EVENT_TEST_FAIL : Fld := ⟨INT_EVENT, 7, 1⟩
def INT_EVENT_PACK_REJECT : Fld := ⟨INT_EVENT, 8, 1⟩
def INT_EVENT_CPER_OVERWRITE : Fld := ⟨INT_EVENT, 9, 1⟩
abbrev INT_DUP_CFG : Nat := 0x70000c
def INT_DUP_CFG_LIMIT : Fld := ⟨INT_DUP_CFG, 0, 16⟩
def INT_DUP_CFG_BAND_C : Fld := ⟨INT_DUP_CFG, 16, 4⟩
def INT_DUP_CFG_BAND_DAYS : Fld := ⟨INT_DUP_CFG, 20, 8⟩
abbrev INT_TEST_CFG : Nat := 0x700010
def INT_TEST_CFG_SHARE : Fld := ⟨INT_TEST_CFG, 0, 10⟩
def INT_TEST_CFG_ADMIT_MS : Fld := ⟨INT_TEST_CFG, 10, 16⟩
abbrev INT_HEALTH_SEL : Nat := 0x700014
def INT_HEALTH_SEL_KIND : Fld := ⟨INT_HEALTH_SEL, 0, 2⟩
def INT_HEALTH_SEL_INDEX : Fld := ⟨INT_HEALTH_SEL, 2, 8⟩
abbrev INT_HEALTH_DATA : Nat := 0x700018
def INT_HEALTH_DATA_SCORE : Fld := ⟨INT_HEALTH_DATA, 0, 10⟩
def INT_HEALTH_DATA_PROBATION : Fld := ⟨INT_HEALTH_DATA, 10, 1⟩
def INT_HEALTH_DATA_REMOVE : Fld := ⟨INT_HEALTH_DATA, 11, 1⟩
def INT_HEALTH_DATA_BAND : Fld := ⟨INT_HEALTH_DATA, 12, 1⟩
def INT_HEALTH_DATA_S_EFF : Fld := ⟨INT_HEALTH_DATA, 13, 5⟩
abbrev INT_DIGEST_FAULT : Nat := 0x70001c
def INT_DIGEST_FAULT_CONTEXT : Fld := ⟨INT_DIGEST_FAULT, 0, 6⟩
def INT_DIGEST_FAULT_RELATION : Fld := ⟨INT_DIGEST_FAULT, 6, 2⟩
def INT_DIGEST_FAULT_PEER : Fld := ⟨INT_DIGEST_FAULT, 8, 13⟩
def INT_DIGEST_FAULT_GO : Fld := ⟨INT_DIGEST_FAULT, 31, 1⟩
abbrev INT_CHECK_FAIL_CNT : Nat := 0x700020
def INT_CHECK_FAIL_CNT_COUNT : Fld := ⟨INT_CHECK_FAIL_CNT, 0, 32⟩
abbrev INT_PARITY_CNT : Nat := 0x700024
def INT_PARITY_CNT_COUNT : Fld := ⟨INT_PARITY_CNT, 0, 32⟩
abbrev INT_DUP_SAMPLED_LO : Nat := 0x700028
def INT_DUP_SAMPLED_LO_COUNT_LO : Fld := ⟨INT_DUP_SAMPLED_LO, 0, 32⟩
abbrev INT_DUP_SAMPLED_HI : Nat := 0x70002c
def INT_DUP_SAMPLED_HI_COUNT_HI : Fld := ⟨INT_DUP_SAMPLED_HI, 0, 32⟩
abbrev INT_DUP_MISMATCH_CNT : Nat := 0x700030
def INT_DUP_MISMATCH_CNT_COUNT : Fld := ⟨INT_DUP_MISMATCH_CNT, 0, 32⟩
abbrev INT_DUP_SKIP_CNT : Nat := 0x700034
def INT_DUP_SKIP_CNT_COUNT : Fld := ⟨INT_DUP_SKIP_CNT, 0, 32⟩
abbrev INT_DIGEST_MISMATCH_CNT : Nat := 0x700038
def INT_DIGEST_MISMATCH_CNT_COUNT : Fld := ⟨INT_DIGEST_MISMATCH_CNT, 0, 32⟩
abbrev INT_TEST_RUN_CNT : Nat := 0x70003c
def INT_TEST_RUN_CNT_COUNT : Fld := ⟨INT_TEST_RUN_CNT, 0, 32⟩
abbrev INT_TEST_FAIL_CNT : Nat := 0x700040
def INT_TEST_FAIL_CNT_COUNT : Fld := ⟨INT_TEST_FAIL_CNT, 0, 32⟩
abbrev INT_DUPQ_BASE_LO (n : Nat) : Nat := 0x700100 + 0x10 * n
def INT_DUPQ_BASE_LO_PA_LO (n : Nat) : Fld := ⟨INT_DUPQ_BASE_LO n, 20, 12⟩
abbrev INT_DUPQ_BASE_HI (n : Nat) : Nat := 0x700104 + 0x10 * n
def INT_DUPQ_BASE_HI_PA_HI (n : Nat) : Fld := ⟨INT_DUPQ_BASE_HI n, 0, 8⟩
abbrev INT_DUPQ_SIZE (n : Nat) : Nat := 0x700108 + 0x10 * n
def INT_DUPQ_SIZE_MIB (n : Nat) : Fld := ⟨INT_DUPQ_SIZE n, 0, 16⟩
abbrev INT_DUPQ_FILL (n : Nat) : Nat := 0x70010c + 0x10 * n
def INT_DUPQ_FILL_MIB (n : Nat) : Fld := ⟨INT_DUPQ_FILL n, 0, 16⟩
abbrev INT_CTX_CFG (n : Nat) : Nat := 0x700800 + 0x10 * n
def INT_CTX_CFG_MODE (n : Nat) : Fld := ⟨INT_CTX_CFG n, 0, 1⟩
def INT_CTX_CFG_S (n : Nat) : Fld := ⟨INT_CTX_CFG n, 1, 5⟩
abbrev RPL_REPLAY_STATUS (n : Nat) : Nat := 0x100000100 + 0x1000 * n
def RPL_REPLAY_STATUS_STATE (n : Nat) : Fld := ⟨RPL_REPLAY_STATUS n, 0, 2⟩
def RPL_REPLAY_STATUS_RESTORE_FAIL (n : Nat) : Fld := ⟨RPL_REPLAY_STATUS n, 2, 1⟩
def RPL_REPLAY_STATUS_HOLD (n : Nat) : Fld := ⟨RPL_REPLAY_STATUS n, 3, 1⟩
abbrev RPL_REPLAY_CTRL (n : Nat) : Nat := 0x100000104 + 0x1000 * n
def RPL_REPLAY_CTRL_DISCARD (n : Nat) : Fld := ⟨RPL_REPLAY_CTRL n, 0, 1⟩
def RPL_REPLAY_CTRL_ARRIVE (n : Nat) : Fld := ⟨RPL_REPLAY_CTRL n, 1, 1⟩
abbrev RPL_REPLAY_CFG : Nat := 0x800108
def RPL_REPLAY_CFG_BARRIER : Fld := ⟨RPL_REPLAY_CFG, 0, 13⟩
def RPL_REPLAY_CFG_LEAD : Fld := ⟨RPL_REPLAY_CFG, 16, 4⟩
def RPL_REPLAY_CFG_VALID : Fld := ⟨RPL_REPLAY_CFG, 20, 1⟩
abbrev RPL_REPLAY_EVENT : Nat := 0x80010c
def RPL_REPLAY_EVENT_READY : Fld := ⟨RPL_REPLAY_EVENT, 0, 1⟩
def RPL_REPLAY_EVENT_LATE : Fld := ⟨RPL_REPLAY_EVENT, 1, 1⟩
def RPL_REPLAY_EVENT_RESTORE_FAIL : Fld := ⟨RPL_REPLAY_EVENT, 2, 1⟩
def RPL_REPLAY_EVENT_SET_REFUSED : Fld := ⟨RPL_REPLAY_EVENT, 3, 1⟩
def RPL_REPLAY_EVENT_FENCE_DONE : Fld := ⟨RPL_REPLAY_EVENT, 4, 1⟩
def RPL_REPLAY_EVENT_FENCE_REFUSED : Fld := ⟨RPL_REPLAY_EVENT, 5, 1⟩
def RPL_REPLAY_EVENT_PEER_SILENT : Fld := ⟨RPL_REPLAY_EVENT, 6, 1⟩
def RPL_REPLAY_EVENT_DAYBREAK_DONE : Fld := ⟨RPL_REPLAY_EVENT, 7, 1⟩
abbrev RPL_PROT_BASE_LO : Nat := 0x800110
def RPL_PROT_BASE_LO_VALID : Fld := ⟨RPL_PROT_BASE_LO, 0, 1⟩
def RPL_PROT_BASE_LO_PA_LO : Fld := ⟨RPL_PROT_BASE_LO, 14, 18⟩
abbrev RPL_PROT_BASE_HI : Nat := 0x800114
def RPL_PROT_BASE_HI_PA_HI : Fld := ⟨RPL_PROT_BASE_HI, 0, 8⟩
def RPL_PROT_BASE_HI_COUNT : Fld := ⟨RPL_PROT_BASE_HI, 16, 9⟩
abbrev RPL_MIR_OFFSET_LO : Nat := 0x800118
def RPL_MIR_OFFSET_LO_OFF_LO : Fld := ⟨RPL_MIR_OFFSET_LO, 16, 16⟩
abbrev RPL_MIR_OFFSET_HI : Nat := 0x80011c
def RPL_MIR_OFFSET_HI_OFF_HI : Fld := ⟨RPL_MIR_OFFSET_HI, 0, 12⟩
abbrev RPL_MIR_PARTNER : Nat := 0x800120
def RPL_MIR_PARTNER_MODULE : Fld := ⟨RPL_MIR_PARTNER, 0, 13⟩
def RPL_MIR_PARTNER_VALID : Fld := ⟨RPL_MIR_PARTNER, 13, 1⟩
abbrev RPL_MIR_CLIENT : Nat := 0x800124
def RPL_MIR_CLIENT_MODULE : Fld := ⟨RPL_MIR_CLIENT, 0, 13⟩
def RPL_MIR_CLIENT_VALID : Fld := ⟨RPL_MIR_CLIENT, 13, 1⟩
def RPL_MIR_CLIENT_STATE : Fld := ⟨RPL_MIR_CLIENT, 14, 2⟩
def RPL_MIR_CLIENT_VERIFIED : Fld := ⟨RPL_MIR_CLIENT, 16, 1⟩
def RPL_MIR_CLIENT_GUEST_STALE : Fld := ⟨RPL_MIR_CLIENT, 17, 1⟩
abbrev RPL_MIR_LAST : Nat := 0x800128
def RPL_MIR_LAST_LAST_STEP : Fld := ⟨RPL_MIR_LAST, 0, 32⟩
abbrev RPL_RING_BASE_LO : Nat := 0x800130
def RPL_RING_BASE_LO_PA_LO : Fld := ⟨RPL_RING_BASE_LO, 16, 16⟩
abbrev RPL_RING_BASE_HI : Nat := 0x800134
def RPL_RING_BASE_HI_PA_HI : Fld := ⟨RPL_RING_BASE_HI, 0, 8⟩
abbrev RPL_RING_CFG : Nat := 0x800138
def RPL_RING_CFG_PAGES : Fld := ⟨RPL_RING_CFG, 0, 22⟩
def RPL_RING_CFG_GUEST : Fld := ⟨RPL_RING_CFG, 22, 1⟩
def RPL_RING_CFG_REQUIRE : Fld := ⟨RPL_RING_CFG, 23, 1⟩
abbrev RPL_RING_FREE : Nat := 0x80013c
def RPL_RING_FREE_PAGES : Fld := ⟨RPL_RING_FREE, 0, 22⟩
abbrev RPL_GUEST_BASE_LO : Nat := 0x800140
def RPL_GUEST_BASE_LO_PA_LO : Fld := ⟨RPL_GUEST_BASE_LO, 16, 16⟩
abbrev RPL_GUEST_BASE_HI : Nat := 0x800144
def RPL_GUEST_BASE_HI_PA_HI : Fld := ⟨RPL_GUEST_BASE_HI, 0, 8⟩
abbrev RPL_SET_CTRL : Nat := 0x800150
def RPL_SET_CTRL_PAGES : Fld := ⟨RPL_SET_CTRL, 0, 22⟩
def RPL_SET_CTRL_OPEN : Fld := ⟨RPL_SET_CTRL, 22, 1⟩
def RPL_SET_CTRL_SEAL : Fld := ⟨RPL_SET_CTRL, 23, 1⟩
def RPL_SET_CTRL_REFUSED : Fld := ⟨RPL_SET_CTRL, 24, 1⟩
abbrev RPL_SET_STEP : Nat := 0x800154
def RPL_SET_STEP_STEP : Fld := ⟨RPL_SET_STEP, 0, 32⟩
abbrev RPL_SET_SEL : Nat := 0x800158
def RPL_SET_SEL_SLOT : Fld := ⟨RPL_SET_SEL, 0, 4⟩
abbrev RPL_SET_DATA0 : Nat := 0x80015c
def RPL_SET_DATA0_STEP : Fld := ⟨RPL_SET_DATA0, 0, 32⟩
abbrev RPL_SET_DATA1 : Nat := 0x800160
def RPL_SET_DATA1_FIRST : Fld := ⟨RPL_SET_DATA1, 0, 22⟩
def RPL_SET_DATA1_STATE : Fld := ⟨RPL_SET_DATA1, 22, 2⟩
abbrev RPL_SET_DATA2 : Nat := 0x800164
def RPL_SET_DATA2_PAGES : Fld := ⟨RPL_SET_DATA2, 0, 22⟩
abbrev RPL_CMAP (n : Nat) : Nat := 0x800170 + 0x4 * n
def RPL_CMAP_CL0 (n : Nat) : Fld := ⟨RPL_CMAP n, 0, 4⟩
def RPL_CMAP_CL1 (n : Nat) : Fld := ⟨RPL_CMAP n, 4, 4⟩
def RPL_CMAP_CL2 (n : Nat) : Fld := ⟨RPL_CMAP n, 8, 4⟩
def RPL_CMAP_CL3 (n : Nat) : Fld := ⟨RPL_CMAP n, 12, 4⟩
def RPL_CMAP_CL4 (n : Nat) : Fld := ⟨RPL_CMAP n, 16, 4⟩
def RPL_CMAP_CL5 (n : Nat) : Fld := ⟨RPL_CMAP n, 20, 4⟩
def RPL_CMAP_CL6 (n : Nat) : Fld := ⟨RPL_CMAP n, 24, 4⟩
def RPL_CMAP_CL7 (n : Nat) : Fld := ⟨RPL_CMAP n, 28, 4⟩
abbrev RPL_CL_FENCE : Nat := 0x800180
def RPL_CL_FENCE_DIE : Fld := ⟨RPL_CL_FENCE, 0, 2⟩
def RPL_CL_FENCE_CLUSTER : Fld := ⟨RPL_CL_FENCE, 2, 4⟩
def RPL_CL_FENCE_PENDING : Fld := ⟨RPL_CL_FENCE, 30, 1⟩
def RPL_CL_FENCE_GO : Fld := ⟨RPL_CL_FENCE, 31, 1⟩
abbrev RPL_DAYBREAK_CTRL : Nat := 0x800190
def RPL_DAYBREAK_CTRL_LOAD : Fld := ⟨RPL_DAYBREAK_CTRL, 0, 1⟩
abbrev RPL_DAYBREAK_STATUS : Nat := 0x800194
def RPL_DAYBREAK_STATUS_STATE : Fld := ⟨RPL_DAYBREAK_STATUS, 0, 3⟩
def RPL_DAYBREAK_STATUS_PAGES : Fld := ⟨RPL_DAYBREAK_STATUS, 3, 29⟩
abbrev RPL_DISCARD_CNT : Nat := 0x8001a0
def RPL_DISCARD_CNT_COUNT : Fld := ⟨RPL_DISCARD_CNT, 0, 32⟩
abbrev RPL_RESTORE_CNT : Nat := 0x8001a4
def RPL_RESTORE_CNT_COUNT : Fld := ⟨RPL_RESTORE_CNT, 0, 32⟩
abbrev RPL_PRE_STALL_CNT : Nat := 0x8001a8
def RPL_PRE_STALL_CNT_COUNT : Fld := ⟨RPL_PRE_STALL_CNT, 0, 32⟩
abbrev RPL_CKPT_CTRL : Nat := 0x800200
def RPL_CKPT_CTRL_ARM : Fld := ⟨RPL_CKPT_CTRL, 0, 1⟩
def RPL_CKPT_CTRL_CANCEL : Fld := ⟨RPL_CKPT_CTRL, 1, 1⟩
def RPL_CKPT_CTRL_FORCE_FULL : Fld := ⟨RPL_CKPT_CTRL, 2, 1⟩
def RPL_CKPT_CTRL_RESTORE : Fld := ⟨RPL_CKPT_CTRL, 3, 1⟩
abbrev RPL_CKPT_STATUS : Nat := 0x800204
def RPL_CKPT_STATUS_STATE : Fld := ⟨RPL_CKPT_STATUS, 0, 3⟩
def RPL_CKPT_STATUS_FULL : Fld := ⟨RPL_CKPT_STATUS, 3, 1⟩
def RPL_CKPT_STATUS_CUR_MAP : Fld := ⟨RPL_CKPT_STATUS, 4, 1⟩
def RPL_CKPT_STATUS_FULL_NEXT : Fld := ⟨RPL_CKPT_STATUS, 5, 1⟩
def RPL_CKPT_STATUS_ARMED : Fld := ⟨RPL_CKPT_STATUS, 6, 1⟩
abbrev RPL_CKPT_EVENT : Nat := 0x800208
def RPL_CKPT_EVENT_CUT : Fld := ⟨RPL_CKPT_EVENT, 0, 1⟩
def RPL_CKPT_EVENT_DONE : Fld := ⟨RPL_CKPT_EVENT, 1, 1⟩
def RPL_CKPT_EVENT_FAILED : Fld := ⟨RPL_CKPT_EVENT, 2, 1⟩
def RPL_CKPT_EVENT_SKIPPED : Fld := ⟨RPL_CKPT_EVENT, 3, 1⟩
def RPL_CKPT_EVENT_COW_STALL : Fld := ⟨RPL_CKPT_EVENT, 4, 1⟩
def RPL_CKPT_EVENT_RESTORE_DONE : Fld := ⟨RPL_CKPT_EVENT, 5, 1⟩
def RPL_CKPT_EVENT_RESTORE_FAIL : Fld := ⟨RPL_CKPT_EVENT, 6, 1⟩
abbrev RPL_CKPT_CFG : Nat := 0x80020c
def RPL_CKPT_CFG_CONTEXT : Fld := ⟨RPL_CKPT_CFG, 0, 6⟩
def RPL_CKPT_CFG_BASE_EVERY : Fld := ⟨RPL_CKPT_CFG, 6, 6⟩
def RPL_CKPT_CFG_RATE : Fld := ⟨RPL_CKPT_CFG, 12, 16⟩
abbrev RPL_CKPT_TAB_LO : Nat := 0x800210
def RPL_CKPT_TAB_LO_VALID : Fld := ⟨RPL_CKPT_TAB_LO, 0, 1⟩
def RPL_CKPT_TAB_LO_PA_LO : Fld := ⟨RPL_CKPT_TAB_LO, 14, 18⟩
abbrev RPL_CKPT_TAB_HI : Nat := 0x800214
def RPL_CKPT_TAB_HI_PA_HI : Fld := ⟨RPL_CKPT_TAB_HI, 0, 8⟩
def RPL_CKPT_TAB_HI_COUNT : Fld := ⟨RPL_CKPT_TAB_HI, 16, 9⟩
abbrev RPL_CKPT_DIG_LO : Nat := 0x800218
def RPL_CKPT_DIG_LO_PA_LO : Fld := ⟨RPL_CKPT_DIG_LO, 16, 16⟩
abbrev RPL_CKPT_DIG_HI : Nat := 0x80021c
def RPL_CKPT_DIG_HI_PA_HI : Fld := ⟨RPL_CKPT_DIG_HI, 0, 8⟩
abbrev RPL_CKPT_DIRTY_LO : Nat := 0x800220
def RPL_CKPT_DIRTY_LO_PA_LO : Fld := ⟨RPL_CKPT_DIRTY_LO, 16, 16⟩
abbrev RPL_CKPT_DIRTY_HI : Nat := 0x800224
def RPL_CKPT_DIRTY_HI_PA_HI : Fld := ⟨RPL_CKPT_DIRTY_HI, 0, 8⟩
abbrev RPL_CKPT_TGT_LO : Nat := 0x800228
def RPL_CKPT_TGT_LO_ADDR : Fld := ⟨RPL_CKPT_TGT_LO, 0, 32⟩
abbrev RPL_CKPT_TGT_HI : Nat := 0x80022c
def RPL_CKPT_TGT_HI_ADDR : Fld := ⟨RPL_CKPT_TGT_HI, 0, 32⟩
abbrev RPL_CKPT_TGT_CFG : Nat := 0x800230
def RPL_CKPT_TGT_CFG_ENABLE : Fld := ⟨RPL_CKPT_TGT_CFG, 0, 1⟩
def RPL_CKPT_TGT_CFG_KIND : Fld := ⟨RPL_CKPT_TGT_CFG, 1, 1⟩
def RPL_CKPT_TGT_CFG_SIZE_LOG2 : Fld := ⟨RPL_CKPT_TGT_CFG, 2, 5⟩
def RPL_CKPT_TGT_CFG_MODULE : Fld := ⟨RPL_CKPT_TGT_CFG, 8, 13⟩
def RPL_CKPT_TGT_CFG_TGT_LIMIT : Fld := ⟨RPL_CKPT_TGT_CFG, 21, 11⟩
abbrev RPL_CKPT_JOB_LO : Nat := 0x800234
def RPL_CKPT_JOB_LO_JOB : Fld := ⟨RPL_CKPT_JOB_LO, 0, 32⟩
abbrev RPL_CKPT_JOB_HI : Nat := 0x800238
def RPL_CKPT_JOB_HI_JOB : Fld := ⟨RPL_CKPT_JOB_HI, 0, 32⟩
abbrev RPL_CKPT_SHARD : Nat := 0x80023c
def RPL_CKPT_SHARD_SHARD : Fld := ⟨RPL_CKPT_SHARD, 0, 32⟩
abbrev RPL_CKPT_EPOCH : Nat := 0x800240
def RPL_CKPT_EPOCH_EPOCH : Fld := ⟨RPL_CKPT_EPOCH, 0, 32⟩
abbrev RPL_CKPT_PREV : Nat := 0x800244
def RPL_CKPT_PREV_EPOCH : Fld := ⟨RPL_CKPT_PREV, 0, 31⟩
def RPL_CKPT_PREV_VALID : Fld := ⟨RPL_CKPT_PREV, 31, 1⟩
abbrev RPL_CKPT_STEP_LO : Nat := 0x800248
def RPL_CKPT_STEP_LO_STEP : Fld := ⟨RPL_CKPT_STEP_LO, 0, 32⟩
abbrev RPL_CKPT_STEP_HI : Nat := 0x80024c
def RPL_CKPT_STEP_HI_STEP : Fld := ⟨RPL_CKPT_STEP_HI, 0, 32⟩
abbrev RPL_CKPT_PENDING : Nat := 0x800250
def RPL_CKPT_PENDING_PAGES : Fld := ⟨RPL_CKPT_PENDING, 0, 23⟩
abbrev RPL_CKPT_COPIED : Nat := 0x800254
def RPL_CKPT_COPIED_PAGES : Fld := ⟨RPL_CKPT_COPIED, 0, 23⟩
abbrev RPL_CKPT_SKIPPED : Nat := 0x800258
def RPL_CKPT_SKIPPED_PAGES : Fld := ⟨RPL_CKPT_SKIPPED, 0, 23⟩
abbrev RPL_CKPT_COW_CNT : Nat := 0x80025c
def RPL_CKPT_COW_CNT_COUNT : Fld := ⟨RPL_CKPT_COW_CNT, 0, 32⟩
abbrev RPL_CKPT_COW_STALL_CNT : Nat := 0x800260
def RPL_CKPT_COW_STALL_CNT_COUNT : Fld := ⟨RPL_CKPT_COW_STALL_CNT, 0, 32⟩
abbrev RPL_CKPT_FLOW_STALL_CNT : Nat := 0x800264
def RPL_CKPT_FLOW_STALL_CNT_COUNT : Fld := ⟨RPL_CKPT_FLOW_STALL_CNT, 0, 32⟩
abbrev RPL_SHADOW_BASE_LO : Nat := 0x800270
def RPL_SHADOW_BASE_LO_PA_LO : Fld := ⟨RPL_SHADOW_BASE_LO, 16, 16⟩
abbrev RPL_SHADOW_BASE_HI : Nat := 0x800274
def RPL_SHADOW_BASE_HI_PA_HI : Fld := ⟨RPL_SHADOW_BASE_HI, 0, 8⟩
abbrev RPL_SHADOW_CFG : Nat := 0x800278
def RPL_SHADOW_CFG_PAGES : Fld := ⟨RPL_SHADOW_CFG, 0, 16⟩
def RPL_SHADOW_CFG_IN_USE : Fld := ⟨RPL_SHADOW_CFG, 16, 16⟩
abbrev HRC_CTRL : Nat := 0x900000
def HRC_CTRL_HB_EN : Fld := ⟨HRC_CTRL, 0, 1⟩
def HRC_CTRL_AUTO_RESET : Fld := ⟨HRC_CTRL, 1, 1⟩
def HRC_CTRL_DUMP_EN : Fld := ⟨HRC_CTRL, 2, 1⟩
def HRC_CTRL_LINK_STALL_EN : Fld := ⟨HRC_CTRL, 3, 1⟩
abbrev HRC_STATUS : Nat := 0x900004
def HRC_STATUS_DUMP_BUSY : Fld := ⟨HRC_STATUS, 0, 1⟩
def HRC_STATUS_RECOVERING : Fld := ⟨HRC_STATUS, 1, 1⟩
def HRC_STATUS_OUT_OF_SERVICE : Fld := ⟨HRC_STATUS, 2, 1⟩
def HRC_STATUS_FLOG_FULL : Fld := ⟨HRC_STATUS, 3, 1⟩
def HRC_STATUS_CORES_IN_RESET : Fld := ⟨HRC_STATUS, 4, 8⟩
def HRC_STATUS_CLUSTERS_IN_RESET : Fld := ⟨HRC_STATUS, 12, 6⟩
abbrev HRC_EVENT : Nat := 0x900008
def HRC_EVENT_CORE_HANG : Fld := ⟨HRC_EVENT, 0, 1⟩
def HRC_EVENT_LINK_STALL : Fld := ⟨HRC_EVENT, 1, 1⟩
def HRC_EVENT_CORE_RESET : Fld := ⟨HRC_EVENT, 2, 1⟩
def HRC_EVENT_CLUSTER_RESET : Fld := ⟨HRC_EVENT, 3, 1⟩
def HRC_EVENT_MODULE_RECOVERY : Fld := ⟨HRC_EVENT, 4, 1⟩
def HRC_EVENT_ESC_FENCE : Fld := ⟨HRC_EVENT, 5, 1⟩
def HRC_EVENT_ESC_REPLACE : Fld := ⟨HRC_EVENT, 6, 1⟩
def HRC_EVENT_OUT_OF_SERVICE : Fld := ⟨HRC_EVENT, 7, 1⟩
def HRC_EVENT_DUMP_DONE : Fld := ⟨HRC_EVENT, 8, 1⟩
def HRC_EVENT_DUMP_MISSED : Fld := ⟨HRC_EVENT, 9, 1⟩
def HRC_EVENT_FLOG_LOST : Fld := ⟨HRC_EVENT, 10, 1⟩
def HRC_EVENT_DRAIN_DONE : Fld := ⟨HRC_EVENT, 11, 1⟩
def HRC_EVENT_FW_WDOG : Fld := ⟨HRC_EVENT, 12, 1⟩
abbrev HRC_HB_CFG : Nat := 0x90000c
def HRC_HB_CFG_MISS : Fld := ⟨HRC_HB_CFG, 0, 4⟩
abbrev HRC_ESC_CORE : Nat := 0x900010
def HRC_ESC_CORE_COUNT : Fld := ⟨HRC_ESC_CORE, 0, 4⟩
def HRC_ESC_CORE_WINDOW_S : Fld := ⟨HRC_ESC_CORE, 8, 24⟩
abbrev HRC_ESC_CLUSTER : Nat := 0x900014
def HRC_ESC_CLUSTER_COUNT : Fld := ⟨HRC_ESC_CLUSTER, 0, 4⟩
def HRC_ESC_CLUSTER_WINDOW_S : Fld := ⟨HRC_ESC_CLUSTER, 8, 24⟩
abbrev HRC_ESC_MODULE : Nat := 0x900018
def HRC_ESC_MODULE_COUNT : Fld := ⟨HRC_ESC_MODULE, 0, 4⟩
def HRC_ESC_MODULE_WINDOW_S : Fld := ⟨HRC_ESC_MODULE, 8, 24⟩
abbrev HRC_ESC_STATUS : Nat := 0x90001c
def HRC_ESC_STATUS_FENCE_REQ : Fld := ⟨HRC_ESC_STATUS, 0, 1⟩
def HRC_ESC_STATUS_DIE : Fld := ⟨HRC_ESC_STATUS, 1, 2⟩
def HRC_ESC_STATUS_CLUSTER : Fld := ⟨HRC_ESC_STATUS, 3, 4⟩
def HRC_ESC_STATUS_REPLACE_REQ : Fld := ⟨HRC_ESC_STATUS, 7, 1⟩
abbrev HRC_RESET_CTRL : Nat := 0x900020
def HRC_RESET_CTRL_KIND : Fld := ⟨HRC_RESET_CTRL, 0, 2⟩
def HRC_RESET_CTRL_INDEX : Fld := ⟨HRC_RESET_CTRL, 2, 8⟩
def HRC_RESET_CTRL_GO : Fld := ⟨HRC_RESET_CTRL, 31, 1⟩
abbrev HRC_FW_KICK : Nat := 0x900024
def HRC_FW_KICK_KICK : Fld := ⟨HRC_FW_KICK, 0, 32⟩
abbrev HRC_FW_WDOG : Nat := 0x900028
def HRC_FW_WDOG_FRAMES : Fld := ⟨HRC_FW_WDOG, 0, 32⟩
abbrev HRC_DUMP_CTRL : Nat := 0x900030
def HRC_DUMP_CTRL_SCOPE : Fld := ⟨HRC_DUMP_CTRL, 0, 2⟩
def HRC_DUMP_CTRL_INDEX : Fld := ⟨HRC_DUMP_CTRL, 2, 8⟩
def HRC_DUMP_CTRL_GO : Fld := ⟨HRC_DUMP_CTRL, 10, 1⟩
def HRC_DUMP_CTRL_ACK0 : Fld := ⟨HRC_DUMP_CTRL, 11, 1⟩
def HRC_DUMP_CTRL_ACK1 : Fld := ⟨HRC_DUMP_CTRL, 12, 1⟩
abbrev HRC_DUMP_STATUS : Nat := 0x900034
def HRC_DUMP_STATUS_SLOT0 : Fld := ⟨HRC_DUMP_STATUS, 0, 2⟩
def HRC_DUMP_STATUS_SLOT1 : Fld := ⟨HRC_DUMP_STATUS, 2, 2⟩
def HRC_DUMP_STATUS_BUSY : Fld := ⟨HRC_DUMP_STATUS, 4, 1⟩
def HRC_DUMP_STATUS_WAITING : Fld := ⟨HRC_DUMP_STATUS, 5, 1⟩
def HRC_DUMP_STATUS_MISSED : Fld := ⟨HRC_DUMP_STATUS, 16, 16⟩
abbrev HRC_DUMP_PAGE : Nat := 0x900038
def HRC_DUMP_PAGE_SLOT : Fld := ⟨HRC_DUMP_PAGE, 0, 1⟩
def HRC_DUMP_PAGE_PAGE : Fld := ⟨HRC_DUMP_PAGE, 1, 3⟩
abbrev HRC_RST_CORE (n : Nat) : Nat := 0x900040 + 0x4 * n
def HRC_RST_CORE_CORES (n : Nat) : Fld := ⟨HRC_RST_CORE n, 0, 32⟩
abbrev HRC_RST_CL0 : Nat := 0x900054
def HRC_RST_CL0_CLUSTERS : Fld := ⟨HRC_RST_CL0, 0, 32⟩
abbrev HRC_RST_CL1 : Nat := 0x900058
def HRC_RST_CL1_CLUSTERS : Fld := ⟨HRC_RST_CL1, 0, 4⟩
abbrev HRC_FLOG_LO : Nat := 0x900060
def HRC_FLOG_LO_BASE_LO : Fld := ⟨HRC_FLOG_LO, 12, 20⟩
abbrev HRC_FLOG_HI : Nat := 0x900064
def HRC_FLOG_HI_BASE_HI : Fld := ⟨HRC_FLOG_HI, 0, 32⟩
abbrev HRC_FLOG_CB_LO : Nat := 0x900068
def HRC_FLOG_CB_LO_BASE_LO : Fld := ⟨HRC_FLOG_CB_LO, 6, 26⟩
abbrev HRC_FLOG_CB_HI : Nat := 0x90006c
def HRC_FLOG_CB_HI_BASE_HI : Fld := ⟨HRC_FLOG_CB_HI, 0, 32⟩
abbrev HRC_FLOG_CFG : Nat := 0x900070
def HRC_FLOG_CFG_ENABLE : Fld := ⟨HRC_FLOG_CFG, 0, 1⟩
def HRC_FLOG_CFG_SIZE_LOG2 : Fld := ⟨HRC_FLOG_CFG, 1, 5⟩
def HRC_FLOG_CFG_IRQ_EN : Fld := ⟨HRC_FLOG_CFG, 6, 1⟩
abbrev HRC_FLOG_PI : Nat := 0x900074
def HRC_FLOG_PI_PI : Fld := ⟨HRC_FLOG_PI, 0, 32⟩
abbrev HRC_HANG_CNT : Nat := 0x900080
def HRC_HANG_CNT_COUNT : Fld := ⟨HRC_HANG_CNT, 0, 32⟩
abbrev HRC_CORE_RST_CNT : Nat := 0x900084
def HRC_CORE_RST_CNT_COUNT : Fld := ⟨HRC_CORE_RST_CNT, 0, 32⟩
abbrev HRC_CLUSTER_RST_CNT : Nat := 0x900088
def HRC_CLUSTER_RST_CNT_COUNT : Fld := ⟨HRC_CLUSTER_RST_CNT, 0, 32⟩
abbrev HRC_MODULE_REC_CNT : Nat := 0x90008c
def HRC_MODULE_REC_CNT_COUNT : Fld := ⟨HRC_MODULE_REC_CNT, 0, 32⟩
abbrev HRC_STALE_CNT : Nat := 0x900090
def HRC_STALE_CNT_COUNT : Fld := ⟨HRC_STALE_CNT, 0, 32⟩
abbrev HRC_UNREADABLE_CNT : Nat := 0x900094
def HRC_UNREADABLE_CNT_COUNT : Fld := ⟨HRC_UNREADABLE_CNT, 0, 32⟩
abbrev HRC_FLOG_LOST_CNT : Nat := 0x900098
def HRC_FLOG_LOST_CNT_COUNT : Fld := ⟨HRC_FLOG_LOST_CNT, 0, 32⟩
abbrev HRC_NOTICE_DROP_CNT : Nat := 0x90009c
def HRC_NOTICE_DROP_CNT_COUNT : Fld := ⟨HRC_NOTICE_DROP_CNT, 0, 32⟩
abbrev SEC_STATUS : Nat := 0xa00000
def SEC_STATUS_SEC_STATE : Fld := ⟨SEC_STATUS, 0, 2⟩
def SEC_STATUS_DEBUG : Fld := ⟨SEC_STATUS, 2, 2⟩
def SEC_STATUS_POWER : Fld := ⟨SEC_STATUS, 4, 3⟩
def SEC_STATUS_HOST_VIEW : Fld := ⟨SEC_STATUS, 7, 1⟩
def SEC_STATUS_FW_STARTED : Fld := ⟨SEC_STATUS, 8, 1⟩
def SEC_STATUS_FW_HALF : Fld := ⟨SEC_STATUS, 9, 1⟩
def SEC_STATUS_ZEROING : Fld := ⟨SEC_STATUS, 10, 1⟩
abbrev SEC_EVENT : Nat := 0xa00004
def SEC_EVENT_STATE_CHANGE : Fld := ⟨SEC_EVENT, 0, 1⟩
def SEC_EVENT_DEBUG_CHANGE : Fld := ⟨SEC_EVENT, 1, 1⟩
def SEC_EVENT_FW_REJECT : Fld := ⟨SEC_EVENT, 2, 1⟩
def SEC_EVENT_KEY_RELEASED : Fld := ⟨SEC_EVENT, 3, 1⟩
def SEC_EVENT_KEY_ERASED : Fld := ⟨SEC_EVENT, 4, 1⟩
def SEC_EVENT_SEAL_VIOLATION : Fld := ⟨SEC_EVENT, 5, 1⟩
def SEC_EVENT_THROTTLE : Fld := ⟨SEC_EVENT, 6, 1⟩
def SEC_EVENT_PWR_LIMIT : Fld := ⟨SEC_EVENT, 7, 1⟩
def SEC_EVENT_OVERCURRENT : Fld := ⟨SEC_EVENT, 8, 1⟩
def SEC_EVENT_THERMAL : Fld := ⟨SEC_EVENT, 9, 1⟩
abbrev SEC_FW_STATUS : Nat := 0xa00008
def SEC_FW_STATUS_RESULT : Fld := ⟨SEC_FW_STATUS, 0, 4⟩
def SEC_FW_STATUS_SVN_MIN : Fld := ⟨SEC_FW_STATUS, 8, 24⟩
abbrev SEC_WKEY : Nat := 0xa0000c
def SEC_WKEY_VALID : Fld := ⟨SEC_WKEY, 0, 16⟩
abbrev SEC_SEAL_VIOL_CNT : Nat := 0xa00010
def SEC_SEAL_VIOL_CNT_COUNT : Fld := ⟨SEC_SEAL_VIOL_CNT, 0, 32⟩
abbrev SEC_PWR_READ : Nat := 0xa00040
def SEC_PWR_READ_WATTS : Fld := ⟨SEC_PWR_READ, 0, 16⟩
abbrev SEC_PWR_LIMIT : Nat := 0xa00044
def SEC_PWR_LIMIT_WATTS : Fld := ⟨SEC_PWR_LIMIT, 0, 16⟩
def SEC_PWR_LIMIT_HYST_W : Fld := ⟨SEC_PWR_LIMIT, 16, 16⟩
abbrev SEC_DUTY : Nat := 0xa00048
def SEC_DUTY_DIE0 : Fld := ⟨SEC_DUTY, 0, 8⟩
def SEC_DUTY_DIE1 : Fld := ⟨SEC_DUTY, 8, 8⟩
def SEC_DUTY_DIE2 : Fld := ⟨SEC_DUTY, 16, 8⟩
def SEC_DUTY_DIE3 : Fld := ⟨SEC_DUTY, 24, 8⟩
abbrev SEC_DUTY_CFG : Nat := 0xa0004c
def SEC_DUTY_CFG_MIN_DUTY : Fld := ⟨SEC_DUTY_CFG, 0, 7⟩
def SEC_DUTY_CFG_STEP_DOWN : Fld := ⟨SEC_DUTY_CFG, 7, 4⟩
def SEC_DUTY_CFG_STEP_UP : Fld := ⟨SEC_DUTY_CFG, 11, 4⟩
def SEC_DUTY_CFG_TJ_THROTTLE : Fld := ⟨SEC_DUTY_CFG, 15, 8⟩
def SEC_DUTY_CFG_TJ_RELEASE : Fld := ⟨SEC_DUTY_CFG, 23, 8⟩
abbrev SEC_TEMP : Nat := 0xa00050
def SEC_TEMP_DIE0 : Fld := ⟨SEC_TEMP, 0, 8⟩
def SEC_TEMP_DIE1 : Fld := ⟨SEC_TEMP, 8, 8⟩
def SEC_TEMP_DIE2 : Fld := ⟨SEC_TEMP, 16, 8⟩
def SEC_TEMP_DIE3 : Fld := ⟨SEC_TEMP, 24, 8⟩
abbrev SEC_THROTTLE_CNT : Nat := 0xa00054
def SEC_THROTTLE_CNT_COUNT : Fld := ⟨SEC_THROTTLE_CNT, 0, 32⟩
abbrev SEC_WKEY_SLOT (n : Nat) : Nat := 0xa00100 + 0x4 * n
def SEC_WKEY_SLOT_CONTEXT (n : Nat) : Fld := ⟨SEC_WKEY_SLOT n, 0, 6⟩
def SEC_WKEY_SLOT_VALID (n : Nat) : Fld := ⟨SEC_WKEY_SLOT n, 6, 1⟩
def SEC_WKEY_SLOT_GENERATION (n : Nat) : Fld := ⟨SEC_WKEY_SLOT n, 16, 16⟩
abbrev SNP_CTRL : Nat := 0xc00000
def SNP_CTRL_TRIG_IN_EN : Fld := ⟨SNP_CTRL, 0, 1⟩
def SNP_CTRL_TRIG_SLICE : Fld := ⟨SNP_CTRL, 1, 1⟩
def SNP_CTRL_TRIG_OUT_EN : Fld := ⟨SNP_CTRL, 2, 1⟩
def SNP_CTRL_LEAD : Fld := ⟨SNP_CTRL, 3, 4⟩
abbrev SNP_STATUS : Nat := 0xc00004
def SNP_STATUS_ARMED : Fld := ⟨SNP_STATUS, 0, 1⟩
def SNP_STATUS_VALID : Fld := ⟨SNP_STATUS, 1, 1⟩
def SNP_STATUS_LAST_SRC : Fld := ⟨SNP_STATUS, 2, 2⟩
def SNP_STATUS_BLOCKS : Fld := ⟨SNP_STATUS, 4, 10⟩
abbrev SNP_EVENT : Nat := 0xc00008
def SNP_EVENT_CAPTURED : Fld := ⟨SNP_EVENT, 0, 1⟩
def SNP_EVENT_MISSED : Fld := ⟨SNP_EVENT, 1, 1⟩
def SNP_EVENT_CONFLICT : Fld := ⟨SNP_EVENT, 2, 1⟩
def SNP_EVENT_LATE : Fld := ⟨SNP_EVENT, 3, 1⟩
abbrev SNP_ARM_LO : Nat := 0xc0000c
def SNP_ARM_LO_FRAME_LO : Fld := ⟨SNP_ARM_LO, 0, 32⟩
abbrev SNP_ARM_HI : Nat := 0xc00010
def SNP_ARM_HI_FRAME_HI : Fld := ⟨SNP_ARM_HI, 0, 32⟩
abbrev SNP_LAST_LO : Nat := 0xc00014
def SNP_LAST_LO_FRAME : Fld := ⟨SNP_LAST_LO, 0, 32⟩
abbrev SNP_LAST_HI : Nat := 0xc00018
def SNP_LAST_HI_FRAME : Fld := ⟨SNP_LAST_HI, 0, 32⟩
abbrev SNP_INDEX_SEL : Nat := 0xc0001c
def SNP_INDEX_SEL_ENTRY : Fld := ⟨SNP_INDEX_SEL, 0, 10⟩
abbrev SNP_INDEX_DATA : Nat := 0xc00020
def SNP_INDEX_DATA_BLOCK : Fld := ⟨SNP_INDEX_DATA, 0, 16⟩
def SNP_INDEX_DATA_SIZE : Fld := ⟨SNP_INDEX_DATA, 16, 12⟩
def SNP_INDEX_DATA_VALID : Fld := ⟨SNP_INDEX_DATA, 28, 1⟩
abbrev SNP_CAPTURE_CNT : Nat := 0xc00024
def SNP_CAPTURE_CNT_COUNT : Fld := ⟨SNP_CAPTURE_CNT, 0, 32⟩
abbrev SNP_MISSED_CNT : Nat := 0xc00028
def SNP_MISSED_CNT_COUNT : Fld := ⟨SNP_MISSED_CNT, 0, 32⟩
abbrev SNP_CONFLICT_CNT : Nat := 0xc0002c
def SNP_CONFLICT_CNT_COUNT : Fld := ⟨SNP_CONFLICT_CNT, 0, 32⟩
abbrev GLB_ID : Nat := 0x0
def GLB_ID_PART : Fld := ⟨GLB_ID, 0, 16⟩
def GLB_ID_STEPPING : Fld := ⟨GLB_ID, 16, 4⟩
abbrev GLB_SERIAL_LO : Nat := 0x4
def GLB_SERIAL_LO_SERIAL : Fld := ⟨GLB_SERIAL_LO, 0, 32⟩
abbrev GLB_SERIAL_HI : Nat := 0x8
def GLB_SERIAL_HI_SERIAL : Fld := ⟨GLB_SERIAL_HI, 0, 32⟩
abbrev GLB_STATUS : Nat := 0xc
def GLB_STATUS_PWR_OK : Fld := ⟨GLB_STATUS, 0, 1⟩
def GLB_STATUS_RELAY : Fld := ⟨GLB_STATUS, 1, 1⟩
def GLB_STATUS_RELAY_READY : Fld := ⟨GLB_STATUS, 2, 1⟩
def GLB_STATUS_TRIG_IN : Fld := ⟨GLB_STATUS, 3, 1⟩
def GLB_STATUS_TRIG_STUCK : Fld := ⟨GLB_STATUS, 4, 1⟩
def GLB_STATUS_REF_VALID : Fld := ⟨GLB_STATUS, 5, 1⟩
def GLB_STATUS_PPS_VALID : Fld := ⟨GLB_STATUS, 6, 1⟩
abbrev GLB_EVENT : Nat := 0x10
def GLB_EVENT_TRIG_STUCK : Fld := ⟨GLB_EVENT, 0, 1⟩
def GLB_EVENT_TRIG_IGNORED : Fld := ⟨GLB_EVENT, 1, 1⟩
def GLB_EVENT_PPS_BAD : Fld := ⟨GLB_EVENT, 2, 1⟩
def GLB_EVENT_REF_LOSS : Fld := ⟨GLB_EVENT, 3, 1⟩
def GLB_EVENT_UNDERVOLT : Fld := ⟨GLB_EVENT, 4, 1⟩
def GLB_EVENT_FW_SWAP_DONE : Fld := ⟨GLB_EVENT, 5, 1⟩
def GLB_EVENT_CAL_DONE : Fld := ⟨GLB_EVENT, 6, 1⟩
def GLB_EVENT_CAL_FAIL : Fld := ⟨GLB_EVENT, 7, 1⟩
abbrev GLB_RESET_CAUSE : Nat := 0x14
def GLB_RESET_CAUSE_CAUSE : Fld := ⟨GLB_RESET_CAUSE, 0, 4⟩
abbrev GLB_INPUT : Nat := 0x18
def GLB_INPUT_VIN : Fld := ⟨GLB_INPUT, 0, 16⟩
def GLB_INPUT_IIN : Fld := ⟨GLB_INPUT, 16, 16⟩
abbrev GLB_FW_CTRL : Nat := 0x20
def GLB_FW_CTRL_HALF : Fld := ⟨GLB_FW_CTRL, 0, 1⟩
def GLB_FW_CTRL_LOAD : Fld := ⟨GLB_FW_CTRL, 1, 1⟩
def GLB_FW_CTRL_START : Fld := ⟨GLB_FW_CTRL, 2, 1⟩
def GLB_FW_CTRL_SWAP : Fld := ⟨GLB_FW_CTRL, 3, 1⟩
abbrev GLB_FW_STATUS : Nat := 0x24
def GLB_FW_STATUS_BUSY : Fld := ⟨GLB_FW_STATUS, 0, 1⟩
def GLB_FW_STATUS_LOADED_A : Fld := ⟨GLB_FW_STATUS, 1, 1⟩
def GLB_FW_STATUS_LOADED_B : Fld := ⟨GLB_FW_STATUS, 2, 1⟩
def GLB_FW_STATUS_VERIFIED_A : Fld := ⟨GLB_FW_STATUS, 3, 1⟩
def GLB_FW_STATUS_VERIFIED_B : Fld := ⟨GLB_FW_STATUS, 4, 1⟩
def GLB_FW_STATUS_GOOD_A : Fld := ⟨GLB_FW_STATUS, 5, 1⟩
def GLB_FW_STATUS_GOOD_B : Fld := ⟨GLB_FW_STATUS, 6, 1⟩
def GLB_FW_STATUS_SWAP_PENDING : Fld := ⟨GLB_FW_STATUS, 7, 1⟩
def GLB_FW_STATUS_RESULT : Fld := ⟨GLB_FW_STATUS, 8, 4⟩
abbrev GLB_FW_SRC_LO : Nat := 0x28
def GLB_FW_SRC_LO_ADDR_LO : Fld := ⟨GLB_FW_SRC_LO, 12, 20⟩
abbrev GLB_FW_SRC_HI : Nat := 0x2c
def GLB_FW_SRC_HI_ADDR_HI : Fld := ⟨GLB_FW_SRC_HI, 0, 32⟩
abbrev GLB_FW_LEN : Nat := 0x30
def GLB_FW_LEN_BYTES : Fld := ⟨GLB_FW_LEN, 0, 22⟩
abbrev GLB_FW_SWAP_LO : Nat := 0x34
def GLB_FW_SWAP_LO_FRAME : Fld := ⟨GLB_FW_SWAP_LO, 0, 32⟩
abbrev GLB_FW_SWAP_HI : Nat := 0x38
def GLB_FW_SWAP_HI_FRAME : Fld := ⟨GLB_FW_SWAP_HI, 0, 32⟩
abbrev GLB_FW_HO_LO : Nat := 0x3c
def GLB_FW_HO_LO_PA_LO : Fld := ⟨GLB_FW_HO_LO, 16, 16⟩
abbrev GLB_FW_HO_HI : Nat := 0x40
def GLB_FW_HO_HI_PA_HI : Fld := ⟨GLB_FW_HO_HI, 0, 8⟩
abbrev GLB_CAL_CTRL : Nat := 0x48
def GLB_CAL_CTRL_KIND : Fld := ⟨GLB_CAL_CTRL, 0, 1⟩
def GLB_CAL_CTRL_INDEX : Fld := ⟨GLB_CAL_CTRL, 1, 5⟩
def GLB_CAL_CTRL_GO : Fld := ⟨GLB_CAL_CTRL, 6, 1⟩
def GLB_CAL_CTRL_BUSY : Fld := ⟨GLB_CAL_CTRL, 7, 1⟩
def GLB_CAL_CTRL_DONE : Fld := ⟨GLB_CAL_CTRL, 8, 1⟩
def GLB_CAL_CTRL_FAIL : Fld := ⟨GLB_CAL_CTRL, 9, 1⟩
abbrev GLB_TRIG_IGN_CNT : Nat := 0x4c
def GLB_TRIG_IGN_CNT_COUNT : Fld := ⟨GLB_TRIG_IGN_CNT, 0, 32⟩
abbrev GLB_PPS_BAD_CNT : Nat := 0x50
def GLB_PPS_BAD_CNT_COUNT : Fld := ⟨GLB_PPS_BAD_CNT, 0, 32⟩
abbrev CORE_ACW (n : Nat) : Nat := 0x1000040 + 0x10000 * n
def CORE_ACW_RMODE (n : Nat) : Fld := ⟨CORE_ACW n, 0, 3⟩
def CORE_ACW_STRICT (n : Nat) : Fld := ⟨CORE_ACW n, 3, 1⟩
def CORE_ACW_SAT (n : Nat) : Fld := ⟨CORE_ACW n, 4, 1⟩
def CORE_ACW_MXRULE (n : Nat) : Fld := ⟨CORE_ACW n, 5, 1⟩
abbrev CORE_ASW (n : Nat) : Nat := 0x1000044 + 0x10000 * n
def CORE_ASW_INVALID (n : Nat) : Fld := ⟨CORE_ASW n, 0, 1⟩
def CORE_ASW_DIVZERO (n : Nat) : Fld := ⟨CORE_ASW n, 1, 1⟩
def CORE_ASW_OVERFLOW (n : Nat) : Fld := ⟨CORE_ASW n, 2, 1⟩
def CORE_ASW_UNDERFLOW (n : Nat) : Fld := ⟨CORE_ASW n, 3, 1⟩
def CORE_ASW_INEXACT (n : Nat) : Fld := ⟨CORE_ASW n, 4, 1⟩

end Sys2Proof.Reg
end

