-- ==== Sys2Proof/Machine/RegTable.lean ====
section
/-! DEFINITION. The register tables of the chapters as data: for every register its name, address,
stride and count, and for every named field its bits, access code (R13), reset value and whether it
is firmware-only (R166 and each block's register rule). Reserved bits have no row: they read 0 (R12). -/
namespace Sys2Proof.Reg

/-- The access codes of R13. -/
inductive Access where
  | rw | ro | wo | w1c | w1s | rwo
deriving DecidableEq, Repr

/-- One row of a field table. -/
structure FieldRow where
  name : String
  lo : Nat
  w : Nat
  acc : Access
  reset : Nat
  fw : Bool
deriving DecidableEq, Repr

/-- One register: `count` copies, `stride` bytes apart. -/
structure Row where
  name : String
  base : Nat
  stride : Nat
  count : Nat
  fields : List FieldRow
deriving DecidableEq, Repr

def tableFTB : List Row := [
  ⟨"FTB_CTRL", 0x100000, 0x0, 1, [⟨"ROLE", 0, 2, .rw, 0, false⟩,
    ⟨"DEPUTY", 2, 1, .rw, 0, false⟩,
    ⟨"ENABLE", 3, 1, .rw, 1, false⟩]⟩,
  ⟨"FTB_STATUS", 0x100004, 0x0, 1, [⟨"LOCKED", 0, 1, .ro, 0, false⟩,
    ⟨"HOLDOVER", 1, 1, .ro, 0, false⟩,
    ⟨"TIME_LOSS", 2, 1, .ro, 0, false⟩,
    ⟨"MASTER", 3, 1, .ro, 0, false⟩,
    ⟨"EXT_REF_OK", 4, 1, .ro, 0, false⟩,
    ⟨"DEPTH_OVER", 5, 1, .ro, 0, false⟩,
    ⟨"TERM_ONLY", 6, 1, .ro, 0, false⟩,
    ⟨"VALID", 7, 1, .ro, 0, false⟩,
    ⟨"PARENT", 8, 4, .ro, 0, false⟩,
    ⟨"DEPTH", 12, 6, .ro, 0, false⟩]⟩,
  ⟨"FTB_EVENT", 0x100008, 0x0, 1, [⟨"TIME_LOSS", 0, 1, .w1c, 0, false⟩,
    ⟨"PARENT_CHANGE", 1, 1, .w1c, 0, false⟩,
    ⟨"MASTER_CHANGE", 2, 1, .w1c, 0, false⟩,
    ⟨"STEP", 3, 1, .w1c, 0, false⟩,
    ⟨"HOLDOVER_ENTER", 4, 1, .w1c, 0, false⟩,
    ⟨"DEPTH_OVER", 5, 1, .w1c, 0, false⟩]⟩,
  ⟨"FTB_FRAME_LO", 0x100010, 0x0, 1, [⟨"FRAME_LO", 0, 32, .ro, 0, false⟩]⟩,
  ⟨"FTB_FRAME_HI", 0x100014, 0x0, 1, [⟨"FRAME_HI", 0, 32, .ro, 0, false⟩]⟩,
  ⟨"FTB_PHASE", 0x100018, 0x0, 1, [⟨"HUB_CYCLE", 0, 13, .ro, 0, false⟩,
    ⟨"FINE", 13, 6, .ro, 0, false⟩]⟩,
  ⟨"FTB_OFFSET", 0x10001c, 0x0, 1, [⟨"OFFSET", 0, 32, .ro, 0, false⟩]⟩,
  ⟨"FTB_MASTER", 0x100020, 0x0, 1, [⟨"MASTER_ID", 0, 13, .ro, 0, false⟩,
    ⟨"EPOCH", 16, 16, .ro, 0, false⟩]⟩,
  ⟨"FTB_HOLD", 0x100024, 0x0, 1, [⟨"HOLD_CNT", 0, 13, .ro, 0, false⟩,
    ⟨"HOLD_LIMIT", 16, 13, .rw, 4096, false⟩]⟩,
  ⟨"FTB_DEFAULT_BUDGET", 0x100028, 0x0, 1, [⟨"BUDGET", 0, 32, .rw, 24414, false⟩]⟩,
  ⟨"FTB_STEP_CNT", 0x10002c, 0x0, 1, [⟨"STEPS", 0, 32, .ro, 0, false⟩]⟩,
  ⟨"FTB_LOAD_LO", 0x100030, 0x0, 1, [⟨"LOAD_LO", 0, 32, .wo, 0, false⟩]⟩,
  ⟨"FTB_LOAD_HI", 0x100034, 0x0, 1, [⟨"LOAD_HI", 0, 32, .wo, 0, false⟩]⟩,
  ⟨"FTB_PORT_ASYM", 0x100040, 0x4, 16, [⟨"ASYM", 0, 16, .rw, 0, false⟩]⟩]

def tableCORE : List Row := [
  ⟨"CORE_MX_STATUS", 0x1000080, 0x10000, 144, [⟨"BUSY", 0, 1, .ro, 0, false⟩,
    ⟨"STRICT", 1, 1, .ro, 0, false⟩,
    ⟨"EXACT", 2, 1, .ro, 0, false⟩,
    ⟨"TRANS", 3, 1, .ro, 0, false⟩,
    ⟨"TILE", 4, 5, .ro, 0, false⟩,
    ⟨"CLASS", 9, 2, .ro, 0, false⟩]⟩,
  ⟨"CORE_ACC_STATE_LO", 0x1000084, 0x10000, 144, [⟨"STATE0", 0, 2, .ro, 0, false⟩,
    ⟨"STATE1", 2, 2, .ro, 0, false⟩,
    ⟨"STATE2", 4, 2, .ro, 0, false⟩,
    ⟨"STATE3", 6, 2, .ro, 0, false⟩,
    ⟨"STATE4", 8, 2, .ro, 0, false⟩,
    ⟨"STATE5", 10, 2, .ro, 0, false⟩,
    ⟨"STATE6", 12, 2, .ro, 0, false⟩,
    ⟨"STATE7", 14, 2, .ro, 0, false⟩,
    ⟨"STATE8", 16, 2, .ro, 0, false⟩,
    ⟨"STATE9", 18, 2, .ro, 0, false⟩,
    ⟨"STATE10", 20, 2, .ro, 0, false⟩,
    ⟨"STATE11", 22, 2, .ro, 0, false⟩,
    ⟨"STATE12", 24, 2, .ro, 0, false⟩,
    ⟨"STATE13", 26, 2, .ro, 0, false⟩,
    ⟨"STATE14", 28, 2, .ro, 0, false⟩,
    ⟨"STATE15", 30, 2, .ro, 0, false⟩]⟩,
  ⟨"CORE_ACC_STATE_HI", 0x1000088, 0x10000, 144, [⟨"STATE0", 0, 2, .ro, 0, false⟩,
    ⟨"STATE1", 2, 2, .ro, 0, false⟩,
    ⟨"STATE2", 4, 2, .ro, 0, false⟩,
    ⟨"STATE3", 6, 2, .ro, 0, false⟩,
    ⟨"STATE4", 8, 2, .ro, 0, false⟩,
    ⟨"STATE5", 10, 2, .ro, 0, false⟩,
    ⟨"STATE6", 12, 2, .ro, 0, false⟩,
    ⟨"STATE7", 14, 2, .ro, 0, false⟩,
    ⟨"STATE8", 16, 2, .ro, 0, false⟩,
    ⟨"STATE9", 18, 2, .ro, 0, false⟩,
    ⟨"STATE10", 20, 2, .ro, 0, false⟩,
    ⟨"STATE11", 22, 2, .ro, 0, false⟩,
    ⟨"STATE12", 24, 2, .ro, 0, false⟩,
    ⟨"STATE13", 26, 2, .ro, 0, false⟩,
    ⟨"STATE14", 28, 2, .ro, 0, false⟩,
    ⟨"STATE15", 30, 2, .ro, 0, false⟩]⟩,
  ⟨"CORE_ACC_OWNER", 0x100008c, 0x10000, 144, [⟨"CONTEXT", 0, 6, .ro, 0, false⟩,
    ⟨"VALID", 6, 1, .ro, 0, false⟩,
    ⟨"GENERATION", 16, 16, .ro, 0, false⟩]⟩,
  ⟨"CORE_EXACT_FB_CNT", 0x1000090, 0x10000, 144, [⟨"COUNT", 0, 32, .ro, 0, false⟩]⟩,
  ⟨"CORE_ACC_CONFLICT_CNT", 0x1000094, 0x10000, 144, [⟨"COUNT", 0, 32, .ro, 0, false⟩]⟩,
  ⟨"CORE_MX_PASS_LO", 0x1000098, 0x10000, 144, [⟨"PASSES_LO", 0, 32, .ro, 0, false⟩]⟩,
  ⟨"CORE_MX_PASS_HI", 0x100009c, 0x10000, 144, [⟨"PASSES_HI", 0, 32, .ro, 0, false⟩]⟩,
  ⟨"CORE_VX_STATUS", 0x10000a0, 0x10000, 144, [⟨"BUSY", 0, 1, .ro, 0, false⟩,
    ⟨"PACKED", 1, 1, .ro, 0, false⟩,
    ⟨"SERIAL", 2, 1, .ro, 0, false⟩,
    ⟨"STRICT", 3, 1, .ro, 0, false⟩,
    ⟨"CLASS", 4, 2, .ro, 0, false⟩]⟩,
  ⟨"CORE_VX_SERIAL_CNT", 0x10000a4, 0x10000, 144, [⟨"COUNT", 0, 32, .ro, 0, false⟩]⟩,
  ⟨"CORE_VX_HAZARD_CNT", 0x10000a8, 0x10000, 144, [⟨"CYCLES", 0, 32, .ro, 0, false⟩]⟩,
  ⟨"CORE_VX_ELEM_LO", 0x10000ac, 0x10000, 144, [⟨"ELEM_LO", 0, 32, .ro, 0, false⟩]⟩,
  ⟨"CORE_VX_ELEM_HI", 0x10000b0, 0x10000, 144, [⟨"ELEM_HI", 0, 32, .ro, 0, false⟩]⟩,
  ⟨"CORE_SP_STALL_CNT", 0x10000c0, 0x10000, 144, [⟨"CYCLES", 0, 32, .ro, 0, false⟩]⟩,
  ⟨"CORE_SP_CE_CNT", 0x10000c4, 0x10000, 144, [⟨"COUNT", 0, 32, .ro, 0, false⟩]⟩,
  ⟨"CORE_SP_UE_CNT", 0x10000c8, 0x10000, 144, [⟨"COUNT", 0, 32, .ro, 0, false⟩]⟩,
  ⟨"CORE_ACW", 0x1000040, 0x10000, 144, [⟨"RMODE", 0, 3, .ro, 0, false⟩,
    ⟨"STRICT", 3, 1, .ro, 0, false⟩,
    ⟨"SAT", 4, 1, .ro, 0, false⟩,
    ⟨"MXRULE", 5, 1, .ro, 0, false⟩]⟩,
  ⟨"CORE_ASW", 0x1000044, 0x10000, 144, [⟨"INVALID", 0, 1, .ro, 0, false⟩,
    ⟨"DIVZERO", 1, 1, .ro, 0, false⟩,
    ⟨"OVERFLOW", 2, 1, .ro, 0, false⟩,
    ⟨"UNDERFLOW", 3, 1, .ro, 0, false⟩,
    ⟨"INEXACT", 4, 1, .ro, 0, false⟩]⟩]

def tableMEM : List Row := [
  ⟨"MEM_CTRL", 0x400000, 0x0, 1, [⟨"SCRUB_EN", 0, 1, .rw, 1, false⟩,
    ⟨"REFRESH_AUTO", 1, 1, .rw, 1, false⟩]⟩,
  ⟨"MEM_STATUS", 0x400004, 0x0, 1, [⟨"NM_TRAINED", 0, 8, .ro, 0, false⟩,
    ⟨"BC_TRAINED", 8, 1, .ro, 0, false⟩,
    ⟨"REPAIR_BUSY", 9, 1, .ro, 0, false⟩,
    ⟨"XLAT_BUSY", 10, 1, .ro, 0, false⟩]⟩,
  ⟨"MEM_EVENT", 0x400008, 0x0, 1, [⟨"UE", 0, 1, .w1c, 0, false⟩,
    ⟨"CE_THRESH", 1, 1, .w1c, 0, false⟩,
    ⟨"REFRESH_CHANGE", 2, 1, .w1c, 0, false⟩,
    ⟨"REPAIR_DONE", 3, 1, .w1c, 0, false⟩,
    ⟨"REPAIR_FAIL", 4, 1, .w1c, 0, false⟩]⟩,
  ⟨"MEM_NM_STATUS", 0x400010, 0x4, 8, [⟨"TEMP", 0, 8, .ro, 0, false⟩,
    ⟨"REFRESH", 8, 2, .ro, 0, false⟩,
    ⟨"TRAINED", 10, 1, .ro, 0, false⟩,
    ⟨"SPARE_ROWS", 16, 16, .ro, 0, false⟩]⟩,
  ⟨"MEM_BC_TRAINED", 0x400030, 0x0, 1, [⟨"CHANNELS", 0, 32, .ro, 0, false⟩]⟩,
  ⟨"MEM_BC_TEMP", 0x400034, 0x0, 1, [⟨"TEMP", 0, 8, .ro, 0, false⟩,
    ⟨"REFRESH", 8, 2, .ro, 0, false⟩,
    ⟨"SPARE_ROWS", 16, 16, .ro, 0, false⟩]⟩,
  ⟨"MEM_NM_CE_CNT", 0x400040, 0x4, 8, [⟨"COUNT", 0, 32, .ro, 0, false⟩]⟩,
  ⟨"MEM_BC_CE_CNT", 0x400060, 0x0, 1, [⟨"COUNT", 0, 32, .ro, 0, false⟩]⟩,
  ⟨"MEM_UE_CNT", 0x400064, 0x0, 1, [⟨"COUNT", 0, 32, .ro, 0, false⟩]⟩,
  ⟨"MEM_ERR_ADDR_LO", 0x400068, 0x0, 1, [⟨"PA_LO", 0, 32, .ro, 0, false⟩]⟩,
  ⟨"MEM_ERR_ADDR_HI", 0x40006c, 0x0, 1, [⟨"PA_HI", 0, 8, .ro, 0, false⟩]⟩,
  ⟨"MEM_ERR_INFO", 0x400070, 0x0, 1, [⟨"KIND", 0, 2, .ro, 0, false⟩,
    ⟨"MEMORY", 2, 4, .ro, 0, false⟩,
    ⟨"CONTEXT", 6, 6, .ro, 0, false⟩,
    ⟨"CTX_VALID", 12, 1, .ro, 0, false⟩,
    ⟨"GENERATION", 16, 16, .ro, 0, false⟩]⟩,
  ⟨"MEM_XLAT_INVAL", 0x400078, 0x0, 1, [⟨"CONTEXT", 0, 6, .wo, 0, true⟩,
    ⟨"ALL", 6, 1, .wo, 0, true⟩,
    ⟨"GO", 7, 1, .wo, 0, true⟩,
    ⟨"BUSY", 8, 1, .ro, 0, true⟩]⟩,
  ⟨"MEM_SCRUB_CFG", 0x40007c, 0x0, 1, [⟨"PERIOD_H", 0, 16, .rw, 24, false⟩]⟩,
  ⟨"MEM_REPAIR_CTRL", 0x400080, 0x0, 1, [⟨"PAGE", 0, 24, .rw, 0, true⟩,
    ⟨"CHUNK", 24, 6, .rw, 0, true⟩,
    ⟨"GO", 31, 1, .w1s, 0, true⟩]⟩,
  ⟨"MEM_REPAIR_STATUS", 0x400084, 0x0, 1, [⟨"BUSY", 0, 1, .ro, 0, false⟩,
    ⟨"DONE", 1, 1, .ro, 0, false⟩,
    ⟨"NO_SPARE", 2, 1, .ro, 0, false⟩,
    ⟨"STALL", 16, 16, .ro, 0, false⟩]⟩,
  ⟨"MEM_RETIRED_CNT", 0x400088, 0x0, 1, [⟨"NM_PAGES", 0, 16, .ro, 0, false⟩,
    ⟨"BC_PAGES", 16, 16, .ro, 0, false⟩]⟩,
  ⟨"MEM_PT_BASE_LO", 0x400100, 0x8, 64, [⟨"VALID", 0, 1, .rw, 0, true⟩,
    ⟨"BASE_LO", 17, 15, .rw, 0, true⟩]⟩,
  ⟨"MEM_PT_BASE_HI", 0x400104, 0x8, 64, [⟨"BASE_HI", 0, 8, .rw, 0, true⟩]⟩]

def tableSUB0 : List Row := [
  ⟨"SUB_CTRL", 0x200000, 0x0, 1, [⟨"DISPATCH_EN", 0, 1, .rw, 0, true⟩]⟩,
  ⟨"SUB_EVENT", 0x200004, 0x0, 1, [⟨"HOST_DENIED", 0, 1, .w1c, 0, false⟩,
    ⟨"BAD_PI", 1, 1, .w1c, 0, false⟩,
    ⟨"RING_STALL", 2, 1, .w1c, 0, false⟩,
    ⟨"INFLIGHT_FULL", 3, 1, .w1c, 0, false⟩]⟩,
  ⟨"SUB_INFLIGHT", 0x200008, 0x0, 1, [⟨"COUNT", 0, 17, .ro, 0, false⟩]⟩,
  ⟨"SUB_INFLIGHT_DIE", 0x200010, 0x4, 4, [⟨"COUNT", 0, 15, .ro, 0, false⟩]⟩,
  ⟨"SUB_PROG_SEL", 0x200020, 0x0, 1, [⟨"RING", 0, 8, .rw, 0, false⟩,
    ⟨"INDEX", 8, 16, .rw, 0, false⟩,
    ⟨"VALID", 31, 1, .ro, 0, false⟩]⟩,
  ⟨"SUB_PROG_DATA", 0x200040, 0x4, 8, [⟨"DATA", 0, 32, .ro, 0, false⟩]⟩,
  ⟨"SUB_CTX_CTRL", 0x200800, 0x10, 64, [⟨"STATE", 0, 2, .ro, 0, false⟩,
    ⟨"ACTIVATE", 2, 1, .wo, 0, true⟩,
    ⟨"DUSK", 3, 1, .wo, 0, true⟩,
    ⟨"VCID", 16, 16, .rw, 0, true⟩]⟩,
  ⟨"SUB_CTX_GEN", 0x200804, 0x10, 64, [⟨"GENERATION", 0, 16, .ro, 1, false⟩]⟩,
  ⟨"SUB_CTX_SEED", 0x200808, 0x10, 64, [⟨"SEED", 0, 32, .rw, 0, true⟩]⟩,
  ⟨"SUB_RING_CFG", 0x201000, 0x40, 256, [⟨"ENABLE", 0, 1, .rw, 0, false⟩,
    ⟨"LOC", 1, 1, .rw, 0, false⟩,
    ⟨"SIZE_LOG2", 2, 5, .rw, 4, false⟩,
    ⟨"PRIO", 7, 2, .rw, 0, false⟩,
    ⟨"IRQ_EN", 9, 1, .rw, 0, false⟩,
    ⟨"MAX_INFLIGHT", 16, 16, .rw, 0, false⟩]⟩,
  ⟨"SUB_RING_CTX", 0x201004, 0x40, 256, [⟨"CONTEXT", 0, 6, .rw, 0, true⟩,
    ⟨"VCID", 16, 16, .rw, 0, true⟩]⟩,
  ⟨"SUB_RING_RING_LO", 0x201008, 0x40, 256, [⟨"BASE_LO", 12, 20, .rw, 0, false⟩]⟩,
  ⟨"SUB_RING_RING_HI", 0x20100c, 0x40, 256, [⟨"BASE_HI", 0, 32, .rw, 0, false⟩]⟩,
  ⟨"SUB_RING_CQ_LO", 0x201010, 0x40, 256, [⟨"BASE_LO", 12, 20, .rw, 0, false⟩]⟩,
  ⟨"SUB_RING_CQ_HI", 0x201014, 0x40, 256, [⟨"BASE_HI", 0, 32, .rw, 0, false⟩]⟩,
  ⟨"SUB_RING_CB_LO", 0x201018, 0x40, 256, [⟨"BASE_LO", 6, 26, .rw, 0, false⟩]⟩,
  ⟨"SUB_RING_CB_HI", 0x20101c, 0x40, 256, [⟨"BASE_HI", 0, 32, .rw, 0, false⟩]⟩,
  ⟨"SUB_RING_SEQ_LO", 0x201020, 0x40, 256, [⟨"SEQ", 0, 32, .rw, 0, false⟩]⟩,
  ⟨"SUB_RING_SEQ_HI", 0x201024, 0x40, 256, [⟨"SEQ", 0, 32, .rw, 0, false⟩]⟩,
  ⟨"SUB_RING_STATUS", 0x201028, 0x40, 256, [⟨"IDLE", 0, 1, .ro, 1, false⟩,
    ⟨"STALL", 1, 1, .ro, 0, false⟩,
    ⟨"CQ_FULL", 2, 1, .ro, 0, false⟩,
    ⟨"BAD_PI", 3, 1, .w1c, 0, false⟩,
    ⟨"HELD", 4, 1, .ro, 0, false⟩,
    ⟨"INFLIGHT", 8, 17, .ro, 0, false⟩]⟩]

def tableSUB1 : List Row := [
  ⟨"SUB_RING_CI", 0x20102c, 0x40, 256, [⟨"CI", 0, 32, .ro, 0, false⟩]⟩,
  ⟨"SUB_RING_STALL_CNT", 0x201030, 0x40, 256, [⟨"COUNT", 0, 32, .ro, 0, false⟩]⟩,
  ⟨"SUB_RING_REJECT_CNT", 0x201034, 0x40, 256, [⟨"COUNT", 0, 32, .ro, 0, false⟩]⟩]

def tableSUB : List Row := tableSUB0 ++ tableSUB1

def tableMBX : List Row := [
  ⟨"MBX_CH_TX", 0xb00000, 0x20, 32, [⟨"DATA", 0, 32, .wo, 0, false⟩]⟩,
  ⟨"MBX_CH_RX", 0xb00004, 0x20, 32, [⟨"DATA", 0, 32, .ro, 0, false⟩]⟩,
  ⟨"MBX_CH_RX_STAMP", 0xb00008, 0x20, 32, [⟨"SENDER", 0, 16, .ro, 0, false⟩]⟩,
  ⟨"MBX_CH_STATUS", 0xb0000c, 0x20, 32, [⟨"IN_COUNT", 0, 4, .ro, 0, false⟩,
    ⟨"OUT_COUNT", 4, 4, .ro, 0, false⟩,
    ⟨"IN_COLLISION", 8, 1, .w1c, 0, false⟩,
    ⟨"OUT_COLLISION", 9, 1, .w1c, 0, false⟩,
    ⟨"COLL_CNT", 16, 16, .ro, 0, false⟩]⟩,
  ⟨"MBX_CH_CFG", 0xb00010, 0x20, 32, [⟨"E0", 0, 16, .rw, 0, true⟩,
    ⟨"E1", 16, 16, .rw, 0, true⟩]⟩,
  ⟨"MBX_CH_WAKE", 0xb00014, 0x20, 32, [⟨"IRQ_EN", 0, 1, .rw, 0, false⟩]⟩,
  ⟨"MBX_EVENT", 0xb00400, 0x0, 1, [⟨"FOREIGN", 0, 1, .w1c, 0, false⟩]⟩,
  ⟨"MBX_FOREIGN_CNT", 0xb00404, 0x0, 1, [⟨"COUNT", 0, 32, .ro, 0, false⟩]⟩]

def tableSYN0 : List Row := [
  ⟨"SYN_CTRL", 0x300000, 0x0, 1, [⟨"ENABLE", 0, 1, .rw, 0, true⟩]⟩,
  ⟨"SYN_EVENT", 0x300004, 0x0, 1, [⟨"OVERFLOW", 0, 1, .w1c, 0, false⟩,
    ⟨"WATCHDOG", 1, 1, .w1c, 0, false⟩,
    ⟨"REMOTE_MISS", 2, 1, .w1c, 0, false⟩,
    ⟨"STALE", 3, 1, .w1c, 0, false⟩,
    ⟨"BROKEN", 4, 1, .w1c, 0, false⟩,
    ⟨"WAITERS_FULL", 5, 1, .w1c, 0, false⟩]⟩,
  ⟨"SYN_WAITERS", 0x300008, 0x0, 1, [⟨"IN_USE", 0, 13, .ro, 0, false⟩]⟩,
  ⟨"SYN_REMOTE_PEND", 0x30000c, 0x0, 1, [⟨"COUNT", 0, 11, .ro, 0, false⟩]⟩,
  ⟨"SYN_OBJ_SEL", 0x300010, 0x0, 1, [⟨"INDEX", 0, 13, .rw, 0, true⟩]⟩,
  ⟨"SYN_OBJ_VAL_LO", 0x300014, 0x0, 1, [⟨"VAL_LO", 0, 32, .rw, 0, true⟩]⟩,
  ⟨"SYN_OBJ_VAL_HI", 0x300018, 0x0, 1, [⟨"VAL_HI", 0, 32, .rw, 0, true⟩]⟩,
  ⟨"SYN_OBJ_STATE", 0x30001c, 0x0, 1, [⟨"KIND", 0, 1, .rw, 0, true⟩,
    ⟨"BROKEN", 1, 1, .ro, 0, true⟩,
    ⟨"SENSE", 2, 1, .ro, 0, true⟩,
    ⟨"ARRIVED", 4, 12, .ro, 0, true⟩,
    ⟨"WAITERS", 16, 13, .ro, 0, true⟩]⟩,
  ⟨"SYN_BAR_CFG", 0x300020, 0x0, 1, [⟨"LOCAL_N", 0, 12, .rw, 0, true⟩,
    ⟨"PARENT_PORT", 12, 4, .rw, 0, true⟩,
    ⟨"ROOT", 16, 1, .rw, 0, true⟩]⟩,
  ⟨"SYN_BAR_CHILD", 0x300024, 0x0, 1, [⟨"CHILD_MASK", 0, 16, .rw, 0, true⟩,
    ⟨"ARRIVED_MASK", 16, 16, .ro, 0, true⟩]⟩,
  ⟨"SYN_BAR_REARM", 0x300028, 0x0, 1, [⟨"REARM", 0, 1, .wo, 0, true⟩]⟩,
  ⟨"SYN_XLAT_INVAL", 0x30002c, 0x0, 1, [⟨"CONTEXT", 0, 6, .wo, 0, true⟩,
    ⟨"ALL", 6, 1, .wo, 0, true⟩,
    ⟨"GO", 7, 1, .wo, 0, true⟩,
    ⟨"BUSY", 8, 1, .ro, 0, true⟩]⟩,
  ⟨"SYN_OVERFLOW_CNT", 0x300030, 0x0, 1, [⟨"COUNT", 0, 32, .ro, 0, false⟩]⟩,
  ⟨"SYN_WDOG_CNT", 0x300034, 0x0, 1, [⟨"COUNT", 0, 32, .ro, 0, false⟩]⟩,
  ⟨"SYN_REMOTE_MISS_CNT", 0x300038, 0x0, 1, [⟨"COUNT", 0, 32, .ro, 0, false⟩]⟩,
  ⟨"SYN_STALE_CNT", 0x30003c, 0x0, 1, [⟨"COUNT", 0, 32, .ro, 0, false⟩]⟩,
  ⟨"SYN_FOREIGN_CNT", 0x300040, 0x0, 1, [⟨"COUNT", 0, 32, .ro, 0, false⟩]⟩,
  ⟨"SYN_CTX_XT_LO", 0x300800, 0x10, 64, [⟨"VALID", 0, 1, .rw, 0, true⟩,
    ⟨"BASE_LO", 18, 14, .rw, 0, true⟩]⟩,
  ⟨"SYN_CTX_XT_HI", 0x300804, 0x10, 64, [⟨"BASE_HI", 0, 8, .rw, 0, true⟩]⟩,
  ⟨"SYN_CTX_WDOG", 0x300808, 0x10, 64, [⟨"FRAMES", 0, 32, .rw, 250000, true⟩]⟩]

def tableSYN1 : List Row := [
  ⟨"SYN_CTX_EPOCH", 0x30080c, 0x10, 64, [⟨"EPOCH", 0, 16, .rw, 0, true⟩]⟩]

def tableSYN : List Row := tableSYN0 ++ tableSYN1

def tableOPT0 : List Row := [
  ⟨"OPT_CTRL", 0x500000, 0x0, 1, [⟨"BANK_EN", 0, 1, .rw, 0, true⟩,
    ⟨"AUTO_SWAP", 1, 1, .rw, 1, true⟩,
    ⟨"TONE_EN", 2, 1, .rw, 1, true⟩]⟩,
  ⟨"OPT_STATUS", 0x500004, 0x0, 1, [⟨"SPARES_FREE", 0, 3, .ro, 0, false⟩,
    ⟨"PARKED", 3, 1, .ro, 0, false⟩,
    ⟨"PARK_SPARE", 4, 2, .ro, 0, false⟩,
    ⟨"PORTS_UP", 6, 16, .ro, 0, false⟩]⟩,
  ⟨"OPT_EVENT", 0x500008, 0x0, 1, [⟨"WRONG_LAMBDA", 0, 1, .w1c, 0, false⟩,
    ⟨"LANE_ALARM", 1, 1, .w1c, 0, false⟩,
    ⟨"LANE_MOVE", 2, 1, .w1c, 0, false⟩,
    ⟨"LASER_WARN", 3, 1, .w1c, 0, false⟩,
    ⟨"LASER_SWAP", 4, 1, .w1c, 0, false⟩,
    ⟨"LASER_FAIL", 5, 1, .w1c, 0, false⟩,
    ⟨"SPARE_EXHAUSTED", 6, 1, .w1c, 0, false⟩,
    ⟨"PORT_QUIET", 7, 1, .w1c, 0, false⟩,
    ⟨"LINK_DOWN", 8, 1, .w1c, 0, false⟩,
    ⟨"PEER_CHANGE", 9, 1, .w1c, 0, false⟩,
    ⟨"BYPASS_MOVE", 10, 1, .w1c, 0, false⟩,
    ⟨"BYPASS_DEFER", 11, 1, .w1c, 0, false⟩,
    ⟨"SWAP_DONE", 12, 1, .w1c, 0, false⟩]⟩,
  ⟨"OPT_QUIET_LIMIT", 0x50000c, 0x0, 1, [⟨"FRAMES", 0, 32, .rw, 12288, false⟩]⟩,
  ⟨"OPT_LASER_THRESH", 0x500010, 0x0, 1, [⟨"WARN_DB", 0, 8, .rw, 10, true⟩,
    ⟨"SWAP_DB", 8, 8, .rw, 15, true⟩,
    ⟨"FAIL_DB", 16, 8, .rw, 60, true⟩]⟩,
  ⟨"OPT_RING_SEL", 0x500014, 0x0, 1, [⟨"PORT", 0, 4, .rw, 0, false⟩,
    ⟨"BUS", 4, 1, .rw, 0, false⟩,
    ⟨"LAMBDA", 5, 5, .rw, 0, false⟩]⟩,
  ⟨"OPT_RING_DATA", 0x500018, 0x0, 1, [⟨"HEATER", 0, 16, .ro, 0, false⟩,
    ⟨"STATE", 16, 3, .ro, 0, false⟩,
    ⟨"TONE_LC", 19, 5, .ro, 31, false⟩,
    ⟨"ATTEMPT", 24, 2, .ro, 0, false⟩]⟩,
  ⟨"OPT_RING_CAL", 0x50001c, 0x0, 1, [⟨"H_CAL", 0, 16, .ro, 0, false⟩]⟩,
  ⟨"OPT_WRONG_CNT", 0x500020, 0x0, 1, [⟨"COUNT", 0, 32, .ro, 0, false⟩]⟩,
  ⟨"OPT_LASER_FAIL_CNT", 0x500024, 0x0, 1, [⟨"COUNT", 0, 32, .ro, 0, false⟩]⟩,
  ⟨"OPT_LC_CTRL", 0x500100, 0x10, 22, [⟨"RELEASE", 0, 1, .wo, 0, true⟩,
    ⟨"PARK", 1, 1, .rw, 0, true⟩]⟩,
  ⟨"OPT_LC_STATUS", 0x500104, 0x10, 22, [⟨"PRESENT", 0, 1, .ro, 0, false⟩,
    ⟨"LEVER_OPEN", 1, 1, .ro, 0, false⟩,
    ⟨"STATE", 2, 3, .ro, 0, false⟩,
    ⟨"LAMBDA", 5, 5, .ro, 31, false⟩,
    ⟨"WARN", 10, 1, .ro, 0, false⟩,
    ⟨"SWAP", 11, 1, .ro, 0, false⟩]⟩,
  ⟨"OPT_LC_POWER", 0x500108, 0x10, 22, [⟨"AVG", 0, 16, .ro, 0, false⟩,
    ⟨"LAST", 16, 16, .ro, 0, false⟩]⟩,
  ⟨"OPT_LC_COMM", 0x50010c, 0x10, 22, [⟨"P_C", 0, 16, .ro, 0, false⟩]⟩,
  ⟨"OPT_WL_SRC", 0x500300, 0x4, 18, [⟨"SOURCE", 0, 5, .ro, 0, false⟩]⟩,
  ⟨"OPT_PORT_STATUS", 0x500400, 0x20, 16, [⟨"UP", 0, 1, .ro, 0, false⟩,
    ⟨"TX_QUIET", 1, 1, .ro, 0, false⟩,
    ⟨"RX_HOLD", 2, 1, .ro, 0, false⟩,
    ⟨"LINK_DOWN", 3, 1, .ro, 0, false⟩,
    ⟨"GAP", 4, 1, .ro, 0, false⟩,
    ⟨"PEER", 16, 13, .ro, 0, false⟩,
    ⟨"PEER_VALID", 29, 1, .ro, 0, false⟩]⟩,
  ⟨"OPT_PORT_LANE", 0x500404, 0x20, 16, [⟨"TX_SPARE", 0, 5, .rw, 31, true⟩]⟩,
  ⟨"OPT_PORT_GAP_START", 0x500408, 0x20, 16, [⟨"START", 0, 32, .rw, 0, false⟩]⟩,
  ⟨"OPT_PORT_GAP_LEN", 0x50040c, 0x20, 16, [⟨"FRAMES", 0, 16, .rw, 0, false⟩]⟩,
  ⟨"OPT_PORT_RETRY_CNT", 0x500410, 0x20, 16, [⟨"COUNT", 0, 32, .ro, 0, false⟩]⟩]

def tableOPT1 : List Row := [
  ⟨"OPT_PORT_FEC_CORR_CNT", 0x500414, 0x20, 16, [⟨"COUNT", 0, 32, .ro, 0, false⟩]⟩,
  ⟨"OPT_PORT_FEC_UNCORR_CNT", 0x500418, 0x20, 16, [⟨"COUNT", 0, 32, .ro, 0, false⟩]⟩,
  ⟨"OPT_PORT_ALARM_CNT", 0x50041c, 0x20, 16, [⟨"COUNT", 0, 32, .ro, 0, false⟩]⟩,
  ⟨"OPT_BYP_CTRL", 0x500600, 0x10, 8, [⟨"TARGET", 0, 1, .rw, 0, true⟩,
    ⟨"ARM", 1, 1, .w1s, 0, true⟩]⟩,
  ⟨"OPT_BYP_STATUS", 0x500604, 0x10, 8, [⟨"POSITION", 0, 2, .ro, 0, false⟩,
    ⟨"DEFERRED", 2, 1, .ro, 0, false⟩,
    ⟨"LISTEN_OK", 3, 1, .ro, 0, false⟩,
    ⟨"MOVES", 16, 16, .ro, 0, false⟩]⟩,
  ⟨"OPT_BYP_FRAME", 0x500608, 0x10, 8, [⟨"FRAME", 0, 32, .rw, 0, true⟩]⟩]

def tableOPT : List Row := tableOPT0 ++ tableOPT1

def tableSWT0 : List Row := [
  ⟨"SWT_CTRL", 0x600000, 0x0, 1, [⟨"ENABLE", 0, 1, .rw, 0, true⟩,
    ⟨"MODE", 1, 1, .rw, 0, true⟩,
    ⟨"REROUTE", 2, 1, .rw, 1, true⟩]⟩,
  ⟨"SWT_STATUS", 0x600004, 0x0, 1, [⟨"ACTIVE_BANK", 0, 1, .ro, 0, true⟩,
    ⟨"SWAP_PENDING", 1, 1, .ro, 0, true⟩,
    ⟨"TERM_ONLY", 2, 1, .ro, 0, true⟩,
    ⟨"KEY_SLOT", 3, 1, .ro, 0, true⟩,
    ⟨"COLL_INFLIGHT", 4, 6, .ro, 0, true⟩]⟩,
  ⟨"SWT_EVENT", 0x600008, 0x0, 1, [⟨"ROUTE_MISS", 0, 1, .w1c, 0, false⟩,
    ⟨"STALE", 1, 1, .w1c, 0, false⟩,
    ⟨"AGED", 2, 1, .w1c, 0, false⟩,
    ⟨"AUTH_FAIL", 3, 1, .w1c, 0, false⟩,
    ⟨"SWAP_DONE", 4, 1, .w1c, 0, false⟩,
    ⟨"LOAD_ERROR", 5, 1, .w1c, 0, false⟩,
    ⟨"DEGRADE", 6, 1, .w1c, 0, false⟩,
    ⟨"REROUTE", 7, 1, .w1c, 0, false⟩,
    ⟨"FLOW_MOVE", 8, 1, .w1c, 0, false⟩,
    ⟨"LATE_ANNOUNCE", 9, 1, .w1c, 0, false⟩]⟩,
  ⟨"SWT_ID", 0x60000c, 0x0, 1, [⟨"MODULE_ID", 0, 13, .rw, 0, true⟩]⟩,
  ⟨"SWT_SLICE", 0x600010, 0x0, 1, [⟨"TAG", 0, 12, .rw, 0, true⟩,
    ⟨"ENC", 12, 1, .rw, 0, true⟩,
    ⟨"KEY0_VALID", 13, 1, .ro, 0, true⟩,
    ⟨"KEY1_VALID", 14, 1, .ro, 0, true⟩]⟩,
  ⟨"SWT_SCHED_BANK", 0x600014, 0x0, 1, [⟨"ACTIVE", 0, 1, .rw, 0, true⟩,
    ⟨"LOADED0", 1, 1, .ro, 0, true⟩,
    ⟨"LOADED1", 2, 1, .ro, 0, true⟩]⟩,
  ⟨"SWT_SWAP_FRAME_LO", 0x600018, 0x0, 1, [⟨"FRAME", 0, 32, .ro, 0, true⟩]⟩,
  ⟨"SWT_SWAP_FRAME_HI", 0x60001c, 0x0, 1, [⟨"FRAME", 0, 32, .ro, 0, true⟩]⟩,
  ⟨"SWT_SCHED_LOAD_LO", 0x600020, 0x0, 1, [⟨"PA_LO", 13, 19, .rw, 0, true⟩]⟩,
  ⟨"SWT_SCHED_LOAD_HI", 0x600024, 0x0, 1, [⟨"PA_HI", 0, 8, .rw, 0, true⟩]⟩,
  ⟨"SWT_SCHED_LOAD_CTRL", 0x600028, 0x0, 1, [⟨"BANK", 0, 1, .rw, 0, true⟩,
    ⟨"GO", 1, 1, .w1s, 0, true⟩,
    ⟨"BUSY", 2, 1, .ro, 0, true⟩,
    ⟨"ERROR", 3, 1, .ro, 0, true⟩,
    ⟨"REASON", 4, 4, .ro, 0, true⟩,
    ⟨"ERR_SLOT", 8, 6, .ro, 0, true⟩,
    ⟨"ERR_PORT", 14, 4, .ro, 0, true⟩]⟩,
  ⟨"SWT_ROUTE_SEL", 0x600030, 0x0, 1, [⟨"INDEX", 0, 13, .rw, 0, true⟩]⟩,
  ⟨"SWT_ROUTE_DATA", 0x600034, 0x0, 1, [⟨"ENTRY", 0, 32, .rw, 0, true⟩]⟩,
  ⟨"SWT_GROUP_BASE_LO", 0x600038, 0x0, 1, [⟨"PA_LO", 18, 14, .rw, 0, true⟩]⟩,
  ⟨"SWT_GROUP_BASE_HI", 0x60003c, 0x0, 1, [⟨"PA_HI", 0, 8, .rw, 0, true⟩]⟩,
  ⟨"SWT_KEY_SWITCH_LO", 0x600040, 0x0, 1, [⟨"FRAME_LO", 0, 32, .rw, 0, true⟩]⟩,
  ⟨"SWT_KEY_SWITCH_HI", 0x600044, 0x0, 1, [⟨"FRAME_HI", 0, 32, .rw, 0, true⟩]⟩,
  ⟨"SWT_MISS_CNT", 0x600050, 0x0, 1, [⟨"COUNT", 0, 32, .ro, 0, true⟩]⟩,
  ⟨"SWT_STALE_CNT", 0x600054, 0x0, 1, [⟨"COUNT", 0, 32, .ro, 0, true⟩]⟩,
  ⟨"SWT_AGED_CNT", 0x600058, 0x0, 1, [⟨"COUNT", 0, 32, .ro, 0, true⟩]⟩]

def tableSWT1 : List Row := [
  ⟨"SWT_AUTH_FAIL_CNT", 0x60005c, 0x0, 1, [⟨"COUNT", 0, 32, .ro, 0, true⟩]⟩,
  ⟨"SWT_DEGRADE_CNT", 0x600060, 0x0, 1, [⟨"COUNT", 0, 32, .ro, 0, true⟩]⟩,
  ⟨"SWT_FLOW_MOVE_CNT", 0x600064, 0x0, 1, [⟨"COUNT", 0, 32, .ro, 0, true⟩]⟩,
  ⟨"SWT_PORT_DELAY", 0x600100, 0x4, 16, [⟨"DELAY", 0, 24, .ro, 0, true⟩,
    ⟨"VALID", 24, 1, .ro, 0, true⟩,
    ⟨"EXPRESS_OK", 25, 1, .ro, 0, true⟩]⟩]

def tableSWT : List Row := tableSWT0 ++ tableSWT1

def tableRPL0 : List Row := [
  ⟨"RPL_STEP_SEL", 0x800000, 0x0, 1, [⟨"CONTEXT", 0, 6, .rw, 0, false⟩]⟩,
  ⟨"RPL_STEP_EVENT", 0x800080, 0x0, 1, [⟨"OPENED", 0, 1, .w1c, 0, false⟩,
    ⟨"CLOSED", 1, 1, .w1c, 0, false⟩,
    ⟨"DISCARD", 2, 1, .w1c, 0, false⟩,
    ⟨"BREAK_SENT", 3, 1, .w1c, 0, false⟩,
    ⟨"LATE_BREAK", 4, 1, .w1c, 0, false⟩,
    ⟨"OPEN_MISSED", 5, 1, .w1c, 0, false⟩,
    ⟨"GRAD_ALIAS", 6, 1, .w1c, 0, false⟩,
    ⟨"STALLED", 7, 1, .w1c, 0, false⟩,
    ⟨"UPD_NAN", 8, 1, .w1c, 0, false⟩,
    ⟨"UPD_OVF", 9, 1, .w1c, 0, false⟩]⟩,
  ⟨"RPL_GRAD_ALIAS_CNT", 0x800084, 0x0, 1, [⟨"COUNT", 0, 32, .ro, 0, true⟩]⟩,
  ⟨"RPL_LATE_BREAK_CNT", 0x800088, 0x0, 1, [⟨"COUNT", 0, 32, .ro, 0, true⟩]⟩,
  ⟨"RPL_UPD_NAN_CNT", 0x80008c, 0x0, 1, [⟨"COUNT", 0, 32, .ro, 0, true⟩]⟩,
  ⟨"RPL_UPD_OVF_CNT", 0x800090, 0x0, 1, [⟨"COUNT", 0, 32, .ro, 0, true⟩]⟩,
  ⟨"RPL_UPD_STATUS", 0x800094, 0x0, 1, [⟨"BUSY", 0, 9, .ro, 0, true⟩]⟩,
  ⟨"RPL_REPLAY_CFG", 0x800108, 0x0, 1, [⟨"BARRIER", 0, 13, .rw, 0, true⟩,
    ⟨"LEAD", 16, 4, .rw, 3, true⟩,
    ⟨"VALID", 20, 1, .rw, 0, true⟩]⟩,
  ⟨"RPL_REPLAY_EVENT", 0x80010c, 0x0, 1, [⟨"READY", 0, 1, .w1c, 0, false⟩,
    ⟨"LATE", 1, 1, .w1c, 0, false⟩,
    ⟨"RESTORE_FAIL", 2, 1, .w1c, 0, false⟩,
    ⟨"SET_REFUSED", 3, 1, .w1c, 0, false⟩,
    ⟨"FENCE_DONE", 4, 1, .w1c, 0, false⟩,
    ⟨"FENCE_REFUSED", 5, 1, .w1c, 0, false⟩,
    ⟨"PEER_SILENT", 6, 1, .w1c, 0, false⟩,
    ⟨"DAYBREAK_DONE", 7, 1, .w1c, 0, false⟩]⟩,
  ⟨"RPL_PROT_BASE_LO", 0x800110, 0x0, 1, [⟨"VALID", 0, 1, .rw, 0, true⟩,
    ⟨"PA_LO", 14, 18, .rw, 0, true⟩]⟩,
  ⟨"RPL_PROT_BASE_HI", 0x800114, 0x0, 1, [⟨"PA_HI", 0, 8, .rw, 0, true⟩,
    ⟨"COUNT", 16, 9, .rw, 0, true⟩]⟩,
  ⟨"RPL_MIR_OFFSET_LO", 0x800118, 0x0, 1, [⟨"OFF_LO", 16, 16, .rw, 0, true⟩]⟩,
  ⟨"RPL_MIR_OFFSET_HI", 0x80011c, 0x0, 1, [⟨"OFF_HI", 0, 12, .rw, 0, true⟩]⟩,
  ⟨"RPL_MIR_PARTNER", 0x800120, 0x0, 1, [⟨"MODULE", 0, 13, .rw, 0, true⟩,
    ⟨"VALID", 13, 1, .rw, 0, true⟩]⟩,
  ⟨"RPL_MIR_CLIENT", 0x800124, 0x0, 1, [⟨"MODULE", 0, 13, .rw, 0, true⟩,
    ⟨"VALID", 13, 1, .rw, 0, true⟩,
    ⟨"STATE", 14, 2, .rw, 0, true⟩,
    ⟨"VERIFIED", 16, 1, .ro, 0, true⟩,
    ⟨"GUEST_STALE", 17, 1, .rw, 0, true⟩]⟩,
  ⟨"RPL_MIR_LAST", 0x800128, 0x0, 1, [⟨"LAST_STEP", 0, 32, .ro, 0, true⟩]⟩,
  ⟨"RPL_RING_BASE_LO", 0x800130, 0x0, 1, [⟨"PA_LO", 16, 16, .rw, 0, true⟩]⟩,
  ⟨"RPL_RING_BASE_HI", 0x800134, 0x0, 1, [⟨"PA_HI", 0, 8, .rw, 0, true⟩]⟩,
  ⟨"RPL_RING_CFG", 0x800138, 0x0, 1, [⟨"PAGES", 0, 22, .rw, 0, true⟩,
    ⟨"GUEST", 22, 1, .rw, 1, true⟩,
    ⟨"REQUIRE", 23, 1, .rw, 1, true⟩]⟩,
  ⟨"RPL_RING_FREE", 0x80013c, 0x0, 1, [⟨"PAGES", 0, 22, .ro, 0, true⟩]⟩]

def tableRPL1 : List Row := [
  ⟨"RPL_GUEST_BASE_LO", 0x800140, 0x0, 1, [⟨"PA_LO", 16, 16, .rw, 0, true⟩]⟩,
  ⟨"RPL_GUEST_BASE_HI", 0x800144, 0x0, 1, [⟨"PA_HI", 0, 8, .rw, 0, true⟩]⟩,
  ⟨"RPL_SET_CTRL", 0x800150, 0x0, 1, [⟨"PAGES", 0, 22, .rw, 0, true⟩,
    ⟨"OPEN", 22, 1, .w1s, 0, true⟩,
    ⟨"SEAL", 23, 1, .w1s, 0, true⟩,
    ⟨"REFUSED", 24, 1, .ro, 0, true⟩]⟩,
  ⟨"RPL_SET_STEP", 0x800154, 0x0, 1, [⟨"STEP", 0, 32, .rw, 0, true⟩]⟩,
  ⟨"RPL_SET_SEL", 0x800158, 0x0, 1, [⟨"SLOT", 0, 4, .rw, 0, true⟩]⟩,
  ⟨"RPL_SET_DATA0", 0x80015c, 0x0, 1, [⟨"STEP", 0, 32, .ro, 0, true⟩]⟩,
  ⟨"RPL_SET_DATA1", 0x800160, 0x0, 1, [⟨"FIRST", 0, 22, .ro, 0, true⟩,
    ⟨"STATE", 22, 2, .ro, 0, true⟩]⟩,
  ⟨"RPL_SET_DATA2", 0x800164, 0x0, 1, [⟨"PAGES", 0, 22, .ro, 0, true⟩]⟩,
  ⟨"RPL_CMAP", 0x800170, 0x4, 4, [⟨"CL0", 0, 4, .ro, 0, true⟩,
    ⟨"CL1", 4, 4, .ro, 1, true⟩,
    ⟨"CL2", 8, 4, .ro, 2, true⟩,
    ⟨"CL3", 12, 4, .ro, 3, true⟩,
    ⟨"CL4", 16, 4, .ro, 4, true⟩,
    ⟨"CL5", 20, 4, .ro, 5, true⟩,
    ⟨"CL6", 24, 4, .ro, 6, true⟩,
    ⟨"CL7", 28, 4, .ro, 7, true⟩]⟩,
  ⟨"RPL_CL_FENCE", 0x800180, 0x0, 1, [⟨"DIE", 0, 2, .rw, 0, true⟩,
    ⟨"CLUSTER", 2, 4, .rw, 0, true⟩,
    ⟨"PENDING", 30, 1, .ro, 0, true⟩,
    ⟨"GO", 31, 1, .w1s, 0, true⟩]⟩,
  ⟨"RPL_DAYBREAK_CTRL", 0x800190, 0x0, 1, [⟨"LOAD", 0, 1, .w1s, 0, true⟩]⟩,
  ⟨"RPL_DAYBREAK_STATUS", 0x800194, 0x0, 1, [⟨"STATE", 0, 3, .ro, 0, true⟩,
    ⟨"PAGES", 3, 29, .ro, 0, true⟩]⟩,
  ⟨"RPL_DISCARD_CNT", 0x8001a0, 0x0, 1, [⟨"COUNT", 0, 32, .ro, 0, true⟩]⟩,
  ⟨"RPL_RESTORE_CNT", 0x8001a4, 0x0, 1, [⟨"COUNT", 0, 32, .ro, 0, true⟩]⟩,
  ⟨"RPL_PRE_STALL_CNT", 0x8001a8, 0x0, 1, [⟨"COUNT", 0, 32, .ro, 0, true⟩]⟩,
  ⟨"RPL_CKPT_CTRL", 0x800200, 0x0, 1, [⟨"ARM", 0, 1, .w1s, 0, true⟩,
    ⟨"CANCEL", 1, 1, .wo, 0, true⟩,
    ⟨"FORCE_FULL", 2, 1, .rw, 0, true⟩,
    ⟨"RESTORE", 3, 1, .w1s, 0, true⟩]⟩,
  ⟨"RPL_CKPT_STATUS", 0x800204, 0x0, 1, [⟨"STATE", 0, 3, .ro, 0, true⟩,
    ⟨"FULL", 3, 1, .ro, 0, true⟩,
    ⟨"CUR_MAP", 4, 1, .ro, 0, true⟩,
    ⟨"FULL_NEXT", 5, 1, .ro, 1, true⟩,
    ⟨"ARMED", 6, 1, .ro, 0, true⟩]⟩,
  ⟨"RPL_CKPT_EVENT", 0x800208, 0x0, 1, [⟨"CUT", 0, 1, .w1c, 0, false⟩,
    ⟨"DONE", 1, 1, .w1c, 0, false⟩,
    ⟨"FAILED", 2, 1, .w1c, 0, false⟩,
    ⟨"SKIPPED", 3, 1, .w1c, 0, false⟩,
    ⟨"COW_STALL", 4, 1, .w1c, 0, false⟩,
    ⟨"RESTORE_DONE", 5, 1, .w1c, 0, false⟩,
    ⟨"RESTORE_FAIL", 6, 1, .w1c, 0, false⟩]⟩,
  ⟨"RPL_CKPT_CFG", 0x80020c, 0x0, 1, [⟨"CONTEXT", 0, 6, .rw, 0, true⟩,
    ⟨"BASE_EVERY", 6, 6, .rw, 8, true⟩,
    ⟨"RATE", 12, 16, .rw, 0, true⟩]⟩,
  ⟨"RPL_CKPT_TAB_LO", 0x800210, 0x0, 1, [⟨"VALID", 0, 1, .rw, 0, true⟩,
    ⟨"PA_LO", 14, 18, .rw, 0, true⟩]⟩]

def tableRPL2 : List Row := [
  ⟨"RPL_CKPT_TAB_HI", 0x800214, 0x0, 1, [⟨"PA_HI", 0, 8, .rw, 0, true⟩,
    ⟨"COUNT", 16, 9, .rw, 0, true⟩]⟩,
  ⟨"RPL_CKPT_DIG_LO", 0x800218, 0x0, 1, [⟨"PA_LO", 16, 16, .rw, 0, true⟩]⟩,
  ⟨"RPL_CKPT_DIG_HI", 0x80021c, 0x0, 1, [⟨"PA_HI", 0, 8, .rw, 0, true⟩]⟩,
  ⟨"RPL_CKPT_DIRTY_LO", 0x800220, 0x0, 1, [⟨"PA_LO", 16, 16, .rw, 0, true⟩]⟩,
  ⟨"RPL_CKPT_DIRTY_HI", 0x800224, 0x0, 1, [⟨"PA_HI", 0, 8, .rw, 0, true⟩]⟩,
  ⟨"RPL_CKPT_TGT_LO", 0x800228, 0x0, 1, [⟨"ADDR", 0, 32, .rw, 0, true⟩]⟩,
  ⟨"RPL_CKPT_TGT_HI", 0x80022c, 0x0, 1, [⟨"ADDR", 0, 32, .rw, 0, true⟩]⟩,
  ⟨"RPL_CKPT_TGT_CFG", 0x800230, 0x0, 1, [⟨"ENABLE", 0, 1, .rw, 0, true⟩,
    ⟨"KIND", 1, 1, .rw, 0, true⟩,
    ⟨"SIZE_LOG2", 2, 5, .rw, 8, true⟩,
    ⟨"MODULE", 8, 13, .rw, 0, true⟩,
    ⟨"TGT_LIMIT", 21, 11, .rw, 12, true⟩]⟩,
  ⟨"RPL_CKPT_JOB_LO", 0x800234, 0x0, 1, [⟨"JOB", 0, 32, .rw, 0, true⟩]⟩,
  ⟨"RPL_CKPT_JOB_HI", 0x800238, 0x0, 1, [⟨"JOB", 0, 32, .rw, 0, true⟩]⟩,
  ⟨"RPL_CKPT_SHARD", 0x80023c, 0x0, 1, [⟨"SHARD", 0, 32, .rw, 0, true⟩]⟩,
  ⟨"RPL_CKPT_EPOCH", 0x800240, 0x0, 1, [⟨"EPOCH", 0, 32, .rw, 1, true⟩]⟩,
  ⟨"RPL_CKPT_PREV", 0x800244, 0x0, 1, [⟨"EPOCH", 0, 31, .ro, 0, true⟩,
    ⟨"VALID", 31, 1, .ro, 0, true⟩]⟩,
  ⟨"RPL_CKPT_STEP_LO", 0x800248, 0x0, 1, [⟨"STEP", 0, 32, .rw, 0, true⟩]⟩,
  ⟨"RPL_CKPT_STEP_HI", 0x80024c, 0x0, 1, [⟨"STEP", 0, 32, .rw, 0, true⟩]⟩,
  ⟨"RPL_CKPT_PENDING", 0x800250, 0x0, 1, [⟨"PAGES", 0, 23, .ro, 0, true⟩]⟩,
  ⟨"RPL_CKPT_COPIED", 0x800254, 0x0, 1, [⟨"PAGES", 0, 23, .ro, 0, true⟩]⟩,
  ⟨"RPL_CKPT_SKIPPED", 0x800258, 0x0, 1, [⟨"PAGES", 0, 23, .ro, 0, true⟩]⟩,
  ⟨"RPL_CKPT_COW_CNT", 0x80025c, 0x0, 1, [⟨"COUNT", 0, 32, .ro, 0, true⟩]⟩,
  ⟨"RPL_CKPT_COW_STALL_CNT", 0x800260, 0x0, 1, [⟨"COUNT", 0, 32, .ro, 0, true⟩]⟩]

def tableRPL3 : List Row := [
  ⟨"RPL_CKPT_FLOW_STALL_CNT", 0x800264, 0x0, 1, [⟨"COUNT", 0, 32, .ro, 0, true⟩]⟩,
  ⟨"RPL_SHADOW_BASE_LO", 0x800270, 0x0, 1, [⟨"PA_LO", 16, 16, .rw, 0, true⟩]⟩,
  ⟨"RPL_SHADOW_BASE_HI", 0x800274, 0x0, 1, [⟨"PA_HI", 0, 8, .rw, 0, true⟩]⟩,
  ⟨"RPL_SHADOW_CFG", 0x800278, 0x0, 1, [⟨"PAGES", 0, 16, .rw, 0, true⟩,
    ⟨"IN_USE", 16, 16, .ro, 0, true⟩]⟩]

def tableRPL : List Row := tableRPL0 ++ tableRPL1 ++ tableRPL2 ++ tableRPL3

def tableBANK : List Row := [
  ⟨"RPL_STEP_CTRL", 0x100000004, 0x1000, 64, [⟨"ENABLE", 0, 1, .rw, 0, true⟩,
    ⟨"PHASE_OWNER", 1, 1, .rw, 0, true⟩,
    ⟨"ARM", 2, 1, .w1s, 0, true⟩,
    ⟨"CANCEL", 3, 1, .wo, 0, true⟩,
    ⟨"MAX_ATTEMPTS", 8, 4, .rw, 4, true⟩]⟩,
  ⟨"RPL_STEP_STATUS", 0x100000008, 0x1000, 64, [⟨"STATE", 0, 2, .ro, 0, true⟩,
    ⟨"DIRTY", 2, 1, .ro, 0, true⟩,
    ⟨"ARMED", 3, 1, .ro, 0, true⟩,
    ⟨"CLOSE_READY", 4, 1, .ro, 0, true⟩,
    ⟨"CARRY", 5, 1, .ro, 0, true⟩]⟩,
  ⟨"RPL_STEP_ATTEMPT", 0x10000000c, 0x1000, 64, [⟨"ATTEMPT", 0, 32, .ro, 0, true⟩]⟩,
  ⟨"RPL_STEP_NUM_LO", 0x100000010, 0x1000, 64, [⟨"STEP", 0, 32, .ro, 0, true⟩]⟩,
  ⟨"RPL_STEP_NUM_HI", 0x100000014, 0x1000, 64, [⟨"STEP", 0, 32, .ro, 0, true⟩]⟩,
  ⟨"RPL_STEP_OPEN_LO", 0x100000018, 0x1000, 64, [⟨"FRAME", 0, 32, .rw, 0, true⟩]⟩,
  ⟨"RPL_STEP_OPEN_HI", 0x10000001c, 0x1000, 64, [⟨"FRAME", 0, 32, .rw, 0, true⟩]⟩,
  ⟨"RPL_STEP_NEXT_LO", 0x100000020, 0x1000, 64, [⟨"STEP", 0, 32, .rw, 0, true⟩]⟩,
  ⟨"RPL_STEP_NEXT_HI", 0x100000024, 0x1000, 64, [⟨"STEP", 0, 32, .rw, 0, true⟩]⟩,
  ⟨"RPL_STEP_CLOSE_LO", 0x100000028, 0x1000, 64, [⟨"FRAME", 0, 32, .ro, 0, true⟩]⟩,
  ⟨"RPL_STEP_CLOSE_HI", 0x10000002c, 0x1000, 64, [⟨"FRAME", 0, 32, .ro, 0, true⟩]⟩,
  ⟨"RPL_STEP_VOTE", 0x100000030, 0x1000, 64, [⟨"OWN", 0, 8, .ro, 255, true⟩,
    ⟨"SLICE", 16, 8, .ro, 0, true⟩]⟩,
  ⟨"RPL_GRAD_BASE_LO", 0x100000034, 0x1000, 64, [⟨"VALID", 0, 1, .rw, 0, true⟩,
    ⟨"PA_LO", 18, 14, .rw, 0, true⟩]⟩,
  ⟨"RPL_GRAD_BASE_HI", 0x100000038, 0x1000, 64, [⟨"PA_HI", 0, 8, .rw, 0, true⟩,
    ⟨"COUNT", 16, 14, .rw, 0, true⟩]⟩,
  ⟨"RPL_REPLAY_STATUS", 0x100000100, 0x1000, 64, [⟨"STATE", 0, 2, .ro, 0, true⟩,
    ⟨"RESTORE_FAIL", 2, 1, .ro, 0, true⟩,
    ⟨"HOLD", 3, 1, .ro, 0, true⟩]⟩,
  ⟨"RPL_REPLAY_CTRL", 0x100000104, 0x1000, 64, [⟨"DISCARD", 0, 1, .wo, 0, true⟩,
    ⟨"ARRIVE", 1, 1, .wo, 0, true⟩]⟩]

def tableINT0 : List Row := [
  ⟨"INT_CTRL", 0x700000, 0x0, 1, [⟨"DUP_EN", 0, 1, .rw, 1, true⟩,
    ⟨"BAND_EN", 1, 1, .rw, 1, true⟩,
    ⟨"TEST_EN", 2, 1, .rw, 1, true⟩]⟩,
  ⟨"INT_STATUS", 0x700004, 0x0, 1, [⟨"DUP_PENDING", 0, 16, .ro, 0, false⟩,
    ⟨"TEST_RUNNING", 16, 1, .ro, 0, false⟩,
    ⟨"PACKS", 17, 7, .ro, 0, false⟩]⟩,
  ⟨"INT_EVENT", 0x700008, 0x0, 1, [⟨"CHECK_FAIL", 0, 1, .w1c, 0, false⟩,
    ⟨"PARITY", 1, 1, .w1c, 0, false⟩,
    ⟨"DUP_MISMATCH", 2, 1, .w1c, 0, false⟩,
    ⟨"DUP_SKIP", 3, 1, .w1c, 0, false⟩,
    ⟨"DIGEST_MISMATCH", 4, 1, .w1c, 0, false⟩,
    ⟨"PROBATION", 5, 1, .w1c, 0, false⟩,
    ⟨"REMOVE", 6, 1, .w1c, 0, false⟩,
    ⟨"TEST_FAIL", 7, 1, .w1c, 0, false⟩,
    ⟨"PACK_REJECT", 8, 1, .w1c, 0, false⟩,
    ⟨"CPER_OVERWRITE", 9, 1, .w1c, 0, false⟩]⟩,
  ⟨"INT_DUP_CFG", 0x70000c, 0x0, 1, [⟨"LIMIT", 0, 16, .rw, 2048, true⟩,
    ⟨"BAND_C", 16, 4, .rw, 3, true⟩,
    ⟨"BAND_DAYS", 20, 8, .rw, 30, true⟩]⟩,
  ⟨"INT_TEST_CFG", 0x700010, 0x0, 1, [⟨"SHARE", 0, 10, .rw, 4, true⟩,
    ⟨"ADMIT_MS", 10, 16, .rw, 1000, true⟩]⟩,
  ⟨"INT_HEALTH_SEL", 0x700014, 0x0, 1, [⟨"KIND", 0, 2, .rw, 0, false⟩,
    ⟨"INDEX", 2, 8, .rw, 0, false⟩]⟩,
  ⟨"INT_HEALTH_DATA", 0x700018, 0x0, 1, [⟨"SCORE", 0, 10, .rw, 1000, true⟩,
    ⟨"PROBATION", 10, 1, .ro, 0, true⟩,
    ⟨"REMOVE", 11, 1, .ro, 0, true⟩,
    ⟨"BAND", 12, 1, .ro, 0, true⟩,
    ⟨"S_EFF", 13, 5, .ro, 10, true⟩]⟩,
  ⟨"INT_DIGEST_FAULT", 0x70001c, 0x0, 1, [⟨"CONTEXT", 0, 6, .rw, 0, true⟩,
    ⟨"RELATION", 6, 2, .rw, 0, true⟩,
    ⟨"PEER", 8, 13, .rw, 0, true⟩,
    ⟨"GO", 31, 1, .w1s, 0, true⟩]⟩,
  ⟨"INT_CHECK_FAIL_CNT", 0x700020, 0x0, 1, [⟨"COUNT", 0, 32, .ro, 0, false⟩]⟩,
  ⟨"INT_PARITY_CNT", 0x700024, 0x0, 1, [⟨"COUNT", 0, 32, .ro, 0, false⟩]⟩,
  ⟨"INT_DUP_SAMPLED_LO", 0x700028, 0x0, 1, [⟨"COUNT_LO", 0, 32, .ro, 0, false⟩]⟩,
  ⟨"INT_DUP_SAMPLED_HI", 0x70002c, 0x0, 1, [⟨"COUNT_HI", 0, 32, .ro, 0, false⟩]⟩,
  ⟨"INT_DUP_MISMATCH_CNT", 0x700030, 0x0, 1, [⟨"COUNT", 0, 32, .ro, 0, false⟩]⟩,
  ⟨"INT_DUP_SKIP_CNT", 0x700034, 0x0, 1, [⟨"COUNT", 0, 32, .ro, 0, false⟩]⟩,
  ⟨"INT_DIGEST_MISMATCH_CNT", 0x700038, 0x0, 1, [⟨"COUNT", 0, 32, .ro, 0, false⟩]⟩,
  ⟨"INT_TEST_RUN_CNT", 0x70003c, 0x0, 1, [⟨"COUNT", 0, 32, .ro, 0, false⟩]⟩,
  ⟨"INT_TEST_FAIL_CNT", 0x700040, 0x0, 1, [⟨"COUNT", 0, 32, .ro, 0, false⟩]⟩,
  ⟨"INT_DUPQ_BASE_LO", 0x700100, 0x10, 4, [⟨"PA_LO", 20, 12, .rw, 0, true⟩]⟩,
  ⟨"INT_DUPQ_BASE_HI", 0x700104, 0x10, 4, [⟨"PA_HI", 0, 8, .rw, 0, true⟩]⟩,
  ⟨"INT_DUPQ_SIZE", 0x700108, 0x10, 4, [⟨"MIB", 0, 16, .rw, 0, true⟩]⟩]

def tableINT1 : List Row := [
  ⟨"INT_DUPQ_FILL", 0x70010c, 0x10, 4, [⟨"MIB", 0, 16, .ro, 0, false⟩]⟩,
  ⟨"INT_CTX_CFG", 0x700800, 0x10, 64, [⟨"MODE", 0, 1, .rw, 0, true⟩,
    ⟨"S", 1, 5, .rw, 10, true⟩]⟩]

def tableINT : List Row := tableINT0 ++ tableINT1

def tableHRC0 : List Row := [
  ⟨"HRC_CTRL", 0x900000, 0x0, 1, [⟨"HB_EN", 0, 1, .rw, 1, true⟩,
    ⟨"AUTO_RESET", 1, 1, .rw, 1, true⟩,
    ⟨"DUMP_EN", 2, 1, .rw, 1, true⟩,
    ⟨"LINK_STALL_EN", 3, 1, .rw, 1, true⟩]⟩,
  ⟨"HRC_STATUS", 0x900004, 0x0, 1, [⟨"DUMP_BUSY", 0, 1, .ro, 0, false⟩,
    ⟨"RECOVERING", 1, 1, .ro, 0, false⟩,
    ⟨"OUT_OF_SERVICE", 2, 1, .ro, 0, false⟩,
    ⟨"FLOG_FULL", 3, 1, .ro, 0, false⟩,
    ⟨"CORES_IN_RESET", 4, 8, .ro, 0, false⟩,
    ⟨"CLUSTERS_IN_RESET", 12, 6, .ro, 0, false⟩]⟩,
  ⟨"HRC_EVENT", 0x900008, 0x0, 1, [⟨"CORE_HANG", 0, 1, .w1c, 0, false⟩,
    ⟨"LINK_STALL", 1, 1, .w1c, 0, false⟩,
    ⟨"CORE_RESET", 2, 1, .w1c, 0, false⟩,
    ⟨"CLUSTER_RESET", 3, 1, .w1c, 0, false⟩,
    ⟨"MODULE_RECOVERY", 4, 1, .w1c, 0, false⟩,
    ⟨"ESC_FENCE", 5, 1, .w1c, 0, false⟩,
    ⟨"ESC_REPLACE", 6, 1, .w1c, 0, false⟩,
    ⟨"OUT_OF_SERVICE", 7, 1, .w1c, 0, false⟩,
    ⟨"DUMP_DONE", 8, 1, .w1c, 0, false⟩,
    ⟨"DUMP_MISSED", 9, 1, .w1c, 0, false⟩,
    ⟨"FLOG_LOST", 10, 1, .w1c, 0, false⟩,
    ⟨"DRAIN_DONE", 11, 1, .w1c, 0, false⟩,
    ⟨"FW_WDOG", 12, 1, .w1c, 0, false⟩]⟩,
  ⟨"HRC_HB_CFG", 0x90000c, 0x0, 1, [⟨"MISS", 0, 4, .rw, 2, true⟩]⟩,
  ⟨"HRC_ESC_CORE", 0x900010, 0x0, 1, [⟨"COUNT", 0, 4, .rw, 3, true⟩,
    ⟨"WINDOW_S", 8, 24, .rw, 600, true⟩]⟩,
  ⟨"HRC_ESC_CLUSTER", 0x900014, 0x0, 1, [⟨"COUNT", 0, 4, .rw, 2, true⟩,
    ⟨"WINDOW_S", 8, 24, .rw, 3600, true⟩]⟩,
  ⟨"HRC_ESC_MODULE", 0x900018, 0x0, 1, [⟨"COUNT", 0, 4, .rw, 3, true⟩,
    ⟨"WINDOW_S", 8, 24, .rw, 86400, true⟩]⟩,
  ⟨"HRC_ESC_STATUS", 0x90001c, 0x0, 1, [⟨"FENCE_REQ", 0, 1, .w1c, 0, true⟩,
    ⟨"DIE", 1, 2, .ro, 0, true⟩,
    ⟨"CLUSTER", 3, 4, .ro, 0, true⟩,
    ⟨"REPLACE_REQ", 7, 1, .w1c, 0, true⟩]⟩,
  ⟨"HRC_RESET_CTRL", 0x900020, 0x0, 1, [⟨"KIND", 0, 2, .rw, 0, true⟩,
    ⟨"INDEX", 2, 8, .rw, 0, true⟩,
    ⟨"GO", 31, 1, .w1s, 0, true⟩]⟩,
  ⟨"HRC_FW_KICK", 0x900024, 0x0, 1, [⟨"KICK", 0, 32, .wo, 0, true⟩]⟩,
  ⟨"HRC_FW_WDOG", 0x900028, 0x0, 1, [⟨"FRAMES", 0, 32, .rw, 24414, true⟩]⟩,
  ⟨"HRC_DUMP_CTRL", 0x900030, 0x0, 1, [⟨"SCOPE", 0, 2, .wo, 0, false⟩,
    ⟨"INDEX", 2, 8, .wo, 0, false⟩,
    ⟨"GO", 10, 1, .wo, 0, false⟩,
    ⟨"ACK0", 11, 1, .wo, 0, false⟩,
    ⟨"ACK1", 12, 1, .wo, 0, false⟩]⟩,
  ⟨"HRC_DUMP_STATUS", 0x900034, 0x0, 1, [⟨"SLOT0", 0, 2, .ro, 0, false⟩,
    ⟨"SLOT1", 2, 2, .ro, 0, false⟩,
    ⟨"BUSY", 4, 1, .ro, 0, false⟩,
    ⟨"WAITING", 5, 1, .ro, 0, false⟩,
    ⟨"MISSED", 16, 16, .ro, 0, false⟩]⟩,
  ⟨"HRC_DUMP_PAGE", 0x900038, 0x0, 1, [⟨"SLOT", 0, 1, .rw, 0, false⟩,
    ⟨"PAGE", 1, 3, .rw, 0, false⟩]⟩,
  ⟨"HRC_RST_CORE", 0x900040, 0x4, 5, [⟨"CORES", 0, 32, .ro, 0, false⟩]⟩,
  ⟨"HRC_RST_CL0", 0x900054, 0x0, 1, [⟨"CLUSTERS", 0, 32, .ro, 0, false⟩]⟩,
  ⟨"HRC_RST_CL1", 0x900058, 0x0, 1, [⟨"CLUSTERS", 0, 4, .ro, 0, false⟩]⟩,
  ⟨"HRC_FLOG_LO", 0x900060, 0x0, 1, [⟨"BASE_LO", 12, 20, .rw, 0, false⟩]⟩,
  ⟨"HRC_FLOG_HI", 0x900064, 0x0, 1, [⟨"BASE_HI", 0, 32, .rw, 0, false⟩]⟩,
  ⟨"HRC_FLOG_CB_LO", 0x900068, 0x0, 1, [⟨"BASE_LO", 6, 26, .rw, 0, false⟩]⟩]

def tableHRC1 : List Row := [
  ⟨"HRC_FLOG_CB_HI", 0x90006c, 0x0, 1, [⟨"BASE_HI", 0, 32, .rw, 0, false⟩]⟩,
  ⟨"HRC_FLOG_CFG", 0x900070, 0x0, 1, [⟨"ENABLE", 0, 1, .rw, 0, false⟩,
    ⟨"SIZE_LOG2", 1, 5, .rw, 6, false⟩,
    ⟨"IRQ_EN", 6, 1, .rw, 0, false⟩]⟩,
  ⟨"HRC_FLOG_PI", 0x900074, 0x0, 1, [⟨"PI", 0, 32, .ro, 0, false⟩]⟩,
  ⟨"HRC_HANG_CNT", 0x900080, 0x0, 1, [⟨"COUNT", 0, 32, .ro, 0, false⟩]⟩,
  ⟨"HRC_CORE_RST_CNT", 0x900084, 0x0, 1, [⟨"COUNT", 0, 32, .ro, 0, false⟩]⟩,
  ⟨"HRC_CLUSTER_RST_CNT", 0x900088, 0x0, 1, [⟨"COUNT", 0, 32, .ro, 0, false⟩]⟩,
  ⟨"HRC_MODULE_REC_CNT", 0x90008c, 0x0, 1, [⟨"COUNT", 0, 32, .ro, 0, false⟩]⟩,
  ⟨"HRC_STALE_CNT", 0x900090, 0x0, 1, [⟨"COUNT", 0, 32, .ro, 0, false⟩]⟩,
  ⟨"HRC_UNREADABLE_CNT", 0x900094, 0x0, 1, [⟨"COUNT", 0, 32, .ro, 0, false⟩]⟩,
  ⟨"HRC_FLOG_LOST_CNT", 0x900098, 0x0, 1, [⟨"COUNT", 0, 32, .ro, 0, false⟩]⟩,
  ⟨"HRC_NOTICE_DROP_CNT", 0x90009c, 0x0, 1, [⟨"COUNT", 0, 32, .ro, 0, false⟩]⟩]

def tableHRC : List Row := tableHRC0 ++ tableHRC1

def tableSEC : List Row := [
  ⟨"SEC_STATUS", 0xa00000, 0x0, 1, [⟨"SEC_STATE", 0, 2, .ro, 0, false⟩,
    ⟨"DEBUG", 2, 2, .ro, 0, false⟩,
    ⟨"POWER", 4, 3, .ro, 2, false⟩,
    ⟨"HOST_VIEW", 7, 1, .ro, 1, false⟩,
    ⟨"FW_STARTED", 8, 1, .ro, 0, false⟩,
    ⟨"FW_HALF", 9, 1, .ro, 0, false⟩,
    ⟨"ZEROING", 10, 1, .ro, 0, false⟩]⟩,
  ⟨"SEC_EVENT", 0xa00004, 0x0, 1, [⟨"STATE_CHANGE", 0, 1, .w1c, 0, false⟩,
    ⟨"DEBUG_CHANGE", 1, 1, .w1c, 0, false⟩,
    ⟨"FW_REJECT", 2, 1, .w1c, 0, false⟩,
    ⟨"KEY_RELEASED", 3, 1, .w1c, 0, false⟩,
    ⟨"KEY_ERASED", 4, 1, .w1c, 0, false⟩,
    ⟨"SEAL_VIOLATION", 5, 1, .w1c, 0, false⟩,
    ⟨"THROTTLE", 6, 1, .w1c, 0, false⟩,
    ⟨"PWR_LIMIT", 7, 1, .w1c, 0, false⟩,
    ⟨"OVERCURRENT", 8, 1, .w1c, 0, false⟩,
    ⟨"THERMAL", 9, 1, .w1c, 0, false⟩]⟩,
  ⟨"SEC_FW_STATUS", 0xa00008, 0x0, 1, [⟨"RESULT", 0, 4, .ro, 0, false⟩,
    ⟨"SVN_MIN", 8, 24, .ro, 0, false⟩]⟩,
  ⟨"SEC_WKEY", 0xa0000c, 0x0, 1, [⟨"VALID", 0, 16, .ro, 0, false⟩]⟩,
  ⟨"SEC_SEAL_VIOL_CNT", 0xa00010, 0x0, 1, [⟨"COUNT", 0, 32, .ro, 0, false⟩]⟩,
  ⟨"SEC_PWR_READ", 0xa00040, 0x0, 1, [⟨"WATTS", 0, 16, .ro, 0, false⟩]⟩,
  ⟨"SEC_PWR_LIMIT", 0xa00044, 0x0, 1, [⟨"WATTS", 0, 16, .rw, 3600, true⟩,
    ⟨"HYST_W", 16, 16, .rw, 100, true⟩]⟩,
  ⟨"SEC_DUTY", 0xa00048, 0x0, 1, [⟨"DIE0", 0, 8, .ro, 64, false⟩,
    ⟨"DIE1", 8, 8, .ro, 64, false⟩,
    ⟨"DIE2", 16, 8, .ro, 64, false⟩,
    ⟨"DIE3", 24, 8, .ro, 64, false⟩]⟩,
  ⟨"SEC_DUTY_CFG", 0xa0004c, 0x0, 1, [⟨"MIN_DUTY", 0, 7, .rw, 8, true⟩,
    ⟨"STEP_DOWN", 7, 4, .rw, 4, true⟩,
    ⟨"STEP_UP", 11, 4, .rw, 1, true⟩,
    ⟨"TJ_THROTTLE", 15, 8, .rw, 100, true⟩,
    ⟨"TJ_RELEASE", 23, 8, .rw, 95, true⟩]⟩,
  ⟨"SEC_TEMP", 0xa00050, 0x0, 1, [⟨"DIE0", 0, 8, .ro, 0, false⟩,
    ⟨"DIE1", 8, 8, .ro, 0, false⟩,
    ⟨"DIE2", 16, 8, .ro, 0, false⟩,
    ⟨"DIE3", 24, 8, .ro, 0, false⟩]⟩,
  ⟨"SEC_THROTTLE_CNT", 0xa00054, 0x0, 1, [⟨"COUNT", 0, 32, .ro, 0, false⟩]⟩,
  ⟨"SEC_WKEY_SLOT", 0xa00100, 0x4, 16, [⟨"CONTEXT", 0, 6, .ro, 0, false⟩,
    ⟨"VALID", 6, 1, .ro, 0, false⟩,
    ⟨"GENERATION", 16, 16, .ro, 0, false⟩]⟩]

def tableSNP : List Row := [
  ⟨"SNP_CTRL", 0xc00000, 0x0, 1, [⟨"TRIG_IN_EN", 0, 1, .rw, 0, true⟩,
    ⟨"TRIG_SLICE", 1, 1, .rw, 0, true⟩,
    ⟨"TRIG_OUT_EN", 2, 1, .rw, 0, true⟩,
    ⟨"LEAD", 3, 4, .rw, 3, true⟩]⟩,
  ⟨"SNP_STATUS", 0xc00004, 0x0, 1, [⟨"ARMED", 0, 1, .ro, 0, false⟩,
    ⟨"VALID", 1, 1, .ro, 0, false⟩,
    ⟨"LAST_SRC", 2, 2, .ro, 0, false⟩,
    ⟨"BLOCKS", 4, 10, .ro, 0, false⟩]⟩,
  ⟨"SNP_EVENT", 0xc00008, 0x0, 1, [⟨"CAPTURED", 0, 1, .w1c, 0, false⟩,
    ⟨"MISSED", 1, 1, .w1c, 0, false⟩,
    ⟨"CONFLICT", 2, 1, .w1c, 0, false⟩,
    ⟨"LATE", 3, 1, .w1c, 0, false⟩]⟩,
  ⟨"SNP_ARM_LO", 0xc0000c, 0x0, 1, [⟨"FRAME_LO", 0, 32, .rw, 0, false⟩]⟩,
  ⟨"SNP_ARM_HI", 0xc00010, 0x0, 1, [⟨"FRAME_HI", 0, 32, .rw, 0, false⟩]⟩,
  ⟨"SNP_LAST_LO", 0xc00014, 0x0, 1, [⟨"FRAME", 0, 32, .ro, 0, false⟩]⟩,
  ⟨"SNP_LAST_HI", 0xc00018, 0x0, 1, [⟨"FRAME", 0, 32, .ro, 0, false⟩]⟩,
  ⟨"SNP_INDEX_SEL", 0xc0001c, 0x0, 1, [⟨"ENTRY", 0, 10, .rw, 0, false⟩]⟩,
  ⟨"SNP_INDEX_DATA", 0xc00020, 0x0, 1, [⟨"BLOCK", 0, 16, .ro, 0, false⟩,
    ⟨"SIZE", 16, 12, .ro, 0, false⟩,
    ⟨"VALID", 28, 1, .ro, 0, false⟩]⟩,
  ⟨"SNP_CAPTURE_CNT", 0xc00024, 0x0, 1, [⟨"COUNT", 0, 32, .ro, 0, false⟩]⟩,
  ⟨"SNP_MISSED_CNT", 0xc00028, 0x0, 1, [⟨"COUNT", 0, 32, .ro, 0, false⟩]⟩,
  ⟨"SNP_CONFLICT_CNT", 0xc0002c, 0x0, 1, [⟨"COUNT", 0, 32, .ro, 0, false⟩]⟩]

def tableGLB : List Row := [
  ⟨"GLB_ID", 0x0, 0x0, 1, [⟨"PART", 0, 16, .ro, 18454, false⟩,
    ⟨"STEPPING", 16, 4, .ro, 1, false⟩]⟩,
  ⟨"GLB_SERIAL_LO", 0x4, 0x0, 1, [⟨"SERIAL", 0, 32, .ro, 0, false⟩]⟩,
  ⟨"GLB_SERIAL_HI", 0x8, 0x0, 1, [⟨"SERIAL", 0, 32, .ro, 0, false⟩]⟩,
  ⟨"GLB_STATUS", 0xc, 0x0, 1, [⟨"PWR_OK", 0, 1, .ro, 1, false⟩,
    ⟨"RELAY", 1, 1, .ro, 1, false⟩,
    ⟨"RELAY_READY", 2, 1, .ro, 0, false⟩,
    ⟨"TRIG_IN", 3, 1, .ro, 0, false⟩,
    ⟨"TRIG_STUCK", 4, 1, .ro, 0, false⟩,
    ⟨"REF_VALID", 5, 1, .ro, 0, false⟩,
    ⟨"PPS_VALID", 6, 1, .ro, 0, false⟩]⟩,
  ⟨"GLB_EVENT", 0x10, 0x0, 1, [⟨"TRIG_STUCK", 0, 1, .w1c, 0, false⟩,
    ⟨"TRIG_IGNORED", 1, 1, .w1c, 0, false⟩,
    ⟨"PPS_BAD", 2, 1, .w1c, 0, false⟩,
    ⟨"REF_LOSS", 3, 1, .w1c, 0, false⟩,
    ⟨"UNDERVOLT", 4, 1, .w1c, 0, false⟩,
    ⟨"FW_SWAP_DONE", 5, 1, .w1c, 0, false⟩,
    ⟨"CAL_DONE", 6, 1, .w1c, 0, false⟩,
    ⟨"CAL_FAIL", 7, 1, .w1c, 0, false⟩]⟩,
  ⟨"GLB_RESET_CAUSE", 0x14, 0x0, 1, [⟨"CAUSE", 0, 4, .ro, 0, false⟩]⟩,
  ⟨"GLB_INPUT", 0x18, 0x0, 1, [⟨"VIN", 0, 16, .ro, 0, false⟩,
    ⟨"IIN", 16, 16, .ro, 0, false⟩]⟩,
  ⟨"GLB_FW_CTRL", 0x20, 0x0, 1, [⟨"HALF", 0, 1, .rw, 0, false⟩,
    ⟨"LOAD", 1, 1, .w1s, 0, false⟩,
    ⟨"START", 2, 1, .w1s, 0, false⟩,
    ⟨"SWAP", 3, 1, .w1s, 0, true⟩]⟩,
  ⟨"GLB_FW_STATUS", 0x24, 0x0, 1, [⟨"BUSY", 0, 1, .ro, 0, false⟩,
    ⟨"LOADED_A", 1, 1, .ro, 0, false⟩,
    ⟨"LOADED_B", 2, 1, .ro, 0, false⟩,
    ⟨"VERIFIED_A", 3, 1, .ro, 0, false⟩,
    ⟨"VERIFIED_B", 4, 1, .ro, 0, false⟩,
    ⟨"GOOD_A", 5, 1, .ro, 0, false⟩,
    ⟨"GOOD_B", 6, 1, .ro, 0, false⟩,
    ⟨"SWAP_PENDING", 7, 1, .ro, 0, false⟩,
    ⟨"RESULT", 8, 4, .ro, 0, false⟩]⟩,
  ⟨"GLB_FW_SRC_LO", 0x28, 0x0, 1, [⟨"ADDR_LO", 12, 20, .rw, 0, false⟩]⟩,
  ⟨"GLB_FW_SRC_HI", 0x2c, 0x0, 1, [⟨"ADDR_HI", 0, 32, .rw, 0, false⟩]⟩,
  ⟨"GLB_FW_LEN", 0x30, 0x0, 1, [⟨"BYTES", 0, 22, .rw, 0, false⟩]⟩,
  ⟨"GLB_FW_SWAP_LO", 0x34, 0x0, 1, [⟨"FRAME", 0, 32, .rw, 0, true⟩]⟩,
  ⟨"GLB_FW_SWAP_HI", 0x38, 0x0, 1, [⟨"FRAME", 0, 32, .rw, 0, true⟩]⟩,
  ⟨"GLB_FW_HO_LO", 0x3c, 0x0, 1, [⟨"PA_LO", 16, 16, .rw, 0, true⟩]⟩,
  ⟨"GLB_FW_HO_HI", 0x40, 0x0, 1, [⟨"PA_HI", 0, 8, .rw, 0, true⟩]⟩,
  ⟨"GLB_CAL_CTRL", 0x48, 0x0, 1, [⟨"KIND", 0, 1, .rw, 0, true⟩,
    ⟨"INDEX", 1, 5, .rw, 0, true⟩,
    ⟨"GO", 6, 1, .w1s, 0, true⟩,
    ⟨"BUSY", 7, 1, .ro, 0, true⟩,
    ⟨"DONE", 8, 1, .ro, 0, true⟩,
    ⟨"FAIL", 9, 1, .ro, 0, true⟩]⟩,
  ⟨"GLB_TRIG_IGN_CNT", 0x4c, 0x0, 1, [⟨"COUNT", 0, 32, .ro, 0, false⟩]⟩,
  ⟨"GLB_PPS_BAD_CNT", 0x50, 0x0, 1, [⟨"COUNT", 0, 32, .ro, 0, false⟩]⟩]

/-- The table of the block that holds an address (R499: 1 MiB a block; per-core blocks above 0x0100_0000). -/
def tableAt (a : Nat) : List Row :=
  if a ≥ 0x100000000 then tableBANK
  else if a ≥ 0x1000000 then tableCORE
  else match a / 0x100000 with
    | 0 => tableGLB | 1 => tableFTB | 2 => tableSUB | 3 => tableSYN | 4 => tableMEM | 5 => tableOPT
    | 6 => tableSWT | 7 => tableINT | 8 => tableRPL | 9 => tableHRC | 10 => tableSEC | 11 => tableMBX
    | 12 => tableSNP | _ => []

/-- Whether address `a` is one of the row's copies. -/
def Row.holds (r : Row) (a : Nat) : Bool :=
  if r.count = 1 then a == r.base
  else r.base ≤ a && (a - r.base) % r.stride == 0 && (a - r.base) / r.stride < r.count

/-- Which copy address `a` is. -/
def Row.index (r : Row) (a : Nat) : Nat := if r.count = 1 then 0 else (a - r.base) / r.stride

/-- The register at an address, none outside a defined register (R499). -/
def rowAt (a : Nat) : Option Row := (tableAt a).find? (·.holds a)

/-- The reset values that depend on the register's index: WL_SRC resets to k, PARK to 1 for LC18
(R270), MBX_CHn_CFG to the endpoints of R200. -/
def resetByIndex (a : Nat) : Option Nat :=
  if 0x500300 ≤ a ∧ a < 0x500348 then some ((a - 0x500300) / 4)
  else if a = 0x500220 then some 2
  else if 0xb00010 ≤ a ∧ a < 0xb00400 ∧ (a - 0xb00010) % 0x20 = 0 then
    let n := (a - 0xb00010) / 0x20
    some (if n < 16 then 0x1000 + (0x2000 + n % 8) * 0x10000
          else if n < 24 then (0x2000 + (n - 16)) + 0x3000 * 0x10000
          else (0x2000 + (n - 24)) + (0x2000 + (n - 23) % 8) * 0x10000)
  else none

/-- The reset value of the register at an address; 0 outside a defined register. -/
def resetOf (a : Nat) : BitVec 32 :=
  if a = GLB_SERIAL_LO then Config.serial 0 else if a = GLB_SERIAL_HI then Config.serial 1 else
  match resetByIndex a with
  | some v => BitVec.ofNat 32 v
  | none =>
    match rowAt a with
    | none => 0
    | some r => BitVec.ofNat 32 ((r.fields.map fun f => f.reset % 2 ^ f.w * 2 ^ f.lo).foldl (· + ·) 0)

/-- A register the manual marks as a counter (R462): its name ends in CNT, or it is a half of a
64-bit counter (R112, R132, R364). -/
def isCounter (r : Row) : Bool :=
  r.name.endsWith "_CNT" || ["CORE_MX_PASS_LO", "CORE_MX_PASS_HI", "CORE_VX_ELEM_LO", "CORE_VX_ELEM_HI",
    "INT_DUP_SAMPLED_LO", "INT_DUP_SAMPLED_HI", "MEM_NM_CE_CNT", "RPL_CKPT_COPIED", "RPL_CKPT_SKIPPED"].contains r.name

end Sys2Proof.Reg
end

