-- ==== Sys2Proof/Machine/Sparse.lean ====
section
/-! DEFINITION. Sparse maps from numbers in one canonical form: keys strictly rising, no entry equal to
the value d k that an unlisted key k holds. Memory and every register file of the model are such maps. -/
namespace Sys2Proof

variable {β : Type}

/-- What key k holds. -/
def sget (d : Nat → β) : Sparse β → Nat → β
  | [], k => d k
  | (a, v) :: m, k => if k = a then v else if k < a then d k else sget d m k

/-- m with key k holding v; writing what an unlisted key holds removes the entry. -/
def sset [DecidableEq β] (d : Nat → β) : Sparse β → Nat → β → Sparse β
  | [], k, v => if v = d k then [] else [(k, v)]
  | (a, w) :: m, k, v =>
    if k < a then (if v = d k then (a, w) :: m else (k, v) :: (a, w) :: m)
    else if k = a then (if v = d k then m else (k, v) :: m)
    else (a, w) :: sset d m k v

/-- m with every key of [lo, hi) back at what an unlisted key holds. -/
def sclear (m : Sparse β) (lo hi : Nat) : Sparse β := m.filter fun e => e.1 < lo || hi ≤ e.1

/-- The entries of m in [lo, hi). -/
def sslice (m : Sparse β) (lo hi : Nat) : Sparse β := m.filter fun e => lo ≤ e.1 && e.1 < hi

/-- The canonical form, checked: every key is at least lo, keys rise, and no value is the default. -/
def swfFrom [DecidableEq β] (d : Nat → β) : Nat → Sparse β → Bool
  | _, [] => true
  | lo, (a, v) :: m => lo ≤ a && v != d a && swfFrom d (a + 1) m

/-- The canonical form of a sparse map. -/
def swf [DecidableEq β] (d : Nat → β) (m : Sparse β) : Bool := swfFrom d 0 m

/-- Insert by a key, before what has the same key; and a list sorted by a key, equal keys in their order. -/
def insertOn {α : Type} (f : α → Nat) (a : α) : List α → List α
  | [] => [a]
  | b :: l => if f a ≤ f b then a :: b :: l else b :: insertOn f a l
def sortOn {α : Type} (f : α → Nat) (l : List α) : List α := l.foldr (insertOn f) []

end Sys2Proof
end

