-- ==== Sys2Proof/Machine/Gcm.lean ====
section
/-! DEFINITION. AES-256-GCM, which R301, R457, R459 and R465 name: the algorithm as its standard defines it (log entry
130). Bytes are natural numbers below 256, in the order in which they are sent. -/
namespace Sys2Proof.Gcm

/-- The substitution box of AES, 32 entries a number: entry k in its bits [8k+7:8k]. -/
def sboxRows : List Nat :=
  [0xC072A49CAFA2D4ADF04759FA7DC982CA76ABD7FE2B670130C56F6BF27B777C63,
   0x75B227EBE28012079A059618C323C7041531D871F1E5A534CCF73F362693FDB7,
   0xCF584C4A39BECB6A5BB1FC20ED00D153842FE329B3D63B52A05A6E1B1A2C8309,
   0xD2F3FF1021DAB6BCF5389D928F40A351A89F3C507F02F94585334D43FBAAEFD0,
   0xDB0B5EDE14B8EE4688902A22DC4F816073195D643D7EA7C41744975FEC130CCD,
   0x08AE7A65EAF4566CA94ED58D6D37C8E779E4959162ACD3C25C2406490A3A32E0,
   0x9E1DC186B95735610EF6034866B53E708A8BBD4B1F74DDE8C6B4A61C2E2578BA,
   0x16BB54B00F2D99416842E6BF0D89A18CDF2855CEE9871E9B948ED9691198F8E1]

def sub (b : Nat) : Nat := sboxRows.getD (b / 32) 0 / 256 ^ (b % 32) % 256

/-- Multiplication by x in the field of AES. -/
def xtime (b : Nat) : Nat := if b < 128 then 2 * b else (2 * b) ^^^ 0x11B

def xorBytes (a b : List Nat) : List Nat := List.zipWith (· ^^^ ·) a b

/-- The next word of the key schedule, word i of 60, from the word before it and the one eight before it. -/
def nextWord (i rcon : Nat) (last old : List Nat) : List Nat :=
  let t := if i % 8 = 0 then xorBytes ((last.drop 1 ++ last.take 1).map sub) [rcon, 0, 0, 0]
    else if i % 8 = 4 then last.map sub
    else last
  xorBytes old t

/-- Words n from word i on, newest first in `ws`. -/
def expand : Nat → Nat → Nat → List (List Nat) → List (List Nat)
  | 0, _, _, ws => ws
  | n + 1, i, rcon, ws =>
    expand n (i + 1) (if i % 8 = 0 then xtime rcon else rcon) (nextWord i rcon (ws.headD []) (ws.getD 7 []) :: ws)

def cut4 : List Nat → List (List Nat)
  | a :: b :: c :: d :: l => [a, b, c, d] :: cut4 l
  | _ => []

/-- The fifteen round keys of a 32-byte key, each of 16 bytes. -/
def roundKeys (key : List Nat) : List (List Nat) :=
  let ws := (expand 52 8 1 (cut4 key).reverse).reverse
  (List.range 15).map fun r => ((ws.drop (4 * r)).take 4).flatten

/-- The rows of the state shifted: byte k comes from byte 5 k mod 16. -/
def shiftRows (s : List Nat) : List Nat := (List.range 16).map fun k => s.getD (5 * k % 16) 0

def mixColumn : List Nat → List Nat
  | [a, b, c, d] =>
    let t := a ^^^ b ^^^ c ^^^ d
    [a ^^^ t ^^^ xtime (a ^^^ b), b ^^^ t ^^^ xtime (b ^^^ c), c ^^^ t ^^^ xtime (c ^^^ d), d ^^^ t ^^^ xtime (d ^^^ a)]
  | l => l

/-- One block of 16 bytes under round keys. -/
def block (rks : List (List Nat)) (b : List Nat) : List Nat :=
  let mid (s rk : List Nat) : List Nat := xorBytes ((cut4 (shiftRows (s.map sub))).flatMap mixColumn) rk
  let s := ((rks.drop 1).take 13).foldl mid (xorBytes b (rks.headD []))
  xorBytes (shiftRows (s.map sub)) (rks.getD 14 [])

/-- Bytes as a number, the first the most significant. -/
def beNat (l : List Nat) : Nat := l.foldl (fun n b => 256 * n + b) 0

/-- A number as n bytes, the most significant first. -/
def beBytes (n v : Nat) : List Nat := (List.range n).map fun k => v / 256 ^ (n - 1 - k) % 256

/-- The product of GHASH: bit 127 of a number is the coefficient of x⁰. -/
def mul (x y : Nat) : Nat :=
  ((List.range 128).foldl (fun (a : Nat × Nat) i =>
    (if x / 2 ^ (127 - i) % 2 = 1 then a.1 ^^^ a.2 else a.1,
     if a.2 % 2 = 1 then (a.2 / 2) ^^^ (0xE1 * 2 ^ 120) else a.2 / 2)) (0, y)).1

/-- Blocks of 16 bytes, the last filled with zeros. -/
def blocks16 : Nat → List Nat → List (List Nat)
  | 0, _ => []
  | _, [] => []
  | n + 1, l => (l.take 16 ++ List.replicate (16 - l.length) 0) :: blocks16 n (l.drop 16)

def ghash (h : Nat) (l : List Nat) : Nat := (blocks16 l.length l).foldl (fun y b => mul (y ^^^ beNat b) h) 0

/-- The key stream of a 12-byte IV from counter c on, for n blocks. -/
def stream (rks : List (List Nat)) (iv : List Nat) (c n : Nat) : List Nat :=
  (List.range n).flatMap fun k => block rks (iv ++ beBytes 4 (c + k))

def pad16 (l : List Nat) : List Nat := l ++ List.replicate ((16 - l.length % 16) % 16) 0

/-- The tag of a ciphertext. -/
def tagOf (key iv aad ct : List Nat) : List Nat :=
  let rks := roundKeys key
  let h := beNat (block rks (List.replicate 16 0))
  let s := ghash h (pad16 aad ++ pad16 ct ++ beBytes 8 (8 * aad.length) ++ beBytes 8 (8 * ct.length))
  xorBytes (beBytes 16 s) (block rks (iv ++ [0, 0, 0, 1]))

/-- Encryption and decryption: the text under the key stream. -/
def crypt (key iv text : List Nat) : List Nat := xorBytes text (stream (roundKeys key) iv 2 (ceilDiv text.length 16))

end Sys2Proof.Gcm
end

