-- ==== Sys2Proof/Machine/Wire.lean ====
section
/-! DEFINITION. What travels on light: cells as bytes (R271, R272, R301), the lanes of a slot with their code and markers
(R234–R237, R246), and service messages with their header, bodies and CRC (R219, R255, R380, R505). -/
namespace Sys2Proof

/-! ### Cells (R271–R273) -/

/-- A list cut or filled with zeros to n bytes. -/
def fitBytes (n : Nat) (l : List Byte) : List Byte := l.take n ++ List.replicate (n - l.length) 0

/-- The 64 header bytes of a cell (R271). -/
def Cell.header (c : Cell) : List Byte :=
  leBytes 1 c.type.toNat ++ leBytes 1 c.flags.toNat ++ leBytes 2 c.slice.toNat ++ leBytes 2 c.dest.toNat
    ++ leBytes 2 c.src.toNat ++ leBytes 2 c.vcid.toNat ++ leBytes 2 c.epoch.toNat ++ leBytes 2 c.gen.toNat
    ++ leBytes 2 c.lseq.toNat ++ leBytes 1 c.hops.toNat ++ leBytes 1 c.key.toNat ++ leBytes 2 c.length.toNat
    ++ leBytes 4 c.xfer.toNat ++ leBytes 8 c.addr.toNat ++ leBytes 4 c.index.toNat ++ leBytes 4 c.group.toNat
    ++ leBytes 4 c.tensor.toNat ++ leBytes 2 c.birth.toNat ++ leBytes 2 0 ++ leBytes 8 c.nonce.toNat ++ leBytes 8 0

/-- Trailer bytes 0–23: the block checks (R272). -/
def Cell.checks (c : Cell) : List Byte := fitBytes 24 (c.bchk.flatMap fun w => leBytes 4 w.toNat)

/-- A cell without its CRC: header, payload and trailer bytes 0–251; TAG stands with its first byte first. -/
def Cell.body (c : Cell) : List Byte :=
  c.header ++ fitBytes 24576 c.payload ++ c.checks ++ (leBytes 16 c.tag.toNat).reverse ++ List.replicate 212 0

/-- The 24,896 bytes of a cell. -/
def Cell.bytes (c : Cell) : List Byte := c.body ++ leBytes 4 c.crc.toNat

/-- A cell with its CRC computed, as a module sends it (R272). -/
def Cell.withCrc (c : Cell) : Cell := { c with crc := BitVec.ofNat 32 (crc32c c.body) }

/-- The trailer CRC matches (R237). -/
def Cell.crcOk (c : Cell) : Bool := c.crc.toNat == crc32c c.body

/-- An idle cell (R273). -/
def idleCell (src slice : Nat) : Cell :=
  ({ type := 0, flags := 0, slice := BitVec.ofNat 12 slice, dest := 0, src := BitVec.ofNat 13 src, vcid := 0, epoch := 0,
     gen := 0, lseq := 0, hops := 0, key := 0, length := 0, xfer := 0, addr := 0, index := 0, group := 0, tensor := 0,
     birth := 0, nonce := 0, payload := [], bchk := List.replicate 6 0, tag := 0, crc := 0 } : Cell).withCrc

/-! ### Encryption of cells (R301) -/

/-- The 32 bytes of a key, the first byte of the key first. -/
def keyBytes (k : Nat) : List Nat := Gcm.beBytes 32 k

/-- The IV of a cell: SRC as two bytes, two zero bytes, NONCE. -/
def Cell.iv (c : Cell) : List Nat := (leBytes 2 c.src.toNat ++ leBytes 2 0 ++ leBytes 8 c.nonce.toNat).map (·.toNat)

/-- The AAD of a cell: its header with LSEQ and HOPS set to 0. -/
def Cell.aad (c : Cell) : List Nat := ({ c with lseq := 0, hops := 0 } : Cell).header.map (·.toNat)

/-- What is encrypted, in clear or as ciphertext: the payload, followed by trailer bytes 0–23. -/
def Cell.text (c : Cell) : List Nat := (c.payload ++ c.checks).map (·.toNat)

/-- A cell with the text put in place of its payload and block checks. -/
def Cell.withText (c : Cell) (t : List Nat) : Cell :=
  let bs := t.map fun n => BitVec.ofNat 8 n
  { c with
    payload := bs.take c.payload.length
    bchk := (List.range 6).map fun k => BitVec.ofNat 32 (leNat (((bs.drop c.payload.length).drop (4 * k)).take 4)) }

/-- A cell encrypted under a key, with its TAG. -/
def Cell.encrypt (c : Cell) (key : Nat) : Cell :=
  let ct := Gcm.crypt (keyBytes key) c.iv c.text
  { c.withText ct with tag := BitVec.ofNat 128 (Gcm.beNat (Gcm.tagOf (keyBytes key) c.iv c.aad ct)) }

/-- The TAG of an encrypted cell matches. -/
def Cell.tagOk (c : Cell) (key : Nat) : Bool := c.tag.toNat == Gcm.beNat (Gcm.tagOf (keyBytes key) c.iv c.aad c.text)

/-- An encrypted cell opened. -/
def Cell.decrypt (c : Cell) (key : Nat) : Cell := c.withText (Gcm.crypt (keyBytes key) c.iv c.text)

/-! ### The lanes of a slot (R234–R237) -/

/-- The wavelength that carries a lane, given the lane that travels on λ16 (R234). -/
def laneWave (spare lane : Nat) : Nat := if lane = spare then 16 else lane

/-- The CRC-7 of the nine bits [15:7] of a marker, most significant bit first: x⁷ + x³ + 1, initial value 0 (R236). -/
def crc7 (v : Nat) : Nat :=
  (List.range 9).foldl (fun c i =>
    let b := (c / 64 + v / 2 ^ (8 - i)) % 2
    (2 * c % 128) ^^^ (if b = 1 then 9 else 0)) 0

/-- The marker of a lane on a wavelength (R236). -/
def laneMarker (lane lam : Nat) : BitVec 36 :=
  let v := lane % 16 * 32 + lam % 32
  BitVec.ofNat 36 (0xB8E2D * 2 ^ 16 + v * 2 ^ 7 + crc7 v)

/-- A lane is in error when its marker is missing, fails CHECK, or names another LANE or LAMBDA than its source's lane
map gives (R246). -/
def markerBad (spare lane : Nat) (m : Option (BitVec 36)) : Bool :=
  match m with
  | none => true
  | some w =>
    let v := bitsOf w.toNat 7 9
    bitsOf w.toNat 16 20 != 0xB8E2D || bitsOf w.toNat 0 7 != crc7 v || v != lane * 32 + laneWave spare lane

/-- Data symbols of codeword c of 39 (R235). -/
def codeData (c : Nat) : Nat := if c = 38 then 385 else 514

/-- The data symbols of bytes: ten bits each, least significant bit first; the last is filled with zero bits. -/
def dataSymbols (bs : List Byte) : List Nat :=
  let n := leNat bs
  (List.range 19917).map fun j => bitsOf n (10 * j) 10

/-- Codeword c of a cell: its data symbols, then 30 parity symbols; the manual does not give the code's generator. -/
def codeword (data : List Nat) (c : Nat) : List Nat :=
  let d := (data.drop (514 * c)).take (codeData c)
  d ++ (List.range 30).map fun k => Config.rsParity d k % 1024

/-- The 21,088 positions of the coded stream: 39 codewords and a fill position of zeros. -/
def codedStream (bs : List Byte) : List Nat :=
  let data := dataSymbols bs
  (List.range 39).flatMap (codeword data) ++ [0]

/-- The 1,318 positions of a lane: stream position n goes to lane n mod 16. -/
def lanePositions (st : List Nat) (lane : Nat) : List Nat := (List.range 1318).map fun k => st.getD (16 * k + lane) 0

/-- The bits of a lane in a slot, in the order sent: the marker, most significant bit first, then the positions, bit 0
first. -/
def laneBits (marker : BitVec 36) (pos : List Nat) : List Bool :=
  ((List.range 36).map fun k => bitOn marker.toNat (35 - k)) ++ pos.flatMap fun v => (List.range 10).map (bitOn v)

/-- Gray-mapped PAM4 levels of bits, the first bit of each pair the more significant. -/
def pam4 : List Bool → List Nat
  | a :: b :: l => (if a then (if b then 2 else 3) else b2n b) :: pam4 l
  | _ => []

/-- The light of a slot: by lane its wavelength and its levels. -/
def slotLight (spare : Nat) (c : Cell) : List (Nat × List Nat) :=
  let st := codedStream c.bytes
  (List.range 16).map fun lane =>
    (laneWave spare lane, pam4 (laneBits (laneMarker lane (laneWave spare lane)) (lanePositions st lane)))

/-- The codeword that holds a position of the coded stream; none for the fill position. -/
def codewordAt (n : Nat) : Option Nat := if n < 20672 then some (n / 544) else if n < 21087 then some 38 else none

/-- The wrong symbols of codeword c, among wrong positions given by lane and position in the lane. -/
def wrongIn (errs : List (Nat × Nat)) (c : Nat) : Nat :=
  ((errs.map fun x => 16 * x.2 + x.1).eraseDups.filter fun n => codewordAt n == some c).length

/-- Every codeword decodes: at most 15 wrong symbols in each (R237). -/
def allDecode (errs : List (Nat × Nat)) : Bool := (List.range 39).all fun c => wrongIn errs c ≤ 15

/-- The codewords that a decoder corrects (R237). -/
def correctedWords (errs : List (Nat × Nat)) : Nat :=
  ((List.range 39).filter fun c => wrongIn errs c != 0 && wrongIn errs c ≤ 15).length

/-! ### Service messages (R219, R255, R256, R380, R505) -/

/-- Short messages and notices of the service wavelength and the management network, by name. -/
inductive ShortKind where
  | recovering | peerSilent | replaceRequest
deriving DecidableEq, Repr

/-- The message that a service message carries; for a forwarded one its class and body as they came. -/
inductive SvcBody where
  | idle
  | time (m : TimeMsg)
  | sync (m : SyncMsg)
  | link (m : LinkMsg)
  | lane (m : LinkMsg)
  | beacon (b : Beacon)
  | capture (frame : Nat)
  | announce (kind : Nat) (m : Announce)
  | short (kind : ShortKind) (args : List Nat)
  | passed (cls : Nat) (body : List Byte)
deriving DecidableEq, Repr

/-- CLASS (R255). -/
def SvcBody.cls : SvcBody → Nat
  | .idle => 0
  | .time _ => 1
  | .sync _ => 2
  | .link _ => 3
  | .lane _ => 4
  | .beacon _ => 5
  | .capture _ => 6
  | .announce _ _ => 7
  | .short _ _ => 7
  | .passed c _ => c

/-- The 16 bytes of a link or lane message (R505). -/
def LinkMsg.bytes (m : LinkMsg) : List Byte :=
  leBytes 1 m.kind.toNat ++ leBytes 1 m.code.toNat ++ leBytes 2 m.src.toNat ++ leBytes 2 m.dest.toNat ++ leBytes 1 m.port.toNat
    ++ leBytes 1 m.count.toNat ++ leBytes 2 m.lseq.toNat ++ leBytes 2 m.gen.toNat ++ leBytes 4 m.xfer.toNat

/-- The 32 bytes of a synchronisation message (R219). -/
def SyncMsg.bytes (m : SyncMsg) : List Byte :=
  leBytes 1 m.kind.toNat ++ leBytes 1 (b2n m.sense + 2 * m.payOp.toNat) ++ leBytes 2 m.dest.toNat ++ leBytes 2 m.src.toNat
    ++ leBytes 2 m.slice.toNat ++ leBytes 2 m.vcid.toNat ++ leBytes 2 m.epoch.toNat ++ leBytes 2 m.object.toNat
    ++ leBytes 2 m.tag.toNat ++ leBytes 8 m.value.toNat ++ leBytes 8 0

/-- The 32 bytes of a slice announcement (R380). -/
def Announce.bytes (kind : Nat) (m : Announce) : List Byte :=
  leBytes 1 kind ++ leBytes 1 (b2n m.hold) ++ leBytes 2 m.vcid.toNat ++ leBytes 2 m.epoch.toNat ++ leBytes 2 0
    ++ leBytes 8 m.step.toNat ++ leBytes 4 m.attempt.toNat ++ leBytes 4 0 ++ leBytes 8 m.frame.toNat

/-- The body of the messages to which the manual gives contents but no layout: time, beacon, capture and short messages. -/
opaque Config.svcBody : SvcBody → List Byte

/-- The body bytes of a message. -/
def SvcBody.bytes : SvcBody → List Byte
  | .idle => []
  | .sync m => m.bytes
  | .link m => m.bytes
  | .lane m => m.bytes
  | .announce k m => m.bytes k
  | .passed _ l => l
  | m => Config.svcBody m

/-- The header of a service message (R255). -/
structure SvcHeader where
  cls : Nat
  length : Nat
  hseq : Nat
  hack : Nat
  nak : Bool
  hops : Nat
deriving DecidableEq, Repr

/-- The header's 8 bytes. -/
def SvcHeader.bytes (h : SvcHeader) : List Byte :=
  leBytes 8 (h.cls % 256 + 2 ^ 8 * (h.length % 256) + 2 ^ 16 * (h.hseq % 4096) + 2 ^ 28 * (h.hack % 4096)
    + 2 ^ 40 * b2n h.nak + 2 ^ 48 * (h.hops % 256))

/-- The header that 8 bytes hold. -/
def svcHeader (bs : List Byte) : SvcHeader :=
  let v := leNat (bs.take 8)
  ⟨bitsOf v 0 8, bitsOf v 8 8, bitsOf v 16 12, bitsOf v 28 12, bitOn v 40, bitsOf v 48 8⟩

/-- A service message as it travels: header, body, CRC-32C over both. -/
def svcBytes (h : SvcHeader) (body : List Byte) : List Byte :=
  h.bytes ++ body ++ leBytes 4 (crc32c (h.bytes ++ body))

/-- The body of an arriving message, by its LENGTH. -/
def svcBodyOf (bs : List Byte) : List Byte := (bs.drop 8).take (svcHeader bs).length

/-- The CRC that an arriving message carries, and the one that its header and body ask for. -/
def svcCrcs (bs : List Byte) : Nat × Nat :=
  let n := 8 + (svcHeader bs).length
  (leNat ((bs.drop n).take 4), crc32c (bs.take n))

/-- A message is whole: a body of 0 to 64 bytes in multiples of 8, and its CRC right. -/
def svcOk (bs : List Byte) : Bool :=
  let n := (svcHeader bs).length
  n ≤ 64 && n % 8 == 0 && bs.length == n + 12 && (svcCrcs bs).1 == (svcCrcs bs).2

/-- The CRC is inverted: an earlier hop met the error (R255). -/
def svcInverted (bs : List Byte) : Bool := (svcCrcs bs).1 == 2 ^ 32 - 1 - (svcCrcs bs).2

/-- Origin and destination of a message whose body places them: signals and their answers (R219), link and lane
messages (R505). -/
def svcRoute (cls : Nat) (body : List Byte) : Option (Nat × Nat) :=
  let w (k : Nat) : Nat := leNat ((body.drop k).take 2) % 8192
  let kind := leNat (body.take 1)
  if cls = 2 && 1 ≤ kind && kind ≤ 3 then some (w 4, w 2)
  else if cls = 3 || cls = 4 then some (w 2, w 4)
  else none

end Sys2Proof
end

