-- ==== Sys2Proof/Machine/State.lean ====
section
/-! DEFINITION. The state of the module, as plain data: the registers, the memories, and for each chapter
what its rules give the module beside its registers. Machine state whose value a register shows (the views
of Machine/Views.lean) is held once, here or in the register map. -/
namespace Sys2Proof.Machine

/-! ### Time (R22–R47) -/

/-- What a port knows of its neighbour from time messages (R26, R27). -/
structure Nbr where
  seen : Bool := false
  locked : Bool := false
  master : Nat := 0
  epoch : Nat := 0
  depth : Nat := 0
  origin : Nat := 0
  /-- departure stamp at the neighbour and arrival stamp here of its last message (t1, t2) -/
  depart : Nat := 0
  arrival : Nat := 0
  /-- departure stamp of this module's last message on the port (t3) -/
  sent : Nat := 0
  sentAny : Bool := false
  /-- departure stamp of the one before it -/
  sentPrev : Option Nat := none
  /-- twice the offset, in 1/64 hub cycle; valid once measured -/
  off2 : Int := 0
  /-- twice the delay, in 1/64 hub cycle -/
  delay2 : Int := 0
  measured : Bool := false
  /-- an offset was measured in the present frame -/
  heard : Bool := false
deriving DecidableEq, Repr

/-- The time base beside its registers. -/
structure TimeSt where
  /-- the 64-bit frame counter (R22) -/
  frame : BitVec 64 := 0
  /-- frame ticks since reset (the model's own: "the next tick" of a rule is a later value) -/
  ticks : Nat := 0
  /-- the highest frame whose tick has come, and what it was before the last tick: what is scheduled for a frame
  after base, up to top, is due at this tick (R40) -/
  top : Nat := 0
  base : Nat := 0
  /-- the position in the order of R21 that the present tick has reached -/
  pos : Nat := 0
  /-- the time messages of the present frame were sent (R26) -/
  sentNow : Bool := false
  nbrs : Sparse Nbr := []
  /-- consecutive frames within 25 ps, and beyond 100 ps (R28) -/
  good : Nat := 0
  bad : Nat := 0
  /-- the deputy's last tick was stale, and it was locked then (R31) -/
  stale : Bool := false
  staleLocked : Bool := false
  promoteDue : Bool := false
  /-- the highest master epoch seen (R27), and the newest master-origin frame of this module -/
  hiEpoch : Nat := 0
  origin : Nat := 0
  /-- the ROLE in effect (R47: a change takes effect at the next tick) -/
  role : Nat := 0
  hasParent : Bool := false
  /-- a load armed by FTB_LOAD_HI, at which tick, and whether a PPS_IN edge came after it (R47) -/
  loadArmed : Bool := false
  loadTick : Nat := 0
  loadPps : Bool := false
  /-- a time step due at the tick after this one (R39), and a step not yet followed by lock -/
  stepDue : Option Nat := none
  resync : Bool := false
deriving DecidableEq, Repr

/-! ### Faults (R425–R428) -/

/-- A party of a fault record: its context, generation, ring and descriptor sequence number. -/
structure PartyRec where
  ctx : Nat
  gen : Nat
  vcid : Nat
  ring : Nat := 0
  seq : Nat := 0
deriving DecidableEq, Repr

/-- A fault record (R425): the header fields, and DETAIL as the list of its fields, each with its size in
bytes and its value, in the order of R446. -/
structure FaultRec where
  code : Nat
  notice : Bool := false
  unitKind : Nat := 0
  unit : Nat := 0
  p1 : Option PartyRec := none
  p2 : Option PartyRec := none
  /-- ring and sequence number where no context is named -/
  step : Option (Nat × Nat) := none
  detail : List (Nat × Nat) := []
  dump : Bool := false
  summary : Option Nat := none
  logseq : Nat := 0
  frame : Nat := 0
  lost : Nat := 0
deriving DecidableEq, Repr

/-! ### Submission (R166–R206) -/

/-- What a waiting descriptor waits for: a counter threshold or a barrier release. -/
structure WaitRec where
  obj : Nat
  vid : Nat
  thr : Nat := 0
  barrier : Bool := false
  wdog : Nat := 0
deriving DecidableEq, Repr

/-- How far an engine has come with a descriptor between two of its parts (R423): the units handled, how often a result was
NaN and overflowed (R325), the two page hashes of a DIGEST by position (R353), and the block and formula of an UPDATE as its
issue read them. -/
structure EngWork where
  done : Nat := 0
  nan : Nat := 0
  ovf : Nat := 0
  hashes : List (Nat × Nat) := []
  block : List Byte := []
  prog : List Nat := []
deriving DecidableEq, Repr

/-- An operation in flight: an accepted descriptor without its completion record (R192, R195). -/
structure Op where
  ring : Nat
  /-- ring index modulo 2^32 -/
  idx : Nat
  seq : Nat
  opc : Nat
  ctx : Nat
  gen : Nat
  vcid : Nat
  desc : Descriptor
  budget : Nat
  /-- position in the order of acceptance, over all rings -/
  order : Nat
  issued : Bool := false
  /-- position in the order of issue -/
  issueNo : Nat := 0
  frames : Nat := 0
  units : Nat := 0
  substep : Nat := 0
  /-- status and fault code with which the operation has finished, its record not yet written -/
  fin : Option (Nat × Nat) := none
  /-- position in the order of completion (R190) -/
  finNo : Nat := 0
  /-- the compute dies whose units it occupies (R195), as a mask -/
  dies : Nat := 0
  /-- the physical cores of a LAUNCH, and those not yet completed -/
  cores : List Nat := []
  coresLeft : List Nat := []
  /-- COMMIT points that its cores have retired, by core (R193) -/
  commits : Sparse Nat := []
  /-- an EXACT_RANGE notice was raised (R97) -/
  noticed : Bool := false
  wait : Option WaitRec := none
  /-- remote signals not yet acknowledged (R220) -/
  remote : Nat := 0
  /-- transfers whose DELIVERED report is awaited (R289) -/
  xfers : List Nat := []
  /-- an engine is between two parts of it (R423) -/
  work : Option EngWork := none
deriving DecidableEq, Repr

/-- A ring beside its registers (R170–R176). -/
structure RingX where
  piOld : Nat := 0
  cqCi : Nat := 0
  cqPi : Nat := 0
  /-- issued-or-rejected descriptors since ENABLE (R179) -/
  issuedRej : Nat := 0
  /-- consecutive ticks whose sequence check of the present index failed, and the last such tick -/
  fails : Nat := 0
  failTick : Nat := 0
  /-- no further fetch until the next tick or kick (R176) -/
  blocked : Bool := false
  /-- the sequence number that the last failed check found -/
  found : Nat := 0
  /-- a kick has the ring examined once more in this frame: what fails then is no failing tick (R176) -/
  kicked : Bool := false
  /-- ENABLE was cleared: fetching stops at the next tick (R172) -/
  stopping : Bool := false
  /-- CI or CQ_PI changed in this frame (R175) -/
  changed : Bool := false
  irqSent : Bool := false
deriving DecidableEq, Repr

/-- A mailbox channel (R200–R204): the queues towards E0 and E1, oldest word first, each word with its
sender's identity. -/
structure Chan where
  to0 : List (Nat × Nat) := []
  to1 : List (Nat × Nat) := []
  coll0 : Bool := false
  coll1 : Bool := false
  collCnt : Nat := 0
  stamp0 : Nat := 0
  stamp1 : Nat := 0
  irqSent : Bool := false
deriving DecidableEq, Repr

structure SubSt where
  rings : Sparse RingX := []
  ops : List Op := []
  accepted : Nat := 0
  issuedCnt : Nat := 0
  /-- completions so far, and operations recorded whose completion signal is still to follow (R187) -/
  finCnt : Nat := 0
  sigDue : List Op := []
  /-- the ring that the dispatcher served last (R180) -/
  lastRing : Nat := 255
  /-- POSTs held so far (R199) -/
  postCnt : Nat := 0
  /-- the progress memory as the last reset found it (R192), which is always on: ring, index and record -/
  progMem : List (Nat × Nat × List Byte) := []
  chans : Sparse Chan := []
deriving DecidableEq, Repr

/-! ### Synchronisation (R207–R230) -/

/-- A local arrival at a barrier, with its payload. -/
structure Arrival where
  who : Waiter
  payload : Nat
deriving DecidableEq, Repr

/-- One episode of a barrier (R225, R226). -/
structure Episode where
  op : Option Nat := none
  payload : Nat := 0
  locals : List Waiter := []
  arrived : Nat := 0
  /-- this module's ARRIVE was sent to the parent -/
  sent : Bool := false
deriving DecidableEq, Repr

/-- A physical synchronisation object (R207): a counter, or a barrier with its configuration and its
current and next episodes. -/
structure SyncObj where
  barrier : Bool := false
  value : Nat := 0
  localN : Nat := 0
  root : Bool := false
  parentPort : Nat := 0
  childMask : Nat := 0
  sense : Bool := false
  broken : Bool := false
  cur : Episode := {}
  nxt : Episode := {}
  /-- the context and virtual identifier under which its messages go -/
  nameCtx : Nat := 0
  nameVid : Nat := 0
deriving DecidableEq, Repr

/-- A remote signal that waits for its ACK (R220). -/
structure RemoteSig where
  tag : Nat
  ring : Nat
  idx : Nat
  /-- the core of an SSIG; none for a SIGNAL descriptor -/
  core : Option Nat := none
  dest : Nat
  sentTick : Nat
deriving DecidableEq, Repr

/-- What waits for SYN_CTRL.ENABLE (R230): a message that has arrived, or the completion signal of a descriptor with
its counter, value, party, unit and virtual identifier. -/
inductive HeldSync where
  | signal (port : Fin 16) (m : SyncMsg)
  | arrive (port : Fin 16) (m : SyncMsg)
  | release (port : Fin 16) (m : SyncMsg)
  | brk (port : Fin 16) (m : SyncMsg)
  | completion (obj d : Nat) (p : PartyRec) (unitKind unit vid : Nat)
  /-- a barrier message of this module's own, for a port -/
  | out (port : Nat) (m : SyncMsg)
deriving DecidableEq, Repr

structure SynSt where
  /-- table words that the hub holds until an invalidation, by context and virtual identifier (R210); what a running
  invalidation drops -/
  xlt : List (Nat × Nat × Nat) := []
  inval : Option (Option Nat) := none
  /-- held while ENABLE is 0, oldest first -/
  held : List HeldSync := []
  objs : Sparse SyncObj := []
  remotes : List RemoteSig := []
  nextTag : Nat := 0
deriving DecidableEq, Repr

/-! ### Memory (R133–R165) -/

/-- A translation that an engine holds (R142): its context, VA page, PA page and rights. -/
structure TlbEntry where
  ctx : Nat
  vpage : Nat
  page : Nat
  read : Bool
  write : Bool
  prot : Bool
  tenant : Bool
deriving DecidableEq, Repr

structure MemSt where
  /-- translations that the engines hold until an invalidation, oldest first; while an engine works, the number by which
  its accesses choose between a held entry and the table (R142); what a running invalidation drops: a context, or all -/
  tlb : List TlbEntry := []
  tlbKey : Option Nat := none
  inval : Option (Option Nat) := none
  /-- poison units that the present reads have found and made (R164: KIND 2, not 3) -/
  newUe : List Nat := []
  /-- pages of failed repairs, to be retired with the next invalidation (R161) -/
  retireDue : List Nat := []
  /-- corrected errors counted for a row chunk and the tick that began its 24 h window (R156), by chunk address -/
  ceCount : Sparse (Nat × Nat) := []
  /-- the tick in whose frame GO was written, and a row repair in progress: the chunk's address and its
  starting tick (R160) -/
  repairGo : Option Nat := none
  repair : Option (Nat × Nat) := none
  /-- spare rows left, per memory, one more than their number; no entry before its first training (R160, R162) -/
  spares : Sparse Nat := []
  /-- refresh state sampled and due at the next tick, per memory: state and tick (R153) -/
  refreshDue : Sparse (Nat × Nat) := []
  /-- blocks whose check word lies in a poisoned granule of a check region (R340), by first PA, rising -/
  badCheck : List Nat := []
  /-- rows repaired, by chunk address, and pages retired: Idfort's persistent list (R162) -/
  repaired : List Nat := []
  retired : List Nat := []
deriving DecidableEq, Repr


/-! ### Cores (R61–R132) -/

/-- What a core waits for in SWAIT or SBAR (R215, R224): its watchdog counts ticks of its die. -/
structure CoreWait where
  obj : Nat
  vid : Nat
  thr : Nat := 0
  barrier : Bool := false
  wdog : Nat := 0
  ticks : Nat := 0
  /-- scratchpad address for a barrier's result -/
  res : Nat := 0
deriving DecidableEq, Repr

/-- An instruction that its core holds, with everything behind it (R504): SSIG without a place for a remote signal, SBAR
at a barrier whose episodes are full, POST to a full ring, SSIG, SWAIT and SBAR while SYN_CTRL.ENABLE is 0, and what waits
for a shadow page. -/
inductive Stall where
  | ssig (vid : Nat) (mod : Option (BitVec 13)) (v : SigVal)
  | swait (vid thr wdog : Nat)
  | sbar (vid payOp payload res wdog : Nat)
  /-- a POST, with its place in the order of arrival (R199) -/
  | post (ring src no : Nat)
  /-- a GCLAIM whose page waits for the shadow pool (R402) -/
  | claim (region tag : Nat)
deriving DecidableEq, Repr

/-- The part of an exact tile beside its state in CORE_ACC_STATE (R92, R98, R101): anchor, running total of K,
the integers X and the tags (1 +∞, 2 −∞, 3 NaN) by element 128 i + j. -/
structure ExactTile where
  anchor : Int := 0
  total : Nat := 0
  x : Sparse Int := []
  tags : Sparse Nat := []
deriving DecidableEq, Repr

/-- The weight tile left in the array (R83): what it was filled from, and by slot, then column, the code and
scale of each weight; an empty slot holds padding. -/
structure WeightTile where
  addr : Nat
  fmt : Fmt
  scale : Option Nat
  trans : Bool
  n : Nat
  kp : Nat
  slots : List (List (Nat × Nat))
deriving DecidableEq, Repr

/-- The state of a tile (R100, R101): plain 0, exact head 1, exact member 2 or fallen back 3; its binary32 codes by element
128 i + j, unlisted ones +0; what an exact tile holds; and its sticky marks. -/
structure TileImg where
  state : Nat := 0
  data : Sparse Nat := []
  exact : ExactTile := {}
  mark : Nat := 0
deriving DecidableEq, Repr

/-- An MMA with all that it reads beside its tile: the scratchpad bytes it streams or fills, the weights that KEEP reuses,
and the STRICT and RMODE fields of CORE_ACW. -/
structure MmaJob where
  args : MmaArgs
  sp : List Host.Cell
  kept : Option WeightTile
  strict : Bool
  rmode : Nat
deriving DecidableEq, Repr

/-- A tile sequence in progress (R345): its first tile, its context, number, step and attempt, the logical core that runs
it and the one that checks it (R346); and for a sampled one what is teed so far (R347): the prior state of the tile, the
MMAs, none where an MMA on another identifier ended the exact tile (R102), and the count of bytes. -/
structure TileSeq where
  tile : Nat
  party : PartyRec
  q : Nat
  step : Nat
  attempt : Nat
  lcore : Nat
  check : Nat
  sampled : Bool
  bytes : Nat
  prior : TileImg := {}
  jobs : List (Option MmaJob) := []
deriving DecidableEq, Repr

/-- A physical core beside its registers. -/
structure Core where
  /-- scratchpad bytes (R144); unlisted bytes are 0 -/
  sp : List Host.Cell := []
  /-- the LAUNCH that runs on it: ring and ring index; and the VAs of its program and argument block (R183) -/
  launch : Option (Nat × Nat) := none
  program : Nat := 0
  args : Nat := 0
  /-- a test item was its last LAUNCH (R104, R362) -/
  foreign : Bool := false
  wait : Option CoreWait := none
  stall : Option Stall := none
  /-- heartbeat: misses, an instruction retired since the last heartbeat tick, a declared wait held at that tick, and the
  frame of the last answer (R419) -/
  misses : Nat := 0
  retired : Bool := false
  waitHb : Bool := false
  lastHb : Nat := 0
  /-- tile sequences begun in the attempt of a context (R345) -/
  seqs : Sparse Nat := []
  /-- tile data (R100): by tile, the binary32 codes by element 128 i + j; unlisted elements are +0 -/
  tiles : Sparse (Sparse Nat) := []
  /-- exact tiles by their first tile, and the sticky marks of each tile (R101) -/
  exact : Sparse ExactTile := []
  marks : Sparse Nat := []
  weights : Option WeightTile := none
  openSeqs : List TileSeq := []
  /-- halted by an invasive session, with the single steps still to run (R464) -/
  halted : Bool := false
  steps : Nat := 0
deriving DecidableEq, Repr

/-! ### The training step and replay (R306–R395) -/

/-- A discard that is due or announced: the tick count or frame from which it acts, and HOLD (R371, R380). -/
structure DiscardReq where
  /-- acts at the first tick whose count is at least this -/
  tick : Nat := 0
  /-- acts at the tick of this frame, for an announcement -/
  frame : Option Nat := none
  hold : Bool := false
  /-- step and attempt that an announcement names -/
  which : Option (Nat × Nat) := none
deriving DecidableEq, Repr

/-- The base of a STEP_SCOPED object (R217): the counter value or the sense. -/
structure StepBase where
  obj : Nat
  value : Nat
  sense : Bool
deriving DecidableEq, Repr

/-- A context beside its registers. -/
structure CtxX where
  /-- an open is armed from this tick on, for an ARM whose F_o had passed (R308), or by a replay
  announcement: step, attempt, frame (R379) -/
  armTick : Nat := 0
  armLate : Bool := false
  /-- tick from which the NOON at the head has been held (R349) -/
  noonHeld : Option Nat := none
  replayArm : Option (Nat × Nat × Nat) := none
  bases : List StepBase := []
  /-- VAs of the PROT pages first written in the attempt, and of MIRROR or DERIVED pages whose MEM_UE
  was consumed (R327, R377) -/
  recorded : List Nat := []
  uePages : List Nat := []
  discard : Option DiscardReq := none
  /-- discards that the slice manager has announced for frames to come (R380) -/
  announced : List DiscardReq := []
  /-- tick of the discard while its drain runs (R373) -/
  drainTick : Option Nat := none
  /-- the Noon barrier of the attempt, by object and virtual identifier (R318) -/
  noonObj : Nat := 0
  noonVid : Nat := 0
  /-- the vote with which the NOON arrived (R317) -/
  vote : Nat := 0
  /-- tick of the release that made the attempt VOTED (R332) -/
  votedTick : Nat := 0
  /-- the accepted CLOSE of the step: ring, ring index, retention -/
  closeOp : Option (Nat × Nat × Nat) := none
  /-- vote bits cleared by causes carried to the next attempt (R332) -/
  carry : List Nat := []
  /-- the next NOON votes with STEP_MATCH cleared (R332) -/
  mismatch : Bool := false
  /-- a cause after Noon whose BREAK is still to leave (R331) -/
  breakDue : Bool := false
  /-- the attempt's Noon barrier has been broken since its release (R331) -/
  broke : Bool := false
  /-- tick of the module's arrival at the replay barrier (R228, R378) -/
  replayTick : Option Nat := none
  /-- the Noon barrier of the step closed last, by object and virtual identifier (R332) -/
  closedNoon : Option (Nat × Nat) := none
  /-- the context was made READY while no step was open, so that the replay is attempt 0 of the next step (R380, R389) -/
  betweenSteps : Bool := false
  /-- the gradient regions whose entries were written in the attempt (R313) -/
  claims : List Nat := []
  /-- a Dusk requested, with the tick from which it acts or its frame; and the tick it acted (R441) -/
  duskReq : Option DiscardReq := none
  duskTick : Option Nat := none
  /-- hung units that hold the drain: core (key), cluster (1000 + key), module (2000) (R443) -/
  drainHold : List Nat := []
  /-- sealed pages being zeroed (R461) -/
  zeroing : List Nat := []
deriving DecidableEq, Repr

/-- An input set of the replay ring (R367): state 1 FILLING, 2 SEALING, 3 SEALED. -/
structure InSet where
  step : Nat
  first : Nat
  pages : Nat
  state : Nat
deriving DecidableEq, Repr

structure RplSt where
  ctxs : Sparse CtxX := []
  /-- the sets of the replay ring, oldest first -/
  sets : List InSet := []
  /-- the slot data that the guest area holds for the client (R368, R370), as last received -/
  guest : List InSet := []
  /-- the copy of the SEALING set is on its way, and its slot data is still to follow; every SEALED set went with it (R385) -/
  slotDue : Bool := false
  guestResend : Bool := false
  /-- the context of the Daybreak load, and the module's admission by a load that came to its end (R391, R392) -/
  loadCtx : Nat := 0
  /-- the sets that the partner's slot data named to the load, which it reads last (R391) -/
  loadSets : List InSet := []
  admitted : Bool := false
  /-- fenced clusters as die × 9 + cluster: Idfort's persistent list (R388) -/
  fenced : List Nat := []
deriving DecidableEq, Repr

/-! ### Hangs, dumps, resets (R418–R447) -/

/-- A unit asked to stop and not known to have stopped (R423, R424), with the descriptor it served. -/
structure StopReq where
  unit : UnitRef
  party : PartyRec
  tick : Nat
deriving DecidableEq, Repr

/-- A dump (R430–R433): scope 0 core, 1 cluster, 2 module; its index; the record that triggered it. -/
structure Dump where
  scope : Nat
  index : Nat
  logseq : Option Nat
  startFrame : Nat
  /-- slot that it fills -/
  slot : Nat
  /-- blocks recorded UNREADABLE, with their reason -/
  unreadable : List (Nat × Nat × Nat) := []
  endFrame : Option Nat := none
  /-- the unit reset when the dump ends: (1, core) or (2, cluster) or (3, 0); 0 for a request -/
  thenReset : Nat × Nat := (0, 0)
  /-- the fault tail as it stood at the start -/
  tail : List FaultRec := []
  /-- the progress records read (R192), and the cell headers received and launched by port (R430) -/
  prog : List (List Byte) := []
  rxHeads : List (Nat × List (List Byte)) := []
  txHeads : List (Nat × List (List Byte)) := []
  /-- the live and the capture sets of its blocks (R471), and what the other sections hold, by section (R430) -/
  live : Sparse (List Nat) := []
  captured : Sparse (List Nat) := []
  parts : Sparse (List Nat) := []
deriving DecidableEq, Repr

structure HrcSt where
  logseq : Nat := 0
  tail : List FaultRec := []
  /-- codes and contexts for which a notice was recorded in this frame (R428) -/
  notices : List (Nat × Nat) := []
  flogCi : Nat := 0
  flogSkipped : Nat := 0
  flogIrq : Bool := false
  flogDirty : Bool := false
  stops : List StopReq := []
  /-- units that raised CORE_HANG and have not been reset: core (key), cluster (1000 + key), another (4096 × kind + unit)
  (R424) -/
  hung : List Nat := []
  /-- cores whose present reset follows a CORE_HANG (R357) -/
  afterHang : List Nat := []
  /-- a whole-module recovery has ended the contexts and reset the module, and is not yet done (R437) -/
  inRecovery : Bool := false
  /-- the tick at which the last recovery was decided (R437) -/
  recoverAt : Nat := 0
  dumps : List Dump := []
  running : Option Dump := none
  waiting : Option Dump := none
  /-- tick of the last heartbeat evaluation, and its frame (R419) -/
  hbLast : Nat := 0
  hbFrame : Nat := 0
  /-- frames in which a die was duty-gated since the last heartbeat tick -/
  hbGated : Sparse Nat := []
  /-- ticks since the last kick of the control-complex watchdog by a control processor, running while firmware is started
  (R421) -/
  fwTicks : Sparse Nat := []
  /-- Idfort's times of the last resets, in seconds, of a core (key), a cluster (1000 + key), the module (2000) -/
  resetTimes : List (Nat × Nat) := []
deriving DecidableEq, Repr

/-! ### Evening copy (R396–R417) -/

/-- A writer that waits for a page of the shadow pool (R402): an operation, a core, an arriving cell by its source and
transfer, an engine of the module (the restore of context n, the Daybreak load of context n − 64, the weight intake of
channel n − 128), or the units of the hub whose writes the state holds; a debug session's
write never waits. -/
inductive Writer where
  | op (ring idx : Nat)
  | core (c : Nat)
  | cell (src xfer : Nat)
  | engine (n : Nat)
  | hub
  | debug
deriving DecidableEq, Repr

/-- A write of a hub unit that waits (R402): its party, the kind of its unit, and its cells by PA. -/
structure HeldWrite where
  party : PartyRec
  kind : Nat
  cells : List Host.Cell
deriving DecidableEq, Repr

/-- A page of the copy-on-write shadow pool in use (R402, R403): its index in the pool, the PA and VA of the
page that it holds, and its uses. -/
structure ShadowPg where
  index : Nat
  pa : Nat
  va : Nat
  /-- global page index of the checkpoint that needs it -/
  ckpt : Option Nat := none
  /-- context whose attempt recorded it as a LOCAL pre-image -/
  pre : Option Nat := none
deriving DecidableEq, Repr

/-- A restore in progress (R412, R413): the ENDs of the chain (epoch and shard digest), the RANGE records
seen, the EPOCH of the last PAGE record, and the hashes of the pages written, by global page. -/
structure RestoreSt where
  ends : List (Nat × Nat × Nat) := []
  lastStep : Nat := 0
  ranges : Nat := 0
  lastEpoch : Nat := 0
  /-- SEQ of the record read last -/
  lastSeq : Nat := 0
  written : Sparse (Option (Nat × Nat)) := []
deriving DecidableEq, Repr

structure CkpSt where
  pending : List Nat := []
  shadow : List ShadowPg := []
  rangesSent : Nat := 0
  /-- step, epoch and PREV of the cut -/
  cutStep : Nat := 0
  cutEpoch : Nat := 0
  cutPrev : Nat := 0
  /-- producer index of the target area, CI as last read, and frames for which CI stayed while full -/
  pi : Nat := 0
  ci : Nat := 0
  ciSame : Nat := 0
  /-- a writer waits for a shadow page, of the checkpoint or of a LOCAL range, in this frame -/
  cowWait : Bool := false
  preWait : Bool := false
  /-- the waiting writers in the order in which they began to wait, each with whether a LOCAL pre-image is due (R402) -/
  waits : List (Writer × Bool) := []
  /-- writes of the hub's own units that wait for a shadow page (R402) -/
  held : List HeldWrite := []
  restore : RestoreSt := {}
  /-- writes to a target module that wait for the one before to be visible: offset and bytes (R404) -/
  outbox : List (Nat × List Byte) := []
  /-- the END record is on its way to a target module (R405) -/
  endSent : Bool := false
deriving DecidableEq, Repr

/-! ### Integrity (R337–R364) -/

/-- A sampled tile sequence in a duplicate queue (R347), with the party whose LAUNCH ran it. -/
structure DupEntry where
  die : Nat
  lcore : Nat
  pcore : Nat
  /-- physical core that checks it (R346) -/
  check : Nat
  q : Nat
  party : PartyRec
  step : Nat
  attempt : Nat
  /-- bytes that it holds in the queue -/
  bytes : Nat
  /-- the tile before and after the sequence, and its MMAs -/
  prior : TileImg := {}
  jobs : List (Option MmaJob) := []
  last : TileImg := {}
deriving DecidableEq, Repr

/-- The severity of a CPER record (R360). -/
inductive Severity where
  | recoverable | corrected | informational
deriving DecidableEq, Repr

/-- A CPER record (R360): the fields of its vendor section that the event gives, and its acknowledgement. -/
structure Cper where
  event : Nat
  fault : Nat
  unitKind : Nat
  location : Nat := 0
  unit : Nat
  peer : Nat := 0xFFFF
  opcode : Nat := 0
  cls : Nat := 0xFF
  pack : Nat := 0
  frame : Nat
  /-- sensor readings, which the manual leaves open: free values (R352) -/
  temp : Nat := 0
  volt : Nat := 0
  neighbour : Nat := 0
  pattern : Nat := 0
  /-- 65 where the event names no die -/
  duty : Nat := 65
  score : Nat := 0
  scoreBefore : Nat := 0
  module : Nat
  attempt : Nat := 0
  step : Nat := 0
  detail : Nat := 0
  acked : Bool := false
deriving DecidableEq, Repr

/-- A temperature band entry (R351): °C, and the tick at which it was made. -/
structure BandEntry where
  temp : Int
  tick : Nat
deriving DecidableEq, Repr

/-- A stored test pack (R361). -/
structure Pack where
  id : Nat
  operatorMade : Bool
  admission : Bool
  items : List TestItem
  svn : Nat
  size : Nat
  /-- the tick at which it was stored (R455) -/
  since : Nat
deriving DecidableEq, Repr

structure IntSt where
  dups : List DupEntry := []
  /-- scores of core (key), cluster (1000 + key), module (2000); 1000 when unlisted (R357) -/
  scores : Sparse Nat := []
  /-- tick of the last charge or recovery of a unit, by the same key -/
  charged : Sparse Nat := []
  /-- temperature bands of a core, oldest first, and whether it lies in one (R351) -/
  bands : Sparse (List BandEntry) := []
  inBand : List Nat := []
  /-- the last 4,096 CPER records, oldest first (R360) -/
  cper : List Cper := []
  packs : List Pack := []
  operatorKeys : Nat := 0
  /-- entries whose operands are retained after a mismatch (R350) -/
  retained : List DupEntry := []
  /-- the fused minimum SVN of test packs (R455) -/
  packMin : Nat := 0
  /-- the tick after which each core's array was last busy (R352) -/
  arrayBusy : Sparse Nat := []
  /-- cores on which a test item runs, with its pack and number; and those with a LAUNCH in flight at the last tick (R362) -/
  testing : List (Nat × Nat × Nat) := []
  busy : List Nat := []
  /-- the ticks of a core's last 1,024 frames in which it ran a test item under SHARE (R362) -/
  testFrames : Sparse (List Nat) := []
  /-- admission at Daybreak (R363): the item runs that have ended, as core, pack and item, and the tick of the limit -/
  admitRun : Option (List (Nat × Nat × Nat) × Nat) := none
  /-- the tick at which a core last passed an ADMISSION item (R390), by core, pack and item -/
  passed : List (Nat × Nat × Nat × Nat) := []
deriving DecidableEq, Repr
/-! ### Light (R231–R270) -/

/-- A ring (R243): heater code, state, the state held while FROZEN, the cartridge of its strongest tone,
recovery attempt, consecutive frames within ±5 codes, its tone check (start tick, frames), the start of its
sweep or acquisition, and a recalibrated H_CAL. -/
structure RingSt where
  heater : Nat := 0
  st : Nat := 0
  held : Nat := 0
  tone : Nat := 31
  attempt : Nat := 0
  good : Nat := 0
  check : Option (Nat × Nat) := none
  sweep : Option Nat := none
  acquire : Option Nat := none
  /-- H_CAL as Dawn loads it (R243) -/
  hcal : Option Nat := none
deriving DecidableEq, Repr

/-- A lane move in progress (R250): the lane, whether it moves back to its own wavelength, and its tick D. -/
structure LanePlan where
  lane : Nat
  back : Bool
  at_ : Nat
deriving DecidableEq, Repr

/-- What a port knows of a module whose cells it terminates (R234, R256): the lane that it carries on λ16,
its source cartridges, and an announced change of the lane with its tick. -/
structure SourceMap where
  txSpare : Nat := 31
  sources : List Nat := []
  change : Option (Nat × Nat) := none
  /-- the rest of its last beacon: its port, slice tag and whether its bypass switch is OPEN -/
  port : Nat := 0
  slice : Nat := 0
  bypassOpen : Bool := false
deriving DecidableEq, Repr

/-- A port beside its registers. The causes of quiet and of hold: λ 0–17 a recovering ring, 32 + lane a lane
alarm's check, 64 + lane a lost laser, 96 a calibration. -/
structure PortSt where
  quiet : List Nat := []
  hold : List Nat := []
  quietTicks : Nat := 0
  move : Option LanePlan := none
  sources : Sparse SourceMap := []
  /-- after a motion: the next beacon is the first of a new peer (R269) -/
  fresh : Bool := true
  trainAt : Option Nat := none
  trained : Bool := false
  measureAt : Option Nat := none
  gapEnd : Option Nat := none
  /-- the port has been UP, and the frames without a valid service message since (R389) -/
  wasUp : Bool := false
  silent : Nat := 0
  downAt : Option Nat := none
  rerouted : Bool := false
  credits : Nat := 0
  /-- the requester served last on the port's OPEN slots (R283) -/
  served : Nat := 32
  /-- modules whose HOLD refusal keeps cells of the port queued (R248) -/
  heldBy : List Nat := []
  /-- hop sequence of the service lane, last received in order and last sent, and the last 256 messages sent, newest
  first, each with its sequence and hops (R255) -/
  hopRecv : Nat := 0
  hopSent : Nat := 0
  sentMsgs : List (Nat × Nat × SvcBody) := []
  /-- consecutive slots with a lane in error, by lane; and the lane alarms that 4 of them made due: their sources and lanes
  (R246) -/
  laneErr : Sparse Nat := []
  alarm : List (Nat × List Nat) := []
  /-- headers of the last 256 cells received and launched, newest first (R430) -/
  rxHeads : List (List Byte) := []
  txHeads : List (List Byte) := []
  /-- UP and EXPRESS_OK as they stood at the last tick (R284) -/
  upTick : Bool := false
  okTick : Bool := false
  beaconAt : Nat := 0
deriving DecidableEq, Repr

/-- A swap of the source of a wavelength (R258): old and new cartridge, start, whether the old one failed, a
handing back to a fixed cartridge, a calibration's swap, and the ticks of lock and of the switch. -/
structure SwapSt where
  lam : Nat
  old : Nat
  new : Nat
  start : Nat
  failed : Bool := false
  cal : Bool := false
  locked : Bool := false
  switchAt : Option Nat := none
  switched : Bool := false
deriving DecidableEq, Repr

/-- A bypass switch beside its registers: its last motion's start, the listener's frame count and the tick at
which it stood (R266, R268). -/
structure BypSt where
  lastStart : Option Nat := none
  listener : Option (Nat × Nat) := none
deriving DecidableEq, Repr

structure OptSt where
  /-- by 36 × port + 18 × (receive side) + λ -/
  rings : Sparse RingSt := []
  ports : Sparse PortSt := []
  /-- commissioned powers in Idfort's storage (R239), by cartridge, and recalibrated H_CALs (R498), by ring -/
  pc : Sparse Nat := []
  calStore : Sparse (Option Nat) := []
  /-- the last 1,024 readings of a cartridge, newest first (R239) -/
  hist : Sparse (List Nat) := []
  /-- the frames, up to 1,024, for which a cartridge has been lit (R257) -/
  litFor : Sparse Nat := []
  swaps : List SwapSt := []
  /-- laser failures to be raised: cartridge, cause, tick from which they act (R260) -/
  failDue : List (Nat × Nat × Nat) := []
  /-- previous source of a wavelength and the tick of its swap (R245) -/
  prevSrc : Sparse (Nat × Nat) := []
  byps : Sparse BypSt := []
  /-- a calibration in progress (R498): kind, index, start -/
  cal : Option (Nat × Nat × Nat) := none
  /-- its cartridge has been measured, and the H_CALs that its rings had before -/
  calMeasured : Bool := false
  calOld : List (Nat × Option Nat) := []
deriving DecidableEq, Repr

/-! ### Cells and the slot switch (R271–R305) -/

/-- The queue in which a cell waits (R282, R283): the module's own open queue of a port, a flow of a port, or
the open or fixed buffer of an input port. -/
inductive Queue where
  | own (port : Nat)
  | flow (port f : Nat)
  | buf (port : Nat) (fixed : Bool)
deriving DecidableEq, Repr

/-- The descriptor whose cell it is: ring, ring index, context. Ring 256 stands for the module's own engines: index 0 the
restore (R377), 1 the Daybreak load (R391), 2 the checkpoint (R404), 3 the ring engine (R368), 4 the read of a target module's
CI (R404). -/
structure Owner where
  ring : Nat
  idx : Nat
  ctx : Nat
deriving DecidableEq, Repr

/-- A cell of the module: where it waits, its owner, its refusals (R253), its link sequence once launched, and
while in flight the port, the terminating module and the tick of launch. -/
structure QCell where
  cell : Cell
  queue : Queue
  owner : Option Owner := none
  refusals : Nat := 0
  lseq : Option Nat := none
  flight : Option (Nat × Nat × Nat) := none
  /-- the PAs from which the payload of an own cell is read, again for each relaunch (R253) -/
  src : List Nat := []
  /-- its place in an open buffer was paid for with a credit (R283) -/
  paid : Bool := false
deriving DecidableEq, Repr

/-- A transfer of a descriptor (R288, R289): cells not yet acknowledged, the last ACK's tick, and what is
awaited: a DELIVERED report, or for a read the data itself. A dead one has lost its descriptor and awaits its report alone. -/
structure Xfer where
  num : Nat
  owner : Owner
  dest : Nat
  gen : Nat
  unacked : Nat
  lastAck : Option Nat := none
  delivered : Bool := false
  dead : Bool := false
  /-- the payload bytes of the cells that carry its data, by index, and the indices known to have reached the destination
  (R193) -/
  lens : List Nat := []
  landed : List Nat := []
deriving DecidableEq, Repr

/-- An arriving transfer (R288): its origin and number, the context, the indices written, and the last one. -/
structure RxXfer where
  src : Nat
  num : Nat
  gen : Nat
  got : List Nat := []
  last : Option Nat := none
  done : Bool := false
deriving DecidableEq, Repr

/-- A COLL that runs (R295): its ring and ring index, its context, group number and tensor, its kind, operation, format,
element count and destination VA, this module's rank, the ranks' modules in order, the flow per port and the partner that gets
a copy, its own source; and once formed the result of its own shard of an all-reduce. A run is over once its result is
written. -/
structure CollRun where
  ring : Nat
  idx : Nat
  ctx : Nat
  group : Nat
  tensor : Nat
  kind : Nat
  oper : Nat
  fmt : Fmt
  count : Nat
  dst : Nat
  rank : Nat
  members : List Nat
  flows : List Nat
  partner : Option Nat
  own : List Byte
  shard : Option (List Byte) := none
deriving DecidableEq, Repr

/-- What another rank has sent for a collective (R288, R295): its module and transfer, context, group and tensor, the
pieces by element offset, and whether all of it has arrived. -/
structure CollPart where
  src : Nat
  num : Nat
  ctx : Nat
  group : Nat
  tensor : Nat
  pieces : List (Nat × List Byte) := []
  whole : Bool := false
deriving DecidableEq, Repr

/-- A READ_REQ to be answered (R271): its origin and transfer, the context, its payload (the source half of the shape, the
range of cells wanted, the element size, the number of bytes and the destination VA) and the source VA. -/
structure ReadReq where
  src : Nat
  xfer : Nat
  gen : Nat
  ctx : Nat
  body : List Byte
  addr : Nat
deriving DecidableEq, Repr

/-- A READ's destination at the origin: where the bytes of the transfer go, by position (R148). -/
structure ReadDst where
  num : Nat
  owner : Owner
  /-- destination byte addresses in element order: PAs of the scratchpad aperture, or virtual -/
  sp : Bool
  dst : List Nat
deriving DecidableEq, Repr

/-- Link sequences of a port and terminating module, and those accepted from a launching module: the next in
order, and the ones accepted ahead of it (R252, R253). -/
structure RxLink where
  /-- a cell was accepted from the module -/
  seen : Bool := false
  next : Nat := 0
  ahead : List Nat := []
deriving DecidableEq, Repr

structure FabSt where
  /-- schedule words by 2,048 × bank + 32 × slot + 2 × port (+ 1 for the output word) (R276) -/
  sched : Sparse Nat := []
  /-- a load in progress: bank, and whether it was refused at GO (R277) -/
  load : Option (Nat × Bool) := none
  /-- the pending swap: bank, frame, acceptance number of its PHASE (R278) -/
  swap : Option (Nat × Nat × Nat) := none
  /-- routing entries as last written, as in effect, and the ticks of writes not yet in effect (R285) -/
  routeNew : Sparse Nat := []
  routes : Sparse Nat := []
  routeDue : Sparse Nat := []
  cells : List QCell := []
  /-- cells that were accepted and wait for a shadow page, oldest first, each with its context (R402) -/
  waitCells : List (Nat × Cell) := []
  txLseq : Sparse Nat := []
  rxLink : Sparse RxLink := []
  xfers : List Xfer := []
  rxXfers : List RxXfer := []
  reads : List ReadReq := []
  readDst : List ReadDst := []
  colls : List CollRun := []
  collParts : List CollPart := []
  nextXfer : Nat := 0
  /-- last GCM counter per key slot (R301) -/
  nonces : Sparse Nat := []
  /-- an armed key switch's frame, and the old slot with the tick of its erasure (R302) -/
  keyArm : Option Nat := none
  keyErase : Option (Nat × Nat) := none
  /-- TERM_ONLY as it stood at the last tick (R284) -/
  termTick : Bool := false
  /-- service messages of unknown class, and class-7 bodies of unknown KIND, dropped (R255, R380) -/
  unknownClass : Nat := 0
deriving DecidableEq, Repr

/-! ### Pins and supplies (R477–R489) -/

/-- The pins and supplies as the module sees them (R478–R487), the PCIe port (R481), the I3C address (R483) and the
stages of Dawn (R489). -/
structure PinSt where
  body : Bool := true
  v48 : Bool := true
  v12 : Bool := true
  /-- MOD_RESET_N has been low for 1 µs (R487) -/
  resetLow : Bool := false
  /-- the presence contact has been mated for 100 ms and the 48 V loads are released (R479) -/
  mated : Bool := true
  /-- THERM_TRIP_N is asserted, and the 48 V loads are removed until a new Dawn (R470, R485) -/
  tripped : Bool := false
  loadsOff : Bool := false
  /-- the tick at which 48 V fell below 44 V (R478) -/
  under : Option Nat := none
  /-- the PCIe link is up, and the port accepts configuration requests (R481, R487) -/
  pcieUp : Bool := true
  configReady : Bool := false
  /-- dynamic address of the I3C target (R483) -/
  i3c : Option Nat := none
  /-- a Dawn runs: from the release of MOD_RESET_N with both rails until RELAY_READY (R489) -/
  dawn : Bool := true
  /-- the tick of the last accepted TRIG_IN edge (R485) -/
  trigAt : Option Nat := none
  /-- accepted PPS_IN edges in a row, at most 2 (R486), and the tick of the last -/
  ppsRun : Nat := 0
  ppsAt : Option Nat := none
  /-- SWT_CTRL.ENABLE as it stood at the last tick (R491) -/
  enableTick : Bool := false
deriving DecidableEq, Repr

/-! ### Idfort: keys, sessions, power, firmware (R448–R476, R493–R497) -/

/-- A KEY_OFFER that awaits its KEY_WRAP (R456): kind 1 weight, 2 link; the bound context and slot. -/
structure KeyOffer where
  kind : Nat
  ctx : Nat
  gen : Nat
  vcid : Nat
  slot : Nat
  dump : Nat
  /-- the broker's nonce, the ephemeral private key, and the signature of the offer -/
  nonce : Nat
  priv : Nat
  signed : Nat
deriving DecidableEq, Repr

/-- An open debug session (R464): level 1 invasive, 2 vendor; its serial number, the fuse words that its token
names, and the 4 KiB blocks returned encrypted (R465). -/
structure DebugSession where
  level : Nat
  serial : Nat
  fuses : List Nat := []
  blocks : Nat := 0
  /-- the ephemeral private key of an invasive session (R465) -/
  priv : Nat := 0
deriving DecidableEq, Repr

/-- A weight intake in progress (R458): mailbox channel and sender, and the request's fields. -/
structure Intake where
  chan : Nat
  ctx : Nat
  slot : Nat
  host : Nat
  va : Nat
  count : Nat
  tensor : Nat
  first : Nat
  /-- chunks written so far -/
  written : Nat := 0
deriving DecidableEq, Repr

/-- A firmware image copied into an SRAM half (R454): its SVN and digest. -/
structure FwImage where
  svn : Nat
  digest : Nat
deriving DecidableEq, Repr

/-- Idfort's own state beside its registers. -/
structure SecSt where
  /-- digest of the enrolled operator CA certificate (R453) -/
  operator : Option Nat := none
  /-- the operator's setting of the host's view: tenant (R462) -/
  tenantView : Bool := true
  rollForward : Bool := false
  offers : List KeyOffer := []
  /-- contexts to which the link slots are bound, with their generation (R456, R461) -/
  linkBind : Sparse (Option (Nat × Nat)) := []
  /-- the keys in the weight and link slots (R302, R457): no register shows them -/
  weightKeys : Sparse Nat := []
  linkKeys : Sparse Nat := []
  /-- dump public keys kept with the weight slots (R457) -/
  dumpKeys : Sparse Nat := []
  session : Option DebugSession := none
  /-- sessions opened so far: the serial number of the last (R464) -/
  sessions : Nat := 0
  /-- a vendor session that waits for the Dusk of sealed contexts and for zeroing (R466): its fuse words -/
  vendorWaits : Option (List Nat) := none
  /-- SPDM sessions: over the management network or DOE, number, established (R449) -/
  spdm : List (Bool × Nat × Bool) := []
  /-- connections of the two management ports: 0 none, 1 without a certificate, 2 the operator's (R452, R453) -/
  conns : Sparse Nat := []
  /-- control processors halted by an invasive session (R464) -/
  halted : List Nat := []
  /-- single steps that halted control processors have still to run (R464) -/
  cpSteps : Sparse Nat := []
  intakes : List Intake := []
  /-- fuse words (R464, R466) -/
  fuses : Sparse Nat := []
  /-- Idfort firmware: SVN, digest, fused minimum (R450, R455) -/
  idfortSvn : Nat := 0
  idfortDigest : Nat := 0
  idfortMin : Nat := 0
  /-- the tick from which the Idfort firmware runs (R455) -/
  idfortSince : Nat := 0
deriving DecidableEq, Repr

/-- The duty caps and the power readings (R463, R469): sums over the interval of 256 frames and over the second. -/
structure PowSt where
  sum256 : Nat := 0
  n256 : Nat := 0
  sumSec : Nat := 0
  nSec : Nat := 0
  last : Nat := 0
  /-- the tenant's reading (R463) -/
  second : Nat := 0
  powerCap : Nat := 64
  /-- die temperature caps by die, and the current cap with the tick from which it acts -/
  tempCap : Sparse Nat := []
  curCap : Nat := 64
  curDue : Option Nat := none
  /-- the duty levels of a die in the last frames, each with the tick from which it held, newest first (R352) -/
  dutyLog : Sparse (List (Nat × Nat)) := []
  /-- ticks of the last duty update and of the last average of a second -/
  dutyLast : Nat := 0
  secLast : Nat := 0
deriving DecidableEq, Repr

/-- An armed capture (R472, R473): its frame, its source as LAST_SRC codes it, and the SNAPs that complete with it. -/
structure Capture where
  frame : Nat
  src : Nat
  snaps : List Nat := []
deriving DecidableEq, Repr

structure SnpSt where
  armed : Option Capture := none
  /-- blocks whose capture set is invalid since the last capture, as kind × 4096 + unit (R471) -/
  invalid : List Nat := []
  /-- the capture sets, by block (R471) -/
  sets : Sparse (List Nat) := []
deriving DecidableEq, Repr

/-- The control-complex firmware (R493–R497). -/
structure FwSt where
  imageA : Option FwImage := none
  imageB : Option FwImage := none
  /-- a LOAD in progress: half, host address, length -/
  load : Option (Nat × Nat × Nat) := none
  /-- a START accepted: half, and the tick from which the control processors run -/
  start : Option (Nat × Nat) := none
  /-- frame of a pending hand-over -/
  swap : Option Nat := none
  /-- tick at which the running half began, for GOOD and for roll-forward (R455, R497) -/
  since : Nat := 0
deriving DecidableEq, Repr


/-- SPDM responses (R449, R456). -/
inductive SpdmResp where
  | version | capabilities | algorithms | digests | certificate | challengeAuth | measurements | keyExchangeRsp
  | finishRsp | endSessionAck | keyOffer | keyWrapAck | error
deriving DecidableEq, Repr


/-! ### What leaves the module -/

/-- What the module sends: messages, interrupts and pin pulses. The model's own record of it. -/
inductive Out where
  /-- a service message on a port's λ17 (R255): its header and what it carries; with an inverted CRC where it was found
  wrong while it was being forwarded -/
  | svc (port : Nat) (h : SvcHeader) (m : SvcBody) (inverted : Bool)
  /-- an MSI-X vector (R191, R204, R427) -/
  | msix (vector : Nat)
  /-- a wake event at an endpoint (R204) -/
  | wake (endpoint : Nat)
  /-- the module asks the partner for its LAST_STEP before a load (R391) -/
  | query (dest : Nat)
  /-- a CPER record that Idfort exports (R360): its severity and vendor section -/
  | cper (severity : Severity) (body : List Byte)
  /-- the light of a slot that the module launches on a port (R234, R235, R250, R283): the lane that travels on λ16, the
  wavelengths that carry the training pattern, and the cell; its lanes are `slotLight` of the cell -/
  | slot (slot port spare : Nat) (training : List Nat) (c : Cell)
  /-- light that crosses the module in a slot from an input to an output port (R280) -/
  | express (slot inp out : Nat) (c : Cell)
  /-- a notice on the management network: kind name and its numbers -/
  | notice (kind : ShortKind) (args : List Nat)
  /-- an I3C in-band interrupt, and the status record of a private read (R483) -/
  | ibi
  | i3c (bytes : List Byte)
  /-- a pulse on TRIG_OUT (R472) -/
  | trigOut
  /-- an SPDM response over DOE or the management network: its name, and its numbers (R449) -/
  | spdm (net : Bool) (resp : SpdmResp) (args : List Nat)
  /-- a TLS connection of a management port (R452): its port, the suite, the key exchange group and the chain presented -/
  | tls (port : Nat) (args : List Nat)
  /-- a Redfish action answered (R452): accepted or refused -/
  | redfish (ok : Bool)
  /-- data of an invasive read (R465): for sealed data the session's serial number, first block counter and ephemeral
  public key -/
  | debugData (sealing : Option (Nat × Nat × Nat)) (bytes : List Byte)
  /-- scan or fuse data of a vendor session (R466) -/
  | vendorData (words : List Nat)
  /-- the answer to an identity or health request (R490): destination, module ID, part, serial number, score -/
  | identity (dest : Nat) (args : List Nat)
deriving DecidableEq, Repr

/-! ### The module -/

structure State where
  /-- the register window, by BAR0 offset (R499); unlisted registers hold their reset value -/
  regs : Sparse Word := []
  /-- the read latches, by the offset of the partner register (R502) -/
  latch : Sparse Word := []
  /-- what the last register read returned (the model's own) -/
  lastRead : Word := 0
  /-- what the module has sent, newest first (the model's own) -/
  out : List Out := []
  /-- free values drawn so far (the model's own) -/
  freeCtr : Nat := 0
  /-- near and board memory, by PA (R134); unlisted bytes are 0 -/
  mem : List Host.Cell := []
  /-- poisoned granules: the first PA of each, rising (R157); scratchpad words by their aperture PA -/
  poison : List Nat := []
  /-- what the module has written to host memory, by host address -/
  hostMem : List Host.Cell := []
  time : TimeSt := {}
  cores : Sparse Core := []
  sub : SubSt := {}
  syn : SynSt := {}
  memx : MemSt := {}
  rpl : RplSt := {}
  ckp : CkpSt := {}
  integ : IntSt := {}
  hrc : HrcSt := {}
  opt : OptSt := {}
  fab : FabSt := {}
  pins : PinSt := {}
  sec : SecSt := {}
  pow : PowSt := {}
  snp : SnpSt := {}
  fw : FwSt := {}
  pending : List Instr := []
deriving DecidableEq, Repr

/-- The stops of the machine. No command of the model ends in one. -/
inductive Fault where
  /-- raised by nothing: every fault of the manual is an effect on State (safe) -/
  | none
deriving DecidableEq, Repr

/-- The refusals of the machine. -/
inductive Refusal where
  /-- raised by an arm of Dispatch.lean for a command that has no meaning yet (safe) -/
  | notModelled (mnemonic : String)
deriving DecidableEq, Repr

/-- The module right after reset: Night relay, every register at its reset value, nothing in any memory,
queue or engine, and no command pending. -/
def State.reset : State := {}

end Sys2Proof.Machine
end

