-- ==== Sys2Proof/Machine/Ops.lean ====
section
/-! DEFINITION. The named operations over the state: registers, the parts keyed by number, what leaves the
module, memory and address translation. -/
namespace Sys2Proof.Machine

/-! ### Registers -/

/-- The stored word of the register at an offset. -/
def State.reg (s : State) (a : Nat) : Word := sget Reg.resetOf s.regs a

/-- Store a whole register word. -/
def State.setReg (s : State) (a : Nat) (v : Word) : State := { s with regs := sset Reg.resetOf s.regs a v }

/-- A field of a register (R13). -/
def State.get (s : State) (f : Reg.Fld) : Nat := bitsOf (s.reg f.reg).toNat f.lo f.w

/-- A field of a register set to a value, the rest of the register unchanged. -/
def State.put (s : State) (f : Reg.Fld) (v : Nat) : State :=
  s.setReg f.reg (BitVec.ofNat 32 (setBits (s.reg f.reg).toNat f.lo f.w v))

/-- A status or event bit set. -/
def State.mark (s : State) (f : Reg.Fld) : State := s.put f 1

/-- A one-bit field as a truth value. -/
def State.on (s : State) (f : Reg.Fld) : Bool := s.get f == 1

/-- A saturating counter increased by n. -/
def State.bump (s : State) (f : Reg.Fld) (n : Nat := 1) : State := s.put f (satAdd (2 ^ f.w - 1) (s.get f) n)

/-- Two registers read as one 64-bit number. -/
def State.get64 (s : State) (lo hi : Reg.Fld) : Nat := s.get lo + s.get hi * 2 ^ lo.w

/-- Two registers set from one 64-bit number. -/
def State.put64 (s : State) (lo hi : Reg.Fld) (v : Nat) : State := (s.put lo v).put hi (v / 2 ^ lo.w)

/-- The latch of a partner register (R502): 0 until the first latching read. -/
def State.latched (s : State) (a : Nat) : Word := sget (fun _ => 0) s.latch a

def State.setLatch (s : State) (a : Nat) (v : Word) : State := { s with latch := sset (fun _ => 0) s.latch a v }

/-- The value that a read command returns. -/
def State.answer (s : State) (v : Word) : State := { s with lastRead := v }

/-- Something leaves the module. -/
def State.emit (s : State) (o : Out) : State := { s with out := o :: s.out }

/-- A free value, and the state that has drawn it. -/
def State.fresh (s : State) : Nat × State := (Config.freeValue s.freeCtr, { s with freeCtr := s.freeCtr + 1 })

/-- A saturating counter of cycles increased by a free number: what a rule counts is timing. -/
def State.bumpFree (s : State) (f : Reg.Fld) : State := s.fresh.2.bump f s.fresh.1

/-- The cycles that an instruction of core c is held on an earlier one's region (R118) and on the banks (R145): free
numbers. -/
def State.holdCycles (s : State) (c : Nat) : State :=
  (s.bumpFree (Reg.CORE_VX_HAZARD_CNT_CYCLES c)).bumpFree (Reg.CORE_SP_STALL_CNT_CYCLES c)

/-! ### Parts of the state by number -/

/-- The frame counter (R22). -/
def State.frame (s : State) : Nat := s.time.frame.toNat

/-- Frame ticks since reset. -/
def State.now (s : State) : Nat := s.time.ticks

/-- The tick of a frame whose counter is a multiple of n has come, or was skipped by a step (R20, R40). -/
def State.atMultiple (s : State) (n : Nat) : Bool := s.time.base / n < s.time.top / n

/-- The tick of a frame whose low 32 bits are v has come, or was skipped by a step (R40). -/
def State.atLow32 (s : State) (v : Nat) : Bool :=
  let b := s.time.base + 1
  b + (v + 2 ^ 32 - b % 2 ^ 32) % 2 ^ 32 ≤ s.time.top

/-- A tick-aligned action of position k in the order of R21 is taken; an action of an earlier position has no turn at
this tick any more. -/
def State.turn (s : State) (k : Nat) : State := { s with time := { s.time with pos := k } }

def State.core (s : State) (c : Nat) : Core := sget (fun _ => {}) s.cores c
def State.setCore (s : State) (c : Nat) (v : Core) : State := { s with cores := sset (fun _ => {}) s.cores c v }
def State.modCore (s : State) (c : Nat) (f : Core → Core) : State := s.setCore c (f (s.core c))

def State.ring (s : State) (r : Nat) : RingX := sget (fun _ => {}) s.sub.rings r
def State.setRing (s : State) (r : Nat) (v : RingX) : State :=
  { s with sub := { s.sub with rings := sset (fun _ => {}) s.sub.rings r v } }
def State.modRing (s : State) (r : Nat) (f : RingX → RingX) : State := s.setRing r (f (s.ring r))

def State.chan (s : State) (n : Nat) : Chan := sget (fun _ => {}) s.sub.chans n
def State.setChan (s : State) (n : Nat) (v : Chan) : State :=
  { s with sub := { s.sub with chans := sset (fun _ => {}) s.sub.chans n v } }

def State.obj (s : State) (o : Nat) : SyncObj := sget (fun _ => {}) s.syn.objs o
def State.setObj (s : State) (o : Nat) (v : SyncObj) : State :=
  { s with syn := { s.syn with objs := sset (fun _ => {}) s.syn.objs o v } }

def State.nbr (s : State) (p : Nat) : Nbr := sget (fun _ => {}) s.time.nbrs p
def State.setNbr (s : State) (p : Nat) (v : Nbr) : State :=
  { s with time := { s.time with nbrs := sset (fun _ => {}) s.time.nbrs p v } }

def State.ctx (s : State) (c : Nat) : CtxX := sget (fun _ => {}) s.rpl.ctxs c
def State.setCtx (s : State) (c : Nat) (v : CtxX) : State :=
  { s with rpl := { s.rpl with ctxs := sset (fun _ => {}) s.rpl.ctxs c v } }
def State.modCtx (s : State) (c : Nat) (f : CtxX → CtxX) : State := s.setCtx c (f (s.ctx c))

/-- The operations in flight, in the order of acceptance. -/
def State.ops (s : State) : List Op := s.sub.ops
def State.setOps (s : State) (l : List Op) : State := { s with sub := { s.sub with ops := l } }

/-- The operation of a ring at a ring index. -/
def State.op? (s : State) (r i : Nat) : Option Op := s.ops.find? fun o => o.ring == r && o.idx == i

/-- The operation of an acceptance number. -/
def State.opNo? (s : State) (n : Nat) : Option Op := s.ops.find? fun o => o.order == n

/-- The operation of a ring at a ring index, changed. -/
def State.modOp (s : State) (r i : Nat) (f : Op → Op) : State :=
  s.setOps (s.ops.map fun o => if o.ring == r && o.idx == i then f o else o)

def State.dropOp (s : State) (r i : Nat) : State :=
  s.setOps (s.ops.filter fun o => !(o.ring == r && o.idx == i))

/-- Do an update for every element of a list, in order. -/
def State.each {α : Type} (s : State) (l : List α) (f : State → α → State) : State := l.foldl f s

/-- Do an update when a condition holds. -/
def State.when (s : State) (b : Bool) (f : State → State) : State := if b then f s else s

/-! ### Identity, contexts, placement -/

/-- The module ID (R9). -/
def State.moduleId (s : State) : Nat := s.get Reg.SWT_ID_MODULE_ID

/-- The generation of a context (R168). -/
def State.gen (s : State) (c : Nat) : Nat := s.get (Reg.SUB_CTX_GEN_GENERATION c)

/-- The virtual context ID of a context (R167). -/
def State.vcid (s : State) (c : Nat) : Nat := s.get (Reg.SUB_CTX_CTRL_VCID c)

/-- Whether a context is ACTIVE (R166). -/
def State.active (s : State) (c : Nat) : Bool := s.get (Reg.SUB_CTX_CTRL_STATE c) == 1

/-- The compute die of a physical core (R2). -/
def coreDie (c : Nat) : Nat := c / 36

/-- The cluster of a physical core, as die × 9 + cluster (R2, R425). -/
def coreCluster (c : Nat) : Nat := c / 4

/-- The field of RPL_CMAPd that maps logical cluster k of die d (R4, R387). -/
def cmapFld (d k : Nat) : Reg.Fld := ⟨Reg.RPL_CMAP d, 4 * k, 4⟩

/-- The physical core of a logical core, through the cluster map (R3, R4). -/
def State.physCore (s : State) (l : Nat) : Nat :=
  l / 32 * 36 + s.get (cmapFld (l / 32) (l % 32 / 4)) * 4 + l % 4

/-! ### Memory (R134, R144, R157) -/

def nearEnd : Nat := 0x6000000000
def boardBase : Nat := 0x8000000000
def boardEnd : Nat := 0xC000000000
def spBase : Nat := 0xC000000000
def spEnd : Nat := 0xC024000000

/-- Whether a PA lies outside the reserved ranges of R134. -/
def paExists (a : Nat) : Bool := a < nearEnd || (boardBase ≤ a && a < spEnd)

/-- What an unlisted byte of memory reads as: memory is cleared at training (R339). -/
def memZero : Nat → Byte := fun _ => 0

/-- The byte at a PA; the scratchpad aperture reaches the cores' scratchpads. -/
def State.byteAt (s : State) (a : Nat) : Byte :=
  if spBase ≤ a && a < spEnd then sget memZero (s.core ((a - spBase) / 0x400000)).sp ((a - spBase) % 0x400000)
  else sget memZero s.mem a

/-- One byte stored at a PA. -/
def State.setByte (s : State) (a : Nat) (b : Byte) : State :=
  if spBase ≤ a && a < spEnd then
    s.modCore ((a - spBase) / 0x400000) fun c => { c with sp := sset memZero c.sp ((a - spBase) % 0x400000) b }
  else { s with mem := sset memZero s.mem a b }

/-- n bytes from a PA on. -/
def State.bytesAt (s : State) (a n : Nat) : List Byte := (List.range n).map fun k => s.byteAt (a + k)

/-- n bytes from a PA on as a little-endian number (R11, R140, R181). -/
def State.natAt (s : State) (a n : Nat) : Nat := leNat (s.bytesAt a n)

/-- The poison unit of a PA (R157): a 64-byte granule, or an 8-byte word of scratchpad. -/
def poisonUnit (a : Nat) : Nat × Nat := if spBase ≤ a && a < spEnd then (a / 8 * 8, 8) else (a / 64 * 64, 64)

/-- Insert into a rising list. -/
def insertSorted (a : Nat) : List Nat → List Nat
  | [] => [a]
  | b :: l => if a < b then a :: b :: l else if a = b then b :: l else b :: insertSorted a l

/-- The page whose 16 check words a granule of a check region holds (R163, R340); none outside the regions, and
for the entries that would cover the regions themselves. -/
def checkedPage (pa : Nat) : Option Nat :=
  if pa < nearEnd then
    let n := pa % 0x1800000000 / 65536
    let k := ((n / 2 - 785664) * 65536 + pa % 65536) / 64
    if n / 2 < 785664 || 785664 ≤ k then none else some (pa / 0x1800000000 * 0x1800000000 + (2 * k + n % 2) * 65536)
  else if 0xBFF0000000 ≤ pa && pa < boardEnd then
    let page := boardBase + (pa - 0xBFF0000000) / 64 * 65536
    if page < 0xBFF0000000 then some page else none
  else none

/-- The block whose check word holds a byte of a check region (R340); none elsewhere. -/
def checkedBlock (pa : Nat) : Option Nat :=
  (checkedPage pa).map fun p => p + pa / 4 % 16 * 4096

/-- Where the check word of a block lies (R340). -/
def checkAt (a : Nat) : Nat :=
  if a < nearEnd then
    let die := a / 0x1800000000 * 0x1800000000
    let n := a % 0x1800000000 / 65536
    let j := 64 * (n / 2) + a % 65536 / 4096 * 4
    die + (2 * (785664 + j / 65536) + n % 2) * 65536 + j % 65536
  else 0xBFF0000000 + 4 * ((a - boardBase) / 4096)

/-- The check word that a block's contents ask for (R338). -/
def State.blockCrc (s : State) (b : Nat) : Nat := crc32c (s.bytesAt (b / 4096 * 4096) 4096)

/-- The byte at a PA as a reader finds it: in a check region a byte of the block's check word (R339, R342). What is held
there is the difference from the right word, 0 unless a check fails. -/
def State.paByte (s : State) (a : Nat) : Byte :=
  match checkedBlock a with
  | some b => s.byteAt a ^^^ BitVec.ofNat 8 (s.blockCrc b / 256 ^ (a % 4))
  | none => s.byteAt a

/-- One byte stored at a PA as a reader finds it afterwards. -/
def State.setPa (s : State) (a : Nat) (v : Byte) : State :=
  match checkedBlock a with
  | some b => s.setByte a (v ^^^ BitVec.ofNat 8 (s.blockCrc b / 256 ^ (a % 4)))
  | none => s.setByte a v

/-- The check word of the block of a PA does not match its data. -/
def State.checkBad (s : State) (a : Nat) : Bool := a < spBase && s.natAt (checkAt a) 4 != 0

/-- A read of a PA finds poison: in its unit, or in its block's check word (R157, R340). -/
def State.poisoned (s : State) (a : Nat) : Bool := s.poison.contains (poisonUnit a).1 || s.memx.badCheck.contains (a / 4096 * 4096)

/-- Mark the poison unit of a PA; in a check region the blocks whose check words it holds become unreadable. -/
def State.poisonAt (s : State) (a : Nat) : State :=
  let bad := match checkedPage a with
    | some p => (List.range 16).foldl (fun l k => insertSorted (p + 4096 * k) l) s.memx.badCheck
    | none => s.memx.badCheck
  { s with poison := insertSorted (poisonUnit a).1 s.poison, memx := { s.memx with badCheck := bad } }

/-- The cells of a run of bytes from an address on. -/
def cellsAt (a : Nat) (bs : List Byte) : List Host.Cell := bs.mapIdx fun k b => (a + k, b)

/-- A unit's poison that a write only partly covers (R157): such a write stores none of its bytes there. -/
def State.partialPoison (s : State) (w : List Host.Cell) : List Nat :=
  s.poison.filter fun g =>
    let n := (poisonUnit g).2
    w.any (fun c => (poisonUnit c.1).1 == g) && !((List.range n).all fun k => w.any fun c => c.1 == g + k)

/-- Cells cover a whole block. -/
def coversBlock (w : List Host.Cell) (b : Nat) : Bool := (List.range 4096).all fun k => w.any fun c => c.1 == b + k

/-- Store cells at their PAs under the poison rule of R157: a unit covered completely loses its poison, and
a poisoned unit covered partly keeps its contents and its poison; a write of a whole block originates its check
word (R339, R340). -/
def State.store (s : State) (w : List Host.Cell) : State :=
  let bad := s.partialPoison w
  let s1 := w.foldl (fun t c => if bad.contains (poisonUnit c.1).1 then t else t.setPa c.1 c.2) s
  { s1 with
    mem := s1.mem.filter fun e => !((checkedBlock e.1).any (coversBlock w))
    poison := s1.poison.filter fun g => bad.contains g || !(w.any fun c => (poisonUnit c.1).1 == g)
    memx := { s1.memx with badCheck := s1.memx.badCheck.filter fun g => !coversBlock w g } }

/-- Store a run of bytes at a PA. -/
def State.storeAt (s : State) (a : Nat) (bs : List Byte) : State := s.store (cellsAt a bs)

/-- What the module has written to host memory. -/
def State.hostByte (s : State) (a : Nat) : Byte := sget memZero s.hostMem a
def State.hostStore (s : State) (a : Nat) (bs : List Byte) : State :=
  { s with hostMem := (cellsAt a bs).foldl (fun m c => sset memZero m c.1 c.2) s.hostMem }

/-- The whole range [lo, hi) of a memory set to 0, its poison cleared (R147, R339, R461). -/
def State.zeroMem (s : State) (lo hi : Nat) : State :=
  { s with
    mem := sclear s.mem lo hi, poison := s.poison.filter (fun g => g < lo || hi ≤ g)
    memx := { s.memx with badCheck := s.memx.badCheck.filter fun g => g < lo || hi ≤ g } }

/-- A core's whole scratchpad set to 0 (R147). -/
def State.zeroSp (s : State) (c : Nat) : State :=
  { s.modCore c (fun k => { k with sp := [] }) with
    poison := s.poison.filter fun g => g < spBase + c * 0x400000 || spBase + (c + 1) * 0x400000 ≤ g }

/-! ### Address translation (R139–R142) -/

/-- A level-2 entry that maps. -/
structure Pte where
  page : Nat
  read : Bool
  write : Bool
  prot : Bool
  tenant : Bool
deriving DecidableEq, Repr

/-- Walk the two levels of a context's page table (R139, R140); none where an entry is not VALID or has a
reserved bit set (R141), or lies in a poisoned granule (R157). -/
def State.walkTable (s : State) (c va : Nat) : Option Pte :=
  if !s.on (Reg.MEM_PT_BASE_LO_VALID c) || va ≥ 2 ^ 44 then none
  else
    let base := s.get (Reg.MEM_PT_BASE_LO_BASE_LO c) * 2 ^ 17 + s.get (Reg.MEM_PT_BASE_HI_BASE_HI c) * 2 ^ 32
    let a1 := base + 8 * bitsOf va 30 14
    let e1 := s.natAt a1 8
    if s.poisoned a1 || !bitOn e1 0 || bitsOf e1 5 11 != 0 || bitsOf e1 40 24 != 0 then none
    else
      let a2 := bitsOf e1 17 23 * 2 ^ 17 + 8 * bitsOf va 16 14
      let e2 := s.natAt a2 8
      if s.poisoned a2 || !bitOn e2 0 || bitsOf e2 5 11 != 0 || bitsOf e2 40 24 != 0 then none
      else some ⟨bitsOf e2 16 24 * 2 ^ 16, bitOn e2 1, bitOn e2 2, bitOn e2 3, bitOn e2 4⟩

/-- The poisoned table entry that a walk meets (R157). -/
def State.walkPoison (s : State) (c va : Nat) : Option Nat :=
  if !s.on (Reg.MEM_PT_BASE_LO_VALID c) || va ≥ 2 ^ 44 then none
  else
    let base := s.get (Reg.MEM_PT_BASE_LO_BASE_LO c) * 2 ^ 17 + s.get (Reg.MEM_PT_BASE_HI_BASE_HI c) * 2 ^ 32
    let a1 := base + 8 * bitsOf va 30 14
    let e1 := s.natAt a1 8
    let a2 := bitsOf e1 17 23 * 2 ^ 17 + 8 * bitsOf va 16 14
    if s.poisoned a1 then some a1
    else if bitOn e1 0 && bitsOf e1 5 11 == 0 && bitsOf e1 40 24 == 0 && s.poisoned a2 then some a2
    else none

/-- The translations that the engines hold of a page. -/
def State.heldPtes (s : State) (c va : Nat) : List Pte :=
  (s.memx.tlb.filter fun e => e.ctx == c && e.vpage == va / 65536).map fun e => ⟨e.page, e.read, e.write, e.prot, e.tenant⟩

/-- The translation that an access uses (R142): the table's, or while an engine works, freely one that it holds. -/
def State.walk (s : State) (c va : Nat) : Option Pte :=
  match s.memx.tlbKey, s.heldPtes c va with
  | some k, x :: l =>
    let i := Config.oldEntry k (va / 65536) % (l.length + 2)
    if i = 0 then s.walkTable c va else some ((x :: l).getD (i - 1) x)
  | _, _ => s.walkTable c va

/-- An engine holds the translations of the pages that it uses (R142). -/
def State.fillTlb (s : State) (c : Nat) (vas : List Nat) : State :=
  let pages := (vas.map (· / 65536)).eraseDups
  let new := pages.filterMap fun p => (s.walkTable c (p * 65536)).map fun e => (⟨c, p, e.page, e.read, e.write, e.prot, e.tenant⟩ : TlbEntry)
  { s with memx := { s.memx with tlb := s.memx.tlb ++ new.filter fun e => !s.memx.tlb.contains e } }

/-- An engine works: its accesses may use what it holds. -/
def State.engineOn (s : State) : State := { s with memx := { s.memx with tlbKey := some s.freeCtr }, freeCtr := s.freeCtr + 1 }
def State.engineOff (s : State) : State := { s with memx := { s.memx with tlbKey := none } }

/-- An engine's work for a context at VAs (R142). -/
def State.withEngine (s : State) (c : Nat) (vas : List Nat) (f : State → State) : State :=
  ((f s.engineOn).fillTlb c vas).engineOff

/-- Whether a PA lies in the replay ring range (R366). -/
def State.inRing (s : State) (pa : Nat) : Bool :=
  let base := s.get Reg.RPL_RING_BASE_LO_PA_LO * 2 ^ 16 + s.get Reg.RPL_RING_BASE_HI_PA_HI * 2 ^ 32
  base ≤ pa && pa < base + s.get Reg.RPL_RING_CFG_PAGES * 65536

/-- Whether a PA of the replay ring belongs to a FILLING set (R368). -/
def State.inFilling (s : State) (pa : Nat) : Bool :=
  let base := s.get Reg.RPL_RING_BASE_LO_PA_LO * 2 ^ 16 + s.get Reg.RPL_RING_BASE_HI_PA_HI * 2 ^ 32
  let n := s.get Reg.RPL_RING_CFG_PAGES
  let pg := (pa - base) / 65536
  s.rpl.sets.any fun t => t.state == 1 && (pg + n - t.first) % n < t.pages

/-- The PA of an access to a VA of a context, none where the translation fails (R141) or where a write
reaches a page of the replay ring outside a FILLING set (R368). -/
def State.xlate (s : State) (c va : Nat) (wr : Bool) : Option Nat :=
  match s.walk c va with
  | none => none
  | some e =>
    let pa := e.page + va % 65536
    if (if wr then !e.write else !e.read) || !paExists pa then none
    else if wr && s.inRing pa && !s.inFilling pa then none
    else some pa

/-- Translate every byte of a run; the first VA that fails, if any. -/
def State.xlateRun (s : State) (c va n : Nat) (wr : Bool) : Except Nat (List Nat) :=
  (List.range n).foldr (fun k acc =>
    match s.xlate c (va + k) wr, acc with
    | some pa, .ok l => .ok (pa :: l)
    | none, _ => .error (va + k)
    | _, .error e => .error e) (.ok [])

/-- The bytes of a run of VAs, or the first VA whose translation fails. -/
def State.readVa (s : State) (c va n : Nat) : Except Nat (List Byte) :=
  (s.xlateRun c va n false).map fun l => l.map s.byteAt

/-- Write a run of VAs, or answer the first VA whose translation fails (nothing is written then). -/
def State.writeVa (s : State) (c va : Nat) (bs : List Byte) : Except Nat State :=
  (s.xlateRun c va bs.length true).map fun l => s.store (l.zip bs)

/-- The state of step tracking of a context (R336): 0 no step open, 1 OPEN, 2 VOTED, 3 STALLED. -/
def State.stepState (s : State) (c : Nat) : Nat := s.get (Reg.RPL_STEP_STATUS_STATE c)

/-- The open or last step number of a context, and its attempt. -/
def State.stepNum (s : State) (c : Nat) : Nat :=
  s.get64 (Reg.RPL_STEP_NUM_LO_STEP c) (Reg.RPL_STEP_NUM_HI_STEP c)

/-- Whether a step of the context is open (R307). -/
def State.stepOpen (s : State) (c : Nat) : Bool := s.stepState c == 1 || s.stepState c == 2

/-- The offset at which the partner keeps what it holds for this module (R382). -/
def State.mirOffset (s : State) : Nat := s.get Reg.RPL_MIR_OFFSET_LO_OFF_LO * 65536 + s.get Reg.RPL_MIR_OFFSET_HI_OFF_HI * 2 ^ 32

/-- The entries of a page table level at a PA that are not 0: index and value. -/
def State.tableAt (s : State) (base : Nat) : List (Nat × Nat) :=
  let ks := ((sslice s.mem base (base + 131072)).map fun e => (e.1 - base) / 8).foldl (fun l k => if l.contains k then l else l ++ [k]) []
  ks.map fun k => (k, s.natAt (base + 8 * k) 8)

/-- The VAs of the page table entries of a context that map, one per page, found from the tables' contents. -/
def State.mappedVas (s : State) (c : Nat) : List Nat :=
  let base := s.get (Reg.MEM_PT_BASE_LO_BASE_LO c) * 2 ^ 17 + s.get (Reg.MEM_PT_BASE_HI_BASE_HI c) * 2 ^ 32
  if !s.on (Reg.MEM_PT_BASE_LO_VALID c) then []
  else (s.tableAt base).flatMap fun e =>
    if bitOn e.2 0 then (s.tableAt (bitsOf e.2 17 23 * 2 ^ 17)).map fun f => e.1 * 2 ^ 30 + f.1 * 2 ^ 16 else []

end Sys2Proof.Machine
end

