-- ==== Sys2Proof/Machine/Idfort.lean ====
section
/-! DEFINITION. Idfort's security and power state as other rules change it (R451, R461, R462, R467), and the
duty gating of the dies (R468). -/
namespace Sys2Proof.Machine

def State.modSec (s : State) (f : SecSt → SecSt) : State := { s with sec := f s.sec }
def State.modPow (s : State) (f : PowSt → PowSt) : State := { s with pow := f s.pow }
def State.modPins (s : State) (f : PinSt → PinSt) : State := { s with pins := f s.pins }
def State.modFw (s : State) (f : FwSt → FwSt) : State := { s with fw := f s.fw }

/-! ### Duty (R468) -/

/-- A six-bit number with its bits reversed. -/
def rev6 (i : Nat) : Nat := (List.range 6).foldl (fun a k => a * 2 + i / 2 ^ k % 2) 0

/-- The duty level of a die. -/
def State.duty (s : State) (d : Nat) : Nat := bitsOf (s.reg Reg.SEC_DUTY).toNat (8 * d) 8

/-- A die of a duty level is gated in a frame (R468). -/
def gatedAt (n d frame : Nat) : Bool := n ≤ rev6 ((frame + 2 * d) % 64)

/-- A die is gated in the present frame. -/
def State.gated (s : State) (d : Nat) : Bool := gatedAt (s.duty d) d s.frame

/-! ### Power state (R467) -/

/-- The power state that the supplies, the firmware, the contexts and the duty levels give. -/
def State.powerNow (s : State) : Nat :=
  if !s.pins.v12 || !s.pins.body then 0
  else if !s.pins.v48 || !s.pins.mated || s.pins.loadsOff then 1
  else if !s.on Reg.SEC_STATUS_FW_STARTED then 2
  else if !((List.range 64).any fun c => s.get (Reg.SUB_CTX_CTRL_STATE c) != 0) then 3
  else if (List.range 4).any fun d => s.duty d < 64 then 5 else 4

/-- SEC_STATUS.POWER and MOD_PWR_OK follow (R485, R488); every change of I3C byte 11 raises an in-band interrupt
(R483). -/
def State.refreshPower (s : State) : State :=
  let p := s.powerNow
  let s1 := s.put Reg.GLB_STATUS_PWR_OK (b2n (p ≥ 2))
  if p == s.get Reg.SEC_STATUS_POWER then s1
  else (s1.put Reg.SEC_STATUS_POWER p).when (p != 0) fun t => t.emit .ibi

/-! ### Security state (R451, R462) -/

def State.secState (s : State) : Nat := s.get Reg.SEC_STATUS_SEC_STATE

/-- The host reads in the tenant view (R462). -/
def State.tenantHost (s : State) : Bool := match s.secState with
  | 0 => false
  | 2 => true
  | _ => s.sec.tenantView

/-- A counter as the host reads it (R462): rounded down to a multiple of 4,096 events in the tenant view. -/
def State.coarse (s : State) (n : Nat) : Nat := if s.tenantHost then n / 4096 * 4096 else n

/-- A change of security state. -/
def State.setSec (s : State) (v : Nat) : State :=
  if s.secState == v then s else (s.put Reg.SEC_STATUS_SEC_STATE v).mark Reg.SEC_EVENT_STATE_CHANGE

/-- Whether a context holds a weight key. -/
def State.holdsKey (s : State) (c : Nat) : Bool :=
  (List.range 16).any fun k => s.on (Reg.SEC_WKEY_SLOT_VALID k) && s.get (Reg.SEC_WKEY_SLOT_CONTEXT k) == c

/-- A Sealed module without a weight key is Provisioned (R451). -/
def State.unseal (s : State) : State := if s.secState == 2 && s.get Reg.SEC_WKEY_VALID == 0 then s.setSec 1 else s

/-- The VALID bit of a link slot (R302). -/
def linkFld (k : Nat) : Reg.Fld := if k = 0 then Reg.SWT_SLICE_KEY0_VALID else Reg.SWT_SLICE_KEY1_VALID

/-- A weight key slot is erased. -/
def State.eraseWeight (s : State) (k : Nat) : State :=
  ((s.setReg (Reg.SEC_WKEY_SLOT k) 0).put ⟨Reg.SEC_WKEY, k, 1⟩ 0).modSec fun x =>
    { x with weightKeys := sset (fun _ => 0) x.weightKeys k 0, dumpKeys := sset (fun _ => 0) x.dumpKeys k 0 }

/-- A link slot is erased. -/
def State.eraseLink (s : State) (k : Nat) : State :=
  (s.put (linkFld k) 0).modSec fun x =>
    { x with linkKeys := sset (fun _ => 0) x.linkKeys k 0, linkBind := sset (fun _ => none) x.linkBind k none }

/-- Every key slot bound to a context is erased, with the offers made for it (R461). -/
def State.eraseKeys (s : State) (c : Nat) : State :=
  let ws := (List.range 16).filter fun k => s.on (Reg.SEC_WKEY_SLOT_VALID k) && s.get (Reg.SEC_WKEY_SLOT_CONTEXT k) == c
  let ls := (s.sec.linkBind.filter fun e => (e.2.map (·.1)) == some c).map (·.1)
  let s1 := s.each ws State.eraseWeight
  let s2 := s1.each ls State.eraseLink
  let s3 := s2.modSec fun x => { x with offers := x.offers.filter (·.ctx != c) }
  if ws.isEmpty && ls.isEmpty then s3 else s3.mark Reg.SEC_EVENT_KEY_ERASED

/-- A key is revoked: its fuse is set (R454, R455). -/
def State.keyRevoked (s : State) (key : Nat) : Bool :=
  bitOn (sget (fun _ => 0) s.sec.fuses (Config.revocationFuse key).1) (Config.revocationFuse key).2

/-- An access of a party: a control processor that an invasive session has halted makes none, but for each single step (R464). -/
def State.byCp (s : State) (p : Party) (f : State → State) : State :=
  match p with
  | .cp k =>
    if !s.sec.halted.contains k.val then f s
    else if sget (fun _ => 0) s.sec.cpSteps k.val = 0 then s
    else f (s.modSec fun x => { x with cpSteps := sset (fun _ => 0) x.cpSteps k.val 0 })
  | _ => f s

/-! ### The operator's connections (R452, R453) -/

/-- Idfort runs: from the 12 V rail, with the body in the slot (R467, R479). -/
def State.idfortUp (s : State) : Bool := s.pins.v12 && s.pins.body

/-- A management port's connection: 0 none, 1 without a certificate, 2 the operator's. -/
def State.conn (s : State) (p : Nat) : Nat := sget (fun _ => 0) s.sec.conns p
def State.setConn (s : State) (p n : Nat) : State := s.modSec fun x => { x with conns := sset (fun _ => 0) x.conns p n }

/-- An action of the operator on a connection: carried out on an authenticated one, refused on any other. -/
def State.byOperator (s : State) (p : Nat) (f : State → Option State) : State :=
  if !s.idfortUp then s
  else if s.conn p != 2 then s.emit (.redfish false)
  else match f s with
    | some t => t.emit (.redfish true)
    | none => s.emit (.redfish false)

end Sys2Proof.Machine
end

