-- ==== Sys2Proof/Machine/Flags.lean ====
section
/-! DEFINITION. The flags of the arithmetic status word (R61–R64, R73, R74). -/
namespace Sys2Proof

/-! ### Flags (R64) -/

/-- The bits of CORE_ASW. -/
def flInvalid : Nat := 1
def flDivZero : Nat := 2
def flOverflow : Nat := 4
def flUnderflow : Nat := 8
def flInexact : Nat := 16

/-- A flag, if a condition holds. -/
def flIf (b : Bool) (f : Nat) : Nat := if b then f else 0

/-- The flags that a mode reports (R73, R74). -/
def reported (strict : Bool) : Nat := if strict then 31 else flInvalid + flOverflow

end Sys2Proof
end

