-- ==== Sys2Proof/Machine/Number.lean ====
section
/-! DEFINITION. Number formats: decoding into exact numbers, exact arithmetic, rounding and encoding
(R48–R76). -/
namespace Sys2Proof

/-! ### Exact numbers -/

def Num.zero (neg : Bool) : Num := .fin neg 0 0
def Num.one : Num := .fin false 1 0
def Num.isNan : Num → Bool
  | .nan => true
  | _ => false
def Num.isInf : Num → Bool
  | .inf _ => true
  | _ => false
def Num.isZero : Num → Bool
  | .fin _ m _ => m == 0
  | _ => false
def Num.neg : Num → Num
  | .nan => .nan
  | .inf s => .inf (!s)
  | .fin s m e => .fin (!s) m e
def Num.abs : Num → Num
  | .nan => .nan
  | .inf _ => .inf false
  | .fin _ m e => .fin false m e
/-- The sign bit of a number; a NaN has none. -/
def Num.sign : Num → Bool
  | .nan => false
  | .inf s => s
  | .fin s _ _ => s

/-- The integer (−1)^neg × m × 2^(e − base), for base ≤ e. -/
def scaled (neg : Bool) (m : Nat) (e base : Int) : Int :=
  let k : Int := (m * 2 ^ (e - base).toNat : Nat)
  if neg then -k else k

/-- The number i × 2^e; a zero takes the given sign. -/
def Num.ofInt (i e : Int) (zneg : Bool) : Num := if i = 0 then .zero zneg else .fin (i < 0) i.natAbs e

/-- −1, 0 or 1 as a lies below, at or above b; NaN compares as 0 and is excluded by the callers. -/
def Num.cmp (a b : Num) : Int :=
  match a, b with
  | .nan, _ => 0
  | _, .nan => 0
  | .inf s, .inf t => if s = t then 0 else if s then -1 else 1
  | .inf s, .fin _ _ _ => if s then -1 else 1
  | .fin _ _ _, .inf t => if t then 1 else -1
  | .fin s m e, .fin t n f =>
    let x := scaled s m e (min e f)
    let y := scaled t n f (min e f)
    if x < y then -1 else if x = y then 0 else 1

/-- The exact sum (R71, R89, R91): an exact zero is −0 if both addends are −0, or under RDN if either is
negative or two non-zero addends cancel. -/
def Num.add (a b : Num) (rdn : Bool := false) : Num × Nat :=
  match a, b with
  | .nan, _ => (.nan, 0)
  | _, .nan => (.nan, 0)
  | .inf s, .inf t => if s = t then (.inf s, 0) else (.nan, flInvalid)
  | .inf s, .fin _ _ _ => (.inf s, 0)
  | .fin _ _ _, .inf t => (.inf t, 0)
  | .fin s m e, .fin t n f =>
    let i := scaled s m e (min e f) + scaled t n f (min e f)
    let zneg := if m = 0 && n = 0 then (s && t) || (rdn && (s || t)) else rdn
    (.ofInt i (min e f) zneg, 0)

/-- The exact product (R59, R71). -/
def Num.mul (a b : Num) : Num × Nat :=
  match a, b with
  | .nan, _ => (.nan, 0)
  | _, .nan => (.nan, 0)
  | .inf s, .inf t => (.inf (s != t), 0)
  | .inf s, .fin t n _ => if n = 0 then (.nan, flInvalid) else (.inf (s != t), 0)
  | .fin s m _, .inf t => if m = 0 then (.nan, flInvalid) else (.inf (s != t), 0)
  | .fin s m e, .fin t n f => (.fin (s != t) (m * n) (e + f), 0)

/-- a × b + c with one rounding to come; an invalid product is invalid whatever the addend (R71). -/
def Num.fma (a b c : Num) (rdn : Bool := false) : Num × Nat :=
  let p := Num.mul a b
  let r := Num.add p.1 c rdn
  (r.1, p.2 ||| r.2)

/-- m × 2^e with the lowest bit telling of a remainder: a value that every rounding of R65 and R66 treats
as it treats the exact one, and that is never exact. -/
def sticky (m : Nat) (e : Int) (rest : Bool) : Nat × Int := (2 * m + b2n rest, e - 1)

/-- A quotient with at least 96 bits, the rest below it sticky. -/
def quotient (m : Nat) (e : Int) (n : Nat) (f : Int) : Nat × Int :=
  let k := 96 + n.log2
  sticky (m * 2 ^ k / n) (e - f - k) (m * 2 ^ k % n != 0)

/-- a / b (R71, R75): DIVZERO for a finite non-zero dividend over zero. -/
def Num.div (a b : Num) : Num × Nat :=
  match a, b with
  | .nan, _ => (.nan, 0)
  | _, .nan => (.nan, 0)
  | .inf _, .inf _ => (.nan, flInvalid)
  | .inf s, .fin t _ _ => (.inf (s != t), 0)
  | .fin s _ _, .inf t => (.zero (s != t), 0)
  | .fin s m e, .fin t n f =>
    if n = 0 then (if m = 0 then (.nan, flInvalid) else (.inf (s != t), flDivZero))
    else if m = 0 then (.zero (s != t), 0)
    else let q := quotient m e n f; (.fin (s != t) q.1 q.2, 0)

/-- The integer square root by bits: the largest r with r² ≤ n, r below 2^k. -/
def isqrtBits : Nat → Nat → Nat → Nat
  | 0, _, r => r
  | k + 1, n, r => isqrtBits k n (if (r + 2 ^ k) * (r + 2 ^ k) ≤ n then r + 2 ^ k else r)

/-- √a (R71), with at least 96 bits. -/
def Num.sqrt (a : Num) : Num × Nat :=
  match a with
  | .nan => (.nan, 0)
  | .inf s => if s then (.nan, flInvalid) else (.inf false, 0)
  | .fin s m e =>
    if m = 0 then (.zero s, 0)
    else if s then (.nan, flInvalid)
    else
      let k : Nat := 200 + (e % 2).toNat
      let n := m * 2 ^ k
      let r := isqrtBits (n.log2 / 2 + 1) n 0
      let q := sticky r ((e - k) / 2) (r * r != n)
      (.fin false q.1 q.2, 0)

/-- A number with an odd significand, or 0 × 2^0: one form for one value. -/
def Num.reduce (x : Num) : Num :=
  match x with
  | .fin s m e =>
    if m = 0 then .zero s
    else
      let k := ((List.range (m.log2 + 1)).find? fun i => bitOn m i).getD 0
      .fin s (m / 2 ^ k) (e + k)
  | y => y

/-! ### Formats (R48) -/

/-- How a floating-point format lays out its code: bits, mantissa bits, bias, the largest finite magnitude
code, and the code of infinity where there is one. -/
structure FInfo where
  bits : Nat
  man : Nat
  bias : Nat
  maxMag : Nat
  infMag : Option Nat
  nanCode : Nat
deriving DecidableEq, Repr

/-- The table of R48. E8M0, the moment format and INT8 are handled by their own rules. -/
def Fmt.info : Fmt → FInfo
  | .fp32 => ⟨32, 23, 127, 0x7F7FFFFF, some 0x7F800000, 0x7FC00000⟩
  | .fp16 => ⟨16, 10, 15, 0x7BFF, some 0x7C00, 0x7E00⟩
  | .bf16 => ⟨16, 7, 127, 0x7F7F, some 0x7F80, 0x7FC0⟩
  | .e4m3 => ⟨8, 3, 7, 0x7E, none, 0x7F⟩
  | .e5m2 => ⟨8, 2, 15, 0x7B, some 0x7C, 0x7E⟩
  | .e3m2 => ⟨6, 2, 3, 0x1F, none, 0⟩
  | .e2m3 => ⟨6, 3, 1, 0x1F, none, 0⟩
  | .e2m1 => ⟨4, 1, 1, 0x7, none, 0⟩
  | _ => ⟨8, 0, 0, 0x7F, none, 0⟩

/-- Bits per element (R50). -/
def Fmt.bits (f : Fmt) : Nat := f.info.bits

/-- Formats that occur only as MX block elements (R53). -/
def Fmt.mxOnly : Fmt → Bool
  | .e3m2 => true
  | .e2m3 => true
  | .e2m1 => true
  | _ => false

/-- Formats that may be elements of a block (R53). -/
def Fmt.blockable : Fmt → Bool
  | .e4m3 => true
  | .e5m2 => true
  | .int8 => true
  | f => f.mxOnly

/-- Formats of a plain operand (R48, R53). -/
def Fmt.plain : Fmt → Bool
  | .fp32 => true
  | .fp16 => true
  | .bf16 => true
  | .e4m3 => true
  | .e5m2 => true
  | .int8 => true
  | _ => false

/-- Whether a format, with or without block scales, may be an operand (R53, R57, R113). -/
def Fmt.operand (f : Fmt) (block : Bool) : Bool := if block then f.blockable else f.plain

/-- binary32 or binary16: the formats of strict mode and of the flush (R73, R74). -/
def Fmt.ieee : Fmt → Bool
  | .fp32 => true
  | .fp16 => true
  | _ => false

/-- A decoded value with whether it is a signalling NaN (R49). -/
structure Val where
  num : Num
  snan : Bool := false
deriving DecidableEq, Repr

/-- The exact value of a code (R48, R49, R59). -/
def Fmt.decode (f : Fmt) (code : Nat) : Val :=
  match f with
  | .int8 => ⟨.ofInt (signed 8 code) 0 false, false⟩
  | .e8m0 => if code % 256 = 255 then ⟨.nan, false⟩ else ⟨.fin false 1 (((code % 256 : Nat) : Int) - 127), false⟩
  | .moment => ⟨.nan, false⟩
  | .unknown => ⟨.nan, false⟩
  | f =>
    let i := f.info
    let neg := bitOn code (i.bits - 1)
    let mag := code % 2 ^ (i.bits - 1)
    if i.infMag == some mag then ⟨.inf neg, false⟩
    else if mag > i.maxMag then ⟨.nan, i.man > 3 && !bitOn mag (i.man - 1)⟩
    else
      let e := mag / 2 ^ i.man
      let m := mag % 2 ^ i.man
      if e = 0 then ⟨.fin neg m (1 - (i.bias : Int) - i.man), false⟩
      else ⟨.fin neg (2 ^ i.man + m) ((e : Int) - i.bias - i.man), false⟩

/-- A block element: its value times the block scale; scale 0xFF makes it a NaN (R52). -/
def Fmt.decodeScaled (f : Fmt) (scale code : Nat) : Val :=
  if scale = 255 then ⟨.nan, false⟩
  else
    let v := f.decode code
    match v.num with
    | .fin s m e => ⟨.fin s m (e + (scale : Int) - 127), false⟩
    | _ => v

/-! ### Rounding (R65, R66) -/

/-- A rounding mode; stochastic rounding carries its 16 random bits. -/
inductive Rm where
  | rne | rtz | rup | rdn | rna
  | sr (r : Nat)
deriving DecidableEq, Repr

/-- ACW.RMODE with the random bits of the element; 6 and 7 round as RNE (R64). -/
def Rm.ofCode (c r : Nat) : Rm :=
  match c with
  | 1 => .rtz
  | 2 => .rup
  | 3 => .rdn
  | 4 => .rna
  | 5 => .sr r
  | _ => .rne

/-- m × 2^e rounded to a whole number of units 2^u. -/
def roundAt (rm : Rm) (neg : Bool) (m : Nat) (e u : Int) : Nat :=
  if u ≤ e then m * 2 ^ (e - u).toNat
  else
    let h := 2 ^ (u - e).toNat
    let q := m / h
    let r := m % h
    match rm with
    | .rne => if 2 * r > h || (2 * r == h && q % 2 == 1) then q + 1 else q
    | .rtz => q
    | .rup => if !neg && r != 0 then q + 1 else q
    | .rdn => if neg && r != 0 then q + 1 else q
    | .rna => if 2 * r ≥ h then q + 1 else q
    | .sr x => (m * 65536 + x * h) / (h * 65536)

/-- Whether m × 2^e is a whole number of units 2^u. -/
def exactAt (m : Nat) (e u : Int) : Bool := u ≤ e || m % 2 ^ (u - e).toNat == 0

/-- The exponent of the leading bit of m × 2^e. -/
def topExp (m : Nat) (e : Int) : Int := (m.log2 : Int) + e

/-- A magnitude rounded into a format as if its exponent had no upper limit: the magnitude code that this
gives, whether the rounding was exact, and whether the result is tiny after rounding (R69, R74). -/
def roundMag (i : FInfo) (rm : Rm) (neg : Bool) (m : Nat) (e : Int) : Nat × Bool × Bool :=
  let emin : Int := 1 - (i.bias : Int)
  let top := topExp m e
  let k := (max top emin - emin).toNat
  let u : Int := max top emin - i.man
  let tiny := top < emin && !(top + 1 == emin && roundAt rm neg m e (top - i.man) == 2 ^ (i.man + 1))
  (k * 2 ^ i.man + roundAt rm neg m e u, exactAt m e u, tiny)

/-- The magnitude of an overflowing result (R69). -/
def overflowMag (f : Fmt) (rm : Rm) (sat neg : Bool) : Nat :=
  match f.info.infMag with
  | none => f.info.maxMag
  | some inf =>
    if f = .e5m2 && sat then f.info.maxMag
    else match rm with
      | .rtz => f.info.maxMag
      | .rup => if neg then f.info.maxMag else inf
      | .rdn => if neg then inf else f.info.maxMag
      | _ => inf

/-- A magnitude code with its sign. -/
def withSign (f : Fmt) (neg : Bool) (mag : Nat) : Nat := if neg then 2 ^ (f.bits - 1) + mag else mag

/-- The integer rounding of R72: the code and whether the result lay outside −128 to 127. -/
def encodeInt8 (rm : Rm) (neg : Bool) (m : Nat) (e : Int) : Nat × Bool :=
  let q := roundAt rm neg m e 0
  if neg then (if q > 128 then (0x80, true) else (toField 8 (-(q : Int)), false))
  else if q > 127 then (0x7F, true) else (q, false)

/-- A value encoded into a plain format (R65, R69, R70, R72, R73): its code and flags. -/
def Fmt.encode (f : Fmt) (rm : Rm) (sat strict : Bool) (x : Num) : Nat × Nat :=
  let i := f.info
  match x with
  | .nan => if f = .int8 then (0, flInvalid) else (i.nanCode, 0)
  | .inf s =>
    if f = .int8 then (if s then 0x80 else 0x7F, flInvalid)
    else match i.infMag with
      | some c => if f = .e5m2 && sat then (withSign f s i.maxMag, flOverflow) else (withSign f s c, 0)
      | none => (if f = .e4m3 && !sat then i.nanCode else withSign f s i.maxMag, flOverflow)
  | .fin s m e =>
    if f = .int8 then
      if m = 0 then (0, 0) else let q := encodeInt8 rm s m e; (q.1, flIf q.2 flInvalid)
    else if m = 0 then (withSign f s 0, 0)
    else
      let (mag, exact, tiny) := roundMag i rm s m e
      if mag > i.maxMag then
        (if f = .e4m3 && !sat then i.nanCode else withSign f s (overflowMag f rm sat s),
         flOverflow ||| flIf strict flInexact)
      else if f.ieee && !strict && mag < 2 ^ i.man then (withSign f s 0, 0)
      else (withSign f s mag, flIf (strict && !exact) flInexact ||| flIf (strict && tiny && !exact) flUnderflow)

/-- A decoded value encoded into a plain format: a signalling NaN sets INVALID (R70). -/
def Fmt.encodeVal (f : Fmt) (rm : Rm) (sat strict : Bool) (v : Val) : Nat × Nat :=
  let r := f.encode rm sat strict v.num
  (r.1, r.2 ||| flIf v.snan flInvalid)

/-- A value rounded to binary32, with its flags; in fast mode a subnormal is flushed (R73). -/
def round32 (rm : Rm) (strict : Bool) (x : Num) : Num × Nat :=
  let r := Fmt.fp32.encode rm false strict x
  ((Fmt.fp32.decode r.1).num, r.2)

/-- A value rounded to binary32 by RNE that keeps subnormals (R55). -/
def rne32 (x : Num) : Num := (round32 .rne true x).1

/-- The binary32 value of a word, with whether it is a signalling NaN (R49). -/
def val32 (w : Nat) : Val := Fmt.fp32.decode w

/-- The binary32 number of a register or memory word. -/
def num32 (w : Nat) : Num := (Fmt.fp32.decode w).num

/-- The binary32 code of a binary32 value. -/
def code32 (x : Num) : Nat := (Fmt.fp32.encode .rne false true x).1

/-! ### MX blocks and block-scaled INT8 (R72, R76) -/

/-- The exponent of the largest finite value of an element format. -/
def Fmt.emax : Fmt → Int
  | .e4m3 => 8
  | .e5m2 => 15
  | .e3m2 => 4
  | .e2m3 => 2
  | .e2m1 => 2
  | .int8 => 6
  | _ => 0

/-- Whether the magnitude of m × 2^e, rounded up, exceeds the largest of the element format. -/
def Fmt.exceeds (f : Fmt) (m : Nat) (e : Int) : Bool :=
  if f = .int8 then roundAt .rup false m e 0 > 127 else (roundMag f.info .rup false m e).1 > f.info.maxMag

/-- The largest finite magnitude of a list. -/
def largest (l : List Num) : Num :=
  l.foldl (fun a x => match x with
    | .fin _ _ _ => if Num.cmp a x.abs < 0 then x.abs else a
    | _ => a) (.zero false)

/-- The scale code of a block whose largest finite magnitude is given. -/
def Fmt.blockScale (f : Fmt) (mxrule : Bool) (a : Num) : Nat :=
  match a with
  | .fin _ m e =>
    if m = 0 then 0
    else
      let e0 := topExp m e - f.emax
      let e1 := if !mxrule && f.exceeds m (e - e0) then e0 + 1 else e0
      (max e1 (-127) + 127).toNat
  | _ => 0

/-- One element of a block, divided by 2^(scale − 127) and rounded (R69, R70, R72). -/
def Fmt.encodeElem (f : Fmt) (rm : Rm) (sat : Bool) (scale : Nat) (x : Num) : Nat × Nat :=
  let y : Num := match x with
    | .fin s m e => .fin s m (e - ((scale : Int) - 127))
    | z => z
  if f = .int8 then
    match y with
    | .fin s m e => let q := encodeInt8 rm s m e; (q.1, flIf q.2 flOverflow)
    | _ => (0, 0)
  else f.encode rm sat false y

/-- Encode one block from 32 binary32 values, each with its rounding mode (R76): the scale, the codes, and
the flags. -/
def Fmt.encodeBlock (f : Fmt) (mxrule sat : Bool) (vs : List (Val × Rm)) : Nat × List Nat × Nat :=
  let bad := vs.any fun v => v.1.num.isNan || (v.1.num.isInf && f != .e5m2)
  if bad then
    (0xFF, vs.map fun _ => 0,
      flIf (vs.any fun v => v.1.num.isInf) flOverflow ||| flIf (vs.any fun v => v.1.snan) flInvalid)
  else
    let sc := f.blockScale mxrule (largest (vs.map fun v => v.1.num))
    let cs := vs.map fun v => f.encodeElem v.2 sat sc v.1.num
    (sc, cs.map (·.1), cs.foldl (fun a c => a ||| c.2) 0)

/-! ### Moment groups (R54–R56) -/

/-- The values of one half of a moment group from its codes and its binary16 scale (R55). -/
def momentDecode (codes : List Nat) (scale : Nat) : List Num :=
  let sc := (Fmt.fp16.decode scale).num
  codes.map fun c => rne32 (Num.mul (Fmt.e4m3.decode c).num sc).1

/-- v = s × s (R55). -/
def momentSquare (s : Num) : Num := rne32 (Num.mul s s).1

/-- One half of a moment group encoded from its 128 values (R56): codes, scale, and OVERFLOW. -/
def momentEncode (vs : List Num) : List Nat × Nat × Bool :=
  if vs.any (·.isNan) then (vs.map fun _ => 0, 0x7E00, vs.any (·.isInf))
  else if vs.any (·.isInf) then
    let cs := vs.map fun v => (Fmt.e4m3.encode .rne true false (Num.div v (num32 0x477FE000)).1).1
    (cs, 0x7BFF, true)
  else
    let a := largest vs
    if a.isZero then (vs.map fun v => withSign .e4m3 v.sign 0, 0, false)
    else match a with
      | .fin _ m e =>
        let q := quotient m e 448 0
        let mag := (roundMag Fmt.fp16.info .rup false q.1 q.2).1
        let tooBig := mag > 0x7BFF
        let scale := if tooBig then 0x7BFF else mag
        let sc := (Fmt.fp16.decode scale).num
        (vs.map fun v => (Fmt.e4m3.encode .rne true false (Num.div v sc).1).1, scale, tooBig)
      | _ => (vs.map fun _ => 0, 0, false)

/-! ### Random bits (R67) -/

/-- One round of Philox4x32. -/
def philoxRound (x : Nat × Nat × Nat × Nat) (k : Nat × Nat) : Nat × Nat × Nat × Nat :=
  let p0 := 0xD2511F53 * x.1
  let p1 := 0xCD9E8D57 * x.2.2.1
  (p1 / 2 ^ 32 ^^^ x.2.1 ^^^ k.1, p1 % 2 ^ 32, p0 / 2 ^ 32 ^^^ x.2.2.2 ^^^ k.2, p0 % 2 ^ 32)

/-- Philox4x32-10: the output words x0 to x3. -/
def philox (c0 c1 c2 c3 k0 k1 : Nat) : Nat × Nat × Nat × Nat :=
  (List.range 10).foldl
    (fun x i => philoxRound x ((k0 + 0x9E3779B9 * i) % 2 ^ 32, (k1 + 0xBB67AE85 * i) % 2 ^ 32))
    (c0 % 2 ^ 32, c1 % 2 ^ 32, c2 % 2 ^ 32, c3 % 2 ^ 32)

/-- The evaluation for an element (R67): its 45-bit index, the draw number, the job seed and the tensor ID. -/
def drawWords (elem draw seed tensor : Nat) : Nat × Nat × Nat × Nat :=
  philox (elem % 2 ^ 45) (elem % 2 ^ 45 / 2 ^ 32) draw (draw / 2 ^ 32) seed tensor

/-- The 16 bits R of stochastic rounding. -/
def roundBits (elem draw seed tensor : Nat) : Nat := (drawWords elem draw seed tensor).1 % 65536

end Sys2Proof
end

