-- ==== Sys2Proof/Machine/Health.lean ====
section
/-! DEFINITION. Health scores, signatures (R352, R357–R360), and the duplicate queues (R345–R347). -/
namespace Sys2Proof.Machine

def State.modInt (s : State) (f : IntSt → IntSt) : State := { s with integ := f s.integ }

/-! ### Signatures (R360) -/

/-- The severity of a record by its event (R360). -/
def Cper.severity (c : Cper) : Severity :=
  if 1 ≤ c.event && c.event ≤ 4 then .recoverable else if c.event = 7 then .corrected else .informational

/-- The GUID of the section type of a CPER record (R360), as it is written. -/
def cperSectionType : Nat := 0x7c1e4a923f054b6d9a18e2d57c06b3f4

/-- The 64 bytes of a record's vendor section (R360). -/
def Cper.bytes (c : Cper) : List Byte :=
  leBytes 2 1 ++ leBytes 1 c.event ++ leBytes 1 c.fault ++ leBytes 1 c.unitKind ++ leBytes 1 c.location
    ++ leBytes 2 c.unit ++ leBytes 2 c.peer ++ leBytes 1 c.opcode ++ leBytes 1 c.cls ++ leBytes 4 c.pack ++ leBytes 8 c.pattern
    ++ leBytes 8 c.frame ++ leBytes 2 c.temp ++ leBytes 2 c.volt ++ leBytes 1 c.duty ++ leBytes 1 c.neighbour
    ++ leBytes 2 c.score ++ leBytes 2 c.scoreBefore ++ leBytes 2 c.module ++ leBytes 4 c.attempt ++ leBytes 8 c.step
    ++ leBytes 4 c.detail ++ leBytes 4 0

/-- Idfort exports a CPER record and keeps the last 4,096; an unacknowledged one overwritten sets CPER_OVERWRITE. -/
def State.writeCper (s : State) (c : Cper) : State :=
  let lost := s.integ.cper.length ≥ 4096 && (s.integ.cper.head?.map fun x => !x.acked) == some true
  let s1 := s.modInt fun x => { x with cper := (x.cper ++ [c]).drop (x.cper.length - 4095) }
  (s1.when lost fun t => t.mark Reg.INT_EVENT_CPER_OVERWRITE).emit (.cper c.severity c.bytes)

/-- The array of a core works in the present frame (R352). -/
def State.arrayOn (s : State) (c : Nat) : State := s.modInt fun x => { x with arrayBusy := sset (fun _ => 0) x.arrayBusy c (s.now + 1) }

/-- The share of a die's cores whose array was busy over the last 256 frames, in percent (R352), rounded down. -/
def State.neighbours (s : State) (d : Nat) : Nat :=
  ((List.range 36).countP fun k => let t := sget (fun _ => 0) s.integ.arrayBusy (36 * d + k); t != 0 && s.now < t + 256) * 100 / 36

/-- A die's duty level at a tick. -/
def State.dutyAt (s : State) (d t : Nat) : Nat :=
  (((sget (fun _ => []) s.pow.dutyLog d).find? fun (e : Nat × Nat) => e.1 ≤ t).map (·.2)).getD 64

/-- A die's duty level over the last 256 frames (R352): their mean, rounded down. -/
def State.dutyMean (s : State) (d : Nat) : Nat := ((List.range 256).map fun k => s.dutyAt d (s.now - 1 - k)).foldl (· + ·) 0 / 256

/-- The dies' duty levels change; what the last 256 frames no longer need is dropped. -/
def State.setDuty (s : State) (level : Nat → Nat) : State :=
  let word := (List.range 4).foldl (fun w d => w + level d * 2 ^ (8 * d)) 0
  let cut (l : List (Nat × Nat)) : List (Nat × Nat) :=
    (l.takeWhile fun e => s.now < e.1 + 256) ++ (l.dropWhile fun e => s.now < e.1 + 256).take 1
  let log := (List.range 4).foldl (fun l d =>
    if level d = s.duty d then l else sset (fun _ => []) l d ((s.now, level d) :: cut (sget (fun _ => []) l d))) s.pow.dutyLog
  (s.setReg Reg.SEC_DUTY (BitVec.ofNat 32 word)).modPow fun x => { x with dutyLog := log }

/-- The die of a record's unit, where it lies on one. -/
def Cper.die (c : Cper) : Option Nat := if c.unitKind = 0 then some (coreDie c.unit) else if c.unitKind = 1 then some (c.unit / 9) else none

/-- A CPER record of an event: its frame and module, the die temperature where the event measures it, step and attempt of a
context's open step, and the load pattern of R352. What no rule gives is a free value: another temperature, the core rail,
duty level and neighbour activity where the unit lies on no one die, and the kind of a test item, which the manual does not
code. -/
def State.cper (s : State) (c : Cper) (temp : Option Int := none) (ctx : Option Nat := none) : State :=
  let a := s.fresh
  let b := a.2.fresh
  let d := b.2.fresh
  let q := d.2.fresh
  let k := q.2.fresh
  let step : Option (Nat × Nat) := (ctx.filter s.stepOpen).map fun x => (s.stepNum x, s.get (Reg.RPL_STEP_ATTEMPT_ATTEMPT x))
  k.2.writeCper { c with
    location := if c.event = 4 then k.1 % 256 else c.location
    frame := s.frame
    module := s.moduleId
    temp := match temp with
      | some t => toField 16 (4 * t)
      | none => a.1 % 65536
    volt := b.1 % 65536
    neighbour := match c.die with
      | some j => s.neighbours j
      | none => d.1 % 101
    duty := match c.die with
      | some j => s.dutyMean j
      | none => if c.duty > 64 then q.1 % 65 else c.duty
    step := (step.map (·.1)).getD c.step
    attempt := (step.map (·.2)).getD c.attempt }

/-! ### Scores (R357, R358) -/

/-- The key of a unit's score: 0 core, 1 cluster, 2 and above the module. -/
def scoreKey (kind index : Nat) : Nat := if kind = 0 then index else if kind = 1 then 1000 + index else 2000

def State.score (s : State) (k : Nat) : Nat := sget (fun _ => 1000) s.integ.scores k

/-- A score takes a value; crossing below 700 raises PROBATION, below 400 REMOVE with its CPER record. -/
def State.setScore (s : State) (kind index v : Nat) : State :=
  let k := scoreKey kind index
  let old := s.score k
  let s1 := s.modInt fun x => { x with scores := sset (fun _ => 1000) x.scores k (min v 1000) }
  let s2 := s1.when (old ≥ 700 && v < 700) fun t => t.mark Reg.INT_EVENT_PROBATION
  s2.when (old ≥ 400 && v < 400) fun t =>
    (t.mark Reg.INT_EVENT_REMOVE).cper { event := 5, fault := 0, unitKind := kind, unit := index, frame := 0, module := 0, score := v, scoreBefore := old }

/-- A charge, never below 0. -/
def State.charge (s : State) (kind index n : Nat) : State :=
  let k := scoreKey kind index
  (s.setScore kind index (s.score k - n)).modInt fun x => { x with charged := sset (fun _ => 0) x.charged k s.now }

/-- A charge that no other signature records: a CPER record of the health change (R360). -/
def State.chargeNoted (s : State) (kind index n fault : Nat) : State :=
  let old := s.score (scoreKey kind index)
  (s.charge kind index n).cper { event := 5, fault := fault, unitKind := kind, unit := index, frame := 0, module := 0, score := old - n, scoreBefore := old }

/-! ### Sampling (R345–R347) -/

/-- The logical core that uses a physical core (R3, R4). -/
def State.logCore (s : State) (p : Nat) : Option Nat := (List.range 128).find? fun l => s.physCore l == p

/-- s_eff of a physical core for a context (R346). -/
def State.sEff (s : State) (c p : Nat) : Nat :=
  let s0 := s.get (Reg.INT_CTX_CFG_S c)
  let low := s.score p < 700 || s.score (1000 + coreCluster p) < 700 || s.score 2000 < 700
  let s1 := if low then min s0 4 else s0
  if s.integ.inBand.contains p then max 2 (s1 - 4) else s1

/-- The words that decide whether a sequence of an attempt is sampled, and where it is checked (R346). -/
def State.sampleWords (s : State) (c l q step attempt : Nat) : Nat × Nat × Nat × Nat :=
  philox q l (step % 2 ^ 32) attempt (s.get (Reg.SUB_CTX_SEED_SEED c)) 0xFFFFFFFF

/-- The logical core that checks a sequence (R346). -/
def checkCore (l x1 : Nat) : Nat := (l + 32 * (1 + x1 % 3)) % 128

/-- Bytes in use in the duplicate queue of a die. -/
def State.dupFill (s : State) (d : Nat) : Nat := ((s.integ.dups.filter fun e => e.die == d).map (·.bytes)).foldl (· + ·) 0

/-- The bytes of a tile's state (R100): 64 KiB plain, 256 KiB for the four identifiers of an exact tile. -/
def tileBytes (exact : Bool) : Nat := if exact then 262144 else 65536

/-- The state of a tile (R101, R112): 0 plain, 1 exact head, 2 exact member, 3 fallen back. -/
def accState (c t : Nat) : Reg.Fld :=
  ⟨if t < 16 then Reg.CORE_ACC_STATE_LO c else Reg.CORE_ACC_STATE_HI c, 2 * (t % 16), 2⟩

def State.tileImg (s : State) (c t : Nat) : TileImg :=
  { state := s.get (accState c t), data := sget (fun _ => []) (s.core c).tiles t, exact := sget (fun _ => {}) (s.core c).exact t,
    mark := sget (fun _ => 0) (s.core c).marks t }

/-- The bytes that the image of a tile takes in a duplicate queue: its data. -/
def TileImg.bytes (g : TileImg) : Nat := tileBytes (g.state != 0)

/-- An entry of n bytes lands in the duplicate queue of a die (R347): the manual gives neither its place nor its layout, so
both are free. -/
def State.teeOut (s : State) (d n : Nat) : State :=
  let a := s.fresh
  let b := a.2.fresh
  let base := s.get (Reg.INT_DUPQ_BASE_LO_PA_LO d) * 2 ^ 20 + s.get (Reg.INT_DUPQ_BASE_HI_PA_HI d) * 2 ^ 32
  let size := s.get (Reg.INT_DUPQ_SIZE_MIB d) * 2 ^ 20
  b.2.store ((List.range n).map fun k => (base + (a.1 + k) % size, BitVec.ofNat 8 (b.1 / 256 ^ k)))

/-- The end of a tile sequence (R345, R347): a sampled one enters its die's queue with the state that it leaves, or is
skipped when the queue cannot hold it. -/
def State.endSeq (s : State) (p tile : Nat) : State :=
  match (s.core p).openSeqs.find? fun q => q.tile == tile with
  | none => s
  | some q =>
    let s1 := s.modCore p fun k => { k with openSeqs := k.openSeqs.filter fun x => x.tile != tile }
    if !q.sampled then s1
    else
      let d := coreDie p
      let last := s.tileImg p tile
      let n := q.bytes + last.bytes
      if s.dupFill d + n > s.get (Reg.INT_DUPQ_SIZE_MIB d) * 2 ^ 20 then
        (s1.bump Reg.INT_DUP_SKIP_CNT_COUNT).mark Reg.INT_EVENT_DUP_SKIP
      else
        let e : DupEntry := { die := d, lcore := q.lcore, pcore := p, check := s.physCore q.check, q := q.q, party := q.party, step := q.step,
                              attempt := q.attempt, bytes := n, prior := q.prior, jobs := q.jobs, last := last }
        (s1.modInt fun x => { x with dups := x.dups ++ [e] }).teeOut d n

/-- Duplicates dropped and counted as skipped (R347, R349). -/
def State.skipDups (s : State) (f : DupEntry → Bool) : State :=
  let n := (s.integ.dups.filter f).length
  let s1 := s.modInt fun x => { x with dups := x.dups.filter fun d => !f d }
  (s1.bump Reg.INT_DUP_SKIP_CNT_COUNT n).when (n != 0) fun t => t.mark Reg.INT_EVENT_DUP_SKIP

/-- The completion of a LAUNCH on a core ends its tile sequences (R345). -/
def State.endSeqs (s : State) (p : Nat) : State :=
  s.each (s.core p).openSeqs fun t q => t.endSeq p q.tile

/-- An MMA with ACC = 0 begins a tile sequence (R345, R346): counted for a context with step tracking whose step is open,
sampled where DUP_EN holds and the low s_eff bits of x0 are 0, and checked on the core that x1 gives. -/
def State.beginSeq (s : State) (p tile : Nat) (o : Op) : State :=
  let c := o.ctx
  if !s.on (Reg.RPL_STEP_CTRL_ENABLE c) || !(s.get (Reg.RPL_STEP_STATUS_STATE c) == 1 || s.get (Reg.RPL_STEP_STATUS_STATE c) == 2) then s
  else
    let q := sget (fun _ => 0) (s.core p).seqs c
    let l := (s.logCore p).getD 0
    let step := s.get64 (Reg.RPL_STEP_NUM_LO_STEP c) (Reg.RPL_STEP_NUM_HI_STEP c)
    let attempt := s.get (Reg.RPL_STEP_ATTEMPT_ATTEMPT c)
    let w := s.sampleWords c l q step attempt
    let yes := (s.logCore p).isSome && s.on Reg.INT_CTRL_DUP_EN && w.1 % 2 ^ s.sEff c p == 0
    let g := s.tileImg p tile
    let x : TileSeq := { tile := tile, party := ⟨o.ctx, o.gen, o.vcid, o.ring, o.seq⟩, q := q, step := step, attempt := attempt, lcore := l,
                         check := checkCore l w.2.1, sampled := yes, bytes := g.bytes, prior := if yes then g else {} }
    let s1 := s.modCore p fun k => { k with seqs := sset (fun _ => 0) k.seqs c (q + 1), openSeqs := k.openSeqs ++ [x] }
    if yes then
      s1.put64 Reg.INT_DUP_SAMPLED_LO_COUNT_LO Reg.INT_DUP_SAMPLED_HI_COUNT_HI
        ((s1.get64 Reg.INT_DUP_SAMPLED_LO_COUNT_LO Reg.INT_DUP_SAMPLED_HI_COUNT_HI + 1) % 2 ^ 64)
    else s1

/-- What joins the entries of the sampled sequences on the tiles of a core (R347): an MMA with n bytes streamed or filled,
or none for an exact tile that ends. -/
def State.teeSeq (s : State) (p : Nat) (tiles : List Nat) (job : Option MmaJob) (n : Nat) : State :=
  s.modCore p fun k => { k with openSeqs := k.openSeqs.map fun x =>
    if x.sampled && tiles.contains x.tile then { x with bytes := x.bytes + n, jobs := x.jobs ++ [job] } else x }

/-! ### Temperature bands (R351) -/

/-- A temperature joins a core's bands: at most 16 entries, the oldest replaced. -/
def State.addBand (s : State) (c : Nat) (temp : Int) : State :=
  s.modInt fun x =>
    let l : List BandEntry := sget (fun _ => []) x.bands c
    let e : BandEntry := { temp := temp, tick := s.now }
    { x with bands := sset (fun _ => []) x.bands c ((l ++ [e]).drop (l.length - 15)) }

/-- A core lies within ±BAND_C of an entry. -/
def State.nearBand (s : State) (c : Nat) (temp : Int) : Bool :=
  (sget (fun _ => []) s.integ.bands c).any fun (e : BandEntry) => (e.temp - temp).natAbs ≤ s.get Reg.INT_DUP_CFG_BAND_C

end Sys2Proof.Machine
end

