-- ==== Sys2Proof/Machine/Errors.lean ====
section
/-! DEFINITION. Fault codes (R446), the state of step tracking (R307, R336), and memory errors as the module counts, latches
and consumes them (R155–R157, R164, R377). -/
namespace Sys2Proof.Machine

/-! ### Codes (R446) -/

def fFrameOverrun : Nat := 1
def fSyncWatchdog : Nat := 2
def fAccConflict : Nat := 3
def fGradAlias : Nat := 4
def fDupMismatch : Nat := 5
def fDigestMismatch : Nat := 6
def fCheckFail : Nat := 7
def fMemUe : Nat := 8
def fLinkDown : Nat := 9
def fWrongLambda : Nat := 10
def fLaserFail : Nat := 11
def fStaleContext : Nat := 12
def fRouteMiss : Nat := 13
def fPermission : Nat := 14
def fExactRange : Nat := 15
def fCoreHang : Nat := 16
def fTimeLoss : Nat := 17
def fSealViolation : Nat := 18
def fSyncOverflow : Nat := 19
def fRingStall : Nat := 20
def fMixedStep : Nat := 21

/-- The PA of the page of a VA, by the page table alone. -/
def State.pageOf (s : State) (c va : Nat) : Option Nat := (s.walk c va).map (·.page)

/-! ### Memory errors (R155–R157) -/

/-- The memory of a PA (R164): 0–7 stack NMn, 8 board memory, 9 a scratchpad. -/
def memOf (pa : Nat) : Nat :=
  if pa < nearEnd then pa / 0x1800000000 * 2 + pa / 65536 % 2 else if pa < spBase then 8 else 9

/-- The row chunk of a PA (R159): 1 KiB of near memory, 2 KiB of board memory. -/
def chunkOf (pa : Nat) : Nat := if pa < nearEnd then pa / 1024 * 1024 else pa / 2048 * 2048

/-- Latch an error (R164): an uncorrectable one while none is latched, a corrected threshold only then too. -/
def State.latchErr (s : State) (kind pa : Nat) (ctx : Option Nat) : State :=
  if s.on Reg.MEM_EVENT_UE then s
  else
    let s1 := (s.put Reg.MEM_ERR_ADDR_LO_PA_LO pa).put Reg.MEM_ERR_ADDR_HI_PA_HI (pa / 2 ^ 32)
    let s2 := (s1.put Reg.MEM_ERR_INFO_KIND kind).put Reg.MEM_ERR_INFO_MEMORY (memOf pa)
    match ctx with
    | some c => ((s2.put Reg.MEM_ERR_INFO_CONTEXT c).put Reg.MEM_ERR_INFO_CTX_VALID 1).put Reg.MEM_ERR_INFO_GENERATION (s.gen c)
    | none => ((s2.put Reg.MEM_ERR_INFO_CONTEXT 0).put Reg.MEM_ERR_INFO_CTX_VALID 0).put Reg.MEM_ERR_INFO_GENERATION 0

def State.modMem (s : State) (f : MemSt → MemSt) : State := { s with memx := f s.memx }

/-- 24 h in frame ticks of 4.096 µs. -/
def dayTicks : Nat := 21093750000

/-- A corrected error in a read for a context (R156): the memory's counter, and for a row chunk its count, whose 16th within the
window sets CE_THRESH and starts anew. -/
def State.correctedErr (s : State) (pa : Nat) (ctx : Option Nat) : State :=
  if memOf pa = 9 then s.bump (Reg.CORE_SP_CE_CNT_COUNT ((pa - spBase) / 0x400000))
  else
    let s1 := if memOf pa = 8 then s.bump Reg.MEM_BC_CE_CNT_COUNT else s.bump (Reg.MEM_NM_CE_CNT_COUNT (memOf pa))
    let k := chunkOf pa
    let w := sget (fun _ => (0, 0)) s1.memx.ceCount k
    let e := if w.1 = 0 || s.now ≥ w.2 + dayTicks then (1, s.now) else (w.1 + 1, w.2)
    let put (x : Nat × Nat) (m : MemSt) : MemSt := { m with ceCount := sset (fun _ => (0, 0)) m.ceCount k x }
    if e.1 < 16 then s1.modMem (put e)
    else (((s1.latchErr 1 pa ctx).mark Reg.MEM_EVENT_CE_THRESH).modMem (put (0, 0))).cper
      { event := 7, fault := 0, unitKind := 3, unit := memOf pa, frame := 0, module := 0 }

/-- An uncorrectable error counted and latched (R157, R164). -/
def State.countUe (s : State) (pa : Nat) (ctx : Option Nat) : State :=
  if memOf pa = 9 then s.bump (Reg.CORE_SP_UE_CNT_COUNT ((pa - spBase) / 0x400000))
  else
    let kind := if s.poisoned pa && !s.memx.newUe.contains (poisonUnit pa).1 then 3 else 2
    (((s.latchErr kind pa ctx).mark Reg.MEM_EVENT_UE).bump Reg.MEM_UE_CNT_COUNT).modMem fun x => { x with newUe := [] }

/-- The recording of an uncorrectable error (R157, R164): its unit is poisoned and counted. -/
def State.markUe (s : State) (pa : Nat) (ctx : Option Nat) : State := (s.countUe pa ctx).poisonAt pa

/-- The errors that a unit's reads for a context meet (R156, R157): corrected ones are counted, uncorrectable ones poison. -/
def State.meetErrs (s : State) (ctx : Option Nat) (inRead : Nat → Bool) (e : MemErr) : State :=
  let s1 := s.each (e.ce.filter inRead) fun t pa => t.correctedErr pa ctx
  let bad := e.ue.filter inRead
  let s2 := s1.modMem fun x => { x with newUe := (bad.filter fun pa => !s1.poisoned pa).map fun pa => (poisonUnit pa).1 }
  s2.each bad fun t pa => t.poisonAt pa

/-- MEMORY of a MEM_UE record: as in MEM_ERR_INFO, which names no value for a scratchpad: a free value then. -/
def State.ueMemory (s : State) (pa : Nat) : Nat × State :=
  if memOf pa = 9 then let r := s.fresh; (r.1 % 256, r.2) else (memOf pa, s)

/-! ### Protection ranges (R375, R377) -/

/-- An entry of the protection range table: its SOURCE (0 MIRROR, 1 DERIVED, 2 LOCAL), VA and pages, and for a master
range the VAs of its copies. -/
structure ProtRange where
  source : Nat
  va : Nat
  pages : Nat
  work : Nat
  serve : Nat
  sscale : Nat
deriving DecidableEq, Repr

/-- The valid entries of the protection range table. -/
def State.protRanges (s : State) : List ProtRange :=
  if !s.on Reg.RPL_PROT_BASE_LO_VALID then []
  else
    let base := s.get Reg.RPL_PROT_BASE_LO_PA_LO * 2 ^ 14 + s.get Reg.RPL_PROT_BASE_HI_PA_HI * 2 ^ 32
    (List.range (s.get Reg.RPL_PROT_BASE_HI_COUNT)).filterMap fun i =>
      let a := base + 64 * i
      let b := s.natAt a 8
      if bitOn b 0 && bitsOf b 1 2 != 3 then
        some ⟨bitsOf b 1 2, bitsOf b 16 28 * 65536, s.natAt (a + 8) 3, s.natAt (a + 16) 8, s.natAt (a + 24) 8, s.natAt (a + 32) 8⟩
      else none

def ProtRange.has (r : ProtRange) (va : Nat) : Bool := r.va ≤ va && va < r.va + r.pages * 65536

/-- The VAs of a range's pages. -/
def ProtRange.vas (r : ProtRange) : List Nat := (List.range r.pages).map fun k => r.va + k * 65536

/-- The page of a MIRROR or DERIVED range in which a unit of a context consumed MEM_UE joins its restore set (R377). -/
def State.noteUePage (s : State) (c pa : Nat) : State :=
  if !s.stepOpen c then s
  else
    match (s.protRanges.filter fun r => r.source != 2).flatMap (·.vas) |>.find? fun va => s.pageOf c va == some (pa / 65536 * 65536) with
    | none => s
    | some va => s.modCtx c fun x => { x with uePages := insertSorted va x.uePages }

/-- An uncorrectable error consumed, counted and charged (R157, R357), and its DETAIL. -/
def State.consumeUe (s : State) (pa : Nat) (ctx : Option Nat) : List (Nat × Nat) × State :=
  let s1 := match ctx with
    | some c => s.noteUePage c pa
    | none => s
  let r := ((s1.countUe pa ctx).chargeNoted 2 0 25 fMemUe).ueMemory pa
  ([(1, r.1), (8, pa)], r.2)

end Sys2Proof.Machine
end

