-- ==== Sys2Proof/Machine/Service.lean ====
section
/-! DEFINITION. Ports and rings by number, and the one way in which a service message leaves on a port (R248, R255, R265). -/
namespace Sys2Proof.Machine

def State.modOpt (s : State) (f : OptSt → OptSt) : State := { s with opt := f s.opt }

/-- A port beside its registers. -/
def State.port (s : State) (p : Nat) : PortSt := sget (fun _ => {}) s.opt.ports p
def State.modPort (s : State) (p : Nat) (f : PortSt → PortSt) : State :=
  s.modOpt fun o => { o with ports := sset (fun _ => {}) o.ports p (f (s.port p)) }

/-- A ring by its key 36 × port + 18 × (receive side) + λ. -/
def ringKey (p : Nat) (rx : Bool) (lam : Nat) : Nat := 36 * p + (if rx then 18 else 0) + lam
def State.tuner (s : State) (k : Nat) : RingSt := sget (fun _ => {}) s.opt.rings k
def State.modTuner (s : State) (k : Nat) (f : RingSt → RingSt) : State :=
  s.modOpt fun o => { o with rings := sset (fun _ => {}) o.rings k (f (s.tuner k)) }

def State.verified (s : State) (p : Nat) (rx : Bool) (lam : Nat) : Bool := (s.tuner (ringKey p rx lam)).st == 4

/-- A port's bypass switch is OPEN. -/
def State.bypOpen (s : State) (p : Nat) : Bool := s.get (Reg.OPT_BYP_STATUS_POSITION (p / 2)) == 2

/-- The service wavelength works on a port (R248, R265): bypass open, both λ17 rings VERIFIED, and λ17 fed. -/
def State.serviceUp (s : State) (p : Nat) : Bool :=
  s.bypOpen p && s.verified p false 17 && s.verified p true 17 && s.get (Reg.OPT_WL_SRC_SOURCE 17) != 31

/-- The header of a message on a port: the sequence received last travels with it (R255). -/
def State.svcHead (s : State) (p : Nat) (m : SvcBody) (hseq hops : Nat) (nak : Bool) : SvcHeader :=
  { cls := m.cls, length := m.bytes.length, hseq := hseq, hack := (s.port p).hopRecv, nak := nak, hops := hops }

/-- A message leaves on a port under the next hop sequence, and is kept among the last 256 (R255). While the port's
service lane stands still it reaches nobody, and per-hop retry alone brings it on (R248, R261). -/
def State.svcOut (s : State) (p : Nat) (m : SvcBody) (hops : Nat := 0) : State :=
  let n := ((s.port p).hopSent + 1) % 4096
  let s1 := if s.serviceUp p then s.emit (.svc p (s.svcHead p m n hops false) m false) else s
  s1.modPort p fun x => { x with hopSent := n, sentMsgs := ((n, hops, m) :: x.sentMsgs).take 256 }

/-- An idle word with the sequence received last, and NAK (R255). -/
def State.svcIdle (s : State) (p : Nat) (nak : Bool) : State :=
  if s.serviceUp p then s.emit (.svc p (s.svcHead p .idle (s.port p).hopSent 0 nak) .idle false) else s

/-- The kept messages behind a hop sequence are sent again, oldest first (R255). -/
def State.svcResend (s : State) (p hack : Nat) : State :=
  s.each ((s.port p).sentMsgs.filter fun x => 0 < (x.1 + 4096 - hack) % 4096 && (x.1 + 4096 - hack) % 4096 < 2048).reverse fun t x =>
    if t.serviceUp p then t.emit (.svc p (t.svcHead p x.2.2 x.1 x.2.1 false) x.2.2 false) else t

/-- A message leaves on every port whose service lane works (R26, R303). -/
def State.svcCast (s : State) (m : SvcBody) : State := s.each ((List.range 16).filter s.serviceUp) fun t p => t.svcOut p m

end Sys2Proof.Machine
end

