-- ==== Sys2Proof/Machine/Records.lean ====
section
/-! DEFINITION. Fault records and the fault log (R425–R428), and dirt (R311, R331, R332). -/
namespace Sys2Proof.Machine

/-! ### Completion status -/

/-- Completion status values (R188). -/
def stDone : Nat := 0
def stNotice : Nat := 1
def stFaulted : Nat := 2
def stRejected : Nat := 3
def stAborted : Nat := 4

/-! ### The record as bytes (R425) -/

/-- DETAIL: each field at the next multiple of its own size, 64 bytes in all (R446). -/
def detailBytes (l : List (Nat × Nat)) : List Byte :=
  let put (bs : List Byte) (f : Nat × Nat) : List Byte :=
    bs ++ List.replicate ((f.1 - bs.length % f.1) % f.1) 0 ++ leBytes f.1 f.2
  let bs := l.foldl put []
  (bs ++ List.replicate 64 0).take 64

/-- Bytes 0–59 of the header. -/
def FaultRec.header (r : FaultRec) : List Byte :=
  let flags := b2n r.p1.isSome + 2 * b2n r.p2.isSome + 4 * b2n r.step.isSome + 8 * b2n r.dump
    + 16 * b2n (r.lost != 0) + 32 * b2n r.summary.isSome
  let p (f : PartyRec → Nat) (o : Option PartyRec) : Nat := (o.map f).getD 0
  leBytes 4 r.logseq ++ leBytes 1 r.code ++ leBytes 1 (b2n r.notice) ++ leBytes 1 r.unitKind ++ leBytes 1 flags
    ++ leBytes 2 r.unit ++ leBytes 1 (p (·.ctx) r.p1) ++ leBytes 1 (p (·.ctx) r.p2)
    ++ leBytes 2 (p (·.gen) r.p1) ++ leBytes 2 (p (·.gen) r.p2) ++ leBytes 2 (p (·.vcid) r.p1)
    ++ leBytes 1 (p (·.ring) r.p1) ++ leBytes 1 (p (·.ring) r.p2) ++ leBytes 4 ((r.step.map (·.2)).getD 0)
    ++ leBytes 8 (match r.summary with | some n => n | none => p (·.seq) r.p1) ++ leBytes 8 (p (·.seq) r.p2)
    ++ leBytes 8 r.frame ++ leBytes 8 ((r.step.map (·.1)).getD 0) ++ leBytes 4 r.lost

/-- The 128 bytes of a record, its CRC over bytes 0–59 and 64–127. -/
def FaultRec.bytes (r : FaultRec) : List Byte :=
  let h := r.header
  let d := detailBytes r.detail
  h ++ leBytes 4 (crc32c (h ++ d)) ++ d

/-! ### Writing records -/

/-- Send an MSI-X vector. -/
def State.msix (s : State) (v : Nat) : State := s.emit (.msix v)

def State.modHrc (s : State) (f : HrcSt → HrcSt) : State := { s with hrc := f s.hrc }

/-- The fault log ring holds 2ⁿ records (R427). -/
def State.flogFull (s : State) : Bool :=
  s.on Reg.HRC_FLOG_CFG_ENABLE && sub32 (s.get Reg.HRC_FLOG_PI_PI) s.hrc.flogCi ≥ 2 ^ s.get Reg.HRC_FLOG_CFG_SIZE_LOG2

/-- The host address of a record of the fault log ring. -/
def State.flogAddr (s : State) : Nat :=
  s.get Reg.HRC_FLOG_LO_BASE_LO * 2 ^ 12 + s.get Reg.HRC_FLOG_HI_BASE_HI * 2 ^ 32
    + s.get Reg.HRC_FLOG_PI_PI % 2 ^ s.get Reg.HRC_FLOG_CFG_SIZE_LOG2 * 128

/-- The ring's part of writing a record (R427): skipped and counted while the ring is full. -/
def State.flogWrite (s : State) (r : FaultRec) : State :=
  if !s.on Reg.HRC_FLOG_CFG_ENABLE then s
  else if s.flogFull then
    ((s.bump Reg.HRC_FLOG_LOST_CNT_COUNT).mark Reg.HRC_EVENT_FLOG_LOST).modHrc fun h => { h with flogSkipped := h.flogSkipped + 1 }
  else
    let s1 := (s.hostStore s.flogAddr r.bytes).put Reg.HRC_FLOG_PI_PI (mod32 (s.get Reg.HRC_FLOG_PI_PI + 1))
    let s2 := s1.modHrc fun h => { h with flogSkipped := 0, flogDirty := true }
    if s2.on Reg.HRC_FLOG_CFG_IRQ_EN && !s2.hrc.flogIrq then (s2.msix 288).modHrc fun h => { h with flogIrq := true } else s2

/-- Write a fault record (R425–R428): numbered, stamped, kept in the tail of 256 records, written to the
ring; a second notice of one code and context in a frame is only counted. -/
def State.logRec (s : State) (r : FaultRec) : State :=
  let c := (r.p1.map (·.ctx)).getD 64
  if r.notice && s.hrc.notices.contains (r.code, c) then s.bump Reg.HRC_NOTICE_DROP_CNT_COUNT
  else
    let lost := if s.on Reg.HRC_FLOG_CFG_ENABLE && !s.flogFull then s.hrc.flogSkipped else 0
    let st := if r.p1.isSome && s.stepOpen c then some (s.stepNum c, s.get (Reg.RPL_STEP_ATTEMPT_ATTEMPT c)) else none
    let r1 := { r with logseq := s.hrc.logseq, frame := s.frame, lost := lost, step := st }
    let s1 := s.modHrc fun h => { h with
      logseq := mod32 (h.logseq + 1)
      tail := (h.tail ++ [r1]).drop (h.tail.length - 255)
      notices := if r.notice then (r.code, c) :: h.notices else h.notices }
    s1.flogWrite r1

/-! ### Dirt (R311, R331, R332) -/

/-- The close frame of the accepted CLOSE (R336). -/
def State.closeFrame (s : State) (c : Nat) : Nat :=
  s.get64 (Reg.RPL_STEP_CLOSE_LO_FRAME c) (Reg.RPL_STEP_CLOSE_HI_FRAME c)

/-- A cause that falls in the last 3 frames before F_c after the CLOSE is ready (R332). -/
def State.carries (s : State) (c : Nat) : Bool :=
  s.stepState c == 2 && s.on (Reg.RPL_STEP_STATUS_CLOSE_READY c) && s.closeFrame c ≤ s.frame + 3

/-- Clear vote bit b of the open attempt, and with it bit 0 (R311, R317). -/
def State.clearVote (s : State) (c b : Nat) : State :=
  ((s.put ⟨Reg.RPL_STEP_VOTE c, b, 1⟩ 0).put ⟨Reg.RPL_STEP_VOTE c, 0, 1⟩ 0).mark (Reg.RPL_STEP_STATUS_DIRTY c)

/-- Discard the attempt of a context at the next tick (R371), unless a discard is due already. -/
def State.discardNext (s : State) (c : Nat) : State :=
  s.modCtx c fun x => { x with discard := some (x.discard.getD { tick := s.now + 1 }) }

/-- A discard of the attempt is due without an announced frame. -/
def State.discardSet (s : State) (c : Nat) : Bool := (s.ctx c).discard.isSome

/-- A cause of R311: the vote bit before Noon; after it, a carry to the next attempt, or a discard at the next tick with a
BREAK that is then to leave, unless one has left for the attempt (R331). -/
def State.dirty (s : State) (c b : Nat) : State :=
  if s.stepState c == 1 then s.clearVote c b
  else if s.carries c then
    (s.mark (Reg.RPL_STEP_STATUS_CARRY c)).modCtx c fun x => { x with carry := if x.carry.contains b then x.carry else b :: x.carry }
  else if s.stepState c == 2 then
    ((s.mark (Reg.RPL_STEP_STATUS_DIRTY c)).discardNext c).modCtx c fun x => { x with breakDue := x.breakDue || !x.broke }
  else s

end Sys2Proof.Machine
end

