-- ==== Sys2Proof/Machine/Tracked.lean ====
section
/-! DEFINITION. Pages whose writes are tracked: the checkpoint range table and its dirty bitmaps (R396, R397), and the
copy-on-write shadow pool (R402, R403); the block checks of writes (R337, R341, R344). -/
namespace Sys2Proof.Machine

/-! ### The checkpoint range table (R396) -/

/-- An entry of the checkpoint range table. -/
structure CkptRange where
  va : Nat
  pages : Nat
  array : Nat
  format : Nat
  tensor : Nat
  first : Nat
deriving DecidableEq, Repr

/-- The context checkpointed. -/
def State.ckptCtx (s : State) : Nat := s.get Reg.RPL_CKPT_CFG_CONTEXT

/-- The valid entries of the checkpoint range table, in table order; none while the table is not VALID. -/
def State.ckptRanges (s : State) : List CkptRange :=
  if !s.on Reg.RPL_CKPT_TAB_LO_VALID then []
  else
    let base := s.get Reg.RPL_CKPT_TAB_LO_PA_LO * 2 ^ 14 + s.get Reg.RPL_CKPT_TAB_HI_PA_HI * 2 ^ 32
    (List.range (s.get Reg.RPL_CKPT_TAB_HI_COUNT)).filterMap fun i =>
      let a := base + 32 * i
      let b := s.natAt a 8
      if bitOn b 0 then
        some ⟨bitsOf b 16 28 * 65536, s.natAt (a + 8) 3, s.natAt (a + 12) 1, s.natAt (a + 13) 1, s.natAt (a + 14) 2,
              s.natAt (a + 16) 8 % 2 ^ 45⟩
      else none

/-- The VAs of the checkpoint's pages: position g is global page g (R396). -/
def State.ckptPages (s : State) : List Nat :=
  s.ckptRanges.flatMap fun r => (List.range r.pages).map fun k => r.va + k * 65536

/-- The global page whose page lies at a PA. -/
def State.ckptIndex (s : State) (pa : Nat) : Option Nat :=
  s.ckptPages.findIdx? fun va => s.pageOf s.ckptCtx va == some (pa / 65536 * 65536)

/-- The PA of dirty bitmap k: bitmap 1 follows at the next 64 KiB boundary (R397). -/
def State.bitmapBase (s : State) (k : Nat) : Nat :=
  s.get Reg.RPL_CKPT_DIRTY_LO_PA_LO * 2 ^ 16 + s.get Reg.RPL_CKPT_DIRTY_HI_PA_HI * 2 ^ 32
    + k * (max 1 (ceilDiv (ceilDiv s.ckptPages.length 8) 65536) * 65536)

/-- The bit of a global page in dirty bitmap k. -/
def State.dirtyBit (s : State) (k g : Nat) : Bool := bitOn (s.byteAt (s.bitmapBase k + g / 8)).toNat (g % 8)

/-- MEM_UE of a unit that works for a party without an operation of its own to end (R157): its record, and dirt. -/
def State.ueRecord (s : State) (p : PartyRec) (unitKind unit pa : Nat) : State :=
  let r := s.consumeUe pa (some p.ctx)
  ((r.2.logRec ({ code := fMemUe, unitKind := unitKind, unit := unit, p1 := some p, detail := r.1 } : FaultRec)).dirty p.ctx 1).dirty p.ctx 4

/-- The party of a context that no descriptor names. -/
def State.ctxParty (s : State) (c : Nat) : PartyRec := ⟨c, s.gen c, s.vcid c, 0, 0⟩

/-- Set the bit of a global page in the current bitmap (R397); in a poisoned granule nothing is stored (R157). -/
def State.setDirtyBit (s : State) (g : Nat) : State :=
  let a := s.bitmapBase (s.get Reg.RPL_CKPT_STATUS_CUR_MAP) + g / 8
  if s.poisoned a then s.ueRecord (s.ctxParty s.ckptCtx) 14 0 a
  else s.setByte a (s.byteAt a ||| BitVec.ofNat 8 (2 ^ (g % 8)))

/-! ### The shadow pool (R376, R402, R403) -/

/-- The pool's size in pages, and the PA of its page i. -/
def State.poolPages (s : State) : Nat := s.get Reg.RPL_SHADOW_CFG_PAGES * 16
def State.poolAt (s : State) (i : Nat) : Nat :=
  s.get Reg.RPL_SHADOW_BASE_LO_PA_LO * 2 ^ 16 + s.get Reg.RPL_SHADOW_BASE_HI_PA_HI * 2 ^ 32 + i * 65536

/-- The first free page of the pool. -/
def State.poolFree (s : State) : Option Nat :=
  (List.range s.poolPages).find? fun i => !(s.ckp.shadow.any fun p => p.index == i)

def State.modCkp (s : State) (f : CkpSt → CkpSt) : State := { s with ckp := f s.ckp }

/-- Whether a writer that waits still has its write to make. -/
def State.writerAlive (s : State) : Writer → Bool
  | .op r i => s.ops.any fun o => o.ring == r && o.idx == i
  | .core c => (s.core c).launch.isSome
  | .hub => !s.ckp.held.isEmpty
  | .debug => false
  | .cell src x => s.fab.waitCells.any fun q => q.2.src.toNat == src && q.2.xfer.toNat == x
  | .engine n => if n < 64 then s.get (Reg.RPL_REPLAY_STATUS_STATE n) == 2
    else if n < 128 then s.get Reg.RPL_DAYBREAK_STATUS_STATE == 2 && s.rpl.loadCtx == n - 64
    else s.sec.intakes.any fun i => i.chan == n - 128

/-- A writer no longer waits. -/
def State.unwait (s : State) (w : Writer) : State :=
  s.modCkp fun k => { k with waits := k.waits.filter fun y => y.1 != w }

/-- Writers are served in the order in which they began to wait (R402): a free page is for the first of them. -/
def State.mayTake (s : State) (w : Writer) : Bool := ((s.ckp.waits.find? fun x => s.writerAlive x.1).map (·.1)).getD w == w

/-- A writer waits for a page of the shadow pool (R402), or with `pre` the update unit for that of a LOCAL page (R376). -/
def State.waitShadow (s : State) (w : Writer) (pre : Bool := false) : State :=
  s.modCkp fun k => { k with
    cowWait := k.cowWait || !pre, preWait := k.preWait || pre
    waits := if k.waits.any fun x => x.1 == w then k.waits else k.waits ++ [(w, pre)] }

/-- Copy a page to another: its bytes, and the poison of its granules. -/
def State.copyPage (s : State) (src dst : Nat) : State :=
  let cells : List Host.Cell := (sslice s.mem src (src + 65536)).map fun (e : Host.Cell) => (e.1 - src + dst, e.2)
  let bad := (s.poison.filter fun g => src ≤ g && g < src + 65536).map fun g => g - src + dst
  let s1 := s.zeroMem dst (dst + 65536)
  let s2 := { s1 with mem := cells.foldl (fun (m : Sparse Byte) (e : Host.Cell) => sset memZero m e.1 e.2) s1.mem }
  { s2 with poison := bad.foldl (fun l g => insertSorted g l) s2.poison }

/-- What a write that needs a pre-image meets. -/
inductive Pre where
  | go (s : State)
  | noPool
  | full

/-- The global page whose pending pre-image a write at a page's PA needs (R402). -/
def State.ckptNeed (s : State) (pa : Nat) : Option Nat :=
  (s.ckptIndex pa).filter fun g => s.ckp.pending.contains g && !(s.ckp.shadow.any fun p => p.ckpt == some g)

/-- A writer takes the pre-image of a page for the uses that its write needs: one shadow copy serves both (R403), and a copy
taken for an earlier write serves no other. -/
def State.preImage (s : State) (w : Writer) (pa va : Nat) (ckpt pre : Option Nat) : Pre :=
  if s.poolPages = 0 then .noPool
  else match (if s.mayTake w then s.poolFree else none) with
    | none => .full
    | some i =>
      let x : ShadowPg := { index := i, pa := pa, va := va, ckpt := ckpt, pre := pre }
      .go (((s.copyPage pa (s.poolAt i)).modCkp fun k => { k with
        shadow := k.shadow ++ [x], waits := k.waits.filter fun y => y.1 != w }).when ckpt.isSome fun t => t.bump Reg.RPL_CKPT_COW_CNT_COUNT)

/-- Release a use of shadow pages; a page without a use is freed (R403). -/
def State.releaseShadow (s : State) (f : ShadowPg → ShadowPg) : State :=
  s.modCkp fun k => { k with shadow := (k.shadow.map f).filter fun p => p.ckpt.isSome || p.pre.isSome }

/-- Before a write reaches a page: a pending checkpoint page is pre-copied (R402), and the page's dirty bit is
set (R397). -/
def State.touchPage (s : State) (w : Writer) (pa : Nat) : Pre :=
  match s.ckptIndex pa with
  | none => .go s
  | some g => match s.ckptNeed pa with
    | none => .go (s.setDirtyBit g)
    | some _ => match s.preImage w pa (s.ckptPages.getD g 0) (some g) none with
      | .go t => .go (t.setDirtyBit g)
      | p => p

/-- Every page of a write is prepared, in order; its writer then waits no more. -/
def State.touchPages (s : State) (w : Writer) : List Nat → Pre
  | [] => .go (s.unwait w)
  | pa :: l => match s.touchPage w pa with
    | .go t => t.touchPages w l
    | p => p

/-! ### Block checks (R337, R341, R344) -/

/-- The pages of a list of PAs, each once, in order. -/
def pagesOf (l : List Nat) : List Nat := l.foldl (fun acc a => if acc.contains (a / 65536 * 65536) then acc else acc ++ [a / 65536 * 65536]) []

/-- The bytes in which a failed check is counted and charged (R344, R357, R360): location, and block offset. -/
def State.countCheck (s : State) (loc unitKind unit offset : Nat) (ctx : Option Nat := none) (opc : Nat := 0) : State :=
  let s1 := ((s.bump Reg.INT_CHECK_FAIL_CNT_COUNT).mark Reg.INT_EVENT_CHECK_FAIL).when (loc = 6)
    fun t => (t.bump Reg.INT_PARITY_CNT_COUNT).mark Reg.INT_EVENT_PARITY
  let old := s1.score 2000
  (s1.charge 2 0 50).cper { event := 2, fault := fCheckFail, unitKind := unitKind, location := loc, unit := unit, frame := 0,
                            opcode := opc, module := 0, score := old - 50, scoreBefore := old, detail := offset } none ctx

/-- CHECK_FAIL's DETAIL: LOCATION, ADDR_KIND, ADDR (R446). -/
def checkDetail (loc addrKind addr : Nat) : List (Nat × Nat) := [(1, loc), (1, addrKind), (8, addr)]

/-- A context checks blocks (R337): MODE 0. -/
def State.blockMode (s : State) (c : Nat) : Bool := !s.on (Reg.INT_CTX_CFG_MODE c)

/-- The whole blocks of near and board memory that PAs touch. -/
def blocksOf (pas : List Nat) : List Nat := ((pas.filter fun pa => memOf pa != 9).map fun pa => pa / 4096 * 4096).eraseDups

/-- A controller's check of a write into near or board memory (R341, R344): in block-check mode the first block whose
carried check word is wrong, or which is written in part while its old check word fails. -/
def State.writeCheck (s : State) (c : Nat) (pas : List Nat) (e : MemErr) : Option Nat :=
  if !s.blockMode c then .none
  else (blocksOf pas).find? fun b => e.chk.any (fun a => a / 4096 * 4096 == b)
    || (s.checkBad b && !((List.range 4096).all fun k => pas.contains (b + k)))

end Sys2Proof.Machine
end

