-- ==== Sys2Proof/Machine/Faults.lean ====
section
/-! DEFINITION. Completion records (R188–R191), and the ends of operations (R189, R423). -/
namespace Sys2Proof.Machine

/-! ### Completion records (R188–R191) -/

/-- A field of a descriptor's flags (R181). -/
def Op.flag (o : Op) (i : Nat) : Bool := bitOn (descBytes o.desc 1 1) i

/-- The party of a fault record that an operation is (R422). -/
def Op.party (o : Op) : PartyRec := ⟨o.ctx, o.gen, o.vcid, o.ring, o.seq⟩

/-- The size of a ring in slots (R169). -/
def State.ringSize (s : State) (r : Nat) : Nat := 2 ^ s.get (Reg.SUB_RING_CFG_SIZE_LOG2 r)

/-- The addresses of a ring's parts: descriptors, completion records, control block (R205). -/
def State.ringBase (s : State) (r : Nat) : Nat :=
  s.get (Reg.SUB_RING_RING_LO_BASE_LO r) * 2 ^ 12 + s.get (Reg.SUB_RING_RING_HI_BASE_HI r) * 2 ^ 32
def State.cqBase (s : State) (r : Nat) : Nat :=
  s.get (Reg.SUB_RING_CQ_LO_BASE_LO r) * 2 ^ 12 + s.get (Reg.SUB_RING_CQ_HI_BASE_HI r) * 2 ^ 32
def State.cbBase (s : State) (r : Nat) : Nat :=
  s.get (Reg.SUB_RING_CB_LO_BASE_LO r) * 2 ^ 6 + s.get (Reg.SUB_RING_CB_HI_BASE_HI r) * 2 ^ 32

/-- The context bound to a ring. -/
def State.ringCtx (s : State) (r : Nat) : Nat := s.get (Reg.SUB_RING_CTX_CONTEXT r)

/-- A hub unit's write for a party fails: a record, and dirt. -/
def State.hubFault (s : State) (p : PartyRec) (kind code : Nat) (detail : List (Nat × Nat)) : State :=
  (s.logRec ({ code := code, unitKind := kind, p1 := some p, detail := detail } : FaultRec)).dirty p.ctx 1

/-- A write of a hub unit at PAs for a party: its controller's check (R341: location 3), the pages' pre-images (R402) and dirty
bits (R397), and MEM_UE where it covers part of a poisoned granule (R157). While the shadow pool is full the state holds the
write. ADDR of a PERMISSION is the PA: DESIGN CHOICE (log entry 146). -/
def State.hubStore (s : State) (h : HeldWrite) (e : MemErr := {}) : State × Bool :=
  let pas := h.cells.map (·.1)
  match e.par.find? pas.contains with
  | some pa => ((s.countCheck 6 2 0 (pa % 4096) (some h.party.ctx)).hubFault h.party h.kind fCheckFail (checkDetail 6 0 (pa / 4096 * 4096)), true)
  | none => match s.writeCheck h.party.ctx pas e with
  | some b => ((s.countCheck 3 3 (memOf b) 0 (some h.party.ctx)).hubFault h.party h.kind fCheckFail (checkDetail 3 0 b), true)
  | none => match s.touchPages .hub (pagesOf pas) with
    | .noPool => (s.hubFault h.party h.kind fPermission [(1, 10), (8, pas.headD 0)], true)
    | .full => (s, false)
    | .go t => match t.partialPoison h.cells with
      | [] => (t.store h.cells, true)
      | g :: _ => ((t.store h.cells).ueRecord h.party h.kind 0 g, true)

/-- A hub unit writes, or waits behind those that wait already (R402). -/
def State.hubWrite (s : State) (h : HeldWrite) (e : MemErr := {}) : State :=
  let wait (t : State) : State := (t.waitShadow .hub).modCkp fun k => { k with held := k.held ++ [h] }
  if !s.ckp.held.isEmpty then wait s
  else match s.hubStore h e with
    | (t, true) => t
    | (t, false) => wait t

/-- Writes that wait go on, in order, as far as the pool allows (R402). -/
def heldWrites : Nat → State → State
  | 0, s => s
  | n + 1, s =>
    match s.ckp.held with
    | [] => s.unwait .hub
    | h :: l => match (s.modCkp fun k => { k with held := l }).hubStore h with
      | (t, true) => heldWrites n t
      | (_, false) => s.waitShadow .hub
def State.flushHeld (s : State) : State := heldWrites (s.ckp.held.length + 1) s

/-- Write bytes of a ring's part: host memory, or device memory at a VA of the bound context (R169). A
device write that does not translate raises PERMISSION (R141), or MEM_UE where its walk meets poison (R157), and stores
nothing. -/
def State.ringWrite (s : State) (r addr : Nat) (bs : List Byte) (e : MemErr := {}) : State :=
  if s.on (Reg.SUB_RING_CFG_LOC r) then
    let c := s.ringCtx r
    let p : PartyRec := ⟨c, s.gen c, s.vcid c, r, 0⟩
    match s.xlateRun c addr bs.length true with
    | .error va => match s.walkPoison c va with
      | some pa => s.ueRecord p 6 0 pa
      | none => s.hubFault p 6 fPermission [(1, 1), (8, va)]
    | .ok pas => s.hubWrite ⟨p, 6, pas.zip bs⟩ e
  else s.hostStore addr bs

/-- Write bytes 16–31 of a ring's control block: CI and CQ_PI (R171, R175). -/
def State.writeCb (s : State) (r : Nat) (e : MemErr := {}) : State :=
  let t := s.ringWrite r (s.cbBase r + 16)
    (leBytes 4 (s.get (Reg.SUB_RING_CI_CI r)) ++ leBytes 4 0 ++ leBytes 4 (s.ring r).cqPi ++ leBytes 4 0) e
  t.modRing r fun x => { x with changed := false }

/-- The 32 bytes of a completion record (R188). -/
def Op.record (o : Op) (status code phase : Nat) : List Byte :=
  leBytes 8 o.seq ++ leBytes 1 status ++ leBytes 1 code ++ leBytes 1 phase ++ leBytes 1 o.opc
    ++ leBytes 4 (if status = stRejected then 0 else o.frames) ++ leBytes 8 o.units ++ leBytes 2 o.gen
    ++ leBytes 2 o.vcid ++ leBytes 4 o.substep

/-- Write an operation's completion record (R190), with its interrupt (R191); the operation leaves flight. One that was
neither issued nor rejected counts with its record, so that the completion ring's free records stay right (R179). -/
def State.recordOp (s : State) (o : Op) (status code : Nat) (e : MemErr := {}) : State :=
  let x := s.ring o.ring
  let n := s.ringSize o.ring
  let phase := if x.cqPi / n % 2 = 0 then 1 else 0
  let s1 := s.ringWrite o.ring (s.cqBase o.ring + x.cqPi % n * 32) (o.record status code phase) e
  let fresh := !((s.op? o.ring o.idx).getD o).issued && status != stRejected
  let s2 := (s1.modRing o.ring fun y => { y with
    cqPi := mod32 (y.cqPi + 1), changed := true, issuedRej := if fresh then mod32 (y.issuedRej + 1) else y.issuedRej }).dropOp o.ring o.idx
  if o.flag 1 && s2.on (Reg.SUB_RING_CFG_IRQ_EN o.ring) then
    let s3 := s2.writeCb o.ring
    if (s3.ring o.ring).irqSent then s3
    else (s3.msix o.ring).modRing o.ring fun y => { y with irqSent := true }
  else s2

/-! ### Ends of operations (R189, R423) -/

/-- The next operation of a ring to be recorded (R190): the finished one that completed first, of the lowest sequence
number. -/
def State.nextFin (s : State) (r : Nat) : Option Op :=
  (s.ops.filter fun o => o.ring == r && o.fin.isSome).foldl (fun (a : Option Op) o =>
    match a with
    | none => some o
    | some x => some (if o.finNo < x.finNo || (o.finNo == x.finNo && o.seq < x.seq) then o else x)) none

/-- The records of a ring's finished operations, in the order of completion, before one that ends now; their completion
signals are still due (R187, R190). -/
def State.flushFin : Nat → State → Nat → State
  | 0, s, _ => s
  | n + 1, s, r =>
    match s.nextFin r with
    | none => s
    | some o =>
      match o.fin with
      | none => s
      | some (st, code) =>
        if st == stRejected then s
        else flushFin n { s.recordOp o st code with sub := { (s.recordOp o st code).sub with sigDue := (s.recordOp o st code).sub.sigDue ++ [o] } } r

/-- The target of an UPDATE (R183). -/
def Op.target (o : Op) : Nat := descBytes o.desc 17 1

/-- The unit that serves an operation, for its fault records (R425): the lowest core still running for a
LAUNCH, the engine of a DMA, or the block of the opcode. -/
def Op.unit (s : State) (o : Op) : Nat × Nat :=
  match o.opc with
  | 1 => (1, o.coresLeft.headD (o.cores.headD 0))
  | 2 =>
    let e := descBytes o.desc 16 1
    if e < 32 then (2, e / 8 * 9 + s.get (cmapFld (e / 8) (e % 8))) else (3, e - 32)
  | 3 => (4, 0)
  | 7 => if o.target = 1 then (5, 8) else (5, 0)
  | 8 => (14, 0)
  | 9 => (12, 0)
  | 10 => (6, 0)
  | 11 => (6, 0)
  | 13 => (6, 0)
  | _ => (7, 0)

/-- The key of a unit that has raised CORE_HANG (R424). -/
def hungKey (kind unit : Nat) : Nat := if kind = 1 then unit else if kind = 2 then 1000 + unit else 4096 * kind + unit

/-- Remove a waiter from both episodes of every barrier object. An arrival whose descriptor or LAUNCH ends otherwise no longer
counts, while the payload that it brought stays combined: the manual is silent, DESIGN CHOICE (log entry 147). -/
def State.dropWaiter (s : State) (obj : Nat) (w : Waiter) : State :=
  let b := s.obj obj
  s.setObj obj { b with
    cur := { b.cur with locals := b.cur.locals.filter (· != w) }
    nxt := { b.nxt with locals := b.nxt.locals.filter (· != w) } }

/-- The waiters by which a core waits at a barrier. -/
def State.dropCoreWait (s : State) (c : Nat) : State :=
  match (s.core c).wait with
  | some q => if q.barrier then s.dropWaiter q.obj (.core (Fin.ofNat 144 c)) else s
  | none => s

/-- The units of an ending operation are asked to stop (R423), but one that has raised CORE_HANG is not (R424): the
cores of a LAUNCH take no further instruction of it. -/
def State.stopCores (s : State) (o : Op) : State :=
  let mine := o.cores.filter fun c => (s.core c).launch == some (o.ring, o.idx)
  let s1 := s.each mine fun t c => ((t.endSeqs c).dropCoreWait c).modCore c fun k => { k with launch := none, wait := none, stall := none, misses := 0, weights := none }
  let u := Op.unit s o
  let q := (s.op? o.ring o.idx).getD o
  let units : List (Nat × Nat) := if o.opc = 1 then (mine.filter fun c => !s.hrc.hung.contains c).map fun c => (1, c)
    else if q.issued && q.fin.isNone && !s.hrc.hung.contains (hungKey u.1 u.2) && [2, 3, 7, 8].contains o.opc then [u] else []
  s1.modHrc fun h => { h with stops := h.stops ++ units.map fun x => ⟨⟨Fin.ofNat 16 x.1, BitVec.ofNat 16 x.2⟩, o.party, s.now⟩ }

/-- The cells of stopped owners that wait in a queue are not launched, and their transfers end; what reports still come for
them finds them dead (R289). -/
def State.dropOwned (s : State) (mine : Owner → Bool) : State :=
  { s with fab := { s.fab with
      cells := s.fab.cells.filter fun q => !(q.flight.isNone && (q.owner.map mine) == some true)
      xfers := s.fab.xfers.map fun x => if mine x.owner then { x with dead := true } else x
      readDst := s.fab.readDst.filter fun x => !mine x.owner } }

/-- A stopped operation leaves nothing to send or to combine (R423). -/
def State.dropCells (s : State) (o : Op) : State :=
  let t := s.dropOwned fun w => w.ring == o.ring && w.idx == o.idx
  { t with fab := { t.fab with colls := t.fab.colls.filter fun r => !(r.ring == o.ring && r.idx == o.idx) } }

/-- The mirror that this module keeps becomes STALE (R383). -/
def State.mirrorStale (s : State) : State :=
  if s.on Reg.RPL_MIR_CLIENT_VALID then (s.put Reg.RPL_MIR_CLIENT_STATE 2).put Reg.RPL_MIR_CLIENT_VERIFIED 0 else s

/-- An operation ends FAULTED, REJECTED or ABORTED: its units stop, its record is written with its progress
(R194, R423), and a fault or rejection is a cause of dirt (R311), without BREAK messages. -/
def State.endQuiet (s : State) (o : Op) (status code : Nat) : State :=
  let s1 := s.stopCores o
  let s2 := { s1 with syn := { s1.syn with remotes := s1.syn.remotes.filter fun m => !(m.ring == o.ring && m.idx == o.idx) } }
  let s3 := (flushFin s2.ops.length (s2.dropCells o) o.ring).recordOp o status code
  let s4 := s3.when (status == stRejected) fun t => t.bump (Reg.SUB_RING_REJECT_CNT_COUNT o.ring)
  let s5 := s4.when (o.opc == 7 && o.target == 1 && status != stRejected) fun t => t.mirrorStale
  s5.when (status != stAborted) fun t => t.dirty o.ctx 1

/-! ### Breaking a barrier (R228) -/

/-- The ports of a barrier's tree: its children, and its parent unless it is the root. -/
def SyncObj.ports (b : SyncObj) : List Nat := (if b.root then [] else [b.parentPort]) ++ maskBits 16 b.childMask

/-- A barrier message of this module for a context (R219). -/
def State.barMsg (s : State) (kind c vid payOp value : Nat) (sense : Bool) : SyncMsg :=
  { kind := BitVec.ofNat 8 kind, sense := sense, payOp := BitVec.ofNat 2 payOp, dest := 0,
    src := BitVec.ofNat 13 s.moduleId, slice := BitVec.ofNat 12 (s.get Reg.SWT_SLICE_TAG),
    vcid := BitVec.ofNat 16 (s.vcid c), epoch := BitVec.ofNat 16 (s.get (Reg.SYN_CTX_EPOCH_EPOCH c)),
    object := BitVec.ofNat 16 vid, tag := 0, value := BitVec.ofNat 64 value }

/-- Whether synchronisation is enabled (SYN_CTRL.ENABLE, R230); otherwise signals, waits and barrier messages are held. -/
def State.synOn (s : State) : Bool := s.on Reg.SYN_CTRL_ENABLE

/-- Something waits for ENABLE (R230). -/
def State.holdSync (s : State) (x : HeldSync) : State := { s with syn := { s.syn with held := s.syn.held ++ [x] } }

/-- A barrier message leaves on a port, for the module facing it (R219), or is held while ENABLE is 0 (R230). -/
def State.barOut (s : State) (p : Nat) (m : SyncMsg) : State :=
  s.svcOut p (.sync { m with dest := BitVec.ofNat 13 (s.get (Reg.OPT_PORT_STATUS_PEER p)) })
def State.barSend (s : State) (p : Nat) (m : SyncMsg) : State := if s.synOn then s.barOut p m else s.holdSync (.out p m)

/-- The context and virtual identifier by which a waiter names its barrier. -/
def State.waiterName (s : State) (w : Waiter) : Option (Op × Nat) :=
  match w with
  | .desc r i => (s.op? r.val i.toNat).bind fun o => o.wait.map fun q => (o, q.vid)
  | .replay _ => none
  | .core c => (s.core c.val).launch.bind fun l => (s.op? l.1 l.2).bind fun o => (s.core c.val).wait.map fun q => (o, q.vid)

/-- The unit of a waiter in a fault record: the synchronisation hardware, or the core (R228). -/
def waiterUnit : Waiter → Nat × Nat
  | .desc _ _ => (7, 0)
  | .core c => (1, c.val)
  | .replay _ => (14, 0)

/-- Units in the order of R426: by kind, then by number. -/
def unitOrder (u : Nat × Nat) : Nat := u.1 * 65536 + u.2

/-- The record of a failed arrival: ARRIVED, LOCAL_N and the child ports without an ARRIVE, or the module
that originated the break (R228, R446). -/
def breakRecord (b : SyncObj) (vid : Nat) (origin : Option Nat) (w : Waiter) (p : PartyRec) : FaultRec :=
  { code := fSyncWatchdog, unitKind := (waiterUnit w).1, unit := (waiterUnit w).2, p1 := some p,
    detail := [(2, vid), (2, b.cur.locals.length), (2, b.localN),
      (2, if origin.isSome then 0 else b.childMask - (b.childMask &&& b.cur.arrived)),
      (8, 0), (8, 0), (2, origin.getD 0xFFFF)] }

/-- The descriptor or LAUNCH of a failed arrival completes FAULTED with SYNC_WATCHDOG; a NOON makes its
attempt discard (R319). -/
def State.failArrival (s : State) (o : Op) : State :=
  if (s.op? o.ring o.idx).isNone then s
  else
    let s1 := s.endQuiet o stFaulted fSyncWatchdog
    s1.when (o.opc == 12 && s1.stepOpen o.ctx) fun t => t.discardNext o.ctx

/-- A local arrival that fails: its waiter, its operation but for the module's own at the replay barrier, the virtual identifier
and the party. -/
structure FailedArrival where
  waiter : Waiter
  op : Option Op
  vid : Nat
  party : PartyRec

def State.failedArrival (s : State) (vid : Nat) (w : Waiter) : Option FailedArrival :=
  match w with
  | .replay c => some ⟨w, none, vid, s.ctxParty c.val⟩
  | _ => (s.waiterName w).map fun q => ⟨w, some q.1, q.2, q.1.party⟩

/-- Break a barrier (R228): BROKEN, the messages on its tree under the names of a context, and every local
arrival of both episodes failed, with records in the order of their units (R426). A BREAK carries the sense of the episode that it concerns: the current one, or with `past`
the one released before it (R219, R332). -/
def State.breakOnly (s : State) (obj c vid : Nat) (origin : Option Nat) (past : Bool) : State :=
  let b := s.obj obj
  let failed := sortOn (fun (x : FailedArrival) => unitOrder (waiterUnit x.waiter)) ((b.cur.locals ++ b.nxt.locals).filterMap (s.failedArrival vid))
  let s1 := (s.setObj obj { b with broken := true, cur := { b.cur with locals := [] }, nxt := { b.nxt with locals := [] } }).mark Reg.SYN_EVENT_BROKEN
  let s2 := s1.each b.ports fun t p => t.barSend p { t.barMsg 6 c vid 0 0 (b.sense != past) with src := BitVec.ofNat 13 (origin.getD t.moduleId) }
  let s3 := s2.when (!failed.isEmpty) fun t => t.mark Reg.SYN_EVENT_WATCHDOG
  let s4 := s3.each failed fun t q => (t.logRec (breakRecord b q.vid origin q.waiter q.party)).bump Reg.SYN_WDOG_CNT_COUNT
  s4.each (failed.filterMap (·.op)) State.failArrival

/-- The BREAKs that causes after Noon have made due (R331) leave on the Noon barriers, of one context after the other. -/
def sendBreaks : Nat → State → State
  | 0, s => s
  | n + 1, s =>
    match s.rpl.ctxs.find? fun e => e.2.breakDue with
    | none => s
    | some e =>
      let c := e.1
      let s1 := (s.modCtx c fun x => { x with breakDue := false, broke := true }).mark Reg.RPL_STEP_EVENT_BREAK_SENT
      sendBreaks n (s1.breakOnly (s1.ctx c).noonObj c (s1.ctx c).noonVid none true)
def State.flushBreaks (s : State) : State := sendBreaks 64 s

/-- Break a barrier, with the BREAKs that its failed arrivals bring (R228, R331). -/
def State.breakObj (s : State) (obj c vid : Nat) (origin : Option Nat) (past : Bool) : State := (s.breakOnly obj c vid origin past).flushBreaks

/-- A cause of R311 on a context: dirt before Noon, a carry in the closing window, and otherwise a BREAK on
the Noon barrier and a discard at the next tick (R331). -/
def State.cause (s : State) (c b : Nat) : State := (s.dirty c b).flushBreaks

/-- The vote bits that a record clears (R311): NO_FAULT, for MEM_UE also MEM_OK, for DUP_MISMATCH also NO_DUP. -/
def causeBits (code : Nat) : List Nat := if code = fMemUe then [1, 4] else if code = fDupMismatch then [1, 2] else [1]

/-- Write a fault record and apply its dirt (R311): every record but a notice, to each context that it names. -/
def State.raise (s : State) (r : FaultRec) : State :=
  let named := if r.notice then [] else ((r.p1.toList ++ r.p2.toList).map (·.ctx)).eraseDups
  (s.logRec r).each named fun t c => (causeBits r.code).foldl (fun u b => u.cause c b) t

/-- An operation ends FAULTED, REJECTED or ABORTED, with the BREAK that its cause may bring (R331). -/
def State.endOp (s : State) (o : Op) (status code : Nat) : State :=
  let s1 := if status == stAborted then s else s.cause o.ctx 1
  let s2 := match o.wait with
    | some q => if q.barrier then s1.dropWaiter q.obj (.desc (Fin.ofNat 256 o.ring) (BitVec.ofNat 32 o.idx)) else s1
    | none => s1
  (s2.endQuiet o status code).flushBreaks

/-- A fault record of an operation. -/
def Op.faultRec (o : Op) (code unitKind unit : Nat) (detail : List (Nat × Nat)) : FaultRec :=
  { code := code, unitKind := unitKind, unit := unit, p1 := some o.party, detail := detail }

/-- An operation ends FAULTED with a record of its own. -/
def State.faultOp (s : State) (o : Op) (code unitKind unit : Nat) (detail : List (Nat × Nat)) : State :=
  (s.raise (o.faultRec code unitKind unit detail)).endOp o stFaulted code

/-- Insert an operation by its issue number. -/
def insertByIssue (o : Op) : List Op → List Op
  | [] => [o]
  | q :: l => if o.issueNo ≤ q.issueNo then o :: q :: l else q :: insertByIssue o l

/-- A failing unit ends every operation that it serves (R422): a record for each of the first 8 in order of issue,
one summary record for the rest, and a completion record for all. -/
def State.faultMany (s : State) (l : List Op) (code unitKind unit : Nat) (detail : Op → List (Nat × Nat)) : State :=
  let os := l.foldr insertByIssue []
  let s1 := s.each (os.take 8) fun t o => if (t.op? o.ring o.idx).isSome then t.faultOp o code unitKind unit (detail o) else t
  let rest := os.drop 8
  let s2 := s1.when (!rest.isEmpty) fun t => t.logRec
    { code := code, unitKind := unitKind, unit := unit, summary := some rest.length, detail := (os.head?.map detail).getD [] }
  s2.each rest fun t o => if (t.op? o.ring o.idx).isSome then t.endOp o stFaulted code else t

/-- A core stops its LAUNCH with a fault (R423): the LAUNCH completes FAULTED. -/
def State.stopLaunch (s : State) (c code : Nat) (detail : List (Nat × Nat)) : State :=
  match (s.core c).launch with
  | none => s
  | some l =>
    match s.op? l.1 l.2 with
    | none => s
    | some o => s.faultOp o code 1 c detail

/-- An operation has finished with a status: its record follows with DESCRIPTOR_COMPLETE (R188). -/
def State.finish (s : State) (o : Op) (status code : Nat) : State :=
  { s.modOp o.ring o.idx fun x => { x with fin := some (status, code), finNo := s.sub.finCnt, wait := none } with
    sub := { (s.modOp o.ring o.idx fun x => { x with fin := some (status, code), finNo := s.sub.finCnt, wait := none }).sub with finCnt := s.sub.finCnt + 1 } }

end Sys2Proof.Machine
end

