-- ==== Sys2Proof/Machine/Paging.lean ====
section
/-! DEFINITION. Writes of units at addresses of a context (R141, R397, R402), and memory errors met by units (R155–R157). -/
namespace Sys2Proof.Machine

/-- The outcome of a unit's write: done, refused with the REASON and ADDR of PERMISSION, or waiting for a
shadow page. -/
inductive Wrote where
  | ok (s : State)
  | perm (reason addr : Nat)
  | wait

/-- A unit writes cells at VAs of a context (R141, R157, R397, R402). -/
def State.unitWrite (s : State) (who : Writer) (c : Nat) (w : List (Nat × Byte)) : Wrote :=
  match w.find? fun e => (s.xlate c e.1 true).isNone with
  | some e => .perm 1 e.1
  | none =>
    let cells := w.filterMap fun e => (s.xlate c e.1 true).map fun pa => (pa, e.2)
    match s.touchPages who (pagesOf (cells.map (·.1))) with
    | .go t => .ok (t.store cells)
    | .noPool => .perm 10 ((w.headD (0, 0)).1)
    | .full => .wait

/-- The poisoned units of which a write at VAs covers only part (R157). -/
def State.partialVa (s : State) (c : Nat) (w : List (Nat × Byte)) : List Nat :=
  s.partialPoison (w.filterMap fun e => (s.xlate c e.1 true).map fun pa => (pa, e.2))

/-! ### Errors that end an operation (R157, R344) -/

/-- An operation's unit consumes poison, or writes it in part (R157): MEM_UE ends the operation. -/
def State.ueOp (s : State) (o : Op) (unitKind unit pa : Nat) : State :=
  let r := s.consumeUe pa (some o.ctx)
  r.2.faultOp o fMemUe unitKind unit r.1

/-- A failed block check at a read ends the operation (R344). -/
def State.checkOp (s : State) (o : Op) (unitKind unit loc pa : Nat) : State :=
  (s.countCheck loc 3 (memOf pa) (pa % 4096) (some o.ctx) o.opc).faultOp o fCheckFail unitKind unit (checkDetail loc 0 (pa / 4096 * 4096))

/-- A unit's reads at PAs meet their errors (R156, R157, R344): the first poisoned PA, in block-check mode of every
block touched; then a wrong parity of the bytes on their way (R343); then in block-check mode the first block that fails
its check (R341). -/
inductive ReadErr where
  | none
  | ue (pa : Nat)
  | chk (pa : Nat)
  | parity (pa : Nat)

/-- The first poisoned PA of a read; in block-check mode the whole of every block touched is read. -/
def State.readPoison (s : State) (c : Nat) (pas : List Nat) : Option Nat :=
  (pas.find? s.poisoned).or (if s.blockMode c then
    let bs := blocksOf pas
    (s.poison.find? fun g => bs.contains (g / 4096 * 4096)).or (s.memx.badCheck.find? bs.contains) else .none)

def State.readErr (s : State) (c : Nat) (pas : List Nat) (e : MemErr) : ReadErr :=
  match s.readPoison c pas with
  | some pa => .ue pa
  | .none =>
    match e.par.find? pas.contains with
    | some pa => .parity pa
    | .none =>
      if !s.blockMode c then .none
      else match (blocksOf pas).find? fun b => s.checkBad b || e.chk.any fun a => a / 4096 * 4096 == b with
        | some b => .chk b
        | .none => .none

/-- Wrong parity in a unit's buffer (R343, R344) ends the operation: location 6. -/
def State.parityOp (s : State) (o : Op) (unitKind unit pa : Nat) : State :=
  (s.countCheck 6 2 0 (pa % 4096) (some o.ctx) o.opc).faultOp o fCheckFail unitKind unit (checkDetail 6 0 (pa / 4096 * 4096))

/-- The cores whose scratchpads an engine's accesses touch lose bank cycles to it, or make it wait (R145). -/
def State.spWaits (s : State) (pas : List Nat) : State :=
  s.each (((pas.filter fun pa => memOf pa == 9).map fun pa => (pa - spBase) / 0x400000).eraseDups) fun t c =>
    t.bumpFree (Reg.CORE_SP_STALL_CNT_CYCLES c)

/-- An engine's read of PAs for an operation: the errors met, and the one that stops it (R156, R157, R341, R343). -/
def State.meetRead (s : State) (o : Op) (pas : List Nat) (e : MemErr) : State × ReadErr :=
  let t := (s.spWaits pas).meetErrs (some o.ctx) (fun pa => pas.contains pa || (s.blockMode o.ctx && (blocksOf pas).contains (pa / 4096 * 4096))) e
  (t, t.readErr o.ctx pas e)

/-- What stops a read ends its operation (R157, R344), a failed check at a location. -/
def State.readStop (t : State) (o : Op) (u : Nat × Nat) (loc : Nat) : ReadErr → State
  | .none => t
  | .ue pa => t.ueOp o u.1 u.2 pa
  | .parity pa => t.parityOp o u.1 u.2 pa
  | .chk pa => t.checkOp o u.1 u.2 loc pa

/-- What a unit's store at PAs comes to: it is done, its operation has ended, or it waits for a page of the shadow pool. -/
inductive Stored where
  | ok (s : State)
  | stop (s : State)
  | wait

/-- A unit's store for an operation at PAs: parity on the way (R343), its controller's check (R341), pre-images and dirty bits
(R397, R402), and MEM_UE where it covers part of a poisoned granule (R157). -/
def State.storeFor (s0 : State) (w : Writer) (o : Op) (unitKind unit addr : Nat) (cells : List Host.Cell) (e : MemErr) : Stored :=
  let pas := cells.map (·.1)
  let s := s0.spWaits pas
  match e.par.find? pas.contains with
  | some pa => .stop (s.parityOp o unitKind unit pa)
  | none => match s.writeCheck o.ctx pas e with
    | some b => .stop ((s.countCheck 3 3 (memOf b) 0 (some o.ctx) o.opc).faultOp o fCheckFail unitKind unit (checkDetail 3 0 b))
    | none => match s.touchPages w (pagesOf pas) with
      | .noPool => .stop (s.faultOp o fPermission unitKind unit [(1, 10), (8, addr)])
      | .full => .wait
      | .go t => match t.partialPoison cells with
        | [] => .ok (t.store cells)
        | g :: _ => .stop ((t.store cells).ueOp o unitKind unit g)

/-- The record of an access for a context, of no operation, that does not translate (R141), or whose table walk meets
poison (R157); and the code. -/
def State.accessRec (s : State) (c unitKind unit va : Nat) : State × Nat :=
  match s.walkPoison c va with
  | some pa =>
    let r := s.consumeUe pa (some c)
    (r.2.raise { code := fMemUe, unitKind := unitKind, unit := unit, p1 := some (s.ctxParty c), detail := r.1 }, fMemUe)
  | .none => (s.raise { code := fPermission, unitKind := unitKind, unit := unit, p1 := some (s.ctxParty c), detail := [(1, 1), (8, va)] }, fPermission)

/-- An access of an operation's unit that does not translate (R141), or whose table walk meets poison (R157). -/
def State.xlateFault (s : State) (o : Op) (unitKind unit va : Nat) : State :=
  match s.walkPoison o.ctx va with
  | some pa => s.ueOp o unitKind unit pa
  | .none => s.faultOp o fPermission unitKind unit [(1, 1), (8, va)]

/-- A unit's write for an operation at VAs of its context (R141, R402). -/
def State.writeFor (s : State) (o : Op) (u : Nat × Nat) (w : List (Nat × Byte)) (e : MemErr) : Stored :=
  match w.find? fun x => (s.xlate o.ctx x.1 true).isNone with
  | some x => .stop (s.xlateFault o u.1 u.2 x.1)
  | none => s.storeFor (.op o.ring o.idx) o u.1 u.2 ((w.headD (0, 0)).1) (w.filterMap fun x => (s.xlate o.ctx x.1 true).map fun pa => (pa, x.2)) e

/-- An engine's write at VAs of the operation's context. -/
def State.engineWrite (s : State) (o : Op) (w : List (Nat × Byte)) (e : MemErr) : Stored := s.writeFor o (Op.unit s o) w e

end Sys2Proof.Machine
end

