-- ==== Sys2Proof/Machine/Links.lean ====
section
/-! DEFINITION. Ports and links: the routing table (R285, R290), what a port needs to be UP (R244, R269), quiet
and hold (R248), LINK_DOWN (R253, R254), service messages to other modules (R285), and the failures of the restore,
Daybreak and checkpoint engines (R394, R406, R414). -/
namespace Sys2Proof.Machine

def State.modFab (s : State) (f : FabSt → FabSt) : State := { s with fab := f s.fab }

/-- A bypass switch beside its registers. -/
def State.byp (s : State) (b : Nat) : BypSt := sget (fun _ => {}) s.opt.byps b
def State.modByp (s : State) (b : Nat) (f : BypSt → BypSt) : State :=
  s.modOpt fun o => { o with byps := sset (fun _ => {}) o.byps b (f (s.byp b)) }

/-! ### Routes (R285, R290) -/

/-- The routing entry of a module in effect. -/
def State.route (s : State) (m : Nat) : Nat := sget (fun _ => 0) s.fab.routes m

def routeValid (e : Nat) : Bool := bitOn e 0
def routePort (e : Nat) : Nat := bitsOf e 1 4
def routeAlt (e : Nat) : Nat := bitsOf e 5 4
def routeAltOk (e : Nat) : Bool := bitOn e 9
def routeFixed (e : Nat) : Bool := bitOn e 10
def routeFlow (e : Nat) : Nat := bitsOf e 11 6

/-- Whether an entry uses its alternative port (R290). -/
def State.onAlt (s : State) (e : Nat) : Bool := routeAltOk e && (s.port (routePort e)).rerouted

/-- The port that an entry's cells leave by. -/
def State.outPort (s : State) (e : Nat) : Nat := if s.onAlt e then routeAlt e else routePort e

/-- The flow of an entry's cells, none for the open queue; an alternative port is used by its open queue (R290). -/
def State.outFlow (s : State) (e : Nat) : Option Nat := if routeFixed e && !s.onAlt e then some (routeFlow e) else none

/-- The queue of the module's own cells to a module (R285). -/
def State.ownQueue (s : State) (m : Nat) : Queue :=
  let e := s.route m
  match s.outFlow e with
  | some f => .flow (s.outPort e) f
  | none => .own (s.outPort e)

/-- The fault record of a route miss: PORT, CAUSE, SRC, DEST, TAG (R446). -/
def missRec (party : Option PartyRec) (port cause src dest tag : Nat) : FaultRec :=
  { code := fRouteMiss, unitKind := 12, p1 := party, detail := [(1, port), (1, cause), (2, src), (2, dest), (2, tag)] }

/-- A miss counted and recorded without a context (R285–R287). -/
def State.routeMiss (s : State) (port cause src dest tag : Nat) : State :=
  ((s.bump Reg.SWT_MISS_CNT_COUNT).mark Reg.SWT_EVENT_ROUTE_MISS).logRec (missRec none port cause src dest tag)

/-- The slice tag of the module. -/
def State.sliceTag (s : State) : Nat := s.get Reg.SWT_SLICE_TAG

/-- A service message to a module leaves by PORT of its routing entry; an invalid one drops it with a ROUTE_MISS
record that names origin and destination (R285). -/
def State.sendTo (s : State) (origin dest : Nat) (m : SvcBody) (hops : Nat := 0) : State :=
  if routeValid (s.route dest) then s.svcOut (s.outPort (s.route dest)) m hops
  else s.routeMiss (routePort (s.route dest)) 2 origin dest s.sliceTag

/-! ### Ports (R234, R244, R248, R269) -/

/-- The lane of the port on λ16, 31 for none. -/
def State.txSpare (s : State) (p : Nat) : Nat := s.get (Reg.OPT_PORT_LANE_TX_SPARE p)

/-- The wavelengths that a transmit port's lanes use. -/
def State.txWaves (s : State) (p : Nat) : List Nat := (List.range 16).map (laneWave (s.txSpare p))

/-- The wavelengths on which a port's sources send their lanes; without a known source, λ0–λ15. -/
def State.rxWaves (s : State) (p : Nat) : List Nat :=
  match (s.port p).sources with
  | [] => List.range 16
  | l => l.flatMap fun e => (List.range 16).map (laneWave e.2.txSpare)

/-- The module behaves as a relay (R490, R491): until the tick after firmware sets ENABLE. -/
def State.inRelay (s : State) : Bool := !s.on Reg.SWT_CTRL_ENABLE || s.on Reg.GLB_STATUS_RELAY

/-- The slot switch expresses statically: under the relay, and while the counter is not VALID (R24, R490). -/
def State.switchRelay (s : State) : Bool := s.inRelay || !s.on Reg.FTB_STATUS_VALID

/-- What a port keeps while its rings recover: an open bypass, a trained peer, no gap. -/
def State.portJoined (s : State) (p : Nat) : Bool :=
  s.bypOpen p && s.on (Reg.OPT_PORT_STATUS_PEER_VALID p) && ((s.port p).trained || s.inRelay) && !s.on (Reg.OPT_PORT_STATUS_GAP p)

/-- Every ring that a port needs is VERIFIED (R244); a relay uses λ17 alone (R490, R492). -/
def State.ringsReady (s : State) (p : Nat) : Bool :=
  s.verified p false 17 && s.verified p true 17
    && (s.inRelay || ((s.txWaves p).all (s.verified p false) && (s.rxWaves p).all (s.verified p true)))

/-- Evaluate UP (R244, R269): set with everything ready, which clears LINK_DOWN; cleared when the port loses its
peer, its bypass or its gap, and kept while rings recover under quiet or hold (R248). -/
def State.refreshPort (s : State) (p : Nat) : State :=
  if s.portJoined p && s.ringsReady p then
    (((s.mark (Reg.OPT_PORT_STATUS_UP p)).put (Reg.OPT_PORT_STATUS_LINK_DOWN p) 0).modPort p fun x => { x with wasUp := true })
  else if s.portJoined p then s
  else s.put (Reg.OPT_PORT_STATUS_UP p) 0

/-- A port launches cells (R244, R248). -/
def State.canLaunch (s : State) (p : Nat) : Bool :=
  !s.switchRelay && s.on (Reg.OPT_PORT_STATUS_UP p) && !s.on (Reg.OPT_PORT_STATUS_TX_QUIET p)
    && s.verified p false 17 && (s.txWaves p).all (s.verified p false)

/-- A port terminates cells (R244): its λ17 drop ring and its receive rings in use are VERIFIED. -/
def State.canTerminate (s : State) (p : Nat) : Bool := s.verified p true 17 && (s.rxWaves p).all (s.verified p true)

/-- A message that arrives on a port is heard only while the port's service lane works (R248, R265). -/
def State.heardOn (s : State) (p : Nat) (f : State → State) : State := if s.serviceUp p then f s else s

/-- A cause of TX_QUIET or RX_HOLD begins (R248); a port that enters it sets PORT_QUIET (R270). -/
def State.quietOn (s : State) (p c : Nat) : State :=
  let s1 := (s.mark (Reg.OPT_PORT_STATUS_TX_QUIET p)).when (s.port p).quiet.isEmpty fun t => t.mark Reg.OPT_EVENT_PORT_QUIET
  s1.modPort p fun x => { x with quiet := if x.quiet.contains c then x.quiet else c :: x.quiet }
def State.holdOn (s : State) (p c : Nat) : State :=
  let s1 := (s.mark (Reg.OPT_PORT_STATUS_RX_HOLD p)).when (s.port p).hold.isEmpty fun t => t.mark Reg.OPT_EVENT_PORT_QUIET
  s1.modPort p fun x => { x with hold := if x.hold.contains c then x.hold else c :: x.hold }

/-- A link or lane message of this module (R505). -/
def State.linkMsg (s : State) (kind code dest port count lseq gen xfer : Nat) : LinkMsg :=
  { kind := BitVec.ofNat 8 kind, code := BitVec.ofNat 8 code, src := BitVec.ofNat 13 s.moduleId,
    dest := BitVec.ofNat 13 dest, port := BitVec.ofNat 4 port, count := BitVec.ofNat 8 count,
    lseq := BitVec.ofNat 16 lseq, gen := BitVec.ofNat 16 gen, xfer := BitVec.ofNat 32 xfer }

/-- The port of a module that feeds a port of this one, as its last beacon named it. -/
def State.farPort (s : State) (p m : Nat) : Nat := (sget (fun _ => {}) (s.port p).sources m).port

/-- The module facing a port. -/
def State.peer (s : State) (p : Nat) : Nat := s.get (Reg.OPT_PORT_STATUS_PEER p)

/-- A cause of TX_QUIET ends; with the last one the port leaves it (R249). -/
def State.quietOff (s : State) (p c : Nat) : State :=
  let s1 := s.modPort p fun x => { x with quiet := x.quiet.filter (· != c) }
  if (s1.port p).quiet.isEmpty then ((s1.put (Reg.OPT_PORT_STATUS_TX_QUIET p) 0).modPort p
    fun x => { x with quietTicks := if x.hold.isEmpty then 0 else x.quietTicks }).refreshPort p
  else s1

/-- A cause of RX_HOLD ends; with the last one the port sends RESUME to its sources (R248). -/
def State.holdOff (s : State) (p c : Nat) : State :=
  let was := !(s.port p).hold.isEmpty
  let s1 := s.modPort p fun x => { x with hold := x.hold.filter (· != c) }
  if (s1.port p).hold.isEmpty && was then
    let s2 := ((s1.put (Reg.OPT_PORT_STATUS_RX_HOLD p) 0).modPort p
      fun x => { x with quietTicks := if x.quiet.isEmpty then 0 else x.quietTicks }).refreshPort p
    let srcs := match (s2.port p).sources with
      | [] => [s2.peer p]
      | l => l.map (·.1)
    s2.each srcs fun t m => t.sendTo t.moduleId m (.link (t.linkMsg 4 0 m (t.farPort p m) 0 0 0 0))
  else s1

/-! ### The engines' failures (R394, R406, R414) -/

/-- The module's own engines as owners of transfers: the restore, the Daybreak load, the checkpoint, and its reads of the target's
CI; the ring engine is the fourth (`ringEngine`). -/
def restoreEngine (c : Nat) : Owner := ⟨256, 0, c⟩
def loadEngine (c : Nat) : Owner := ⟨256, 1, c⟩
def ckptEngine (c : Nat) : Owner := ⟨256, 2, c⟩
def ciEngine (c : Nat) : Owner := ⟨256, 4, c⟩
def Owner.engine (w : Owner) : Bool := w.ring == 256

/-- An engine leaves nothing to send or to await. -/
def State.dropEngine (s : State) (w : Owner) : State := s.dropOwned (· == w)

/-- A restore that cannot finish (R394): STATE stays RESTORING, with RESTORE_FAIL and a record of the code. -/
def State.restoreFails (s : State) (c code : Nat) (detail : List (Nat × Nat)) : State :=
  let s1 := ((s.dropEngine (restoreEngine c)).mark (Reg.RPL_REPLAY_STATUS_RESTORE_FAIL c)).mark Reg.RPL_REPLAY_EVENT_RESTORE_FAIL
  s1.raise { code := code, unitKind := 14, p1 := some (s.ctxParty c), detail := detail }

/-- A Daybreak load fails (R394). RPL_DAYBREAK_CTRL.LOAD clears with it: DESIGN CHOICE, R395 does not say when (log
entry 131). -/
def State.daybreakFails (s : State) (c code : Nat) (detail : List (Nat × Nat)) : State :=
  let s0 := (s.dropEngine (loadEngine c)).put Reg.RPL_DAYBREAK_STATUS_STATE 5
  let s1 := (s0.put Reg.RPL_DAYBREAK_CTRL_LOAD 0).modInt fun x => { x with admitRun := none }
  if s.get (Reg.RPL_REPLAY_STATUS_STATE c) = 2 then s1.restoreFails c code detail
  else s1.raise { code := code, unitKind := 14, p1 := some (s.ctxParty c), detail := detail }

def State.ckptState (s : State) : Nat := s.get Reg.RPL_CKPT_STATUS_STATE
def State.setCkpt (s : State) (st : Nat) : State := s.put Reg.RPL_CKPT_STATUS_STATE st

/-- The checkpoint engine's writes on their way are given up. -/
def State.dropOutbox (s : State) : State :=
  ((s.dropEngine (ckptEngine s.ckptCtx)).dropEngine (ciEngine s.ckptCtx)).modCkp fun k => { k with outbox := [], endSent := false }

/-- The checkpoint fails (R406): no END record; the next one is full. -/
def State.ckptFails (s : State) (code : Nat) (detail : List (Nat × Nat)) : State :=
  let s1 := ((s.dropOutbox.setCkpt 3).mark Reg.RPL_CKPT_EVENT_FAILED).mark Reg.RPL_CKPT_STATUS_FULL_NEXT
  let s2 := s1.logRec { code := code, unitKind := 3, unit := 14, p1 := some (s.ctxParty s.ckptCtx), detail := detail }
  (s2.modCkp fun k => { k with pending := [] }).releaseShadow fun p => { p with ckpt := none }

/-- A restore of a chain fails (R414); its record names the record's SEQ in the field of that name. RPL_CKPT_CTRL.RESTORE
clears with it: DESIGN CHOICE, R417 does not say when (log entry 131). -/
def State.chainFails (s : State) (seq code : Nat) (detail : List (Nat × Nat)) : State :=
  let s1 := ((s.dropOutbox.setCkpt 5).mark Reg.RPL_CKPT_EVENT_RESTORE_FAIL).put Reg.RPL_CKPT_CTRL_RESTORE 0
  s1.raise { code := code, unitKind := 3, unit := 14, p1 := some { s.ctxParty s.ckptCtx with seq := seq }, detail := detail }

/-- A transfer of an engine fails with a code: what it was doing fails with it (R394, R406, R414). A guest copy that fails is
recorded, and its set stays SEALING: DESIGN CHOICE, the manual gives no ending (log entry 63). -/
def State.engineFails (s : State) (w : Owner) (code : Nat) (detail : List (Nat × Nat)) : State :=
  if w.idx = 0 then s.restoreFails w.ctx code detail
  else if w.idx = 1 then s.daybreakFails w.ctx code detail
  else if w.idx = 3 then
    let t := s.dropEngine w
    ({ t with rpl := { t.rpl with slotDue := true } }).logRec { code := code, unitKind := 14, p1 := some (s.ctxParty w.ctx), detail := detail }
  else if s.ckptState = 1 then s.ckptFails code detail
  else if s.ckptState = 4 then s.chainFails s.ckp.restore.lastSeq code detail
  else s.dropOutbox

/-- CAUSE of an engine's LINK_DOWN (R446): 7 for a partner that cannot be reached (R394), and for the checkpoint's target
the transfer's own. -/
def engineCause (w : Owner) (own : Nat) : Nat := if w.idx = 2 || w.idx = 4 then own else 7

/-! ### LINK_DOWN (R251–R254) -/

/-- The queue's port: cells of a buffer leave by their route. -/
def State.cellPort (s : State) (q : QCell) : Nat :=
  match q.queue with
  | .own p => p
  | .flow p _ => p
  | .buf _ _ => s.outPort (s.route q.cell.dest.toNat)

/-- An operation ends FAULTED with a fault record, its cells still queued going with it (R423). -/
def State.faultXfer (s : State) (w : Owner) (code unitKind unit : Nat) (detail : List (Nat × Nat)) : State :=
  match s.op? w.ring w.idx with
  | none => s
  | some o => s.faultOp o code unitKind unit detail

/-- A cell whose route leaves a lost port for its alternative at the next tick (R290). -/
def State.willMove (s : State) (p : Nat) (q : QCell) : Bool :=
  let e := s.route q.cell.dest.toNat
  s.on Reg.SWT_CTRL_REROUTE && routePort e == p && routeAltOk e

/-- LINK_DOWN on a port (R254): its record names the port and no context, and every descriptor with cells queued
for the port ends FAULTED, and every engine with such cells fails, but for cells that an alternative takes (R290). -/
def State.linkDown (s : State) (p cause : Nat) : State :=
  let s1 := (s.mark (Reg.OPT_PORT_STATUS_LINK_DOWN p)).put (Reg.OPT_PORT_STATUS_UP p) 0
  let s2 := (s1.mark Reg.OPT_EVENT_LINK_DOWN).modPort p fun x => { x with downAt := some s.now, quietTicks := 0 }
  let s3 := s2.logRec { code := fLinkDown, unitKind := 9, unit := p, detail := [(1, p), (1, cause), (2, s.peer p)] }
  let queued := s3.fab.cells.filter fun q => q.flight.isNone && s3.cellPort q == p && !s3.willMove p q
  let ops := s3.ops.filter fun o => queued.any fun q => (q.owner.map fun w => (w.ring, w.idx)) == some (o.ring, o.idx)
  let destOf (o : Op) : Nat := ((queued.find? fun q => (q.owner.map fun w => (w.ring, w.idx)) == some (o.ring, o.idx)).map fun q => q.cell.dest.toNat).getD 0
  let s4 := s3.faultMany ops fLinkDown 9 p fun o => [(1, p), (1, cause), (2, destOf o)]
  let lost := (queued.filterMap fun q => (q.owner.filter Owner.engine).map fun w => (w, q.cell.dest.toNat))
  s4.each (lost.map (·.1)).eraseDups fun t w => t.engineFails w fLinkDown
    [(1, p), (1, engineCause w cause), (2, ((lost.find? fun x => x.1 == w).map (·.2)).getD 0)]

end Sys2Proof.Machine
end

