-- ==== Sys2Proof/Machine/Sync.lean ====
section
/-! DEFINITION. Synchronisation objects (R207–R230): translation, signals and waits, remote signals,
barriers, and the commands that act on them. -/
namespace Sys2Proof.Machine

/-- 2^63 − 1: where a counter saturates (R211). -/
def counterMax : Nat := 2 ^ 63 - 1

/-- A translation table entry that maps (R208). -/
structure XtEntry where
  obj : Nat
  stepScoped : Bool
  remoteIn : Bool
  barrier : Bool
deriving DecidableEq, Repr

/-- Where the table word of a virtual identifier lies (R208). -/
def State.xtAddr (s : State) (c vid : Nat) : Nat :=
  s.get (Reg.SYN_CTX_XT_LO_BASE_LO c) * 2 ^ 18 + s.get (Reg.SYN_CTX_XT_HI_BASE_HI c) * 2 ^ 32 + 4 * vid

/-- The table word of a virtual identifier, or freely one that the hub still holds (R210). -/
def State.xtWord (s : State) (c vid : Nat) : Nat :=
  let now := s.natAt (s.xtAddr c vid) 4
  match (s.syn.xlt.filter fun e => e.1 == c && e.2.1 == vid && e.2.2 != now).map (·.2.2) with
  | [] => now
  | x :: l =>
    let i := Config.oldEntry s.freeCtr vid % (l.length + 2)
    if i = 0 then now else (x :: l).getD (i - 1) x

/-- The poisoned granule of a table word that a translation reads (R157). -/
def State.xtPoison (s : State) (c vid : Nat) : Option Nat :=
  if s.on (Reg.SYN_CTX_XT_LO_VALID c) && s.poisoned (s.xtAddr c vid) then some (s.xtAddr c vid) else none

/-- The hub holds the table word that it has used. -/
def State.fillXt (s : State) (c vid : Nat) : State :=
  let e := (c, vid, s.natAt (s.xtAddr c vid) 4)
  if !s.on (Reg.SYN_CTX_XT_LO_VALID c) || s.syn.xlt.contains e then s else { s with syn := { s.syn with xlt := s.syn.xlt ++ [e] } }

/-- The entry of a virtual identifier of a context, none where it misses (R209): not VALID, a reserved bit
set, or a kind other than the object's; or where the table is poisoned there (R157). -/
def State.xtEntry (s : State) (c vid : Nat) : Option XtEntry :=
  if !s.on (Reg.SYN_CTX_XT_LO_VALID c) || (s.xtPoison c vid).isSome then none
  else
    let e := s.xtWord c vid
    let o := bitsOf e 16 13
    if !bitOn e 0 || bitsOf e 4 12 != 0 || bitsOf e 29 3 != 0 || bitOn e 1 != (s.obj o).barrier then none
    else some ⟨o, bitOn e 2, bitOn e 3, bitOn e 1⟩

/-- The object of a counter operation, or of a barrier operation (R209). -/
def State.xtObj (s : State) (c vid : Nat) (barrier : Bool) : Option Nat :=
  (s.xtEntry c vid).bind fun e => if e.barrier == barrier then some e.obj else none

/-! ### Core instructions -/

/-- The LAUNCH whose program a core runs, none while the core has no LAUNCH, waits, holds an instruction (R504), or is
halted without a single step to run (R464). -/
def State.running (s : State) (c : Nat) : Option Op :=
  let k := s.core c
  if k.wait.isSome || k.stall.isSome || (k.halted && k.steps == 0) || s.gated (coreDie c) then none
  else k.launch.bind fun l => (s.op? l.1 l.2).filter fun o => o.fin.isNone

/-- A sequencer instruction of the LAUNCH that a core runs retires (R419); without one nothing happens. -/
def State.seqInstr (s : State) (c : Nat) (f : Op → State → State) : State :=
  match s.running c with
  | none => s
  | some o => f o (s.modCore c fun k => { k with retired := true, steps := k.steps - 1 })

/-- A core that runs a LAUNCH holds an instruction, and with it every one behind it (R504). -/
def State.hold (s : State) (c : Nat) (x : Stall) : State :=
  if (s.running c).isSome then s.modCore c fun k => { k with stall := some x } else s

/-- PERMISSION of a core instruction with REASON and ADDR (R209, R446, R503). -/
def State.stopPerm (s : State) (c reason addr : Nat) : State := s.stopLaunch c fPermission [(1, reason), (8, addr)]

/-- A core instruction's translation of a virtual identifier fails: PERMISSION (R209), or MEM_UE of a poisoned word (R157). -/
def State.stopXt (s : State) (o : Op) (c vid : Nat) : State :=
  match s.xtPoison o.ctx vid with
  | some pa => s.ueOp o 1 c pa
  | none => s.stopPerm c 6 vid

/-- The base of a core's scratchpad in the PA map (R134). -/
def spAddr (c a : Nat) : Nat := spBase + c * 0x400000 + a % 0x400000

/-! ### Counters (R211–R216) -/

/-- Whether a waiting operation waits for a counter that has reached its threshold. -/
def waitMet (w : Option WaitRec) (obj value : Nat) : Bool :=
  match w with
  | some q => q.obj == obj && !q.barrier && q.thr ≤ value
  | none => false

def coreWaitMet (w : Option CoreWait) (obj value : Nat) : Bool :=
  match w with
  | some q => q.obj == obj && !q.barrier && q.thr ≤ value
  | none => false

/-- Every wait on a counter is checked again (R213): a satisfied WAIT finishes DONE, a satisfied core resumes. -/
def State.wakeWaiters (s : State) (obj : Nat) : State :=
  let v := (s.obj obj).value
  let s0 := s.setOps (s.ops.map fun o => if o.issued && waitMet o.wait obj v then { o with fin := some (stDone, 0), finNo := s.sub.finCnt, wait := none } else o)
  let s1 := { s0 with sub := { s0.sub with finCnt := s0.sub.finCnt + 1 } }
  s1.each ((s1.cores.map (·.1)).filter fun c => coreWaitMet (s1.core c).wait obj v) fun t c => t.modCore c fun k => { k with wait := none }

/-- A counter set to a value; its waiters are checked (R213, R230). -/
def State.setCounter (s : State) (obj v : Nat) : State :=
  (s.setObj obj { s.obj obj with value := min v counterMax }).wakeWaiters obj

/-- A signal as its source gives it: its object and value, the signalling party, its unit and the virtual identifier, and
whether it came as a message. -/
structure Sig where
  obj : Nat
  d : Nat
  party : PartyRec
  kind : Nat
  unit : Nat
  vid : Nat
  remote : Bool

/-- The order of sources (R211): local units by number, then remote messages. -/
def Sig.order (x : Sig) : Nat := if x.remote then 2 ^ 32 else unitOrder (x.kind, x.unit)

/-- The signals of one hub cycle to a counter (R211, R212): summed, saturating at 2^63 − 1, which raises one SYNC_OVERFLOW in
the name of the lowest source, with the sum. A sum of 0 changes nothing. -/
def State.sumSignals (s : State) (obj : Nat) (l : List Sig) : State :=
  let real := l.filter fun x => x.d != 0
  let d := (real.map (·.d)).foldl (· + ·) 0
  match sortOn Sig.order real with
  | [] => s
  | x :: _ =>
    let tooBig := (s.obj obj).value + d > counterMax
    let s1 := s.when tooBig fun t =>
      ((t.mark Reg.SYN_EVENT_OVERFLOW).bump Reg.SYN_OVERFLOW_CNT_COUNT).raise
        { code := fSyncOverflow, unitKind := x.kind, unit := x.unit, p1 := some x.party, detail := [(2, x.vid), (8, d)] }
    s1.setCounter obj ((s1.obj obj).value + d)

/-- The signals of one hub cycle, object by object. -/
def State.applySignals (s : State) (l : List Sig) : State :=
  s.each ((l.map (·.obj)).eraseDups) fun t o => t.sumSignals o (l.filter fun x => x.obj == o)

/-- A signal of d to a counter in a hub cycle of its own (R211): every command but the end of a hold applies one signal to an
object, DESIGN CHOICE (log entry 148). -/
def State.signal (s : State) (obj d : Nat) (p : PartyRec) (unitKind unit vid : Nat) : State :=
  s.sumSignals obj [⟨obj, d, p, unitKind, unit, vid, false⟩]

/-- The context default or the named watchdog (R216). -/
def State.wdogOf (s : State) (c named : Nat) : Nat := if named != 0 then named else s.get (Reg.SYN_CTX_WDOG_FRAMES c)

/-! ### Remote signals (R218–R222) -/

/-- The lowest ACTIVE context with a VCID (R218). -/
def State.ctxOfVcid (s : State) (v : Nat) : Option Nat := (List.range 64).find? fun c => s.active c && s.vcid c == v

/-- Why a remote signal is refused, as a fault code (R157, R222, R373), or the context and object that it reaches. -/
def State.remoteCheck (s : State) (vcid epoch vid : Nat) : Except Nat (Nat × Nat) :=
  match s.ctxOfVcid vcid with
  | none => .error fPermission
  | some c =>
    match s.xtEntry c vid with
    | none => .error (if (s.xtPoison c vid).isSome then fMemUe else fPermission)
    | some e =>
      if e.barrier || !e.remoteIn then .error fPermission
      else if epoch != s.get (Reg.SYN_CTX_EPOCH_EPOCH c) then .error fStaleContext
      else if s.get (Reg.RPL_REPLAY_STATUS_STATE c) == 1 || s.get (Reg.RPL_REPLAY_STATUS_STATE c) == 2 then .error fStaleContext
      else .ok (c, e.obj)

/-- The counters and events of a refused remote signal (R222). -/
def State.countRefusal (s : State) (code : Nat) : State :=
  if code == fPermission then (s.bump Reg.SYN_REMOTE_MISS_CNT_COUNT).mark Reg.SYN_EVENT_REMOTE_MISS
  else if code == fStaleContext then (s.bump Reg.SYN_STALE_CNT_COUNT).mark Reg.SYN_EVENT_STALE
  else s

/-- A remote access consumes a poisoned table word (R157): MEM_UE names the context. -/
def State.xtUe (s : State) (vcid vid : Nat) : State :=
  match (s.ctxOfVcid vcid).bind fun c => (s.xtPoison c vid).map fun pa => (c, pa) with
  | none => s
  | some (c, pa) => (s.ueRecord (s.ctxParty c) 7 0 pa).flushBreaks

/-- A remote signal at its destination: refused with a code, or the signal to apply. -/
def State.remoteSig (s : State) (vcid epoch vid value : Nat) : State × Except Nat Sig :=
  match s.remoteCheck vcid epoch vid with
  | .error code => ((s.countRefusal code).when (code == fMemUe) fun t => t.xtUe vcid vid, .error code)
  | .ok (c, obj) => (s.fillXt c vid, .ok ⟨obj, value, s.ctxParty c, 7, 0, vid, true⟩)

/-- A remote signal applied or refused at its destination; the code of a refusal. -/
def State.remoteApply (s : State) (vcid epoch vid value : Nat) : State × Option Nat :=
  match s.remoteSig vcid epoch vid value with
  | (t, .error code) => (t, some code)
  | (t, .ok x) => (t.applySignals [x], none)

/-- The synchronisation message of a remote signal (R219). -/
def State.signalMsg (s : State) (o : Op) (dest vid value tag : Nat) : SyncMsg :=
  { s.barMsg 1 o.ctx vid 0 value false with dest := BitVec.ofNat 13 dest, tag := BitVec.ofNat 16 tag }

/-- DETAIL of the record of a refused or unanswered remote signal (R446). -/
def refusalDetail (code src carried expected vid kind : Nat) : List (Nat × Nat) :=
  if code == fStaleContext then [(2, src), (2, carried), (2, expected), (1, kind)] else [(1, 8), (8, vid)]

/-- A LAUNCH all of whose cores have completed finishes once its remote signals are acknowledged (R184, R220). -/
def State.launchCheck (s : State) (r i : Nat) : State :=
  match s.op? r i with
  | none => s
  | some o =>
    if o.opc == 1 && o.issued && o.coresLeft.isEmpty && o.remote == 0 && o.fin.isNone then
      s.finish o (if o.noticed then stNotice else stDone) (if o.noticed then fExactRange else 0)
    else s

/-- Whether a further remote signal finds one of the 1,024 places (R220). -/
def State.remoteFree (s : State) : Bool := s.syn.remotes.length < 1024

/-- Send a remote signal and hold it until its ACK (R218, R220). -/
def State.sendSignal (s : State) (o : Op) (core : Option Nat) (dest vid value : Nat) : State :=
  let tag := s.syn.nextTag
  let x : RemoteSig := { tag := tag, ring := o.ring, idx := o.idx, core := core, dest := dest, sentTick := s.now }
  let s1 := { s with syn := { s.syn with nextTag := (tag + 1) % 65536, remotes := s.syn.remotes ++ [x] } }
  (s1.modOp o.ring o.idx fun x => { x with remote := x.remote + 1 }).sendTo s.moduleId dest (.sync (s.signalMsg o dest vid value tag))

/-- A remote signal ends with its ACK (R220): a SIGNAL finishes DONE, a LAUNCH counts the SSIG acknowledged. -/
def State.ackSignal (s : State) (m : RemoteSig) : State :=
  let s1 := { s with syn := { s.syn with remotes := s.syn.remotes.filter fun x => x.tag != m.tag } }
  match s1.op? m.ring m.idx with
  | none => s1
  | some o =>
    let s2 := s1.modOp m.ring m.idx fun x => { x with remote := x.remote - 1 }
    if m.core.isSome then s2.launchCheck m.ring m.idx else s2.finish o stDone 0

/-- A remote signal that fails ends its SIGNAL or LAUNCH with a code (R221, R222). -/
def State.failSignal (s : State) (m : RemoteSig) (code : Nat) (detail : List (Nat × Nat)) : State :=
  let s1 := { s with syn := { s.syn with remotes := s.syn.remotes.filter fun x => x.tag != m.tag } }
  match s1.op? m.ring m.idx with
  | none => s1
  | some o => s1.faultOp o code (if m.core.isSome then 1 else 7) (m.core.getD 0) detail

/-! ### Barriers (R224–R228) -/

/-- One more payload combined into an episode (R225): AND from all ones, OR from 0, none gives 0. -/
def Episode.combine (e : Episode) (op payload : Nat) : Episode :=
  let start := if e.op.isSome then e.payload else if op == 1 then 2 ^ 64 - 1 else 0
  { e with op := some op, payload := if op == 1 then start &&& payload else if op == 2 then start ||| payload else 0 }

/-- Whether an operation is the one that the episode's first arrival fixed (R225). -/
def Episode.accepts (e : Episode) (op : Nat) : Bool := e.op.isNone || e.op == some op

/-- Whether this module's part of the current episode is complete (R226). -/
def SyncObj.complete (b : SyncObj) : Bool :=
  !b.broken && b.cur.locals.length == b.localN && (b.cur.arrived &&& b.childMask) == b.childMask && b.cur.op.isSome

/-- The replay announcement that the root of the replay barrier sends (R378): the next attempt of the discarded step, or after
a loss between two steps attempt 0 of the next step (R389). -/
def State.sendReplayOpen (s : State) (c : Nat) : State :=
  let next : Nat × Nat := if (s.ctx c).betweenSteps then (s.stepNum c + 1, 0) else (s.stepNum c, s.get (Reg.RPL_STEP_ATTEMPT_ATTEMPT c) + 1)
  s.svcCast (.announce 3
    { hold := false
      vcid := BitVec.ofNat 16 (s.vcid c)
      epoch := BitVec.ofNat 16 (s.get (Reg.SYN_CTX_EPOCH_EPOCH c))
      step := BitVec.ofNat 64 next.1
      attempt := BitVec.ofNat 32 next.2
      frame := BitVec.ofNat 64 (s.frame + s.get Reg.RPL_REPLAY_CFG_LEAD) })

/-- What keeps a result from its VA: no translation (R141), or a poisoned granule that it covers in part (R157). -/
inductive ResultErr where
  | va
  | ue (pa : Nat)

/-- Write a barrier's result, with NOON its vote, to a VA of an operation's context, unless the VA is 0 (R226, R318). -/
def State.writeResult (s : State) (o : Op) (kind va : Nat) (bs : List Byte) : State × Option ResultErr :=
  if va = 0 then (s, none)
  else match s.xlateRun o.ctx va bs.length true with
    | .error _ => (s, some .va)
    | .ok pas => match s.partialPoison (pas.zip bs) with
      | g :: _ => (s.store (pas.zip bs), some (.ue g))
      | [] => (s.hubWrite ⟨o.party, kind, pas.zip bs⟩, none)

/-- The operation whose result cannot be written ends. -/
def State.resultFault (s : State) (o : Op) (kind va : Nat) : ResultErr → State
  | .va => s.xlateFault o kind 0 va
  | .ue pa => s.ueOp o kind 0 pa

/-- A NOON completes at the release (R318): the result and its vote are kept and written, and the attempt is VOTED or
is discarded at the next tick. A cause that arose between the vote and a clean release then acts as one
after it (R331). A BREAK of a step closed before is none of this episode's any more (R332). -/
def State.noonRelease (s : State) (o : Op) (result : Nat) : State :=
  let c := o.ctx
  let va := descBytes o.desc 40 8
  let vote := (s.ctx c).vote
  let late := (s.get (Reg.RPL_STEP_VOTE_OWN c)) % 2 == 0 && vote % 2 == 1
  let s0 := ((s.put (Reg.RPL_STEP_VOTE_OWN c) (vote % 256)).put (Reg.RPL_STEP_VOTE_SLICE c) (result % 256)).modCtx c
    fun x => { x with closedNoon := none }
  let w := s0.writeResult o 6 va (leBytes 8 result ++ leBytes 8 vote)
  let voted (t : State) : State := (t.put (Reg.RPL_STEP_STATUS_STATE c) 2).modCtx c fun x => { x with votedTick := s.now, broke := false }
  let clean := s.stepOpen c && result % 2 == 1
  match w.2 with
  | some e =>
    if clean then (voted w.1).resultFault o 6 va e
    else (w.1.resultFault o 6 va e).when (w.1.stepOpen c) fun t => t.discardNext c
  | none =>
    let s1 := w.1.finish o stDone 0
    if !s1.stepOpen c then s1
    else if clean then (if late then (voted s1).cause c 1 else voted s1)
    else s1.discardNext c

/-- One local arrival completes at the release with the result (R226). -/
def State.releaseOne (s : State) (result : Nat) (root : Bool) (w : Waiter) : State :=
  match w with
  | .desc r i =>
    match s.op? r.val i.toNat with
    | none => s
    | some o =>
      if o.opc == 12 then s.noonRelease o result
      else
        let va := descBytes o.desc 40 8
        match s.writeResult o 7 va (leBytes 8 result) with
        | (t, none) => t.finish o stDone 0
        | (t, some e) => t.resultFault o 7 va e
  | .core c =>
    match (s.core c.val).wait with
    | none => s
    | some q => (s.storeAt (spAddr c.val q.res) (leBytes 8 result)).modCore c.val fun k => { k with wait := none }
  | .replay c => if root then s.sendReplayOpen c.val else s

/-- The sequence number of a waiting descriptor; cores come after descriptors. -/
def State.waiterSeq (s : State) (w : Waiter) : Nat :=
  match w with
  | .desc r i => ((s.op? r.val i.toNat).map (·.seq)).getD 0
  | _ => 2 ^ 64

/-- A waiter put at its place by sequence number: records completed together follow it (R190). -/
def State.insertWaiter (s : State) (w : Waiter) : List Waiter → List Waiter
  | [] => [w]
  | x :: l => if s.waiterSeq w ≤ s.waiterSeq x then w :: x :: l else x :: s.insertWaiter w l

/-- Release the current episode (R226): RELEASE to the children, the sense flips, the next episode becomes
current, and the local arrivals complete. -/
def State.release (s : State) (obj result : Nat) : State :=
  let b := s.obj obj
  let s1 := s.each (maskBits 16 b.childMask) fun t p => t.barSend p (t.barMsg 5 b.nameCtx b.nameVid 0 result b.sense)
  let s2 := s1.setObj obj { b with sense := !b.sense, cur := b.nxt, nxt := {} }
  s2.each (b.cur.locals.foldr s.insertWaiter []) fun t w => t.releaseOne result b.root w

/-- A completed episode sends ARRIVE to the parent once, or at the root is released (R226); the next
episode may then be complete too. -/
def State.barrierCheck : Nat → State → Nat → State
  | 0, s, _ => s
  | n + 1, s, obj =>
    let b := s.obj obj
    if !b.complete || b.cur.sent then s
    else if b.root then barrierCheck n (s.release obj b.cur.payload) obj
    else (s.setObj obj { b with cur := { b.cur with sent := true } }).barSend b.parentPort
      (s.barMsg 4 b.nameCtx b.nameVid (b.cur.op.getD 0) b.cur.payload b.sense)

/-- The episode that a local arrival would join: false the current one, true the next; none where both are
full (R227). -/
def SyncObj.slot (b : SyncObj) : Option Bool :=
  if b.cur.locals.length < b.localN then some false
  else if b.nxt.locals.length < b.localN then some true
  else none

/-- Whether a local arrival's operation fits the episode it would join (R225). -/
def SyncObj.fits (b : SyncObj) (op : Nat) : Bool :=
  match b.slot with
  | some false => b.cur.accepts op
  | some true => b.nxt.accepts op
  | none => true

/-- A local arrival joins its episode (R225–R227) under the names of its context. -/
def State.arrive (s : State) (obj c vid : Nat) (w : Waiter) (op payload : Nat) : State :=
  let b := { s.obj obj with nameCtx := c, nameVid := vid }
  let join (e : Episode) : Episode := { e.combine op payload with locals := e.locals ++ [w] }
  let b1 := match b.slot with
    | some false => { b with cur := join b.cur }
    | _ => { b with nxt := join b.nxt }
  (s.setObj obj b1).barrierCheck 2 obj

/-- Drop a barrier message with its counter (R227). -/
def State.dropForeign (s : State) : State := s.bump Reg.SYN_FOREIGN_CNT_COUNT

/-- The context and object that a barrier message reaches, or the counted drop (R227). -/
def State.barrierTarget (s : State) (m : SyncMsg) : Except State (Nat × Nat) :=
  match s.ctxOfVcid m.vcid.toNat with
  | none => .error (s.countRefusal fPermission)
  | some c =>
    match s.xtObj c m.object.toNat true with
    | none => .error (s.countRefusal fPermission)
    | some obj =>
      if m.epoch.toNat != s.get (Reg.SYN_CTX_EPOCH_EPOCH c) then .error (s.countRefusal fStaleContext)
      else .ok (c, obj)

/-- An ARRIVE from a child (R225–R227): combined into the episode of its sense. A second one of an episode from its port, and
one at a broken barrier, change nothing and count nowhere: the manual names no treatment, DESIGN CHOICE (log entry 147). -/
def State.childArrive (s : State) (port : Nat) (m : SyncMsg) (c obj : Nat) : State :=
  let b := { s.obj obj with nameCtx := c, nameVid := m.object.toNat }
  if !bitOn b.childMask port then s.dropForeign
  else if b.broken then s
  else
    let e := if m.sense == b.sense then b.cur else b.nxt
    if bitOn e.arrived port then s
    else if !e.accepts m.payOp.toNat then s.dropForeign
    else
      let e1 := { e.combine m.payOp.toNat m.value.toNat with arrived := e.arrived ||| 2 ^ port }
      (s.setObj obj (if m.sense == b.sense then { b with cur := e1 } else { b with nxt := e1 })).barrierCheck 2 obj

/-- A RELEASE from the parent (R226, R227). At a broken barrier it changes nothing and counts nowhere: DESIGN CHOICE (log entry
147). -/
def State.parentRelease (s : State) (port : Nat) (m : SyncMsg) (obj : Nat) : State :=
  let b := s.obj obj
  if b.root || port != b.parentPort || m.sense != b.sense then s.dropForeign
  else if b.broken then s
  else (s.release obj m.value.toNat).barrierCheck 2 obj

/-- A received BREAK (R228, R319, R331, R332): one of the released episode of a Noon barrier whose step is closed is
counted; otherwise the barrier breaks, and an attempt that has voted on it discards. -/
def State.receiveBreak (s : State) (m : SyncMsg) (c obj : Nat) : State :=
  let b := s.obj obj
  let mine := (s.ctx c).noonObj == obj && (s.ctx c).noonVid == m.object.toNat && s.stepState c == 2
  let past := m.sense != b.sense
  if past && !mine && (s.ctx c).closedNoon == some (obj, m.object.toNat) then
    (s.bump Reg.RPL_LATE_BREAK_CNT_COUNT).mark Reg.RPL_STEP_EVENT_LATE_BREAK
  else if b.broken then s
  else ((s.when mine fun t => (t.discardNext c).modCtx c fun x => { x with broke := true }).breakObj obj c m.object.toNat (some m.src.toNat) past)

/-- Rearm a barrier (R228): its local arrivals complete ABORTED without a record, both episodes are empty. -/
def State.rearm (s : State) (obj : Nat) (sense : Bool) : State :=
  let b := s.obj obj
  let gone := (b.cur.locals ++ b.nxt.locals).filterMap fun w => (s.waiterName w).map (·.1)
  let s1 := s.setObj obj { b with sense := sense, broken := false, cur := {}, nxt := {} }
  s1.each gone fun t o => if (t.op? o.ring o.idx).isSome then t.endQuiet o stAborted 0 else t

/-! ### Instructions that a core may hold (R504) -/

/-- The effect of SSIG on the state t of its core's LAUNCH o; where no remote operation is free, the core holds it in s. -/
def State.ssig (s t : State) (o : Op) (c vid : Nat) (mod : Option (BitVec 13)) (v : SigVal) : State :=
  let pas := match v with
    | .imm _ => []
    | .sp a => (List.range 8).map fun k => spAddr c (a.toNat + k)
  let d := match v with
    | .imm x => x.toNat
    | .sp _ => leNat (pas.map t.byteAt)
  match pas.find? t.poisoned with
  | some pa => t.ueOp o 1 c pa
  | none => match mod with
  | none =>
    match t.xtObj o.ctx vid false with
    | none => t.stopXt o c vid
    | some obj => (t.fillXt o.ctx vid).signal obj d o.party 1 c vid
  | some dest =>
    if dest.toNat == t.moduleId then
      match t.remoteApply o.vcid (t.get (Reg.SYN_CTX_EPOCH_EPOCH o.ctx)) vid d with
      | (t1, none) => t1
      | (t1, some code) => t1.stopLaunch c code
          (refusalDetail code t1.moduleId (t1.get (Reg.SYN_CTX_EPOCH_EPOCH o.ctx)) (t1.get (Reg.SYN_CTX_EPOCH_EPOCH o.ctx)) vid 1)
    else if !t.remoteFree then s.hold c (.ssig vid mod v)
    else t.sendSignal o (some c) dest.toNat vid d

/-- SSIG as its core issues it: held while ENABLE is 0 (R230). -/
def State.issueSsig (s : State) (c vid : Nat) (mod : Option (BitVec 13)) (v : SigVal) : State :=
  if !s.synOn then s.hold c (.ssig vid mod v) else s.seqInstr c fun o t => s.ssig t o c vid mod v

/-- The effect of SWAIT on the state t of its core's LAUNCH o. -/
def State.swait (t : State) (o : Op) (c vid thr wdog : Nat) : State :=
  if thr > counterMax then t.stopPerm c 10 vid
  else match t.xtObj o.ctx vid false with
    | none => t.stopXt o c vid
    | some obj =>
      if thr ≤ (t.obj obj).value then t.fillXt o.ctx vid
      else (t.fillXt o.ctx vid).modCore c fun k => { k with
        wait := some { obj := obj, vid := vid, thr := thr, wdog := t.wdogOf o.ctx wdog } }

/-- SWAIT as its core issues it. -/
def State.issueSwait (s : State) (c vid thr wdog : Nat) : State :=
  if !s.synOn then s.hold c (.swait vid thr wdog) else s.seqInstr c fun o t => t.swait o c vid thr wdog

/-- The effect of SBAR on the state t of its core's LAUNCH o; where the barrier takes no arrival, the core holds it in s. -/
def State.sbar (s t : State) (o : Op) (core : Fin 144) (vid payOp payload res wdog : Nat) : State :=
  if payOp > 2 then t.stopPerm core.val 10 vid
  else match t.xtObj o.ctx vid true with
    | none => t.stopXt o core.val vid
    | some obj =>
      let b := t.obj obj
      if b.broken then
        ((t.bump Reg.SYN_WDOG_CNT_COUNT).mark Reg.SYN_EVENT_WATCHDOG).stopLaunch core.val fSyncWatchdog
          (breakRecord b vid none (.core core) o.party).detail
      else if b.slot.isNone then s.hold core.val (.sbar vid payOp payload res wdog)
      else if !b.fits payOp then t.stopPerm core.val 10 vid
      else ((t.fillXt o.ctx vid).modCore core.val fun k => { k with
          wait := some { obj := obj, vid := vid, barrier := true, wdog := t.wdogOf o.ctx wdog, res := res } }).arrive
        obj o.ctx vid (.core core) payOp payload

/-- SBAR as its core issues it. -/
def State.issueSbar (s : State) (core : Fin 144) (vid payOp payload res wdog : Nat) : State :=
  if !s.synOn then s.hold core.val (.sbar vid payOp payload res wdog)
  else s.seqInstr core.val fun o t => s.sbar t o core vid payOp payload res wdog

/-- A core tries the synchronisation instruction that it holds again. -/
def State.retryCore (s : State) (c : Nat) : State :=
  let t := s.modCore c fun k => { k with stall := none }
  match (s.core c).stall with
  | some (.ssig vid mod v) => t.issueSsig c vid mod v
  | some (.swait vid thr wdog) => t.issueSwait c vid thr wdog
  | some (.sbar vid payOp payload res wdog) => t.issueSbar (Fin.ofNat 144 c) vid payOp payload res wdog
  | _ => s

/-- The instructions that cores hold for synchronisation are tried again, lowest core first (R504): twice, since one may
make room for another. -/
def State.retrySync (s : State) : State :=
  let cs := (s.cores.filter fun e => e.2.stall.isSome).map (·.1)
  s.each (cs ++ cs) State.retryCore

/-! ### Meanings -/

/-- An arriving remote signal (R220, R222): answered with ACK, or refused with NACK; of another slice it is
dropped with a record that names its port (R286). The signal is to apply. -/
def State.signalSig (s : State) (port : Nat) (m : SyncMsg) : State × Option Sig :=
  if m.slice.toNat != s.get Reg.SWT_SLICE_TAG then (s.routeMiss port 1 m.src.toNat m.dest.toNat m.slice.toNat, none)
  else
    let r := s.remoteSig m.vcid.toNat m.epoch.toNat m.object.toNat m.value.toNat
    let code := match r.2 with
      | .error e => some e
      | .ok _ => none
    let back : SyncMsg := { m with kind := if code.isSome then 3 else 2, dest := m.src, src := m.dest, value := BitVec.ofNat 64 (code.getD 0) }
    (r.1.sendTo r.1.moduleId back.dest.toNat (.sync back), r.2.toOption)
def State.signalIn (s : State) (port : Nat) (m : SyncMsg) : State :=
  let r := s.signalSig port m
  r.1.applySignals r.2.toList

/-- An arriving ARRIVE, RELEASE or BREAK (R226–R228). -/
def State.arriveIn (s : State) (port : Nat) (m : SyncMsg) : State :=
  match s.barrierTarget m with
  | .error t => t
  | .ok (c, obj) => (s.fillXt c m.object.toNat).childArrive port m c obj
def State.releaseIn (s : State) (port : Nat) (m : SyncMsg) : State :=
  match s.barrierTarget m with
  | .error t => t
  | .ok (c, obj) => (s.fillXt c m.object.toNat).parentRelease port m obj
def State.breakIn (s : State) (m : SyncMsg) : State :=
  match s.barrierTarget m with
  | .error t => t
  | .ok (c, obj) => (s.fillXt c m.object.toNat).receiveBreak m c obj

/-- SIGNAL_MESSAGE (R220, R222). -/
def execSignalMessage (port : Fin 16) (m : SyncMsg) (s : State) : Host.Outcome State Fault Refusal :=
  .next (if s.synOn then s.signalIn port.val m else s.holdSync (.signal port m))

/-- The remote signal that an answer names by its tag (R219). -/
def State.remoteOf (s : State) (tag : Nat) : Option RemoteSig := s.syn.remotes.find? fun x => x.tag == tag

/-- SYNC_ACK (R220). -/
def execSyncAck (m : SyncMsg) (s : State) : Host.Outcome State Fault Refusal :=
  match s.remoteOf m.tag.toNat with
  | none => .next s.retrySync
  | some x => .next (s.ackSignal x).retrySync

/-- SYNC_NACK (R222): the sender's descriptor or LAUNCH fails with the code in byte 16. -/
def execSyncNack (m : SyncMsg) (s : State) : Host.Outcome State Fault Refusal :=
  match s.remoteOf m.tag.toNat with
  | none => .next s
  | some x =>
    let code := m.value.toNat % 256
    let own := ((s.op? x.ring x.idx).map fun o => s.get (Reg.SYN_CTX_EPOCH_EPOCH o.ctx)).getD 0
    .next (s.failSignal x code (refusalDetail code m.src.toNat own m.epoch.toNat m.object.toNat 1)).retrySync

/-- REMOTE_SIGNAL_TIMEOUT (R221): 16 frames without an answer fail the sender with LINK_DOWN. -/
def execRemoteSignalTimeout (tag : BitVec 16) (s : State) : Host.Outcome State Fault Refusal :=
  match s.remoteOf tag.toNat with
  | none => .next s
  | some x => if s.now < x.sentTick + 16 then .next s else .next (s.failSignal x fLinkDown [(1, 0), (1, 4), (2, x.dest)]).retrySync

/-- BARRIER_ARRIVE (R226). -/
def execBarrierArrive (port : Fin 16) (m : SyncMsg) (s : State) : Host.Outcome State Fault Refusal :=
  .next (if s.synOn then (s.arriveIn port.val m).retrySync else s.holdSync (.arrive port m))

/-- BARRIER_RELEASE (R226). -/
def execBarrierRelease (port : Fin 16) (m : SyncMsg) (s : State) : Host.Outcome State Fault Refusal :=
  .next (if s.synOn then (s.releaseIn port.val m).retrySync else s.holdSync (.release port m))

/-- BARRIER_BREAK (R228). -/
def execBarrierBreak (port : Fin 16) (m : SyncMsg) (s : State) : Host.Outcome State Fault Refusal :=
  .next (if s.synOn then (s.breakIn m).retrySync else s.holdSync (.brk port m))

/-- One held message or signal goes on; a signal joins those of the hub cycle. -/
def State.resumeOne (p : State × List Sig) : HeldSync → State × List Sig
  | .signal q m => let r := p.1.signalSig q.val m; (r.1, p.2 ++ r.2.toList)
  | .arrive q m => (p.1.arriveIn q.val m, p.2)
  | .release q m => (p.1.releaseIn q.val m, p.2)
  | .brk _ m => (p.1.breakIn m, p.2)
  | .completion obj d w k n vid => (p.1, p.2 ++ [⟨obj, d, w, k, n, vid, false⟩])
  | .out q m => (p.1.barOut q m, p.2)

/-- What was held while ENABLE was 0 goes on in its order once it is 1 (R230), its signals in one hub cycle (R211, R212). -/
def State.resumeSync (s : State) : State :=
  if !s.synOn then s
  else
    let r := s.syn.held.foldl State.resumeOne ({ s with syn := { s.syn with held := [] } }, [])
    (r.1.applySignals r.2).retrySync

/-- The virtual identifiers whose translation entries are not 0, in order: only such entries can be VALID. -/
def State.xtVids (s : State) (c : Nat) : List Nat :=
  let base := s.get (Reg.SYN_CTX_XT_LO_BASE_LO c) * 2 ^ 18 + s.get (Reg.SYN_CTX_XT_HI_BASE_HI c) * 2 ^ 32
  ((sslice s.mem base (base + 262144)).map fun e => (e.1 - base) / 4).foldl (fun l v => if l.contains v then l else l ++ [v]) []

/-- The virtual identifier under which a context maps a barrier object, for the messages of the replay barrier. -/
def State.vidOf (s : State) (c obj : Nat) : Nat :=
  ((s.xtVids c).find? fun v => s.xtObj c v true == some obj).getD 0

/-- Whether the watchdog of a waiting descriptor has expired (R216): W counted ticks since issue. -/
def Op.wdogExpired (o : Op) : Bool :=
  match o.wait with
  | some q => o.issued && o.fin.isNone && q.wdog ≤ o.frames
  | none => false

/-- DETAIL of the record of an expired counter wait (R216, R446). -/
def waitDetail (vid value thr : Nat) : List (Nat × Nat) :=
  [(2, vid), (2, 0), (2, 0), (2, 0), (8, value), (8, thr), (2, 0xFFFF)]

/-- SYNC_WATCHDOG (R216, R228, R394): an expired wait ends FAULTED; the first expired arrival breaks its barrier, that of the
module itself the replay barrier. -/
def execSyncWatchdog (w : Waiter) (s : State) : Host.Outcome State Fault Refusal :=
  match w with
  | .replay c =>
    let obj := s.get Reg.RPL_REPLAY_CFG_BARRIER
    match (s.ctx c.val).replayTick with
    | none => .next s
    | some t0 =>
      if s.now < t0 + s.wdogOf c.val 0 || 4 < s.time.pos || !((s.obj obj).cur.locals ++ (s.obj obj).nxt.locals).contains w then .next s
      else .next ((s.turn 4).breakObj obj c.val (s.vidOf c.val obj) none false).retrySync
  | .desc r i =>
    match s.op? r.val i.toNat with
    | none => .next s
    | some o =>
      match o.wait with
      | none => .next s
      | some q =>
        if !o.wdogExpired || 4 < s.time.pos then .next s
        else if q.barrier then .next ((s.turn 4).breakObj q.obj o.ctx q.vid none false).retrySync
        else .next ((((s.turn 4).bump Reg.SYN_WDOG_CNT_COUNT).mark Reg.SYN_EVENT_WATCHDOG).faultOp o fSyncWatchdog 7 0
          (waitDetail q.vid (s.obj q.obj).value q.thr))
  | .core c =>
    match (s.core c.val).wait with
    | none => .next s
    | some q =>
      if q.ticks < q.wdog || 4 < s.time.pos then .next s
      else if q.barrier then
        match s.waiterName w with
        | none => .next s
        | some (o, vid) => .next ((s.turn 4).breakObj q.obj o.ctx vid none false).retrySync
      else .next ((((s.turn 4).bump Reg.SYN_WDOG_CNT_COUNT).mark Reg.SYN_EVENT_WATCHDOG).stopLaunch c.val fSyncWatchdog
        (waitDetail q.vid (s.obj q.obj).value q.thr))

/-- SSIG (R214, R218, R504): a local signal is applied; a remote one is sent, or held while 1,024 wait. -/
def execSsig (core : Fin 144) (vid : BitVec 16) (mod : Option (BitVec 13)) (v : SigVal) (s : State) : Host.Outcome State Fault Refusal :=
  .next (s.issueSsig core.val vid.toNat mod v)

/-- SWAIT (R213, R215, R503): the core waits until the counter reaches the threshold. -/
def execSwait (core : Fin 144) (vid : BitVec 16) (thr : BitVec 64) (wdog : Word) (s : State) : Host.Outcome State Fault Refusal :=
  .next (s.issueSwait core.val vid.toNat thr.toNat wdog.toNat)

/-- SBAR (R224–R228, R504): the core arrives at a barrier and waits for the release. -/
def execSbar (core : Fin 144) (vid : BitVec 16) (payOp : Byte) (payload : BitVec 64) (res : BitVec 22) (wdog : Word) (s : State) :
    Host.Outcome State Fault Refusal :=
  .next (s.when (s.running core.val).isSome fun t =>
    (t.issueSbar core vid.toNat payOp.toNat payload.toNat res.toNat wdog.toNat).retrySync)

/-- COMMIT (R193, R504): one more COMMIT point of the core; the LAUNCH's sub-step is the lowest number that
any core of its set has retired. -/
def execCommit (core : Fin 144) (s : State) : Host.Outcome State Fault Refusal :=
  .next (s.seqInstr core.val fun o t =>
    let n (c : Nat) : Nat := sget (fun _ => 0) o.commits c + b2n (c == core.val)
    t.modOp o.ring o.idx fun x => { x with
      commits := sset (fun _ => 0) o.commits core.val (n core.val), substep := (o.cores.map n).foldl min (n core.val) })

/-- SYN_OBJ_STATE as the selected object shows it (R230). -/
def State.objWaiters (s : State) (obj : Nat) : Nat :=
  (s.ops.filter fun o => o.issued && (o.wait.map (·.obj)) == some obj).length
    + (s.cores.filter fun c => (c.2.wait.map (·.obj)) == some obj).length

def State.objState (s : State) (obj : Nat) : Nat :=
  let b := s.obj obj
  b2n b.barrier + 2 * b2n b.broken + 4 * b2n b.sense + 16 * (b.cur.locals.length % 4096) + 65536 * (s.objWaiters obj % 8192)

/-- SYN_OBJ_VAL_LO_READ (R230, R502): the low word, and the latch of VAL_HI and STATE. -/
def execSynObjValLoRead (s : State) : Host.Outcome State Fault Refusal :=
  let obj := s.get Reg.SYN_OBJ_SEL_INDEX
  let v := if (s.obj obj).barrier then 0 else (s.obj obj).value
  .next (((s.setLatch Reg.SYN_OBJ_VAL_HI (BitVec.ofNat 32 (v / 2 ^ 32))).setLatch Reg.SYN_OBJ_STATE
    (BitVec.ofNat 32 (s.objState obj))).answer (BitVec.ofNat 32 v))

/-- A write to a firmware-only register (R166): another party's write is ignored and sets HOST_DENIED. -/
def State.fwOnly (s : State) (p : Party) (f : State → State) : State :=
  if p.fw then s.byCp p f else s.mark Reg.SUB_EVENT_HOST_DENIED

/-- A write of SYN_OBJ_VAL_HI (R230): the selected counter takes the 64-bit value, saturated, and its waiters are
evaluated. A barrier has no value. -/
def State.writeObjHi (s : State) (v : Nat) : State :=
  let obj := s.get Reg.SYN_OBJ_SEL_INDEX
  let t1 := s.put Reg.SYN_OBJ_VAL_HI_VAL_HI v
  if (t1.obj obj).barrier then t1 else t1.setCounter obj (t1.get Reg.SYN_OBJ_VAL_LO_VAL_LO + v * 2 ^ 32)

/-- SYN_OBJ_VAL_HI_WRITE (R230). -/
def execSynObjValHiWrite (p : Party) (v : Word) (s : State) : Host.Outcome State Fault Refusal :=
  .next (s.fwOnly p fun t => t.writeObjHi v.toNat)

/-- A write of SYN_BAR_REARM (R228). -/
def State.writeRearm (s : State) (v : Nat) : State :=
  let obj := s.get Reg.SYN_OBJ_SEL_INDEX
  if bitOn v 0 && (s.obj obj).barrier then (s.rearm obj false).retrySync else s

/-- SYN_BAR_REARM (R228). -/
def execSynBarRearm (p : Party) (v : Word) (s : State) : Host.Outcome State Fault Refusal :=
  .next (s.fwOnly p fun t => t.writeRearm v.toNat)

/-- A write of SYN_XLAT_INVAL (R210): GO starts an invalidation of a context or of all, unless one runs. -/
def State.writeSynXlat (s : State) (v : Nat) : State :=
  if bitOn v 7 && !s.on Reg.SYN_XLAT_INVAL_BUSY then
    { s.mark Reg.SYN_XLAT_INVAL_BUSY with syn := { s.syn with inval := some (if bitOn v 6 then none else some (bitsOf v 0 6)) } }
  else s

/-- SYN_XLAT_INVAL (R210). -/
def execSynXlatInval (p : Party) (v : Word) (s : State) : Host.Outcome State Fault Refusal :=
  .next (s.fwOnly p fun t => t.writeSynXlat v.toNat)

/-- SYN_XLAT_DONE (R210): BUSY clears, and the hub holds no word of the context any more. -/
def execSynXlatDone (s : State) : Host.Outcome State Fault Refusal :=
  .next { s.put Reg.SYN_XLAT_INVAL_BUSY 0 with syn := { s.syn with
    inval := none
    xlt := match s.syn.inval with
      | some (some c) => s.syn.xlt.filter fun e => e.1 != c
      | some none => []
      | none => s.syn.xlt } }

end Sys2Proof.Machine
end

