-- ==== Sys2Proof/Machine/Optics.lean ====
section
/-! DEFINITION. Light: ring tuning and tone checks (R243–R249), lane alarms and moves (R246, R250, R251), the laser
bank (R238–R242, R257–R261). -/
namespace Sys2Proof.Machine

/-! ### Rings (R243–R245) -/

/-- H_CAL of a ring: its commissioned code as Dawn loaded it, corrected for the die temperatures; 0 before (R243). -/
def State.hCal (s : State) (k : Nat) : Nat :=
  match (s.tuner k).hcal with
  | none => 0
  | some h => Config.calAt k h (s.reg Reg.SEC_TEMP).toNat % 65536

/-- The commissioned heater code of a ring in Idfort's storage: as commissioned, or as last calibrated (R243, R498). -/
def State.storedCal (s : State) (k : Nat) : Nat := ((sget (fun _ => none) s.opt.calStore k).getD (Config.ringCal k)) % 65536

/-- A heater code clamped to its range. -/
def clampCode (i : Int) : Nat := (max 0 (min 65535 i)).toNat

/-- The centre of recovery attempt a: H_CAL, H_CAL − 500, H_CAL + 500 (R249). -/
def sweepCentre (hcal a : Nat) : Nat :=
  if a = 2 then clampCode ((hcal : Int) - 500) else if a = 3 then clampCode ((hcal : Int) + 500) else hcal

/-- The other rings of a ring's bus (R249): none for a λ17 ring. -/
def busRings (p : Nat) (rx : Bool) (lam : Nat) : List Nat :=
  if lam = 17 then [] else ((List.range 17).filter (· != lam)).map (ringKey p rx)

/-- Every other tracking ring of the bus holds its heater (R249). A short check that this ends takes with it the quiet of
its lane, which the recovering ring now keeps. -/
def State.freezeBus (s : State) (p : Nat) (rx : Bool) (lam : Nat) : State :=
  let s1 := s.each (busRings p rx lam) fun t k => t.modTuner k fun r =>
    if r.st == 2 || r.st == 3 || r.st == 4 then { r with st := 5, held := r.st, check := none } else r
  if rx || lam = 17 then s1
  else s1.modPort p fun x => { x with quiet := x.quiet.filter fun c => !(32 ≤ c && c < 48 && laneWave (s.txSpare p) (c - 32) != lam) }

/-- The frozen rings of the bus resume, with a new tone check block (R249). -/
def State.resumeBus (s : State) (p : Nat) (rx : Bool) (lam : Nat) : State :=
  s.each (busRings p rx lam) fun t k => t.modTuner k fun r =>
    if r.st == 5 then { r with st := r.held, check := if r.held == 2 then none else some (t.now, 512) } else r

/-- Attempt a of a ring's recovery begins with its sweep (R249). -/
def State.startSweep (s : State) (k a : Nat) : State :=
  s.modTuner k fun r => { r with
    st := 1, attempt := a, sweep := some s.now, acquire := none, good := 0, check := none
    heater := clampCode ((sweepCentre (s.hCal k) a : Int) - 1000) }

/-- The tuning loop of one ring at a tick (R243): a tracking ring moves by at most 16 codes and counts its
frames within ±5 codes; a sweeping one steps by 8 codes a frame; a frozen one holds. -/
def State.tuneRing (s : State) (x : RingRead) : State :=
  s.modTuner (ringKey x.ring.port.val x.ring.rx x.ring.lam.val) fun r =>
    if r.st == 2 || r.st == 3 || r.st == 4 then
      { r with heater := clampCode ((r.heater : Int) + max (-16) (min 16 x.move))
               good := if -5 ≤ x.err && x.err ≤ 5 then r.good + 1 else 0 }
    else r

def State.stepSweeps (s : State) : State :=
  s.each ((s.opt.rings.filter fun e => e.2.st == 1).map (·.1)) fun t k => t.modTuner k fun r =>
    { r with heater := clampCode ((sweepCentre (t.hCal k) r.attempt : Int) - 1000 + 8 * ((t.now - r.sweep.getD t.now : Nat) : Int)) }

/-- The loops of every ring at a tick (R243). -/
def State.tuneRings (s : State) (l : List RingRead) : State := (s.each l State.tuneRing).stepSweeps

/-- The cartridges whose tones a ring expects (R245). -/
def State.expected (s : State) (p : Nat) (rx : Bool) (lam : Nat) : List Nat :=
  if rx then lam :: (s.port p).sources.filterMap fun e => e.2.sources[lam]?
  else
    let now := s.get (Reg.OPT_WL_SRC_SOURCE lam)
    let prev := sget (fun _ => (31, 0)) s.opt.prevSrc lam
    if prev.1 != 31 && s.now < prev.2 + 512 then [now, prev.1] else [now]

/-- The strongest tone found: the first of the highest level; 31 for none. -/
def strongest (l : List Tone) : Nat :=
  ((l.foldl (fun (b : Option Tone) t => match b with
    | none => some t
    | some x => if x.level.toNat < t.level.toNat then some t else some x) none).map fun t => t.cart.val).getD 31

/-- A tone check passes when the strongest tone is expected and lies at least 6 dB above every other (R245). -/
def toneOk (expected : List Nat) (l : List Tone) : Bool :=
  match l.find? fun t => t.cart.val == strongest l with
  | none => false
  | some top => expected.contains top.cart.val
      && l.all fun t => expected.contains t.cart.val || t.level.toNat + 60 ≤ top.level.toNat

/-! ### Lane moves (R250) -/

/-- Modules that terminate cells of a port, as far as the module has launched cells to them; its peer among them. -/
def State.terminators (s : State) (p : Nat) : List Nat :=
  let l := (s.fab.txLseq.filter fun e => e.1 / 8192 == p).map fun e => e.1 % 8192
  if l.contains (s.peer p) then l else s.peer p :: l

/-- Start moving a lane onto λ16, or back (R250): announced at D in a LANE_MOVE message to every module that
terminates the port's cells. -/
def State.startMove (s : State) (p lane : Nat) (back : Bool) : State :=
  let s1 := (s.mark Reg.OPT_EVENT_LANE_MOVE).modPort p fun x => { x with move := some ⟨lane, back, s.now⟩ }
  s1.each (s1.terminators p) fun t m => t.sendTo t.moduleId m (.lane (t.linkMsg 2 0 m (t.farPort p m) lane 0 0 0))

/-- The wavelengths on which a port sends its training pattern in the present frame: the new one of a move in frames D + 2
to D + 17 (R250, R260), and every lane's while a new peer trains (R269). -/
def State.training (s : State) (p : Nat) : List Nat :=
  let x := s.port p
  match x.trainAt with
  | some t0 => if s.now < t0 + 16 then s.txWaves p else []
  | none => match x.move with
    | some v => if v.at_ + 2 ≤ s.now && s.now ≤ v.at_ + 17 then [if v.back then v.lane else 16] else []
    | none => []

/-- A lane can move onto λ16 of a port: none travels there or is moving. -/
def State.spareFree (s : State) (p : Nat) : Bool := s.txSpare p == 31 && (s.port p).move.isNone

/-- The cartridge that feeds a wavelength, as a beacon announces it. -/
def State.waveSources (s : State) : List (BitVec 5) :=
  (List.range 18).map fun k => BitVec.ofNat 5 (match s.opt.swaps.find? fun w => w.lam == k && w.switchAt.isSome && !w.switched with
    | some w => w.new
    | none => s.get (Reg.OPT_WL_SRC_SOURCE k))

/-- The beacon of a port (R256). -/
def State.beacon (s : State) (p : Nat) : Beacon :=
  { hops := 0, src := BitVec.ofNat 13 s.moduleId, port := BitVec.ofNat 4 p, slice := BitVec.ofNat 12 s.sliceTag,
    bypassOpen := s.bypOpen p, txSpare := BitVec.ofNat 5 (s.txSpare p), sources := s.waveSources }

def State.sendBeacon (s : State) (p : Nat) : State :=
  (s.svcOut p (.beacon (s.beacon p))).modPort p fun x => { x with beaconAt := s.now }

/-- Beacons leave every port after a change of their content (R256). -/
def State.sendBeacons (s : State) : State :=
  s.each ((List.range 16).filter s.serviceUp) fun t p => t.sendBeacon p

/-! ### Wrong lock and recovery (R247–R249) -/

/-- A failed tone check raises WRONG_LAMBDA (R247). -/
def State.wrongLambda (s : State) (p : Nat) (rx : Bool) (lam : Nat) (tones : List Tone) : State :=
  let mask := ((s.expected p rx lam).map (2 ^ ·)).foldl (· ||| ·) 0
  ((s.bump Reg.OPT_WRONG_CNT_COUNT).mark Reg.OPT_EVENT_WRONG_LAMBDA).logRec
    { code := fWrongLambda, unitKind := 9, unit := p,
      detail := [(1, p), (1, b2n rx), (1, lam), (1, strongest tones), (4, mask % 2 ^ 32)] }

/-- The port falls quiet, or holds, while a ring of it recovers; a λ17 ring stops the service lane (R248). -/
def State.stopFor (s : State) (p : Nat) (rx : Bool) (lam : Nat) : State :=
  if lam = 17 then s else if rx then s.holdOn p lam else s.quietOn p lam
def State.goAfter (s : State) (p : Nat) (rx : Bool) (lam : Nat) : State :=
  if lam = 17 then s.refreshPort p else if rx then s.holdOff p lam else s.quietOff p lam

/-- The lane that travels on a wavelength, given the lane on λ16. -/
def laneOf (spare lam : Nat) : Option Nat :=
  if lam = 16 then (if spare < 16 then some spare else none) else if lam < 16 && lam != spare then some lam else none

/-- The third failed attempt (R249, R251): the ring is FAILED, the frozen rings resume, and its lane moves to λ16 on
the transmit side, or is asked of every source on the receive side; a λ17 ring ends in LINK_DOWN. -/
def State.ringFailed (s : State) (p : Nat) (rx : Bool) (lam : Nat) : State :=
  let s1 := (s.modTuner (ringKey p rx lam) fun r => { r with st := 6, check := none, sweep := none, acquire := none }).resumeBus p rx lam
  if lam = 17 then s1.linkDown p 3
  else if !s1.on Reg.OPT_CTRL_AUTO_SWAP then s1
  else if rx then
    let lanes : List (Nat × Option Nat) := match (s1.port p).sources with
      | [] => [(s1.peer p, laneOf 31 lam)]
      | l => l.map fun e => (e.1, laneOf e.2.txSpare lam)
    let ask : List (Nat × Nat) := lanes.filterMap fun e => e.2.map fun k => (e.1, k)
    if ask.isEmpty then s1.holdOff p lam
    else s1.each ask fun t e => t.sendTo t.moduleId e.1 (.lane (t.linkMsg 3 0 e.1 (t.farPort p e.1) e.2 0 0 0))
  else match laneOf (s1.txSpare p) lam with
    | none => s1.quietOff p lam
    | some k => if lam != 16 && s1.spareFree p then s1.startMove p k false else s1

/-- A recovery attempt fails: the next one begins, or the ring is FAILED (R249). -/
def State.attemptFails (s : State) (p : Nat) (rx : Bool) (lam : Nat) : State :=
  let k := ringKey p rx lam
  let a := (s.tuner k).attempt
  if a ≥ 3 then s.ringFailed p rx lam
  else ((s.stopFor p rx lam).freezeBus p rx lam).startSweep k (a + 1)

/-- RING_LOCK (R244, R249): after 16 consecutive frames within ±5 codes a ring becomes LOCKED and its tone check
begins; a recovering ring that has not acquired within 16 frames fails its attempt. -/
def execRingLock (r : RingName) (s : State) : Host.Outcome State Fault Refusal :=
  let p := r.port.val
  let k := ringKey p r.rx r.lam.val
  let x := s.tuner k
  if x.st != 2 then .next s
  else if x.good ≥ 16 then .next (s.modTuner k fun y => { y with st := 3, acquire := none, check := some (s.now, 512) })
  else match x.acquire with
    | some t0 => if x.attempt > 0 && s.now ≥ t0 + 16 then .next (s.attemptFails p r.rx r.lam.val) else .next s
    | none => .next s

/-- TONE_CHECK_END (R244–R249): a passed check makes the ring VERIFIED and the next block begins; a failed one
raises WRONG_LAMBDA and recovers the ring. -/
def execToneCheckEnd (r : RingName) (tones : List Tone) (s : State) : Host.Outcome State Fault Refusal :=
  let p := r.port.val
  let lam := r.lam.val
  let k := ringKey p r.rx lam
  let x := s.tuner k
  match x.check with
  | none => .next s
  | some (t0, n) =>
    if !s.on Reg.OPT_CTRL_TONE_EN || s.now < t0 + n || (x.st != 3 && x.st != 4) then .next s
    else
      let s1 := s.modTuner k fun y => { y with tone := strongest tones }
      if toneOk (s1.expected p r.rx lam) tones then
        let s2 := s1.modTuner k fun y => { y with st := 4, attempt := 0, check := some (s.now, 512) }
        let s3 := if x.attempt > 0 then s2.resumeBus p r.rx lam else s2
        let s4 := s3.goAfter p r.rx lam
        .next ((if r.rx then s4 else (List.range 16).foldl (fun t lane => if laneWave (t.txSpare p) lane = lam then t.quietOff p (32 + lane) else t) s4).refreshPort p)
      else
        let s2 := s1.wrongLambda p r.rx lam tones
        .next (s2.attemptFails p r.rx lam)

/-- RING_SWEEP_END (R249): after 250 frames the ring moves to the extremum found and acquires; a sweep without one
fails the attempt. -/
def execRingSweepEnd (r : RingName) (extremum : Option (BitVec 16)) (s : State) : Host.Outcome State Fault Refusal :=
  let p := r.port.val
  let k := ringKey p r.rx r.lam.val
  let x := s.tuner k
  match x.sweep with
  | none => .next s
  | some t0 =>
    if x.st != 1 || s.now < t0 + 250 then .next s
    else match extremum with
      | none => .next (s.attemptFails p r.rx r.lam.val)
      | some h =>
        let cal := (s.opt.cal.map fun c => c.1 == 0 && c.2.1 == p) == some true
        .next (s.modTuner k fun y => { y with
          st := 2, sweep := none, heater := h.toNat, good := 0, acquire := some s.now
          hcal := if cal then some h.toNat else y.hcal })

/-! ### Lane alarms (R246) -/

/-- A short tone check of 128 frames on a ring (R246). -/
def State.shortCheck (s : State) (k : Nat) : State :=
  s.modTuner k fun r => if r.st == 3 || r.st == 4 then { r with check := some (s.now, 128) } else r

/-- The lane that a module carries on λ16 towards a port. -/
def State.sourceSpare (s : State) (p m : Nat) : Nat := (sget (fun _ => {}) (s.port p).sources m).txSpare

/-- LANE_ALARM (R246): after 4 consecutive slots with a lane in error, outside a gap (R267). The oldest alarm that
CELL_RECEIVE found due is raised. -/
def execLaneAlarm (port : Fin 16) (s : State) : Host.Outcome State Fault Refusal :=
  let p := port.val
  match (s.port p).alarm with
  | [] => .next s
  | (src, lanes) :: l =>
    let s0 := s.modPort p fun x => { x with alarm := l }
    if s.on (Reg.OPT_PORT_STATUS_GAP p) then .next s0
    else
      let s1 := (s0.bump (Reg.OPT_PORT_ALARM_CNT_COUNT p)).mark Reg.OPT_EVENT_LANE_ALARM
      .next (s1.each lanes fun t k =>
        (t.shortCheck (ringKey p true (laneWave (t.sourceSpare p src) k))).sendTo t.moduleId src
          (.lane (t.linkMsg 1 0 src (t.farPort p src) k 0 0 0)))

/-- LANE_ALARM_MESSAGE (R246, R249): the transmit ring of the lane runs the short check, and the port stops
launching meanwhile. -/
def execLaneAlarmMessage (port : Fin 16) (m : LinkMsg) (s : State) : Host.Outcome State Fault Refusal :=
  let p := m.port.toNat
  let k := m.count.toNat % 16
  .next (s.heardOn port.val fun t => (t.quietOn p (32 + k)).shortCheck (ringKey p false (laneWave (t.txSpare p) k)))

/-- LANE_MOVE (R250): the receiver takes the lane from its new wavelength from tick D + 18 on. -/
def execLaneMove (port : Fin 16) (m : LinkMsg) (s : State) : Host.Outcome State Fault Refusal :=
  let k := m.count.toNat % 16
  .next (s.heardOn port.val fun t => t.modPort m.port.toNat fun x =>
    let y := sget (fun _ => {}) x.sources m.src.toNat
    let y2 : SourceMap := { y with change := some (if y.txSpare = k then 31 else k, s.now + 18) }
    { x with sources := sset (fun _ => {}) x.sources m.src.toNat y2 })

/-- A source's announced lane moves that are due at the tick take effect; RX_HOLD for a ring that no source uses
any more ends (R250). -/
def State.applyMoves (s : State) : State :=
  s.each (List.range 16) fun t p =>
    let l := (t.port p).sources
    if l.any fun e => (e.2.change.map fun c => decide (c.2 ≤ t.now)) == some true then
      let t1 := t.modPort p fun x => { x with sources := x.sources.map fun e =>
        match e.2.change with
        | some c => if c.2 ≤ t.now then (e.1, { e.2 with txSpare := c.1, change := none }) else e
        | none => e }
      t1.each ((t1.port p).hold.filter fun lam => lam ≤ 16 && !(t1.rxWaves p).contains lam) fun u lam => u.holdOff p lam
    else t

/-- A source answers a request to move a lane of its transmit port (R250, R251): the lane moves, or the request is refused
while another lane travels on λ16. That a source with AUTO_SWAP = 0, which only reports, refuses it too is DESIGN CHOICE: the
manual is silent (log entry 157). -/
def State.moveAsked (s : State) (m : LinkMsg) : State :=
  let p := m.port.toNat
  let k := m.count.toNat % 16
  if s.txSpare p = k || ((s.port p).move.map (·.lane)) == some k then s
  else if s.spareFree p && s.on Reg.OPT_CTRL_AUTO_SWAP then s.startMove p k false
  else s.sendTo s.moduleId m.src.toNat (.lane (s.linkMsg 4 0 m.src.toNat (s.farPort p m.src.toNat) k 0 0 0))

/-- LANE_MOVE_REQUEST (R250, R251). -/
def execLaneMoveRequest (port : Fin 16) (m : LinkMsg) (s : State) : Host.Outcome State Fault Refusal :=
  .next (s.heardOn port.val fun t => t.moveAsked m)

/-- LANE_MOVE_REFUSAL (R251): the port stays on RX_HOLD until the quiet limit. -/
def execLaneMoveRefusal (port : Fin 16) (m : LinkMsg) (s : State) : Host.Outcome State Fault Refusal :=
  .next (s.heardOn port.val fun t =>
    if (t.port m.port.toNat).hold.isEmpty then t else t.mark (Reg.OPT_PORT_STATUS_RX_HOLD m.port.toNat))

/-- The lowest lane whose wavelength is lost while its port waits for λ16 (R261). -/
def State.lostLane (s : State) (p : Nat) : Option Nat :=
  (List.range 16).find? fun k => (s.port p).quiet.contains (64 + k) && s.get (Reg.OPT_WL_SRC_SOURCE k) == 31

/-- LANE_MOVE_SWITCH (R250): from tick D + 18 the lane travels on its new wavelength. A λ16 that this frees takes a lane
whose wavelength was lost meanwhile (R261); lane messages leave ahead of the beacon (R255). -/
def execLaneMoveSwitch (port : Fin 16) (s : State) : Host.Outcome State Fault Refusal :=
  let p := port.val
  match (s.port p).move with
  | none => .next s
  | some v =>
    if s.now < v.at_ + 18 then .next s
    else
      let s1 := (s.put (Reg.OPT_PORT_LANE_TX_SPARE p) (if v.back then 31 else v.lane)).modPort p fun x => { x with move := none }
      let s2 := if v.back then s1 else ((s1.quietOff p v.lane).quietOff p (64 + v.lane)).quietOff p (32 + v.lane)
      let s3 := s2.refreshPort p
      let s4 := match s3.lostLane p with
        | some k => if v.back && s3.on Reg.OPT_CTRL_AUTO_SWAP then s3.startMove p k false else s3
        | none => s3
      .next (s4.sendBeacon p)

/-! ### The laser bank (R238–R242, R257–R261) -/

/-- LC STATE codes (R270). -/
def lcDark : Nat := 0
def lcLit : Nat := 1
def lcTuning : Nat := 2
def lcMatched : Nat := 3
def lcParked : Nat := 4
def lcFailed : Nat := 5
def lcReady : Nat := 6

def State.lcState (s : State) (n : Nat) : Nat := s.get (Reg.OPT_LC_STATUS_STATE n)

/-- A cartridge takes a state and a wavelength, 31 for none. -/
def State.setLc (s : State) (n st lam : Nat) : State :=
  (s.put (Reg.OPT_LC_STATUS_STATE n) st).put (Reg.OPT_LC_STATUS_LAMBDA n) lam

/-- The free spares (R241): fitted, and dark or parked. -/
def State.freeSpares (s : State) : List Nat :=
  [18, 19, 20, 21].filter fun n => s.on (Reg.OPT_LC_STATUS_PRESENT n) && (s.lcState n == lcDark || s.lcState n == lcParked)

/-- The parked spare. -/
def State.parked (s : State) : Option Nat := s.freeSpares.find? fun n => s.lcState n == lcParked

/-- The lowest free spare with PARK = 1 is lit, tuned to λ17 and parked; every other free spare is dark (R241, R261). -/
def State.park (s : State) : State :=
  match s.freeSpares.find? fun n => s.on (Reg.OPT_LC_CTRL_PARK n) with
  | some n =>
    if s.parked == some n then s
    else (s.each (s.freeSpares.filter fun m => s.lcState m == lcParked) fun t m => t.setLc m lcDark 31).setLc n lcParked 17
  | none => s

/-- The spare that a swap takes (R241): for λ17 the parked one; otherwise the lowest free spare that is not parked,
and the parked one only when no other is free. -/
def State.pickSpare (s : State) (lam : Nat) : Option Nat :=
  if lam = 17 then s.parked.or s.freeSpares.head?
  else (s.freeSpares.find? fun n => s.lcState n != lcParked).or s.parked

/-- λ16 carries no lane, and none moves there, on any port. -/
def State.spareWaveFree (s : State) : Bool := (List.range 16).all s.spareFree

/-- No spare is free (R259, R261): on λ0–λ15 the lane moves to λ16, of a fading cartridge where λ16 is free on every port, and of
a lost one on the ports where it is free; the others stay quiet. -/
def State.noSpare (s : State) (lam : Nat) (failed : Bool) : State :=
  let s1 := s.mark Reg.OPT_EVENT_SPARE_EXHAUSTED
  if lam < 16 && (failed || s1.spareWaveFree) then
    s1.each ((List.range 16).filter fun p => s1.spareFree p) fun t p => t.startMove p lam false
  else s1

/-- A swap of the source of a wavelength begins (R258): the new cartridge is lit into the dump port and tunes; one that replaces
no lost cartridge is planned. A lost LC17's parked spare is switched in at the next tick, and announced at once (R256, R261). -/
def State.beginSwap (s : State) (w : SwapSt) : State :=
  let quick := w.failed && w.lam == 17 && s.lcState w.new == lcParked
  let w1 : SwapSt := if quick then { w with locked := true, switchAt := some (s.now + 1) } else w
  let s1 := (s.setLc w.new (if quick then lcMatched else lcTuning) w.lam).modOpt fun o =>
    { o with swaps := o.swaps.filter (fun x => x.lam != w.lam) ++ [w1] }
  (s1.park.when quick State.sendBeacons).when (!w.failed) fun t => t.mark Reg.OPT_EVENT_LASER_SWAP

/-- The swap of a wavelength in progress. -/
def State.swapOf (s : State) (lam : Nat) : Option SwapSt := s.opt.swaps.find? fun w => w.lam == lam

def State.modSwap (s : State) (lam : Nat) (f : SwapSt → SwapSt) : State :=
  s.modOpt fun o => { o with swaps := o.swaps.map fun w => if w.lam == lam then f w else w }

def State.dropSwap (s : State) (lam : Nat) : State := s.modOpt fun o => { o with swaps := o.swaps.filter fun w => w.lam != lam }

/-- The old cartridge of a swap leaves service (R242, R258): it is dark and READY_TO_PULL; a spare that has handed its
wavelength back to a fixed cartridge is free again, dark or parked, and a cartridge under calibration is dark. -/
def State.retire (s : State) (w : SwapSt) : State :=
  if 22 ≤ w.old then s
  else if w.cal || (18 ≤ w.old && w.new < 18) then (s.setLc w.old lcDark 31).park else s.setLc w.old lcReady 31

/-- The bank gives light on a wavelength: on λ17 always, on the others while BANK_EN = 1 (R270, R489). -/
def State.bankOn (s : State) (lam : Nat) : Bool := lam == 17 || s.on Reg.OPT_CTRL_BANK_EN

/-- The bank starts the swap of a wavelength to a free spare (R257–R261); the source that an earlier swap has just replaced
leaves service. -/
def State.swapOut (s : State) (lam old : Nat) (failed cal : Bool) : State :=
  if !s.on Reg.OPT_CTRL_AUTO_SWAP || !s.bankOn lam then s
  else if s.opt.swaps.any fun w => w.lam == lam && !w.switched then
    s.modSwap lam fun w => { w with failed := w.failed || failed }
  else
    let s1 := match s.swapOf lam with
      | some w => (s.dropSwap lam).retire w
      | none => s
    match s1.pickSpare lam with
    | none => s1.noSpare lam failed
    | some n => s1.beginSwap { lam := lam, old := old, new := n, start := s.now, failed := failed, cal := cal }

/-- A fitted, dark cartridge in a fixed position takes its wavelength back by the planned swap (R242), once no other swap of it
runs. A wavelength that no cartridge feeds it takes as a spare would: DESIGN CHOICE (log entry 157). -/
def State.handBack (s : State) (n : Nat) : State :=
  let src := s.get (Reg.OPT_WL_SRC_SOURCE n)
  if 18 ≤ n || src == n || !s.on (Reg.OPT_LC_STATUS_PRESENT n) || s.lcState n != lcDark || (s.swapOf n).isSome
      || !s.on Reg.OPT_CTRL_AUTO_SWAP || !s.bankOn n then s
  else s.beginSwap { lam := n, old := src, new := n, start := s.now, failed := src == 31 }

/-- The new cartridge of a swap does not come into service (R258): the next free spare starts again, unless the bank only
reports (R270); a source already announced is taken back at once (R256). -/
def State.nextSpare (s : State) (w : SwapSt) : State :=
  let s1 := (s.dropSwap w.lam).when w.switchAt.isSome State.sendBeacons
  if !s1.on Reg.OPT_CTRL_AUTO_SWAP then s1
  else match s1.pickSpare w.lam with
    | none => s1.noSpare w.lam w.failed
    | some n => s1.beginSwap { w with new := n, start := s.now, locked := false, switchAt := none }

/-- The wavelength that a cartridge feeds. -/
def State.feeds (s : State) (n : Nat) : Option Nat := (List.range 18).find? fun k => s.get (Reg.OPT_WL_SRC_SOURCE k) == n

/-- A cartridge gives light (R242): into a splitter, or into the dump port while it tunes, is matched or is parked. -/
def State.lit (s : State) (n : Nat) : Bool :=
  s.lcState n == lcLit || s.lcState n == lcTuning || s.lcState n == lcMatched || s.lcState n == lcParked

/-- The release of a cartridge (R242): one in service is swapped out as planned; one that is to come into service gives its place
to the next spare; one without light is ready at once. -/
def State.releaseLc (s : State) (n : Nat) : State :=
  if !s.on (Reg.OPT_LC_STATUS_PRESENT n) then s
  else match s.feeds n with
    | some k => if s.lcState n == lcLit then s.swapOut k n false false else s.setLc n lcReady 31
    | none => match s.opt.swaps.find? fun w => w.new == n && !w.switched with
      | some w => ((s.setLc n lcReady 31).nextSpare w).park
      | none => if s.lcState n == lcDark || s.lcState n == lcParked || s.lcState n == lcFailed then (s.setLc n lcReady 31).park else s

/-- Average a ≤ P_c lowered by d tenths of a dB, for a sum over n readings: P_c¹⁰⁰ n¹⁰⁰ ≥ 10^d sum¹⁰⁰. -/
def belowDb (sum n p d : Nat) : Bool := 10 ^ d * sum ^ 100 ≤ (p * n) ^ 100

/-- A laser record for Idfort's export (R257, R360). -/
def State.laserCper (s : State) (n : Nat) : State :=
  s.cper { event := 6, fault := 0, unitKind := 4, unit := n, frame := 0, module := 0 }

/-- The tap of one cartridge at a tick (R239, R257, R260): LAST, AVG over the last 1,024 frames, the WARN and SWAP
thresholds, and the sudden drop. An average counts against the thresholds only once the cartridge has been lit for all 1,024 of
its frames: DESIGN CHOICE, or every spare that is lit would at once be faded (log entry 157). -/
def State.tapLaser (s : State) (x : LaserRead) : State :=
  let n := x.cart.val
  let old := sget (fun _ => []) s.opt.hist n
  let h := (x.power.toNat :: old).take 1024
  let sum := h.foldl (· + ·) 0
  let s1 := (s.put (Reg.OPT_LC_POWER_LAST n) x.power.toNat).put (Reg.OPT_LC_POWER_AVG n) (sum / h.length)
  let lit := if s.lit n then min 1024 (sget (fun _ => 0) s.opt.litFor n + 1) else 0
  let s2 := s1.modOpt fun o => { o with hist := sset (fun _ => []) o.hist n h, litFor := sset (fun _ => 0) o.litFor n lit }
  let full := lit == 1024
  let pc := s.get (Reg.OPT_LC_COMM_P_C n)
  if !s.lit n then s2
  else
    let fails := !old.isEmpty && 10 ^ s.get Reg.OPT_LASER_THRESH_FAIL_DB * (x.power.toNat * old.length) ^ 100 ≤ (old.foldl (· + ·) 0) ^ 100
    let s3 := s2.when (fails && !(s.opt.failDue.any fun e => e.1 == n)) fun t =>
      t.modOpt fun o => { o with failDue := o.failDue ++ [(n, 1, s.now)] }
    let s4 := s3.when (full && pc != 0 && !s.on (Reg.OPT_LC_STATUS_WARN n) && belowDb sum h.length pc (s.get Reg.OPT_LASER_THRESH_WARN_DB)) fun t =>
      ((t.mark (Reg.OPT_LC_STATUS_WARN n)).mark Reg.OPT_EVENT_LASER_WARN).laserCper n
    s4.when (full && pc != 0 && !s.on (Reg.OPT_LC_STATUS_SWAP n) && belowDb sum h.length pc (s.get Reg.OPT_LASER_THRESH_SWAP_DB)) fun t =>
      let t1 := ((t.mark (Reg.OPT_LC_STATUS_SWAP n)).mark Reg.OPT_EVENT_LASER_SWAP).laserCper n
      if t1.on Reg.OPT_CTRL_AUTO_SWAP then t1.releaseLc n else t1

/-- SPARE_LOCKED (R258): the spare has locked on the wavelength and its power matching begins. -/
def execSpareLocked (lam : Fin 18) (s : State) : Host.Outcome State Fault Refusal :=
  .next (s.modSwap lam.val fun w => { w with locked := true })

/-- SPARE_LOCK_TIMEOUT (R258): a spare not locked within 24,414 frames is FAILED and the next free one starts. -/
def execSpareLockTimeout (lam : Fin 18) (s : State) : Host.Outcome State Fault Refusal :=
  match s.swapOf lam.val with
  | none => .next s
  | some w =>
    if w.locked || s.now < w.start + 24414 then .next s else .next ((s.setLc w.new lcFailed 31).nextSpare w)

/-- SPARE_MATCHED (R258): at T + 9,831 the spare is MATCHED, and the swap frame, two frames later, and the new source are
announced in beacons. -/
def execSpareMatched (lam : Fin 18) (s : State) : Host.Outcome State Fault Refusal :=
  match s.swapOf lam.val with
  | none => .next s
  | some w =>
    if !w.locked || w.switchAt.isSome then .next s
    else .next (((s.setLc w.new lcMatched lam.val).modSwap lam.val fun x => { x with switchAt := some (s.now + 2) }).sendBeacons)

/-- LASER_SOURCE_SWITCH (R238, R258): in the slot 0 guard of the swap frame the selector takes the new source. -/
def execLaserSourceSwitch (lam : Fin 18) (s : State) : Host.Outcome State Fault Refusal :=
  match s.swapOf lam.val with
  | none => .next s
  | some w =>
    if w.switched || (w.switchAt.map fun t => decide (t ≤ s.now)) != some true then .next s
    else
      let s1 := (s.put (Reg.OPT_WL_SRC_SOURCE lam.val) w.new).setLc w.new lcLit lam.val
      let s2 := (s1.mark Reg.OPT_EVENT_SWAP_DONE).modSwap lam.val fun x => { x with switched := true }
      let s3 := s2.modOpt fun o => { o with prevSrc := sset (fun _ => (31, 0)) o.prevSrc lam.val (w.old, s.now) }
      .next ((s3.park).sendBeacons)

/-- OLD_SOURCE_DARK (R258, R260, R498): sixteen frames after the switch. A lane that a lost laser drove to λ16 moves
back, ports that waited for the wavelength leave TX_QUIET, and a calibrated cartridge, measured in the dump port,
takes its new P_c and its wavelength back. -/
def execOldSourceDark (lam : Fin 18) (pc : BitVec 16) (s : State) : Host.Outcome State Fault Refusal :=
  match s.swapOf lam.val with
  | none => .next s
  | some w =>
    if !w.switched || (w.switchAt.map fun t => decide (t + 16 ≤ s.now)) != some true then .next s
    else
      let k := lam.val
      let s1 := s.dropSwap k
      if w.failed then
        .next (s1.each (List.range 16) fun t p =>
          let t1 := t.quietOff p (64 + k)
          if k < 16 && s.on Reg.OPT_CTRL_AUTO_SWAP && t1.txSpare p == k && (t1.port p).move.isNone then t1.startMove p k true else t1)
      else if w.cal && w.old < 18 then
        let s2 := (s1.put (Reg.OPT_LC_COMM_P_C w.old) pc.toNat).modOpt fun o => { o with pc := sset Config.laserCal o.pc w.old pc.toNat, calMeasured := true }
        .next (s2.beginSwap { lam := k, old := w.new, new := w.old, start := s.now, cal := true })
      else .next ((s1.retire w).handBack k)

/-- A cartridge in service is lost (R260, R261); behind the lane messages the beacons say so at once (R255, R256). The source that it had just replaced
leaves service. -/
def State.loseLaser (s : State) (n lam : Nat) : State :=
  let s0 := match s.swapOf lam with
    | some w => if w.switched && w.old != n then (s.dropSwap lam).retire w else s
    | none => s
  let s1 := s0.put (Reg.OPT_WL_SRC_SOURCE lam) 31
  if !s1.on Reg.OPT_CTRL_AUTO_SWAP then s1.sendBeacons
  else if lam < 16 then
    let s2 := s1.each (List.range 16) fun t p => t.quietOn p (64 + lam)
    let s3 := if s2.spareWaveFree then s2.each (List.range 16) fun t p => t.startMove p lam false else s2
    (s3.swapOut lam n true false).sendBeacons
  else if lam = 16 then
    let s2 := s1.each ((List.range 16).filter fun p => s1.txSpare p < 16) fun t p => t.quietOn p (64 + lam)
    (s2.swapOut lam n true false).sendBeacons
  else (s1.swapOut lam n true false).sendBeacons

/-- LASER_FAIL (R260): at its tick the record, the counter and event, the cartridge FAILED and deselected, and the
wavelength's recovery. -/
def execLaserFail (cart : Fin 22) (s : State) : Host.Outcome State Fault Refusal :=
  let n := cart.val
  match s.opt.failDue.find? fun e => e.1 == n with
  | none => .next s
  | some e =>
    if s.now < e.2.2 then .next s
    else
      let lam := s.get (Reg.OPT_LC_STATUS_LAMBDA n)
      let s1 := s.modOpt fun o => { o with failDue := o.failDue.filter fun x => x.1 != n, hist := sset (fun _ => []) o.hist n [] }
      let s2 := ((s1.logRec { code := fLaserFail, unitKind := 10, unit := n, detail := [(1, n), (1, lam), (1, e.2.1)] }).bump
        Reg.OPT_LASER_FAIL_CNT_COUNT).mark Reg.OPT_EVENT_LASER_FAIL
      let k := s2.feeds n
      let s3 := s2.setLc n lcFailed 31
      match k with
      | some lam => .next ((s3.loseLaser n lam).park)
      | none => match s3.opt.swaps.find? fun w => w.new == n && !w.switched with
        | some w => .next ((s3.nextSpare w).park)
        | none => .next s3.park

/-- The bank switched on lights the fitted sources of λ0–λ16 (R270). -/
def State.lightBank (s : State) : State :=
  s.each (List.range 17) fun t lam =>
    let n := t.get (Reg.OPT_WL_SRC_SOURCE lam)
    if n < 22 && t.on (Reg.OPT_LC_STATUS_PRESENT n) && t.lcState n == lcDark then t.setLc n lcLit lam else t

/-- The rings of both buses of every port. -/
def busKeys : List Nat := (List.range 16).flatMap fun p => (List.range 17).flatMap fun lam => [ringKey p false lam, ringKey p true lam]

/-- The bank switched on, its rings acquire, and fixed cartridges fitted meanwhile take their wavelengths back; switched off, its
light goes dark, and with it the swaps of its wavelengths (R270). -/
def State.bankChange (s : State) (was : Bool) : State :=
  let now := s.on Reg.OPT_CTRL_BANK_EN
  if now == was then s
  else if now then
    (s.lightBank.each busKeys fun t k =>
      if (t.tuner k).st = 0 then t.modTuner k fun r => { r with st := 2, heater := s.hCal k, good := 0, acquire := some s.now } else t).each
      (List.range 17) State.handBack
  else
    let s1 := s.each (s.opt.swaps.filter fun w => w.lam ≤ 16) fun t w => ((t.dropSwap w.lam).when w.switched fun u => u.retire w)
    let s2 := s1.each (List.range 22) fun t n => if t.lit n && t.get (Reg.OPT_LC_STATUS_LAMBDA n) ≤ 16 then t.setLc n lcDark 31 else t
    (((s2.park).when (s.opt.swaps.any fun w => w.lam ≤ 16 && w.switchAt.isSome && !w.switched) State.sendBeacons).each busKeys
      fun t k => t.modTuner k fun _ => { hcal := (s.tuner k).hcal }).each (List.range 16) State.refreshPort

/-- A write of OPT_LCn_CTRL: PARK, ignored on LC0–LC17, and RELEASE (R242, R270). -/
def State.writeLcCtrl (s : State) (n v : Nat) : State :=
  let s1 := s.put (Reg.OPT_LC_CTRL_PARK n) (bitsOf v 1 1)
  let s2 := if n ≥ 18 && s1.lcState n == lcParked && !bitOn v 1 then (s1.setLc n lcDark 31).park
    else if n ≥ 18 && s1.on Reg.GLB_STATUS_RELAY_READY then s1.park else s1
  s2.when (bitOn v 0) fun t => t.releaseLc n

/-- CARTRIDGE_RELEASE (R242). -/
def execCartridgeRelease (p : Party) (cart : Fin 22) (v : Word) (s : State) : Host.Outcome State Fault Refusal :=
  .next (s.fwOnly p fun t => t.writeLcCtrl cart.val v.toNat)

/-- LEVER_OPEN (R242). -/
def execLeverOpen (cart : Fin 22) (s : State) : Host.Outcome State Fault Refusal :=
  .next ((s.mark (Reg.OPT_LC_STATUS_LEVER_OPEN cart.val)).releaseLc cart.val)

/-- CARTRIDGE_PULL (R242, R260): a lit cartridge counts as an abrupt failure, acted on at the next tick. -/
def execCartridgePull (cart : Fin 22) (s : State) : Host.Outcome State Fault Refusal :=
  let n := cart.val
  let s1 := s.put (Reg.OPT_LC_STATUS_PRESENT n) 0
  if s.lit n then .next (s1.modOpt fun o => { o with failDue := (o.failDue.filter fun e => e.1 != n) ++ [(n, 2, s.now + 1)] })
  else .next ((s1.setLc n lcDark 31).park)

/-- CARTRIDGE_INSERT (R242): a new cartridge is warmed and measured in the dump port; in a fixed position it takes
its wavelength back by the planned swap, or is lit where it still is the source; a spare joins the free ones. -/
def execCartridgeInsert (cart : Fin 22) (pc : BitVec 16) (s : State) : Host.Outcome State Fault Refusal :=
  let n := cart.val
  let s1 := (((s.mark (Reg.OPT_LC_STATUS_PRESENT n)).put (Reg.OPT_LC_STATUS_LEVER_OPEN n) 0).put (Reg.OPT_LC_STATUS_WARN n) 0).put
    (Reg.OPT_LC_STATUS_SWAP n) 0
  let s2 := (s1.put (Reg.OPT_LC_COMM_P_C n) pc.toNat).modOpt fun o =>
    { o with pc := sset Config.laserCal o.pc n pc.toNat, hist := sset (fun _ => []) o.hist n [], litFor := sset (fun _ => 0) o.litFor n 0 }
  let s3 := s2.setLc n lcDark 31
  if n < 18 then
    .next (if s3.get (Reg.OPT_WL_SRC_SOURCE n) == n && s3.bankOn n && s3.on Reg.GLB_STATUS_RELAY_READY then s3.setLc n lcLit n else s3.handBack n)
  else .next s3.park

end Sys2Proof.Machine
end

