-- ==== Sys2Proof/Machine/Ports.lean ====
section
/-! DEFINITION. Ports beside their light: the service lane and beacons (R254–R256, R389), peers, training and link
delay (R269, R274, R275, R293), gaps and the bypass switches (R265–R268). -/
namespace Sys2Proof.Machine

/-! ### The service lane (R255, R256) -/

/-- The fibre connector of the cassette that carries a port, and the positions of its transmit and receive fibre (R484). -/
def portConnector (p : Nat) : Nat := p / 4
def txPosition (p : Nat) : Nat := p % 4 + 1
def rxPosition (p : Nat) : Nat := 13 + p % 4

/-- The port paired with a port (R265). -/
def pairPort (p : Nat) : Nat := if p % 2 = 0 then p + 1 else p - 1

/-- A message for another module goes on, one hop further: to the paired port under the relay (R490), else by its routing
entry (R285). -/
def State.forwardSvc (s : State) (p origin dest : Nat) (m : SvcBody) (hops : Nat) : State :=
  if s.inRelay then s.svcOut (pairPort p) m (hops + 1) else s.sendTo origin dest m (hops + 1)

/-- A message of a class that the manual does not name, or a slice announcement, the class-7 body of 32 bytes, of another KIND than
its four (R255, R380). -/
def unknownSvc (h : SvcHeader) (body : List Byte) : Bool :=
  7 < h.cls || (h.cls == 7 && body.length == 32 && ((body.headD 0).toNat == 0 || 4 < (body.headD 0).toNat))

/-- A message in order ends here or goes on, and one of an unknown kind is dropped and counted (R255, R380, R490): what names another module as its destination is forwarded, and
under the relay also what names none, but for idle words and time messages. What a terminated message does is the command of
its kind. -/
def State.routeSvc (s : State) (p : Nat) (h : SvcHeader) (body : List Byte) (route : Option (Nat × Nat)) : State :=
  if unknownSvc h body then s.modFab fun f => { f with unknownClass := f.unknownClass + 1 }
  else match route with
    | some (a, d) => if d == s.moduleId then s else s.forwardSvc p a d (.passed h.cls body) h.hops
    | none => if s.inRelay && 2 ≤ h.cls then s.svcOut (pairPort p) (.passed h.cls body) (h.hops + 1) else s

/-- The copy of a message that failed its CRC while it was being forwarded leaves with an inverted CRC (R255); it takes no
hop sequence of its own. -/
def State.invertSvc (s : State) (p : Nat) (h : SvcHeader) (body : List Byte) (route : Option (Nat × Nat)) : State :=
  let out := match route with
    | some (_, d) => if d == s.moduleId then none else if s.inRelay then some (pairPort p)
        else if routeValid (s.route d) then some (s.outPort (s.route d)) else none
    | none => if s.inRelay && 2 ≤ h.cls then some (pairPort p) else none
  match out with
  | some q =>
    let m : SvcBody := .passed h.cls body
    if s.serviceUp q then s.emit (.svc q (s.svcHead q m (s.port q).hopSent (h.hops + 1) false) m true) else s
  | none => s

/-- SERVICE_MESSAGE_RECEIVE (R255): an inverted CRC discards a message without a NAK; a wrong CRC or a gap in the sequence
asks for a resend with NAK; NAK in a message has the kept ones sent again; a message received already is discarded; one in
order is terminated or forwarded, and an idle word answers with its sequence. `route` is the origin and destination of
kinds whose body has no layout in the manual. -/
def execServiceMessageReceive (port : Fin 16) (bytes : List Byte) (route : Option (BitVec 13 × BitVec 13)) (s : State) :
    Host.Outcome State Fault Refusal :=
  let p := port.val
  let h := svcHeader bytes
  let recv := (s.port p).hopRecv
  let body := svcBodyOf bytes
  let way := (svcRoute h.cls body).or (route.map fun r => (r.1.toNat, r.2.toNat))
  if !s.serviceUp p || svcInverted bytes then .next s
  else if !svcOk bytes then .next ((s.svcIdle p true).invertSvc p h body way)
  else
    let s1 := s.modPort p fun x => { x with silent := 0 }
    let s2 := s1.when h.nak fun t => t.svcResend p h.hack
    let ahead := (h.hseq + 4096 - recv) % 4096
    if h.cls = 0 then .next (if ahead = 0 || 2048 ≤ ahead then s2 else s2.svcIdle p true)
    else if ahead = 1 then
      .next (((s2.modPort p fun x => { x with hopRecv := h.hseq }).routeSvc p h body way).svcIdle p false)
    else if ahead = 0 || 2048 ≤ ahead then .next s2
    else .next (s2.svcIdle p true)

/-- BEACON_SEND (R256): every 64 frames on a port whose service lane works. -/
def execBeaconSend (port : Fin 16) (s : State) : Host.Outcome State Fault Refusal :=
  if s.serviceUp port.val && s.now ≥ (s.port port.val).beaconAt + 64 then .next (s.sendBeacon port.val) else .next s

/-- A new module faces a port (R269, R293): PEER, the training of the lane equalisers and the measurement of the
link delay begin, the port holds 16 credits (R283), and the hop sequences of the service lane start anew. -/
def State.newPeer (s : State) (p m : Nat) : State :=
  let s1 := ((s.put (Reg.OPT_PORT_STATUS_PEER p) m).mark (Reg.OPT_PORT_STATUS_PEER_VALID p)).mark Reg.OPT_EVENT_PEER_CHANGE
  let s2 := (s1.put (Reg.SWT_PORT_DELAY_VALID p) 0).put (Reg.SWT_PORT_DELAY_EXPRESS_OK p) 0
  (s2.modPort p fun x => { x with
    fresh := false, trained := false, trainAt := some s.now, measureAt := some s.now, credits := 16, sources := []
    heldBy := [], hopRecv := 0, hopSent := 0, sentMsgs := [], laneErr := [], alarm := [] }).setNbr p {}

/-- A beacon heard on a port (R256, R269): the last one of a source is kept; the direct neighbour's names the peer. -/
def State.beaconIn (s : State) (p : Nat) (b : Beacon) : State :=
  let m := b.src.toNat
  let s1 := if b.hops != 0 then s
    else if (s.port p).fresh || s.peer p != m then s.newPeer p m
    else s.mark (Reg.OPT_PORT_STATUS_PEER_VALID p)
  let s2 := s1.modPort p fun x =>
    let y := sget (fun _ => {}) x.sources m
    let y2 : SourceMap := { y with txSpare := b.txSpare.toNat, sources := b.sources.map (·.toNat), port := b.port.toNat,
                                   slice := b.slice.toNat, bypassOpen := b.bypassOpen }
    { x with silent := 0, sources := sset (fun _ => {}) x.sources m y2 }
  let s3 := s2.each ((s2.port p).hold.filter fun lam => lam ≤ 16 && !(s2.rxWaves p).contains lam) fun t lam => t.holdOff p lam
  s3.refreshPort p

/-- BEACON_RECEIVE (R256, R265, R269). -/
def execBeaconReceive (port : Fin 16) (b : Beacon) (s : State) : Host.Outcome State Fault Refusal :=
  .next (s.heardOn port.val fun t => t.beaconIn port.val b)

/-- PORT_TRAINING_DONE (R269): after 16 frames of training pattern. -/
def execPortTrainingDone (port : Fin 16) (s : State) : Host.Outcome State Fault Refusal :=
  let p := port.val
  match (s.port p).trainAt with
  | none => .next s
  | some t0 =>
    if s.now < t0 + 16 || !s.on (Reg.OPT_PORT_STATUS_PEER_VALID p) then .next s
    else .next ((s.modPort p fun x => { x with trained := true, trainAt := none }).refreshPort p)

/-! ### Link delay (R274, R275, R293) -/

/-- A slot in 1/64 hub cycles: 64 ns. -/
def slotUnits : Nat := 8192

/-- The slot lag m_p of a link delay (R274). -/
def slotLag (d : Nat) : Nat := (d + slotUnits / 2) / slotUnits

/-- The launch offset o_p of a link delay, in 1/64 hub cycles (R274). -/
def launchOffset (d : Nat) : Int := (slotUnits * slotLag d : Nat) - (d : Int)

/-- EXPRESS_OK (R275): the offset lies within 150 ps, 19.2 units of 7.8125 ps. -/
def expressOk (d : Nat) : Bool := (launchOffset d).natAbs ≤ 19

/-- DELAY_MEASURE_DONE (R274, R293): after 16 frames D_p is the delay of two-way time transfer. -/
def execDelayMeasureDone (port : Fin 16) (s : State) : Host.Outcome State Fault Refusal :=
  let p := port.val
  match (s.port p).measureAt with
  | none => .next s
  | some t0 =>
    if s.now < t0 + 16 || !(s.nbr p).measured then .next s
    else
      let r := s.fresh
      let d := (((s.nbr p).delay2 + (r.1 % 2 : Nat)) / 2).toNat % 2 ^ 24
      let s1 := ((r.2.put (Reg.SWT_PORT_DELAY_DELAY p) d).mark (Reg.SWT_PORT_DELAY_VALID p)).put (Reg.SWT_PORT_DELAY_EXPRESS_OK p) (b2n (expressOk d))
      .next (s1.modPort p fun x => { x with measureAt := none })

/-! ### Silence and the quiet limit (R254, R389) -/

/-- PEER_SILENT (R389): once, after 64 frames without a valid service message on a port that has been UP; the short message
goes to the slice manager's module. -/
def execPeerSilent (port : Fin 16) (s : State) : Host.Outcome State Fault Refusal :=
  let p := port.val
  if !(s.port p).wasUp || (s.port p).silent != 64 then .next s
  else .next (((s.mark Reg.RPL_REPLAY_EVENT_PEER_SILENT).sendTo s.moduleId (Config.sliceManager % 8192) (.short .peerSilent [s.peer p])).modPort p
    fun x => { x with silent := 65 })

/-- QUIET_LIMIT_EXPIRE (R254): OPT_QUIET_LIMIT frames in TX_QUIET or RX_HOLD raise LINK_DOWN. -/
def execQuietLimitExpire (port : Fin 16) (s : State) : Host.Outcome State Fault Refusal :=
  let p := port.val
  let x := s.port p
  if (x.quiet.isEmpty && x.hold.isEmpty) || x.quietTicks < s.get Reg.OPT_QUIET_LIMIT_FRAMES || s.on (Reg.OPT_PORT_STATUS_LINK_DOWN p) then .next s
  else .next (s.linkDown p 2)

/-- The frames counted on a port at a tick: quiet outside a gap (R254, R267), and silence (R389). -/
def State.countPorts (s : State) : State :=
  s.each (List.range 16) fun t p =>
    let x := t.port p
    let q := if (x.quiet.isEmpty && x.hold.isEmpty) || t.on (Reg.OPT_PORT_STATUS_GAP p) then x.quietTicks else x.quietTicks + 1
    let n := if x.wasUp && x.silent < 64 then x.silent + 1 else x.silent
    if q = x.quietTicks && n = x.silent then t else t.modPort p fun y => { y with quietTicks := q, silent := n }

/-! ### Gaps (R267) -/

/-- PORT_GAP_START (R267): at the frame whose counter bits [31:0] equal START. -/
def execPortGapStart (port : Fin 16) (s : State) : Host.Outcome State Fault Refusal :=
  let p := port.val
  let n := s.get (Reg.OPT_PORT_GAP_LEN_FRAMES p)
  if n = 0 || s.on (Reg.OPT_PORT_STATUS_GAP p) || !s.atLow32 (s.get (Reg.OPT_PORT_GAP_START_START p)) then .next s
  else .next (((s.mark (Reg.OPT_PORT_STATUS_GAP p)).modPort p fun x => { x with gapEnd := some (s.now + n) }).refreshPort p)

/-- PORT_GAP_END (R267): after the gap's length. -/
def execPortGapEnd (port : Fin 16) (s : State) : Host.Outcome State Fault Refusal :=
  let p := port.val
  match (s.port p).gapEnd with
  | none => .next s
  | some t =>
    if s.now < t then .next s
    else .next (((s.put (Reg.OPT_PORT_STATUS_GAP p) 0).modPort p fun x => { x with gapEnd := none }).refreshPort p)

/-! ### The bypass (R265–R268) -/

/-- POSITION codes (R270). -/
def bypClosed : Nat := 0
def bypOpening : Nat := 1
def bypIsOpen : Nat := 2
def bypClosing : Nat := 3

/-- During a motion all four fibres of the pair are dark (R266): neither port has a peer. -/
def State.darken (s : State) (b : Nat) : State :=
  s.each [2 * b, 2 * b + 1] fun t p => (t.put (Reg.OPT_PORT_STATUS_PEER_VALID p) 0).put (Reg.OPT_PORT_STATUS_UP p) 0

/-- A motion starts: counted, and dark. -/
def State.move (s : State) (b pos : Nat) : State :=
  let s1 := ((s.put (Reg.OPT_BYP_STATUS_POSITION b) pos).bump (Reg.OPT_BYP_STATUS_MOVES b)).mark Reg.OPT_EVENT_BYPASS_MOVE
  (s1.modByp b fun x => { x with lastStart := some s.now }).darken b

/-- A command to close, or the end of the hold (R265, R266): never delayed, it reverses an opening and cancels an
armed or deferred motion. -/
def State.closeBypass (s : State) (b : Nat) : State :=
  let s1 := (s.put (Reg.OPT_BYP_CTRL_ARM b) 0).put (Reg.OPT_BYP_STATUS_DEFERRED b) 0
  let pos := s1.get (Reg.OPT_BYP_STATUS_POSITION b)
  if pos = bypOpening || pos = bypIsOpen then s1.move b bypClosing else s1

/-- What holds a switch OPEN (R265): the 12 V rail, the module in place, MOD_RESET_N released, and service. -/
def State.bypassHeld (s : State) : Bool := s.pins.v12 && s.pins.body && !s.pins.resetLow && !s.on Reg.HRC_STATUS_OUT_OF_SERVICE

/-- The clock of planned motions (R268): the frame counter while it is VALID, else the listener's count. -/
def State.motionClock (s : State) (b : Nat) : Option Nat :=
  if s.on Reg.FTB_STATUS_VALID then some s.frame
  else (s.byp b).listener.map fun l => l.1 + (s.now - l.2)

/-- The rate limit (R266): two motions of a switch start at least 24,414 frames apart. -/
def State.mayOpen (s : State) (b : Nat) : Bool :=
  match (s.byp b).lastStart with
  | none => true
  | some t => t + 24414 ≤ s.now

/-- A write of OPT_BYPb_CTRL: TARGET, and ARM (R267, R270). -/
def State.writeBypCtrl (s : State) (b v : Nat) : State :=
  let s1 := s.put (Reg.OPT_BYP_CTRL_TARGET b) (bitsOf v 0 1)
  s1.when (bitOn v 1) fun t => t.mark (Reg.OPT_BYP_CTRL_ARM b)

/-- BYPASS_ARM (R267). -/
def execBypassArm (p : Party) (b : Fin 8) (v : Word) (s : State) : Host.Outcome State Fault Refusal :=
  .next (s.fwOnly p fun t => t.writeBypCtrl b.val v.toNat)

/-- BYPASS_CLOSE_COMMAND (R265): firmware or Idfort commands CLOSED. -/
def execBypassCloseCommand (p : Party) (b : Fin 8) (s : State) : Host.Outcome State Fault Refusal :=
  if p == .idfort then .next (s.closeBypass b.val) else .next (s.fwOnly p fun t => t.closeBypass b.val)

/-- BYPASS_MOTION_START (R266, R267): an armed motion at its frame, or a deferred opening once the rate limit
allows; an opening too early is deferred. -/
def execBypassMotionStart (b : Fin 8) (s : State) : Host.Outcome State Fault Refusal :=
  let k := b.val
  let f := s.get (Reg.OPT_BYP_FRAME_FRAME k)
  let due := if s.on Reg.FTB_STATUS_VALID then s.atLow32 f else (s.motionClock k).map (· % 2 ^ 32) == some f
  let pos := s.get (Reg.OPT_BYP_STATUS_POSITION k)
  if !s.on (Reg.OPT_BYP_CTRL_ARM k) || !(due || s.on (Reg.OPT_BYP_STATUS_DEFERRED k)) then .next s
  else if !s.on (Reg.OPT_BYP_CTRL_TARGET k) then .next (s.closeBypass k)
  else if !s.bypassHeld then .next s
  else if pos = bypIsOpen || pos = bypOpening then .next (s.put (Reg.OPT_BYP_CTRL_ARM k) 0)
  else if s.mayOpen k then
    .next (((s.put (Reg.OPT_BYP_CTRL_ARM k) 0).put (Reg.OPT_BYP_STATUS_DEFERRED k) 0).move k bypOpening)
  else if s.on (Reg.OPT_BYP_STATUS_DEFERRED k) then .next s
  else .next ((s.mark (Reg.OPT_BYP_STATUS_DEFERRED k)).mark Reg.OPT_EVENT_BYPASS_DEFER)

/-- BYPASS_MOTION_END (R266): the switch reaches its new position; the beacons of the two ports say so at once (R256). -/
def execBypassMotionEnd (b : Fin 8) (s : State) : Host.Outcome State Fault Refusal :=
  let pos := s.get (Reg.OPT_BYP_STATUS_POSITION b.val)
  if pos = bypOpening then
    .next (([2 * b.val, 2 * b.val + 1].filter (s.put (Reg.OPT_BYP_STATUS_POSITION b.val) bypIsOpen).serviceUp).foldl State.sendBeacon
      (s.put (Reg.OPT_BYP_STATUS_POSITION b.val) bypIsOpen))
  else if pos = bypClosing then .next (s.put (Reg.OPT_BYP_STATUS_POSITION b.val) bypClosed)
  else .next s

/-- LISTENER_MESSAGE (R268): the listener of a switch's fibres decodes a passing message and keeps the frame
count; it never sets VALID. -/
def execListenerMessage (b : Fin 8) (frame : BitVec 64) (s : State) : Host.Outcome State Fault Refusal :=
  if !s.pins.v12 then .next s
  else .next ((s.mark (Reg.OPT_BYP_STATUS_LISTEN_OK b.val)).modByp b.val fun x => { x with listener := some (frame.toNat, s.now) })

end Sys2Proof.Machine
end

