-- ==== Sys2Proof/Machine/Submit.lean ====
section
/-! DEFINITION. Rings, doorbells, the fetch and the checks of descriptors, issue, completion, progress
records and mailboxes (R166–R206). -/
namespace Sys2Proof.Machine

/-! ### Rings (R169–R175) -/

/-- Ring n has nothing held or in flight (STATUS.IDLE). -/
def State.ringIdle (s : State) (r : Nat) : Bool := !(s.ops.any fun o => o.ring == r)

/-- A ring is active when ENABLE = 1 and its context is ACTIVE (R173); a cleared ENABLE still fetches until
the next tick (R172). -/
def State.ringActive (s : State) (r : Nat) : Bool :=
  s.on Reg.SUB_CTRL_DISPATCH_EN && (s.on (Reg.SUB_RING_CFG_ENABLE r) || (s.ring r).stopping) && s.active (s.ringCtx r)

/-- S₀ of a ring (R170). -/
def State.seqBase (s : State) (r : Nat) : Nat := s.get64 (Reg.SUB_RING_SEQ_LO_SEQ r) (Reg.SUB_RING_SEQ_HI_SEQ r)

/-- The POSTs that cores hold for a ring, in the order of their arrival: their numbers and cores (R199). -/
def State.heldPosts (s : State) (r : Nat) : List (Nat × Nat) :=
  sortOn (·.1) (s.cores.filterMap fun e => match e.2.stall with
    | some (.post q _ no) => if q == r then some (no, e.1) else none
    | _ => none)

/-- A core holds a POST at its place in the order of arrival (R199). -/
def State.holdPost (s : State) (c r src no : Nat) : State :=
  { s with sub := { s.sub with postCnt := max s.sub.postCnt (no + 1) } }.hold c (.post r src no)

/-- The effect of POST on the state t of its core's LAUNCH o; at a full or disabled ring, behind a POST that arrived before, or
while its page waits for the shadow pool, the core holds it in s. -/
def State.postDesc (s t : State) (o : Op) (c r src no : Nat) (e : MemErr) : State :=
  let x := t.ring r
  if t.ringCtx r != o.ctx || !t.on (Reg.SUB_RING_CFG_LOC r) then t.stopPerm c 9 r
  else if !t.on (Reg.SUB_RING_CFG_ENABLE r) || sub32 x.piOld (t.get (Reg.SUB_RING_CI_CI r)) ≥ t.ringSize r
      || (s.heldPosts r).any (fun q => q.1 < no) then s.holdPost c r src no
  else
    let pas := (List.range 64).map fun k => spAddr c (src + k)
    let t0 := t.meetErrs (some o.ctx) pas.contains e
    match t0.readErr o.ctx pas e with
    | .ue pa => t0.ueOp o 1 c pa
    | .parity pa => t0.parityOp o 1 c pa
    | _ =>
      let bs := pas.map t0.byteAt
      let d := bs.take 8 ++ leBytes 8 (t0.seqBase r + x.piOld) ++ bs.drop 16
      let va := t0.ringBase r + x.piOld % t0.ringSize r * 64
      match t0.xlateRun o.ctx va 64 true with
      | .error a => t0.xlateFault o 1 c a
      | .ok dst => match t0.storeFor (.core c) o 1 c va (dst.zip d) e with
        | .wait => (s.waitShadow (.core c)).holdPost c r src no
        | .stop u => u
        | .ok u =>
          u.modRing r fun y => { y with
            piOld := mod32 (y.piOld + 1), kicked := y.blocked || y.piOld == t.get (Reg.SUB_RING_CI_CI r), blocked := false }

/-- POST as its core issues it. -/
def State.issuePost (s : State) (c r src no : Nat) (e : MemErr) : State := s.seqInstr c fun o t => s.postDesc t o c r src no e

/-- The POSTs that cores hold are tried again, ring by ring in the order of their arrival (R198, R199). -/
def State.retryPosts (s : State) : State :=
  s.each ((List.range 256).flatMap s.heldPosts) fun t q => match (t.core q.2).stall with
    | some (.post r src no) => (t.modCore q.2 fun k => { k with stall := none }).issuePost q.2 r src no {}
    | _ => t

/-- The fields of SUB_RINGn_CFG other than ENABLE take their written values, SIZE_LOG2 clamped to 4–16. -/
def State.ringCfgFields (s : State) (r v : Nat) : State :=
  (((((s.put (Reg.SUB_RING_CFG_LOC r) (bitsOf v 1 1)).put (Reg.SUB_RING_CFG_SIZE_LOG2 r) (max 4 (min 16 (bitsOf v 2 5)))).put
    (Reg.SUB_RING_CFG_PRIO r) (bitsOf v 7 2)).put (Reg.SUB_RING_CFG_IRQ_EN r) (bitsOf v 9 1)).put
    (Reg.SUB_RING_CFG_MAX_INFLIGHT r) (bitsOf v 16 16))

/-- A write of SUB_RINGn_CFG (R172): fields other than ENABLE only while the ring is disabled and idle;
setting ENABLE restarts CI and CQ_PI at 0, clearing it stops fetching at the next tick. Descriptors that still run from before
count among the records to come: DESIGN CHOICE (log entry 150). -/
def State.writeRingCfg (s : State) (r : Nat) (v : Nat) : State :=
  let was := s.on (Reg.SUB_RING_CFG_ENABLE r)
  let s1 := if !was && s.ringIdle r then s.ringCfgFields r v else s
  let s2 := s1.put (Reg.SUB_RING_CFG_ENABLE r) (bitsOf v 0 1)
  let x := s.ring r
  let busy := (s.ops.filter fun o => o.ring == r && o.issued).length
  if bitOn v 0 && !was then
    ((s2.setRing r { changed := x.cqPi != 0 || s.get (Reg.SUB_RING_CI_CI r) != 0, irqSent := x.irqSent, issuedRej := busy }).put
      (Reg.SUB_RING_CI_CI r) 0).put (Reg.SUB_RING_STATUS_STALL r) 0
  else if !bitOn v 0 && was then s2.modRing r fun x => { x with stopping := true }
  else s2

/-- RING_ENABLE (R172). -/
def execRingEnable (p : Party) (ring : Fin 256) (v : Word) (s : State) : Host.Outcome State Fault Refusal :=
  .next (s.byCp p fun t => (t.writeRingCfg ring.val v.toNat).retryPosts)

/-- RING_DISABLE (R172). -/
def execRingDisable (p : Party) (ring : Fin 256) (v : Word) (s : State) : Host.Outcome State Fault Refusal :=
  .next (s.byCp p fun t => t.writeRingCfg ring.val v.toNat)

/-- A producer index is accepted inside both windows of R174; otherwise BAD_PI is set. -/
def State.acceptPi (s : State) (r pi : Nat) : State :=
  let x := s.ring r
  if sub32 pi x.piOld ≤ s.ringSize r && sub32 pi (s.get (Reg.SUB_RING_CI_CI r)) ≤ s.ringSize r then
    s.setRing r { x with piOld := pi }
  else (s.mark (Reg.SUB_RING_STATUS_BAD_PI r)).mark Reg.SUB_EVENT_BAD_PI

/-- KICK_WRITE (R173): a shadow doorbell of an active ring; the ring is examined even when the index is unchanged. -/
def execKickWrite (ring : Fin 256) (pi : Word) (s : State) : Host.Outcome State Fault Refusal :=
  let r := ring.val
  if s.ringActive r then
    .next ((s.acceptPi r pi.toNat).modRing r fun x => { x with
      kicked := (s.ring r).blocked || (s.ring r).piOld == s.get (Reg.SUB_RING_CI_CI r), blocked := false })
  else .next s

/-- The dispatcher's read of device memory for a ring (R141, R157, R341, R343): the bytes, or the state with the record of what
stopped it. -/
def State.ringRead (s : State) (r va n : Nat) (e : MemErr) : Except State (State × List Byte) :=
  let c := s.ringCtx r
  let p : PartyRec := ⟨c, s.gen c, s.vcid c, r, 0⟩
  let stop (t : State) (code : Nat) (d : List (Nat × Nat)) : State := t.raise { code := code, unitKind := 6, p1 := some p, detail := d }
  let ue (t : State) (pa : Nat) : State :=
    let q := t.consumeUe pa (some c)
    stop q.2 fMemUe q.1
  match s.xlateRun c va n false with
  | .error a => match s.walkPoison c a with
    | some pa => .error (ue s pa)
    | none => .error (stop s fPermission [(1, 1), (8, a)])
  | .ok pas =>
    let t := s.meetErrs (some c) pas.contains e
    match t.readErr c pas e with
    | .ue pa => .error (ue t pa)
    | .parity pa => .error (stop (t.countCheck 6 2 0 (pa % 4096) (some c)) fCheckFail (checkDetail 6 0 (pa / 4096 * 4096)))
    | .chk pa => .error (stop (t.countCheck 1 3 (memOf pa) (pa % 4096) (some c)) fCheckFail (checkDetail 1 0 (pa / 4096 * 4096)))
    | .none => .ok (t, pas.map t.paByte)

/-- The poll of one ring (R173): host memory as read, or for a device-resident ring CQ_CI from its control
block, its producer index being kept on die (R198). A read of device memory that fails changes nothing yet: its record follows at
the end of the frame, since whatever else is due at the tick comes before the polls (R21): DESIGN CHOICE (log entry 151). -/
def State.pollRing (s : State) (polls : List RingPoll) (r : Nat) : State :=
  let s0 := s.modRing r fun x => { x with blocked := false, irqSent := false, kicked := false }
  if !s0.ringActive r then s0
  else if s0.on (Reg.SUB_RING_CFG_LOC r) then
    match s0.ringRead r (s0.cbBase r + 8) 4 {} with
    | .ok q => q.1.modRing r fun x => { x with cqCi := leNat q.2 }
    | .error _ => s0
  else match polls.find? fun q => q.ring.val == r with
    | none => s0
    | some q => (s0.modRing r fun x => { x with cqCi := q.cqCi.toNat }).acceptPi r q.pi.toNat

/-- The failed polls of device-resident rings in the ended frame, with the errors that they met. -/
def State.pollErrs (s : State) (e : MemErr) : State :=
  s.each ((List.range 256).filter fun r => s.ringActive r && s.on (Reg.SUB_RING_CFG_LOC r)) fun t r =>
    match t.ringRead r (t.cbBase r + 8) 4 e with
    | .ok q => q.1
    | .error u => u

/-- At the end of a frame the control blocks whose CI or CQ_PI changed are written (R175). -/
def State.writeCbs (s : State) (e : MemErr) : State :=
  (s.each ((s.sub.rings.filter fun x => x.2.changed).map (·.1)) fun t r => t.writeCb r e).flushBreaks

/-- At a tick a ring whose ENABLE was cleared stops fetching (R172). -/
def State.stopRings (s : State) : State :=
  s.each ((s.sub.rings.filter fun e => e.2.stopping).map (·.1)) fun t r => t.modRing r fun x => { x with stopping := false }

/-! ### Checks at acceptance (R178, R183, R185) -/

def dZero (d : Descriptor) (k n : Nat) : Bool := descBytes d k n == 0

/-- The bytes that an opcode leaves reserved (R183), as first byte and length. -/
def reservedBytes : Nat → List (Nat × Nat)
  | 1 => [(52, 4)] | 2 => [(48, 8)] | 3 => [(19, 1), (52, 4)] | 4 => [(20, 4), (32, 32)]
  | 5 => [(18, 6), (36, 28)] | 6 => [(19, 5), (36, 4), (48, 16)] | 7 => [(18, 6)] | 8 => [(16, 8), (48, 8)]
  | 9 => [(17, 7), (32, 32)] | 10 => [(17, 7), (32, 32)] | 11 => [(17, 47)] | 12 => [(18, 6), (36, 4), (48, 16)]
  | 13 => [(17, 7), (40, 24)] | _ => []

/-- Whether an opcode may carry a completion signal (R181). -/
def sigAllowed (opc : Nat) : Bool := [1, 2, 3, 7, 8].contains opc

/-- The flags and the completion-signal bytes (R181, R183). -/
def flagsOk (d : Descriptor) : Bool :=
  let opc := descBytes d 0 1
  let f := descBytes d 1 1
  f < 16 && (!bitOn f 3 || opc == 2) && (!bitOn f 0 || sigAllowed opc)
    && (if sigAllowed opc then dZero d 58 2 && (bitOn f 0 || (dZero d 56 2 && dZero d 60 4)) else true)

/-- The fields of a DMA fit the kinds it names (R185). -/
def dmaFieldsOk (d : Descriptor) : Bool :=
  let b := descBytes d 17 1
  let sk := bitsOf b 2 2
  let dk := bitsOf b 4 2
  descBytes d 16 1 < 48 && b < 64 && sk != 3 && dk != 3 && !(sk == 2 && dk == 2)
    && (if sk == 2 || dk == 2 then descBytes d 18 2 < 8192 else dZero d 18 2)
    && (if sk == 1 then descBytes d 20 2 < 128 && descBytes d 24 8 < 0x400000 else dZero d 20 2)
    && (if dk == 1 then descBytes d 22 2 < 128 && descBytes d 32 8 < 0x400000 else dZero d 22 2)

/-- The fields of a COLL (R183, R294, R298): kind, format, operation, group and count, and the formats that a kind and
operation take. -/
def collFieldsOk (d : Descriptor) : Bool :=
  let kind := descBytes d 16 1
  let fmt := descBytes d 17 1
  let op := descBytes d 18 1
  kind ≤ 4 && op ≤ 2 && descBytes d 20 4 < 4096 && descBytes d 40 8 < 2 ^ 45
    && (if kind == 2 || kind == 3 then op == 0 && (fmt ≤ 4 || fmt == 9) else if op == 0 then fmt ≤ 4 else fmt ≤ 4 || fmt == 9)

/-- The ranges of an opcode's own fields (R183). -/
def fieldsOk (d : Descriptor) : Bool :=
  match descBytes d 0 1 with
  | 1 => !dZero d 16 16
  | 2 => dmaFieldsOk d
  | 3 => collFieldsOk d
  | 4 => bitsOf (descBytes d 18 2) 13 2 == 0
  | 5 => descBytes d 24 8 ≤ counterMax
  | 6 => descBytes d 18 1 ≤ 2
  | 7 => descBytes d 16 1 ≤ 4 && descBytes d 17 1 ≤ 1 && descBytes d 24 8 < 2 ^ 45
  | 8 => descBytes d 24 8 % 65536 == 0
  | 9 => descBytes d 16 1 ≤ 1
  | 10 => descBytes d 16 1 ≤ 1
  | 11 => descBytes d 16 1 ≤ 7
  | 12 => true
  | 13 => true
  | _ => false

/-- The synchronisation objects that a descriptor names (R209): its kind, or for a completion signal a counter;
the virtual identifier of the first that misses. -/
def State.syncMiss (s : State) (c : Nat) (d : Descriptor) : Option Nat :=
  let opc := descBytes d 0 1
  let vid := descBytes d 16 2
  let own : Bool :=
    if opc == 4 then bitOn (descBytes d 18 2) 15 || (s.xtObj c vid false).isSome
    else if opc == 5 then (s.xtObj c vid false).isSome
    else if opc == 6 || opc == 12 then (s.xtObj c vid true).isSome
    else true
  if !own then some vid
  else if bitOn (descBytes d 1 1) 0 && (s.xtObj c (descBytes d 56 2) false).isNone then some (descBytes d 56 2)
  else none

/-- The poisoned granule of a table word that the translations of a descriptor's identifiers would read (R157). -/
def State.syncPoison (s : State) (c : Nat) (d : Descriptor) : Option Nat :=
  let opc := descBytes d 0 1
  let own : List Nat := if [5, 6, 12].contains opc || (opc == 4 && !bitOn (descBytes d 18 2) 15) then [descBytes d 16 2] else []
  let sig : List Nat := if bitOn (descBytes d 1 1) 0 then [descBytes d 56 2] else []
  ((own ++ sig).filterMap (s.xtPoison c)).head?

/-- Whether a barrier arrival's payload operation fits the episode it would join (R225). -/
def State.payloadFits (s : State) (c vid op : Nat) : Bool :=
  match s.xtObj c vid true with
  | some obj => (s.obj obj).broken || (s.obj obj).fits op
  | none => true

/-- The frame of a SNAP is not late (R472). -/
def State.snapFrameOk (s : State) (d : Descriptor) : Bool :=
  let f := descBytes d 24 8
  f == 0 || (s.frame < f && (descBytes d 16 1 == 0 || s.frame + max 3 (s.get Reg.SNP_CTRL_LEAD) ≤ f))

/-- The rules of other chapters at acceptance: the phase owner (R333), tracking and the Noon barrier (R306,
R317), the CLOSE (R329), the SNAP's frame (R472), and the payload operation (R225). -/
def State.rulesOk (s : State) (c : Nat) (d : Descriptor) : Bool :=
  match descBytes d 0 1 with
  | 6 => s.payloadFits c (descBytes d 16 2) (descBytes d 18 1)
  | 10 => s.snapFrameOk d
  | 9 => s.on (Reg.RPL_STEP_CTRL_PHASE_OWNER c) && (dZero d 24 8 || s.frame < descBytes d 24 8)
  | 12 => s.on (Reg.RPL_STEP_CTRL_ENABLE c) && ((s.xtEntry c (descBytes d 16 2)).map (·.stepScoped)) == some true
      && s.payloadFits c (descBytes d 16 2) 1
  | 13 => s.on (Reg.RPL_STEP_CTRL_ENABLE c) && (!s.stepOpen c || descBytes d 24 8 == s.stepNum c)
      && s.frame + 3 < descBytes d 32 8
  | _ => true

/-- Whether the failing rule of another chapter rejects "under R178": the frame of a PHASE (R278), and a NOON or CLOSE
of a context without tracking (R306). -/
def State.fieldRule (s : State) (c : Nat) (d : Descriptor) : Bool :=
  match descBytes d 0 1 with
  | 9 => s.on (Reg.RPL_STEP_CTRL_PHASE_OWNER c)
  | 12 => !s.on (Reg.RPL_STEP_CTRL_ENABLE c)
  | 13 => !s.on (Reg.RPL_STEP_CTRL_ENABLE c)
  | _ => false

/-- Why an accepted descriptor is rejected (R178): the REASON and ADDR of its PERMISSION record. -/
def State.rejectReason (s : State) (r : Nat) (d : Descriptor) : Option (Nat × Nat) :=
  let c := s.ringCtx r
  let opc := descBytes d 0 1
  if opc = 0 || opc > 13 || !flagsOk d || !((reservedBytes opc).all fun q => dZero d q.1 q.2) || !fieldsOk d then some (2, 0)
  else if descBytes d 2 2 != s.get (Reg.SUB_RING_CTX_VCID r) then some (3, 0)
  else match s.syncMiss c d with
    | some vid => some (6, vid)
    | none => if s.rulesOk c d then none else some (if s.fieldRule c d then 2 else 10, 0)

/-! ### Fetch (R176, R177, R195, R197) -/

/-- Operations in flight of the module and of a ring (R195, R197). -/
def State.inflightFull (s : State) (r : Nat) : Bool :=
  let mx := s.get (Reg.SUB_RING_CFG_MAX_INFLIGHT r)
  s.ops.length ≥ 65536 || (mx != 0 && (s.ops.filter fun o => o.ring == r).length ≥ mx)

/-- The operation of a fetched descriptor (R168, R192). A budget of 0 takes FTB_DEFAULT_BUDGET as it stands at acceptance:
DESIGN CHOICE, R41 does not say when (log entry 139). -/
def State.newOp (s : State) (r : Nat) (d : Descriptor) : Op :=
  let c := s.ringCtx r
  let b := descBytes d 4 4
  { ring := r, idx := s.get (Reg.SUB_RING_CI_CI r), seq := descBytes d 8 8, opc := descBytes d 0 1, ctx := c,
    gen := s.gen c, vcid := descBytes d 2 2, desc := d,
    budget := if b = 0 then s.get Reg.FTB_DEFAULT_BUDGET_BUDGET else b, order := s.sub.accepted }

/-- Whether a ring's completion ring has a free record (R179). -/
def State.cqFree (s : State) (r : Nat) : Bool := sub32 (s.ring r).issuedRej (s.ring r).cqCi != s.ringSize r

/-- A rejected operation gets its REJECTED record (R178); without a free record it keeps it for
DESCRIPTOR_COMPLETE. -/
def State.reject (s : State) (o : Op) (code : Nat) : State :=
  if s.cqFree o.ring then (s.modRing o.ring fun x => { x with issuedRej := mod32 (x.issuedRej + 1) }).endOp o stRejected code
  else s.finish o stRejected code

/-- The opcodes that a discard ends ABORTED (R372). -/
def discardEnds (o : Op) : Bool :=
  [1, 2, 3, 4, 5, 6, 12, 13].contains o.opc || (o.opc == 7 && o.target == 0)

/-- A discard is in progress on a context: from D until READY (R372, R373). -/
def State.discarding (s : State) (c : Nat) : Bool :=
  s.get (Reg.RPL_REPLAY_STATUS_STATE c) == 1 || s.get (Reg.RPL_REPLAY_STATUS_STATE c) == 2

/-- A descriptor whose virtual identifier does not translate at issue: PERMISSION (R209), or MEM_UE of a poisoned table word
(R157). -/
def State.rejectXt (s : State) (o : Op) (vid : Nat) : State :=
  match s.xtPoison o.ctx vid with
  | some pa => s.ueOp o 6 0 pa
  | none => (s.raise (o.faultRec fPermission 6 0 [(1, 6), (8, vid)])).reject o fPermission

/-- A descriptor is accepted: CI advances, a stall ends, and the descriptor is aborted by a discard in progress, rejected, or
joins the operations in flight (R176, R178, R372). A discard comes before the rules that reject an accepted descriptor. The
progress memory holds the present operations again (log entry 152). -/
def State.accept (s : State) (r : Nat) (d : Descriptor) : State :=
  let why := s.rejectReason r d
  let o := s.newOp r d
  let s1 := (s.put (Reg.SUB_RING_CI_CI r) (mod32 (o.idx + 1))).put (Reg.SUB_RING_STATUS_STALL r) 0
  let s2 := s1.modRing r fun x => { x with fails := 0, changed := true }
  let s3 := { s2 with sub := { s2.sub with ops := s2.sub.ops ++ [o], accepted := s2.sub.accepted + 1, progMem := [] } }
  if s3.discarding o.ctx && discardEnds o then s3.endOp o stAborted 0
  else match why, s.syncPoison o.ctx d with
  | some (6, _), some pa => s3.ueOp o 6 0 pa
  | some q, _ => (s3.raise (o.faultRec fPermission 6 0 [(1, q.1), (8, q.2)])).reject o fPermission
  | none, _ =>
    if o.opc == 13 then
      (s3.put64 (Reg.RPL_STEP_CLOSE_LO_FRAME o.ctx) (Reg.RPL_STEP_CLOSE_HI_FRAME o.ctx) (descBytes d 32 8)).modCtx o.ctx
        fun x => { x with closeOp := some (r, o.idx, descBytes d 16 1) }
    else s3

/-- A failed sequence check (R176): nothing more is fetched until the next tick or kick, and consecutive
failing ticks of the index are counted; what fails at a kick is no failing tick. -/
def State.seqFail (s : State) (r found : Nat) : State :=
  s.modRing r fun x =>
    if x.kicked then { x with blocked := true, found := found }
    else { x with
      blocked := true
      found := found
      fails := if x.failTick = s.now && x.fails != 0 then x.fails else if x.failTick + 1 = s.now then x.fails + 1 else 1
      failTick := s.now }

/-- The descriptor slot that the dispatcher reads: the operand for a ring in host memory, device memory for a
device-resident ring. -/
def State.slotOf (s : State) (r : Nat) (slot : Descriptor) (e : MemErr) : Except State (State × Descriptor) :=
  if s.on (Reg.SUB_RING_CFG_LOC r) then
    (s.ringRead r (s.ringBase r + s.get (Reg.SUB_RING_CI_CI r) % s.ringSize r * 64) 64 e).map fun q => (q.1, BitVec.ofNat 512 (leNat q.2))
  else .ok (s, slot)

/-- DESCRIPTOR_FETCH (R176, R178, R197): while an index is published and nothing blocks the ring. -/
def execDescriptorFetch (ring : Fin 256) (slot : Descriptor) (e : MemErr) (s : State) : Host.Outcome State Fault Refusal :=
  let r := ring.val
  let ci := s.get (Reg.SUB_RING_CI_CI r)
  if !s.ringActive r || ci == (s.ring r).piOld || (s.ring r).blocked then .next s
  else if s.inflightFull r then .next (s.mark Reg.SUB_EVENT_INFLIGHT_FULL)
  else match s.slotOf r slot e with
    | .error t => .next (t.seqFail r 0)
    | .ok (t, d) =>
      if descBytes d 8 8 == (t.seqBase r + ci) % 2 ^ 64 then .next (t.accept r d).retryPosts
      else .next (t.seqFail r (descBytes d 8 8))

/-- RING_STALL (R176): after 16 consecutive failing ticks of one index, once until a match. -/
def execRingStall (ring : Fin 256) (s : State) : Host.Outcome State Fault Refusal :=
  let r := ring.val
  let x := s.ring r
  if x.fails < 16 || s.on (Reg.SUB_RING_STATUS_STALL r) then .next s
  else
    let c := s.ringCtx r
    let ci := s.get (Reg.SUB_RING_CI_CI r)
    let s1 := ((s.mark (Reg.SUB_RING_STATUS_STALL r)).mark Reg.SUB_EVENT_RING_STALL).bump (Reg.SUB_RING_STALL_CNT_COUNT r)
    .next (s1.raise { code := fRingStall, notice := true, unitKind := 6, p1 := some ⟨c, s.gen c, s.vcid c, r, 0⟩,
                      detail := [(1, r), (4, ci), (8, (s.seqBase r + ci) % 2 ^ 64), (8, x.found)] })

/-! ### Issue (R179, R195, R197, R309) -/

/-- The descriptor at the head of a ring: the oldest accepted one not yet issued (R179). -/
def State.head (s : State) (r : Nat) : Option Op := s.ops.find? fun o => o.ring == r && !o.issued && o.fin.isNone

/-- FLAGS.ORDER holds a descriptor while an earlier one of its ring has not completed (R179). -/
def State.orderHeld (s : State) (o : Op) : Bool := o.flag 2 && s.ops.any fun q => q.ring == o.ring && q.order < o.order

/-- A tracked context without an open step holds these descriptors (R309), and a target-0 UPDATE waits while a discard is due:
the attempt is discarded before any update (R318). -/
def State.stepHeld (s : State) (o : Op) : Bool :=
  s.on (Reg.RPL_STEP_CTRL_ENABLE o.ctx)
    && ((!s.stepOpen o.ctx && ([1, 3, 12, 13].contains o.opc || (o.opc == 7 && o.target == 0)))
      || (s.discardSet o.ctx && o.opc == 7 && o.target == 0))

/-- Operations issued to the units of a die (R195). -/
def State.dieCount (s : State) (die : Nat) : Nat := (s.ops.filter fun o => o.issued && bitOn o.dies die).length

/-- An issue that would pass the limit of a die is held (R197). -/
def State.dieFull (s : State) (dies : Nat) : Bool := (maskBits 4 dies).any fun d => s.dieCount d ≥ 16384

/-- Whether nothing of R179 holds an operation. -/
def State.issuable (s : State) (o : Op) : Bool :=
  !s.orderHeld o && s.cqFree o.ring && !s.stepHeld o && s.active o.ctx

/-- The bit of a core in HRC_RST_CORE, and of a cluster in HRC_RST_CL (R436). -/
def rstCore (c : Nat) : Reg.Fld := ⟨Reg.HRC_RST_CORE (c / 32), c % 32, 1⟩
def rstCl (k : Nat) : Reg.Fld := ⟨if k < 32 then Reg.HRC_RST_CL0 else Reg.HRC_RST_CL1, k % 32, 1⟩

/-- Whether a core or its cluster is in reset. -/
def State.coreInReset (s : State) (c : Nat) : Bool := s.on (rstCore c) || s.on (rstCl (coreCluster c))

/-- The physical cores of a LAUNCH's core set, bytes 16–31. -/
def State.launchCores (s : State) (o : Op) : List Nat := (maskBits 128 (descBytes o.desc 16 16)).map s.physCore

/-- Whether a core can take a LAUNCH now (R184, R362, R424, R436). -/
def State.coreFree (s : State) (c : Nat) : Bool :=
  (s.core c).launch.isNone && !s.coreInReset c && !s.hrc.hung.contains c && !(s.integ.testing.any fun x => x.1 == c) && !(s.core c).halted

/-- The compute dies of a list of cores, as a mask (R195). -/
def diesOf (l : List Nat) : Nat := l.foldl (fun m c => m ||| 2 ^ coreDie c) 0

/-- The engine of an operation takes nothing up: it has hung (R424), or it is a cluster engine in reset (R436) or of a die that
is gated in this frame (R468). -/
def State.engineHeld (s : State) (o : Op) : Bool :=
  let u := Op.unit s o
  s.hrc.hung.contains (hungKey u.1 u.2) || (u.1 == 2 && (s.on (rstCl u.2) || s.gated (u.2 / 9)))

/-- The compute die of a DMA's engine, as a mask; a hub engine has none (R195). -/
def dmaDies (o : Op) : Nat := let e := descBytes o.desc 16 1; if e < 32 then 2 ^ (e / 8) else 0

/-- An operation is issued to its units, which lie on the dies of a mask. -/
def State.issue (s : State) (o : Op) (dies : Nat) : State :=
  let n := s.sub.issuedCnt
  let s1 := { s with sub := { s.sub with issuedCnt := n + 1, lastRing := o.ring } }
  (s1.modRing o.ring fun x => { x with issuedRej := mod32 (x.issuedRej + 1) }).modOp o.ring o.idx
    fun x => { x with issued := true, issueNo := n, dies := dies }

/-- The dispatcher has served a ring, though the operation waits (R180). -/
def State.served (s : State) (r : Nat) : State := { s with sub := { s.sub with lastRing := r } }

/-- Waiter entries in use (R214). -/
def State.waitersUsed (s : State) : Nat := (s.ops.filter fun o => o.issued && [5, 6, 12].contains o.opc).length

/-- Hold a descriptor for want of a waiter entry (R214). -/
def State.noWaiter (s : State) : Bool := s.waitersUsed ≥ 4096

/-- Whether a descriptor of the context accepted before an operation, on any ring, has not completed. -/
def State.earlierOpen (s : State) (o : Op) : Bool := s.ops.any fun q => q.ctx == o.ctx && q.order < o.order

/-- Whether a duplicate of the open attempt has not reported (R317). -/
def State.dupPending (s : State) (c : Nat) : Bool :=
  s.integ.dups.any fun d => d.party.ctx == c && d.step == s.stepNum c && d.attempt == s.get (Reg.RPL_STEP_ATTEMPT_ATTEMPT c)

/-- The barrier that a descriptor names takes an arrival, or is broken. -/
def State.barTakes (s : State) (o : Op) : Bool :=
  (s.xtObj o.ctx (descBytes o.desc 16 2) true).all fun x => (s.obj x).broken || (s.obj x).slot.isSome

/-- Whether the units of an operation that nothing of R179 holds can take it in this cycle. -/
def State.canTake (s : State) (o : Op) : Bool :=
  match o.opc with
  | 1 => (s.launchCores o).all s.coreFree && !s.dieFull (diesOf (s.launchCores o))
  | 2 => !s.engineHeld o && !s.dieFull (dmaDies o)
  | 3 => (s.ops.filter fun q => q.opc == 3 && q.issued && q.fin.isNone).length < 32
  | 4 => s.synOn && (!bitOn (descBytes o.desc 18 2) 15 || descBytes o.desc 18 2 % 8192 == s.moduleId || s.remoteFree)
  | 5 => s.synOn && !s.noWaiter
  | 6 => s.synOn && !s.noWaiter && s.barTakes o
  | 12 => !s.earlierOpen o && !s.dupPending o.ctx && s.synOn && !s.noWaiter && s.barTakes o
  | _ => true

/-- The heads of the rings that can issue in this cycle (R179, R180). -/
def State.contenders (s : State) : List Op :=
  s.ops.filter fun o => (s.head o.ring) == some o && s.issuable o && s.canTake o

/-- Whether head a issues before head b (R180): by PRIO, then round robin after the ring served last. -/
def State.before (s : State) (a b : Op) : Bool :=
  let p (o : Op) : Nat := s.get (Reg.SUB_RING_CFG_PRIO o.ring)
  let turn (o : Op) : Nat := (o.ring + 255 - s.sub.lastRing) % 256
  p a > p b || (p a == p b && turn a < turn b)

/-- The head that issues (R180); among LAUNCHes of its priority that overlap it, the one of the lowest ring (R110). -/
def State.winner (s : State) : Option Op :=
  let l := s.contenders
  (l.foldl (fun (x : Option Op) o => if x.all fun y => s.before o y then some o else x) none).map fun w =>
    (l.filter fun o => o.opc == 1 && w.opc == 1 && s.get (Reg.SUB_RING_CFG_PRIO o.ring) == s.get (Reg.SUB_RING_CFG_PRIO w.ring)
        && descBytes o.desc 48 4 &&& descBytes w.desc 48 4 != 0 && descBytes o.desc 16 16 &&& descBytes w.desc 16 16 != 0).foldl
      (fun x o => if o.ring < x.ring then o else x) w

/-- The dispatcher serves an operation now (R180): it wins, or its own units still hold it. -/
def State.granted (s : State) (o : Op) : Bool := !s.canTake o || s.winner == some o

/-- The head of a ring, when it has an opcode, nothing of R179 holds it, and the dispatcher serves it (R180). -/
def State.ready (s : State) (r opc : Nat) : Option Op := (s.head r).filter fun o => o.opc == opc && s.issuable o && s.granted o

/-- A SIGNAL whose destination is this module is applied or refused here. -/
def State.signalSelf (s : State) (o : Op) (vid value : Nat) : State :=
  let e := s.get (Reg.SYN_CTX_EPOCH_EPOCH o.ctx)
  match s.remoteApply o.vcid e vid value with
  | (t, none) => t.finish o stDone 0
  | (t, some code) =>
    match t.op? o.ring o.idx with
    | none => t
    | some q => t.faultOp q code 7 0 (refusalDetail code s.moduleId e e vid 1)

/-- SIGNAL (R211, R218). -/
def execSignal (ring : Fin 256) (s : State) : Host.Outcome State Fault Refusal :=
  match s.ready ring.val 4 with
  | none => .next s
  | some o =>
    let vid := descBytes o.desc 16 2
    let m := descBytes o.desc 18 2
    let v := descBytes o.desc 24 8
    if !s.synOn then .next s
    else if !bitOn m 15 then
      match s.xtObj o.ctx vid false with
      | none => .next (s.rejectXt o vid)
      | some obj => .next ((((s.issue o 0).finish o stDone 0).fillXt o.ctx vid).signal obj v o.party 7 0 vid)
    else if m % 8192 == s.moduleId then
      .next ((s.issue o 0).signalSelf o vid v)
    else if !s.remoteFree then .next s
    else .next ((s.issue o 0).sendSignal o none (m % 8192) vid v)

/-- WAIT (R213, R214, R216): satisfied at issue it finishes at once. -/
def execWait (ring : Fin 256) (s : State) : Host.Outcome State Fault Refusal :=
  match s.ready ring.val 5 with
  | none => .next s
  | some o =>
    let vid := descBytes o.desc 16 2
    let thr := descBytes o.desc 24 8
    if !s.synOn then .next s
    else if s.noWaiter then .next (s.mark Reg.SYN_EVENT_WAITERS_FULL)
    else match s.xtObj o.ctx vid false with
      | none => .next (s.rejectXt o vid)
      | some obj =>
        let s1 := (s.issue o 0).fillXt o.ctx vid
        if thr ≤ (s.obj obj).value then .next (s1.finish o stDone 0)
        else .next (s1.modOp o.ring o.idx fun x => { x with
          wait := some { obj := obj, vid := vid, thr := thr, wdog := s.wdogOf o.ctx (descBytes o.desc 32 4) } })

/-- An issued descriptor arrives at a barrier (R224–R228): at a broken one it ends FAULTED at issue. -/
def State.issueArrival (s : State) (o : Op) (obj vid op payload wdog : Nat) : State :=
  let w : Waiter := .desc (Fin.ofNat 256 o.ring) (BitVec.ofNat 32 o.idx)
  let b := s.obj obj
  let s1 := ((s.issue o 0).fillXt o.ctx vid).modOp o.ring o.idx fun x => { x with
    wait := some { obj := obj, vid := vid, barrier := true, wdog := s.wdogOf o.ctx wdog } }
  if b.broken then
    let s2 := (((s1.logRec (breakRecord b vid none w o.party)).bump Reg.SYN_WDOG_CNT_COUNT).mark Reg.SYN_EVENT_WATCHDOG)
    ((s2.cause o.ctx 1).failArrival o)
  else (s1.arrive obj o.ctx vid w op payload).retrySync

/-- BARRIER (R224–R228). -/
def execBarrier (ring : Fin 256) (s : State) : Host.Outcome State Fault Refusal :=
  match s.ready ring.val 6 with
  | none => .next s
  | some o =>
    let vid := descBytes o.desc 16 2
    let op := descBytes o.desc 18 1
    if !s.synOn then .next s
    else if s.noWaiter then .next (s.mark Reg.SYN_EVENT_WAITERS_FULL)
    else match s.xtObj o.ctx vid true with
      | none => .next (s.rejectXt o vid)
      | some obj =>
        let b := s.obj obj
        if !b.broken && b.slot.isNone then .next s
        else if !b.broken && !b.fits op then .next ((s.raise (o.faultRec fPermission 6 0 [(1, 10), (8, vid)])).reject o fPermission)
        else .next (s.issueArrival o obj vid op (descBytes o.desc 24 8) (descBytes o.desc 32 4))

/-- The descriptors that a FENCE waits for (R186): accepted before it, of its ring or of its context. -/
def State.fenceClear (s : State) (o : Op) : Bool :=
  let scope := descBytes o.desc 16 1
  !(s.ops.any fun q => q.order < o.order && ((bitOn scope 0 && q.ring == o.ring) || (bitOn scope 1 && q.ctx == o.ctx)))

/-- The FENCE of a ring that has not finished. -/
def State.fenceOf (s : State) (r : Nat) : Option Op :=
  s.ops.find? fun o => o.ring == r && o.opc == 11 && o.issued && o.fin.isNone

/-- FENCE (R186): issued at the head of its ring, and finished once every earlier descriptor in its scope
has completed. The writes of completed descriptors are visible. -/
def execFence (ring : Fin 256) (s : State) : Host.Outcome State Fault Refusal :=
  let finishIf (o : Op) (t : State) : State := if t.fenceClear o then t.finish o stDone 0 else t
  match s.fenceOf ring.val with
  | some o => if s.fenceClear o then .next (s.finish o stDone 0)
    else match s.ready ring.val 11 with
      | some q => .next (finishIf q (s.issue q 0))
      | none => .next s
  | none =>
    match s.ready ring.val 11 with
    | some o => .next (finishIf o (s.issue o 0))
    | none => .next s

/-! ### Completion (R44, R187–R194) -/

/-- FRAME_OVERRUN (R42–R45): at the B-th counted tick without completion the operation ends FAULTED, unless
its watchdog expires on the same tick. -/
def execFrameOverrun (ring : Fin 256) (idx : Word) (s : State) : Host.Outcome State Fault Refusal :=
  match s.op? ring.val idx.toNat with
  | none => .next s
  | some o =>
    if !o.issued || o.fin.isSome || o.frames < o.budget || o.wdogExpired || 4 < s.time.pos then .next s
    else
      let u := Op.unit s o
      .next ((s.turn 4).faultOp o fFrameOverrun u.1 u.2 [(4, o.budget), (4, o.frames), (8, o.units), (4, o.substep), (1, o.opc)])

/-- A target-1 UPDATE that completed DONE in REBUILT or CURRENT sets the mirror's LAST_STEP and makes it CURRENT
(R383). Whether a DIGEST over a CURRENT mirror, in a context with step tracking and from the mirror's VAs on, agreed with the
client's is firmware's to find, and no register takes its answer: VERIFIED is then a free value where it was 0 (log entry 141). -/
def State.mirrorDone (s : State) (o : Op) : State :=
  if o.opc == 7 && o.target == 1 && s.on Reg.RPL_MIR_CLIENT_VALID
      && (s.get Reg.RPL_MIR_CLIENT_STATE == 1 || s.get Reg.RPL_MIR_CLIENT_STATE == 3) then
    (s.put Reg.RPL_MIR_LAST_LAST_STEP (descBytes o.desc 48 8)).put Reg.RPL_MIR_CLIENT_STATE 1
  else if o.opc == 8 && s.on Reg.RPL_MIR_CLIENT_VALID && s.get Reg.RPL_MIR_CLIENT_STATE == 1 && !s.on Reg.RPL_MIR_CLIENT_VERIFIED
      && s.on (Reg.RPL_STEP_CTRL_ENABLE o.ctx) && s.mirOffset ≤ descBytes o.desc 24 8 then
    let f := s.fresh
    f.2.put Reg.RPL_MIR_CLIENT_VERIFIED (f.1 % 2)
  else s

/-- The completion signal of a descriptor whose record has been written (R187); held while ENABLE is 0 (R230). -/
def State.sigAfter (s : State) (o : Op) : State :=
  let ok := (o.fin.map fun f => f.1 == stDone || f.1 == stNotice) == some true
  let s1 := s.when ok fun t => t.mirrorDone o
  if !(o.flag 0 && ok) then s1
  else
    let vid := descBytes o.desc 56 2
    match s1.xtObj o.ctx vid false with
    | none => match s1.xtPoison o.ctx vid with
      | some pa => (s1.ueRecord o.party 6 0 pa).flushBreaks
      | none => s1.raise (o.faultRec fPermission 6 0 [(1, 6), (8, vid)])
    | some obj =>
      let u := Op.unit s o
      if s1.synOn then (s1.fillXt o.ctx vid).signal obj (descBytes o.desc 60 4) o.party u.1 u.2 vid
      else s1.holdSync (.completion obj (descBytes o.desc 60 4) o.party u.1 u.2 vid)

/-- An operation recorded before its DESCRIPTOR_COMPLETE, whose completion signal is due. -/
def State.sigOf (s : State) (r i : Nat) : Option Op := s.sub.sigDue.find? fun o => o.ring == r && o.idx == i

/-- DESCRIPTOR_COMPLETE (R187–R191): the record of a finished operation, in the order of completion of its ring, then its
completion signal. -/
def execDescriptorComplete (ring : Fin 256) (idx : Word) (e : MemErr) (s : State) : Host.Outcome State Fault Refusal :=
  match s.op? ring.val idx.toNat with
  | none =>
    match s.sigOf ring.val idx.toNat with
    | none => .next s
    | some o => .next ({ s with sub := { s.sub with sigDue := s.sub.sigDue.filter fun q => !(q.ring == o.ring && q.idx == o.idx) } }.sigAfter o)
  | some o =>
    match o.fin with
    | none => .next s
    | some (st, code) =>
      if s.nextFin ring.val != some o then .next s
      else if st == stRejected then .next (if s.cqFree o.ring then s.reject o code else s)
      else .next ((s.recordOp o st code e).sigAfter o).flushBreaks

/-! ### Contexts and progress records -/

/-- A write of SUB_CTXc_CTRL by firmware (R166, R167, R441): VCID and ACTIVATE while FREE, DUSK while ACTIVE, which acts at the next tick, also where a slice Dusk is announced for a later frame. -/
def State.writeCtxCtrl (s : State) (c v : Nat) : State :=
  let st := s.get (Reg.SUB_CTX_CTRL_STATE c)
  if st = 0 then
    let t1 := s.put (Reg.SUB_CTX_CTRL_VCID c) (bitsOf v 16 16)
    if bitOn v 2 then (t1.put (Reg.SUB_CTX_CTRL_STATE c) 1).refreshPower else t1
  else if st = 1 && bitOn v 3 then s.modCtx c fun x => { x with duskReq := some ((x.duskReq.filter fun d => d.frame.isNone || d.frame == some (s.frame + 1)).getD { tick := s.now + 1 }) }
  else s

/-- CONTEXT_ACTIVATE (R166, R167): firmware moves a FREE context to ACTIVE; VCID is written only while FREE. -/
def execContextActivate (p : Party) (ctx : Fin 64) (v : Word) (s : State) : Host.Outcome State Fault Refusal :=
  .next (s.fwOnly p fun t => t.writeCtxCtrl ctx.val v.toNat)

/-- The 32 bytes of a progress record (R192). -/
def Op.progress (o : Op) : List Byte :=
  leBytes 8 o.seq ++ leBytes 1 o.ring ++ leBytes 1 o.opc ++ leBytes 1 o.ctx
    ++ leBytes 1 (if o.fin.isSome then 2 else if o.issued then 1 else 0) ++ leBytes 2 o.gen ++ leBytes 2 o.vcid
    ++ leBytes 8 o.units ++ leBytes 4 o.frames ++ leBytes 4 o.substep

/-- The progress memory (R192): what the last reset found, until a descriptor is accepted (log entry 152), and the records of the
operations in flight, each by its ring and index. -/
def State.progAll (s : State) : List (Nat × Nat × List Byte) :=
  s.sub.progMem ++ s.ops.map fun o => (o.ring, o.idx % 65536, o.progress)
def State.progress (s : State) : List (List Byte) := s.progAll.map (·.2.2)

/-- The record that SUB_PROG_SEL selects (R196). -/
def State.progSel (s : State) : Option (List Byte) :=
  (s.progAll.find? fun x => x.1 == s.get Reg.SUB_PROG_SEL_RING && x.2.1 == s.get Reg.SUB_PROG_SEL_INDEX).map (·.2.2)

/-- The bytes of the selected progress record, 0 where none exists. -/
def State.progBytes (s : State) : List Byte := s.progSel.getD (List.replicate 32 0)

/-- SUB_PROG_DATA0_READ (R196, R502): bytes 0–3 of the record, and the latch of DATA1–7. -/
def execSubProgData0Read (s : State) : Host.Outcome State Fault Refusal :=
  let bs := s.progBytes
  let word (k : Nat) : Word := BitVec.ofNat 32 (leNat ((bs.drop (4 * k)).take 4))
  .next ((s.each (List.range 7) fun t k => t.setLatch (Reg.SUB_PROG_DATA (k + 1)) (word (k + 1))).answer (word 0))

/-! ### Device-resident rings (R198) -/

/-- POST (R198, R199): the descriptor goes to the next slot of a device-resident ring of the core's own context
with its sequence number, POSTs of several cores in the order of their arrival, and the ring is examined as for a kick. A
full ring stalls the core. -/
def execPost (core : Fin 144) (ring : Fin 256) (src : BitVec 22) (e : MemErr) (s : State) : Host.Outcome State Fault Refusal :=
  .next (s.issuePost core.val ring.val src.toNat s.sub.postCnt e)

/-! ### Mailboxes (R200–R206) -/

/-- Wake the receiving endpoint of a channel (R204): MSI-X vector 256 + n for the host with IRQ_EN, at most
once per frame and channel. -/
def State.mbxWake (s : State) (n endpoint : Nat) : State :=
  if endpoint == 0x1000 then
    if s.on (Reg.MBX_CH_WAKE_IRQ_EN n) && !(s.chan n).irqSent then
      (s.msix (256 + n)).setChan n { s.chan n with irqSent := true }
    else s
  else s.emit (.wake endpoint)

/-- A word joins a queue; at 8 words it replaces the newest (R202). The second answer tells of a collision. -/
def pushWord (q : List (Nat × Nat)) (w : Nat × Nat) : List (Nat × Nat) × Bool :=
  if q.length ≥ 8 then (q.take 7 ++ [w], true) else (q ++ [w], false)

/-- A word that an endpoint writes to a channel (R201, R202): with its writer's identity it joins the queue towards
the other endpoint; another party's write is ignored and counted. -/
def State.mbxTx (s : State) (who n w : Nat) : State :=
  let x := s.chan n
  let e0 := s.get (Reg.MBX_CH_CFG_E0 n)
  let e1 := s.get (Reg.MBX_CH_CFG_E1 n)
  if who == e0 then
    let q := pushWord x.to1 (w, who)
    (s.setChan n { x with to1 := q.1, coll1 := x.coll1 || q.2, collCnt := satAdd 65535 x.collCnt (b2n q.2) }).mbxWake n e1
  else if who == e1 then
    let q := pushWord x.to0 (w, who)
    (s.setChan n { x with to0 := q.1, coll0 := x.coll0 || q.2, collCnt := satAdd 65535 x.collCnt (b2n q.2) }).mbxWake n e0
  else (s.mark Reg.MBX_EVENT_FOREIGN).bump Reg.MBX_FOREIGN_CNT_COUNT

/-- MBX_TX (R201, R202). -/
def execMbxTx (who : BitVec 16) (ch : Fin 32) (w : Word) (s : State) : Host.Outcome State Fault Refusal :=
  .next (s.mbxTx who.toNat ch.val w.toNat)

/-- MBX_RX (R203): the oldest word is removed and returned and its sender latched; an empty queue returns 0
and latches 0. Another party's read returns 0 (R206). -/
def execMbxRx (who : BitVec 16) (ch : Fin 32) (s : State) : Host.Outcome State Fault Refusal :=
  let n := ch.val
  let x := s.chan n
  if who.toNat == s.get (Reg.MBX_CH_CFG_E0 n) then
    match x.to0 with
    | [] => .next ((s.setChan n { x with stamp0 := 0 }).answer 0)
    | q :: l => .next ((s.setChan n { x with to0 := l, stamp0 := q.2 }).answer (BitVec.ofNat 32 q.1))
  else if who.toNat == s.get (Reg.MBX_CH_CFG_E1 n) then
    match x.to1 with
    | [] => .next ((s.setChan n { x with stamp1 := 0 }).answer 0)
    | q :: l => .next ((s.setChan n { x with to1 := l, stamp1 := q.2 }).answer (BitVec.ofNat 32 q.1))
  else .next (s.answer 0)

end Sys2Proof.Machine
end

