-- ==== Sys2Proof/Machine/Fabric.lean ====
section
/-! DEFINITION. The slot switch: schedules and phases (R276–R279), launch and receipt of cells (R271, R280–R289),
retry (R252, R253), routing (R285–R290) and link keys (R301, R302). -/
namespace Sys2Proof.Machine

/-! ### Schedules (R276–R279) -/

/-- A schedule word: 0 the input word, 1 the output word. -/
def State.schedWord (s : State) (bank slot port w : Nat) : Nat := sget (fun _ => 0) s.fab.sched (2048 * bank + 32 * slot + 2 * port + w)

/-- The active bank. -/
def State.bank (s : State) : Nat := s.get Reg.SWT_SCHED_BANK_ACTIVE

def wordKind (w : Nat) : Nat := bitsOf w 0 2
def wordPort (w : Nat) : Nat := bitsOf w 2 4
def wordFlow (w : Nat) : Nat := bitsOf w 6 6
def wordOrigin (w : Nat) : Nat := bitsOf w 16 13

/-- The LOADED bit of a bank. -/
def loadedFld (b : Nat) : Reg.Fld := if b = 0 then Reg.SWT_SCHED_BANK_LOADED0 else Reg.SWT_SCHED_BANK_LOADED1

/-- The PA of a schedule image, and of the entry of a slot and port. The load reads the registers that hold the PA when it ends:
the manual does not say whether GO latches them, DESIGN CHOICE (log entry 153). -/
def State.imageBase (s : State) : Nat := s.get Reg.SWT_SCHED_LOAD_LO_PA_LO * 2 ^ 13 + s.get Reg.SWT_SCHED_LOAD_HI_PA_HI * 2 ^ 32
def State.imageWord (s : State) (slot port w : Nat) : Nat := s.natAt (s.imageBase + 128 * slot + 8 * port + 4 * w) 4

/-- The check of one entry of an image (R277): the REASON of its failure, 0 for none. -/
def State.entryError (s : State) (slot port : Nat) : Nat :=
  let a := s.imageBase + 128 * slot + 8 * port
  let i := s.imageWord slot port 0
  let o := s.imageWord slot port 1
  let src := s.imageWord slot (wordPort o) 0
  if s.poisoned a || !paExists a then 5
  else if wordKind i = 3 || bitsOf i 6 10 != 0 || bitsOf i 29 3 != 0 then 2
  else if wordKind o = 2 then
    if (List.range port).any fun q => wordKind (s.imageWord slot q 1) == 2 && wordPort (s.imageWord slot q 1) == wordPort o then 4
    else if wordKind src != 2 || wordPort src != port then 3
    else 0
  else 0

/-- The first entry of an image that fails: REASON, slot, port. -/
def State.imageError (s : State) : Option (Nat × Nat × Nat) :=
  ((List.range 1024).find? fun n => s.entryError (n / 16) (n % 16) != 0).map fun n => (s.entryError (n / 16) (n % 16), n / 16, n % 16)

/-- A write of SWT_SCHED_LOAD_CTRL (R277, R305): BANK, and GO, ignored while BUSY = 1; GO clears LOADED at once and stays set
until the load ends, which the manual does not say (log entry 131). -/
def State.writeSchedLoad (s : State) (v : Nat) : State :=
  if s.on Reg.SWT_SCHED_LOAD_CTRL_BUSY then s.put Reg.SWT_SCHED_LOAD_CTRL_BANK (bitsOf v 0 1)
  else
    let b := bitsOf v 0 1
    let s1 := s.put Reg.SWT_SCHED_LOAD_CTRL_BANK b
    if !bitOn v 1 then s1
    else
      let busy := s1.bank == b || (s1.fab.swap.map (·.1)) == some b
      let s2 := ((((s1.put (loadedFld b) 0).mark Reg.SWT_SCHED_LOAD_CTRL_GO).mark Reg.SWT_SCHED_LOAD_CTRL_BUSY).put Reg.SWT_SCHED_LOAD_CTRL_ERROR 0).put Reg.SWT_SCHED_LOAD_CTRL_REASON 0
      ((s2.put Reg.SWT_SCHED_LOAD_CTRL_ERR_SLOT 0).put Reg.SWT_SCHED_LOAD_CTRL_ERR_PORT 0).modFab fun f => { f with load := some (b, busy) }

/-- SCHED_LOAD (R277). -/
def execSchedLoad (p : Party) (v : Word) (s : State) : Host.Outcome State Fault Refusal :=
  .next (s.fwOnly p fun t => t.writeSchedLoad v.toNat)

/-- A failed load reports its reason and place (R277). -/
def State.loadFails (s : State) (reason slot port : Nat) : State :=
  ((((s.mark Reg.SWT_SCHED_LOAD_CTRL_ERROR).put Reg.SWT_SCHED_LOAD_CTRL_REASON reason).put Reg.SWT_SCHED_LOAD_CTRL_ERR_SLOT slot).put
    Reg.SWT_SCHED_LOAD_CTRL_ERR_PORT port).mark Reg.SWT_EVENT_LOAD_ERROR

/-- SCHED_LOAD_DONE (R277): the image is checked and copied; BUSY and GO clear. -/
def execSchedLoadDone (s : State) : Host.Outcome State Fault Refusal :=
  match s.fab.load with
  | none => .next s
  | some (b, refused) =>
    let s1 := ((s.put Reg.SWT_SCHED_LOAD_CTRL_BUSY 0).put Reg.SWT_SCHED_LOAD_CTRL_GO 0).modFab fun f => { f with load := none }
    if refused then .next (s1.loadFails 1 0 0)
    else match s1.imageError with
      | some e => .next (s1.loadFails e.1 e.2.1 e.2.2)
      | none =>
        let put (m : Sparse Nat) (n : Nat) : Sparse Nat := sset (fun _ => 0) m (2048 * b + n) (s1.natAt (s1.imageBase + 4 * n) 4)
        .next ((s1.mark (loadedFld b)).modFab fun f => { f with sched := (List.range 2048).foldl put f.sched })

/-- PHASE (R278): at issue, a swap to the active bank is done at once, one while another is pending or to an empty
bank is rejected, and otherwise it becomes pending for its frame. -/
def execPhase (ring : Fin 256) (s : State) : Host.Outcome State Fault Refusal :=
  match s.ready ring.val 9 with
  | none => .next s
  | some o =>
    let b := descBytes o.desc 16 1 % 2
    let f := descBytes o.desc 24 8
    if s.bank = b then .next ((s.issue o 0).finish o stDone 0)
    else if s.fab.swap.isSome || !s.on (loadedFld b) then .next ((s.raise (o.faultRec fPermission 12 0 [(1, 10), (8, b)])).reject o fPermission)
    else
      let at_ := if f ≤ s.frame then s.frame + 1 else f
      .next ((((s.issue o 0).mark Reg.SWT_STATUS_SWAP_PENDING).put64 Reg.SWT_SWAP_FRAME_LO_FRAME Reg.SWT_SWAP_FRAME_HI_FRAME at_).modFab
        fun x => { x with swap := some (b, at_, o.order) })

/-- Whether a bank has a FIXED entry of a flow on a port. -/
def State.hasFlow (s : State) (b p f : Nat) : Bool :=
  (List.range 64).any fun slot => let w := s.schedWord b slot p 1; wordKind w == 1 && wordFlow w == f

/-- Cells of flows without a FIXED entry in the new bank move, in order, to the open queue of their port (R279).
Among the cells that wait there already each takes the place that its age gives: the manual does not say, DESIGN CHOICE (log
entry 154). -/
def State.moveFlows (s : State) (b : Nat) : State :=
  let gone (q : QCell) : Bool := match q.queue with
    | .flow p f => q.flight.isNone && !s.hasFlow b p f
    | _ => false
  let n := (s.fab.cells.filter gone).length
  let move (q : QCell) : QCell := match q.queue with
    | .flow p _ => if gone q then { q with queue := .own p } else q
    | _ => q
  ((s.bump Reg.SWT_FLOW_MOVE_CNT_COUNT n).when (n != 0) fun t => t.mark Reg.SWT_EVENT_FLOW_MOVE).modFab fun x => { x with cells := x.cells.map move }

/-- SCHEDULE_SWAP (R278): at the tick of its frame the pending bank becomes active, and its PHASE, if still in
flight, is done. -/
def execScheduleSwap (s : State) : Host.Outcome State Fault Refusal :=
  match s.fab.swap with
  | none => .next s
  | some (b, f, n) =>
    if s.frame < f || 5 < s.time.pos then .next s
    else
      let s1 := (((s.turn 5).put Reg.SWT_SCHED_BANK_ACTIVE b).put Reg.SWT_STATUS_ACTIVE_BANK b).put Reg.SWT_STATUS_SWAP_PENDING 0
      let s2 := ((s1.mark Reg.SWT_EVENT_SWAP_DONE).modFab fun x => { x with swap := none }).moveFlows b
      match s2.opNo? n with
      | some o => .next (s2.finish o stDone 0)
      | none => .next s2

/-! ### Launch (R252, R253, R271, R282–R284, R301) -/

/-- Why an EXPRESS entry from an input to an output port degrades (R284): a cause now, or at the last tick. -/
def State.degraded (s : State) (inp out : Nat) : Bool :=
  s.on Reg.FTB_STATUS_TERM_ONLY || s.fab.termTick || !s.on (Reg.SWT_PORT_DELAY_EXPRESS_OK out) || !(s.port out).okTick
    || !s.on (Reg.OPT_PORT_STATUS_UP inp) || !(s.port inp).upTick || !s.on (Reg.OPT_PORT_STATUS_UP out) || !(s.port out).upTick

/-- What the tick notes for R284. -/
def State.noteExpress (s : State) : State :=
  let s1 := s.modFab fun f => { f with termTick := s.on Reg.FTB_STATUS_TERM_ONLY }
  s1.each (List.range 16) fun t p => t.modPort p fun x => { x with
    upTick := t.on (Reg.OPT_PORT_STATUS_UP p), okTick := t.on (Reg.SWT_PORT_DELAY_EXPRESS_OK p) }

/-- The output kind of a slot on a port: a degraded EXPRESS output behaves as OPEN (R284). -/
def State.outKind (s : State) (slot p : Nat) : Nat :=
  let w := s.schedWord s.bank slot p 1
  if wordKind w = 2 && s.degraded (wordPort w) p then 3 else wordKind w

/-- A waiting cell that may leave by flow f of a port: of the flow's queue, or of a buffer whose route names it. -/
def State.inFlow (s : State) (p f : Nat) (q : QCell) : Bool :=
  q.flight.isNone && match q.queue with
    | .flow p' f' => p' == p && f' == f
    | .own _ => false
    | .buf _ _ =>
      let e := s.route q.cell.dest.toNat
      s.outPort e == p && s.outFlow e == some f

/-- The requester of an OPEN slot on a port that a waiting cell belongs to (R283): 2i and 2i + 1 the open and fixed
buffer of Pi, 32 the module's own open queue. -/
def State.requester (s : State) (p : Nat) (q : QCell) : Option Nat :=
  if q.flight.isSome then none
  else match q.queue with
    | .own p' => if p' == p then some 32 else none
    | .flow _ _ => none
    | .buf i fixed =>
      let e := s.route q.cell.dest.toNat
      if routeValid e && s.outPort e == p && (s.outFlow e).isNone then some (2 * i + b2n fixed) else none

/-- The requester served next, round robin after the one served last (R283). -/
def State.nextRequester (s : State) (p : Nat) : Option Nat :=
  ((List.range 33).map fun k => ((s.port p).served + 1 + k) % 33).find? fun r => s.fab.cells.any fun q => s.requester p q == some r

/-- The cell that a slot on a port launches, and the requester served for an OPEN slot. -/
def State.toLaunch (s : State) (slot p term : Nat) : Option (QCell × Option Nat) :=
  if (s.port p).heldBy.contains term then none
  else if s.outKind slot p = 1 then (s.fab.cells.find? (s.inFlow p (wordFlow (s.schedWord s.bank slot p 1)))).map fun q => (q, none)
  else if s.outKind slot p = 3 && (s.port p).credits > 0 && term = s.peer p then
    (s.nextRequester p).bind fun r => (s.fab.cells.find? fun q => s.requester p q == some r).map fun q => (q, some r)
  else none

/-- The bit of SWT_SLICE that tells whether a key slot holds a key (R302). -/
def keyFld (k : Nat) : Reg.Fld := if k = 0 then Reg.SWT_SLICE_KEY0_VALID else Reg.SWT_SLICE_KEY1_VALID

/-- The key slot of launches. -/
def State.keySlot (s : State) : Nat := s.get Reg.SWT_STATUS_KEY_SLOT

/-- A cell that this module originates: it waits in a queue of its own, not in a forwarding buffer. -/
def QCell.mine (q : QCell) : Bool := match q.queue with
  | .buf _ _ => false
  | _ => true

/-- The key of a link slot (R302). -/
def State.linkKey (s : State) (k : Nat) : Nat := sget (fun _ => 0) s.sec.linkKeys k

/-- A cell as its origin sends it (R271, R301): with ENC encrypted under the key of the launch slot and the next NONCE. -/
def State.sealed (s : State) (c : Cell) : Cell × State :=
  if !s.on Reg.SWT_SLICE_ENC then (c, s)
  else
    let n := sget (fun _ => 0) s.fab.nonces s.keySlot + 1
    (({ c with flags := c.flags ||| 1, key := BitVec.ofNat 8 s.keySlot, nonce := BitVec.ofNat 64 n } : Cell).encrypt (s.linkKey s.keySlot),
     s.modFab fun f => { f with nonces := sset (fun _ => 0) f.nonces s.keySlot n })

/-- The CRC-32C of each 4 KiB of a payload filled with zeros (R272, R341). -/
def blockChecks (payload : List Byte) : List Word :=
  (List.range 6).map fun k => BitVec.ofNat 32 (crc32c (((payload.drop (4096 * k)).take 4096) ++ List.replicate (4096 - min 4096 (payload.length - 4096 * k)) 0))

/-- The block checks of a payload that leaves for a context (R272): of block-check mode, else 0. -/
def State.checksOf (s : State) (c type : Nat) (payload : List Byte) : List Word :=
  if s.blockMode c && type != 2 then blockChecks payload else List.replicate 6 0

/-- The ACTIVE context of a VCID (R288). -/
def State.ctxOf (s : State) (vcid : Nat) : Option Nat := (List.range 64).find? fun c => s.active c && s.vcid c == vcid

/-- What a cell of this module carries at a launch: BIRTH is the frame of its first (R271); at a relaunch the payload is read
again from the source memory, where it came from there (R253). -/
def State.readAgain (s : State) (q : QCell) : Cell :=
  if q.lseq.isNone then { q.cell with birth := BitVec.ofNat 16 s.frame }
  else match q.src, s.ctxOf q.cell.vcid.toNat with
    | [], _ => q.cell
    | _, none => q.cell
    | l, some c => { q.cell with payload := l.map s.paByte, bchk := s.checksOf c q.cell.type.toNat (l.map s.paByte) }

/-- The light of a slot on a port (R234, R250, R272): a cell with its CRC. -/
def State.emitSlot (s : State) (slot p : Nat) (c : Cell) : State := s.emit (.slot slot p (s.txSpare p) (s.training p) c.withCrc)

/-- The headers of the last 256 cells of a port (R430), newest first. -/
def noteHead (l : List (List Byte)) (c : Cell) : List (List Byte) := (c.header :: l).take 256

/-- A cell leaves on a port towards a terminating module (R252, R253): with its original link sequence when it is
relaunched. A cell of this module is sealed; a forwarded one leaves as it came. -/
def State.launchCell (s : State) (slot p term : Nat) (q : QCell) (served : Option Nat) : State :=
  let key := p * 8192 + term
  let n := q.lseq.getD (sget (fun _ => 0) s.fab.txLseq key)
  let c0 := if q.mine then s.readAgain q else q.cell
  let r := if q.mine then s.sealed c0 else (c0, s)
  let c : Cell := { r.1 with lseq := BitVec.ofNat 16 n }
  let q1 : QCell := { q with cell := { c0 with lseq := BitVec.ofNat 16 n }, lseq := some n, flight := some (p, term, s.now) }
  let s1 := r.2.modFab fun f => { f with
    cells := (f.cells.takeWhile (· != q)) ++ q1 :: (f.cells.dropWhile (· != q)).drop 1
    txLseq := if q.lseq.isSome then f.txLseq else sset (fun _ => 0) f.txLseq key ((n + 1) % 65536) }
  let s2 := s1.when q.lseq.isSome fun t => t.bump (Reg.OPT_PORT_RETRY_CNT_COUNT p)
  let s3 := match served with
    | some k => s2.modPort p fun x => { x with served := k, credits := x.credits - 1 }
    | none => s2
  (s3.modPort p fun x => { x with txHeads := noteHead x.txHeads c }).emitSlot slot p c

/-- A slot without traffic carries an idle cell (R273, R276, R286). -/
def State.idleSlot (s : State) (slot p : Nat) : State := s.emitSlot slot p (idleCell s.moduleId s.sliceTag)

/-- The operation of a cell, while it lasts. -/
def State.cellOp (s : State) (q : QCell) : Option Op := q.owner.bind fun w => s.op? w.ring w.idx

/-- What a relaunch meets that reads its payload from the source memory again (R157, R253, R341). -/
def State.relaunchErr (s : State) (q : QCell) : ReadErr :=
  match if q.lseq.isSome && !q.src.isEmpty then s.ctxOf q.cell.vcid.toNat else none with
  | some c => s.readErr c q.src {}
  | none => .none

/-- An access that the module makes for another module's READ_REQ fails: a record, and its code refused to the origin
(R288). -/
def State.readRefused (s : State) (c dest gen xfer code : Nat) (detail : List (Nat × Nat)) : State :=
  let t := s.raise { code := code, unitKind := 3, p1 := some (s.ctxParty c), detail := detail }
  t.sendTo t.moduleId dest (.link (t.linkMsg 6 code dest 0 0 0 gen xfer))

/-- What a read for a READ_REQ meets: none, or the state in which it has been refused. -/
def State.readFails (s : State) (c dest gen xfer : Nat) : ReadErr → Option State
  | .none => none
  | .ue pa => let q := s.consumeUe pa (some c); some (q.2.readRefused c dest gen xfer fMemUe q.1)
  | .parity pa => some ((s.countCheck 6 2 0 (pa % 4096) (some c)).readRefused c dest gen xfer fCheckFail (checkDetail 6 0 (pa / 4096 * 4096)))
  | .chk pa => some ((s.countCheck 1 3 (memOf pa) (pa % 4096) (some c)).readRefused c dest gen xfer fCheckFail (checkDetail 1 0 (pa / 4096 * 4096)))

/-- A relaunch that cannot read its payload ends its operation, or the answer to another module's READ_REQ with the cells that
wait of it. -/
def State.relaunchFails (s : State) (q : QCell) (x : ReadErr) : State :=
  match s.cellOp q, s.ctxOf q.cell.vcid.toNat with
  | some o, _ => s.readStop o (Op.unit s o) 1 x
  | none, some c =>
    let mine (y : QCell) : Bool := y.mine && y.flight.isNone && y.owner.isNone && y.cell.type == q.cell.type && y.cell.dest == q.cell.dest && y.cell.xfer == q.cell.xfer
    let t := s.modFab fun f => { f with cells := f.cells.filter fun y => !mine y }
    (t.readFails c q.cell.dest.toNat q.cell.gen.toNat q.cell.xfer.toNat x).getD t
  | none, none => s

/-- CELL_LAUNCH (R283): the head of the slot's flow, or in an OPEN slot the next requester's cell against a credit;
a slot with nothing to send carries an idle cell, and an EXPRESS slot the light of its input (CELL_RECEIVE). `term` is the
module that terminates the slot's path. -/
def execCellLaunch (slot : Fin 64) (port : Fin 16) (term : BitVec 13) (s : State) : Host.Outcome State Fault Refusal :=
  let p := port.val
  if s.switchRelay || !s.bypOpen p || s.on (Reg.OPT_PORT_STATUS_GAP p) || s.outKind slot.val p = 2 then .next s
  else if !s.canLaunch p || s.sliceTag = 0 then .next (s.idleSlot slot.val p)
  else match s.toLaunch slot.val p term.toNat with
    | none => .next (s.idleSlot slot.val p)
    | some (q, served) =>
      if s.on Reg.SWT_SLICE_ENC && q.mine && !s.on (keyFld s.keySlot) then .next (s.idleSlot slot.val p)
      else match s.relaunchErr q with
        | .none => .next (s.launchCell slot.val p term.toNat q served)
        | x => .next ((s.relaunchFails q x).idleSlot slot.val p)

/-! ### Transfers (R271, R289) -/

/-- A cell of this module for a context (R271). -/
def State.newCell (s : State) (c type flags dest xfer index addr tensor : Nat) (payload : List Byte) : Cell :=
  { type := BitVec.ofNat 8 type, flags := BitVec.ofNat 8 flags, slice := BitVec.ofNat 12 s.sliceTag,
    dest := BitVec.ofNat 13 dest, src := BitVec.ofNat 13 s.moduleId, vcid := BitVec.ofNat 16 (s.vcid c),
    epoch := BitVec.ofNat 16 (s.get (Reg.SYN_CTX_EPOCH_EPOCH c)), gen := BitVec.ofNat 16 (s.gen c), lseq := 0, hops := 0,
    key := 0, length := BitVec.ofNat 16 payload.length, xfer := BitVec.ofNat 32 xfer, addr := BitVec.ofNat 64 addr,
    index := BitVec.ofNat 32 index, group := 0, tensor := BitVec.ofNat 32 tensor, birth := 0, nonce := 0, payload := payload,
    bchk := s.checksOf c type payload }

/-- The maximal runs of consecutive addresses, each with its bytes, none longer than a cell's payload. -/
def runs : List (Nat × Byte) → List (Nat × List Byte)
  | [] => []
  | (a, b) :: l =>
    match runs l with
    | (a', bs) :: r => if a' = a + 1 && bs.length < 24576 then (a, b :: bs) :: r else (a, [b]) :: (a', bs) :: r
    | [] => [(a, [b])]

/-- The source PAs of a run of cells, by the cells' lengths; none where the bytes did not come from memory. -/
def splitPas : List Nat → List Nat → List (List Nat)
  | [], _ => []
  | n :: l, pas => pas.take n :: splitPas l (pas.drop n)

/-- The owner of an operation's transfers. -/
def Op.owner (o : Op) : Owner := ⟨o.ring, o.idx, o.ctx⟩

/-- A transfer begins (R271, R289): its cells join a queue, the last with LAST, and its report is awaited. -/
def State.addXfer (s : State) (own : Owner) (gen dest : Nat) (q : Queue) (cells : List (Cell × List Nat)) : State :=
  s.modFab fun f => { f with
    nextXfer := (f.nextXfer + 1) % 2 ^ 32
    cells := f.cells ++ cells.map fun c => { cell := c.1, queue := q, owner := some own, src := c.2 }
    xfers := f.xfers ++ [{ num := f.nextXfer, owner := own, dest := dest, gen := gen, unacked := cells.length
                           lens := cells.map fun c => c.1.payload.length }] }

/-- Queue the cells of a WRITE transfer to a module (R271, R289), from source PAs. -/
def State.sendWrite (s : State) (own : Owner) (gen dest flags : Nat) (src : List Nat) (w : List (Nat × Byte)) : State :=
  let rs := runs w
  let n := rs.length
  let cells := rs.mapIdx fun k r => s.newCell own.ctx 1 (flags + if k + 1 = n then 2 else 0) dest s.fab.nextXfer k r.1 0 r.2
  s.addXfer own gen dest (s.ownQueue dest) (cells.zip (splitPas (rs.map (·.2.length)) src))

/-- The payload lengths of the READ_DATA cells of n bytes. -/
def readLens (n : Nat) : List Nat := (List.range (ceilDiv n 24576)).map fun k => min 24576 (n - 24576 * k)

/-- The half of a shape block that describes a contiguous run of bytes; the run ends inside its last row. -/
def runHalf (n : Nat) : List Byte :=
  let row (k : Nat) : Nat := min 65535 (ceilDiv n (65536 ^ k) - 1)
  ((List.range 4).flatMap fun k => leBytes 2 (row k)) ++ (List.range 4).flatMap fun k => leBytes 6 (65536 ^ k)

/-- Queue a READ_REQ (R271): the source half of the shape, the range of cells, and, which the manual does not place, the
element size, the number of bytes and the destination VA. -/
def State.sendRead (s : State) (own : Owner) (gen dest addr : Nat) (shape : List Byte) (esz base : Nat) (sp : Bool) (dst : List Nat) : State :=
  let num := s.fab.nextXfer
  let c := s.newCell own.ctx 2 2 dest num 0 addr 0
    (shape ++ leBytes 4 0 ++ leBytes 4 (ceilDiv dst.length 24576) ++ leBytes 8 esz ++ leBytes 8 dst.length ++ leBytes 8 base)
  (s.addXfer own gen dest (s.ownQueue dest) [(c, [])]).modFab fun f => { f with
    xfers := f.xfers.map fun x => if x.num == num && !x.dead then { x with lens := readLens dst.length } else x
    readDst := f.readDst ++ [{ num := num, owner := own, sp := sp, dst := dst }] }

/-! ### The engines' transfers (R377, R391, R404) -/

/-- The transfers of a running owner. -/
def State.xfersOf (s : State) (w : Owner) : List Xfer := s.fab.xfers.filter fun x => x.owner == w && !x.dead

/-- Every transfer of an owner has been acknowledged and delivered. -/
def State.xfersDone (s : State) (w : Owner) : Bool := (s.xfersOf w).all fun x => x.delivered && x.unacked == 0

/-- The ended transfers of an owner are forgotten. -/
def State.dropXfers (s : State) (w : Owner) : State := s.modFab fun f => { f with xfers := f.xfers.filter fun x => x.owner != w || x.dead }

/-- The first waiting write to the checkpoint's target module leaves, as one transfer of WRITE cells (R404). -/
def State.sendOutbox (s : State) : State :=
  match s.ckp.outbox with
  | [] => s
  | (a, bs) :: l =>
    let m := s.get Reg.RPL_CKPT_TGT_CFG_MODULE
    (s.sendWrite (ckptEngine s.ckptCtx) (s.gen s.ckptCtx) m 0 [] (bs.mapIdx fun k b => (a + k, b))).modCkp fun k => { k with outbox := l }

/-- The checkpoint engine has nothing on its way to a target module. -/
def State.outboxIdle (s : State) : Bool := s.ckp.outbox.isEmpty && (s.xfersOf (ckptEngine s.ckptCtx)).isEmpty

/-- The END record's PI is visible (R405): the checkpoint exists. -/
def State.ckptComplete (s : State) : State :=
  let s1 := ((s.setCkpt 2).mark Reg.RPL_CKPT_EVENT_DONE).modCkp fun k => { k with endSent := false }
  (s1.put Reg.RPL_CKPT_PREV_EPOCH s.ckp.cutEpoch).put Reg.RPL_CKPT_PREV_VALID 1

/-! ### The guest copy of an input set (R368, R370, R382) -/

/-- The learning context: the lowest ACTIVE one with step tracking. -/
def State.learnCtx (s : State) : Option Nat := (List.range 64).find? fun c => s.active c && s.on (Reg.RPL_STEP_CTRL_ENABLE c)

/-- The VA of the ring's window in a context (R366): that of its first page. -/
def State.ringVa (s : State) (c : Nat) : Option Nat :=
  let base := s.get Reg.RPL_RING_BASE_LO_PA_LO * 2 ^ 16 + s.get Reg.RPL_RING_BASE_HI_PA_HI * 2 ^ 32
  (s.mappedVas c).find? fun va => (s.walkTable c va).map (·.page) == some base

/-- The pages of a set, by their positions in the ring (R367). -/
def State.setPages (s : State) (t : InSet) : List Nat := (List.range t.pages).map fun k => (t.first + k) % max 1 (s.get Reg.RPL_RING_CFG_PAGES)

/-- The 12 bytes of a set's slot data: as RPL_SET_DATA0–2 show it SEALED (R395). -/
def InSet.slotBytes (t : InSet) : List Byte := leBytes 4 t.step ++ leBytes 4 (t.first + 2 ^ 22 * 3) ++ leBytes 4 t.pages

/-- The ADDR of a cell of slot data, which is no VA: the manual gives the message no form, DESIGN CHOICE (log entry 63). -/
def slotAddr : Nat := 2 ^ 63

/-- The slot data of every set that the partner holds or is about to hold leaves in one WRITE cell (R368). -/
def State.sendSlots (s : State) (w : Owner) : State :=
  let bs := (s.rpl.sets.filter fun (t : InSet) => 2 ≤ t.state).flatMap InSet.slotBytes
  let m := s.get Reg.RPL_MIR_PARTNER_MODULE
  let cell := s.newCell w.ctx 1 6 m s.fab.nextXfer 0 slotAddr 0 bs
  let t := s.addXfer w (s.gen w.ctx) m (s.ownQueue m) [(cell, [])]
  { t with rpl := { t.rpl with slotDue := false } }

/-- An engine goes on when a transfer of its has ended: the load counts its pages and with all of them read goes on to the
rebuild of the derived pages (R391), the restore waits for all of its pages (R377), the checkpoint's next write follows the one
that has become visible, until with the END record's the checkpoint is complete (R404, R405), and the slot data of a guest
copy follows the copy (R368). -/
def State.engineStep (s : State) (w : Owner) : State :=
  if w.idx = 1 then
    let t := s.put Reg.RPL_DAYBREAK_STATUS_PAGES (min (2 ^ 29 - 1)
      (s.get Reg.RPL_DAYBREAK_STATUS_PAGES + ((s.xfersOf w).filter fun x => x.delivered && x.unacked == 0).length))
    let t1 := t.modFab fun f => { f with xfers := f.xfers.filter fun x => !(x.owner == w && !x.dead && x.delivered && x.unacked == 0) }
    if s.xfersDone w && s.get Reg.RPL_DAYBREAK_STATUS_STATE == 1 then t1.put Reg.RPL_DAYBREAK_STATUS_STATE 2 else t1
  else if w.idx = 4 then s.modFab fun f => { f with xfers := f.xfers.filter fun x => !(x.owner == w && !x.dead && x.delivered && x.unacked == 0) }
  else if !s.xfersDone w then s
  else
    let t := s.dropXfers w
    if w.idx = 2 then
      if !t.ckp.outbox.isEmpty then t.sendOutbox
      else if t.ckp.endSent && t.ckptState == 1 then t.ckptComplete
      else t
    else if w.idx = 3 && t.rpl.slotDue then t.sendSlots w
    else t

/-! ### Answers to launched cells (R252, R253, R283, R289) -/

/-- The payload bytes at the head of a transfer that are known to have reached its destination (R193). -/
def Xfer.headBytes (x : Xfer) : Nat :=
  (((List.range x.lens.length).takeWhile x.landed.contains).map fun k => x.lens.getD k 0).foldl (· + ·) 0

/-- Progress of an operation by its transfers (R193): a DMA's units of 4 KiB at the head of its destination, and a COLL's hops
in the engine's order. -/
def State.countUnits (s : State) (w : Owner) : State :=
  let l := s.xfersOf w
  s.modOp w.ring w.idx fun o =>
    if o.opc = 2 then { o with units := (l.map Xfer.headBytes).foldl (· + ·) 0 / 4096 }
    else { o with substep := (l.takeWhile (·.delivered)).length }

/-- A COLL still has its result to form or write. -/
def State.collOpen (s : State) (w : Owner) : Bool := s.fab.colls.any fun r => r.ring == w.ring && r.idx == w.idx

/-- An operation whose transfers have all been acknowledged and delivered completes (R289), a COLL once its result is written
too; an engine goes on. -/
def State.checkXfers (s : State) (w : Owner) : State :=
  match s.op? w.ring w.idx with
  | none => if w.engine then s.engineStep w else s
  | some o =>
    let l := s.xfersOf w
    if o.fin.isNone && !s.collOpen w && (o.opc = 3 || !l.isEmpty) && s.xfersDone w then
      let n := ((l.flatMap (·.lens)).foldl (· + ·) 0 + 4095) / 4096
      ((s.modOp o.ring o.idx fun x => { x with units := if o.opc = 2 then n else x.units, substep := if o.opc = 3 then l.length else x.substep }).finish
        o stDone 0).dropXfers w
    else s

/-- One credit goes back to the module that faces an input port (R283). -/
def State.giveCredit (s : State) (p : Nat) : State :=
  s.sendTo s.moduleId (s.peer p) (.link (s.linkMsg 7 0 (s.peer p) (s.farPort p (s.peer p)) 1 0 0 0))

/-- A refusal report of a cell to its source (R287, R288). -/
def State.refuseTo (s : State) (c : Cell) (code : Nat) : State :=
  s.sendTo s.moduleId c.src.toNat (.link (s.linkMsg 6 code c.src.toNat 0 0 0 c.gen.toNat c.xfer.toNat))

/-- A cell that waits in a buffer to be forwarded has lost its route (R287): it is dropped, counted, recorded and refused to its
source, and the credit of its place goes back (R283). -/
def State.bufferLost (s : State) (q : QCell) : State :=
  match q.queue with
  | .buf i fixed =>
    let t := s.modFab fun f => { f with cells := f.cells.filter (· != q) }
    ((t.routeMiss i 2 q.cell.src.toNat q.cell.dest.toNat s.sliceTag).refuseTo q.cell fRouteMiss).when (!fixed && q.paid) fun u => u.giveCredit i
  | _ => s

/-- A cell in flight has been acknowledged: it leaves the module, the credit of its place in an open buffer returns, and its
transfer counts it, as landed where the acknowledging module is its destination. -/
def State.cellAcked (s : State) (q : QCell) : State :=
  let s1 := s.modFab fun f => { f with cells := f.cells.filter (· != q) }
  let s2 := match q.queue with
    | .buf i false => s1.when q.paid fun t => t.giveCredit i
    | _ => s1
  match q.owner with
  | none => s2
  | some w =>
    let num := q.cell.xfer.toNat
    let home := (q.flight.map (·.2.1)) == some q.cell.dest.toNat
    let count (x : Xfer) : Xfer :=
      if x.num == num && x.owner == w then { x with
        unacked := x.unacked - 1, lastAck := (if x.unacked = 1 then some s.now else x.lastAck)
        landed := if home && q.cell.type != 2 then q.cell.index.toNat :: x.landed else x.landed } else x
    ((s2.modFab fun f => { f with xfers := f.xfers.map count }).countUnits w).checkXfers w

/-- The cells in flight on a port to a module. -/
def State.flights (s : State) (p m : Nat) : List QCell :=
  s.fab.cells.filter fun q => (q.flight.map fun f => f.1 == p && f.2.1 == m) == some true

/-- LINK_ACK (R252): a cumulative ACK of a terminating module ends the flight of the cells up to its sequence on the port that
it names. -/
def execLinkAck (port : Fin 16) (m : LinkMsg) (s : State) : Host.Outcome State Fault Refusal :=
  .next (s.heardOn port.val fun t =>
    t.each ((t.flights m.port.toNat m.src.toNat).filter fun q => (m.lseq.toNat + 65536 - q.lseq.getD 0) % 65536 < 32768) State.cellAcked)

/-- A refused cell returns to the head of its queue (R253); a cell whose descriptor has ended is discarded (R423,
R442), and the eighth refusal raises LINK_DOWN. -/
def State.refuseCell (s : State) (q : QCell) (counts : Bool) : State :=
  let p := (q.flight.map (·.1)).getD 0
  let rest := s.fab.cells.filter (· != q)
  let drained := match q.owner with
    | some w => s.gen w.ctx != q.cell.gen.toNat
    | none => q.mine && (s.ctxOfVcid q.cell.vcid.toNat).isNone
  if !q.mine && !routeValid (s.route q.cell.dest.toNat) then s.bufferLost q
  else
  let gone := drained || match q.owner with
    | some w => if w.engine then !((s.xfersOf w).any fun x => x.num == q.cell.xfer.toNat) else (s.op? w.ring w.idx).isNone
    | none => false
  if gone then
    (s.modFab fun f => { f with cells := rest }).when drained fun t => t.bump Reg.HRC_STALE_CNT_COUNT
  else
    let n := q.refusals + b2n counts
    let s1 := s.modFab fun f => { f with cells := { q with flight := none, refusals := n } :: rest }
    if n ≥ 8 && counts then s1.linkDown p 1 else s1

/-- The cell in flight that an answer names. -/
def State.answered (s : State) (p m lseq : Nat) : Option QCell := (s.flights p m).find? fun q => q.lseq == some lseq

/-- The cell that an answer names is refused. -/
def State.refuseNamed (s : State) (m : LinkMsg) (counts : Bool) : State :=
  match s.answered m.port.toNat m.src.toNat m.lseq.toNat with
  | none => s
  | some q => s.refuseCell q counts

/-- LINK_NAK (R253). -/
def execLinkNak (port : Fin 16) (m : LinkMsg) (s : State) : Host.Outcome State Fault Refusal :=
  .next (s.heardOn port.val fun t => t.refuseNamed m true)

/-- HOLD_REFUSAL (R248, R253): the cell waits, uncounted, until the module sends RESUME. -/
def execHoldRefusal (port : Fin 16) (m : LinkMsg) (s : State) : Host.Outcome State Fault Refusal :=
  .next (s.heardOn port.val fun t => (t.modPort m.port.toNat fun x =>
    { x with heldBy := if x.heldBy.contains m.src.toNat then x.heldBy else m.src.toNat :: x.heldBy }).refuseNamed m false)

/-- RESUME (R248). -/
def execResume (port : Fin 16) (m : LinkMsg) (s : State) : Host.Outcome State Fault Refusal :=
  .next (s.heardOn port.val fun t => t.modPort m.port.toNat fun x => { x with heldBy := x.heldBy.filter (· != m.src.toNat) })

/-- CREDIT (R283): at most 16 credits. -/
def execCredit (port : Fin 16) (m : LinkMsg) (s : State) : Host.Outcome State Fault Refusal :=
  .next (s.heardOn port.val fun t => t.modPort m.port.toNat fun x => { x with credits := min 16 (x.credits + m.count.toNat) })

/-- CELL_INFLIGHT_TIMEOUT (R252): a cell without an answer for 16 frames counts as refused. -/
def execCellInflightTimeout (port : Fin 16) (term : BitVec 13) (lseq : BitVec 16) (s : State) : Host.Outcome State Fault Refusal :=
  match s.answered port.val term.toNat lseq.toNat with
  | none => .next s
  | some q => if (q.flight.map fun f => decide (f.2.2 + 16 ≤ s.now)) == some true then .next (s.refuseCell q true) else .next s

/-- The transfer that a report names, by number. -/
def State.xferOf (s : State) (num : Nat) : Option Xfer := s.fab.xfers.find? fun x => x.num == num

/-- A report that names another generation than the context's is dropped (R289). -/
def State.staleReport (s : State) : State := (s.bump Reg.SWT_STALE_CNT_COUNT).mark Reg.SWT_EVENT_STALE

/-- The report that a transfer without its descriptor still awaited has come. -/
def State.dropDead (s : State) (x : Xfer) : State := if x.dead then s.modFab fun f => { f with xfers := f.xfers.filter (· != x) } else s

/-- DELIVERED (R289). -/
def execDelivered (m : LinkMsg) (s : State) : Host.Outcome State Fault Refusal :=
  match s.xferOf m.xfer.toNat with
  | none => .next s
  | some x =>
    if m.gen.toNat != s.gen x.owner.ctx then .next (s.staleReport.dropDead x)
    else if x.dead then .next (s.dropDead x)
    else .next (((s.modFab fun f => { f with xfers := f.xfers.map fun y => if y == x then
      { y with delivered := true, landed := List.range y.lens.length } else y }).countUnits x.owner).checkXfers x.owner)

/-- The DETAIL of a fault that a refusal brings to the source's descriptor (R446): what the 16-byte message does not
carry is a free value. -/
def State.refusalOf (s : State) (code dest epoch : Nat) : List (Nat × Nat) × State :=
  let a := s.fresh
  let b := a.2.fresh
  let v := a.1 % 256
  if code = fPermission then ([(1, 8), (8, 0)], s)
  else if code = fStaleContext then ([(2, s.moduleId), (2, epoch), (2, a.1 % 65536), (1, 2)], a.2)
  else if code = fRouteMiss then ([(1, v), (1, b.1 % 256), (2, s.moduleId), (2, dest), (2, s.sliceTag)], b.2)
  else if code = fMemUe then ([(1, v), (8, b.1 % 2 ^ 64)], b.2)
  else if code = fSealViolation then ([(2, s.moduleId), (1, v), (1, b.1 % 256)], b.2)
  else if code = fCheckFail then ([(1, v), (1, 1), (8, b.1 % 2 ^ 64)], b.2)
  else ([(8, a.1 % 2 ^ 64)], a.2)

/-- CELL_REFUSAL (R289): the descriptor ends FAULTED with the refusal's code, and an engine's work fails with it (R394,
R406). -/
def execCellRefusal (m : LinkMsg) (s : State) : Host.Outcome State Fault Refusal :=
  match s.xferOf m.xfer.toNat with
  | none => .next s
  | some x =>
    if m.gen.toNat != s.gen x.owner.ctx then .next (s.staleReport.dropDead x)
    else if x.dead then .next (s.dropDead x)
    else
      let r := s.refusalOf m.code.toNat x.dest (s.get (Reg.SYN_CTX_EPOCH_EPOCH x.owner.ctx))
      if x.owner.engine then .next (r.2.engineFails x.owner m.code.toNat r.1)
      else match s.op? x.owner.ring x.owner.idx with
        | none => .next s
        | some o => .next (r.2.faultOp o m.code.toNat (Op.unit s o).1 (Op.unit s o).2 r.1)

/-- DELIVERY_TIMEOUT (R289): no report within 16 frames of the last ACK; for an engine's reads, of the last cell of its data:
DESIGN CHOICE (log entry 142). -/
def execDeliveryTimeout (xfer : Word) (s : State) : Host.Outcome State Fault Refusal :=
  match s.xferOf xfer.toNat with
  | none => .next s
  | some x =>
    if x.dead || x.delivered || x.unacked != 0 || (x.lastAck.map fun t => decide (t + 16 ≤ s.now)) != some true then .next s
    else if x.owner.engine then
      .next (s.engineFails x.owner fLinkDown [(1, routePort (s.route x.dest)), (1, engineCause x.owner 5), (2, x.dest)])
    else match s.op? x.owner.ring x.owner.idx with
      | none => .next s
      | some o =>
        let u := Op.unit s o
        .next (s.faultOp o fLinkDown u.1 u.2 [(1, routePort (s.route x.dest)), (1, 5), (2, x.dest)])

/-! ### Receipt (R281–R289) -/

/-- Cells in a buffer of an input port. -/
def State.bufCount (s : State) (p : Nat) (fixed : Bool) : Nat := (s.fab.cells.filter fun q => q.queue == .buf p fixed).length

/-- A NAK or HOLD refusal to the launching module, for its port (R252). -/
def State.nak (s : State) (kind p m lseq : Nat) : State :=
  s.sendTo s.moduleId m (.link (s.linkMsg kind 0 m (s.farPort p m) 0 lseq 0 0))

/-- Accept a link sequence from a launching module (R252, R253); the second answer tells of a duplicate. -/
def RxLink.accept (x : RxLink) (n : Nat) : RxLink × Bool :=
  let d := (n + 65536 - x.next) % 65536
  if d ≥ 32768 || x.ahead.contains n then (x, true)
  else if d = 0 then
    let run := ((List.range x.ahead.length).map fun k => (n + 1 + k) % 65536).takeWhile x.ahead.contains
    ({ seen := true, next := (n + 1 + run.length) % 65536, ahead := x.ahead.filter fun a => !run.contains a }, false)
  else ({ x with seen := true, ahead := n :: x.ahead }, false)

/-- A cell's checks of its blocks at delivery in block-check mode (R341, R344): the index of the first that fails. -/
def badBlock (c : Cell) : Option Nat :=
  let want := blockChecks c.payload
  if c.bchk.all (· == 0) then (if c.payload.all (· == 0) then none else some 0)
  else (List.range 6).find? fun k => c.bchk[k]? != want[k]?

/-- A SEAL_VIOLATION counted (R459, R460). -/
def State.sealCount (s : State) : State := (s.bump Reg.SEC_SEAL_VIOL_CNT_COUNT).mark Reg.SEC_EVENT_SEAL_VIOLATION

/-- A cell that fails its encryption rules is dropped, counted, recorded and refused (R302). -/
def State.authFail (s : State) (c : Nat) (x : Cell) (cause : Nat) : State :=
  let s1 := ((s.bump Reg.SWT_AUTH_FAIL_CNT_COUNT).mark Reg.SWT_EVENT_AUTH_FAIL).bump Reg.SEC_SEAL_VIOL_CNT_COUNT
  (s1.raise { code := fSealViolation, unitKind := 12, p1 := some (s.ctxParty c), detail := [(2, x.src.toNat), (1, x.key.toNat % 2), (1, cause)] }).refuseTo x fSealViolation

/-- Why a cell fails decryption (R302): 1 its tag, 2 an empty key slot, 3 another ENC bit than the receiver's. -/
def State.encError (s : State) (x : Cell) : Option Nat :=
  let enc := bitOn x.flags.toNat 0
  if enc != s.on Reg.SWT_SLICE_ENC then some 3
  else if enc && !s.on (keyFld (x.key.toNat % 2)) then some 2
  else if enc && !x.tagOk (s.linkKey (x.key.toNat % 2)) then some 1
  else none

/-- A delivered cell in clear (R301). -/
def State.opened (s : State) (x : Cell) : Cell := if bitOn x.flags.toNat 0 then x.decrypt (s.linkKey (x.key.toNat % 2)) else x

/-- Data has come for an engine: the time in which it awaits more begins anew (DELIVERY_TIMEOUT). -/
def Xfer.heard (x : Xfer) (w : Owner) (now : Nat) : Xfer :=
  if w.engine && x.owner == w then { x with lastAck := x.lastAck.map fun _ => now } else x

/-- Count a written cell of a transfer (R288): with every index to the LAST cell's written, DELIVERED is sent. Data that
answers a READ_REQ is progress of its operation (R193); a collective's part is then whole (R295). -/
def State.cellWritten (s : State) (x : Cell) : State :=
  let src := x.src.toNat
  let num := x.xfer.toNat
  let hit (r : RxXfer) : Bool := r.src == src && r.num == num
  let old := (s.fab.rxXfers.find? hit).getD { src := src, num := num, gen := x.gen.toNat }
  let new : RxXfer := { old with
    got := if old.got.contains x.index.toNat then old.got else x.index.toNat :: old.got
    last := if bitOn x.flags.toNat 1 then some x.index.toNat else old.last }
  let others := s.fab.rxXfers.filter fun r => !hit r
  if new.last == some (new.got.length - 1) then
    let s1 := (s.modFab fun f => { f with rxXfers := others }).sendTo s.moduleId src (.link (s.linkMsg 5 0 src 0 0 0 x.gen.toNat num))
    if x.type = 3 then
      match s1.fab.readDst.find? fun d => d.num == num with
      | some d => ((s1.modFab fun f => { f with
          readDst := f.readDst.filter fun y => y.num != num
          xfers := f.xfers.map fun y => (if y.num == num && !y.dead then { y with delivered := true, landed := List.range y.lens.length } else y).heard d.owner s.now }).checkXfers d.owner)
      | none => s1
    else if x.type = 4 then s1.modFab fun f => { f with collParts := f.collParts.map fun y => if y.src == src && y.num == num then { y with whole := true } else y }
    else s1
  else
    let s1 := s.modFab fun f => { f with rxXfers := new :: others }
    match if x.type = 3 then s1.fab.readDst.find? fun d => d.num == num else none with
    | some d => (s1.modFab fun f => { f with
        xfers := f.xfers.map fun y => (if y.num == num && !y.dead then { y with landed := new.got } else y).heard d.owner s.now }).countUnits d.owner
    | none => s1

/-- Where the bytes of a cell go: its ADDR on, or for READ_DATA the awaiting transfer's destination. -/
def State.cellDst (s : State) (x : Cell) : Option (Bool × List Nat) :=
  if x.type = 3 then
    (s.fab.readDst.find? fun d => d.num == x.xfer.toNat).map fun d =>
      (d.sp, (d.dst.drop (x.index.toNat * 24576)).take x.payload.length)
  else some (false, (List.range x.payload.length).map fun k => x.addr.toNat + k)

/-- The engine that awaits the data of a cell. -/
def State.engineOf (s : State) (x : Cell) : Option Owner :=
  if x.type = 3 then ((s.fab.readDst.find? fun d => d.num == x.xfer.toNat).map (·.owner)).filter Owner.engine else none

/-- Store bytes at VAs through the page table alone: the module's own engines restore write-protected pages too. -/
def State.putVa (s : State) (c : Nat) (w : List (Nat × Byte)) : State :=
  s.store (w.filterMap fun x => (s.pageOf c x.1).map fun pa => (pa + x.1 % 65536, x.2))

/-- The writer of a cell that waits for a shadow page (R402). -/
def cellWriter (x : Cell) : Writer := .cell x.src.toNat x.xfer.toNat

/-- Data that an engine has read: the CI of the checkpoint's target (R404), or a page of the partner, which replaces the page's
bytes, and with them its poison (R377); a VA without a page, or a pool of no pages, fails the engine. None while it waits for a
shadow page (R402). -/
def State.mirrorCell (s : State) (w : Owner) (x : Cell) (vas : List Nat) : Option State :=
  if w.idx = 4 then
    let v := leNat (x.payload.take 4)
    some ((s.modCkp fun k => { k with ci := v, ciSame := if k.ci = v then k.ciSame else 0 }).cellWritten x)
  else match vas.find? fun a => (s.pageOf w.ctx a).isNone with
  | some a => some (s.engineFails w fPermission [(1, 1), (8, a)])
  | none => match s.touchPages (cellWriter x) (pagesOf (vas.filterMap (s.pageOf w.ctx))) with
    | .go t => some ((t.putVa w.ctx (vas.zip x.payload)).cellWritten x)
    | .noPool => some (s.engineFails w fPermission [(1, 10), (8, vas.headD 0)])
    | .full => none

/-- Whether a VA of a context lies in a sealed page (R460). -/
def State.sealedVa (s : State) (c va : Nat) : Bool := ((s.walk c va).map (·.tenant)) == some true

/-- The write of a delivered cell (R288): refused, with a record of the context and VA (R141), where a byte does not translate; where it covers part of a
poisoned granule every other granule is written, a record names the context, and MEM_UE is refused to the source;
none while it waits for a shadow page (R402). -/
def State.writeCell (s : State) (c : Nat) (x : Cell) : Option State :=
  match s.cellDst x, s.engineOf x with
  | none, _ => some s
  | some (_, vas), some w => s.mirrorCell w x vas
  | some (sp, addrs), none =>
    let w : List (Nat × Byte) := addrs.zip x.payload
    let sealedMiss := bitOn x.flags.toNat 0 && (bitOn x.flags.toNat 2 || x.type = 1) && !sp && addrs.any fun a => !s.sealedVa c a
    let bad := if sp then s.partialPoison w else s.partialVa c w
    let land (t : State) : State :=
      match bad with
      | [] => t.cellWritten x
      | g :: _ =>
        let r := t.consumeUe g (some c)
        (r.2.raise { code := fMemUe, unitKind := 12, p1 := some (t.ctxParty c), detail := r.1 }).refuseTo x fMemUe
    if sp then some (land ((s.spWaits (w.map (·.1))).store w))
    else match s.writeCheck c (w.filterMap fun e => s.xlate c e.1 true) { ce := [], ue := [], chk := [] } with
    | some b =>
      some (((s.countCheck 3 3 (memOf b) 0 (some c)).raise
        { code := fCheckFail, unitKind := 12, p1 := some (s.ctxParty c), detail := checkDetail 3 0 b }).refuseTo x fCheckFail)
    | none => match s.unitWrite (cellWriter x) c w with
      | .perm r a =>
        let q := if r = 1 then s.accessRec c 12 0 a
          else (s.raise { code := fPermission, unitKind := 12, p1 := some (s.ctxParty c), detail := [(1, r), (8, a)] }, fPermission)
        some (q.1.refuseTo x q.2)
      | .wait => none
      | .ok t => if sealedMiss then some (s.sealCount.refuseTo x fSealViolation) else some (land t)

/-- A delivered cell is written, or waits for a shadow page (R402). -/
def State.landCell (s : State) (c : Nat) (x : Cell) : State :=
  match s.writeCell c x with
  | some t => t
  | none => (s.modFab fun f => { f with waitCells := f.waitCells ++ [(c, x)] }).waitShadow (cellWriter x)

/-- Slot data arrives for the guest area (R368): what it no longer names is freed (R370). -/
def State.guestIn (s : State) (x : Cell) : State :=
  let sets : List InSet := (pieces 12 x.payload.length x.payload).map fun b =>
    ⟨leNat (b.take 4), leNat ((b.drop 4).take 4) % 2 ^ 22, leNat ((b.drop 8).take 4) % 2 ^ 22, 3⟩
  ({ s with rpl := { s.rpl with guest := sets } }).cellWritten x

/-- A piece of a list put at its place by element offset. -/
def insertPiece (a : Nat) (b : List Byte) : List (Nat × List Byte) → List (Nat × List Byte)
  | [] => [(a, b)]
  | x :: l => if a < x.1 then (a, b) :: x :: l else x :: insertPiece a b l

/-- A COLL cell joins what its rank has sent (R288, R295), for the engine to combine. -/
def State.collIn (s : State) (c : Nat) (x : Cell) : State :=
  let hit (y : CollPart) : Bool := y.src == x.src.toNat && y.num == x.xfer.toNat && !y.whole
  let old := (s.fab.collParts.find? hit).getD { src := x.src.toNat, num := x.xfer.toNat, ctx := c, group := x.group.toNat, tensor := x.tensor.toNat }
  let new : CollPart := { old with pieces := insertPiece x.addr.toNat x.payload old.pieces }
  (s.modFab fun f => { f with collParts := (f.collParts.filter fun y => !hit y) ++ [new] }).cellWritten x

/-- A delivered cell in clear (R288, R341, R343): READ_REQs wait for an engine, COLL cells for theirs, and the rest is
written. -/
def State.deliverClear (s : State) (c : Nat) (x : Cell) (parityOk : Bool) : State :=
  let fail (loc addr : Nat) : State :=
    ((s.countCheck loc 5 0 (addr % 4096) (some c)).raise
      { code := fCheckFail, unitKind := 12, p1 := some (s.ctxParty c), detail := checkDetail loc 1 addr }).refuseTo x fCheckFail
  if !parityOk then fail 6 x.addr.toNat
  else if x.type = 2 then
    s.modFab fun f => { f with reads := f.reads ++ [⟨x.src.toNat, x.xfer.toNat, x.gen.toNat, c, x.payload, x.addr.toNat⟩] }
  else match (if s.blockMode c then badBlock x else none) with
    | some k => fail 2 (x.addr.toNat + 4096 * k)
    | none =>
      if x.type = 4 then s.collIn c x
      else if x.type = 1 && bitOn x.flags.toNat 2 && x.addr.toNat == slotAddr then s.guestIn x
      else s.landCell c x

/-- A context that discards refuses cells (R373), but for the data that its own engine reads, and, once the drain is over, for
the reads of another module's restore, which would else wait for this one's (R377): DEDUCED (log entry 143). -/
def State.discardRefuses (s : State) (c : Nat) (x : Cell) : Bool :=
  s.discarding c && (s.engineOf x).isNone && !(x.type == 2 && s.get (Reg.RPL_REPLAY_STATUS_STATE c) == 2)

/-- Delivery of a cell for this module (R288, R302, R373). -/
def State.deliver (s : State) (x : Cell) (parityOk : Bool) : State :=
  match s.ctxOf x.vcid.toNat with
  | none => s.refuseTo x fPermission
  | some c =>
    if s.get (Reg.SYN_CTX_EPOCH_EPOCH c) != x.epoch.toNat || s.discardRefuses c x then s.staleReport.refuseTo x fStaleContext
    else match s.encError x with
      | some cause => s.authFail c x cause
      | none => s.deliverClear c (s.opened x) parityOk

/-- A cell that waits for a shadow page is tried again (R402), or refused where its context no longer takes it (R373). -/
def State.retryCell (s : State) (q : Nat × Cell) : State :=
  let drop (t : State) : State := t.modFab fun f => { f with waitCells := f.waitCells.filter (· != q) }
  if s.ctxOf q.2.vcid.toNat != some q.1 || s.get (Reg.SYN_CTX_EPOCH_EPOCH q.1) != q.2.epoch.toNat || s.discardRefuses q.1 q.2 then
    ((drop s).unwait (cellWriter q.2)).staleReport.refuseTo q.2 fStaleContext
  else match s.writeCell q.1 q.2 with
    | some t => drop t
    | none => s.waitShadow (cellWriter q.2)

/-- The cells that wait go on, oldest first, as far as the pool allows. -/
def State.retryCells (s : State) : State := s.each s.fab.waitCells State.retryCell

/-- A cell goes on to another module (R282, R287): to a buffer of its input port. One with a wrong parity is not used: a record
names location 6 and its ADDR, and its source learns of it (R343, R344). -/
def State.forwardCell (s : State) (p : Nat) (fixed paid : Bool) (x : Cell) (parityOk : Bool) : State :=
  let e := s.route x.dest.toNat
  let a := if x.type = 4 then 0 else x.addr.toNat
  if !parityOk then ((s.countCheck 6 5 p (a % 4096)).logRec
    { code := fCheckFail, unitKind := 9, unit := p, detail := checkDetail 6 1 a }).refuseTo x fCheckFail
  else if !routeValid e || x.hops.toNat ≥ 63 then
    (s.routeMiss p (if routeValid e then 3 else 2) x.src.toNat x.dest.toNat s.sliceTag).refuseTo x fRouteMiss
  else s.modFab fun f => { f with cells := f.cells ++ [{ cell := { x with hops := x.hops + 1 }, queue := .buf p fixed, paid := paid }] }

/-- The checks of an accepted cell, in their order (R281). -/
def State.cellIn (s : State) (p : Nat) (fixed paid : Bool) (x : Cell) (parityOk : Bool) : State :=
  if x.type.toNat > 4 then
    let s1 := s.routeMiss p 4 x.src.toNat x.dest.toNat x.slice.toNat
    if x.slice.toNat = s.sliceTag then s1.refuseTo x fRouteMiss else s1
  else if x.slice.toNat != s.sliceTag then s.routeMiss p 1 x.src.toNat x.dest.toNat x.slice.toNat
  else if (s.frame % 65536 + 65536 - x.birth.toNat) % 65536 > 24 then (s.bump Reg.SWT_AGED_CNT_COUNT).mark Reg.SWT_EVENT_AGED
  else if x.dest.toNat = s.moduleId then s.deliver x parityOk
  else s.forwardCell p fixed paid x parityOk

/-- Wrong symbols of a slot by lane and position. -/
def wrongSymbols (e : RxEnv) : List (Nat × Nat) := e.errs.map fun x => (x.1.val, x.2.val)

/-- Every lane's marker is checked against the lane map of the slot's source (R234, R246): after 4 consecutive slots in error
an alarm of the lanes is due, once until a slot in which they are right. -/
def State.noteLanes (s : State) (p src : Nat) (e : RxEnv) : State :=
  let old := (s.port p).laneErr
  let n (k : Nat) : Nat := if markerBad (s.sourceSpare p src) k (e.markers.getD k none) then sget (fun _ => 0) old k + 1 else 0
  let due := (List.range 16).filter fun k => n k == 4
  s.modPort p fun x => { x with
    laneErr := (List.range 16).foldl (fun m k => sset (fun _ => 0) m k (n k)) x.laneErr
    alarm := if due.isEmpty then x.alarm else x.alarm ++ [(src, due)] }

/-- A cell that left an open buffer, or never held a place in it, gives back the credit that its launch spent (R283). -/
def State.creditBack (s : State) (old : State) (p : Nat) (paid : Bool) : State :=
  s.when (paid && s.bufCount p false ≤ old.bufCount p false) fun t => t.giveCredit p

/-- A terminated slot (R237, R248, R252, R273, R281–R284): a whole idle cell counts nothing; else the corrected codewords count,
what fails to decode counts and is refused, RX_HOLD refuses, a duplicate is discarded, a full buffer refuses, and the rest
is accepted and checked. -/
def State.terminate (s : State) (p from_ : Nat) (fixed paid : Bool) (c : Cell) (e : RxEnv) : State :=
  let n := c.lseq.toNat
  let ok := allDecode (wrongSymbols e) && c.crcOk
  let s1 := (s.bump (Reg.OPT_PORT_FEC_CORR_CNT_COUNT p) (correctedWords (wrongSymbols e))).when (!ok) fun t => t.bump (Reg.OPT_PORT_FEC_UNCORR_CNT_COUNT p)
  let refuse (kind : Nat) : State := (s1.nak kind p from_ n).creditBack s1 p paid
  if ok && c.type = 0 then s1
  else if s1.on (Reg.OPT_PORT_STATUS_RX_HOLD p) then refuse 3
  else if !ok then refuse 2
  else
    let key := p * 8192 + from_
    let a := (sget (fun _ => {}) s1.fab.rxLink key).accept n
    if a.2 then s1.creditBack s1 p paid
    else if s1.bufCount p fixed ≥ 16 then refuse 2
    else
      let s2 := (s1.modFab fun f => { f with rxLink := sset (fun _ => {}) f.rxLink key a.1 }).modPort p fun x => { x with rxHeads := noteHead x.rxHeads c }
      (s2.cellIn p fixed paid c e.parityOk).creditBack s2 p paid

/-- CELL_RECEIVE (R280, R281, R284, R490): the light of a slot at an input port. What is expressed leaves on its output port in
the same slot, unchecked and uncounted; under the relay all of it, to the paired port. All other light that
reaches the receive bus has its markers checked (R246), and is terminated: not on a port that is not up, in a gap, or with
rings not VERIFIED outside RX_HOLD (R244, R267). -/
def execCellReceive (slot : Fin 64) (port : Fin 16) (c : Cell) (e : RxEnv) (s : State) : Host.Outcome State Fault Refusal :=
  let p := port.val
  let w := s.schedWord s.bank slot.val p 0
  let express := wordKind w == 2
  if !s.bypOpen p then .next s
  else if s.switchRelay then .next (s.emit (.express slot.val p (pairPort p) c))
  else if express && !s.degraded p (wordPort w) then .next (s.emit (.express slot.val p (wordPort w) c))
  else if s.on (Reg.OPT_PORT_STATUS_GAP p) then .next s
  else
    let fixed := wordKind w == 1
    let from_ := if fixed then wordOrigin w else s.peer p
    let s0 := s.noteLanes p from_ e
    if !s.on (Reg.OPT_PORT_STATUS_UP p) || !(s.canTerminate p || s.on (Reg.OPT_PORT_STATUS_RX_HOLD p)) then .next s0
    else
      let idle := c.type = 0 && allDecode (wrongSymbols e) && c.crcOk
      let s1 := if express && !idle then (s0.bump Reg.SWT_DEGRADE_CNT_COUNT).mark Reg.SWT_EVENT_DEGRADE else s0
      .next (s1.terminate p from_ fixed (wordKind w == 0) c e)

/-- The cumulative ACK of every source and port, at each tick (R252). -/
def State.sendAcks (s : State) : State :=
  s.each (s.fab.rxLink.filter (·.2.seen)) fun t e =>
    let p := e.1 / 8192
    let m := e.1 % 8192
    t.sendTo t.moduleId m (.link (t.linkMsg 1 0 m (t.farPort p m) 0 ((e.2.next + 65535) % 65536) 0 0))

/-! ### Routing (R285–R290) -/

/-- ROUTE_DATA_WRITE (R285): the entry is read back at once and takes effect at the next tick. -/
def State.writeRoute (s : State) (v : Nat) : State :=
  let m := s.get Reg.SWT_ROUTE_SEL_INDEX
  s.modFab fun f => { f with routeNew := sset (fun _ => 0) f.routeNew m v, routeDue := sset (fun _ => 0) f.routeDue m (s.now + 1) }

def execRouteDataWrite (p : Party) (v : Word) (s : State) : Host.Outcome State Fault Refusal :=
  .next (s.fwOnly p fun t => t.writeRoute v.toNat)

/-! What a running COLL has still to send (R287, R295). -/

/-- The shard of a rank (R295): its first element and their number. -/
def shardOf (n count r : Nat) : Nat × Nat :=
  let c := ceilDiv count n
  (min (r * c) count, min ((r + 1) * c) count - min (r * c) count)

/-- The elements of the result that a rank writes: first and number (R295). -/
def collResult (kind n rank count : Nat) : Nat × Nat :=
  if kind = 1 then shardOf n count rank else if kind = 4 && rank != 0 then (0, 0) else (0, count)

/-- Bytes of an element. -/
def sizeOf (f : Fmt) : Nat := f.bits / 8

def CollRun.n (r : CollRun) : Nat := r.members.length

/-- The other ranks of a run. -/
def CollRun.others (r : CollRun) : List Nat := (List.range r.n).filter (· != r.rank)

def CollRun.member (r : CollRun) (q : Nat) : Nat := r.members.getD q 0

/-- The modules that a run has still to send to, each with the number of cells (R287): the ranks that await its shard, and the
partner of its copy. -/
def CollRun.later (r : CollRun) : List (Nat × Nat) :=
  let cells (n : Nat) : Nat := ceilDiv (n * sizeOf r.fmt) 24576
  ((if r.kind = 0 && r.shard.isNone then r.others.map fun q => (r.member q, cells (shardOf r.n r.count r.rank).2) else [])
    ++ r.partner.toList.map fun m => (m, cells (collResult r.kind r.n r.rank r.count).2)).filter fun x => x.2 != 0

/-- The runs of an operation, and the cells that they have still to form. -/
def State.runsOf (s : State) (o : Op) : List CollRun := s.fab.colls.filter fun r => r.ring == o.ring && r.idx == o.idx
def State.laterCells (s : State) (o : Op) : Nat := (((s.runsOf o).flatMap CollRun.later).map (·.2)).foldl (· + ·) 0

/-- The cells of an owner that have not been launched. -/
def State.unlaunched (s : State) (w : Owner) : List QCell :=
  s.fab.cells.filter fun q => q.mine && q.flight.isNone && q.lseq.isNone && q.owner == some w

/-- Cells dropped at their origin for want of a route (R287). -/
def State.missCells (s : State) (n : Nat) : State := (s.bump Reg.SWT_MISS_CNT_COUNT n).when (n != 0) fun t => t.mark Reg.SWT_EVENT_ROUTE_MISS

/-- The route to a module that an operation in flight needs has become invalid (R287): its cells not yet launched are dropped and
counted, with one record, and it ends FAULTED. -/
def State.routeLost (s : State) (o : Op) (dest : Nat) : State :=
  ((s.missCells ((s.unlaunched o.owner).length + s.laterCells o)).raise
    (missRec (some o.party) (routePort (s.route dest)) 2 s.moduleId dest s.sliceTag)).endOp o stFaulted fRouteMiss

/-- An operation has a cell to launch to a module, or will form one. -/
def State.needsRoute (s : State) (o : Op) (m : Nat) : Bool :=
  (s.unlaunched o.owner).any (fun q => q.cell.dest.toNat == m) || (s.runsOf o).any fun r => r.later.any fun x => x.1 == m

/-- ROUTE_ENTRY_EFFECT (R285, R287): at the tick the written entry counts; where it turns invalid, every operation that has still
to launch a cell to the module ends FAULTED with ROUTE_MISS, an engine's work fails, and cells that wait to be forwarded there
are dropped. -/
def execRouteEntryEffect (index : BitVec 13) (s : State) : Host.Outcome State Fault Refusal :=
  let m := index.toNat
  let due := sget (fun _ => 0) s.fab.routeDue m
  if due = 0 || s.now < due then .next s
  else
    let v := sget (fun _ => 0) s.fab.routeNew m
    let s1 := s.modFab fun f => { f with routes := sset (fun _ => 0) f.routes m v, routeDue := sset (fun _ => 0) f.routeDue m 0 }
    if routeValid v then .next s1
    else
      let s2 := s1.each (s1.ops.filter fun o => s1.needsRoute o m) fun t o => if (t.op? o.ring o.idx).isSome then t.routeLost o m else t
      let mine (q : QCell) : Bool := q.flight.isNone && q.cell.dest.toNat == m
      let engines := ((s2.fab.cells.filter fun q => mine q && q.lseq.isNone).filterMap fun q => q.owner.filter Owner.engine).eraseDups
      let s3 := s2.each engines fun t w =>
        (t.missCells (t.unlaunched w).length).engineFails w fRouteMiss (missRec none (routePort v) 2 t.moduleId m t.sliceTag).detail
      let answers (q : QCell) : Bool := mine q && q.mine && q.owner.isNone && q.lseq.isNone
      let s4 := (s3.missCells (s3.fab.cells.filter answers).length).modFab fun f => { f with cells := f.cells.filter fun q => !answers q }
      .next (s4.each (s4.fab.cells.filter fun q => mine q && !q.mine) State.bufferLost)

/-- REROUTE (R290): at the tick after LINK_DOWN routes with an alternative use it, and their waiting cells move to its
open queue; at the tick after the port is UP they return. -/
def execReroute (port : Fin 16) (s : State) : Host.Outcome State Fault Refusal :=
  let p := port.val
  let x := s.port p
  if x.rerouted then
    if s.on (Reg.OPT_PORT_STATUS_UP p) && x.upTick then .next (s.modPort p fun y => { y with rerouted := false, downAt := none }) else .next s
  else match x.downAt with
    | none => .next s
    | some t =>
      if s.now ≤ t || !s.on Reg.SWT_CTRL_REROUTE || !s.on (Reg.OPT_PORT_STATUS_LINK_DOWN p) then .next s
      else
        let alt (q : QCell) : Option Nat :=
          let e := s.route q.cell.dest.toNat
          if q.flight.isNone && routePort e == p && routeAltOk e then some (routeAlt e) else none
        let move (q : QCell) : QCell := match q.queue, alt q with
          | .own p', some a => if p' == p then { q with queue := .own a } else q
          | .flow p' _, some a => if p' == p then { q with queue := .own a } else q
          | _, _ => q
        .next (((s.modPort p fun y => { y with rerouted := true }).modFab fun f => { f with cells := f.cells.map move }).mark Reg.SWT_EVENT_REROUTE)

/-! ### Link keys (R302) -/

/-- A write of SWT_KEY_SWITCH_HI (R302, R305): arms the switch; frame 0 or one already passed disarms it. -/
def State.writeKeySwitch (s : State) (v : Nat) : State :=
  let s1 := s.put Reg.SWT_KEY_SWITCH_HI_FRAME_HI v
  let f := s1.get64 Reg.SWT_KEY_SWITCH_LO_FRAME_LO Reg.SWT_KEY_SWITCH_HI_FRAME_HI
  s1.modFab fun x => { x with keyArm := if f ≤ s.frame then none else some f }

/-- KEY_SWITCH_ARM (R302). -/
def execKeySwitchArm (p : Party) (v : Word) (s : State) : Host.Outcome State Fault Refusal :=
  .next (s.fwOnly p fun t => t.writeKeySwitch v.toNat)

/-- KEY_SWITCH (R302): from the tick of the frame launches use the other slot. -/
def execKeySwitch (s : State) : Host.Outcome State Fault Refusal :=
  match s.fab.keyArm with
  | none => .next s
  | some f =>
    if s.frame < f then .next s
    else
      let old := s.keySlot
      .next ((s.put Reg.SWT_STATUS_KEY_SLOT (1 - old)).modFab fun x => { x with keyArm := none, keyErase := some (old, s.now + 64) })

/-- A link key is forgotten. -/
def State.dropLinkKey (s : State) (k : Nat) : State := { s with sec := { s.sec with linkKeys := sset (fun _ => 0) s.sec.linkKeys k 0 } }

/-- OLD_KEY_ERASE (R302): 64 frames later the old slot is erased. -/
def execOldKeyErase (s : State) : Host.Outcome State Fault Refusal :=
  match s.fab.keyErase with
  | none => .next s
  | some (k, t) => if s.now < t then .next s else .next (((s.put (keyFld k) 0).modFab fun x => { x with keyErase := none }).dropLinkKey k)

end Sys2Proof.Machine
end

