-- ==== Sys2Proof/Machine/Training.lean ====
section
/-! DEFINITION. The training step and its replay: tracking, open, Noon, close, gradient claims (R306–R336),
discard and replay (R365–R388), and the cluster fence. -/
namespace Sys2Proof.Machine

/-- The context that RPL_STEP_SEL selects (R336). -/
def State.stepSel (s : State) : Nat := s.get Reg.RPL_STEP_SEL_CONTEXT

/-! ### Tracking and arming (R306–R310) -/

/-- Whether a checkpoint restore of the context holds its opens (R414). -/
def State.restoreHolds (s : State) (c : Nat) : Bool :=
  s.ckptCtx == c && (s.get Reg.RPL_CKPT_STATUS_STATE == 4 || s.get Reg.RPL_CKPT_STATUS_STATE == 5)

/-- The armed or last open frame. -/
def State.openFrame (s : State) (c : Nat) : Nat := s.get64 (Reg.RPL_STEP_OPEN_LO_FRAME c) (Reg.RPL_STEP_OPEN_HI_FRAME c)

/-- Clear an armed open. -/
def State.disarm (s : State) (c : Nat) : State := (s.put (Reg.RPL_STEP_CTRL_ARM c) 0).put (Reg.RPL_STEP_STATUS_ARMED c) 0

/-- A write of RPL_STEP_CTRL for a context (R336): ENABLE only while no step is open or STALLED, and clearing
it ends a stall; a MAX_ATTEMPTS of 0 leaves the field; CANCEL clears ARM. -/
def State.writeStepCtrl (s : State) (c v : Nat) : State :=
  let s1 := if s.stepOpen c then s
    else (s.put (Reg.RPL_STEP_CTRL_ENABLE c) (bitsOf v 0 1)).when (s.stepState c == 3 && !bitOn v 0)
      fun t => t.put (Reg.RPL_STEP_STATUS_STATE c) 0
  let s2 := (s1.put (Reg.RPL_STEP_CTRL_PHASE_OWNER c) (bitsOf v 1 1)).when (bitsOf v 8 4 != 0)
    fun t => t.put (Reg.RPL_STEP_CTRL_MAX_ATTEMPTS c) (bitsOf v 8 4)
  let s3 := s2.when (bitOn v 2) fun t =>
    ((t.mark (Reg.RPL_STEP_CTRL_ARM c)).mark (Reg.RPL_STEP_STATUS_ARMED c)).modCtx c
      fun x => { x with armTick := t.now, armLate := t.openFrame c ≤ t.frame }
  s3.when (bitOn v 3) fun t => t.disarm c

/-- STEP_TRACKING_ENABLE (R306, R310). -/
def execStepTrackingEnable (p : Party) (v : Word) (s : State) : Host.Outcome State Fault Refusal :=
  .next (s.fwOnly p fun t => t.writeStepCtrl t.stepSel v.toNat)

/-- STEP_ARM (R307). -/
def execStepArm (p : Party) (v : Word) (s : State) : Host.Outcome State Fault Refusal :=
  .next (s.fwOnly p fun t => t.writeStepCtrl t.stepSel v.toNat)

/-- STEP_CANCEL (R336). -/
def execStepCancel (p : Party) (v : Word) (s : State) : Host.Outcome State Fault Refusal :=
  .next (s.fwOnly p fun t => t.writeStepCtrl t.stepSel v.toNat)

/-! ### Step bases (R217) -/

/-- The physical objects that a context maps STEP_SCOPED, each once. -/
def State.scopedObjs (s : State) (c : Nat) : List Nat :=
  ((s.xtVids c).filterMap fun v => (s.xtEntry c v).bind fun e => if e.stepScoped then some e.obj else none).foldl
    (fun l o => if l.contains o then l else l ++ [o]) []

/-- The step bases at an open: a counter's value, a barrier's sense. -/
def State.takeBases (s : State) (c : Nat) : List StepBase :=
  (s.scopedObjs c).map fun o => ⟨o, (s.obj o).value, (s.obj o).sense⟩

/-- An object returns to its step base (R217): a counter its value; a barrier empty, not broken, with the
base's sense. -/
def State.restoreBase (s : State) (b : StepBase) : State :=
  if (s.obj b.obj).barrier then s.rearm b.obj b.sense else s.setObj b.obj { s.obj b.obj with value := b.value }

/-! ### The cluster fence (R387, R388) -/

/-- The logical cluster of a die that uses physical cluster k. -/
def State.clusterUser (s : State) (d k : Nat) : Option Nat := (List.range 8).find? fun j => s.get (cmapFld d j) == k

/-- A pending fence takes effect before an open (R387): the logical cluster moves to CL8, the fenced cluster
is powered down, duplicates that it was to check are skipped (R349) and the fence is kept by Idfort. -/
def State.applyFence (s : State) : State :=
  if !s.on Reg.RPL_CL_FENCE_PENDING then s
  else
    let d := s.get Reg.RPL_CL_FENCE_DIE
    let k := s.get Reg.RPL_CL_FENCE_CLUSTER
    let s1 := match s.clusterUser d k with
      | some j => s.put (cmapFld d j) 8
      | none => s
    let s2 := { s1 with rpl := { s1.rpl with fenced := insertSorted (d * 9 + k) s1.rpl.fenced } }
    let s3 := s2.skipDups fun e => coreCluster e.check == d * 9 + k
    (s3.put Reg.RPL_CL_FENCE_PENDING 0).mark Reg.RPL_REPLAY_EVENT_FENCE_DONE

/-- A write of RPL_CL_FENCE (R387, R439): GO is refused where CL8 of the die is in use or the cluster is not
mapped; a refused escalation asks for replacement. -/
def State.writeFence (s : State) (v : Nat) : State :=
  let d := bitsOf v 0 2
  let k := bitsOf v 2 4
  let t1 := (s.put Reg.RPL_CL_FENCE_DIE d).put Reg.RPL_CL_FENCE_CLUSTER k
  if !bitOn v 31 then t1
  else if (s.clusterUser d 8).isSome then
    let t2 := s.mark Reg.RPL_REPLAY_EVENT_FENCE_REFUSED
    if s.on Reg.HRC_ESC_STATUS_FENCE_REQ && s.get Reg.HRC_ESC_STATUS_DIE == d && s.get Reg.HRC_ESC_STATUS_CLUSTER == k then
      ((t2.mark Reg.HRC_ESC_STATUS_REPLACE_REQ).mark Reg.HRC_EVENT_ESC_REPLACE).sendTo s.moduleId (Config.sliceManager % 8192) (.short .replaceRequest [s.moduleId])
    else t2
  else if k > 7 || (s.clusterUser d k).isNone then s.mark Reg.RPL_REPLAY_EVENT_FENCE_REFUSED
  else t1.mark Reg.RPL_CL_FENCE_PENDING

/-- CLUSTER_FENCE (R387). -/
def execClusterFence (p : Party) (v : Word) (s : State) : Host.Outcome State Fault Refusal :=
  .next (s.fwOnly p fun t => t.writeFence v.toNat)

/-! ### Open (R307, R308, R379) -/

/-- The CLOSE accepted while no step was open, which its ring still holds (R309, R329). -/
def State.heldClose (s : State) (c : Nat) : Option (Nat × Nat × Nat) :=
  (s.ctx c).closeOp.filter fun q => ((s.op? q.1 q.2.1).map fun o => !o.issued && o.fin.isNone) == some true

/-- Open an attempt of a step on a context (R307): dirt cleared but for carried causes, step bases taken. -/
def State.openAttempt (s : State) (c step attempt frame : Nat) : State :=
  let carry := (s.ctx c).carry
  let s1 := ((s.disarm c).put64 (Reg.RPL_STEP_NUM_LO_STEP c) (Reg.RPL_STEP_NUM_HI_STEP c) step).put64
    (Reg.RPL_STEP_OPEN_LO_FRAME c) (Reg.RPL_STEP_OPEN_HI_FRAME c) frame
  let s2 := ((s1.put (Reg.RPL_STEP_ATTEMPT_ATTEMPT c) attempt).put (Reg.RPL_STEP_VOTE_OWN c) 0xFF).setReg (Reg.RPL_STEP_STATUS c) 1
  let s3 := (s2.modCtx c fun x => { x with
    bases := s.takeBases c, recorded := [], uePages := [], claims := [], carry := [], closeOp := s.heldClose c, vote := 0, noonHeld := none,
    discard := none, breakDue := false, broke := false, replayArm := none, replayTick := none }).mark Reg.RPL_STEP_EVENT_OPENED
  let s4 := s3.each (s3.cores.map (·.1)) fun t k => t.modCore k fun q => { q with seqs := sset (fun _ => 0) q.seqs c 0 }
  carry.foldl (fun t b => t.clearVote c b) s4

/-- An open that finds a step open, a past frame or a restore opens nothing (R308, R414). -/
def State.openMissed (s : State) (c : Nat) : State := (s.disarm c).mark Reg.RPL_STEP_EVENT_OPEN_MISSED

/-- The held descriptors of a stalled context complete ABORTED (R310). -/
def State.stall (s : State) (c : Nat) : State :=
  let s1 := ((s.disarm c).put (Reg.RPL_STEP_STATUS_STATE c) 3).mark Reg.RPL_STEP_EVENT_STALLED
  s1.each (s1.ops.filter fun o => o.ctx == c && !o.issued && o.fin.isNone) fun t o => t.endOp o stAborted 0

/-- The open of a replay announcement (R379, R310). -/
def State.openReplay (s : State) (c : Nat) (q : Nat × Nat × Nat) : State :=
  let s1 := s.put (Reg.RPL_REPLAY_STATUS_STATE c) 0
  if q.2.1 ≥ s.get (Reg.RPL_STEP_CTRL_MAX_ATTEMPTS c) then (s1.modCtx c fun x => { x with replayArm := none, drainTick := none }).stall c
  else ((s1.applyFence).openAttempt c q.1 q.2.1 q.2.2).modCtx c fun x => { x with drainTick := none }

/-- STEP_OPEN (R21, R307, R308, R379): at or after the tick of the armed frame. -/
def execStepOpen (ctx : Fin 64) (s : State) : Host.Outcome State Fault Refusal :=
  let c := ctx.val
  if 7 < s.time.pos then .next s
  else match (s.ctx c).replayArm with
  | some q => if s.frame < q.2.2 then .next s else .next ((s.turn 7).openReplay c q)
  | none =>
    if !s.on (Reg.RPL_STEP_CTRL_ARM c) || s.now ≤ (s.ctx c).armTick || (s.frame < s.openFrame c && !(s.ctx c).armLate) then .next s
    else if s.stepState c != 0 || (s.ctx c).armLate || s.restoreHolds c then .next (s.openMissed c)
    else if !s.on (Reg.RPL_STEP_CTRL_ENABLE c) then .next s
    else .next ((s.turn 7).applyFence.openAttempt c (s.get64 (Reg.RPL_STEP_NEXT_LO_STEP c) (Reg.RPL_STEP_NEXT_HI_STEP c)) 0 (s.openFrame c))

/-! ### Gradient regions (R313, R314) -/

/-- A new claim is written into its entry (R313, R314); while its page waits for the shadow pool the core holds the instruction,
in `s0`. -/
def State.writeClaim (s0 t : State) (o : Op) (core a region tag : Nat) (bs : List Byte) (e : MemErr) : State :=
  match t.storeFor (.core core) o 1 core a (cellsAt (a + 12) bs) e with
  | .wait => (s0.waitShadow (.core core)).hold core (.claim region tag)
  | .stop u => u
  | .ok u => u.modCtx o.ctx fun x => { x with claims := if x.claims.contains region then x.claims else region :: x.claims }

/-- GCLAIM as its core issues it (R314): the entry is read, and the region claimed, found claimed by the same tensor, or in
conflict. -/
def State.issueClaim (s : State) (core region tag : Nat) (e : MemErr) : State :=
  s.seqInstr core fun o t =>
    let c := o.ctx
    if !t.on (Reg.RPL_STEP_CTRL_ENABLE c) then t
    else
      let a := t.get (Reg.RPL_GRAD_BASE_LO_PA_LO c) * 2 ^ 18 + t.get (Reg.RPL_GRAD_BASE_HI_PA_HI c) * 2 ^ 32 + 32 * region
      if !t.on (Reg.RPL_GRAD_BASE_LO_VALID c) || region ≥ t.get (Reg.RPL_GRAD_BASE_HI_COUNT c) then t.stopPerm core 10 region
      else
        let pas := (List.range 32).map fun k => a + k
        let u := t.meetErrs (some c) pas.contains e
        match u.readErr c pas e with
        | .ue pa => u.ueOp o 1 core pa
        | .parity pa => u.parityOp o 1 core pa
        | .chk pa => u.checkOp o 1 core 1 pa
        | .none =>
          let step := u.stepNum c
          let att := u.get (Reg.RPL_STEP_ATTEMPT_ATTEMPT c)
          if !bitOn (u.natAt a 8) 0 then u.stopPerm core 10 region
          else if !(u.ctx c).claims.contains region || u.natAt (a + 16) 8 != step || u.natAt (a + 24) 4 != att then
            s.writeClaim u o core a region tag (leBytes 2 tag ++ leBytes 1 o.ring ++ leBytes 1 0 ++ leBytes 8 step ++ leBytes 4 att ++ leBytes 4 o.seq) e
          else if u.natAt (a + 12) 2 == tag then u
          else
            let holder : PartyRec := ⟨c, u.gen c, u.vcid c, u.natAt (a + 14) 1, u.natAt (a + 28) 4⟩
            let r : FaultRec := { code := fGradAlias, unitKind := 1, unit := core, p1 := some o.party, p2 := some holder,
                                  detail := [(2, region), (2, tag), (2, u.natAt (a + 12) 2)] }
            (((u.bump Reg.RPL_GRAD_ALIAS_CNT_COUNT).mark Reg.RPL_STEP_EVENT_GRAD_ALIAS).raise r).endOp o stFaulted fGradAlias

/-- GCLAIM (R314). -/
def execGclaim (core : Fin 144) (region tag : BitVec 16) (e : MemErr) (s : State) : Host.Outcome State Fault Refusal :=
  .next (s.issueClaim core.val region.toNat tag.toNat e)

/-- The GCLAIMs that cores hold for a shadow page are tried again, those first that began to wait first (R402). -/
def State.retryClaims (s : State) : State :=
  s.each (s.ckp.waits.filterMap fun x => match x.1 with
      | .core c => some c
      | _ => none) fun t c => match (t.core c).stall with
    | some (.claim region tag) => (t.modCore c fun k => { k with stall := none }).issueClaim c region tag {}
    | _ => t

/-! ### Noon (R317–R319, R369) -/

/-- The step's inputs are sealed in the replay ring, or the test is waived (R369). -/
def State.inputsOk (s : State) (c : Nat) : Bool :=
  !s.on Reg.RPL_RING_CFG_REQUIRE || s.rpl.sets.any fun t => t.state == 3 && t.step == s.stepNum c % 2 ^ 32

/-- NOON (R317): held until earlier descriptors and duplicates have reported; then the vote is formed and
arrives at the barrier with AND. -/
def execNoon (ring : Fin 256) (s : State) : Host.Outcome State Fault Refusal :=
  match s.ready ring.val 12 with
  | none => .next s
  | some o =>
    let c := o.ctx
    if s.earlierOpen o || s.dupPending c then
      .next (s.modCtx c fun x => { x with noonHeld := x.noonHeld.or (some s.now) })
    else if !s.synOn then .next s
    else if s.noWaiter then .next (s.mark Reg.SYN_EVENT_WAITERS_FULL)
    else
      let vid := descBytes o.desc 16 2
      match s.xtObj c vid true with
      | none => .next (s.rejectXt o vid)
      | some obj =>
        let b := s.obj obj
        if !b.broken && b.slot.isNone then .next s
        else if !b.broken && !b.fits 1 then .next ((s.raise (o.faultRec fPermission 6 0 [(1, 10), (8, vid)])).reject o fPermission)
        else
          let same := descBytes o.desc 24 8 == s.stepNum c && descBytes o.desc 32 4 == s.get (Reg.RPL_STEP_ATTEMPT_ATTEMPT c) && !(s.ctx c).mismatch
          let s1 := if same then s else s.clearVote c 5
          let s2 := if s.inputsOk c then s1 else s1.clearVote c 6
          let vote := 2 ^ 64 - 128 + s2.get (Reg.RPL_STEP_VOTE_OWN c) % 128
          let s3 := s2.modCtx c fun x => { x with noonObj := obj, noonVid := vid, vote := vote, mismatch := false, noonHeld := none }
          .next (s3.issueArrival o obj vid 1 vote 0)

/-! ### Close (R329–R332) -/

/-- CLOSE (R309, R329): issued, and waiting for its readiness and its frame; one accepted while no step was open is rejected
where it does not name the step that opened. -/
def execClose (ring : Fin 256) (s : State) : Host.Outcome State Fault Refusal :=
  match s.ready ring.val 13 with
  | none => .next s
  | some o =>
    if descBytes o.desc 24 8 != s.stepNum o.ctx then .next ((s.raise (o.faultRec fPermission 6 0 [(1, 10), (8, 0)])).reject o fPermission)
    else .next (s.issue o 0)

/-- The accepted CLOSE of the open step, while it is in flight. -/
def State.closeOf (s : State) (c : Nat) : Option (Op × Nat) :=
  (s.ctx c).closeOp.bind fun q => ((s.op? q.1 q.2.1).filter fun o => o.fin.isNone).map fun o => (o, q.2.2)

/-- CLOSE_READY (R329): once every earlier descriptor of the context has completed. -/
def execCloseReady (ctx : Fin 64) (s : State) : Host.Outcome State Fault Refusal :=
  match s.closeOf ctx.val with
  | none => .next s
  | some (o, _) => if s.earlierOpen o || !s.stepOpen ctx.val then .next s else .next (s.mark (Reg.RPL_STEP_STATUS_CLOSE_READY ctx.val))

/-- Input sets whose step number is at most t − r are freed from the head of the ring (R370). -/
def freeSets (t r : Nat) : List InSet → List InSet
  | [] => []
  | x :: l => if x.step + r ≤ t then freeSets t r l else x :: l

/-- What a commit does but for a checkpoint cut (R330, R370). -/
def State.commitStep (s : State) (c : Nat) (o : Op) (retention : Nat) : State :=
  let r := if retention = 0 then 2 else retention
  let s1 := (s.finish o stDone 0).setReg (Reg.RPL_STEP_STATUS c)
    (BitVec.ofNat 32 (setBits (setBits (setBits (s.reg (Reg.RPL_STEP_STATUS c)).toNat 0 2 0) 2 1 0) 4 1 0))
  let s2 := (s1.mark Reg.RPL_STEP_EVENT_CLOSED).modCtx c fun x => { x with
    recorded := [], uePages := [], closeOp := none, discard := none, closedNoon := some (x.noonObj, x.noonVid) }
  let s3 := s2.releaseShadow fun p => if p.pre == some c then { p with pre := none } else p
  { s3 with rpl := { s3.rpl with sets := freeSets (s.stepNum c % 2 ^ 32) r s3.rpl.sets } }

/-- The Noon barrier of an attempt still open, by object and virtual identifier: that at which its NOON has arrived or is held. -/
def State.openNoon (s : State) (c : Nat) : Option (Nat × Nat) :=
  (s.ops.find? fun o => o.ctx == c && o.opc == 12 && o.fin.isNone).bind fun o =>
    (s.xtObj c (descBytes o.desc 16 2) true).map fun x => (x, descBytes o.desc 16 2)

/-- The attempt of an open step, not yet VOTED, is broken off (R331): BREAK on its Noon barrier where a NOON names one, and
the discard. Without a NOON the barrier is not known yet and no BREAK leaves: DESIGN CHOICE (log entry 149). -/
def State.breakOpen (s : State) (c : Nat) : State :=
  match s.openNoon c with
  | none => s.discardNext c
  | some (obj, vid) => ((s.discardNext c).mark Reg.RPL_STEP_EVENT_BREAK_SENT).breakObj obj c vid none false

/-- CLOSE_DEADLINE (R331): at F_c − 3 a CLOSE not ready completes FAULTED with FRAME_OVERRUN, BREAK is sent on the Noon
barrier, and the attempt is discarded. -/
def execCloseDeadline (ctx : Fin 64) (s : State) : Host.Outcome State Fault Refusal :=
  match s.closeOf ctx.val with
  | none => .next s
  | some (o, _) =>
    if s.on (Reg.RPL_STEP_STATUS_CLOSE_READY ctx.val) || s.frame + 3 < s.closeFrame ctx.val then .next s
    else
      let t := s.when (s.stepState ctx.val == 1) fun u => u.breakOpen ctx.val
      .next ((t.faultOp o fFrameOverrun 6 0 [(4, o.budget), (4, o.frames), (8, 0), (4, 0), (1, 13)]).modCtx ctx.val
        fun x => { x with closeOp := none }).retrySync

/-- VOTED_TIMEOUT (R332): no CLOSE one context watchdog after the release sends BREAK and discards, and the
next NOON votes with STEP_MATCH cleared. -/
def execVotedTimeout (ctx : Fin 64) (s : State) : Host.Outcome State Fault Refusal :=
  let c := ctx.val
  let x := s.ctx c
  if s.stepState c != 2 || x.closeOp.isSome || s.discardSet c || s.now < x.votedTick + s.get (Reg.SYN_CTX_WDOG_FRAMES c) then .next s
  else
    let s1 := ((s.mark Reg.RPL_STEP_EVENT_BREAK_SENT).discardNext c).modCtx c fun y => { y with mismatch := true, broke := true }
    .next (s1.breakObj x.noonObj c x.noonVid none true).retrySync

/-! ### The replay barrier (R378, R380) -/

/-- A context at READY with HOLD clear arrives at the replay barrier with payload operation none (R378). -/
def State.replayArrive (s : State) (c : Nat) : State :=
  let obj := s.get Reg.RPL_REPLAY_CFG_BARRIER
  if s.on Reg.RPL_REPLAY_CFG_VALID && s.get (Reg.RPL_REPLAY_STATUS_STATE c) == 3 && !s.on (Reg.RPL_REPLAY_STATUS_HOLD c)
      && (s.obj obj).barrier && !(s.obj obj).broken then
    ((s.modCtx c fun x => { x with replayTick := some s.now }).arrive obj c (s.vidOf c obj) (.replay (Fin.ofNat 64 c)) 0 0).retrySync
  else s

/-- A context reaches READY (R374). -/
def State.replayReady (s : State) (c : Nat) : State :=
  (((s.put (Reg.RPL_REPLAY_STATUS_STATE c) 3).mark Reg.RPL_REPLAY_EVENT_READY).modCtx c fun x => { x with drainTick := none }).replayArrive c

/-- HOLD is cleared, and a context at READY arrives (R380, R395). -/
def State.clearHold (s : State) (c : Nat) : State :=
  if s.on (Reg.RPL_REPLAY_STATUS_HOLD c) then (s.put (Reg.RPL_REPLAY_STATUS_HOLD c) 0).replayArrive c else s

/-! ### Discard (R371–R374) -/

/-- What other ranks have sent for a context's collectives is dropped. -/
def State.dropParts (s : State) (c : Nat) : State :=
  { s with fab := { s.fab with collParts := s.fab.collParts.filter fun y => y.ctx != c } }

/-- The discard at its tick D (R372): its descriptors are aborted, which ends their tile sequences, and the attempt's duplicates
are dropped and counted (R349). -/
def State.discardAttempt (s : State) (c : Nat) (hold : Bool) : State :=
  let s1 := (s.setReg (Reg.RPL_STEP_STATUS c) (BitVec.ofNat 32 (setBits (setBits (setBits (s.reg (Reg.RPL_STEP_STATUS c)).toNat 0 2 0) 2 1 0) 4 1 0))).put
    (Reg.RPL_REPLAY_STATUS_STATE c) 1
  let s2 := (((s1.put (Reg.RPL_REPLAY_STATUS_RESTORE_FAIL c) 0).put (Reg.RPL_REPLAY_STATUS_HOLD c) (b2n hold)).mark
    Reg.RPL_STEP_EVENT_DISCARD).bump Reg.RPL_DISCARD_CNT_COUNT
  let s3 := s2.modCtx c fun x => { x with discard := none, drainTick := some s.now, betweenSteps := false, closeOp := none, noonHeld := none, breakDue := false }
  let s4 := s3.each (s3.ops.filter fun o => o.ctx == c && discardEnds o) fun t o => t.endOp o stAborted 0
  (s4.dropParts c).skipDups fun d => d.party.ctx == c && d.step == s.stepNum c && d.attempt == s.get (Reg.RPL_STEP_ATTEMPT_ATTEMPT c)

/-- Whether a discard is due at the present tick. -/
def State.discardDue (s : State) (d : DiscardReq) : Bool :=
  match d.frame with
  | some f => f ≤ s.frame
  | none => d.tick ≤ s.now

/-- The discard that acts on a context at the present tick, and whether it was announced; one that the module owes comes
before, and of the announced ones the first that came. -/
def State.dueDiscard (s : State) (c : Nat) : Option (Bool × DiscardReq) :=
  (((s.ctx c).discard.filter s.discardDue).map fun d => (false, d)).or (((s.ctx c).announced.find? s.discardDue).map fun d => (true, d))

/-- A discard names the open attempt, or whichever is open. -/
def State.namesOpen (s : State) (c : Nat) (d : DiscardReq) : Bool :=
  d.which.isNone || d.which == some (s.stepNum c, s.get (Reg.RPL_STEP_ATTEMPT_ATTEMPT c))

/-- An announced discard that finds no step open (R380): it clears an armed open and goes straight to READY; while an attempt
is being discarded already, its HOLD alone acts. -/
def State.discardClosed (s : State) (c : Nat) (hold : Bool) : State :=
  if s.discarding c then s.when hold fun t => t.put (Reg.RPL_REPLAY_STATUS_HOLD c) 1
  else (((s.disarm c).modCtx c fun x => { x with replayArm := none, betweenSteps := true }).put (Reg.RPL_REPLAY_STATUS_HOLD c) (b2n hold)).replayReady c

/-- ATTEMPT_DISCARD (R371, R372, R380): at its tick, the one that the module owes or the one announced. -/
def execAttemptDiscard (ctx : Fin 64) (s : State) : Host.Outcome State Fault Refusal :=
  let c := ctx.val
  match s.dueDiscard c with
  | none => .next s
  | some (told, d) =>
    if 7 < s.time.pos then .next s
    else
      let s1 := (s.turn 7).modCtx c fun x => if told then { x with announced := x.announced.erase d } else { x with discard := none }
      if s.stepOpen c then .next (if s.namesOpen c d then (s1.discardAttempt c d.hold).retrySync else s1)
      else .next (if told then s1.discardClosed c d.hold else s1)

/-- A write of RPL_REPLAY_CTRL for a context (R371, R395). -/
def State.writeReplayCtrl (s : State) (c v : Nat) : State :=
  let s1 := s.when (bitOn v 0 && s.stepOpen c) fun t => t.discardNext c
  s1.when (bitOn v 1) fun t => t.clearHold c

/-- REPLAY_DISCARD_WRITE (R371). -/
def execReplayDiscardWrite (p : Party) (v : Word) (s : State) : Host.Outcome State Fault Refusal :=
  .next (s.fwOnly p fun t => t.writeReplayCtrl t.stepSel v.toNat)

/-- REPLAY_ARRIVE_WRITE (R395). -/
def execReplayArriveWrite (p : Party) (v : Word) (s : State) : Host.Outcome State Fault Refusal :=
  .next (s.fwOnly p fun t => t.writeReplayCtrl t.stepSel v.toNat)

/-! ### Announcements (R379, R380) -/

/-- The ACTIVE context whose VCID and epoch an announcement names. -/
def State.announced (s : State) (m : Announce) : Option Nat :=
  (List.range 64).find? fun c => s.active c && s.vcid c == m.vcid.toNat && s.get (Reg.SYN_CTX_EPOCH_EPOCH c) == m.epoch.toNat

/-- An announcement that names a frame already passed, or the current one, is ignored (R304); another acts on its context. -/
def State.announce (s : State) (m : Announce) (late act : State → Nat → State) : State :=
  let s1 := if m.frame.toNat ≤ s.frame then s.mark Reg.SWT_EVENT_LATE_ANNOUNCE else s
  match s.announced m with
  | none => s1
  | some c => if m.frame.toNat ≤ s.frame then late s1 c else act s1 c

/-- REPLAY_OPEN (R304, R379): arms the next attempt while READY; a past frame sets LATE. -/
def execReplayOpen (m : Announce) (s : State) : Host.Outcome State Fault Refusal :=
  let ready (t : State) (c : Nat) : Bool := t.get (Reg.RPL_REPLAY_STATUS_STATE c) == 3
  .next (s.announce m (fun t c => t.when (ready t c) fun u => u.mark Reg.RPL_REPLAY_EVENT_LATE)
    fun t c => t.when (ready t c) fun u =>
      (u.mark (Reg.RPL_STEP_STATUS_ARMED c)).modCtx c fun x => { x with replayArm := some (m.step.toNat, m.attempt.toNat, m.frame.toNat) })

/-- DISCARD_ANNOUNCE (R380): arms a discard at its frame, with optional HOLD. -/
def execDiscardAnnounce (m : Announce) (s : State) : Host.Outcome State Fault Refusal :=
  .next (s.announce m (fun t _ => t) fun t c => t.modCtx c fun x => { x with
    announced := x.announced ++ [{ frame := some m.frame.toNat, hold := m.hold, which := some (m.step.toNat, m.attempt.toNat) }] })

/-- ARRIVE_ANNOUNCE (R380). -/
def execArriveAnnounce (m : Announce) (s : State) : Host.Outcome State Fault Refusal :=
  match s.announced m with
  | none => .next s
  | some c => .next (s.clearHold c)

end Sys2Proof.Machine
end

