-- ==== Sys2Proof/Machine/Guest.lean ====
section
/-! DEFINITION. The replay ring's input sets and their guest copy (R366–R370, R382, R385). -/
namespace Sys2Proof.Machine

/-! ### Input sets (R366–R370) -/

/-- Free pages of the replay ring. -/
def State.ringFree (s : State) : Nat := s.get Reg.RPL_RING_CFG_PAGES - (s.rpl.sets.map (·.pages)).foldl (· + ·) 0

/-- The tail page, where the next set begins. -/
def State.ringTail (s : State) : Nat :=
  match s.rpl.sets.getLast? with
  | some t => (t.first + t.pages) % max 1 (s.get Reg.RPL_RING_CFG_PAGES)
  | none => 0

/-- Open a FILLING set, or refuse it (R367). -/
def State.openSet (s : State) (pages : Nat) : State :=
  if s.rpl.sets.length ≥ 16 || s.ringFree < pages then
    (s.mark Reg.RPL_SET_CTRL_REFUSED).mark Reg.RPL_REPLAY_EVENT_SET_REFUSED
  else
    let x : InSet := { step := s.get Reg.RPL_SET_STEP_STEP, first := s.ringTail, pages := pages, state := 1 }
    { s.put Reg.RPL_SET_CTRL_REFUSED 0 with rpl := { s.rpl with sets := s.rpl.sets ++ [x] } }

/-- The first set of a list in a state, changed to another. -/
def markFirst (a b : Nat) : List InSet → List InSet
  | [] => []
  | x :: l => if x.state == a then { x with state := b } :: l else x :: markFirst a b l

/-- The newest set in a state, changed to another. -/
def markNewest (a b : Nat) (l : List InSet) : List InSet := (markFirst a b l.reverse).reverse

/-- The ring engine as owner of transfers. -/
def ringEngine (c : Nat) : Owner := ⟨256, 3, c⟩

/-- Pages of the ring, by positions, leave as one transfer of WRITE cells with MIRROR for the partner's guest area (R368, R382). -/
def State.copyPages (s : State) (w : Owner) (va : Nat) (l : List Nat) : State :=
  let vas := l.flatMap fun p => (List.range 65536).map fun k => va + 65536 * p + k
  match vas.find? fun a => (s.xlate w.ctx a false).isNone with
  | some a => s.engineFails w fPermission [(1, 1), (8, a)]
  | none =>
    let pas := vas.filterMap fun a => s.xlate w.ctx a false
    match s.readErr w.ctx pas {} with
    | .ue pa =>
      let r := s.consumeUe pa (some w.ctx)
      r.2.engineFails w fMemUe r.1
    | .none => s.sendWrite w (s.gen w.ctx) (s.get Reg.RPL_MIR_PARTNER_MODULE) 4 pas
        ((vas.map fun a => (a + s.mirOffset) % 2 ^ 64).zip (pas.map s.paByte))
    | .chk pa => (s.countCheck 1 3 (memOf pa) (pa % 4096) (some w.ctx)).engineFails w fCheckFail (checkDetail 1 0 (pa / 4096 * 4096))
    | .parity pa => (s.countCheck 6 2 0 (pa % 4096) (some w.ctx)).engineFails w fCheckFail (checkDetail 6 0 (pa / 4096 * 4096))

/-- The guest copy begins (R368, R385): with GUEST_STALE every SEALED set is copied again, then the new one; their slot data
follow the copy. A module without a learning context or a window onto its ring, or with no route to its partner, copies
nothing: the set stays SEALING. -/
def State.guestCopy (s : State) (x : InSet) : State :=
  let again := s.on Reg.RPL_MIR_CLIENT_GUEST_STALE
  let old := if again then s.rpl.sets.filter fun (t : InSet) => t.state == 3 else []
  let s1 := { s with rpl := { s.rpl with slotDue := true, guestResend := again } }
  match s.learnCtx with
  | none => s1
  | some c => match s.ringVa c with
    | none => s1
    | some va =>
      let w := ringEngine c
      let m := s.get Reg.RPL_MIR_PARTNER_MODULE
      if !routeValid (s.route m) then s1.routeMiss (routePort (s.route m)) 2 s.moduleId m s.sliceTag
      else
        let l := old.flatMap s.setPages ++ s.setPages x
        if l.isEmpty then s1.sendSlots w else s1.withEngine c (l.map fun p => va + 65536 * p) fun t => t.copyPages w va l

/-- Seal the newest FILLING set (R367, R368): SEALED at once without a guest copy. SEAL is set already while a set is SEALING,
and setting it then does nothing. -/
def State.sealSet (s : State) : State :=
  match s.rpl.sets.reverse.find? fun (x : InSet) => x.state == 1 with
  | none => s
  | some x =>
    if s.on Reg.RPL_SET_CTRL_SEAL then s
    else if !s.on Reg.RPL_RING_CFG_GUEST then { s with rpl := { s.rpl with sets := markNewest 1 3 s.rpl.sets } }
    else
      let s1 := s.mark Reg.RPL_SET_CTRL_SEAL
      ({ s1 with rpl := { s1.rpl with sets := markNewest 1 2 s1.rpl.sets } }).guestCopy x

/-- A write of RPL_SET_CTRL (R367, R368). -/
def State.writeSetCtrl (s : State) (v : Nat) : State :=
  let s1 := s.put Reg.RPL_SET_CTRL_PAGES (bitsOf v 0 22)
  let s2 := s1.when (bitOn v 22) fun t => t.openSet (bitsOf v 0 22)
  s2.when (bitOn v 23) fun t => t.sealSet

/-- SET_OPEN (R367). -/
def execSetOpen (p : Party) (v : Word) (s : State) : Host.Outcome State Fault Refusal :=
  .next (s.fwOnly p fun t => t.writeSetCtrl v.toNat)

/-- SET_SEAL (R368). -/
def execSetSeal (p : Party) (v : Word) (s : State) : Host.Outcome State Fault Refusal :=
  .next (s.fwOnly p fun t => t.writeSetCtrl v.toNat)

/-- SET_SEALED (R368, R385): the copy and its slot data have reached the partner, which seals the SEALING set; GUEST_STALE
clears where the copy took the older sets with it. -/
def execSetSealed (s : State) : Host.Outcome State Fault Refusal :=
  if s.rpl.sets.any (fun (t : InSet) => t.state == 2) && !s.rpl.slotDue
      && s.fab.xfers.all (fun x => x.dead || !(x.owner.engine && x.owner.idx == 3)) then
    let s1 := { s with rpl := { s.rpl with sets := s.rpl.sets.map fun (t : InSet) => if t.state == 2 then { t with state := 3 } else t } }
    .next ((s1.put Reg.RPL_SET_CTRL_SEAL 0).when s.rpl.guestResend fun t => t.put Reg.RPL_MIR_CLIENT_GUEST_STALE 0)
  else .next s

end Sys2Proof.Machine
end

