-- ==== Sys2Proof/Machine/Elementary.lean ====
section
/-! DEFINITION. The exact values of the vector functions (R122, R128), as binary numbers in fixed point with 1,024
fractional bits: far closer than any bound of the tables tells apart. A value that no binary32 code equals carries a
sticky last bit. -/
namespace Sys2Proof

/-! ### Fixed point -/

def fxBits : Nat := 1024
def fxOne : Int := (2 ^ fxBits : Nat)
def fxMul (a b : Int) : Int := a * b / fxOne
def fxDiv (a b : Int) : Int := a * fxOne / b

/-- A finite number in fixed point, cut below 2^-1024. -/
def fxOf : Num → Int
  | .fin s m e =>
    let k : Int := if -1024 ≤ e then (m * 2 ^ (e + 1024).toNat : Nat) else (m / 2 ^ (-1024 - e).toNat : Nat)
    if s then -k else k
  | _ => 0

/-- A fixed-point value as a number that no code equals. -/
def fxNum (i : Int) : Num := .fin (i < 0) (2 * i.natAbs + 1) (-1025)

/-- The sum of t₀ + t₁ + …, each term from its position and the one before it. -/
def fxSum (n : Nat) (t0 : Int) (next : Nat → Int → Int) : Int :=
  ((List.range n).foldl (fun (p : Int × Int) k => (p.1 + p.2, next k p.2)) (0, t0)).1

/-- 2 artanh z for |z| ≤ 1/3. -/
def fxAtanh2 (z : Int) : Int :=
  let q := fxMul z z
  ((List.range 340).foldl (fun (p : Int × Int) k => (p.1 + p.2 / (2 * k + 1 : Nat), fxMul p.2 q)) (0, 2 * z)).1

/-- ln 2 = 2 artanh 1/3. -/
def fxLn2 : Int := fxAtanh2 (fxOne / 3)

/-- arctan 1/n, by its series. -/
def fxAtanInv (n : Nat) : Int :=
  ((List.range 340).foldl (fun (p : Int × Int) k =>
    (p.1 + (if k % 2 = 0 then p.2 else -p.2) / (2 * k + 1 : Nat), p.2 / (n * n : Nat))) (0, fxOne / n)).1

/-- π = 16 arctan 1/5 − 4 arctan 1/239. -/
def fxPi : Int := 16 * fxAtanInv 5 - 4 * fxAtanInv 239

/-- √x in fixed point, for x ≥ 0. -/
def fxSqrt (x : Int) : Int := (isqrtBits 1100 (x.toNat * 2 ^ fxBits) 0 : Nat)

/-! ### The functions -/

/-- e^x; beyond ±2,000 a number far outside every format, on the same side. -/
def expNum (x : Num) : Num :=
  if Num.cmp x (.fin false 2000 0) > 0 then .fin false 1 3000
  else if Num.cmp x (.fin true 2000 0) < 0 then .fin false 1 (-3000)
  else
    let i := fxOf x
    let k := i / fxLn2
    match fxNum (fxSum 200 fxOne fun n t => fxMul t (i - k * fxLn2) / (n + 1 : Nat)) with
    | .fin s m e => .fin s m (e + k)
    | y => y

/-- ln x for x > 0. -/
def fxLn (m : Nat) (e : Int) : Int :=
  let t := topExp m e
  let f := fxOf (.fin false m (e - t))
  let low := 3 * f < 4 * fxOne
  let g := if low then f else f / 2
  (if low then t else t + 1) * fxLn2 + fxAtanh2 (fxDiv (g - fxOne) (g + fxOne))

def lnNum (m : Nat) (e : Int) : Num := fxNum (fxLn m e)
def log2Num (m : Nat) (e : Int) : Num := fxNum (fxDiv (fxLn m e) fxLn2)

/-- 1 / (1 + e^−x). -/
def sigmoidNum (x : Num) : Num :=
  let e := expNum x
  if x.sign then (Num.div e (Num.add .one e).1).1 else (Num.div .one (Num.add .one (expNum x.neg)).1).1

/-- tanh x = (1 − e^−2|x|) / (1 + e^−2|x|) with the sign of x; near zero x (1 − x²/3). -/
def tanhNum (x : Num) : Num :=
  if Num.cmp x.abs (.fin false 1 (-60)) < 0 then
    (Num.mul x (fxNum (fxOne - fxMul (fxOf x) (fxOf x) / 3 - 1))).1
  else
    let e := expNum (Num.mul x.abs (.fin true 2 0)).1
    let q := (Num.div (Num.add .one e.neg).1 (Num.add .one e).1).1
    if x.sign then q.neg else q

/-- Σ (−u)ⁿ / (n! (2n + 1)): the series of the normal integral. -/
def normalSeries (u : Int) : Int :=
  ((List.range 1500).foldl (fun (p : Int × Int) n =>
    (p.1 + p.2 / (2 * n + 1 : Nat), -(fxMul p.2 u) / (n + 1 : Nat))) (0, fxOne)).1

/-- erf x = (2x / √π) Σ; beyond 4 the number just inside ±1. -/
def erfNum (x : Num) : Num :=
  if Num.cmp x.abs (.fin false 4 0) ≥ 0 then .fin x.sign (2 ^ 100 - 1) (-100)
  else (Num.mul x (fxNum (fxDiv (2 * normalSeries (fxMul (fxOf x) (fxOf x))) (fxSqrt fxPi)))).1

/-- φ(x) = e^(−x²/2) / √(2π). -/
def densityNum (x : Num) : Num :=
  (Num.div (expNum (Num.mul (Num.mul x x).1 (.fin true 1 (-1))).1) (fxNum (fxSqrt (2 * fxPi)))).1

/-- Φ(x) = ½ + (x / √(2π)) Σ; beyond ±26 the number just inside 1, or 2^−3000. -/
def normalNum (x : Num) : Num :=
  if Num.cmp x.abs (.fin false 26 0) ≥ 0 then (if x.sign then .fin false 1 (-3000) else .fin false (2 ^ 600 - 1) (-600))
  else fxNum (fxOne / 2 + fxDiv (fxMul (fxOf x) (normalSeries (fxMul (fxOf x) (fxOf x) / 2))) (fxSqrt (2 * fxPi)))

/-- d/dx of x Φ(x): Φ(x) + x φ(x). -/
def dgeluNum (x : Num) : Num := (Num.add (normalNum x) (Num.mul x (densityNum x)).1).1

/-- d/dx of x σ(x): σ(x) (1 + x (1 − σ(x))); 1 − σ(x) is σ(−x). -/
def dsiluNum (x : Num) : Num :=
  (Num.mul (sigmoidNum x) (Num.add .one (Num.mul x (sigmoidNum x.neg)).1).1).1

/-- d/dx erf x: (2 / √π) e^(−x²). -/
def derfNum (x : Num) : Num :=
  (Num.mul (fxNum (fxDiv (2 * fxOne) (fxSqrt fxPi))) (expNum (Num.mul x x).1.neg)).1

/-- sin x, or cos x, for |x| ≤ 2^20: reduced to [0, π/2) and summed by its series. -/
def sinNum (x : Num) (cos : Bool) : Num :=
  let h := fxPi / 2
  let n := fxOf x / h
  let r := fxOf x - n * h
  let q := fxMul r r
  let k := ((n + (if cos then 1 else 0)) % 4).toNat
  let s := fxSum 150 r fun i t => -(fxMul t q) / ((2 * i + 2) * (2 * i + 3) : Nat)
  let c := fxSum 150 fxOne fun i t => -(fxMul t q) / ((2 * i + 1) * (2 * i + 2) : Nat)
  fxNum (if k = 0 then s else if k = 1 then c else if k = 2 then -s else -c)

end Sys2Proof
end

