-- ==== Sys2Proof/Machine/Operands.lean ====
section
/-! DEFINITION. The operand forms of the vector engine: streams of up to four dimensions, block scales, broadcast and
overlap (R113–R117). -/
namespace Sys2Proof

open Machine

/-! ### Streams (R113–R117) -/

def Stream.counts (st : Stream) : List Nat := [st.n0.toNat, st.n1.toNat, st.n2.toNat, st.n3.toNat]
def Stream.strides (st : Stream) : List Int := [st.t0.toInt, st.t1.toInt, st.t2.toInt, st.t3.toInt]

/-- A block-scaled stream: an MX format or block-scaled INT8. -/
def Stream.block (st : Stream) : Bool := st.scale.isSome

/-- A stream of 32-bit words: an index stream (R124). -/
def Stream.words (st : Stream) : Stream := { st with fmt := .fp32, scale := none }

/-- The sum over the dimensions of index × stride; a dimension of count 1 repeats its element (R114). -/
def sumStrides : List Nat → List Int → List Nat → Int
  | n :: ns, t :: ts, i :: is => (if n = 1 then 0 else (i : Int) * t) + sumStrides ns ts is
  | _, _, _ => 0

/-- The element offset of an element (R114). -/
def Stream.offset (st : Stream) (ix : List Nat) : Int := sumStrides st.counts st.strides ix

/-- The extreme element offsets of a generator (R116). -/
def Stream.lowest (st : Stream) : Int :=
  (List.zipWith (fun (n : Nat) (t : Int) => min 0 (((n : Int) - 1) * t)) st.counts st.strides).foldl (· + ·) 0
def Stream.highest (st : Stream) : Int :=
  (List.zipWith (fun (n : Nat) (t : Int) => max 0 (((n : Int) - 1) * t)) st.counts st.strides).foldl (· + ·) 0

/-- Element positions, i0 varying fastest (R114). -/
def coords : List Nat → List (List Nat)
  | [] => [[]]
  | n :: ns => (coords ns).flatMap fun r => (List.range n).map fun i => i :: r

/-- The first byte of an element, its bit there, and the bytes that it touches (R50). -/
def Stream.place (st : Stream) (o : Int) : Int × Nat × Nat :=
  let bit : Int := o * st.fmt.bits
  let sh := (bit % 8).toNat
  ((st.base.toNat : Int) + bit / 8, sh, (sh + st.fmt.bits + 7) / 8)

/-- The byte of an element's scale. -/
def Stream.scaleAt (st : Stream) (o : Int) : Int := ((st.scale.map (·.toNat)).getD 0 : Int) + o / 32

/-- The byte ranges of a stream, first and last, its scale array included. -/
def Stream.ranges (st : Stream) : List (Int × Int) :=
  let hi := st.place st.highest
  ((st.place st.lowest).1, hi.1 + hi.2.2 - 1) :: (if st.block then [(st.scaleAt st.lowest, st.scaleAt st.highest)] else [])

/-- The stream rules of R114 and R116 that concern one stream. -/
def Stream.genOk (st : Stream) : Bool :=
  st.counts.all (fun n => 1 ≤ n && n ≤ 65536) && st.ranges.all (fun r => 0 ≤ r.1 && r.2 < 0x400000)
    && (!st.block || (st.t0.toInt == 1
      && ((List.zipWith (fun (n : Nat) (t : Int) => n ≤ 1 || t % 32 == 0) st.counts st.strides).drop 1).all id))

/-- Whether the counts of an input fit the counts of the instruction (R114). -/
def Stream.fits (st : Stream) (shape : List Nat) : Bool :=
  (List.zipWith (fun (n m : Nat) => n == m || n == 1) st.counts shape).all id

/-- Two ranges of bytes meet. -/
def rangesMeet (a b : List (Int × Int)) : Bool := a.any fun x => b.any fun y => x.1 ≤ y.2 && y.1 ≤ x.2

/-- Whether an instruction runs in serial mode (R117). -/
def serialMode (ins outs : List Stream) : Bool :=
  ins.any fun a => outs.any fun d => a != d && rangesMeet a.ranges d.ranges

end Sys2Proof
end

