-- ==== Sys2Proof/Machine/Vector.lean ====
section
/-! DEFINITION. The stream vector engine (R113–R132): streams, elementary operations, functions and
derivatives, row reductions, and random numbers. -/
namespace Sys2Proof

open Machine

/-! ### Elements in scratchpad -/

/-- Bytes of a scratchpad as a number. -/
def spNat (sp : Sparse Byte) (a n : Nat) : Nat := leNat ((List.range n).map fun k => sget memZero sp (a + k))

/-- The decoded element of a stream (R50, R52, R59). -/
def Stream.read (st : Stream) (sp : Sparse Byte) (o : Int) : Val :=
  let p := st.place o
  let code := spNat sp p.1.toNat p.2.2 / 2 ^ p.2.1 % 2 ^ st.fmt.bits
  if st.block then st.fmt.decodeScaled (spNat sp (st.scaleAt o).toNat 1) code else st.fmt.decode code

/-- What an instruction has done to its scratchpad: the contents, the cells written (newest first), the
flags, and the open output blocks of its two output streams. -/
structure SpWork where
  sp : Sparse Byte
  wrote : List Host.Cell := []
  flags : Nat := 0
  buf1 : List (Val × Rm) := []
  buf2 : List (Val × Rm) := []

def SpWork.byte (w : SpWork) (a : Nat) (b : Byte) : SpWork :=
  { w with sp := sset memZero w.sp a b, wrote := (a, b) :: w.wrote }

def SpWork.flag (w : SpWork) (f : Nat) : SpWork := { w with flags := w.flags ||| f }

/-- Write bytes from an address on. -/
def SpWork.bytes (w : SpWork) (a : Nat) (bs : List Byte) : SpWork := (cellsAt a bs).foldl (fun t c => t.byte c.1 c.2) w

/-- Write the code of an element (R50). -/
def SpWork.code (w : SpWork) (st : Stream) (o : Int) (c : Nat) : SpWork :=
  let p := st.place o
  w.bytes p.1.toNat (leBytes p.2.2 (setBits (spNat w.sp p.1.toNat p.2.2) p.2.1 st.fmt.bits c))

/-- Write the last 32 elements of a block output, and their scale (R76, R117). -/
def SpWork.blockOut (w : SpWork) (st : Stream) (o : Int) (mxrule sat : Bool) (vs : List (Val × Rm)) : SpWork :=
  let r := st.fmt.encodeBlock mxrule sat vs
  let w1 := (r.2.1.mapIdx fun k c => (k, c)).foldl (fun t q => t.code st (o - 31 + q.1) q.2) w
  (w1.byte (st.scaleAt (o - 31)).toNat (BitVec.ofNat 8 r.1)).flag r.2.2

/-! ### Results -/

/-- The arithmetic control word as an instruction sampled it (R62). -/
structure Acw where
  rmode : Nat
  strict : Bool
  sat : Bool
  mxrule : Bool
deriving DecidableEq, Repr

def Machine.State.acw (s : State) (c : Nat) : Acw :=
  ⟨s.get (Reg.CORE_ACW_RMODE c), s.on (Reg.CORE_ACW_STRICT c), s.on (Reg.CORE_ACW_SAT c), s.on (Reg.CORE_ACW_MXRULE c)⟩

/-- Flags join CORE_ASW (R63). -/
def Machine.State.orAsw (s : State) (c f : Nat) : State :=
  s.setReg (Reg.CORE_ASW c) (s.reg (Reg.CORE_ASW c) ||| BitVec.ofNat 32 f)

/-- A result before its encoding: the exact or binary32 internal value, its flags, the exact mathematical
value where it is known to be a number that a code can equal, and DROP's mask. -/
structure VRes where
  x : Num
  fl : Nat
  exact : Option Num
  keep : Bool := true

/-- An exact result. -/
def VRes.of (r : Num × Nat) : VRes := { x := r.1, fl := r.2, exact := some r.1 }

/-- INVALID for a signalling input (R71). -/
def sigFlags (vs : List Val) : Nat := flIf (vs.any (·.snan)) flInvalid

/-- Encode a result into a plain output, with the flags of R74: a strict function sets INEXACT when the
encoded result differs from the exact value (R122), and UNDERFLOW when its rounding is then tiny as well. -/
def encodeRes (f : Fmt) (rm : Rm) (sat strict : Bool) (r : VRes) : Nat × Nat :=
  let e := f.encode rm sat strict r.x
  let asIs := match r.exact with
    | some v => Num.cmp v r.x == 0 && v.isNan == r.x.isNan
    | none => r.x.isNan
  if !strict || asIs then (e.1, e.2 ||| r.fl)
  else
    let got := (f.decode e.1).num
    let differs := match r.exact with
      | some v => Num.cmp got v != 0
      | none => true
    let tiny := match r.x with
      | .fin s m k => m == 0 || (roundMag f.info rm s m k).2.2
      | _ => false
    (e.1, (e.2 &&& 7) ||| r.fl ||| flIf differs flInexact ||| flIf (differs && tiny) flUnderflow)

/-- Write a result to an output stream: encoded at once, or for a block format rounded to binary32 by RNE
with the flush and kept until its block is complete (R117, R119). -/
def SpWork.out (w : SpWork) (st : Stream) (o : Int) (a : Acw) (strict : Bool) (rm : Rm) (r : VRes) (second : Bool) : SpWork :=
  if st.block then
    let q := round32 .rne false r.x
    let buf := (if second then w.buf2 else w.buf1) ++ [(⟨q.1, false⟩, rm)]
    let w1 := w.flag (r.fl ||| q.2)
    let w2 := if buf.length = 32 then w1.blockOut st o a.mxrule a.sat buf else w1
    let left := if buf.length = 32 then [] else buf
    if second then { w2 with buf2 := left } else { w2 with buf1 := left }
  else
    let e := encodeRes st.fmt rm a.sat strict r
    (w.code st o e.1).flag e.2

/-! ### Elementary operations (R119, R121, R128) -/

inductive VElem where
  | add | sub | mul | fma | max | min | abs | neg | cvt | sel | drelu
  | cmp (r : Rel)
deriving DecidableEq, Repr

def ofBool (b : Bool) : Num := if b then .one else .zero false

/-- The relation of CMP: any comparison with NaN is false, except NE (R121). -/
def relHolds (r : Rel) (a b : Num) : Bool :=
  let nan := a.isNan || b.isNan
  match r with
  | .eq => !nan && Num.cmp a b == 0
  | .ne => nan || Num.cmp a b != 0
  | .lt => !nan && Num.cmp a b < 0
  | .le => !nan && Num.cmp a b ≤ 0
  | .unknown => false

/-- The exact result of an elementary operation. Under RDN an exact cancellation is −0 in both modes: DESIGN CHOICE
for fast mode, of which R91 does not speak (log entry 124). -/
def VElem.eval (op : VElem) (rdn : Bool) (vs : List Val) : VRes :=
  let a := ((vs[0]?).map (·.num)).getD .nan
  let b := ((vs[1]?).map (·.num)).getD .nan
  let c := ((vs[2]?).map (·.num)).getD .nan
  let r : Num × Nat := match op with
    | .add => Num.add a b rdn
    | .sub => Num.add a b.neg rdn
    | .mul => Num.mul a b
    | .fma => Num.fma a b c rdn
    | .max => (if a.isNan || b.isNan then .nan else if Num.cmp a b ≥ 0 then a else b, 0)
    | .min => (if a.isNan || b.isNan then .nan else if Num.cmp a b ≤ 0 then a else b, 0)
    | .abs => (a.abs, 0)
    | .neg => (a.neg, 0)
    | .cvt => (a, 0)
    | .sel => (if c.isZero then b else a, 0)
    | .drelu => (if a.isNan then .nan else if Num.cmp a (.zero false) > 0 then b else .zero false, 0)
    | .cmp q => (ofBool (relHolds q a b), 0)
  .of (r.1, r.2 ||| sigFlags vs)

/-! ### Functions and derivatives (R119, R122, R128) -/

/-- What the manual fixes of a function's value on NaN-free inputs. -/
inductive FnSpec where
  /-- the value and its flags -/
  | is (x : Num) (fl : Nat)
  /-- within n ulp of an exact finite non-zero value -/
  | near (n : Nat) (exact : Num)
  /-- within n ulp or 2^k of an exact value -/
  | band (n : Nat) (k : Int) (exact : Num)
  /-- left to the algorithm; the exact value where a code can equal it -/
  | free (exact : Option Num)

def half : Num := .fin false 1 (-1)

/-- 1 / √a for a finite a above 0, with at least 96 bits. -/
def rsqrtExact (m : Nat) (e : Int) : Num :=
  let k0 : Nat := 300 + m.log2
  let k : Nat := k0 + ((k0 + e) % 2).toNat
  let r := isqrtBits ((2 ^ k / m).log2 / 2 + 1) (2 ^ k / m) 0
  let q := sticky r (-(e + k) / 2) (r * r * m != 2 ^ k)
  .fin false q.1 q.2

/-- An exact value, within n ulp unless it is zero or infinite. -/
def nearOr (n : Nat) (r : Num × Nat) : FnSpec :=
  match r.1 with
  | .fin _ m _ => if m = 0 then .is r.1 r.2 else .near n r.1
  | _ => .is r.1 r.2

/-- A logarithm: 1 ulp, or 2^-24 for a in [0.5, 2] (R122). -/
def logSpec (a v : Num) : FnSpec :=
  if Num.cmp half a ≤ 0 && Num.cmp a (.fin false 1 1) ≤ 0 then .band 1 (-24) v else nearOr 1 (v, 0)

/-- |a| ≤ 2^20 (R122). -/
def sinRange (a : Num) : Bool := Num.cmp a.abs (.fin false 1 20) ≤ 0

/-- The rules of R122 and R128 for each function. -/
def VFn.spec (fn : VFn) (a b : Num) : FnSpec :=
  match fn with
  | .div => nearOr 1 (Num.div a b)
  | .sqrt => nearOr 1 (Num.sqrt a)
  | .rcp => nearOr 1 (Num.div .one a)
  | .rsqrt => match a with
    | .fin s m e => if m = 0 then .is (.inf s) flDivZero else if s then .is .nan flInvalid else .near 1 (rsqrtExact m e)
    | .inf s => if s then .is .nan flInvalid else .is (.zero false) 0
    | .nan => .is .nan 0
  | .exp => match a with
    | .inf s => .is (if s then .zero false else .inf false) 0
    | x => .near 1 (if x.isZero then .one else expNum x)
  | .exp2 => match a with
    | .fin s m e =>
      if exactAt m e 0 then
        let k : Int := (m * 2 ^ e.toNat / 2 ^ (-e).toNat : Nat)
        .near 1 (.fin false 1 (if s then -(min k 3000) else min k 3000))
      else .near 1 (expNum (Num.mul a (fxNum fxLn2)).1)
    | _ => .free none
  | .log => match a with
    | .fin s m e =>
      if m = 0 then .is (.inf true) flDivZero else if s then .is .nan flInvalid
      else logSpec a (if Num.cmp a .one == 0 then .zero false else lnNum m e)
    | .inf s => if s then .is .nan flInvalid else .free none
    | .nan => .is .nan 0
  | .log2 => match a with
    | .fin s m e =>
      if m = 0 then .is (.inf true) flDivZero else if s then .is .nan flInvalid
      else logSpec a (if m == 2 ^ m.log2 then .ofInt (topExp m e) 0 false else log2Num m e)
    | .inf s => if s then .is .nan flInvalid else .free none
    | .nan => .is .nan 0
  | .sigmoid => match a with
    | .inf s => .is (if s then .zero false else .one) 0
    | x => .near 2 (if x.isZero then half else sigmoidNum x)
  | .tanh => match a with
    | .inf s => .is (.fin s 1 0) 0
    | x => nearOr 2 (if x.isZero then x else tanhNum x, 0)
  | .erf => if a.isInf then .free none else nearOr 2 (if a.isZero then a else erfNum a, 0)
  | .gelu => match a with
    | .inf s => .is (if s then .zero true else .inf false) 0
    | x => nearOr 2 (if x.isZero then x else (Num.mul x (normalNum x)).1, 0)
  | .silu => match a with
    | .inf s => .is (if s then .zero true else .inf false) 0
    | x => nearOr 2 (if x.isZero then x else (Num.mul x (sigmoidNum x)).1, 0)
  | .sin => if sinRange a then .band 2 (-22) (if a.isZero then a else sinNum a false) else .is .nan flInvalid
  | .cos => if sinRange a then .band 2 (-22) (if a.isZero then .one else sinNum a true) else .is .nan flInvalid
  | .dsigmoid =>
    let p := Num.mul b a
    let q := Num.add .one a.neg
    let r := Num.mul p.1 q.1
    nearOr 2 (r.1, p.2 ||| q.2 ||| r.2)
  | .dtanh =>
    let p := Num.mul a a
    let q := Num.add .one p.1.neg
    let r := Num.mul b q.1
    nearOr 2 (r.1, p.2 ||| q.2 ||| r.2)
  | .dgelu => match a with
    | .inf s => let r := Num.mul b (if s then .zero false else .one); .is r.1 r.2
    | x => nearOr 3 (Num.mul b (if x.isZero then half else dgeluNum x))
  | .dsilu => match a with
    | .inf s => let r := Num.mul b (if s then .zero false else .one); .is r.1 r.2
    | x => nearOr 3 (Num.mul b (if x.isZero then half else dsiluNum x))
  | .derf => match a with
    | .inf _ => let r := Num.mul b (.zero false); .is r.1 r.2
    | x => nearOr 2 (Num.mul b (derfNum x))

/-- A binary32 value within n ulp of an exact value (R122), chosen by the algorithm's code. The bound is of normal
results: below them the code gives any subnormal (log entry 25); where the rounded value is infinite it is infinite. -/
def nearValue (n code : Nat) (x : Num) : Num × Nat :=
  match x with
  | .fin s m e =>
    let i := Fmt.fp32.info
    let c := (roundMag i .rne s m e).1
    let f := roundMag i .rtz s m e
    if c > i.maxMag then (.inf s, flOverflow)
    else if c + n < 2 ^ 23 then ((Fmt.fp32.decode (withSign .fp32 s (code % 2 ^ 23))).num, 0)
    else
      let below := if f.2.1 then n else n - 1
      let mag := f.1 - below + code % (below + n + 1)
      if mag > i.maxMag then (.inf s, flOverflow) else ((Fmt.fp32.decode (withSign .fp32 s mag)).num, 0)
  | y => (y, 0)

/-- Whether an exact value of SIN or COS counts as near a zero of the result, where the absolute bound of R122 holds: below a
bound that the manual does not give, a free value of at most 1/2 (log entry 25). -/
def nearZero (x : Num) : Bool := Num.cmp x.abs (.fin false 1 (-1 - (Config.sinZeroBand : Int))) < 0

/-- A binary32 value within n ulp of an exact value, or near a zero within 2^k of it: the code itself where it lies
there. -/
def bandValue (n code : Nat) (k : Int) (x : Num) : Num × Nat :=
  let y := num32 code
  let d := (Num.add y x.neg).1.abs
  if nearZero x && !y.isNan && !y.isInf && Num.cmp d (.fin false 1 k) ≤ 0 then (y, 0)
  else if x.isZero then (x, 0) else nearValue n code x

/-- The flush of R73 for an internal binary32 value. -/
def flush32 (strict : Bool) (x : Num) : Num := (round32 .rne strict x).1

/-- The binary32 internal result of a function (R119): flushed in fast mode, kept in strict mode. -/
def VFn.eval (fn : VFn) (strict : Bool) (a b : Num) : VRes :=
  if a.isNan || b.isNan then .of (.nan, 0)
  else
    let code := (Config.vecFn fn a.reduce b.reduce).toNat
    match fn.spec a b with
    | .is x fl => let q := round32 .rne strict x; { x := q.1, fl := fl ||| q.2, exact := some x }
    | .near n e => let q := nearValue n code e; { x := flush32 strict q.1, fl := q.2, exact := some e }
    | .band n k e => let q := bandValue n code k e; { x := flush32 strict q.1, fl := q.2, exact := some e }
    | .free e =>
      let x := num32 code
      let finite := !a.isInf && !b.isInf
      { x := flush32 strict x, fl := flIf (finite && x.isInf) flOverflow, exact := if finite then e else some x }

/-- A function of one or two inputs. DIV and SQRT in strict mode round once, at the encoding (R119). -/
def VFn.result (fn : VFn) (strict : Bool) (vs : List Val) : VRes :=
  let a := ((vs[0]?).map (·.num)).getD .nan
  let b := if vs.length = 2 then ((vs[1]?).map (·.num)).getD .nan else .zero false
  let r := if strict && fn = .div then VRes.of (Num.div a b)
    else if strict && fn = .sqrt then VRes.of (Num.sqrt a)
    else fn.eval strict a b
  { r with fl := r.fl ||| sigFlags vs }

/-- SUBEXP: e^(a − b), the difference exact (R122). -/
def subexpResult (strict : Bool) (vs : List Val) : VRes :=
  let a := ((vs[0]?).map (·.num)).getD .nan
  let b := ((vs[1]?).map (·.num)).getD .nan
  let d := Num.add a b.neg
  let r := VFn.exp.eval strict d.1 (.zero false)
  { r with fl := r.fl ||| d.2 ||| sigFlags vs }

end Sys2Proof

namespace Sys2Proof.Machine

/-! ### Row reductions (R123–R125) -/

/-- One addition of a reduction. -/
def rowAdd (rm : Rm) (strict : Bool) (x y : Num) : Num × Nat :=
  let s := Num.add x y (rm == .rdn)
  let r := round32 rm strict s.1
  (r.1, s.2 ||| r.2)

/-- One level of the pairwise adder tree. -/
def treeLevel (rm : Rm) (strict : Bool) : List Num → List Num × Nat
  | x :: y :: l =>
    let r := rowAdd rm strict x y
    let t := treeLevel rm strict l
    (r.1 :: t.1, r.2 ||| t.2)
  | l => (l, 0)

/-- The sum of one group. -/
def groupSum (rm : Rm) (strict : Bool) (v : List Num) : Num × Nat :=
  let r := (List.range 4).foldl (fun (a : List Num × Nat) _ =>
    if a.1.length ≤ 1 then a else let t := treeLevel rm strict a.1; (t.1, a.2 ||| t.2)) (v, 0)
  (r.1.headD (.zero true), r.2)

/-- The group size of a row (R123). -/
def groupSize (n : Nat) : Nat := if n ≥ 16 then 16 else if n ≥ 8 then 8 else 4

/-- The row sum in the order of R123, padded with −0. -/
def rowSum (rm : Rm) (strict : Bool) (terms : List Num) : Num × Nat :=
  let n := terms.length
  let g := groupSize n
  let padded := terms ++ List.replicate (ceilDiv n g * g - n) (Num.zero true)
  (List.range (ceilDiv n g)).foldl (fun (a : Num × Nat) q =>
    let v := groupSum rm strict ((padded.drop (q * g)).take g)
    let r := rowAdd rm strict a.1 v.1
    (r.1, a.2 ||| v.2 ||| r.2)) (.zero true, 0)

/-- The winner of a row (R108, R124): the lowest index of a NaN, or of the largest or smallest value. -/
def rowWinner (isMax : Bool) (vs : List Num) : Nat :=
  match vs.findIdx? (·.isNan) with
  | some j => j
  | none =>
    ((List.range vs.length).foldl (fun (b : Nat) j =>
      match vs[j]?, vs[b]? with
      | some x, some y => if (if isMax then Num.cmp x y > 0 else Num.cmp x y < 0) then j else b
      | _, _ => b) 0)

/-! ### Running an instruction -/

/-- The classes of CORE_VX_STATUS (R132). -/
def clsElem : Nat := 0
def clsFn : Nat := 1
def clsRed : Nat := 2
def clsRand : Nat := 3

/-- The scratchpad bytes that an input stream reads. -/
def streamBytes (st : Stream) : List Nat :=
  (coords st.counts).flatMap fun ix =>
    let o := st.offset ix
    let p := st.place o
    (List.range p.2.2).map (fun k => p.1.toNat + k) ++ (if st.block then [(st.scaleAt o).toNat] else [])

/-- The end of an instruction: its bytes are stored, its flags join ASW, and its counters advance; a write
that meets poison only in part ends the LAUNCH with MEM_UE (R157). -/
def State.vecEnd (s : State) (c : Nat) (o : Op) (w : SpWork) (cls elems : Nat) (serial strict : Bool) : State :=
  let base := spBase + c * 0x400000
  let cells := w.wrote.reverse.map fun e => (base + e.1, e.2)
  let bad := s.partialPoison cells
  let s1 := (s.store cells).orAsw c (w.flags &&& reported strict)
  let n := (s1.get64 (Reg.CORE_VX_ELEM_LO_ELEM_LO c) (Reg.CORE_VX_ELEM_HI_ELEM_HI c) + elems) % 2 ^ 64
  let s2 := (s1.put64 (Reg.CORE_VX_ELEM_LO_ELEM_LO c) (Reg.CORE_VX_ELEM_HI_ELEM_HI c) n).put (Reg.CORE_VX_STATUS_CLASS c) cls
  let s3 := s2.when serial fun t => t.bump (Reg.CORE_VX_SERIAL_CNT_COUNT c)
  match bad with
  | [] => s3
  | pa :: _ => s3.ueOp o 1 c pa

/-- What an instruction names, for the checks at issue. -/
structure VArgs where
  ins : List Stream
  outs : List Stream
  /-- the counts that the inputs must fit -/
  shape : List Nat
  /-- an operand outside its range (REASON 10), stream rules aside -/
  badOperand : Bool
  /-- the first output is of a row reduction, or an index: no block rows -/
  rows : Bool

/-- The REASON with which an instruction stops at issue (R116, R503): 10 for an operand, 5 for a stream. -/
def VArgs.reason (v : VArgs) : Option Nat :=
  if v.badOperand || !((v.ins ++ v.outs).all fun st => st.fmt.operand st.block) then some 10
  else if !((v.ins ++ v.outs).all (·.genOk)) || !(v.ins.all fun st => st.fits v.shape)
      || v.outs.any (fun st => st.block && (v.rows || st.n0.toNat % 32 != 0)) then some 5
  else none

/-- A vector instruction of the LAUNCH that a core runs: checked, its inputs read, its work done and stored. The cycles
held on an earlier instruction's region and on the banks (R118, R145) are timing: free numbers. ADDR of a stream rule's
PERMISSION is 0: DESIGN CHOICE (log entry 33). -/
def State.vector (s : State) (c : Nat) (v : VArgs) (e : MemErr) (cls elems : Nat) (strict : Bool)
    (f : Op → SpWork → SpWork) : State :=
  s.seqInstr c fun o t0 =>
    match v.reason with
    | some r => t0.stopPerm c r 0
    | none =>
      let t := t0.holdCycles c
      let base := spBase + c * 0x400000
      let reads := v.ins.flatMap streamBytes
      let t1 := t.meetErrs (some o.ctx) (fun pa => base ≤ pa && reads.contains (pa - base)) e
      match reads.find? fun a => t1.poisoned (base + a) with
      | some a => t1.ueOp o 1 c (base + a)
      | none => t1.vecEnd c o (f o { sp := (t1.core c).sp }) cls elems (serialMode v.ins v.outs) strict

/-- An instruction is strict when STRICT = 1 and its output is binary32 or binary16 (R74). -/
def strictOut (a : Acw) (d : Stream) : Bool := a.strict && d.fmt.ieee && !d.block

/-- The element index of an element (R129). -/
def elemIndex (dr : Draw) (o : Int) : Nat := toField 45 (dr.e0.toNat + o)

/-- The rounding mode of an element; random instructions take RNE for SR (R130). -/
def elemMode (a : Acw) (dr : Draw) (seed : Nat) (random : Bool) (o : Int) : Rm :=
  if random && a.rmode = 5 then .rne
  else Rm.ofCode a.rmode (if a.rmode = 5 then roundBits (elemIndex dr o) dr.draw.toNat seed dr.tensor.toNat else 0)

/-- The job seed of an operation's context (R67, R166). -/
def State.seedOf (s : State) (o : Op) : Nat := s.get (Reg.SUB_CTX_SEED_SEED o.ctx)

/-- An element-wise instruction: element by element in element order, which serial mode is too (R114, R117). The
elements counted are those of the first output stream: DESIGN CHOICE (log entry 124). -/
def State.vecMap (s : State) (c : Nat) (ins : List Stream) (d : Stream) (mask : Option Stream) (dr : Draw) (e : MemErr)
    (cls : Nat) (bad : Bool) (f : Acw → Nat → Int → List Val → VRes) : State :=
  let a := s.acw c
  let strict := strictOut a d
  let v : VArgs := { ins := ins, outs := d :: mask.toList, shape := d.counts, badOperand := bad, rows := false }
  let v1 := { v with badOperand := bad || (mask.any fun q => q.counts != d.counts) }
  s.vector c v1 e cls (d.counts.foldl (· * ·) 1) strict fun o w =>
    (coords d.counts).foldl (fun w ix =>
      let off := d.offset ix
      let r := f a (s.seedOf o) off (ins.map fun st => st.read w.sp (st.offset ix))
      let rm := elemMode a dr (s.seedOf o) (cls == clsRand) off
      let w1 := w.out d off a strict rm r false
      match mask with
      | none => w1
      | some q => w1.out q (q.offset ix) a false rm (.of (ofBool r.keep, 0)) true) w

/-- The counts of a reduction's rows: those of the output with the reduced dimensions of input A, and the
positions within a row. A second input must have A's counts there or 1: DESIGN CHOICE (log entry 124). -/
def rowShape (rdims : Nat) (a d : Stream) : List Nat × List Nat :=
  let full := if rdims = 2 then [a.n0.toNat, a.n1.toNat, d.n2.toNat, d.n3.toNat] else [a.n0.toNat, d.n1.toNat, d.n2.toNat, d.n3.toNat]
  (full, if rdims = 2 then [a.n0.toNat, a.n1.toNat, 1, 1] else [a.n0.toNat, 1, 1, 1])

/-- The position of an element of a row. -/
def addIx (a b : List Nat) : List Nat := List.zipWith (· + ·) a b

/-- A row reduction (R123, R124): row by row in element order. -/
def State.vecRows (s : State) (c rdims : Nat) (ins outs : List Stream) (a d : Stream) (e : MemErr) (cls : Nat)
    (strict : Bool) (f : Op → List Nat → List (List Val × Int) → SpWork → SpWork) : State :=
  let sh := rowShape rdims a d
  let badDims := !(rdims == 1 || rdims == 2)
    || !(outs.all fun q => q.n0.toNat == 1 && (rdims == 1 || q.n1.toNat == 1) && q.counts == d.counts)
  let v : VArgs := { ins := ins, outs := outs, shape := sh.1, badOperand := badDims, rows := true }
  s.vector c v e cls (d.counts.foldl (· * ·) 1) strict fun o w =>
    (coords d.counts).foldl (fun w ix =>
      let row := (coords sh.2).map fun r =>
        (ins.map fun st => st.read w.sp (st.offset (addIx ix r)), a.offset (addIx ix r))
      f o ix row w) w

/-- The sum of the terms of each row (R123, R125). -/
def State.vecSum (s : State) (c rdims : Nat) (ins : List Stream) (a d : Stream) (dr : Draw) (e : MemErr)
    (term : List Val → Num × Nat) : State :=
  let acw := s.acw c
  let strict := strictOut acw d
  let inner := if strict && acw.rmode != 5 then Rm.ofCode acw.rmode 0 else .rne
  s.vecRows c rdims ins [d] a d e clsRed strict fun o ix row w =>
    let ts := row.map fun r => term r.1
    let q := rowSum inner strict (ts.map (·.1))
    let fl := ts.foldl (fun x t => x ||| t.2) (q.2 ||| sigFlags (row.flatMap (·.1)))
    w.out d (d.offset ix) acw strict (elemMode acw dr (s.seedOf o) false (d.offset ix)) (.of (q.1, fl)) false

/-- The winner of each row with its index (R124). -/
def State.vecWinner (s : State) (c rdims : Nat) (isMax : Bool) (ib : Word) (a d d2 : Stream) (dr : Draw) (e : MemErr) : State :=
  let acw := s.acw c
  let strict := strictOut acw d
  let d2 := d2.words
  s.vecRows c rdims [a] [d, d2] a d e clsRed strict fun o ix row w =>
    let vals := row.flatMap (·.1)
    let j := rowWinner isMax (vals.map (·.num))
    let x := ((vals[j]?).map (·.num)).getD .nan
    let w1 := w.out d (d.offset ix) acw strict (elemMode acw dr (s.seedOf o) false (d.offset ix)) (.of (x, sigFlags vals)) false
    w1.code d2 (d2.offset ix) ((ib.toNat + j) % 2 ^ 32)

/-! ### Meanings -/

/-- An elementary instruction: class 0, that of DEXP and DRELU too, which R128 calls elementary (log entry 124). -/
def State.vecElem (s : State) (c : Nat) (op : VElem) (ins : List Stream) (d : Stream) (dr : Draw) (e : MemErr) : State :=
  s.vecMap c ins d none dr e clsElem (op == .cmp .unknown) fun a _ _ vs => op.eval (a.rmode == 3 && !d.block) vs

/-- A function or derivative. -/
def State.vecFn (s : State) (c : Nat) (fn : VFn) (ins : List Stream) (d : Stream) (dr : Draw) (e : MemErr) : State :=
  s.vecMap c ins d none dr e clsFn false fun a _ _ vs => fn.result (strictOut a d) vs

/-- ADD (R119): a + b. -/
def execAdd (core : Fin 144) (a b d : Stream) (dr : Draw) (e : MemErr) (s : State) : Host.Outcome State Fault Refusal :=
  .next (s.vecElem core.val .add [a, b] d dr e)

/-- SUB (R119): a − b. -/
def execSub (core : Fin 144) (a b d : Stream) (dr : Draw) (e : MemErr) (s : State) : Host.Outcome State Fault Refusal :=
  .next (s.vecElem core.val .sub [a, b] d dr e)

/-- MUL (R119): a × b. -/
def execMul (core : Fin 144) (a b d : Stream) (dr : Draw) (e : MemErr) (s : State) : Host.Outcome State Fault Refusal :=
  .next (s.vecElem core.val .mul [a, b] d dr e)

/-- MAX (R121). -/
def execMax (core : Fin 144) (a b d : Stream) (dr : Draw) (e : MemErr) (s : State) : Host.Outcome State Fault Refusal :=
  .next (s.vecElem core.val .max [a, b] d dr e)

/-- MIN (R121). -/
def execMin (core : Fin 144) (a b d : Stream) (dr : Draw) (e : MemErr) (s : State) : Host.Outcome State Fault Refusal :=
  .next (s.vecElem core.val .min [a, b] d dr e)

/-- FMA (R119): a × b + c with one rounding. -/
def execFma (core : Fin 144) (a b c d : Stream) (dr : Draw) (e : MemErr) (s : State) : Host.Outcome State Fault Refusal :=
  .next (s.vecElem core.val .fma [a, b, c] d dr e)

/-- ABS (R122). -/
def execAbs (core : Fin 144) (a d : Stream) (dr : Draw) (e : MemErr) (s : State) : Host.Outcome State Fault Refusal :=
  .next (s.vecElem core.val .abs [a] d dr e)

/-- NEG (R122). -/
def execNeg (core : Fin 144) (a d : Stream) (dr : Draw) (e : MemErr) (s : State) : Host.Outcome State Fault Refusal :=
  .next (s.vecElem core.val .neg [a] d dr e)

/-- CVT (R122). -/
def execCvt (core : Fin 144) (a d : Stream) (dr : Draw) (e : MemErr) (s : State) : Host.Outcome State Fault Refusal :=
  .next (s.vecElem core.val .cvt [a] d dr e)

/-- CMP (R121): 1 or 0 in the output format. -/
def execCmp (core : Fin 144) (rel : Rel) (a b d : Stream) (dr : Draw) (e : MemErr) (s : State) : Host.Outcome State Fault Refusal :=
  .next (s.vecElem core.val (.cmp rel) [a, b] d dr e)

/-- SEL (R121): A where C is non-zero, B where C is a zero; a NaN in C selects A. -/
def execSel (core : Fin 144) (a b c d : Stream) (dr : Draw) (e : MemErr) (s : State) : Host.Outcome State Fault Refusal :=
  .next (s.vecElem core.val .sel [a, b, c] d dr e)

/-- DEXP (R128): dy × y, the elementary MUL. -/
def execDexp (core : Fin 144) (a b d : Stream) (dr : Draw) (e : MemErr) (s : State) : Host.Outcome State Fault Refusal :=
  .next (s.vecElem core.val .mul [a, b] d dr e)

/-- DRELU (R128): dy where y > 0, else +0; a NaN y gives the canonical NaN. -/
def execDrelu (core : Fin 144) (a b d : Stream) (dr : Draw) (e : MemErr) (s : State) : Host.Outcome State Fault Refusal :=
  .next (s.vecElem core.val .drelu [a, b] d dr e)

/-- DIV (R119, R122). -/
def execDiv (core : Fin 144) (a b d : Stream) (dr : Draw) (e : MemErr) (s : State) : Host.Outcome State Fault Refusal :=
  .next (s.vecFn core.val .div [a, b] d dr e)

/-- DSIGMOID (R128). -/
def execDsigmoid (core : Fin 144) (a b d : Stream) (dr : Draw) (e : MemErr) (s : State) : Host.Outcome State Fault Refusal :=
  .next (s.vecFn core.val .dsigmoid [a, b] d dr e)

/-- DTANH (R128). -/
def execDtanh (core : Fin 144) (a b d : Stream) (dr : Draw) (e : MemErr) (s : State) : Host.Outcome State Fault Refusal :=
  .next (s.vecFn core.val .dtanh [a, b] d dr e)

/-- DGELU (R128). -/
def execDgelu (core : Fin 144) (a b d : Stream) (dr : Draw) (e : MemErr) (s : State) : Host.Outcome State Fault Refusal :=
  .next (s.vecFn core.val .dgelu [a, b] d dr e)

/-- DSILU (R128). -/
def execDsilu (core : Fin 144) (a b d : Stream) (dr : Draw) (e : MemErr) (s : State) : Host.Outcome State Fault Refusal :=
  .next (s.vecFn core.val .dsilu [a, b] d dr e)

/-- DERF (R128). -/
def execDerf (core : Fin 144) (a b d : Stream) (dr : Draw) (e : MemErr) (s : State) : Host.Outcome State Fault Refusal :=
  .next (s.vecFn core.val .derf [a, b] d dr e)

/-- SUBEXP (R122). -/
def execSubexp (core : Fin 144) (a b d : Stream) (dr : Draw) (e : MemErr) (s : State) : Host.Outcome State Fault Refusal :=
  .next (s.vecMap core.val [a, b] d none dr e clsFn false fun w _ _ vs => subexpResult (strictOut w d) vs)

/-- SQRT (R122). -/
def execSqrt (core : Fin 144) (a d : Stream) (dr : Draw) (e : MemErr) (s : State) : Host.Outcome State Fault Refusal :=
  .next (s.vecFn core.val .sqrt [a] d dr e)

/-- RCP (R122). -/
def execRcp (core : Fin 144) (a d : Stream) (dr : Draw) (e : MemErr) (s : State) : Host.Outcome State Fault Refusal :=
  .next (s.vecFn core.val .rcp [a] d dr e)

/-- RSQRT (R122). -/
def execRsqrt (core : Fin 144) (a d : Stream) (dr : Draw) (e : MemErr) (s : State) : Host.Outcome State Fault Refusal :=
  .next (s.vecFn core.val .rsqrt [a] d dr e)

/-- EXP (R122). -/
def execExp (core : Fin 144) (a d : Stream) (dr : Draw) (e : MemErr) (s : State) : Host.Outcome State Fault Refusal :=
  .next (s.vecFn core.val .exp [a] d dr e)

/-- EXP2 (R122). -/
def execExp2 (core : Fin 144) (a d : Stream) (dr : Draw) (e : MemErr) (s : State) : Host.Outcome State Fault Refusal :=
  .next (s.vecFn core.val .exp2 [a] d dr e)

/-- LOG (R122). -/
def execLog (core : Fin 144) (a d : Stream) (dr : Draw) (e : MemErr) (s : State) : Host.Outcome State Fault Refusal :=
  .next (s.vecFn core.val .log [a] d dr e)

/-- LOG2 (R122). -/
def execLog2 (core : Fin 144) (a d : Stream) (dr : Draw) (e : MemErr) (s : State) : Host.Outcome State Fault Refusal :=
  .next (s.vecFn core.val .log2 [a] d dr e)

/-- SIGMOID (R122). -/
def execSigmoid (core : Fin 144) (a d : Stream) (dr : Draw) (e : MemErr) (s : State) : Host.Outcome State Fault Refusal :=
  .next (s.vecFn core.val .sigmoid [a] d dr e)

/-- TANH (R122). -/
def execTanh (core : Fin 144) (a d : Stream) (dr : Draw) (e : MemErr) (s : State) : Host.Outcome State Fault Refusal :=
  .next (s.vecFn core.val .tanh [a] d dr e)

/-- ERF (R122). -/
def execErf (core : Fin 144) (a d : Stream) (dr : Draw) (e : MemErr) (s : State) : Host.Outcome State Fault Refusal :=
  .next (s.vecFn core.val .erf [a] d dr e)

/-- GELU (R122). -/
def execGelu (core : Fin 144) (a d : Stream) (dr : Draw) (e : MemErr) (s : State) : Host.Outcome State Fault Refusal :=
  .next (s.vecFn core.val .gelu [a] d dr e)

/-- SILU (R122). -/
def execSilu (core : Fin 144) (a d : Stream) (dr : Draw) (e : MemErr) (s : State) : Host.Outcome State Fault Refusal :=
  .next (s.vecFn core.val .silu [a] d dr e)

/-- SIN (R122). -/
def execSin (core : Fin 144) (a d : Stream) (dr : Draw) (e : MemErr) (s : State) : Host.Outcome State Fault Refusal :=
  .next (s.vecFn core.val .sin [a] d dr e)

/-- COS (R122). -/
def execCos (core : Fin 144) (a d : Stream) (dr : Draw) (e : MemErr) (s : State) : Host.Outcome State Fault Refusal :=
  .next (s.vecFn core.val .cos [a] d dr e)

/-- RSUM (R123). -/
def execRsum (core : Fin 144) (rdims : Byte) (a d : Stream) (dr : Draw) (e : MemErr) (s : State) : Host.Outcome State Fault Refusal :=
  .next (s.vecSum core.val rdims.toNat [a] a d dr e fun vs => (((vs[0]?).map (·.num)).getD .nan, 0))

/-- RSUMSQ (R123). -/
def execRsumsq (core : Fin 144) (rdims : Byte) (a d : Stream) (dr : Draw) (e : MemErr) (s : State) : Host.Outcome State Fault Refusal :=
  .next (s.vecSum core.val rdims.toNat [a] a d dr e fun vs =>
    Num.mul (((vs[0]?).map (·.num)).getD .nan) (((vs[0]?).map (·.num)).getD .nan))

/-- RDOT (R123). -/
def execRdot (core : Fin 144) (rdims : Byte) (a b d : Stream) (dr : Draw) (e : MemErr) (s : State) : Host.Outcome State Fault Refusal :=
  .next (s.vecSum core.val rdims.toNat [a, b] a d dr e fun vs =>
    Num.mul (((vs[0]?).map (·.num)).getD .nan) (((vs[1]?).map (·.num)).getD .nan))

/-- RMAX (R124). -/
def execRmax (core : Fin 144) (rdims : Byte) (ib : Word) (a d d2 : Stream) (dr : Draw) (e : MemErr) (s : State) : Host.Outcome State Fault Refusal :=
  .next (s.vecWinner core.val rdims.toNat true ib a d d2 dr e)

/-- RMIN (R124). -/
def execRmin (core : Fin 144) (rdims : Byte) (ib : Word) (a d d2 : Stream) (dr : Draw) (e : MemErr) (s : State) : Host.Outcome State Fault Refusal :=
  .next (s.vecWinner core.val rdims.toNat false ib a d d2 dr e)

/-- RAND (R129): U = x1[31:8] × 2⁻²⁴. -/
def execRand (core : Fin 144) (d : Stream) (dr : Draw) (e : MemErr) (s : State) : Host.Outcome State Fault Refusal :=
  .next (s.vecMap core.val [] d none dr e clsRand false fun _ seed off _ =>
    .of (.fin false ((drawWords (elemIndex dr off) dr.draw.toNat seed dr.tensor.toNat).2.1 / 256) (-24), 0))

/-- DROP (R129): a × k where kept, +0 where dropped, and the mask. -/
def execDrop (core : Fin 144) (thr : BitVec 24) (k : Word) (a d : Stream) (mask : Option Stream) (dr : Draw) (e : MemErr) (s : State) : Host.Outcome State Fault Refusal :=
  .next (s.vecMap core.val [a] d mask dr e clsRand false fun _ seed off vs =>
    let keep := (drawWords (elemIndex dr off) dr.draw.toNat seed dr.tensor.toNat).2.1 / 256 ≥ thr.toNat
    let kv := Fmt.fp32.decode k.toNat
    let p := Num.mul (((vs[0]?).map (·.num)).getD .nan) kv.num
    { VRes.of (if keep then (p.1, p.2 ||| sigFlags (kv :: vs)) else (.zero false, sigFlags vs)) with keep := keep })

/-- −ln x by the LOG algorithm (R122, R129). -/
def negLog (x : Num) : Num := (VFn.log.eval false x (.zero false)).x.neg

/-- The Gumbel term of SAMPLE: G = −ln(−ln U), U = (x2[31:8] + 0.5) × 2⁻²⁴ (R129). -/
def gumbel (x2 : Nat) : Num := negLog (negLog (.fin false (2 * (x2 / 256) + 1) (-25)))

/-- SAMPLE (R129, R131): the index of the largest a × τ⁻¹ + G of each row, each candidate rounded to
binary32 by RNE. -/
def execSample (core : Fin 144) (rdims : Byte) (tauInv ib : Word) (a d : Stream) (dr : Draw) (e : MemErr) (s : State) :
    Host.Outcome State Fault Refusal :=
  let dw := d.words
  let tau := Fmt.fp32.decode tauInv.toNat
  .next (s.vecRows core.val rdims.toNat [a] [dw] a dw e clsRand false fun o ix row w =>
    let cand (r : List Val × Int) : Num × Nat :=
      let x2 := (drawWords (elemIndex dr r.2) dr.draw.toNat (s.seedOf o) dr.tensor.toNat).2.2.1
      let m := Num.fma (((r.1[0]?).map (·.num)).getD .nan) tau.num (gumbel x2)
      let q := round32 .rne false m.1
      (q.1, m.2 ||| q.2 ||| sigFlags (tau :: r.1))
    let cs := row.map cand
    let w1 := w.flag (cs.foldl (fun x t => x ||| t.2) 0)
    w1.code dw (dw.offset ix) ((ib.toNat + rowWinner true (cs.map (·.1))) % 2 ^ 32))

/-- CORE_VX_ELEM_LO_READ (R132, R502): the low word, and the latch of the high word. -/
def execCoreVxElemLoRead (core : Fin 144) (s : State) : Host.Outcome State Fault Refusal :=
  .next ((s.setLatch (Reg.CORE_VX_ELEM_HI core.val) (s.reg (Reg.CORE_VX_ELEM_HI core.val))).answer (BitVec.ofNat 32 (s.coarse (s.reg (Reg.CORE_VX_ELEM_LO core.val)).toNat)))

/-- ACW_WRITE (R61, R62, R64): RMODE, STRICT, SAT and MXRULE take the written bits. -/
def execAcwWrite (core : Fin 144) (v : Word) (s : State) : Host.Outcome State Fault Refusal :=
  .next (s.seqInstr core.val fun _ t => t.setReg (Reg.CORE_ACW core.val) (v &&& 0x3F))

/-- ASW_CLEAR (R61, R63): the flags with a 1 in the mask are cleared. -/
def execAswClear (core : Fin 144) (v : Word) (s : State) : Host.Outcome State Fault Refusal :=
  .next (s.seqInstr core.val fun _ t => t.setReg (Reg.CORE_ASW core.val) (t.reg (Reg.CORE_ASW core.val) &&& ~~~v))

end Sys2Proof.Machine
end

