-- ==== Sys2Proof/Machine/Matrix.lean ====
section
/-! DEFINITION. The matrix array and its accumulator tiles (R77–R112), and the LAUNCHes that run core
programs (R104, R109, R110, R184). -/
namespace Sys2Proof

/-! ### Product classes (R60, R78) -/

/-- 0 FP32, 1 16-bit, 2 narrow rate 4, 3 narrow rate 8: the class of an operand's width. -/
def Fmt.widthClass : Fmt → Nat
  | .fp32 => 0
  | .fp16 => 1
  | .bf16 => 1
  | .e3m2 => 3
  | .e2m3 => 3
  | .e2m1 => 3
  | _ => 2

/-- The product class: that of the wider operand. -/
def productClass (a b : Fmt) : Nat := min a.widthClass b.widthClass

/-- Group size g and indices per pass Kp of a class (R78). -/
def groupOf (cls : Nat) : Nat := 2 ^ cls
def passLen (cls : Nat) : Nat := if cls = 0 then 64 else 128 * 2 ^ cls

/-! ### Operands -/

/-- An operand array: base, format, scale array. -/
def arrayAt (base : BitVec 32) (fmt : Fmt) (scale : Option (BitVec 32)) : Stream :=
  ⟨base, fmt, scale, 1, 1, 1, 1, 1, 1, 1, 1⟩

/-- A row length in elements: whole blocks for a block-scaled operand (R51, R82). -/
def rowLen (block : Bool) (n : Nat) : Nat := if block then ceilDiv n 32 * 32 else n

def MmaArgs.aArr (x : MmaArgs) : Stream := arrayAt x.aAddr x.aFmt x.aScale
def MmaArgs.bArr (x : MmaArgs) : Stream := arrayAt x.bAddr x.bFmt x.bScale
def MmaArgs.cls (x : MmaArgs) : Nat := productClass x.aFmt x.bFmt

/-- The element offset of A(i, k): rows along K (R82). -/
def MmaArgs.aOff (x : MmaArgs) (i k : Nat) : Int := (i * rowLen x.aScale.isSome x.k.toNat + k : Nat)

/-- The element offset of B(k, j) (R81, R82): B's columns lie one after another, each contiguous along K; with TRANS = 1
its rows do, each contiguous along N. For a plain format DESIGN CHOICE (log entry 27). -/
def MmaArgs.bOff (x : MmaArgs) (k j : Nat) : Int :=
  if x.trans then (k * rowLen x.bScale.isSome x.n.toNat + j : Nat) else (j * rowLen x.bScale.isSome x.k.toNat + k : Nat)

/-- The tile that an MMA names: an exact one by its first identifier (R81). -/
def MmaArgs.head (x : MmaArgs) : Nat := if x.exact then x.tile.toNat / 4 * 4 else x.tile.toNat

/-- The bytes of an operand of r rows of n elements: its data and its scales. -/
def operandBytes (fmt : Fmt) (block : Bool) (r n : Nat) : Nat := ceilDiv (r * n * fmt.bits) 8 + if block then r * ceilDiv n 32 else 0

/-- The bytes that an MMA streams and, where it fills, fills. -/
def MmaArgs.bytes (x : MmaArgs) (fill : Bool) : Nat :=
  operandBytes x.aFmt x.aScale.isSome x.m.toNat x.k.toNat
    + if !fill then 0 else if x.trans then operandBytes x.bFmt x.bScale.isSome x.k.toNat x.n.toNat
      else operandBytes x.bFmt x.bScale.isSome x.n.toNat x.k.toNat

/-- The code and scale of an element; a plain operand has scale code 127 (R53). -/
def elemCode (st : Stream) (sp : Sparse Byte) (o : Int) : Nat × Nat :=
  let p := st.place o
  (spNat sp p.1.toNat p.2.2 / 2 ^ p.2.1 % 2 ^ st.fmt.bits, if st.block then spNat sp (st.scaleAt o).toNat 1 else 127)

/-- The bytes of an element and of its scale. -/
def elemBytes (st : Stream) (o : Int) : List Nat :=
  let p := st.place o
  (List.range p.2.2).map (fun k => p.1.toNat + k) ++ (if st.block then [(st.scaleAt o).toNat] else [])

/-- Whether every byte of an array up to an element offset lies in the scratchpad. -/
def arrayIn (st : Stream) (last : Int) : Bool :=
  let p := st.place last
  p.1 + p.2.2 ≤ 0x400000 && (!st.block || st.scaleAt last < 0x400000)

/-- The ranges of R81 and the combinations of R60 and R503. -/
def MmaArgs.operandsOk (x : MmaArgs) : Bool :=
  let m := x.m.toNat
  let n := x.n.toNat
  let k := x.k.toNat
  x.tile.toNat < 32 && 1 ≤ m && m ≤ 128 && 1 ≤ n && n ≤ 128 && 1 ≤ k && k ≤ 65536
    && (x.anchor.all fun a => -254 ≤ a.toInt && a.toInt ≤ 254)
    && x.aFmt.operand x.aScale.isSome && x.bFmt.operand x.bScale.isSome
    && (!x.exact || x.cls ≥ 2)
    && arrayIn x.aArr (x.aOff (m - 1) (k - 1)) && arrayIn x.bArr (x.bOff (k - 1) (n - 1))

/-! ### The arithmetic of an element -/

/-- A weight as the array holds it: none in a padding slot. -/
abbrev Weights := Nat → Nat → Option (Nat × Nat)

/-- The product at index k of an element (R59, R79); a padding weight gives −0. A signalling operand
is INVALID (R90). -/
def product (af bf : Fmt) (a : Nat × Nat) (b : Option (Nat × Nat)) : Num × Nat :=
  match b with
  | none => (.zero true, 0)
  | some q =>
    let x := af.decodeScaled a.2 a.1
    let y := bf.decodeScaled q.2 q.1
    let p := Num.mul x.num y.num
    (p.1, p.2 ||| sigFlags [x, y])

/-- One pass of the ordered regime (R88): the stages from the first that holds a real product; the stages
above it add −0 to −0 (R89). A group's products join slot by slot, so a quiet NaN before opposite infinities hides their
INVALID: DESIGN CHOICE (log entry 125). -/
def orderedPass (g kp len : Nat) (prod : Nat → Num × Nat) : Num × Nat :=
  let pad := kp - len
  (List.range (kp / g - pad / g)).foldl (fun (t : Num × Nat) r =>
    let stage := pad / g + r
    let sum := (List.range g).foldl (fun (x : Num × Nat) i =>
      let slot := stage * g + i
      let p : Num × Nat := if slot < pad then (.zero true, 0) else prod (slot - pad)
      let q := Num.add x.1 p.1
      (q.1, x.2 ||| p.2 ||| q.2)) (Num.zero true, 0)
    let q := Num.add t.1 sum.1
    let z := round32 .rne false q.1
    (z.1, t.2 ||| sum.2 ||| q.2 ||| z.2)) (.zero true, 0)

/-- Ordered accumulation of an element over its passes (R79, R88). -/
def orderedElem (cls k : Nat) (prod : Nat → Num × Nat) (start : Num) : Num × Nat :=
  let kp := passLen cls
  (List.range (ceilDiv k kp)).foldl (fun (t : Num × Nat) p =>
    let v := orderedPass (groupOf cls) kp (min kp (k - p * kp)) fun i => prod (p * kp + i)
    let q := Num.add t.1 v.1
    let z := round32 .rne false q.1
    (z.1, t.2 ||| v.2 ||| q.2 ||| z.2)) (start, 0)

/-- Strict accumulation of an element (R91). -/
def strictElem (rm : Rm) (k : Nat) (prod : Nat → Num × Nat) (start : Num) : Num × Nat :=
  (List.range k).foldl (fun (t : Num × Nat) i =>
    let p := prod i
    let q := Num.add p.1 t.1 (rm == .rdn)
    let z := round32 rm true q.1
    (z.1, t.2 ||| p.2 ||| q.2 ||| z.2)) (start, 0)

/-! ### Exact tiles (R92–R99) -/

/-- The tag of a sum from two tags (R98), and INVALID for +∞ with −∞. -/
def joinTags (a b : Nat) : Nat × Nat :=
  if a = 0 then (b, 0) else if b = 0 || a = b then (a, 0) else if a = 3 || b = 3 then (3, 0) else (3, flInvalid)

/-- The value of an element of an exact tile (R92, R98, R99). -/
def Machine.ExactTile.value (t : Machine.ExactTile) (k : Nat) : Num :=
  match sget (fun _ => 0) t.tags k with
  | 0 => .ofInt (sget (fun _ => 0) t.x k) (t.anchor - 64) false
  | 1 => .inf false
  | 2 => .inf true
  | _ => .nan

/-- One product joins an element (R93, R98). X is not cut to 128 bits: within the window and the total of R95 no sum
reaches them, and of an X that a debug write made larger the manual says nothing. DESIGN CHOICE (log entry 145). -/
def Machine.ExactTile.add (t : Machine.ExactTile) (k : Nat) (p : Num) : Machine.ExactTile × Nat :=
  match p with
  | .fin s m e => ({ t with x := sset (fun _ => 0) t.x k (sget (fun _ => 0) t.x k + scaled s m e (t.anchor - 64)) }, 0)
  | .inf s =>
    let j := joinTags (sget (fun _ => 0) t.tags k) (if s then 2 else 1)
    ({ t with tags := sset (fun _ => 0) t.tags k j.1 }, j.2)
  | .nan => ({ t with tags := sset (fun _ => 0) t.tags k 3 }, 0)

/-! ### Reading a tile out (R105–R108) -/

def ArdArgs.out (x : ArdArgs) : Stream := arrayAt x.dst x.fmt x.dstScale

/-- The address of the index array of a reduction: right after the value array (R108). -/
def ArdArgs.indexAt (x : ArdArgs) : Nat := x.dst.toNat + ceilDiv (x.m.toNat * x.fmt.bits) 8

/-- The ranges and combinations of R105 and R503. -/
def ArdArgs.operandsOk (x : ArdArgs) : Bool :=
  let m := x.m.toNat
  let n := x.n.toNat
  x.tile.toNat < 32 && 1 ≤ m && m ≤ 128 && 1 ≤ n && n ≤ 128 && x.fmt.operand x.dstScale.isSome && x.red != .unknown
    && (!x.dstScale.isSome || (n % 32 == 0 && x.red == .none))
    && (if x.red = .none then arrayIn x.out ((m * n - 1 : Nat) : Int) else x.indexAt + 4 * m ≤ 0x400000)

end Sys2Proof

namespace Sys2Proof.Machine

/-! ### Tiles (R100–R102) -/

def Core.tile (k : Core) (t : Nat) : Sparse Nat := sget (fun _ => []) k.tiles t
def Core.setTile (k : Core) (t : Nat) (d : Sparse Nat) : Core := { k with tiles := sset (fun _ => []) k.tiles t d }
def Core.ex (k : Core) (t : Nat) : ExactTile := sget (fun _ => {}) k.exact t
def Core.setEx (k : Core) (t : Nat) (d : ExactTile) : Core := { k with exact := sset (fun _ => {}) k.exact t d }
def Core.mark (k : Core) (t : Nat) : Nat := sget (fun _ => 0) k.marks t
def Core.setMark (k : Core) (t f : Nat) : Core := { k with marks := sset (fun _ => 0) k.marks t f }

/-- A tile becomes plain, holding +0, with cleared marks. -/
def State.plainTile (s : State) (c t : Nat) : State :=
  (s.put (accState c t) 0).modCore c fun k => ((k.setTile t []).setEx t {}).setMark t 0

/-- The four identifiers of an exact tile. -/
def quad (t : Nat) : List Nat := (List.range 4).map fun q => t / 4 * 4 + q

/-- Whether an identifier belongs to a tile in the exact-head or fallen-back state. -/
def State.inExact (s : State) (c t : Nat) : Bool :=
  s.get (accState c (t / 4 * 4)) == 1 || s.get (accState c (t / 4 * 4)) == 3

/-- Whether identifiers lie in the tile mask of a LAUNCH (R109). -/
def inMask (o : Op) (ids : List Nat) : Bool := ids.all fun t => bitOn (descBytes o.desc 48 4) t

/-! ### MMA -/

/-- Whether KEEP applies over the weights in the array (R83): the same weights, and one pass. -/
def keeps (x : MmaArgs) (w : Option WeightTile) : Bool :=
  x.keep && x.k.toNat ≤ passLen x.cls && (w.any fun w =>
    w.addr == x.bAddr.toNat && w.fmt == x.bFmt && w.scale == x.bScale.map (·.toNat) && w.trans == x.trans
      && w.n == x.n.toNat)
def State.keepApplies (s : State) (c : Nat) (x : MmaArgs) : Bool := keeps x (s.core c).weights

/-- The weights of an MMA: as filled, or as the array holds them by slot, the last index in the last slot (R79, R83).
Under a class other than that of the fill the slots keep their places from the last: DESIGN CHOICE (log entry 125). -/
def weightsOf (x : MmaArgs) (sp : List Host.Cell) (held : Option WeightTile) : Weights :=
  if keeps x held then
    let slots := (held.map (·.slots)).getD []
    fun k j => if slots.length + k < x.k.toNat then none else (slots[slots.length + k - x.k.toNat]?).bind fun r => r[j]?
  else
    fun k j => some (elemCode x.bArr sp (x.bOff k j))
def State.mmaWeights (s : State) (c : Nat) (x : MmaArgs) : Weights := weightsOf x (s.core c).sp (s.core c).weights

/-- The weight tile that a fill leaves in the array: that of the last pass (R83). -/
def leftWeights (x : MmaArgs) (w : Weights) : WeightTile :=
  let kp := passLen x.cls
  let k := x.k.toNat
  let lo := (ceilDiv k kp - 1) * kp
  { addr := x.bAddr.toNat, fmt := x.bFmt, scale := x.bScale.map (·.toNat), trans := x.trans, n := x.n.toNat, kp := kp,
    slots := List.replicate (kp - (k - lo)) [] ++
      (List.range (k - lo)).map fun i => (List.range x.n.toNat).filterMap fun j => w (lo + i) j }

/-- The scratchpad bytes that an MMA reads. -/
def mmaReads (x : MmaArgs) (fill : Bool) : List Nat :=
  ((List.range x.m.toNat).flatMap fun i => (List.range x.k.toNat).flatMap fun k => elemBytes x.aArr (x.aOff i k))
    ++ if fill then (List.range x.k.toNat).flatMap fun k => (List.range x.n.toNat).flatMap fun j => elemBytes x.bArr (x.bOff k j) else []

/-- The operand bytes of an MMA whose operands a duplicate retains (R350), in the order in which it reads them. -/
def MmaJob.operands (m : MmaJob) : List Byte := (mmaReads m.args (!keeps m.args m.kept)).map fun a => sget (fun _ => (0 : Byte)) m.sp a

/-- Element positions (i, j) of the M × N region. -/
def region (m n : Nat) : List (Nat × Nat) := (List.range m).flatMap fun i => (List.range n).map fun j => (i, j)

def MmaJob.aAt (m : MmaJob) (i k : Nat) : Nat × Nat := elemCode m.args.aArr m.sp (m.args.aOff i k)
def MmaJob.weights (m : MmaJob) : Weights := weightsOf m.args m.sp m.kept
def MmaJob.prod (m : MmaJob) (i j k : Nat) : Num × Nat := product m.args.aFmt m.args.bFmt (m.aAt i k) (m.weights k j)

/-- Ordered accumulation of an element from a start (R88). -/
def MmaJob.ordered (m : MmaJob) (i j : Nat) (start : Num) : Num × Nat := orderedElem m.args.cls m.args.k.toNat (m.prod i j) start

/-- Accumulation of an element outside the exact regime: strict passes are those of binary32 and of binary16 (R74, R91). -/
def MmaJob.elem (m : MmaJob) (i j : Nat) (start : Num) : Num × Nat :=
  let x := m.args
  if m.strict && (x.cls == 0 || (x.cls == 1 && (x.aFmt == .fp16 || x.bFmt == .fp16))) then
    strictElem (if m.rmode = 5 then .rne else Rm.ofCode m.rmode 0) x.k.toNat (m.prod i j) start
  else m.ordered i j start

/-- The scale exponents c of the products, those under a scale of 0xFF excluded (R93, R94). -/
def MmaJob.exps (m : MmaJob) : List Int :=
  (region m.args.m.toNat m.args.n.toNat).flatMap fun q => (List.range m.args.k.toNat).filterMap fun k =>
    match m.weights k q.2 with
    | none => none
    | some b => if (m.aAt q.1 k).2 = 255 || b.2 = 255 then none else some (((m.aAt q.1 k).2 : Int) + b.2 - 254)

/-- A plain or fallen-back tile takes the result of an MMA in its region (R88, R91). A signalling NaN that it holds (a
debug write stores any code) marks INVALID where it is an addend (R71, R90). -/
def TileImg.accumulate (g : TileImg) (x : MmaArgs) (elem : Nat → Nat → Num → Num × Nat) : TileImg :=
  (region x.m.toNat x.n.toNat).foldl (fun g q =>
    let k := 128 * q.1 + q.2
    let v : Val := if x.acc then val32 (sget (fun _ => 0) g.data k) else ⟨.zero true, false⟩
    let r := elem q.1 q.2 v.num
    { g with data := sset (fun _ => 0) g.data k (code32 r.1), mark := g.mark ||| r.2 ||| flIf v.snan flInvalid }) g

/-- The products of an MMA join an exact tile (R93, R98). -/
def TileImg.exactAdd (g : TileImg) (m : MmaJob) : TileImg :=
  (region m.args.m.toNat m.args.n.toNat).foldl (fun g q => (List.range m.args.k.toNat).foldl (fun g i =>
    let p := m.prod q.1 q.2 i
    let r := g.exact.add (128 * q.1 + q.2) p.1
    { g with exact := r.1, mark := g.mark ||| p.2 ||| r.2 }) g) g

/-- A tile falls back (R96): each element rounded once to binary32 with the flush, a tag giving INVALID. -/
def TileImg.fallBack (g : TileImg) : TileImg :=
  let e := g.exact
  let rs := (e.x.map (·.1) ++ e.tags.map (·.1)).map fun k => (k, round32 .rne false (e.value k))
  { state := 3
    data := rs.foldl (fun d r => sset (fun _ => 0) d r.1 (code32 r.2.1)) []
    exact := { e with x := [], tags := [] }
    mark := g.mark ||| rs.foldl (fun a r => a ||| r.2.2) (flIf (!e.tags.isEmpty) flInvalid) }

def intMax (l : List Int) : Option Int := l.foldl (fun a x => some (match a with | some y => max x y | none => x)) none
def intMin (l : List Int) : Option Int := l.foldl (fun a x => some (match a with | some y => min x y | none => x)) none

/-- What the notice of a fallback reports (R97, R446): the anchor, the least and the largest c, and the running total. -/
structure RangeNote where
  anchor : Int
  least : Int
  most : Int
  total : Nat
deriving DecidableEq, Repr

/-- An MMA with EXACT = 1 on a tile, opened where ACC = 0 (R92–R97). -/
def MmaJob.runExact (m : MmaJob) (g : TileImg) : TileImg × Option RangeNote :=
  let x := m.args
  let exps := m.exps
  let g1 := if x.acc then g else { state := 1, exact := { anchor := ((x.anchor.map (·.toInt)).or (intMax exps)).getD 0 } }
  if g1.state = 3 then (g1.accumulate x m.ordered, none)
  else
    let e := g1.exact
    let total := e.total + x.k.toNat
    if exps.all (fun k => e.anchor - 32 ≤ k && k ≤ e.anchor) && total ≤ 2 ^ 24 then
      let g2 := g1.exactAdd m
      ({ g2 with exact := { g2.exact with total := total } }, none)
    else (g1.fallBack.accumulate x m.ordered, some ⟨e.anchor, (intMin exps).getD 0, (intMax exps).getD 0, total⟩)

/-- An MMA on the state of its tile: a plain one ends an exact tile first (R102), and an opening one clears the marks
(R101). -/
def MmaJob.run (m : MmaJob) (g : TileImg) : TileImg × Option RangeNote :=
  if m.args.exact then m.runExact g
  else
    let g1 := if g.state = 0 then g else {}
    ((if m.args.acc then g1 else { g1 with mark := 0 }).accumulate m.args m.elem, none)

/-- The state of a tile takes effect. -/
def State.setTileImg (s : State) (c t : Nat) (g : TileImg) : State :=
  (s.put (accState c t) g.state).modCore c fun k => ((k.setTile t g.data).setEx t g.exact).setMark t g.mark

/-- The identifiers of a tile that an MMA replaces: they become plain, or members of the exact tile that opens (R101,
R102). -/
def State.clearQuad (s : State) (c t state : Nat) : State := s.each (quad t) fun u q => (u.plainTile c q).put (accState c q) state

/-- The passes, tile, class and fill of an MMA show in its core's registers (R112). -/
def State.mmaStatus (s : State) (c t passes : Nat) (x : MmaArgs) : State :=
  let n := (s.get64 (Reg.CORE_MX_PASS_LO_PASSES_LO c) (Reg.CORE_MX_PASS_HI_PASSES_HI c) + passes) % 2 ^ 64
  let s1 := s.put64 (Reg.CORE_MX_PASS_LO_PASSES_LO c) (Reg.CORE_MX_PASS_HI_PASSES_HI c) n
  ((s1.put (Reg.CORE_MX_STATUS_TILE c) t).put (Reg.CORE_MX_STATUS_CLASS c) x.cls).put (Reg.CORE_MX_STATUS_TRANS c) (b2n x.trans)

/-- The EXACT_RANGE notice of a fallback (R96, R97, R446). -/
def State.exactRange (s : State) (c t : Nat) (o : Op) (n : RangeNote) : State :=
  let r : FaultRec := { o.faultRec fExactRange 1 c [(1, t), (2, toField 16 n.anchor), (2, toField 16 n.least), (2, toField 16 n.most), (4, n.total)] with notice := true }
  ((s.raise r).bump (Reg.CORE_EXACT_FB_CNT_COUNT c)).modOp o.ring o.idx fun q => { q with noticed := true }

/-- The job that an MMA is on a core; `sp` is the part of the scratchpad that it holds. -/
def State.mmaJob (s : State) (c : Nat) (x : MmaArgs) (sp : List Host.Cell) : MmaJob :=
  { args := x, sp := sp, kept := if x.keep then (s.core c).weights else none, strict := (s.acw c).strict, rmode := (s.acw c).rmode }

/-- The tile sequences that an MMA ends, begins and joins (R345, R347). -/
def State.mmaSeqs (s : State) (c : Nat) (x : MmaArgs) (o : Op) : State :=
  let t := x.head
  let ends := !x.exact && s.inExact c t
  let fill := !s.keepApplies c x
  let s1 := if x.acc then s else ((if x.exact || ends then quad t else [t]).foldl (fun u q => u.endSeq c q) s).beginSeq c t o
  let s2 := if ends then s1.teeSeq c ((quad t).filter (· != t)) none 0 else s1
  s2.teeSeq c [t] (some (s.mmaJob c x ((s.core c).sp.filter fun e => (mmaReads x fill).contains e.1))) (x.bytes fill)

/-- An MMA whose operands stand (R81–R103). -/
def State.mmaRun (s : State) (c : Nat) (x : MmaArgs) (o : Op) : State :=
  let t := x.head
  let m := s.mmaJob c x (s.core c).sp
  let r := m.run (s.tileImg c t)
  let s1 := s.mmaSeqs c x o
  let s2 := if x.exact then (if x.acc then s1 else s1.clearQuad c t 2) else if s1.inExact c t then s1.clearQuad c t 0 else s1
  let s3 := s2.setTileImg c t r.1
  let s4 := match r.2 with
    | none => s3
    | some n => s3.exactRange c t o n
  ((s4.arrayOn c).modCore c fun k => if s.keepApplies c x then k else { k with weights := some (leftWeights x m.weights) }).mmaStatus c t (ceilDiv x.k.toNat (passLen x.cls)) x

/-- The errors that a read of tiles meets (R155–R157): corrected ones are counted, and an uncorrectable one ends the
operation with MEM_UE. Accumulator memory has no PA and no code in MEMORY: both are free values. -/
def State.tileErrs (s : State) (o : Op) (c : Nat) (x : TileErr) (f : State → State) : State :=
  let s1 := s.bump (Reg.CORE_SP_CE_CNT_COUNT c) x.ce
  if !x.ue then f s1
  else
    let a := s1.fresh
    let b := a.2.fresh
    ((b.2.bump (Reg.CORE_SP_UE_CNT_COUNT c)).chargeNoted 2 0 25 fMemUe).faultOp o fMemUe 1 c [(1, a.1 % 256), (8, b.1 % 2 ^ 64)]

/-- The effect of MMA on the state t of its core's LAUNCH o. -/
def State.mma (t : State) (o : Op) (c : Nat) (a : MmaArgs) (e : MemErr) (x : TileErr) : State :=
  let ids := if a.exact || t.inExact c a.tile.toNat then quad a.tile.toNat else [a.tile.toNat]
  if !a.operandsOk || (a.exact && a.acc && !t.inExact c a.tile.toNat) then t.stopPerm c 10 0
  else if !inMask o ids then t.stopPerm c 4 a.tile.toNat
  else
    let base := spBase + c * 0x400000
    let reads := mmaReads a (!t.keepApplies c a)
    let t1 := (t.holdCycles c).meetErrs (some o.ctx) (fun pa => base ≤ pa && reads.contains (pa - base)) e
    match reads.find? fun b => t1.poisoned (base + b) with
    | some b => t1.ueOp o 1 c (base + b)
    | none => if a.acc then t1.tileErrs o c x fun u => u.mmaRun c a o else t1.mmaRun c a o

/-- MMA (R81, R503): the operands, then the tile mask, then the scratchpad reads, then the passes; an opening MMA
reads no tile. -/
def execMma (core : Fin 144) (a : MmaArgs) (e : MemErr) (x : TileErr) (s : State) : Host.Outcome State Fault Refusal :=
  .next (s.seqInstr core.val fun o t => t.mma o core.val a e x)

/-! ### ARD -/

/-- The bytes of a tile identifier (R100): binary32 codes in row order, or 32 rows of an exact tile's 128-bit
integers. -/
def State.tileData (s : State) (c t : Nat) : List Byte :=
  let k := s.core c
  if s.get (accState c (t / 4 * 4)) = 1 then
    (List.range 4096).flatMap fun i => leBytes 16 (toField 128 (sget (fun _ => 0) (k.ex (t / 4 * 4)).x (4096 * (t % 4) + i)))
  else (List.range 16384).flatMap fun i => leBytes 4 (sget (fun _ => 0) (k.tile t) i)

/-- The bytes of a tile identifier replaced (R100). -/
def State.setTileData (s : State) (c t : Nat) (bytes : List Byte) : State :=
  let at_ (n i : Nat) : Nat := leNat ((bytes.drop (n * i)).take n)
  s.modCore c fun k =>
    if s.get (accState c (t / 4 * 4)) = 1 then
      let e := k.ex (t / 4 * 4)
      k.setEx (t / 4 * 4) { e with x := (List.range 4096).foldl (fun m i => sset (fun _ => 0) m (4096 * (t % 4) + i) (signed 128 (at_ 16 i))) e.x }
    else k.setTile t ((List.range 16384).foldl (fun m i => sset (fun _ => 0) m i (at_ 4 i)) [])

/-- The code of an element of a plain or fallen-back tile. -/
def State.tileCode (s : State) (c t i j : Nat) : Nat :=
  sget (fun _ => 0) ((s.core c).tile (if s.inExact c t then t / 4 * 4 else t)) (128 * i + j)

/-- A binary32 readout of a plain tile (R106): a copy bit for bit, but for the flush of a subnormal in fast mode. -/
def copyCode (strict : Bool) (c : Nat) : Nat := if !strict && c / 2 ^ 23 % 256 = 0 then c / 2 ^ 31 * 2 ^ 31 else c

/-- The value of an element of a tile as a readout sees it (R102, R106). -/
def State.tileValue (s : State) (c t i j : Nat) : Val :=
  let k := s.core c
  if s.inExact c t then
    let h := t / 4 * 4
    if s.get (accState c h) = 1 then ⟨(k.ex h).value (128 * i + j), false⟩ else val32 (sget (fun _ => 0) (k.tile h) (128 * i + j))
  else val32 (sget (fun _ => 0) (k.tile t) (128 * i + j))

/-- The first rounding of a readout (R106): an exact tile rounds to binary32 before INT8 and block formats. -/
def ardFirst (exact twice : Bool) (x : Num) : Num × Nat := if exact && twice then round32 .rne false x else (x, 0)

/-- INVALID for a tag that a readout converts (R107). -/
def tagFlag (exact : Bool) (x : Num) : Nat := flIf (exact && (x.isInf || x.isNan)) flInvalid

/-- The readout of a tile region without reduction (R106). -/
def State.ardPlain (s : State) (c : Nat) (x : ArdArgs) (seed : Nat) (exact strict : Bool) (w : SpWork) : SpWork :=
  let acw := s.acw c
  let n := x.n.toNat
  let st := x.out
  (region x.m.toNat n).foldl (fun w q =>
    let v := s.tileValue c x.tile.toNat q.1 q.2
    let o : Int := (q.1 * n + q.2 : Nat)
    let rm := elemMode acw { x.dr with e0 := x.dr.e0 + x.rs * BitVec.ofNat 45 q.1 } seed false q.2
    let r := ardFirst exact (st.block || x.fmt == .int8) v.num
    let w1 := w.flag (r.2 ||| tagFlag exact v.num)
    if st.block then
      let buf : List (Val × Rm) := w1.buf1 ++ [(⟨r.1, v.snan⟩, rm)]
      if buf.length = 32 then { w1.blockOut st o acw.mxrule acw.sat buf with buf1 := [] } else { w1 with buf1 := buf }
    else
      let e := if !exact && x.fmt == .fp32 then (copyCode strict (s.tileCode c x.tile.toNat q.1 q.2), 0)
        else x.fmt.encodeVal rm acw.sat strict ⟨r.1, v.snan⟩
      (w1.code st o e.1).flag e.2) w

/-- The readout of one value and index per row (R108). -/
def State.ardReduce (s : State) (c : Nat) (x : ArdArgs) (seed : Nat) (exact strict : Bool) (w : SpWork) : SpWork :=
  let acw := s.acw c
  let st := x.out
  (List.range x.m.toNat).foldl (fun w i =>
    let row := (List.range x.n.toNat).map fun j => s.tileValue c x.tile.toNat i j
    let j := rowWinner (x.red == .max) (row.map (·.num))
    let v := row.getD j ⟨.nan, false⟩
    let rm := elemMode acw { x.dr with e0 := x.dr.e0 + x.rs * BitVec.ofNat 45 i } seed false 0
    let e := if !exact && x.fmt == .fp32 then (copyCode strict (s.tileCode c x.tile.toNat i j), 0) else x.fmt.encodeVal rm acw.sat strict v
    let w1 := (w.code st (i : Nat) e.1).flag (e.2 ||| tagFlag exact v.num)
    w1.bytes (x.indexAt + 4 * i) (leBytes 4 (x.jb.toNat + j))) w

/-- The readout of a tile whose reads gave no error; `head` is the tile that holds its marks. -/
def State.ardRun (t : State) (o : Op) (c : Nat) (a : ArdArgs) (inEx : Bool) (head : Nat) : State :=
  let exact := inEx && t.get (accState c head) == 1
  let strict := (t.acw c).strict && a.fmt.ieee
  let w0 : SpWork := { sp := (t.core c).sp, flags := (t.core c).mark head }
  let w := if a.red = .none then t.ardPlain c a (t.seedOf o) exact strict w0 else t.ardReduce c a (t.seedOf o) exact strict w0
  let base := spBase + c * 0x400000
  let cells := w.wrote.reverse.map fun e => (base + e.1, e.2)
  let t1 := (t.store cells).orAsw c (w.flags &&& reported strict)
  let t2 := if a.red = .none then t1.endSeq c head else t1
  match t.partialPoison cells with
  | [] => t2
  | pa :: _ => t2.ueOp o 1 c pa

/-- The effect of ARD on the state t of its core's LAUNCH o. -/
def State.ard (t : State) (o : Op) (c : Nat) (a : ArdArgs) (x : TileErr) : State :=
  let inEx := t.inExact c a.tile.toNat
  let head := if inEx then a.tile.toNat / 4 * 4 else a.tile.toNat
  if !a.operandsOk then t.stopPerm c 10 0
  else if !inMask o (if inEx then quad head else [head]) then t.stopPerm c 4 a.tile.toNat
  else (t.holdCycles c).tileErrs o c x fun u => u.ardRun o c a inEx head

/-- ARD (R105–R109): a readout changes neither the tile nor its marks. -/
def execArd (core : Fin 144) (a : ArdArgs) (x : TileErr) (s : State) : Host.Outcome State Fault Refusal :=
  .next (s.seqInstr core.val fun o t => t.ard o core.val a x)

/-- CORE_MX_PASS_LO_READ (R112, R502). -/
def execCoreMxPassLoRead (core : Fin 144) (s : State) : Host.Outcome State Fault Refusal :=
  .next ((s.setLatch (Reg.CORE_MX_PASS_HI core.val) (s.reg (Reg.CORE_MX_PASS_HI core.val))).answer (BitVec.ofNat 32 (s.coarse (s.reg (Reg.CORE_MX_PASS_LO core.val)).toNat)))

end Sys2Proof.Machine
end

