-- ==== Sys2Proof/Machine/Launch.lean ====
section
/-! DEFINITION. LAUNCHes: their issue to cores, the clears at their start, and their completion on a core
(R62, R104, R109–R111, R147, R184). -/
namespace Sys2Proof.Machine

/-- The tile mask of a LAUNCH (R109). -/
def Op.tileMask (o : Op) : Nat := descBytes o.desc 48 4

/-- The LAUNCH in flight on a core. -/
def State.launchOn (s : State) (c : Nat) : Option Op := (s.core c).launch.bind fun l => s.op? l.1 l.2

/-- The LAUNCHes in flight that overlap one on a core (R110). -/
def State.overlaps (s : State) (o : Op) : List (Nat × Op) :=
  (s.launchCores o).filterMap fun c => (s.launchOn c).bind fun q => if q.tileMask &&& o.tileMask != 0 then some (c, q) else none

/-- A LAUNCH starts on a core: ACW and ASW 0, tiles cleared for another owner (R62, R104), scratchpad for another
context and at the first LAUNCH after a reset of the core (R147, CORE_ACC_OWNER.VALID of R112). -/
def State.startCore (s : State) (o : Op) (c : Nat) : State :=
  let same := s.on (Reg.CORE_ACC_OWNER_VALID c) && s.get (Reg.CORE_ACC_OWNER_CONTEXT c) == o.ctx
    && s.get (Reg.CORE_ACC_OWNER_GENERATION c) == o.gen && !(s.core c).foreign
  let other := (s.core c).foreign || !s.on (Reg.CORE_ACC_OWNER_VALID c) || s.get (Reg.CORE_ACC_OWNER_CONTEXT c) != o.ctx
  let s0 := if same then s else s.each (List.range 32) fun t k => t.plainTile c k
  let s1 := s0.when other fun t => t.zeroSp c
  let s2 := (s1.setReg (Reg.CORE_ACW c) 0).setReg (Reg.CORE_ASW c) 0
  let s3 := ((s2.put (Reg.CORE_ACC_OWNER_CONTEXT c) o.ctx).put (Reg.CORE_ACC_OWNER_VALID c) 1).put (Reg.CORE_ACC_OWNER_GENERATION c) o.gen
  s3.modCore c fun k => { k with
    launch := some (o.ring, o.idx), program := descBytes o.desc 32 8, args := descBytes o.desc 40 8, foreign := false, wait := none, stall := none, misses := 0, retired := false,
    waitHb := false, lastHb := s.hrc.hbFrame, weights := none, openSeqs := [] }

/-- A LAUNCH that overlaps one of another ring is not issued (R110): ACC_CONFLICT. Where it overlaps several LAUNCHes, the
first one found is the one concerned: DESIGN CHOICE (log entry 125). -/
def State.accConflict (s : State) (o : Op) (c : Nat) (q : Op) : State :=
  let s1 := s.each ((s.overlaps o).filter fun e => e.2.ring == q.ring && e.2.idx == q.idx) fun t e => t.bump (Reg.CORE_ACC_CONFLICT_CNT_COUNT e.1)
  let r : FaultRec := { o.faultRec fAccConflict 1 c [(2, c), (4, o.tileMask), (4, q.tileMask)] with p2 := some q.party }
  (s1.raise r).reject o fAccConflict

/-- LAUNCH (R110, R179, R184): held while a core cannot take it, refused on an overlap with another ring,
and otherwise issued to every core of its set at once. -/
def execLaunch (ring : Fin 256) (s : State) : Host.Outcome State Fault Refusal :=
  match s.ready ring.val 1 with
  | none => .next s
  | some o =>
    let cs := s.launchCores o
    match (s.overlaps o).find? fun e => e.2.ring != o.ring with
    | some e => .next (s.accConflict o e.1 e.2)
    | none =>
      if !(cs.all s.coreFree) then .next s
      else if s.dieFull (diesOf cs) then .next (s.mark Reg.SUB_EVENT_INFLIGHT_FULL)
      else
        let s1 := (s.issue o (diesOf cs)).modOp o.ring o.idx fun x => { x with cores := cs, coresLeft := cs }
        .next (s1.each cs fun t c => t.startCore o c)

/-- LAUNCH_CORE_COMPLETION (R184, R193, R345): a core's program ends, its tile sequences with it; the LAUNCH
finishes with its last core. -/
def execLaunchCoreCompletion (core : Fin 144) (s : State) : Host.Outcome State Fault Refusal :=
  .next (s.seqInstr core.val fun o t =>
    let c := core.val
    let t1 := (t.endSeqs c).modCore c fun k => { k with launch := none, misses := 0, weights := none }
    let t2 := t1.modOp o.ring o.idx fun x => { x with coresLeft := x.coresLeft.filter (· != c), units := x.units + 1 }
    t2.launchCheck o.ring o.idx)

end Sys2Proof.Machine
end

