-- ==== Sys2Proof/Machine/Dma.lean ====
section
/-! DEFINITION. DMA (R148–R150, R185, R460) and the answer to a READ_REQ (R271). -/
namespace Sys2Proof.Machine

/-! ### The ends of a DMA (R148, R185) -/

/-- One end: its kind (0 VA, 1 scratchpad, 2 remote), its physical core, and its byte addresses in element order. -/
structure DmaEnd where
  kind : Nat
  core : Nat
  bytes : List Nat

/-- Byte offsets of a region's elements, the first count fastest (R114, R185). -/
def offsets : List Nat → List Int → List Int
  | [], _ => [0]
  | n :: ns, ts => (offsets ns ts.tail).flatMap fun o => (List.range n).map fun (i : Nat) => o + i * ts.headD 0

/-- The counts and strides of half a shape block: counts less 1 in 16 bits, then signed 48-bit byte strides. -/
def shapeHalf (bs : List Byte) : List Nat × List Int :=
  ((List.range 4).map fun k => leNat ((bs.drop (2 * k)).take 2) + 1,
   (List.range 4).map fun k => signed 48 (leNat ((bs.drop (8 + 6 * k)).take 6)))

/-- Byte addresses from a base over a shape, each element `esz` bytes long, modulo 2^64. -/
def shapeBytes (base esz : Nat) (sh : List Nat × List Int) : List Nat :=
  (offsets sh.1 sh.2).flatMap fun o => (List.range esz).map fun (k : Nat) => (((base : Int) + o + k) % (2 ^ 64 : Int)).toNat

/-- What the dispatcher reads of a DMA's shape: none where SHAPE = 0. -/
def State.shapeOf (s : State) (o : Op) : Except Nat (Option (List Byte)) :=
  if o.flag 3 then (s.readVa o.ctx (descBytes o.desc 40 8) 64).map some else .ok none

/-- The first poisoned PA of a DMA's shape block. -/
def State.shapePoison (s : State) (o : Op) : Option Nat :=
  if !o.flag 3 then none
  else ((List.range 64).filterMap fun k => s.xlate o.ctx (descBytes o.desc 40 8 + k) false).find? s.poisoned

/-- The source and destination of a DMA. -/
def State.dmaEnds (s : State) (o : Op) (shape : Option (List Byte)) : DmaEnd × DmaEnd :=
  let k := descBytes o.desc 17 1
  let src := descBytes o.desc 24 8
  let dst := descBytes o.desc 32 8
  let run (a : Nat) : List Nat := (List.range (descBytes o.desc 40 8)).map fun i => (a + i) % 2 ^ 64
  let b := match shape with
    | some bs => (shapeBytes src (2 ^ (k % 4)) (shapeHalf (bs.take 32)), shapeBytes dst (2 ^ (k % 4)) (shapeHalf (bs.drop 32)))
    | none => (run src, run dst)
  (⟨bitsOf k 2 2, s.physCore (descBytes o.desc 20 2), b.1⟩, ⟨bitsOf k 4 2, s.physCore (descBytes o.desc 22 2), b.2⟩)

/-- The PAs of an end's bytes that exist: of a remote end none. -/
def State.endBytes (s : State) (c : Nat) (e : DmaEnd) : List Nat :=
  if e.kind = 1 then (e.bytes.filter (· < 0x400000)).map (spAddr e.core)
  else if e.kind = 0 then e.bytes.filterMap fun a => ((s.walk c a).map fun x => x.page + a % 65536).filter paExists
  else []

/-- Both ends lie in one address space: the context's, a core's scratchpad, or that of the remote module. -/
def DmaEnd.sameSpace (a b : DmaEnd) : Bool := a.kind == b.kind && (a.kind != 1 || a.core == b.core)

/-- Source and destination overlap (R149): their address ranges do, or a byte of memory belongs to both. -/
def State.endsOverlap (s : State) (c : Nat) (a b : DmaEnd) : Bool :=
  let q := s.endBytes c b
  (a.sameSpace b && a.bytes.any b.bytes.contains) || (s.endBytes c a).any q.contains

/-- The PAs of a local end, or the address that fails (R141). -/
def State.endPas (s : State) (c : Nat) (e : DmaEnd) (wr : Bool) : Except Nat (List Nat) :=
  if e.kind = 1 then
    match e.bytes.find? fun a => a ≥ 0x400000 with
    | some a => .error a
    | none => .ok (e.bytes.map fun a => spAddr e.core a)
  else
    match e.bytes.find? fun a => (s.xlate c a wr).isNone with
    | some a => .error a
    | none => .ok (e.bytes.filterMap fun a => s.xlate c a wr)

/-- Progress units of a DMA (R150): 4 KiB blocks of the destination. -/
def dmaUnits (n : Nat) : Nat := ceilDiv n 4096

/-- A byte of the source in a sealed page reaches a place where it must not be plain (R460). -/
def State.sealBreach (s : State) (c : Nat) (src dst : DmaEnd) : Bool :=
  src.kind == 0 && src.bytes.any (s.sealedVa c)
    && ((dst.kind == 0 && dst.bytes.any fun a => !s.sealedVa c a) || (dst.kind == 2 && !s.on Reg.SWT_SLICE_ENC))

/-- A breach of R460 rejects an operation; no value of CAUSE is stated for it: a free value. -/
def State.rejectSeal (s : State) (o : Op) : State :=
  let r := s.fresh
  let u := Op.unit s o
  (r.2.sealCount.raise (o.faultRec fSealViolation u.1 u.2 [(2, s.moduleId), (1, s.keySlot), (1, r.1 % 256)])).reject o fSealViolation

/-- An operation that needs an invalid route is rejected at issue (R287). -/
def State.rejectRoute (s : State) (o : Op) (dest : Nat) : State :=
  (s.raise (missRec (some o.party) (routePort (s.route dest)) 5 s.moduleId dest s.sliceTag)).reject o fRouteMiss

/-- A rule rejects an operation at issue: REASON 2 for a field of its descriptor, else 10. -/
def State.rejectRule (s : State) (o : Op) (reason addr : Nat) : State :=
  let u := Op.unit s o
  (s.raise (o.faultRec fPermission u.1 u.2 [(1, reason), (8, addr)])).reject o fPermission

/-- An engine's access fails (R141), or meets poison in a table walk (R157). -/
def State.faultAddr (s : State) (o : Op) (reason addr : Nat) : State :=
  let u := Op.unit s o
  match if reason = 1 then s.walkPoison o.ctx addr else none with
  | some pa => s.ueOp o u.1 u.2 pa
  | none => s.faultOp o fPermission u.1 u.2 [(1, reason), (8, addr)]

/-! ### Reads and writes of an engine -/

/-- An engine's read of PAs: its bytes, or the state in which the operation has ended. -/
def State.engineRead (s : State) (o : Op) (pas : List Nat) (e : MemErr) : Except State (List Byte × State) :=
  let r := s.meetRead o pas e
  match r.2 with
  | .none => .ok (pas.map r.1.paByte, r.1)
  | x => .error (r.1.readStop o (Op.unit s o) 1 x)

/-- Whether the bytes that reach a scratchpad come as whole blocks of memory, which carry their check words (R341). -/
def wholeBlocks (src : List Nat) : Bool := (blocksOf src).any fun b => (List.range 4096).all fun k => src.contains (b + k)

/-- An engine's write into a scratchpad: in block-check mode the check words that whole blocks carry are
compared on arrival (R341, R344: location 5). -/
def State.engineSp (s : State) (o : Op) (whole : Bool) (w : List (Nat × Byte)) (e : MemErr) : Except State State :=
  let u := Op.unit s o
  let s1 := s.spWaits (w.map (·.1))
  match if s.blockMode o.ctx && whole then e.chk.find? fun a => w.any fun x => x.1 == a else none with
  | some a => .error ((s1.countCheck 5 0 ((a - spBase) / 0x400000) (a % 4096) (some o.ctx) o.opc).faultOp o fCheckFail u.1 u.2 (checkDetail 5 0 (a / 4096 * 4096)))
  | none => match s1.partialPoison w with
    | [] => .ok (s1.store w)
    | g :: _ => .error ((s1.store w).ueOp o u.1 u.2 g)

/-- What working on the parts of a descriptor comes to: done up to a number of its parts, ended, or waiting for a page of the
shadow pool after a number of them. -/
inductive Parts where
  | go (s : State) (done : Nat)
  | stop (s : State)
  | wait (s : State) (done : Nat)

/-- Parts from the k-th to the limit, in order, in steps that end where `next` says; the first step that stops or waits ends
them. -/
def runParts (f : State → Nat → Nat → Stored) (next : Nat → Nat) (lim : Nat) : Nat → State → Nat → Parts
  | 0, s, k => .go s k
  | n + 1, s, k =>
    if lim ≤ k then .go s k
    else
      let j := min lim (next k)
      match f s k j with
      | .ok t => runParts f next lim n t j
      | .stop t => .stop t
      | .wait => .wait s k

/-- An engine has handled parts of a descriptor: what it keeps until it goes on (R423), and the progress. -/
def State.saveWork (s : State) (o : Op) (w : EngWork) (units : Nat) : State :=
  s.modOp o.ring o.idx fun x => { x with work := some w, units := units }

/-- How many parts a command covers: all that are left, or a number. -/
def partLimit (total done : Nat) (part : Option Word) : Nat :=
  match part with
  | none => total
  | some p => min total (done + p.toNat)

/-- A part of a local DMA: n bytes from the a-th on, read at the source and stored at the destination. `whole` says that the
bytes carry whole blocks of memory. -/
def State.dmaMove (s : State) (o : Op) (src dst : DmaEnd) (whole : Bool) (a n : Nat) (e : MemErr) : Stored :=
  let cut (x : DmaEnd) : DmaEnd := { x with bytes := (x.bytes.drop a).take n }
  match s.endPas o.ctx (cut src) false with
  | .error b => .stop (s.faultAddr o 1 b)
  | .ok pas =>
    match s.engineRead o pas e with
    | .error t => .stop t
    | .ok (bs, t) =>
      if dst.kind = 1 then
        match t.endPas o.ctx (cut dst) true with
        | .error b => .stop (t.faultAddr o 1 b)
        | .ok l => match t.engineSp o whole (l.zip bs) e with
          | .ok u => .ok u
          | .error u => .stop u
      else t.engineWrite o ((cut dst).bytes.zip bs) e

/-- A local DMA goes on, granule by granule of 64 bytes, in steps that end at the blocks of its destination (R148, R150,
R423). -/
def State.dmaLocal (s : State) (o : Op) (shape : Option (List Byte)) (src dst : DmaEnd) (e : MemErr) (part : Option Word) : State :=
  let n := dst.bytes.length
  let total := ceilDiv n 64
  let k0 := (o.work.getD {}).done
  let whole : Bool := match s.endPas o.ctx src false with
    | .ok pas => wholeBlocks pas
    | .error _ => false
  match runParts (fun t k j => t.dmaMove { o with units := k / 64 } src dst whole (64 * k) (64 * (j - k)) e)
      (fun k => (k / 64 + 1) * 64) (partLimit total k0 part) (dmaUnits n + 1) s k0 with
  | .stop t => t
  | .wait t k => (t.saveWork o { done := k, block := shape.getD [] } (k / 64)).waitShadow (.op o.ring o.idx)
  | .go t k =>
    if k = total then (t.modOp o.ring o.idx fun x => { x with units := dmaUnits n, work := none }).finish o stDone 0
    else t.saveWork o { done := k, block := shape.getD [] } (k / 64)

/-- The source half that a READ_REQ carries. -/
def readHalf (shape : Option (List Byte)) (n : Nat) : List Byte := (shape.map fun bs => bs.take 32).getD (runHalf n)

/-- An issued DMA moves its bytes (R148): a read from a remote module or a write to one goes out whole, a local one by its
parts. -/
def State.dmaRun (s : State) (o : Op) (shape : Option (List Byte)) (src dst : DmaEnd) (e : MemErr) (part : Option Word) : State :=
  let remote := descBytes o.desc 18 2 % 8192
  let n := dst.bytes.length
  if src.kind = 2 then
    let esz := if shape.isSome then 2 ^ (descBytes o.desc 17 1 % 4) else 1
    if n = 0 then s.finish o stDone 0
    else if dst.kind = 1 then
      match s.endPas o.ctx dst true with
      | .error a => s.faultAddr o 1 a
      | .ok pas => s.sendRead o.owner o.gen remote (descBytes o.desc 24 8) (readHalf shape n) esz (descBytes o.desc 32 8) true pas
    else s.sendRead o.owner o.gen remote (descBytes o.desc 24 8) (readHalf shape n) esz (descBytes o.desc 32 8) false dst.bytes
  else if dst.kind = 2 then
    match s.endPas o.ctx src false with
    | .error a => s.faultAddr o 1 a
    | .ok pas =>
      match s.engineRead o pas e with
      | .error t => t
      | .ok (bs, t) => if n = 0 then t.finish o stDone 0 else t.sendWrite o.owner o.gen remote 0 pas (dst.bytes.zip bs)
  else s.dmaLocal o shape src dst e part

/-- The rules of a DMA at its issue, and its work. -/
def State.dmaIssue (s : State) (o : Op) (e : MemErr) (part : Option Word) : State :=
  match s.shapePoison o with
  | some pa => (s.issue o (dmaDies o)).ueOp o 6 0 pa
  | none => match s.shapeOf o with
    | .error a => (s.issue o (dmaDies o)).faultAddr o 1 a
    | .ok shape =>
      let ends := s.dmaEnds o shape
      let remote := descBytes o.desc 18 2 % 8192
      if ends.1.bytes.length != ends.2.bytes.length then s.rejectRule o 2 (descBytes o.desc 40 8)
      else if s.endsOverlap o.ctx ends.1 ends.2 then s.rejectRule o 10 (descBytes o.desc 32 8)
      else if (ends.1.kind == 2 || ends.2.kind == 2) && !routeValid (s.route remote) then s.rejectRoute o remote
      else if s.sealBreach o.ctx ends.1 ends.2 then s.rejectSeal o
      else (s.issue o (dmaDies o)).dmaRun o shape ends.1 ends.2 e part

/-- A DMA in work goes on, over the shape that its issue read. -/
def State.dmaOn (s : State) (o : Op) (w : EngWork) (e : MemErr) (part : Option Word) : State :=
  let shape := if w.block.isEmpty then none else some w.block
  let ends := s.dmaEnds o shape
  s.dmaLocal o shape ends.1 ends.2 e part

/-- The VAs at which a DMA's engine accesses memory. -/
def State.dmaVas (s : State) (o : Op) : List Nat :=
  match s.shapeOf o with
  | .error _ => []
  | .ok shape =>
    let ends := s.dmaEnds o shape
    (if ends.1.kind = 0 then ends.1.bytes else []) ++ (if ends.2.kind = 0 then ends.2.bytes else [])

/-- A command covers some part. -/
def somePart (part : Option Word) : Bool := part != some 0

/-- The operation of an opcode with which an engine of a ring goes on: the first issued of those in work whose engine is not
held and which has no page of the shadow pool to wait for (R402). -/
def State.inWork (s : State) (ring opc : Nat) : Option Op :=
  let stuck (o : Op) : Bool := let w : Writer := .op o.ring o.idx
    (s.ckp.waits.any fun x => x.1 == w) && (s.poolFree.isNone || !s.mayTake w)
  (s.ops.filter fun o => o.ring == ring && o.opc == opc && o.fin.isNone && o.work.isSome && !s.engineHeld o && !stuck o).foldr insertByIssue [] |>.head?

/-- DMA (R148–R150, R185, R423, R460): the engine goes on with a DMA of the ring that it has in work, by a number of granules
or to its end; else, or with a number of 0, the next one is issued, held while its engine is in reset or gated or its die
is full. -/
def execDma (ring : Fin 256) (e : MemErr) (part : Option Word) (s : State) : Host.Outcome State Fault Refusal :=
  match (s.inWork ring.val 2).filter fun _ => somePart part with
  | some o => .next ((s.engineOn.dmaOn o (o.work.getD {}) e part).fillTlb o.ctx (s.dmaVas o)).engineOff
  | none =>
    match s.ready ring.val 2 with
    | none => .next s
    | some o =>
      if s.engineHeld o then .next s
      else if s.dieFull (dmaDies o) then .next (s.mark Reg.SUB_EVENT_INFLIGHT_FULL)
      else .next ((s.engineOn.dmaIssue o e part).fillTlb o.ctx (s.dmaVas o)).engineOff

/-! ### READ_REQ (R271) -/

/-- A number in the payload of a READ_REQ. -/
def ReadReq.num (r : ReadReq) (k n : Nat) : Nat := leNat ((r.body.drop k).take n)

/-- The first cell that a READ_REQ wants, and the VAs of the cells wanted. -/
def ReadReq.vas (r : ReadReq) : List Nat :=
  (((shapeBytes r.addr (r.num 40 8) (shapeHalf (r.body.take 32))).take (r.num 48 8)).drop (24576 * r.num 32 4)).take (24576 * r.num 36 4)

/-- The READ_DATA cells of an answer (R271): 24,576 bytes each, the transfer's last with LAST, each with its index and the
destination VA on from the one that the request names. -/
def State.readAnswer (s : State) (r : ReadReq) (pas : List Nat) : State :=
  let ps := pieces 24576 pas.length pas
  let total := ceilDiv (r.num 48 8) 24576
  let cells : List Cell := ps.mapIdx fun k p =>
    let i := r.num 32 4 + k
    { s.newCell r.ctx 3 (if i + 1 = total then 2 else 0) r.src r.xfer i (r.num 56 8 + 24576 * i) 0 (p.map s.paByte) with gen := BitVec.ofNat 16 r.gen }
  s.modFab fun f => { f with cells := f.cells ++ (cells.zip ps).map fun c => { cell := c.1, queue := s.ownQueue r.src, src := c.2 } }

/-- A refusal of a READ_REQ to its origin (R288). -/
def State.refuseRead (s : State) (r : ReadReq) (code : Nat) : State :=
  s.sendTo s.moduleId r.src (.link (s.linkMsg 6 code r.src 0 0 0 r.gen r.xfer))

/-- READ_REQ_SERVE (R271, R288): a hub engine translates and reads, and answers with READ_DATA, or with a refusal;
sealed bytes leave only encrypted (R460). -/
def execReadReqServe (src : BitVec 13) (xfer : Word) (e : MemErr) (s : State) : Host.Outcome State Fault Refusal :=
  match s.fab.reads.find? fun r => r.src == src.toNat && r.xfer == xfer.toNat with
  | none => .next s
  | some r =>
    let s0 := s.modFab fun f => { f with reads := f.reads.filter fun q => !(q.src == src.toNat && q.xfer == xfer.toNat) }
    let vas := r.vas
    let work (s1 : State) : State :=
      match vas.find? fun a => (s1.xlate r.ctx a false).isNone with
      | some a => let q := s1.accessRec r.ctx 3 0 a; q.1.refuseRead r q.2
      | none =>
        if !s1.on Reg.SWT_SLICE_ENC && vas.any (s1.sealedVa r.ctx) then s1.sealCount.refuseRead r fSealViolation
        else
          let pas := vas.filterMap fun a => s1.xlate r.ctx a false
          let t := (s1.spWaits pas).meetErrs (some r.ctx) (fun pa => pas.contains pa || (s1.blockMode r.ctx && (blocksOf pas).contains (pa / 4096 * 4096))) e
          let x := t.readErr r.ctx pas e
          (t.readFails r.ctx r.src r.gen r.xfer x).getD (t.readAnswer r pas)
    if !routeValid (s.route r.src) then .next (s0.routeMiss (routePort (s.route r.src)) 2 s.moduleId r.src s.sliceTag)
    else .next (s0.withEngine r.ctx vas work)

end Sys2Proof.Machine
end

