-- ==== Sys2Proof/Machine/Coll.lean ====
section
/-! DEFINITION. The collective engine (R292–R300). The manual gives no plan by which ranks exchange their terms: this engine
sends each rank's terms straight to the rank that forms their sum, in binary32, and each result straight to every rank that
receives it, in the descriptor's format (log entry 133). -/
namespace Sys2Proof.Machine

/-- A collective group entry (R294). -/
structure Group where
  n : Nat
  rank : Nat
  vcid : Nat
  alg : Nat
  axis : Nat
  flags : Nat
  members : Nat
  flows : List Nat
deriving DecidableEq, Repr

/-- The PA of a group's entry. -/
def State.groupAt (s : State) (g : Nat) : Nat :=
  s.get Reg.SWT_GROUP_BASE_LO_PA_LO * 2 ^ 18 + s.get Reg.SWT_GROUP_BASE_HI_PA_HI * 2 ^ 32 + 64 * g

def State.group (s : State) (g : Nat) : Group :=
  let a := s.groupAt g
  ⟨s.natAt a 2, s.natAt (a + 2) 2, s.natAt (a + 4) 2, s.natAt (a + 6) 1, s.natAt (a + 7) 1, s.natAt (a + 8) 1, s.natAt (a + 16) 8,
    (List.range 16).map fun p => s.natAt (a + 24 + p) 1⟩

/-- The module of a rank, and its partner. -/
def State.member (s : State) (g : Group) (r : Nat) : Nat := bitsOf (s.natAt (g.members + 4 * r) 4) 0 13
def State.memberPartner (s : State) (g : Group) (r : Nat) : Nat := bitsOf (s.natAt (g.members + 4 * r) 4) 16 13

/-- The ports of an axis towards one direction (R291): 2b faces the negative one, 2b + 1 the positive. -/
def axisPorts (axis : Nat) (positive : Bool) : List Nat := [4 * axis + b2n positive, 4 * axis + 2 + b2n positive]

/-- In multi-axis mode the neighbouring ranks are the neighbours along the axis (R292): what the module can see of
"consecutive modules". -/
def State.axisOk (s : State) (g : Group) : Bool :=
  g.alg == 1 && g.axis ≤ 3
    && (g.rank + 1 ≥ g.n || (axisPorts g.axis true).any fun p => s.peer p == s.member g (g.rank + 1))
    && (g.rank = 0 || (axisPorts g.axis false).any fun p => s.peer p == s.member g (g.rank - 1))

/-- Whether a COLL may use its group (R292, R294). -/
def State.groupOk (s : State) (g : Group) (vcid : Nat) : Bool :=
  bitOn g.flags 0 && g.vcid == vcid && g.rank < g.n && (!s.on Reg.SWT_CTRL_MODE || s.axisOk g)

/-- The elements that a rank's source holds: a shard for all-gather, the root's alone for broadcast (R295). -/
def collSource (kind n rank count : Nat) : Nat :=
  if kind = 2 then (shardOf n count rank).2 else if kind = 3 && rank != 0 then 0 else count

/-- The format of a code of R182. -/
def fmtOfCode (c : Nat) : Fmt :=
  ([Fmt.fp32, .fp16, .bf16, .e4m3, .e5m2, .e3m2, .e2m3, .e2m1, .e8m0, .int8][c]?).getD .unknown

/-- Element e of a list of bytes, as a code. -/
def elemCode (bs : List Byte) (size e : Nat) : Nat := leNat ((bs.drop (e * size)).take size)

/-- One element of a reduction over the ranks' terms, in ascending rank order (R296, R297). -/
def reduceNum (f : Fmt) (op : Nat) (vs : List Num) : Nat :=
  if op = 0 then (f.encode .rne false false (rowSum .rne false vs).1).1
  else if vs.any (·.isNan) then (f.encode .rne false true .nan).1
  else (f.encode .rne false true (vs.getD (rowWinner (op == 1) vs) .nan)).1

/-- A reduction of codes of one format. -/
def reduceElem (f : Fmt) (op : Nat) (codes : List Nat) : Nat := reduceNum f op (codes.map fun c => (f.decode c).num)

/-- The elements of bytes in a format, in binary32 (R295): each term is exact there. -/
def toPartial (f : Fmt) (bs : List Byte) : List Byte :=
  (List.range (bs.length / sizeOf f)).flatMap fun e => leBytes 4 (Fmt.fp32.encode .rne false true (f.decode (elemCode bs (sizeOf f) e)).num).1

/-! ### A running collective (R295–R300) -/

/-- What a run awaits next is terms in binary32, not results. -/
def CollRun.reduces (r : CollRun) : Bool := r.kind == 1 || r.kind == 4 || (r.kind == 0 && r.shard.isNone)

/-- The ranks whose part a run awaits, each with its first element and their number (R295). -/
def CollRun.awaits (r : CollRun) : List (Nat × Nat × Nat) :=
  let others := (List.range r.n).filter (· != r.rank)
  let l := if r.kind = 1 || (r.kind = 0 && r.shard.isNone) then others.map fun q => (q, shardOf r.n r.count r.rank)
    else if r.kind = 0 || r.kind = 2 then others.map fun q => (q, shardOf r.n r.count q)
    else if r.kind = 3 then (if r.rank = 0 then [] else [(0, 0, r.count)])
    else if r.rank = 0 then others.map fun q => (q, 0, r.count) else []
  l.filter fun a => a.2.2 != 0

/-- The oldest part of a rank that is whole and is what the run awaits of it. -/
def State.partOf (s : State) (r : CollRun) (a : Nat × Nat × Nat) : Option CollPart :=
  s.fab.collParts.find? fun y => y.whole && y.ctx == r.ctx && y.group == r.group && y.tensor == r.tensor
    && some y.src == r.members[a.1]? && (y.pieces.head?.map (·.1)) == some a.2.1
    && (y.pieces.flatMap (·.2)).length == a.2.2 * (if r.reduces then 4 else sizeOf r.fmt)

/-- Everything that a run awaits has come. -/
def State.partsReady (s : State) (r : CollRun) : Bool := r.awaits.all fun a => (s.partOf r a).isSome

/-- The parts that a run awaits, by rank, and the state without them. -/
def State.takeParts (s : State) (r : CollRun) : List (Nat × List Byte) × State :=
  let ps := r.awaits.filterMap fun a => (s.partOf r a).map fun y => (a.1, y)
  (ps.map fun x => (x.1, x.2.pieces.flatMap (·.2)), s.modFab fun f => { f with collParts := f.collParts.filter fun y => !(ps.any fun x => x.2 == y) })

/-- The bytes that a rank has sent. -/
def partBytes (parts : List (Nat × List Byte)) (q : Nat) : List Byte := ((parts.find? fun x => x.1 == q).map (·.2)).getD []

/-- Elements formed from the ranks' terms: this rank's from its source, the others' from their parts. -/
def CollRun.reduce (r : CollRun) (parts : List (Nat × List Byte)) (w : Nat × Nat) : List Byte :=
  (List.range w.2).flatMap fun e => leBytes (sizeOf r.fmt) (reduceNum r.fmt r.oper ((List.range r.n).map fun q =>
    if q = r.rank then (r.fmt.decode (elemCode r.own (sizeOf r.fmt) (w.1 + e))).num
    else (Fmt.fp32.decode (elemCode (partBytes parts q) 4 e)).num))

/-- The ranks' shards one after another, this rank's among them. -/
def CollRun.concat (r : CollRun) (parts : List (Nat × List Byte)) (mine : List Byte) : List Byte :=
  (List.range r.n).flatMap fun q => if q = r.rank then mine else partBytes parts q

/-- The bytes that a rank writes (R295). -/
def CollRun.result (r : CollRun) (parts : List (Nat × List Byte)) : List Byte :=
  if r.kind = 0 then r.concat parts (r.shard.getD [])
  else if r.kind = 1 then r.reduce parts (shardOf r.n r.count r.rank)
  else if r.kind = 2 then r.concat parts r.own
  else if r.kind = 3 then (if r.rank = 0 then r.own else partBytes parts 0)
  else if r.rank = 0 then r.reduce parts (0, r.count) else []

/-- The VAs of a run's result. -/
def CollRun.outVas (r : CollRun) : List Nat := (List.range ((collResult r.kind r.n r.rank r.count).2 * sizeOf r.fmt)).map fun k => r.dst + k

/-- The queue of a group's cells to a module (R294): the group's flow of the port that its route names, 0xFF for the open
slots. -/
def State.groupQueue (s : State) (flows : List Nat) (m : Nat) : Queue :=
  let e := s.route m
  let p := s.outPort e
  let f := flows.getD p 255
  if f = 255 || s.onAlt e then .own p else .flow p (f % 64)

/-- Elements go to another rank as a transfer of COLL cells (R271, R295); ADDR is the offset of a cell's first element. `src`
are the PAs that hold the bytes, from which a relaunch reads them again (R253); none where the engine has formed them. -/
def State.sendColl (s : State) (o : Op) (r : CollRun) (dest first size : Nat) (src : List Nat) (bs : List Byte) : State :=
  if bs.isEmpty then s
  else
    let ps := pieces 24576 bs.length bs
    let cells : List Cell := ps.mapIdx fun k p =>
      { s.newCell o.ctx 4 (if k + 1 = ps.length then 2 else 0) dest s.fab.nextXfer k (first + k * (24576 / size)) r.tensor p with
        group := BitVec.ofNat 32 r.group }
    s.addXfer o.owner o.gen dest (s.groupQueue r.flows dest) (cells.zip ((pieces 24576 bs.length src) ++ List.replicate cells.length []))

/-- What a rank sends of its own source when its COLL is issued (R295): terms that it forms in binary32, or the source itself,
which lies at PAs. -/
def State.contribute (s : State) (o : Op) (r : CollRun) (pas : List Nat) : State :=
  let z := sizeOf r.fmt
  let slice (w : Nat × Nat) : List Byte := (r.own.drop (w.1 * z)).take (w.2 * z)
  if r.kind ≤ 1 then s.each r.others fun t q => t.sendColl o r (r.member q) (shardOf r.n r.count q).1 4 [] (toPartial r.fmt (slice (shardOf r.n r.count q)))
  else if r.kind = 2 then s.each r.others fun t q => t.sendColl o r (r.member q) (shardOf r.n r.count r.rank).1 z pas r.own
  else if r.kind = 3 then (if r.rank = 0 then s.each r.others fun t q => t.sendColl o r (r.member q) 0 z pas r.own else s)
  else if r.rank = 0 then s else s.sendColl o r (r.member 0) 0 4 [] (toPartial r.fmt r.own)

/-- A run replaced, or ended. -/
def State.setRun (s : State) (o : Op) (r : Option CollRun) : State :=
  s.modFab fun f => { f with colls := (f.colls.filter fun x => !(x.ring == o.ring && x.idx == o.idx)) ++ r.toList }

/-- The own shard of an all-reduce is formed, and goes to every other rank (R295). -/
def State.formShard (s : State) (o : Op) (r : CollRun) : State × CollRun :=
  let t := s.takeParts r
  let w := shardOf r.n r.count r.rank
  let bs := r.reduce t.1 w
  let r1 : CollRun := { r with shard := some bs }
  ((t.2.setRun o (some r1)).each r.others fun u q => u.sendColl o r1 (r.member q) w.1 (sizeOf r.fmt) [] bs, r1)

/-- The result is written, and with PARTNER its copy goes to the partner (R299), read from where it was written; the COLL then
ends with its transfers. A write that waits for a shadow page (R402) leaves the parts that came to be taken again. -/
def State.writeColl (s : State) (o : Op) (r : CollRun) (e : MemErr) : State :=
  if !s.partsReady r then s
  else
    let t := s.takeParts r
    let out := r.result t.1
    let w : List (Nat × Byte) := out.mapIdx fun k b => (r.dst + k, b)
    match t.2.engineWrite o w e with
    | .wait => s.waitShadow (.op o.ring o.idx)
    | .stop u => u
    | .ok u =>
      let u1 := (u.setRun o none).modOp o.ring o.idx fun x => { x with units := ceilDiv out.length 24576 }
      let u2 := match r.partner with
        | some m => if out.isEmpty then u1 else u1.sendWrite o.owner o.gen m 4 (w.filterMap fun (x : Nat × Byte) => u1.xlate o.ctx x.1 false) w
        | none => u1
      u2.checkXfers ⟨o.ring, o.idx, o.ctx⟩

/-- A run goes on as far as what has come allows. -/
def State.collStep (s : State) (o : Op) (r : CollRun) (e : MemErr) : State :=
  if !s.partsReady r then s
  else if r.kind = 0 && r.shard.isNone then (s.formShard o r).1.writeColl o (s.formShard o r).2 e
  else s.writeColl o r e

/-- A running COLL of a ring that can go on. -/
def State.collDue (s : State) (ring : Nat) : Option (Op × CollRun) :=
  let stuck (r : CollRun) : Bool := let w : Writer := .op r.ring r.idx
    (s.ckp.waits.any fun x => x.1 == w) && (s.poolFree.isNone || !s.mayTake w)
  (s.fab.colls.find? fun r => r.ring == ring && s.partsReady r && !stuck r).bind fun r =>
    ((s.op? r.ring r.idx).filter fun o => !s.engineHeld o).map fun o => (o, r)

/-- COLL descriptors running (R300). -/
def State.collRunning (s : State) : Nat := (s.ops.filter fun o => o.opc == 3 && o.issued && o.fin.isNone).length

/-- The source VAs of a COLL. -/
def collVas (o : Op) (g : Group) : List Nat :=
  (List.range (collSource (descBytes o.desc 16 1) g.n g.rank (descBytes o.desc 40 8) * sizeOf (fmtOfCode (descBytes o.desc 17 1)))).map
    fun k => descBytes o.desc 24 8 + k

/-- The run of a COLL, from its descriptor, its group and its source. -/
def State.collNew (s : State) (o : Op) (g : Group) (own : List Byte) : CollRun :=
  let kind := descBytes o.desc 16 1
  { ring := o.ring, idx := o.idx, ctx := o.ctx, group := descBytes o.desc 20 4, tensor := descBytes o.desc 48 4, kind := kind
    oper := descBytes o.desc 18 1, fmt := fmtOfCode (descBytes o.desc 17 1), count := descBytes o.desc 40 8, dst := descBytes o.desc 32 8
    rank := g.rank, members := (List.range g.n).map (s.member g), flows := g.flows
    partner := if kind = 1 && bitOn g.flags 1 then some (s.memberPartner g g.rank) else none, own := own }

/-- An issued COLL: its source is read, and what the other ranks need of it leaves. -/
def State.collStart (s : State) (o : Op) (g : Group) (e : MemErr) : State :=
  match (collVas o g).find? fun a => (s.xlate o.ctx a false).isNone with
  | some a => s.faultAddr o 1 a
  | none =>
    let pas := (collVas o g).filterMap fun a => s.xlate o.ctx a false
    match s.engineRead o pas e with
    | .error t => t
    | .ok (bs, t) =>
      let r := s.collNew o g bs
      ((t.setRun o (some r)).contribute o r pas).collStep o r e

/-- The modules that a COLL reaches: the other ranks, and the partner of R299. -/
def State.collModules (s : State) (g : Group) (kind : Nat) : List Nat :=
  (((List.range g.n).filter fun r => r != g.rank).map fun r => s.member g r)
    ++ (if kind = 1 && bitOn g.flags 1 then [s.memberPartner g g.rank] else [])

/-- Whether a COLL's source lies in a sealed page (R460). -/
def State.collSealed (s : State) (o : Op) (g : Group) : Bool := (collVas o g).any (s.sealedVa o.ctx)

/-- The first poisoned PA of a group's entry and member table (R157). -/
def State.groupPoison (s : State) (gn : Nat) (g : Group) : Option Nat :=
  (((List.range 64).map fun k => s.groupAt gn + k) ++ (List.range (4 * g.n)).map fun k => g.members + k).find? s.poisoned

/-- The issue of a COLL (R287, R292, R294, R460): its group, routes and seals are checked, and its work begins. -/
def State.collIssue (s : State) (o : Op) (e : MemErr) : State :=
  let gn := descBytes o.desc 20 4
  let g := s.group gn
  let dests := s.collModules g (descBytes o.desc 16 1)
  match s.groupPoison gn g with
  | some pa => (s.issue o 0).ueOp o 4 0 pa
  | none =>
    if !s.groupOk g o.vcid then s.rejectRule o 10 gn
    else match dests.find? fun m => !routeValid (s.route m) with
      | some m => s.rejectRoute o m
      | none =>
        if s.collSealed o g && !s.on Reg.SWT_SLICE_ENC && !dests.isEmpty then s.rejectSeal o
        else (s.issue o 0).collStart o g e

/-- COLL (R292, R294–R300): the engine goes on with a running COLL of the ring for which everything has come; else it issues
the next, held while 32 run. -/
def execColl (ring : Fin 256) (e : MemErr) (s : State) : Host.Outcome State Fault Refusal :=
  match s.collDue ring.val with
  | some (o, r) => .next ((s.engineOn.collStep o r e).fillTlb o.ctx r.outVas).engineOff
  | none =>
    match s.ready ring.val 3 with
    | none => .next s
    | some o =>
      if s.collRunning ≥ 32 || s.engineHeld o then .next s
      else .next ((s.engineOn.collIssue o e).fillTlb o.ctx (collVas o (s.group (descBytes o.desc 20 4)))).engineOff

end Sys2Proof.Machine
end

