-- ==== Sys2Proof/Machine/Update.lean ====
section
/-! DEFINITION. UPDATE (R320–R328, R375, R376) and DIGEST (R353, R354). -/
namespace Sys2Proof.Machine

/-! ### The update rules (R322, R323) -/

/-- Hyperparameters of an update block. -/
structure Hyper where
  lr : Num
  beta1 : Num
  beta2 : Num
  eps : Num
  wd : Num
  gscale : Num
  c1 : Num
  c2 : Num

/-- Operations of the update units: binary32, RNE, subnormals kept, one rounding each (R322). -/
def uAdd (a b : Num) : Num := rne32 (Num.add a b).1
def uSub (a b : Num) : Num := rne32 (Num.add a b.neg).1
def uMul (a b : Num) : Num := rne32 (Num.mul a b).1
def uFma (a b c : Num) : Num := rne32 (Num.fma a b c).1
def uDiv (a b : Num) : Num := rne32 (Num.div a b).1
def uSqrt (a : Num) : Num := rne32 (Num.sqrt a).1

/-- +1, −1, +0 for either zero, NaN for NaN (R322). -/
def uSign (a : Num) : Num :=
  if a.isNan then .nan else if a.isZero then .zero false else .fin a.sign 1 0

/-- MAX and MIN as in R121. -/
def uMax (a b : Num) : Num := if a.isNan || b.isNan then .nan else if Num.cmp a b < 0 then b else a
def uMin (a b : Num) : Num := if a.isNan || b.isNan then .nan else if Num.cmp a b > 0 then b else a

/-- One instruction of a formula (R323), on registers r0–r15. -/
def formulaStep (r : List Num) (i : Nat) : List Num :=
  let a := r.getD (bitsOf i 12 4) (.zero false)
  let b := r.getD (bitsOf i 16 4) (.zero false)
  let c := r.getD (bitsOf i 20 4) (.zero false)
  let v := match bitsOf i 0 8 with
    | 1 => uAdd a b
    | 2 => uSub a b
    | 3 => uMul a b
    | 4 => uFma a b c
    | 5 => uDiv a b
    | 6 => uSqrt a
    | 7 => uMax a b
    | 8 => uMin a b
    | 9 => uSign a
    | 10 => if a.isNan then .nan else a.abs
    | _ => if a.isNan then .nan else a.neg
  r.set (bitsOf i 8 4) v

/-- The instructions of a 64-byte formula up to its first END; none where one is invalid. -/
def formulaOf : List Nat → Option (List Nat)
  | [] => some []
  | i :: l => if bitsOf i 0 8 > 11 || bitsOf i 24 8 != 0 then none
    else if bitsOf i 0 8 = 0 then some []
    else (formulaOf l).map fun p => i :: p

/-- One parameter (R322, R323): the new master and moments. -/
def updateParam (rule : Nat) (h : Hyper) (prog : List Nat) (w g0 m v : Num) : Num × Num × Num :=
  let g := uMul g0 h.gscale
  if rule = 4 then
    let r := prog.foldl formulaStep ([w, g, m, v, h.lr, h.beta1, h.beta2, h.eps, h.wd, h.c1, h.c2] ++ List.replicate 5 (.zero false))
    (r.getD 0 .nan, r.getD 2 .nan, r.getD 3 .nan)
  else
    let g := if rule = 1 || rule = 3 then uFma h.wd w g else g
    let adam := rule = 0 || rule = 1
    let c := uFma h.beta1 m (uMul (uSub .one h.beta1) g)
    let m1 := if adam then c else if rule = 2 then uFma h.beta2 m (uMul (uSub .one h.beta2) g) else uFma h.beta1 m g
    let v1 := if adam then uFma h.beta2 v (uMul (uSub .one h.beta2) (uMul g g)) else v
    let u := if adam then uDiv (uMul m1 h.c1) (uAdd (uMul (uSqrt v1) h.c2) h.eps) else if rule = 2 then uSign c else m1
    let u := if rule = 0 || rule = 2 then uAdd u (uMul h.wd w) else u
    (uSub w (uMul h.lr u), m1, v1)

/-! ### The update block (R321) -/

structure UpdBlock where
  base : Nat
  master : Nat
  mcode : Nat
  scode : Nat
  mscale : Nat
  grad : Nat
  work : Nat
  serve : Nat
  sscale : Nat
  hyper : Hyper
  formula : Nat
  result : Nat

def updBlock (bs : List Byte) : UpdBlock :=
  let q (k : Nat) : Nat := leNat ((bs.drop k).take 8)
  let f (k : Nat) : Num := num32 (leNat ((bs.drop k).take 4))
  { base := q 0 % 2 ^ 45, master := q 8, mcode := q 16, scode := q 24, mscale := q 32, grad := q 40, work := q 48,
    serve := q 56, sscale := q 64, hyper := ⟨f 72, f 76, f 80, f 84, f 88, f 92, f 96, f 100⟩, formula := q 104, result := q 112 }

/-- The rule of an UPDATE, and whether the rule keeps the s half (R324). -/
def Op.rule (o : Op) : Nat := descBytes o.desc 16 1
def keepsS (rule : Nat) : Bool := rule == 0 || rule == 1 || rule == 4

def updFirst (o : Op) : Nat := descBytes o.desc 24 8
def updCount (o : Op) : Nat := descBytes o.desc 32 8

/-- The alignment of an UPDATE's range (R320). -/
def updAligned (o : Op) (b : UpdBlock) : Bool :=
  b.base ≤ updFirst o && (updFirst o - b.base) % 128 == 0 && updCount o != 0 && updCount o % 128 == 0

/-- The block's own conditions (R320). -/
def updBlockOk (o : Op) (b : UpdBlock) : Bool :=
  !(b.scode = 0 && keepsS o.rule) && !(o.target = 1 && (b.work != 0 || b.serve != 0))

/-! ### One moment group -/

/-- 128 binary32 values of bytes. -/
def words32 (bs : List Byte) : List Num := (List.range 128).map fun k => num32 (elemCode bs 4 k)

/-- The runs that a group reads: VA and length (R320, R324). -/
def groupReads (o : Op) (b : UpdBlock) (q : Nat) : List (Nat × Nat) :=
  [(b.master + 4 * q, 512), (b.grad + 4 * q, 512), (b.mcode + q, 128), (b.mscale + q / 128 * 4, 4)]
    ++ if keepsS o.rule then [(b.scode + q, 128)] else []

/-- The working copy of masters (R324): BF16 by RNE. -/
def workBytes (ws : List Num) : List Byte := ws.flatMap fun w => leBytes 2 (Fmt.bf16.encode .rne false true w).1

/-- The serving copy of masters (R324): MXFP8 with E4M3 elements, MXRULE = 0, RNE: codes and scales. -/
def serveBytes (ws : List Num) : List Byte × List Byte :=
  let bs := (pieces 32 ws.length ws).map fun l => Fmt.e4m3.encodeBlock false false (l.map fun w => (⟨w, false⟩, Rm.rne))
  (bs.flatMap fun r => r.2.1.map fun c => BitVec.ofNat 8 c, bs.map fun r => BitVec.ofNat 8 r.1)

/-- What a group writes, with its counts of R325: NaN masters, and saturated halves with infinite masters. -/
def groupResult (o : Op) (b : UpdBlock) (prog : List Nat) (q : Nat) (rd : List (List Byte)) : List (Nat × Byte) × Nat × Nat :=
  let scale := leNat (rd.getD 3 [])
  let codes (k : Nat) : List Nat := (rd.getD k []).map (·.toNat)
  let ms := momentDecode (codes 2) (scale % 65536)
  let vs := (momentDecode (codes 4) (scale / 65536)).map momentSquare
  let ws := words32 (rd.getD 0 [])
  let gs := words32 (rd.getD 1 [])
  let new := (List.range 128).map fun k =>
    updateParam o.rule b.hyper prog (ws.getD k .nan) (gs.getD k .nan) (ms.getD k .nan) (vs.getD k (.zero false))
  let w1 := new.map (·.1)
  let m1 := new.map (·.2.1)
  let s1 := new.map fun x => uSqrt x.2.2
  let em := momentEncode m1
  let es := momentEncode s1
  let put (a : Nat) (bs : List Byte) : List (Nat × Byte) := bs.mapIdx fun k x => (a + k, x)
  let byte (l : List Nat) : List Byte := l.map fun c => BitVec.ofNat 8 c
  let sh := serveBytes w1
  let out := put (b.master + 4 * q) (w1.flatMap fun w => leBytes 4 (code32 w)) ++ put (b.mcode + q) (byte em.1)
    ++ (if keepsS o.rule then put (b.scode + q) (byte es.1) ++ put (b.mscale + q / 128 * 4) (leBytes 2 em.2.1 ++ leBytes 2 es.2.1)
        else put (b.mscale + q / 128 * 4) (leBytes 2 em.2.1))
    ++ (if b.work != 0 then put (b.work + 2 * q) (workBytes w1) else [])
    ++ (if b.serve != 0 then put (b.serve + q) sh.1 ++ put (b.sscale + q / 32) sh.2 else [])
  let sat (e : List Nat × Nat × Bool) (l : List Num) : Nat := b2n (e.2.2 && !l.any (·.isNan))
  (out, (w1.filter (·.isNan)).length,
   sat em m1 + (if keepsS o.rule then sat es s1 else 0) + (w1.filter (·.isInf)).length)

/-! ### Protection (R327, R375, R376) -/

/-- The VAs of the pages of a write, each once. -/
def vaPages (w : List (Nat × Byte)) : List Nat := pagesOf (w.map (·.1))

/-- A page that a target-0 UPDATE may write: PROT = 1, and in exactly one protection range. -/
def State.protPage (s : State) (c va : Nat) : Option ProtRange :=
  match s.walk c va with
  | none => none
  | some e =>
    match s.protRanges.filter fun r => r.has va with
    | [r] => if e.prot then some r else none
    | _ => none

/-- The first write of a page in an attempt is recorded, and a LOCAL page copied to the shadow pool (R327, R376); where the
write needs the page for a checkpoint too, the one copy serves both (R403). -/
def State.recordPage (s : State) (w : Writer) (c va : Nat) (r : ProtRange) : Pre :=
  if !s.stepOpen c || (s.ctx c).recorded.contains va then .go s
  else
    let note (t : State) : State := t.modCtx c fun x => { x with recorded := insertSorted va x.recorded }
    if r.source != 2 then .go (note s)
    else match s.pageOf c va with
      | none => .go (note s)
      | some pa => match s.preImage w pa va (s.ckptNeed pa) (some c) with
        | .go t => .go (note t)
        | p => p

/-- The first poisoned PA of the protection range table (R157). -/
def State.protPoison (s : State) : Option Nat :=
  let base := s.get Reg.RPL_PROT_BASE_LO_PA_LO * 2 ^ 14 + s.get Reg.RPL_PROT_BASE_HI_PA_HI * 2 ^ 32
  if !s.on Reg.RPL_PROT_BASE_LO_VALID then none
  else s.poison.find? fun g => base ≤ g && g < base + 64 * s.get Reg.RPL_PROT_BASE_HI_COUNT

/-- What preparing the pages of a target-0 write meets. -/
inductive Prot where
  | go (s : State)
  | deny (va : Nat)
  | noPool (va : Nat)
  | poison (pa : Nat)
  | wait

/-- Every page of a target-0 write is checked and recorded, in order. -/
def State.protectPages (s : State) (w : Writer) (c : Nat) : List Nat → Prot
  | [] => .go s
  | va :: l =>
    match s.protPoison with
    | some pa => .poison pa
    | none => match s.protPage c va with
      | none => .deny va
      | some r => match s.recordPage w c va r with
        | .go t => t.protectPages w c l
        | .noPool => .noPool va
        | .full => .wait

/-- The write of an UPDATE's unit (R141, R327, R375, R376, R402): that of a target-0 one first meets the protection of its pages;
`wait` says whether it waits for the pre-image of R376. -/
inductive Guarded where
  | ok (s : State)
  | stop (s : State)
  | wait (pre : Bool)

def State.guardedWrite (s : State) (o : Op) (u : Nat × Nat) (w : List (Nat × Byte)) (e : MemErr) : Guarded :=
  let perm (reason va : Nat) : Guarded := .stop (s.faultOp o fPermission u.1 u.2 [(1, reason), (8, va)])
  match (if o.target = 0 then s.protectPages (.op o.ring o.idx) o.ctx (vaPages w) else .go s) with
  | .deny va => perm 7 va
  | .noPool va => perm 10 va
  | .poison pa => .stop (s.ueOp o u.1 u.2 pa)
  | .wait => .wait true
  | .go t => match t.writeFor o u w e with
    | .ok v => .ok v
    | .stop v => .stop v
    | .wait => .wait false

/-! ### UPDATE -/

/-- The unit that works on a group (R320): of the stack that holds its master page, or the hub die's. -/
def State.updUnit (s : State) (o : Op) (b : UpdBlock) (q : Nat) : Nat :=
  if o.target = 1 then 8
  else match s.xlate o.ctx (b.master + 4 * q) false with
    | some pa => memOf pa
    | none => 8

/-- What a step of an engine's work comes to: a further part done, the operation ended, or a wait for the shadow pool (for a
pre-image of R376, or of R402). -/
inductive Worked where
  | go (s : State) (w : EngWork)
  | stop (s : State)
  | wait (pre : Bool)

/-- What a run of parts comes to: they are done, the operation has ended, or the next part waits. -/
inductive Run where
  | go (s : State) (w : EngWork)
  | stop (s : State)
  | wait (s : State) (w : EngWork) (pre : Bool)

/-- Parts in order, at most n; the first that stops or waits ends them. -/
def runWork (f : State → EngWork → Worked) : Nat → State → EngWork → Run
  | 0, s, w => .go s w
  | n + 1, s, w =>
    match f s w with
    | .go t v => runWork f n t v
    | .stop t => .stop t
    | .wait p => .wait s w p

/-- An engine keeps its work while it waits for a page of the shadow pool. -/
def State.waitWork (s : State) (o : Op) (w : EngWork) (pre : Bool) : State :=
  (s.saveWork o w w.done).waitShadow (.op o.ring o.idx) pre

/-- The counts of R325 join their registers. -/
def State.updCounts (s : State) (nan ovf : Nat) : State :=
  let s1 := (s.bump Reg.RPL_UPD_NAN_CNT_COUNT nan).when (nan != 0) fun t => t.mark Reg.RPL_STEP_EVENT_UPD_NAN
  (s1.bump Reg.RPL_UPD_OVF_CNT_COUNT ovf).when (ovf != 0) fun t => t.mark Reg.RPL_STEP_EVENT_UPD_OVF

/-- The next group of an UPDATE: read, applied, written in all its outputs, its counts added. -/
def State.updGroup (s : State) (o0 : Op) (b : UpdBlock) (e : MemErr) (w : EngWork) : Worked :=
  let o := { o0 with units := w.done }
  let q := updFirst o - b.base + 128 * w.done
  let u := (5, s.updUnit o b q)
  let runs := groupReads o b q
  let vas := runs.flatMap fun r => (List.range r.2).map fun i => r.1 + i
  match vas.find? fun a => (s.xlate o.ctx a false).isNone with
  | some a => .stop (s.xlateFault o u.1 u.2 a)
  | none =>
    let rr := s.meetRead o (vas.filterMap fun a => s.xlate o.ctx a false) e
    let t := rr.1
    match rr.2 with
    | .none =>
      let rd := runs.map fun r => (List.range r.2).filterMap fun i => (t.xlate o.ctx (r.1 + i) false).map t.paByte
      let res := groupResult o b w.prog q rd
      match t.guardedWrite o u res.1 e with
      | .stop v => .stop v
      | .wait p => .wait p
      | .ok v => .go (v.updCounts res.2.1 res.2.2) { w with done := w.done + 1, nan := w.nan + res.2.1, ovf := w.ovf + res.2.2 }
    | x => .stop (t.readStop o u 4 x)

/-- A finished UPDATE writes its RESULT bytes (R325), of a target-0 UPDATE into a protected page (R327), and is done. -/
def State.updDone (s : State) (o0 : Op) (b : UpdBlock) (e : MemErr) (w : EngWork) : State :=
  let o := { o0 with units := w.done }
  let s1 := s.modOp o.ring o.idx fun x => { x with units := w.done, work := none }
  if b.result = 0 then s1.finish o stDone 0
  else match s1.guardedWrite o (5, s1.updUnit o b 0) ((leBytes 8 w.nan ++ leBytes 8 w.ovf).mapIdx fun i x => (b.result + i, x)) e with
    | .ok t => t.finish o stDone 0
    | .stop t => t
    | .wait p => s.waitWork o w p

/-- An UPDATE in work goes on by its groups in order (R316, R423): all that are left, or a number. -/
def State.updGo (s : State) (o : Op) (e : MemErr) (part : Option Word) (w : EngWork) : State :=
  let b := updBlock w.block
  let total := updCount o / 128
  match runWork (fun t v => t.updGroup o b e v) (partLimit total w.done part - w.done) s w with
  | .stop t => t
  | .wait t v p => t.waitWork o v p
  | .go t v => if v.done = total then t.updDone o b e v else t.saveWork o v v.done

/-- The read of an UPDATE's block or formula at its issue: bytes, or the state in which the operation has ended. -/
def State.updRead (s : State) (o : Op) (a n : Nat) (e : MemErr) : Except State (List Byte × State) :=
  match s.xlateRun o.ctx a n false with
  | .error va => .error ((s.issue o 0).xlateFault o 6 0 va)
  | .ok pas =>
    let r := s.meetRead o pas e
    match r.2 with
    | .none => .ok (pas.map r.1.paByte, r.1)
    | x => .error ((r.1.issue o 0).readStop o (Op.unit s o) 4 x)

/-- The VAs at which an UPDATE works, one of each array's part in a group. -/
def updVas (o : Op) (b : UpdBlock) : List Nat :=
  (List.range (updCount o / 128)).flatMap fun k =>
    let q := updFirst o - b.base + 128 * k
    (groupReads o b q).map (·.1) ++ [b.work + 2 * q, b.serve + q, b.sscale + q / 32]

/-- An issued UPDATE with its block and formula begins its groups. A target-1 UPDATE on a STALE mirror writes nothing (R383). -/
def State.updIssue (s : State) (o : Op) (e : MemErr) (part : Option Word) (w : EngWork) : State :=
  let t := s.issue o 0
  if o.target = 1 && s.on Reg.RPL_MIR_CLIENT_VALID && s.get Reg.RPL_MIR_CLIENT_STATE == 2 then t.finish o stDone 0
  else (t.engineOn.updGo o e part w).engineOff

/-- The issue of an UPDATE (R142, R320–R328): its block and formula are read and checked. -/
def State.updStart (s : State) (o : Op) (e : MemErr) (part : Option Word) : State :=
  let a := descBytes o.desc 40 8
  match s.updRead o a 128 e with
  | .error t => t
  | .ok (bs, s1) =>
    let b := updBlock bs
    if !updAligned o b then s1.rejectRule o 2 (updFirst o)
    else if !updBlockOk o b then s1.rejectRule o 10 a
    else if o.rule != 4 then s1.updIssue o e part { block := bs }
    else match s1.updRead o b.formula 64 e with
      | .error t => t
      | .ok (fs, s2) => match formulaOf ((List.range 16).map fun k => elemCode fs 4 k) with
        | none => s2.rejectRule o 10 b.formula
        | some prog => s2.updIssue o e part { block := bs, prog := prog }

/-- UPDATE (R142, R320–R328, R423): the unit goes on with an UPDATE of the ring that it has in work, by a number of groups or to
its end; else, or with a number of 0, the next one is issued, held while its unit has hung. -/
def execUpdate (ring : Fin 256) (e : MemErr) (part : Option Word) (s : State) : Host.Outcome State Fault Refusal :=
  match (s.inWork ring.val 7).filter fun _ => somePart part with
  | some o =>
    let w := o.work.getD {}
    .next ((s.engineOn.updGo o e part w).fillTlb o.ctx (updVas o (updBlock w.block))).engineOff
  | none =>
    match s.ready ring.val 7 with
    | none => .next s
    | some o => if s.engineHeld o then .next s else .next (s.updStart o e part)

/-! ### DIGEST (R353, R354) -/

/-- The hash of a page (R353), as its two lanes. -/
def pageHash (bs : List Byte) : Nat × Nat := (hashLane hashA (wordsOf bs), hashLane hashB (wordsOf bs))

/-- The digest of page hashes by their positions (R353). -/
def digestOf (hs : List (Nat × Nat)) : Nat × Nat :=
  let lane (m : Nat) (f : Nat × Nat → Nat) : Nat :=
    ((hs.mapIdx fun j h => f h * powP m 64 (16384 * (j + 1)) % hashP).foldl (· + ·) 0) % hashP
  (lane hashA (·.1), lane hashB (·.2))

def digestBytes (d : Nat × Nat) : List Byte := leBytes 8 d.1 ++ leBytes 8 d.2

/-- The next page of a DIGEST: read and hashed. -/
def State.digestPage (s : State) (o0 : Op) (e : MemErr) (w : EngWork) : Worked :=
  let o := { o0 with units := w.done }
  match s.xlateRun o.ctx (descBytes o.desc 24 8 + 65536 * w.done) 65536 false with
  | .error a => .stop (s.xlateFault o 14 0 a)
  | .ok pas => match s.engineRead o pas e with
    | .error t => .stop t
    | .ok (bs, t) => .go t { w with done := w.done + 1, hashes := w.hashes ++ [pageHash bs] }

/-- The digest of all pages is written, and the operation is done. -/
def State.digestEnd (s : State) (o0 : Op) (e : MemErr) (w : EngWork) : State :=
  let o := { o0 with units := w.done }
  let out := (digestBytes (digestOf w.hashes)).mapIdx fun k b => (descBytes o.desc 40 8 + k, b)
  match (s.modOp o.ring o.idx fun x => { x with units := w.done, work := none }).engineWrite o out e with
  | .ok t => t.finish o stDone 0
  | .stop t => t
  | .wait => s.waitWork o w false

/-- A DIGEST goes on by its pages in order (R423): all that are left, or a number. -/
def State.digestGo (s : State) (o : Op) (e : MemErr) (part : Option Word) (w : EngWork) : State :=
  let total := descBytes o.desc 32 8
  match runWork (fun t v => t.digestPage o e v) (partLimit total w.done part - w.done) s w with
  | .stop t => t
  | .wait t v p => t.waitWork o v p
  | .go t v => if v.done = total then t.digestEnd o e v else t.saveWork o v v.done

/-- DIGEST (R354, R423): the pages are hashed and the digest written. -/
def execDigest (ring : Fin 256) (e : MemErr) (part : Option Word) (s : State) : Host.Outcome State Fault Refusal :=
  match (s.inWork ring.val 8).filter fun _ => somePart part with
  | some o => .next (s.digestGo o e part (o.work.getD {}))
  | none =>
    match s.ready ring.val 8 with
    | none => .next s
    | some o => if s.engineHeld o then .next s else .next ((s.issue o 0).digestGo o e part {})

end Sys2Proof.Machine
end

