-- ==== Sys2Proof/Machine/Restore.lean ====
section
/-! DEFINITION. The restore of a discarded attempt (R374, R377, R394), and the Daybreak load (R390–R392). -/
namespace Sys2Proof.Machine

/-! ### Pages -/

/-- The VAs of a page's bytes. -/
def pageVas (va : Nat) : List Nat := (List.range 65536).map fun k => va + k

/-- A page replaced whole by listed bytes, unlisted ones 0: poisoned granules are cleared (R377). -/
def State.putPage (s : State) (c va : Nat) (bytes : List (Nat × Byte)) : State :=
  match s.pageOf c va with
  | none => s
  | some pa => (s.zeroMem pa (pa + 65536)).putVa c (bytes.filter fun x => x.1 / 65536 == va / 65536)

/-- The master range that a page lies in: a MIRROR range with derived copies. -/
def State.masterRange (s : State) (va : Nat) : Option ProtRange :=
  s.protRanges.find? fun r => r.source == 0 && r.has va && (r.work != 0 || r.serve != 0)

/-- The first element of a master page within its range. -/
def masterElem (r : ProtRange) (va : Nat) : Nat := (va - r.va) / 4

/-- The derived copies of a master page are rewritten from it (R324, R377). -/
def State.rebuildPage (s : State) (c va : Nat) : State :=
  match s.masterRange va, s.pageOf c va with
  | some r, some pa =>
    let n := masterElem r va
    let ws := (List.range 16384).map fun k => num32 (s.natAt (pa + 4 * k) 4)
    let put (a : Nat) (bs : List Byte) : List (Nat × Byte) := bs.mapIdx fun k x => (a + k, x)
    let sh := serveBytes ws
    let s1 := s.when (r.work != 0) fun t => t.putVa c (put (r.work + 2 * n) (workBytes ws))
    s1.when (r.serve != 0) fun t => t.putVa c (put (r.serve + n) sh.1 ++ put (r.sscale + n / 32) sh.2)
  | _, _ => s

/-- The pages of the derived copies of a master page. -/
def derivedPages (r : ProtRange) (va : Nat) : List Nat :=
  let n := masterElem r va
  let span (a len : Nat) : List Nat := (List.range (len / 65536 + 2)).map (fun k => (a / 65536 + k) * 65536) |>.filter fun p => p < a + len
  (if r.work != 0 then span (r.work + 2 * n) 32768 else []) ++ (if r.serve != 0 then span (r.serve + n) 16384 ++ span (r.sscale + n / 32) 512 else [])

/-- The master pages of a context's protection ranges. -/
def State.masterPages (s : State) : List Nat :=
  (s.protRanges.filter fun r => r.source == 0 && (r.work != 0 || r.serve != 0)).flatMap (·.vas)

/-- The SOURCE of the range of a page. -/
def State.sourceOf (s : State) (va : Nat) : Option Nat := (s.protRanges.find? fun r => r.has va).map (·.source)

/-! ### The restore (R374, R377, R394) -/

/-- The restore set of an attempt (R377). -/
def State.restoreSet (s : State) (c : Nat) : List Nat :=
  (s.ctx c).uePages.foldl (fun l a => insertSorted a l) (s.ctx c).recorded

/-- The DETAIL of a failure to reach the partner with a code (R394, R446). -/
def State.partnerFails (s : State) (code : Nat) : List (Nat × Nat) × State :=
  let m := s.get Reg.RPL_MIR_PARTNER_MODULE
  if code = fLinkDown then ([(1, routePort (s.route m)), (1, 7), (2, m)], s)
  else s.refusalOf code m 0

/-- An engine asks the partner for a page, at its VA plus the mirror offset (R377, R382). -/
def State.readPage (s : State) (w : Owner) (va : Nat) : State :=
  s.sendRead w (s.gen w.ctx) (s.get Reg.RPL_MIR_PARTNER_MODULE) (va + s.mirOffset) (runHalf 65536) 1 va false (pageVas va)

/-- An engine asks the partner for pages (R377, R391); a partner without a valid route cannot be reached (R394). -/
def State.readPages (s : State) (w : Owner) (vas : List Nat) : State :=
  if vas.isEmpty || routeValid (s.route (s.get Reg.RPL_MIR_PARTNER_MODULE)) then s.each vas fun t va => t.readPage w va
  else s.engineFails w fLinkDown (s.partnerFails fLinkDown).1

/-- The writers that wait for a page of the shadow pool go on in order, as far as it has pages (R402): those whose writes the
state holds. An operation's engine goes on with its next command. -/
def serveSteps : Nat → State → State
  | 0, s => s
  | n + 1, s => serveSteps n s.flushHeld.retryCells.retryPosts.retryClaims
def State.serveWaiters (s : State) : State := if s.poolFree.isNone then s else serveSteps s.ckp.waits.length s

/-- An engine of the module fails on a poisoned PA (R157, R394). -/
def State.engineUe (s : State) (w : Owner) (pa : Nat) : State :=
  let q := s.consumeUe pa none
  q.2.engineFails w fMemUe q.1

/-- The MIRROR pages of a restore set. -/
def State.mirrorSet (s : State) (c : Nat) : List Nat := (s.restoreSet c).filter fun va => s.sourceOf va == some 0

/-- DISCARD_DRAIN_END (R374, R377): 32 frames after D the step's objects return to their bases and barriers are rearmed, and
the MIRROR pages of the restore set are read from the partner; the other pages and the rings follow until
RESTORE_COMPLETE. -/
def execDiscardDrainEnd (ctx : Fin 64) (s : State) : Host.Outcome State Fault Refusal :=
  let c := ctx.val
  match (s.ctx c).drainTick with
  | none => .next s
  | some t0 =>
    if s.now < t0 + 32 || s.get (Reg.RPL_REPLAY_STATUS_STATE c) != 1 then .next s
    else
      let t := (s.put (Reg.RPL_REPLAY_STATUS_STATE c) 2).each (s.ctx c).bases fun t b => t.restoreBase b
      .next (match if (s.restoreSet c).isEmpty then none else s.protPoison with
        | some pa => t.engineUe (restoreEngine c) pa
        | none => t.readPages (restoreEngine c) (s.mirrorSet c))

/-- Every ring of a context has been fetched up to its last accepted producer index (R374). -/
def State.ringsDrained (s : State) (c : Nat) : Bool :=
  (List.range 256).all fun r => s.ringCtx r != c || !s.ringActive r || s.get (Reg.SUB_RING_CI_CI r) == (s.ring r).piOld

/-- The shadow copy of a LOCAL page of a context. -/
def State.shadowOf (s : State) (c va : Nat) : Option ShadowPg := s.ckp.shadow.find? fun p => p.va == va && p.pre == some c

/-- A LOCAL page is copied back from the shadow pool. -/
def State.restoreLocal (s : State) (c va : Nat) : State :=
  match s.shadowOf c va with
  | some p => s.copyPage (s.poolAt p.index) p.pa
  | none => s

/-- The first poisoned granule of the shadow copies that a restore needs. -/
def State.shadowPoison (s : State) (c : Nat) (vas : List Nat) : Option Nat :=
  let pages := (vas.filterMap (s.shadowOf c)).map fun p => s.poolAt p.index
  s.poison.find? fun g => pages.any fun a => a ≤ g && g < a + 65536

/-- With the MIRROR pages of a restore set in place, the rest in the order of R377: LOCAL pages from the pool, and the copies
of every restored master page or damaged derived page. -/
def State.restorePages (s : State) (c : Nat) : State :=
  let set := s.restoreSet c
  let src (k : Nat) : List Nat := set.filter fun va => s.sourceOf va == some k
  let s1 := (src 2).foldl (fun t va => t.restoreLocal c va) s
  let hurt (va : Nat) : Bool := (src 0).contains va || match s.masterRange va with
    | some r => (derivedPages r va).any (src 1).contains
    | none => false
  let cleared := (src 1).foldl (fun t va => match t.pageOf c va with
    | some pa => { t with poison := t.poison.filter fun g => g < pa || pa + 65536 ≤ g }
    | none => t) s1
  let s2 := (s.masterPages.filter hurt).foldl (fun t va => t.rebuildPage c va) cleared
  s2.bump Reg.RPL_RESTORE_CNT_COUNT set.length

/-- A finished restore: the attempt's records and LOCAL copies are released and the context is READY (R374). -/
def State.restoreDone (s : State) (c : Nat) : State :=
  let s1 := s.releaseShadow fun p => if p.pre == some c then { p with pre := none } else p
  ((s1.modCtx c fun x => { x with recorded := [], uePages := [] }).replayReady c).serveWaiters

/-- A Daybreak load of a context is in progress, in place of its restore (R392). -/
def State.loading (s : State) (c : Nat) : Bool :=
  let st := s.get Reg.RPL_DAYBREAK_STATUS_STATE
  s.rpl.loadCtx == c && 1 ≤ st && st ≤ 3

/-- RESTORE_COMPLETE (R374, R377, R394): while RESTORING, with the context's rings fetched and every page read from the
partner, and no load in the restore's place. -/
def execRestoreComplete (ctx : Fin 64) (s : State) : Host.Outcome State Fault Refusal :=
  let c := ctx.val
  if s.get (Reg.RPL_REPLAY_STATUS_STATE c) != 2 || s.on (Reg.RPL_REPLAY_STATUS_RESTORE_FAIL c) || !s.ringsDrained c || s.loading c
    || !(s.xfersOf (restoreEngine c)).isEmpty then .next s
  else
    let set := s.restoreSet c
    match (s.shadowPoison c set).or (if set.isEmpty then none else s.protPoison) with
    | some g => .next (s.engineUe (restoreEngine c) g)
    | none =>
      match s.touchPages (.engine c) ((set.filter fun va => s.sourceOf va != some 0).filterMap fun va => s.pageOf c va) with
      | .go t => .next ((t.restorePages c).restoreDone c)
      | .noPool => .next (s.restoreFails c fPermission [(1, 10), (8, set.headD 0)])
      | .full => .next (s.waitShadow (.engine c))

/-! ### Daybreak (R390–R394) -/

/-- The DETAIL of a MIXED_STEP: what the manual names no value for is free (R391, R413, R446). -/
def State.mixedFree (s : State) (check : Nat) : List (Nat × Nat) × State :=
  let a := s.fresh
  let b := a.2.fresh
  let c := b.2.fresh
  let d := c.2.fresh
  ([(1, check), (4, a.1 % 2 ^ 32), (8, b.1 % 2 ^ 64), (4, c.1 % 2 ^ 32), (8, d.1 % 2 ^ 64)], d.2)

/-- The physical cores that run ADMISSION items (R363): every one but those of a fenced cluster, which has no power. -/
def State.admissionCores (s : State) : List Nat := (List.range 144).filter fun c => !s.rpl.fenced.contains (coreCluster c)

/-- The item runs of ADMISSION: every item of an ADMISSION pack on every such core (R363). -/
def State.admissionRuns (s : State) : Nat :=
  s.admissionCores.length * ((s.integ.packs.filter (·.admission)).map (·.items.length)).foldl (· + ·) 0

/-- The module has passed its ADMISSION items in the last 24 h (R390). -/
def State.passedItems (s : State) : Bool :=
  (s.integ.packs.filter (·.admission)).all fun q => (List.range q.items.length).all fun i => s.admissionCores.all fun c =>
    s.integ.passed.any fun x => x.1 == c && x.2.1 == q.id && x.2.2.1 == i && s.now < x.2.2.2 + dayTicks

/-- What R390 asks of a spare at the start of Daybreak, as far as the module itself can tell: firmware runs, the bypass is open,
the counter is VALID and LOCKED, the ADMISSION items have passed, and an encrypted slice's key is held. -/
def State.mayAdmit (s : State) : Bool :=
  s.on Reg.SEC_STATUS_FW_STARTED && (List.range 16).all s.bypOpen && s.on Reg.FTB_STATUS_VALID && s.on Reg.FTB_STATUS_LOCKED
    && s.passedItems && (!s.on Reg.SWT_SLICE_ENC || s.on (keyFld s.keySlot))

/-- Milliseconds as frames, rounded up. -/
def msTicks (ms : Nat) : Nat := ceilDiv (ms * 1000000) 4096

/-- Every page of a MIRROR range. -/
def State.mirrorPages (s : State) : List Nat := (s.protRanges.filter fun x => x.source == 0).flatMap (·.vas)

/-- A set of the partner's guest area as slot data names it. -/
def GuestSlot.inSet (g : GuestSlot) : InSet := { step := g.step.toNat, first := g.first.toNat, pages := g.pages.toNat, state := 3 }

/-- A write of RPL_DAYBREAK_CTRL (R390–R392, R395): the partner is asked for its state, and with it as expected every MIRROR page
is read. LOAD is ignored unless STATE is 0, 4 or 5; an admitted module loads only while its context is RESTORING, and a spare
that R390 does not admit loads nothing: DEDUCED (log entry 64). -/
def State.writeDaybreak (s : State) (v : Nat) (ans : Option PartnerState) : State :=
  let c := s.stepSel
  let st := s.get Reg.RPL_DAYBREAK_STATUS_STATE
  let inPlace := s.get (Reg.RPL_REPLAY_STATUS_STATE c) == 2
  let may := inPlace || (s.get (Reg.RPL_REPLAY_STATUS_STATE c) == 0 && !s.rpl.admitted && s.mayAdmit)
  if !bitOn v 0 || !(st == 0 || st == 4 || st == 5) || !may then s
  else
    let s0 := { s with rpl := { s.rpl with loadCtx := c } }
    let s1 := ((s0.mark Reg.RPL_CKPT_STATUS_FULL_NEXT).put Reg.RPL_DAYBREAK_STATUS_PAGES 0).emit (.query (s.get Reg.RPL_MIR_PARTNER_MODULE))
    match ans with
    | none =>
      let q := s1.partnerFails fLinkDown
      q.2.daybreakFails c fLinkDown q.1
    | some a =>
      if a.lastStep.toNat != s.get Reg.RPL_SET_STEP_STEP || a.state != 1 then
        let q := s1.mixedFree 0
        q.2.daybreakFails c fMixedStep q.1
      else
        let n := if inPlace then 0 else s1.admissionRuns
        let s2 := ((s1.put Reg.RPL_DAYBREAK_STATUS_STATE 1).mark Reg.RPL_DAYBREAK_CTRL_LOAD).modInt fun x => { x with
          admitRun := if n = 0 then none else some ([], s.now + msTicks (s.get Reg.INT_TEST_CFG_ADMIT_MS)) }
        let s3 := { s2 with rpl := { s2.rpl with loadSets := a.sets.map GuestSlot.inSet } }
        match s3.protPoison with
        | some pa => s3.engineUe (loadEngine c) pa
        | none => (((s3.dropEngine (restoreEngine c)).dropEngine (loadEngine c)).readPages (loadEngine c) s.mirrorPages).engineStep (loadEngine c)

/-- DAYBREAK_LOAD (R391). -/
def execDaybreakLoad (p : Party) (v : Word) (ans : Option PartnerState) (s : State) : Host.Outcome State Fault Refusal :=
  .next (s.fwOnly p fun t => t.writeDaybreak v.toNat ans)

/-- The sealed sets of the partner's guest area are read into the ring, at the ring's window plus the mirror offset (R382, R391). -/
def State.readSets (s : State) (c : Nat) : State :=
  let l := s.rpl.loadSets
  let t := { s.put Reg.RPL_DAYBREAK_STATUS_STATE 3 with rpl := { s.rpl with sets := l, loadSets := [] } }
  let pages := l.flatMap t.setPages
  match t.ringVa c with
  | some va => t.readPages (loadEngine c) (pages.map fun p => va + 65536 * p)
  | none => if pages.isEmpty then t else t.daybreakFails c fPermission [(1, 1), (8, 0)]

/-- The tail of a Daybreak load at a tick (R391, R395): with every MIRROR page read the derived pages are rebuilt, and the input
sets follow. -/
def State.daybreakTail (s : State) : State :=
  let c := s.rpl.loadCtx
  if s.get Reg.RPL_DAYBREAK_STATUS_STATE != 2 then s
  else match s.protPoison with
  | some pa => s.engineUe (loadEngine c) pa
  | none =>
    match s.touchPages (.engine (64 + c)) (((s.protRanges.filter fun x => x.source == 1).flatMap (·.vas)).filterMap fun va => s.pageOf c va) with
    | .full => s.waitShadow (.engine (64 + c))
    | .noPool => s.daybreakFails c fPermission [(1, 10), (8, s.mirrorPages.headD 0)]
    | .go t => (s.masterPages.foldl (fun u va => u.rebuildPage c va) t).readSets c

/-- DAYBREAK_DONE (R391–R393): with the load and the ADMISSION items both ended, and of a load in place of a restore the rings
drained too (R374), the context is READY. A spare's client mirror starts STALE. LOAD clears: DESIGN CHOICE (log entry 131). -/
def execDaybreakDone (s : State) : Host.Outcome State Fault Refusal :=
  let c := s.rpl.loadCtx
  let inPlace := s.get (Reg.RPL_REPLAY_STATUS_STATE c) == 2
  if s.get Reg.RPL_DAYBREAK_STATUS_STATE != 3 || s.integ.admitRun.isSome || !(s.xfersOf (loadEngine c)).isEmpty
    || (inPlace && !s.ringsDrained c) then .next s
  else
    let s1 := ((s.put Reg.RPL_DAYBREAK_STATUS_STATE 4).put Reg.RPL_DAYBREAK_CTRL_LOAD 0).mark Reg.RPL_REPLAY_EVENT_DAYBREAK_DONE
    let s2 := s1.when (!inPlace) fun u => { u.mirrorStale with rpl := { u.mirrorStale.rpl with admitted := true } }
    .next (s2.restoreDone c)

end Sys2Proof.Machine
end

