-- ==== Sys2Proof/Machine/Checkpoint.lean ====
section
/-! DEFINITION. Evening copy: the cut, the copy and its records, failures, and the restore of a chain
(R396–R415, R417); the commit of a step, which takes the cut (R330). -/
namespace Sys2Proof.Machine

/-- Clear an armed cut. -/
def State.ckptDisarm (s : State) : State := (s.put Reg.RPL_CKPT_CTRL_ARM 0).put Reg.RPL_CKPT_STATUS_ARMED 0

/-! ### The cut (R398–R400) -/

/-- The step to cut, 0 for the next commit. -/
def State.ckptStep (s : State) : Nat := s.get64 Reg.RPL_CKPT_STEP_LO_STEP Reg.RPL_CKPT_STEP_HI_STEP

/-- Whether the checkpoint of an epoch is full (R399). -/
def State.cutFull (s : State) (epoch : Nat) : Bool :=
  !s.on Reg.RPL_CKPT_PREV_VALID || epoch % s.get Reg.RPL_CKPT_CFG_BASE_EVERY == 0 || s.on Reg.RPL_CKPT_CTRL_FORCE_FULL
    || s.on Reg.RPL_CKPT_STATUS_FULL_NEXT

/-- The first poisoned granule of n bytes from a PA. -/
def State.poisonIn (s : State) (pa n : Nat) : Option Nat := s.poison.find? fun g => pa / 64 * 64 ≤ g && g < pa + n

/-- The first poisoned granule of the checkpoint range table. -/
def State.ckptTabPoison (s : State) : Option Nat :=
  if !s.on Reg.RPL_CKPT_TAB_LO_VALID then none
  else s.poisonIn (s.get Reg.RPL_CKPT_TAB_LO_PA_LO * 2 ^ 14 + s.get Reg.RPL_CKPT_TAB_HI_PA_HI * 2 ^ 32) (32 * s.get Reg.RPL_CKPT_TAB_HI_COUNT)

/-- A read of the copy engine meets poison (R157, R406): the checkpoint fails. -/
def State.ckptUe (s : State) (pa : Nat) : State := let r := s.consumeUe pa (some s.ckptCtx); r.2.ckptFails fMemUe r.1

/-- The cut at the commit of a step (R399). -/
def State.takeCut (s : State) (step : Nat) : State :=
  let epoch := s.get Reg.RPL_CKPT_EPOCH_EPOCH
  let full := s.cutFull epoch
  let cur := s.get Reg.RPL_CKPT_STATUS_CUR_MAP
  let n := s.ckptPages.length
  let set := (List.range n).filter fun g => full || s.dirtyBit cur g
  let other := s.bitmapBase (1 - cur)
  let s1 := (s.put Reg.RPL_CKPT_EPOCH_EPOCH (mod32 (epoch + 1))).zeroMem other (other + ceilDiv n 8)
  let s2 := ((s1.put Reg.RPL_CKPT_STATUS_CUR_MAP (1 - cur)).put Reg.RPL_CKPT_STATUS_FULL_NEXT 0).put Reg.RPL_CKPT_STATUS_FULL (b2n full)
  let s3 := ((s2.setCkpt 1).mark Reg.RPL_CKPT_EVENT_CUT).ckptDisarm
  let s4 := (s3.put Reg.RPL_CKPT_COPIED_PAGES 0).put Reg.RPL_CKPT_SKIPPED_PAGES 0
  let s5 := s4.modCkp fun k => { k with
    pending := set, rangesSent := 0, cutStep := step, cutEpoch := epoch, ciSame := 0, endSent := false
    cutPrev := if full then 0xFFFFFFFF else s.get Reg.RPL_CKPT_PREV_EPOCH }
  match s.ckptTabPoison.or (if full then none else s.poisonIn (s.bitmapBase cur) (ceilDiv n 8)) with
  | some pa => s5.ckptUe pa
  | none => s5

/-- What a commit of a step does for an armed cut (R398, R400). -/
def State.cutAtCommit (s : State) (c step : Nat) : State :=
  if s.ckptCtx != c || !s.on Reg.RPL_CKPT_CTRL_ARM || (s.ckptStep != 0 && step < s.ckptStep) then s
  else
    let st := s.ckptState
    if (st == 0 || st == 2 || st == 3) && (s.ckptStep == 0 || s.ckptStep == step) then s.takeCut step
    else s.ckptDisarm.mark Reg.RPL_CKPT_EVENT_SKIPPED

/-- A discard of the open attempt acts at the present tick (R371). -/
def State.discardNow (s : State) (c : Nat) : Bool := (s.dueDiscard c).any fun d => s.namesOpen c d.2

/-- STEP_COMMIT (R21, R330): at F_c a ready CLOSE on a VOTED attempt commits the step, and then an armed cut is taken
(R398). -/
def execStepCommit (ctx : Fin 64) (s : State) : Host.Outcome State Fault Refusal :=
  let c := ctx.val
  match s.closeOf c with
  | none => .next s
  | some (o, r) =>
    if !s.on (Reg.RPL_STEP_STATUS_CLOSE_READY c) || s.stepState c != 2 || s.discardNow c || s.frame < s.closeFrame c || 7 < s.time.pos then .next s
    else .next (((s.turn 7).commitStep c o r).cutAtCommit c (s.stepNum c))

/-! ### Failure (R406) -/

/-- The codes with which a read or a write of the copy engine can fail (R406). -/
def engineCodes : List Nat := [fLinkDown, fPermission, fStaleContext, fRouteMiss, fMemUe, fSealViolation, fCheckFail]

/-- A failure for which the manual names no fault code (a stall, CANCEL): one of an engine's codes, with its fields, both free
(log entry 67). -/
def State.ckptFailsFree (s : State) : State :=
  let r := s.fresh
  let code := engineCodes.getD (r.1 % 7) fLinkDown
  let m := s.get Reg.RPL_CKPT_TGT_CFG_MODULE
  if code = fLinkDown then r.2.ckptFails code [(1, routePort (s.route m)), (1, 5), (2, m)]
  else
    let q := r.2.refusalOf code m 0
    q.2.ckptFails code q.1

/-- The target write fails with a code. -/
def State.targetFails (s : State) (code : Nat) : State :=
  let m := s.get Reg.RPL_CKPT_TGT_CFG_MODULE
  if code = fLinkDown then s.ckptFails code [(1, routePort (s.route m)), (1, 5), (2, m)]
  else let q := s.refusalOf code m 0; q.2.ckptFails code q.1

/-! ### Records (R404, R408, R409) -/

/-- The address of the target area. -/
def State.tgtAddr (s : State) : Nat := s.get Reg.RPL_CKPT_TGT_LO_ADDR + s.get Reg.RPL_CKPT_TGT_HI_ADDR * 2 ^ 32
def State.tgtSlots (s : State) : Nat := 2 ^ s.get Reg.RPL_CKPT_TGT_CFG_SIZE_LOG2

/-- The target area lies in another module. -/
def State.tgtRemote (s : State) : Bool := s.on Reg.RPL_CKPT_TGT_CFG_KIND

/-- Write bytes of the target area (R404): in host memory, or in the target module once what was written before is visible. -/
def State.tgtWrite (s : State) (off : Nat) (bs : List Byte) : State :=
  if s.tgtRemote then s.modCkp fun k => { k with outbox := k.outbox ++ [(s.tgtAddr + off, bs)] } else s.hostStore (s.tgtAddr + off) bs

/-- The first waiting write leaves for the target module, unless one is on its way. -/
def State.tgtSend (s : State) : State := if (s.xfersOf (ckptEngine s.ckptCtx)).isEmpty then s.sendOutbox else s

/-- What has been written before is visible in the target area. -/
def State.tgtIdle (s : State) : Bool := !s.tgtRemote || s.outboxIdle

/-- The target area is full (R404). -/
def State.tgtFull (s : State) : Bool := sub32 s.ckp.pi s.ckp.ci == s.tgtSlots

/-- A record with its identity and CRC (R409): kind, bytes 1–3, bytes 28–31, bytes 32–47, and bytes 56–59. -/
def State.ckptRecord (s : State) (kind flags b2 b28 : Nat) (b32 : List Byte) (b56 : List Byte) : List Byte :=
  let bs := leBytes 1 kind ++ leBytes 1 flags ++ leBytes 2 b2 ++ leBytes 4 (s.get Reg.RPL_CKPT_SHARD_SHARD)
    ++ leBytes 8 (s.get64 Reg.RPL_CKPT_JOB_LO_JOB Reg.RPL_CKPT_JOB_HI_JOB) ++ leBytes 8 s.ckp.cutStep ++ leBytes 4 s.ckp.cutEpoch
    ++ leBytes 4 b28 ++ b32 ++ leBytes 8 s.ckp.pi ++ b56
  bs ++ leBytes 4 (crc32c bs)

/-- A record, after its page if it has one, is written, and then PI (R404). -/
def State.sendRecord (s : State) (page : Option (List Byte)) (rec : List Byte) : State :=
  let i := s.ckp.pi % s.tgtSlots
  let s1 := match page with
    | some bs => s.tgtWrite (0x10000 + max 65536 (s.tgtSlots * 64) + 65536 * i) bs
    | none => s
  let s2 := s1.tgtWrite (0x10000 + 64 * i) rec
  ((s2.tgtWrite 0 (leBytes 4 (s.ckp.pi + 1))).modCkp fun k => { k with pi := k.pi + 1 }).tgtSend

/-- Where global page g lies: its range's index, and the page index within the range. -/
def pagePlace : List CkptRange → Nat → Nat → Nat × Nat
  | [], i, g => (i, g)
  | r :: l, i, g => if g < r.pages then (i, g) else pagePlace l (i + 1) (g - r.pages)

/-- The digest table entry of a global page (R397). -/
def State.digAt (s : State) (g : Nat) : Nat :=
  s.get Reg.RPL_CKPT_DIG_LO_PA_LO * 2 ^ 16 + s.get Reg.RPL_CKPT_DIG_HI_PA_HI * 2 ^ 32 + 16 * g
def State.digEntry (s : State) (g : Nat) : Nat × Nat := (s.natAt (s.digAt g) 8, s.natAt (s.digAt g + 8) 8)

/-! ### The copy (R401, R405) -/

/-- The next page to send: one whose pre-image waits in the shadow pool, else the lowest pending (R401). -/
def State.nextPage (s : State) : Option Nat :=
  let held := s.ckp.shadow.filterMap (·.ckpt)
  (s.ckp.pending.find? held.contains).or s.ckp.pending.head?

/-- A page leaves the pending state, and its shadow copy is freed for those who wait. -/
def State.pageDone (s : State) (g : Nat) : State :=
  ((s.modCkp fun k => { k with pending := k.pending.filter (· != g) }).releaseShadow fun p => if p.ckpt == some g then { p with ckpt := none } else p).serveWaiters

/-- Sealed bytes leave only inside encrypted cells (R460). -/
def State.ckptSealed (s : State) (va : Nat) : Bool :=
  s.sealedVa s.ckptCtx va && (!s.on Reg.RPL_CKPT_TGT_CFG_KIND || !s.on Reg.SWT_SLICE_ENC)

/-- The shadow page that holds a page of the cut set (R402). -/
def State.cutShadow (s : State) (g : Nat) : Option ShadowPg := s.ckp.shadow.find? fun p => p.ckpt == some g

/-- Where a page of the cut set is read: its shadow page, or its own place. -/
def State.cutAt (s : State) (g : Nat) : Option Nat :=
  match s.cutShadow g with
  | some p => some (s.poolAt p.index)
  | none => s.pageOf s.ckptCtx (s.ckptPages.getD g 0)

/-- One page of the cut set (R401): hashed, then skipped in a delta whose digest entry agrees, or sent. -/
def State.copyOne (s : State) (g : Nat) (e : MemErr) : State :=
  let c := s.ckptCtx
  let va := s.ckptPages.getD g 0
  match s.cutAt g with
  | none => match s.walkPoison c va with
    | some x => s.ckptUe x
    | none => s.ckptFails fPermission [(1, 1), (8, va)]
  | some pa =>
    if s.ckptSealed va then
      let r := s.fresh
      r.2.sealCount.ckptFails fSealViolation [(2, s.moduleId), (1, s.keySlot), (1, r.1 % 256)]
    else
      let pas := (List.range 65536).map fun k => pa + k
      let t := s.meetErrs (some c) pas.contains e
      match t.readErr c pas e with
      | .ue x => t.ckptUe x
      | .parity x => (t.countCheck 6 2 0 (x % 4096) (some c)).ckptFails fCheckFail (checkDetail 6 0 (x / 4096 * 4096))
      | .chk x => (t.countCheck 1 3 (memOf x) (x % 4096) (some c)).ckptFails fCheckFail (checkDetail 1 0 (x / 4096 * 4096))
      | .none =>
        let bs := pas.map t.paByte
        let h := pageHash bs
        if t.poisoned (t.digAt g) then t.ckptUe (t.digAt g)
        else if !t.on Reg.RPL_CKPT_STATUS_FULL && t.digEntry g == h then (t.bump Reg.RPL_CKPT_SKIPPED_PAGES).pageDone g
        else
          let q := pagePlace t.ckptRanges 0 g
          let line := t.ckptRecord 1 (b2n (t.on Reg.RPL_CKPT_STATUS_FULL) + 2 * b2n (s.cutShadow g).isSome) q.1 q.2 (digestBytes h) (leBytes 4 g)
          ((((t.sendRecord (some bs) line).storeAt (t.digAt g) (digestBytes h)).bump Reg.RPL_CKPT_COPIED_PAGES).pageDone g)

/-- The RANGE record of a table entry (R405, R409). -/
def State.rangeRecord (s : State) (i : Nat) (r : CkptRange) : List Byte :=
  s.ckptRecord 2 (b2n (s.on Reg.RPL_CKPT_STATUS_FULL)) i r.pages (leBytes 8 r.va ++ leBytes 8 r.first)
    (leBytes 1 r.array ++ leBytes 1 r.format ++ leBytes 2 r.tensor)

/-- The engine may write its next record: while copying, with the target enabled, not full, and all before it visible. -/
def State.ckptReady (s : State) : Bool := s.ckptState == 1 && s.on Reg.RPL_CKPT_TGT_CFG_ENABLE && !s.tgtFull && s.tgtIdle

/-- CKPT_PAGE_COPY (R401, R405): the RANGE records first, then the pages; nothing while the target is full. `fail` is
the code with which a write to the host fails; one to another module fails by its cells. -/
def execCkptPageCopy (e : MemErr) (fail : Option Byte) (s : State) : Host.Outcome State Fault Refusal :=
  if !s.ckptReady then .next s
  else match fail.filter fun _ => !s.tgtRemote with
    | some code => .next (s.targetFails code.toNat)
    | none =>
      match s.ckptTabPoison with
      | some pa => .next (s.ckptUe pa)
      | none => match s.ckptRanges[s.ckp.rangesSent]? with
      | some r => .next ((s.sendRecord none (s.rangeRecord s.ckp.rangesSent r)).modCkp fun k => { k with rangesSent := k.rangesSent + 1 })
      | none => match s.nextPage with
        | none => .next s
        | some g => .next (s.copyOne g e)

/-- CKPT_DONE (R405): with every page sent or skipped, the END record completes the checkpoint, in another module once its
PI is visible there. -/
def execCkptDone (fail : Option Byte) (s : State) : Host.Outcome State Fault Refusal :=
  if !s.ckptReady || !s.ckp.pending.isEmpty || s.ckp.rangesSent < s.ckptRanges.length then .next s
  else match fail.filter fun _ => !s.tgtRemote with
    | some code => .next (s.targetFails code.toNat)
    | none => match s.ckptTabPoison.or (s.poisonIn (s.digAt 0) (16 * s.ckptPages.length)) with
    | some pa => .next (s.ckptUe pa)
    | none =>
      let d := digestOf ((List.range s.ckptPages.length).map s.digEntry)
      let line := s.ckptRecord 3 (b2n (s.on Reg.RPL_CKPT_STATUS_FULL)) s.ckptRanges.length s.ckp.cutPrev (digestBytes d)
        (leBytes 4 (s.get Reg.RPL_CKPT_COPIED_PAGES))
      let t := s.sendRecord none line
      .next (if s.tgtRemote then t.modCkp fun k => { k with endSent := true } else t.ckptComplete)

/-- CKPT_TARGET_STALL (R406): CI unchanged for TGT_LIMIT units of 2,048 frames while the ring is full. -/
def execCkptTargetStall (s : State) : Host.Outcome State Fault Refusal :=
  if s.ckptState != 1 || !s.tgtFull || s.ckp.ciSame < 2048 * s.get Reg.RPL_CKPT_TGT_CFG_TGT_LIMIT then .next s
  else .next s.ckptFailsFree

/-! ### Firmware writes (R398, R406, R412, R417) -/

/-- Start a restore (R412). -/
def State.startRestore (s : State) : State :=
  let st := s.ckptState
  if st == 1 || st == 4 then s
  else (((s.setCkpt 4).mark Reg.RPL_CKPT_CTRL_RESTORE).mark Reg.RPL_CKPT_STATUS_FULL_NEXT).modCkp fun k => { k with restore := {}, ci := 0 }

/-- CANCEL (R406, R414): it fails a running copy, and ends a running or failed restore. -/
def State.ckptCancel (s : State) : State :=
  let s1 := s.ckptDisarm
  if s.ckptState = 1 then s1.ckptFailsFree
  else if s.ckptState = 4 || s.ckptState = 5 then (s1.dropOutbox.setCkpt 0).put Reg.RPL_CKPT_CTRL_RESTORE 0
  else s1

/-- A write of RPL_CKPT_CTRL. -/
def State.writeCkptCtrl (s : State) (v : Nat) : State :=
  let s1 := s.put Reg.RPL_CKPT_CTRL_FORCE_FULL (bitsOf v 2 1)
  let s2 := s1.when (bitOn v 0) fun t => (t.mark Reg.RPL_CKPT_CTRL_ARM).mark Reg.RPL_CKPT_STATUS_ARMED
  let s3 := s2.when (bitOn v 1) fun t => t.ckptCancel
  s3.when (bitOn v 3) fun t => t.startRestore

/-- CKPT_ARM (R398). -/
def execCkptArm (p : Party) (v : Word) (s : State) : Host.Outcome State Fault Refusal := .next (s.fwOnly p fun t => t.writeCkptCtrl v.toNat)

/-- CKPT_CANCEL (R406). -/
def execCkptCancel (p : Party) (v : Word) (s : State) : Host.Outcome State Fault Refusal := .next (s.fwOnly p fun t => t.writeCkptCtrl v.toNat)

/-- CKPT_RESTORE (R412). -/
def execCkptRestore (p : Party) (v : Word) (s : State) : Host.Outcome State Fault Refusal := .next (s.fwOnly p fun t => t.writeCkptCtrl v.toNat)

/-- Whether table and target registers are writable (R417). -/
def State.ckptWritable (s : State) : Bool := let st := s.ckptState; st == 0 || st == 2 || st == 3 || st == 6

/-- A write of RPL_CKPT_TGT_CFG (R417). -/
def State.writeTgtCfg (s : State) (v : Nat) : State :=
  if !s.ckptWritable then s
  else
    let was := s.on Reg.RPL_CKPT_TGT_CFG_ENABLE
    let s1 := ((s.put Reg.RPL_CKPT_TGT_CFG_ENABLE (bitsOf v 0 1)).put Reg.RPL_CKPT_TGT_CFG_KIND (bitsOf v 1 1)).put
      Reg.RPL_CKPT_TGT_CFG_SIZE_LOG2 (max 8 (min 20 (bitsOf v 2 5)))
    let s2 := (s1.put Reg.RPL_CKPT_TGT_CFG_MODULE (bitsOf v 8 13)).when (bitsOf v 21 11 != 0)
      fun t => t.put Reg.RPL_CKPT_TGT_CFG_TGT_LIMIT (bitsOf v 21 11)
    s2.when (bitOn v 0 && !was) fun t => t.modCkp fun k => { k with pi := 0, ci := 0, ciSame := 0 }

/-- CKPT_TGT_ENABLE (R417). -/
def execCkptTgtEnable (p : Party) (v : Word) (s : State) : Host.Outcome State Fault Refusal := .next (s.fwOnly p fun t => t.writeTgtCfg v.toNat)

/-! ### Restoring a chain (R412–R415) -/

/-- A record as the restore engine reads it. -/
structure CkptRec where
  kind : Nat
  full : Bool
  range : Nat
  shard : Nat
  job : Nat
  step : Nat
  epoch : Nat
  b28 : Nat
  dig : Nat × Nat
  seq : Nat
  tail : Nat
  crcOk : Bool

def ckptRec (r : BitVec 512) : CkptRec :=
  let b (k n : Nat) : Nat := r.toNat / 2 ^ (8 * k) % 2 ^ (8 * n)
  { kind := b 0 1, full := bitOn (b 1 1) 0, range := b 2 2, shard := b 4 4, job := b 8 8, step := b 16 8, epoch := b 24 4, b28 := b 28 4,
    dig := (b 32 8, b 40 8), seq := b 48 8, tail := b 56 4, crcOk := b 60 4 == crc32c (leBytes 60 (b 0 60)) }

/-- MIXED_STEP at a record, with what the record carried. -/
def State.chainMixed (s : State) (check : Nat) (r : CkptRec) : State :=
  s.chainFails r.seq fMixedStep [(1, check), (4, r.epoch), (8, r.job), (4, r.shard), (8, r.step)]

/-- The job and shard that a record carries are the armed ones. -/
def State.chainOurs (s : State) (r : CkptRec) : Bool :=
  r.job == s.get64 Reg.RPL_CKPT_JOB_LO_JOB Reg.RPL_CKPT_JOB_HI_JOB && r.shard == s.get Reg.RPL_CKPT_SHARD_SHARD

def State.modRestore (s : State) (f : RestoreSt → RestoreSt) : State := s.modCkp fun k => { k with restore := f k.restore }

/-- An END record of the chain (R413, first check). -/
def State.chainEnd (s : State) (r : CkptRec) : State :=
  let x := s.ckp.restore
  let linked := match x.ends.getLast? with
    | none => r.full && r.b28 == 0xFFFFFFFF
    | some e => r.b28 == e.1
  if x.ranges != 0 || !x.written.isEmpty || !linked || !s.chainOurs r then s.chainMixed 1 r
  else s.modRestore fun y => { y with ends := y.ends ++ [(r.epoch, r.dig)], lastStep := r.step }

/-- The END records are complete: the last carries the armed step. -/
def State.endsOk (s : State) : Bool := !s.ckp.restore.ends.isEmpty && s.ckp.restore.lastStep == s.ckptStep

/-- A RANGE record (R413, second check). -/
def State.chainRange (s : State) (r : CkptRec) : State :=
  if !s.endsOk then s.chainMixed 1 r
  else match s.ckptRanges[s.ckp.restore.ranges]? with
    | none => s.chainMixed 2 r
    | some e =>
      if r.b28 == e.pages && r.dig == (e.va, e.first) && r.tail % 256 == e.array && s.chainOurs r then
        s.modRestore fun y => { y with ranges := y.ranges + 1 }
      else s.chainMixed 2 r

/-- A PAGE record with its page (R413, third check). -/
def State.chainPage (s : State) (r : CkptRec) (page : List Byte) : State :=
  let x := s.ckp.restore
  let c := s.ckptCtx
  if !s.endsOk then s.chainMixed 1 r
  else if x.ranges != s.ckptRanges.length then s.chainMixed 2 r
  else if !s.chainOurs r || !r.crcOk || !(x.ends.any fun e => e.1 == r.epoch) || r.epoch < x.lastEpoch || r.tail ≥ s.ckptPages.length then s.chainMixed 3 r
  else if pageHash page != r.dig then s.chainFails r.seq fDigestMismatch [(2, 0xFFFF), (1, 3)]
  else
    let va := s.ckptPages.getD r.tail 0
    match s.pageOf c va with
    | none => match s.walkPoison c va with
      | some a => let q := s.consumeUe a (some c); q.2.chainFails r.seq fMemUe q.1
      | none => s.chainFails r.seq fPermission [(1, 1), (8, va)]
    | some _ => (s.putPage c va (page.mapIdx fun k b => (va + k, b))).modRestore fun y => { y with
        lastEpoch := r.epoch, written := sset (fun _ => none) y.written r.tail (some r.dig) }

/-- A page slot's 65,536 bytes. -/
def fullPage (page : List Byte) : List Byte := (page ++ List.replicate 65536 0).take 65536

/-- A record of a chain takes effect by its kind (R413–R415). -/
def State.chainRec (s : State) (r : CkptRec) (page : List Byte) : State :=
  if r.kind = 3 then s.chainEnd r else if r.kind = 2 then s.chainRange r else if r.kind = 1 then s.chainPage r page else s.chainMixed 3 r

/-- RESTORE_RECORD (R412, R413): a record of the target area and its page slot; CI advances past it. -/
def execRestoreRecord (rec : BitVec 512) (page : List Byte) (s : State) : Host.Outcome State Fault Refusal :=
  if s.ckptState != 4 then .next s
  else match s.ckptTabPoison with
  | some pa => let q := s.consumeUe pa (some s.ckptCtx); .next (q.2.chainFails s.ckp.restore.lastSeq fMemUe q.1)
  | none =>
    let r := ckptRec rec
    .next (((s.chainRec r (fullPage page)).modCkp fun k => { k with ci := mod32 (k.ci + 1), restore := { k.restore with lastSeq := r.seq } }).tgtWrite 8 (leBytes 4 (s.ckp.ci + 1))).tgtSend

/-- CKPT_RESTORE_DONE (R413, R415): at the end of the stream, coverage and the fold are checked; then derived pages are
rebuilt, the digest table filled and the bitmaps cleared. RESTORE clears: DESIGN CHOICE (log entry 131). -/
def execCkptRestoreDone (s : State) : Host.Outcome State Fault Refusal :=
  if s.ckptState != 4 then .next s
  else match s.ckptTabPoison.or s.protPoison with
  | some pa => let q := s.consumeUe pa (some s.ckptCtx); .next (q.2.chainFails s.ckp.restore.lastSeq fMemUe q.1)
  | none =>
    let c := s.ckptCtx
    let x := s.ckp.restore
    let n := s.ckptPages.length
    let hs := (List.range n).map fun g => (sget (fun _ => none) x.written g).getD (0, 0)
    let last := x.ends.getLast?
    if !s.endsOk then let q := s.mixedFree 1; .next (q.2.chainFails x.lastSeq fMixedStep q.1)
    else if x.ranges != s.ckptRanges.length then let q := s.mixedFree 2; .next (q.2.chainFails x.lastSeq fMixedStep q.1)
    else if x.written.length != n then let q := s.mixedFree 4; .next (q.2.chainFails x.lastSeq fMixedStep q.1)
    else if (last.map (·.2)) != some (digestOf hs) then .next (s.chainFails x.lastSeq fDigestMismatch [(2, 0xFFFF), (1, 3)])
    else
      let s1 := s.masterPages.foldl (fun t va => t.rebuildPage c va) s
      let s2 := s1.storeAt (s1.digAt 0) (hs.flatMap digestBytes)
      let b0 := s2.bitmapBase 0
      let b1 := s2.bitmapBase 1
      let s3 := (s2.zeroMem b0 (b0 + ceilDiv n 8)).zeroMem b1 (b1 + ceilDiv n 8)
      let s4 := (s3.put Reg.RPL_CKPT_PREV_EPOCH ((last.map (·.1)).getD 0)).put Reg.RPL_CKPT_PREV_VALID 1
      .next ((((s4.mark Reg.RPL_CKPT_STATUS_FULL_NEXT).setCkpt 6).mark Reg.RPL_CKPT_EVENT_RESTORE_DONE).put Reg.RPL_CKPT_CTRL_RESTORE 0)

end Sys2Proof.Machine
end

