-- ==== Sys2Proof/Machine/Dumps.lean ====
section
/-! DEFINITION. The contents of a dump (R430, R431, R433). The manual names the sections, their order by number and their
sizes; a layout that it does not give is bytes that Config leaves open (log entry 135). -/
namespace Sys2Proof.Machine

/-- A section of a dump: its block (unit kind × 4096 + unit), its number, its expected length and its body. -/
structure DumpPart where
  block : Nat
  num : Nat
  size : Nat
  body : List Byte

/-- The cores of a dump's scope. -/
def dumpCores (scope index : Nat) : List Nat :=
  if scope = 0 then [index] else if scope = 1 then (List.range 4).map fun k => index * 4 + k else List.range 144

/-- n bytes that stand for what a block holds, in a layout that the manual leaves open. -/
def openBytes (block num n : Nat) (held : List Nat) : List Byte :=
  (List.range n).map fun k => Config.dumpByte (block * 16 + num) held k

/-- A section with a body of its full length. -/
def fullPart (block num : Nat) (body : List Byte) : DumpPart := ⟨block, num, body.length, body⟩

/-! ### Blocks and snapshot sets (R63, R101, R471) -/

/-- How many blocks there are of each unit kind (R425). -/
def unitCounts : List Nat := [0, 144, 36, 16, 1, 9, 1, 1, 9, 16, 22, 1, 1, 5, 1, 9]

/-- The blocks that hold snapshot sets, as kind × 4096 + unit: the units of R425, in its order. That they are the blocks, and the
entries of the SNP index in this order, is DESIGN CHOICE (log entry 135). -/
def snapBlocks : List Nat := unitCounts.zipIdx.flatMap fun x => (List.range x.1).map fun u => 4096 * x.2 + u

/-- The size of a block's set in bytes: a multiple of 16, as the index's SIZE counts. -/
def setUnits (b : Nat) : Nat := max 1 (Config.snapSize b % 4096)

/-- The registers of BAR0 that belong to a block: first and last address. -/
def blockWindow (b : Nat) : Nat × Nat :=
  match b / 4096 with
  | 1 => (0x1000000 + 0x10000 * (b % 4096), 0x100FFFF + 0x10000 * (b % 4096))
  | 6 => (0x200000, 0x2FFFFF)
  | 7 => (0x300000, 0x3FFFFF)
  | 8 => (0x400000, 0x4FFFFF)
  | 9 => (0x500000, 0x5FFFFF)
  | 10 => (0x500000, 0x5FFFFF)
  | 11 => (0x100000, 0x1FFFFF)
  | 12 => (0x600000, 0x6FFFFF)
  | 14 => (0x700000, 0x8FFFFF)
  | 15 => (0x900000, 0xCFFFFF)
  | _ => (1, 0)

/-- The control state of a tile (R101): its state, its marks, and an exact tile's anchor, total of K and tags. -/
def State.tileControl (s : State) (c t : Nat) : List Nat :=
  let e : ExactTile := sget (fun _ => {}) (s.core c).exact t
  [s.get (accState c t), sget (fun _ => 0) (s.core c).marks t, toField 16 e.anchor, e.total] ++ e.tags.flatMap fun x => [x.1, x.2]

/-- What the live set of a block holds (R63, R101, R471): of a core CORE_ASW first and the control state of its tiles; the block's
registers; and the operations that it serves. -/
def State.liveSet (s : State) (b : Nat) : List Nat :=
  let k := b / 4096
  let u := b % 4096
  let win := blockWindow b
  (if k = 1 then (s.reg (Reg.CORE_ASW u)).toNat :: (List.range 32).flatMap (s.tileControl u) else [])
    ++ ((s.regs.filter fun e => win.1 ≤ e.1 && e.1 ≤ win.2).flatMap fun e => [e.1, e.2.toNat])
    ++ ((s.ops.filter fun o => o.issued && o.fin.isNone && Op.unit s o == (k, u)).flatMap fun o => [o.ring, o.idx, o.opc, o.units, o.substep])

/-- A core whose block is not asked: 3 powered down, under a fence, or 4 in reset (R388, R431). -/
def State.coreSilent (s : State) (c : Nat) : Option Nat :=
  if s.rpl.fenced.contains (coreCluster c) then some 3 else if s.coreInReset c then some 4 else none

/-- A cluster DMA engine that is not asked, in the same way. -/
def State.clusterSilent (s : State) (k : Nat) : Option Nat :=
  if s.rpl.fenced.contains k then some 3 else if s.on (rstCl k) then some 4 else none

/-- Why a block is silent, if it is. -/
def State.blockSilent (s : State) (b : Nat) : Option Nat :=
  if b / 4096 = 1 then s.coreSilent (b % 4096) else if b / 4096 = 2 then s.clusterSilent (b % 4096) else none

/-- A capture (R471): every block that is powered and not in reset copies its live set into its capture set. -/
def State.capture (s : State) : SnpSt :=
  { s.snp with
    invalid := snapBlocks.filter fun b => (s.blockSilent b).isSome
    sets := (snapBlocks.filter fun b => (s.blockSilent b).isNone).foldl (fun l b => sset (fun _ => []) l b (s.liveSet b)) s.snp.sets }

/-- The blocks whose sets a dump reads (R430). -/
def dumpBlocks (scope index : Nat) : List Nat :=
  snapBlocks.filter fun b => scope == 2 || (b / 4096 == 1 && (dumpCores scope index).contains (b % 4096))
    || (b / 4096 == 2 && b % 4096 == (if scope = 0 then coreCluster index else index))

/-- A snapshot set of a block in a dump, live (7) or captured (8): a core's holds CORE_ASW (R63), at a place that the manual does
not give. -/
def snapSet (sets : Sparse (List Nat)) (num b : Nat) : DumpPart :=
  let held := sget (fun _ => []) sets b
  let n := 16 * setUnits b
  fullPart b num ((openBytes b num n held).mapIdx fun k x =>
    if b / 4096 = 1 && k / 4 = Config.aswPlace % (n / 4) then BitVec.ofNat 8 (held.headD 0 / 256 ^ (k % 4)) else x)

/-! ### What the other sections hold (R430) -/

/-- A synchronisation object. -/
def SyncObj.held (b : SyncObj) : List Nat :=
  [b2n b.barrier, b.value, b.localN, b2n b.root, b.parentPort, b.childMask, b2n b.sense, b2n b.broken, b.cur.locals.length, b.cur.arrived,
    b.cur.payload, b.nxt.locals.length, b.nxt.arrived, b.nxt.payload, b.nameCtx, b.nameVid]

/-- What a section holds at the start of a dump: 2 contexts, 3 rings with copies of their control blocks, 5 synchronisation
objects, for a core or cluster those on which its cores wait, 6 waiter entries, 11 mailbox queues with sender stamps, and 12 the
duplicate buffer state of a cluster. -/
def State.sectionHeld (s : State) (scope index num : Nat) : List Nat :=
  let waits : List (Nat × CoreWait) := (dumpCores scope index).filterMap fun c => (s.core c).wait.map fun w => (c, w)
  match num with
  | 2 => (List.range 64).flatMap fun c =>
      [s.get (Reg.SUB_CTX_CTRL_STATE c), s.gen c, s.vcid c, s.get (Reg.SYN_CTX_EPOCH_EPOCH c), s.stepState c, s.stepNum c, s.get (Reg.RPL_STEP_ATTEMPT_ATTEMPT c)]
  | 3 => s.sub.rings.flatMap fun e =>
      [e.1, s.get (Reg.SUB_RING_CI_CI e.1), e.2.piOld, e.2.cqCi, e.2.cqPi, e.2.issuedRej, b2n e.2.blocked, b2n e.2.stopping]
  | 5 => if scope = 2 then s.syn.objs.flatMap fun e => e.1 :: e.2.held else waits.flatMap fun w => w.2.obj :: (s.obj w.2.obj).held
  | 6 => ((s.ops.filter fun o => o.wait.isSome).flatMap fun o => [o.ring, o.idx, o.opc, o.ctx, o.seq])
      ++ waits.flatMap fun w => [w.1, w.2.obj, w.2.vid, w.2.thr, w.2.wdog, w.2.ticks]
  | 11 => s.sub.chans.flatMap fun e => e.1 :: (e.2.to0 ++ e.2.to1).flatMap fun x => [x.1, x.2]
  | 12 => (s.integ.dups.filter fun d => coreCluster d.check == index).flatMap fun d => [d.pcore, d.lcore, d.check, d.q, d.step, d.attempt, d.bytes]
  | _ => []

/-- The cell headers of a port, oldest first (R430). -/
def headBody (l : List (Nat × List (List Byte))) (p : Nat) : List Byte :=
  fitBytes (256 * 64) (((l.find? fun x => x.1 == p).map fun x => x.2.reverse.flatten).getD [])

/-- The sections of a dump by number (R430): 1 the fault tail, 2 contexts, 3 rings, 4 progress records, 5 synchronisation
objects, 6 waiter entries, 7 and 8 the live and captured snapshot sets, 9 and 10 the cell headers, 11 the mailbox queues;
the duplicate buffer state of a cluster dump, without a number in the manual, goes last. -/
def Dump.sections (d : Dump) : List DumpPart :=
  let disp := 6 * 4096
  let syn := 7 * 4096
  let tail := fullPart 0 1 (fitBytes 32768 (d.tail.flatMap FaultRec.bytes))
  let prog := fullPart disp 4 d.prog.flatten
  let held (num : Nat) : List Nat := sget (fun _ => []) d.parts num
  let part (block num n : Nat) : DumpPart := fullPart block num (openBytes block num n (held num))
  let blocks := dumpBlocks d.scope d.index
  let sets := (blocks.map (snapSet d.live 7)) ++ blocks.map (snapSet d.captured 8)
  if d.scope = 2 then
    [tail, part disp 2 4096, part disp 3 16384, prog, part syn 5 131072, part syn 6 131072] ++ sets
    ++ (List.range 16).map (fun p => fullPart (9 * 4096 + p) 9 (headBody d.rxHeads p))
    ++ (List.range 16).map (fun p => fullPart (9 * 4096 + p) 10 (headBody d.txHeads p))
    ++ [part (15 * 4096) 11 2048]
  else
    [tail, prog, part syn 5 (16 * ((held 5).length / 17))] ++ sets
    ++ (if d.scope = 1 then [part (2 * 4096 + d.index) 12 Config.dupState] else [])

/-- A section as it stands in the dump (R431, R433): its 16-byte header, and what was received of its body. -/
def Dump.partBytes (d : Dump) (x : DumpPart) : List Byte :=
  let why := ((d.unreadable.find? fun u => u.1 == x.block && u.2.1 == x.num).map fun u => u.2.2).getD 0
  let got := if why = 0 then x.body
    else if why = 2 then x.body.take (Config.dumpCut d.startFrame (x.block * 16 + x.num) % (x.size + 1)) else []
  leBytes 2 x.block ++ leBytes 1 x.num ++ leBytes 1 (b2n (why != 0)) ++ leBytes 1 why ++ List.replicate 3 0
    ++ leBytes 4 got.length ++ leBytes 4 x.size ++ got

/-- A dump in its slot (R433): the 64-byte header with the CRC-32C of everything but its own bytes, and the sections. -/
def Dump.bytes (d : Dump) : List Byte :=
  let body := d.sections.flatMap d.partBytes
  let head := leBytes 4 (64 + body.length) ++ leBytes 1 d.scope ++ leBytes 1 d.index ++ leBytes 2 d.sections.length
    ++ leBytes 8 d.startFrame ++ leBytes 8 (d.endFrame.getD 0) ++ leBytes 4 (d.logseq.getD 0xFFFFFFFF)
    ++ leBytes 2 d.unreadable.length ++ List.replicate 30 0
  head ++ leBytes 4 (crc32c (head ++ body)) ++ body

end Sys2Proof.Machine
end

