-- ==== Sys2Proof/Machine/Memory.lean ====
section
/-! DEFINITION. The memory controllers: translation invalidation (R142), row repair (R159–R161), refresh
(R153) and patrol scrub (R156, R158). -/
namespace Sys2Proof.Machine

/-! ### Translation invalidation (R142, R164) -/

/-- A write of MEM_XLAT_INVAL (R142): GO starts an invalidation of a context or of all; a write while BUSY = 1 is ignored. -/
def State.writeXlatInval (s : State) (v : Nat) : State :=
  if bitOn v 7 && !s.on Reg.MEM_XLAT_INVAL_BUSY then
    ((s.mark Reg.MEM_XLAT_INVAL_BUSY).mark Reg.MEM_STATUS_XLAT_BUSY).modMem
      fun x => { x with inval := some (if bitOn v 6 then none else some (bitsOf v 0 6)) }
  else s

/-- MEM_XLAT_INVAL (R142). -/
def execMemXlatInval (p : Party) (v : Word) (s : State) : Host.Outcome State Fault Refusal :=
  .next (s.fwOnly p fun t => t.writeXlatInval v.toNat)

/-- MEM_XLAT_DONE (R142, R161): BUSY clears, no engine holds a translation of the context any more, and the pages of
failed repairs, which firmware has moved and unmapped before, join the list of retired pages (DESIGN CHOICE: log entry 129). -/
def execMemXlatDone (s : State) : Host.Outcome State Fault Refusal :=
  .next (((s.put Reg.MEM_XLAT_INVAL_BUSY 0).put Reg.MEM_STATUS_XLAT_BUSY 0).modMem fun x => { x with
    tlb := match x.inval with
      | some (some c) => x.tlb.filter fun e => e.ctx != c
      | some none => []
      | none => x.tlb
    inval := none
    retired := x.retireDue.foldl (fun l p => insertSorted p l) x.retired
    retireDue := [] })

/-! ### Row repair (R159–R161) -/

/-- Spare rows left in a memory: 0–7 stack NMn, 8 board memory. -/
def State.spares (s : State) (m : Nat) : Nat := sget (fun _ => 0) s.memx.spares m - 1

/-- The spare rows of a memory, shown in its status register, saturating at 65,535 (R164). -/
def State.setSpares (s : State) (m n : Nat) : State :=
  (s.modMem fun x => { x with spares := sset (fun _ => 0) x.spares m (n + 1) }).put
    (if m = 8 then Reg.MEM_BC_TEMP_SPARE_ROWS else Reg.MEM_NM_STATUS_SPARE_ROWS m) (min 65535 n)

/-- The PA of the row chunk that MEM_REPAIR_CTRL names: bit [29] is ignored in board memory (R164). -/
def State.repairChunk (s : State) : Nat :=
  let page := s.get Reg.MEM_REPAIR_CTRL_PAGE * 65536
  let k := s.get Reg.MEM_REPAIR_CTRL_CHUNK
  if page < nearEnd then page + k * 1024 else page + k % 32 * 2048

/-- A write of MEM_REPAIR_CTRL (R159, R164): PAGE and CHUNK, and GO, which is ignored while BUSY = 1 and clears
DONE and NO_SPARE. -/
def State.writeRepairCtrl (s : State) (v : Nat) : State :=
  let s1 := (s.put Reg.MEM_REPAIR_CTRL_PAGE (bitsOf v 0 24)).put Reg.MEM_REPAIR_CTRL_CHUNK (bitsOf v 24 6)
  if bitOn v 31 && !s.on Reg.MEM_REPAIR_STATUS_BUSY && s.memx.repairGo.isNone then
    (((s1.put Reg.MEM_REPAIR_STATUS_DONE 0).put Reg.MEM_REPAIR_STATUS_NO_SPARE 0).mark Reg.MEM_REPAIR_CTRL_GO).modMem
      fun x => { x with repairGo := some s.now }
  else s1

/-- MEM_REPAIR_GO (R159). -/
def execMemRepairGo (p : Party) (v : Word) (s : State) : Host.Outcome State Fault Refusal :=
  .next (s.fwOnly p fun t => t.writeRepairCtrl v.toNat)

/-- REPAIR_START (R160, R161): at the tick after GO the chunk goes into the hold buffer; with no spare row left
the repair fails, the bank stays open and no data moves. -/
def execRepairStart (s : State) : Host.Outcome State Fault Refusal :=
  match s.memx.repairGo with
  | none => .next s
  | some t0 =>
    let pa := s.repairChunk
    if s.now ≤ t0 then .next s
    else if s.spares (memOf pa) = 0 then
      .next ((((s.mark Reg.MEM_REPAIR_STATUS_NO_SPARE).mark Reg.MEM_EVENT_REPAIR_FAIL).put Reg.MEM_REPAIR_CTRL_GO 0).modMem
        fun x => { x with repairGo := none, retireDue := insertSorted (pa / 65536 * 65536) x.retireDue })
    else
      .next ((((s.mark Reg.MEM_REPAIR_STATUS_BUSY).mark Reg.MEM_STATUS_REPAIR_BUSY).put Reg.MEM_REPAIR_STATUS_STALL 0).modMem
        fun x => { x with repairGo := none, repair := some (pa, s.now) })

/-- REPAIR_DONE (R160, R162): three frames later the chunk lies in a spare row, with its poison; the row joins
Idfort's list. -/
def execRepairDone (stalls : BitVec 16) (s : State) : Host.Outcome State Fault Refusal :=
  match s.memx.repair with
  | none => .next s
  | some (pa, t0) =>
    if s.now < t0 + 3 then .next s
    else
      let s1 := ((s.put Reg.MEM_REPAIR_STATUS_BUSY 0).put Reg.MEM_STATUS_REPAIR_BUSY 0).put Reg.MEM_REPAIR_CTRL_GO 0
      let s2 := ((s1.mark Reg.MEM_REPAIR_STATUS_DONE).mark Reg.MEM_EVENT_REPAIR_DONE).put Reg.MEM_REPAIR_STATUS_STALL stalls.toNat
      .next ((s2.setSpares (memOf pa) (s.spares (memOf pa) - 1)).modMem fun x => { x with repair := none, repaired := x.repaired ++ [pa] })

/-! ### Refresh (R153) -/

/-- The refresh state after a sample of θ °C (R153): 0 is 1×, 1 is 2×, 2 is over limit. -/
def refreshNext (state θ : Nat) : Nat :=
  match state with
  | 0 => if θ > 95 then 2 else if θ > 85 then 1 else 0
  | 1 => if θ > 95 then 2 else if θ ≥ 82 then 1 else 0
  | _ => if θ ≥ 92 then 2 else if θ ≥ 82 then 1 else 0

/-- The temperature and refresh fields of a memory. -/
def tempFld (m : Nat) : Reg.Fld := if m = 8 then Reg.MEM_BC_TEMP_TEMP else Reg.MEM_NM_STATUS_TEMP m
def refreshFld (m : Nat) : Reg.Fld := if m = 8 then Reg.MEM_BC_TEMP_REFRESH else Reg.MEM_NM_STATUS_REFRESH m

/-- MEM_TEMP_SAMPLE (R153): a controller samples its hottest device; the state applies at the next tick. -/
def execMemTempSample (mem : Fin 9) (temp : Byte) (s : State) : Host.Outcome State Fault Refusal :=
  let m := mem.val
  let st := refreshNext (s.get (refreshFld m)) temp.toNat
  .next ((s.put (tempFld m) temp.toNat).modMem fun x => { x with refreshDue := sset (fun _ => (0, 0)) x.refreshDue m (st, s.now + 1) })

/-- The refresh states due at the present tick apply; each change sets REFRESH_CHANGE (R153). -/
def State.applyRefresh (s : State) : State :=
  let due := s.memx.refreshDue.filter fun e => e.2.2 ≤ s.now
  let s1 := s.modMem fun x => { x with refreshDue := x.refreshDue.filter fun e => !(e.2.2 ≤ s.now) }
  s1.each due fun t e =>
    if t.get (refreshFld e.1) = e.2.1 then t else (t.put (refreshFld e.1) e.2.1).mark Reg.MEM_EVENT_REFRESH_CHANGE

/-! ### Scrub (R156, R158) -/

/-- SCRUB_READ (R158): with SCRUB_EN a granule of near or board memory is read in idle cycles; an uncorrectable
error poisons it and is recorded with CTX_VALID = 0, without a fault. -/
def execScrubRead (granule : BitVec 34) (result : ReadResult) (s : State) : Host.Outcome State Fault Refusal :=
  let pa := granule.toNat * 64
  if !s.on Reg.MEM_CTRL_SCRUB_EN || !paExists pa || memOf pa = 9 then .next s
  else match result with
    | .clean => .next s
    | .corrected => .next (s.correctedErr pa none)
    | .uncorrectable => .next (s.markUe pa none)

/-- CE_WINDOW_EXPIRE (R156): 24 h after its first error the count of a row chunk is dropped. -/
def execCeWindowExpire (granule : BitVec 34) (s : State) : Host.Outcome State Fault Refusal :=
  let k := chunkOf (granule.toNat * 64)
  let w := sget (fun _ => (0, 0)) s.memx.ceCount k
  if w.1 = 0 || s.now < w.2 + dayTicks then .next s
  else .next (s.modMem fun x => { x with ceCount := sset (fun _ => (0, 0)) x.ceCount k (0, 0) })

end Sys2Proof.Machine
end

