-- ==== Sys2Proof/Machine/Integrity.lean ====
section
/-! DEFINITION. Duplicates (R345–R350), temperature bands (R351), digest mismatches (R356), health (R357, R358),
signatures (R360) and test packs (R361–R363). -/
namespace Sys2Proof.Machine

/-! ### Duplicates (R348–R350) -/

/-- The state in which a re-run leaves the check tile (R348). -/
def dupRerun (d : DupEntry) : TileImg :=
  d.jobs.foldl (fun g j => match j with
    | none => {}
    | some m => (m.run g).1) d.prior

/-- The bits of an element of a tile: its binary32 code, or the 128-bit integer of an exact tile. -/
def TileImg.elemBits (g : TileImg) (k : Nat) : Nat :=
  if g.state = 1 then toField 128 (sget (fun _ => 0) g.exact.x k) else sget (fun _ => 0) g.data k

/-- The state with an error of the arrays in it. -/
def TileImg.flip (g : TileImg) (r : DupRun) : TileImg :=
  let k := r.element.toNat
  let v := g.elemBits k ^^^ r.flip.toNat
  let g1 := if r.flip = 0 then g
    else if g.state = 1 then { g with exact := { g.exact with x := sset (fun _ => 0) g.exact.x k (signed 128 v) } }
    else { g with data := sset (fun _ => 0) g.data k (v % 2 ^ 32) }
  { g1 with mark := g1.mark ^^^ r.marks.toNat }

/-- The first element in which two states of a tile differ (R350). -/
def TileImg.firstDiff (a b : TileImg) : Option Nat :=
  let keys := (a.data ++ b.data).map (·.1) ++ (a.exact.x ++ b.exact.x).map (·.1) ++ (a.exact.tags ++ b.exact.tags).map (·.1)
  (keys.filter fun k => a.elemBits k != b.elemBits k || sget (fun _ => 0) a.exact.tags k != sget (fun _ => 0) b.exact.tags k).foldl
    (fun m k => some (match m with
      | some n => min n k
      | none => k)) none

/-- The element that a mismatch names, with its values in the captured and the re-run state (R350). Where marks or control
state alone differ no element does, and the three are free. -/
def State.diffOf (s : State) (a b : TileImg) : (Nat × Nat × Nat) × State :=
  match a.firstDiff b with
  | some k => ((k, a.elemBits k, b.elemBits k), s)
  | none =>
    let x := s.fresh
    let y := x.2.fresh
    let z := y.2.fresh
    ((x.1 % 2 ^ 14, y.1 % 2 ^ 128, z.1 % 2 ^ 128), z.2)

/-- The pattern of a mismatch (R360): h_A over its retained operand bytes, 0 where there are none. Their order is that in which the
MMAs read them: DESIGN CHOICE (log entry 155). -/
def DupEntry.pattern (d : DupEntry) : Nat :=
  hashLane hashA (wordsOf (d.jobs.flatMap fun j => (j.map MmaJob.operands).getD []))

/-- A mismatch (R350): its record, the lost vote bit, the charges of both cores and clusters, each with a record (R360), the
signature, and the retained operands. -/
def State.dupMismatch (s : State) (d : DupEntry) (r : DupRun) (again : TileImg) : State :=
  let x := s.diffOf d.last again
  let s1 := ((x.2.bump Reg.INT_DUP_MISMATCH_CNT_COUNT).mark Reg.INT_EVENT_DUP_MISMATCH).modInt fun y => { y with retained := y.retained ++ [d] }
  let detail : List (Nat × Nat) := [(2, d.lcore), (2, d.pcore), (2, d.check), (4, d.q), (4, x.1.1),
    (16, x.1.2.1), (16, x.1.2.2), (16, x.1.2.1 ^^^ x.1.2.2)]
  let s2 := s1.raise { code := fDupMismatch, unitKind := 1, unit := d.pcore, p1 := some d.party, detail := detail }
  let before := s2.score d.pcore
  let s3 := (((s2.charge 0 d.pcore 150).chargeNoted 0 d.check 150 fDupMismatch).chargeNoted 1 (coreCluster d.pcore) 50 fDupMismatch).chargeNoted
    1 (coreCluster d.check) 50 fDupMismatch
  let cls := (d.jobs.findSome? fun j => j.map fun m => m.args.cls).getD 0xFF
  let s4 := s3.cper { event := 1, fault := fDupMismatch, unitKind := 0, unit := d.pcore, peer := d.check, frame := 0, module := 0, opcode := 1, cls := cls,
                      score := before - 150, scoreBefore := before, attempt := d.attempt, step := d.step, pattern := d.pattern, detail := x.1.1 } (some r.temp)
  (s4.addBand d.pcore r.temp).addBand d.check r.checkTemp

/-- DUP_CHECK_RUN (R348): a queued sequence is re-run from its captured state and operands, and its end state compared bit
for bit with the captured one; `run` is what the hardware does to the re-run. -/
def execDupCheckRun (pcore : Fin 144) (q : Word) (run : DupRun) (s : State) : Host.Outcome State Fault Refusal :=
  match s.integ.dups.find? fun d => d.pcore == pcore.val && d.q == q.toNat with
  | none => .next s
  | some d =>
    if s.coreInReset d.check then .next s
    else
      let s1 := (s.modInt fun x => { x with dups := x.dups.filter fun y => y != d }).arrayOn d.check
      let again := (dupRerun d).flip run
      if again = d.last then .next s1 else .next (s1.dupMismatch d run again)

/-- DUP_LIMIT_EXPIRE (R349): duplicates not reported LIMIT frames after the NOON became held count as skipped. -/
def execDupLimitExpire (ctx : Fin 64) (s : State) : Host.Outcome State Fault Refusal :=
  let c := ctx.val
  match (s.ctx c).noonHeld with
  | none => .next s
  | some t =>
    if s.now < t + s.get Reg.INT_DUP_CFG_LIMIT then .next s
    else .next (s.skipDups fun d => d.party.ctx == c && d.step == s.stepNum c && d.attempt == s.get (Reg.RPL_STEP_ATTEMPT_ATTEMPT c))

/-- INT_DUP_SAMPLED_LO_READ (R364, R502). -/
def execIntDupSampledLoRead (s : State) : Host.Outcome State Fault Refusal :=
  .next ((s.setLatch Reg.INT_DUP_SAMPLED_HI (s.reg Reg.INT_DUP_SAMPLED_HI)).answer (BitVec.ofNat 32 (s.coarse (s.reg Reg.INT_DUP_SAMPLED_LO).toNat)))

/-! ### Digest mismatches (R356) -/

/-- A write of INT_DIGEST_FAULT (R356): GO raises DIGEST_MISMATCH with the context, the peer and the relation. How the
copies stand decides the charge; a mirror kept here that is in the minority becomes STALE (R383). -/
def State.writeDigestFault (s : State) (v : Nat) (standing : Standing) : State :=
  let s1 := ((s.put Reg.INT_DIGEST_FAULT_CONTEXT (bitsOf v 0 6)).put Reg.INT_DIGEST_FAULT_RELATION (bitsOf v 6 2)).put
    Reg.INT_DIGEST_FAULT_PEER (bitsOf v 8 13)
  if !bitOn v 31 then s1
  else
    let c := bitsOf v 0 6
    let n := match standing with
      | .majority => 0
      | .minority => 200
      | .noMajority => 100
    let before := s1.score 2000
    let s2 := (s1.bump Reg.INT_DIGEST_MISMATCH_CNT_COUNT).mark Reg.INT_EVENT_DIGEST_MISMATCH
    let s3 := s2.raise { code := fDigestMismatch, unitKind := 14, p1 := some (s.ctxParty c), detail := [(2, bitsOf v 8 13), (1, bitsOf v 6 2)] }
    let s4 := s3.when (n != 0) fun t => t.charge 2 0 n
    let s5 := s4.cper { event := 3, fault := fDigestMismatch, unitKind := 2, unit := 0, peer := bitsOf v 8 13, frame := 0, module := 0,
                        score := before - n, scoreBefore := before }
    s5.when (bitsOf v 6 2 = 2 && standing == .minority) fun t => t.mirrorStale

/-- DIGEST_FAULT_RAISE (R356). -/
def execDigestFaultRaise (p : Party) (v : Word) (standing : Standing) (s : State) : Host.Outcome State Fault Refusal :=
  .next (s.fwOnly p fun t => t.writeDigestFault v.toNat standing)

/-! ### Health (R357, R358) -/

/-- The unit that INT_HEALTH_SEL selects: kind and index; kind 3 reads as 2. -/
def State.healthSel (s : State) : Nat × Nat := (min 2 (s.get Reg.INT_HEALTH_SEL_KIND), s.get Reg.INT_HEALTH_SEL_INDEX)

/-- The unit that a selection names: physical cores 0–143, clusters 0–35 and the module (R364). -/
def healthUnit (u : Nat × Nat) : Bool := if u.1 = 0 then u.2 < 144 else if u.1 = 1 then u.2 < 36 else true

/-- HEALTH_SCORE_WRITE (R358, R364): recorded in a CPER record. An INDEX beyond the units selects none, and the write is
ignored: DESIGN CHOICE, R364 does not say (log entry 140). -/
def State.writeScore (s : State) (v : Nat) : State :=
  let u := s.healthSel
  let new := min 1000 (bitsOf v 0 10)
  let old := s.score (scoreKey u.1 u.2)
  if !healthUnit u then s
  else (s.setScore u.1 u.2 new).cper { event := 5, fault := 0, unitKind := u.1, unit := u.2, frame := 0, module := 0, score := new, scoreBefore := old }

def execHealthScoreWrite (p : Party) (v : Word) (s : State) : Host.Outcome State Fault Refusal :=
  .next (s.fwOnly p fun t => t.writeScore v.toNat)

/-- HEALTH_RECOVERY (R357, R360): 25 points after 24 h without a charge, with a record of the change. -/
def execHealthRecovery (u : HealthUnit) (s : State) : Host.Outcome State Fault Refusal :=
  let k : Nat × Nat := match u with
    | .core c => (0, c.val)
    | .cluster j => (1, j.val)
    | .module => (2, 0)
  let key := scoreKey k.1 k.2
  let old := s.score key
  if s.now < sget (fun _ => 0) s.integ.charged key + dayTicks || old ≥ 1000 then .next s
  else
    let s1 := (s.setScore k.1 k.2 (old + 25)).modInt fun x => { x with charged := sset (fun _ => 0) x.charged key s.now }
    .next (s1.cper { event := 5, fault := 0, unitKind := k.1, unit := k.2, frame := 0, module := 0, score := min 1000 (old + 25), scoreBefore := old })

/-! ### Temperature bands (R351) -/

/-- TEMP_BAND_CHECK (R351): every 256 frames a core's die temperature is compared with its entries. -/
def execTempBandCheck (core : Fin 144) (temp : Int) (s : State) : Host.Outcome State Fault Refusal :=
  if !s.atMultiple 256 then .next s
  else
    let others := s.integ.inBand.filter (· != core.val)
    let inb := s.on Reg.INT_CTRL_BAND_EN && s.nearBand core.val temp
    .next (s.modInt fun x => { x with inBand := if inb then insertSorted core.val others else others })

/-- BAND_ENTRY_EXPIRE (R351): entries are kept BAND_DAYS days. -/
def execBandEntryExpire (core : Fin 144) (s : State) : Host.Outcome State Fault Refusal :=
  let keep (e : BandEntry) : Bool := s.now < e.tick + s.get Reg.INT_DUP_CFG_BAND_DAYS * dayTicks
  .next (s.modInt fun x => { x with bands := sset (fun _ => []) x.bands core.val ((sget (fun _ => []) x.bands core.val).filter keep) })

/-! ### Signatures (R360) -/

/-- CPER_ACKNOWLEDGE (R360): the n-th stored record, oldest first. -/
def execCperAcknowledge (n : BitVec 12) (s : State) : Host.Outcome State Fault Refusal :=
  .next (s.modInt fun x => { x with cper := x.cper.mapIdx fun k c => if k = n.toNat then { c with acked := true } else c })

/-! ### Test packs (R361–R363) -/

/-- The key that verifies a pack is in force: the Colutas test key unless the fuses revoke it, or an enrolled operator's (R361,
R455). -/
def State.packKeyOk (s : State) (k : PackKey) : Bool :=
  match k with
  | .colutas => !s.keyRevoked 8
  | .operator k => decide (k.val < s.integ.operatorKeys)

/-- Whether Idfort accepts a pack (R361, R455): its signature, its SVN, its item count, and room for it in the store. -/
def State.packOk (s : State) (pack : PackPush) : Bool :=
  let others := s.integ.packs.filter fun q => q.id != pack.id.toNat
  pack.key.any s.packKeyOk && s.integ.packMin ≤ pack.svn.toNat && 1 ≤ pack.items.length && pack.items.length ≤ 4096
    && others.length < 64 && (others.map (·.size)).foldl (· + ·) 0 + pack.size ≤ 16 * 2 ^ 20

/-- TEST_PACK_PUSH (R361, R453, R455): the operator's pack is stored, replacing one of its ID, whose passes count no more; one that
Idfort does not accept is discarded. -/
def execTestPackPush (port : Fin 2) (pack : PackPush) (s : State) : Host.Outcome State Fault Refusal :=
  .next (s.byOperator port.val fun t =>
    if !t.packOk pack then some (t.mark Reg.INT_EVENT_PACK_REJECT)
    else
      let q : Pack := { id := pack.id.toNat, operatorMade := pack.operatorMade, admission := pack.admission, items := pack.items,
                        svn := pack.svn.toNat, size := pack.size, since := t.now }
      some (t.modInt fun x => { x with packs := (x.packs.filter fun p => p.id != q.id) ++ [q], passed := x.passed.filter fun p => p.2.1 != q.id }))

/-- The stored pack of an ID. -/
def State.pack (s : State) (id : Nat) : Option Pack := s.integ.packs.find? fun q => q.id == id

/-- The ticks of a core's last 1,024 frames in which a test item ran under SHARE (R362). -/
def State.testTicks (s : State) (c : Nat) : List Nat := (sget (fun _ => []) s.integ.testFrames c).filter fun t => s.now < t + 1024

/-- A core is idle in the present frame (R362): no LAUNCH was in flight on it at the tick, and none is. -/
def State.coreIdle (s : State) (c : Nat) : Bool := s.coreFree c && !s.integ.busy.contains c

/-- A core may run one more item in this frame (R362): at most SHARE of 1,024 frames; ADMISSION items run outside it. The
1,024 frames are the last ones: DESIGN CHOICE (log entry 140). -/
def State.shareLeft (s : State) (c : Nat) : Bool :=
  (s.testTicks c).contains s.now || (s.testTicks c).length < s.get Reg.INT_TEST_CFG_SHARE

/-- TEST_ITEM_START (R362, R363): an idle core takes an item inside its temperature window and its share of frames, in the
Idfort context; its tiles and scratchpad are cleared (R104, R147). CORE_ACC_OWNER keeps what it shows, though R104 clears as for
a LAUNCH: DESIGN CHOICE (log entry 156). -/
def execTestItemStart (core : Fin 144) (pack : Word) (item : BitVec 16) (temp : Int) (s : State) : Host.Outcome State Fault Refusal :=
  let c := core.val
  match (s.pack pack.toNat).bind fun q => (q.items[item.toNat]?).map fun i => (q, i) with
  | none => .next s
  | some (q, i) =>
    let admits := s.integ.admitRun.isSome && q.admission
    let allowed := admits || (s.on Reg.INT_CTRL_TEST_EN && s.shareLeft c)
    if !allowed || temp < i.low || i.high < temp || !s.coreIdle c then .next s
    else
      let s1 := (((s.each (List.range 32) fun t k => t.plainTile c k).zeroSp c).modCore c fun k => { k with foreign := true }).arrayOn c
      let ticks := if admits || (s.testTicks c).contains s.now then s.testTicks c else s.testTicks c ++ [s.now]
      .next ((s1.bump Reg.INT_TEST_RUN_CNT_COUNT).modInt fun x => { x with
        testing := x.testing ++ [(c, q.id, item.toNat)], testFrames := sset (fun _ => []) x.testFrames c ticks })

/-- A failed item charges its core and cluster, each with a record (R357, R360, R362). -/
def State.testFails (s : State) (c pack item : Nat) (temp : Int) : State :=
  let before := s.score c
  let s1 := (s.bump Reg.INT_TEST_FAIL_CNT_COUNT).mark Reg.INT_EVENT_TEST_FAIL
  let s2 := ((s1.charge 0 c 300).chargeNoted 1 (coreCluster c) 100 0).addBand c temp
  s2.cper { event := 4, fault := 0, unitKind := 0, unit := c, pack := pack, frame := 0, module := 0, score := before - 300, scoreBefore := before,
            detail := item } (some temp)

/-- The spare is not admitted (R363, R394). -/
def State.admitFails (s : State) : State :=
  (((s.dropEngine (loadEngine s.rpl.loadCtx)).modInt fun x => { x with admitRun := none }).put Reg.RPL_DAYBREAK_STATUS_STATE 5).put Reg.RPL_DAYBREAK_CTRL_LOAD 0

/-- An ADMISSION item has passed on a core (R363, R390). -/
def State.itemPassed (s : State) (run : Nat × Nat × Nat) : State :=
  let s1 := s.modInt fun x => { x with passed := (x.passed.filter fun p => (p.1, p.2.1, p.2.2.1) != run) ++ [(run.1, run.2.1, run.2.2, s.now)] }
  match s1.integ.admitRun with
  | none => s1
  | some (l, d) =>
    let l2 := if l.contains run || !s.admissionCores.contains run.1 then l else l ++ [run]
    s1.modInt fun x => { x with admitRun := if l2.length ≥ s.admissionRuns then none else some (l2, d) }

/-- TEST_ITEM_END (R362, R363): the item that runs on the core ends, and the hash of its end state is compared with the one that
the pack expects. `sp` is what the item leaves in scratchpad. An item whose pack was replaced meanwhile ends without a verdict. -/
def execTestItemEnd (core : Fin 144) (hash : BitVec 128) (temp : Int) (sp : List (BitVec 22 × Byte)) (s : State) :
    Host.Outcome State Fault Refusal :=
  let c := core.val
  match s.integ.testing.find? fun x => x.1 == c with
  | none => .next s
  | some run =>
    let s1 := (s.modInt fun x => { x with testing := x.testing.filter (· != run) }).store (sp.map fun e => (spAddr c e.1.toNat, e.2))
    match (s.pack run.2.1).bind fun q => (q.items[run.2.2]?).map fun i => (q, i) with
    | none => .next s1
    | some (q, i) =>
      if hash == i.hash then .next (if q.admission then s1.itemPassed run else s1)
      else .next ((s1.testFails c run.2.1 run.2.2 temp).when (q.admission && s1.integ.admitRun.isSome) State.admitFails)

/-- ADMISSION_LIMIT_EXPIRE (R363): items still running at the limit fail the admission. -/
def execAdmissionLimitExpire (s : State) : Host.Outcome State Fault Refusal :=
  match s.integ.admitRun with
  | none => .next s
  | some (_, d) => if s.now < d then .next s else .next ((s.mark Reg.INT_EVENT_TEST_FAIL).admitFails)

/-- TEST_KEY_ENROL (R361, R453): the operator enrols up to four test keys. -/
def execTestKeyEnrol (port : Fin 2) (s : State) : Host.Outcome State Fault Refusal :=
  .next (s.byOperator port.val fun t =>
    if t.integ.operatorKeys ≥ 4 then none else some (t.modInt fun x => { x with operatorKeys := x.operatorKeys + 1 }))

end Sys2Proof.Machine
end

