-- ==== Sys2Proof/Machine/Hang.lean ====
section
/-! DEFINITION. Hangs, dumps and resets (R418–R440). -/
namespace Sys2Proof.Machine

/-! ### Dumps (R429–R434) -/

def slotFld (k : Nat) : Reg.Fld := if k = 0 then Reg.HRC_DUMP_STATUS_SLOT0 else Reg.HRC_DUMP_STATUS_SLOT1

/-- The slot that a dump takes (R432): a free one, or for a module dump the older core or cluster dump's. -/
def State.dumpSlot (s : State) (scope : Nat) : Option Nat :=
  if s.get (slotFld 0) = 0 then some 0 else if s.get (slotFld 1) = 0 then some 1
  else if scope = 2 then (s.hrc.dumps.find? fun d => d.scope != 2).map (·.slot) else none

/-- A dump is not taken (R432). -/
def State.dumpMissed (s : State) : State := (s.bump Reg.HRC_DUMP_STATUS_MISSED).mark Reg.HRC_EVENT_DUMP_MISSED

/-- The progress records that a dump reads (R192, R430): every one, or those of descriptors that name its cores. -/
def State.dumpProg (s : State) (scope index : Nat) : List (List Byte) :=
  if scope = 2 then s.progress else (s.ops.filter fun o => o.cores.any (dumpCores scope index).contains).map Op.progress

/-- The sections of a dump that are recorded at once as UNREADABLE (R431): both sets of a block in reset or powered down, and the
duplicate buffer state of such a cluster. -/
def State.silentSections (s : State) (scope index : Nat) : List (Nat × Nat × Nat) :=
  ((dumpBlocks scope index).filterMap fun b => (s.blockSilent b).map fun r => [(b, 7, r), (b, 8, r)]).flatten
    ++ (if scope = 1 then (s.clusterSilent index).toList.map fun r => (2 * 4096 + index, 12, r) else [])

/-- A dump starts in a slot (R430, R431): what it reads is frozen, and the sections of silent blocks are recorded. -/
def State.startDump (s : State) (d : Dump) (k : Nat) : State :=
  let silent := s.silentSections d.scope d.index
  let blocks := dumpBlocks d.scope d.index
  let x : Dump := { d with
    slot := k, startFrame := s.frame, unreadable := silent, tail := s.hrc.tail
    prog := s.dumpProg d.scope d.index
    rxHeads := (List.range 16).map fun p => (p, (s.port p).rxHeads)
    txHeads := (List.range 16).map fun p => (p, (s.port p).txHeads)
    live := blocks.foldl (fun l b => sset (fun _ => []) l b (s.liveSet b)) []
    captured := blocks.foldl (fun l b => sset (fun _ => []) l b (sget (fun _ => []) s.snp.sets b)) []
    parts := [2, 3, 5, 6, 11, 12].foldl (fun l n => sset (fun _ => []) l n (s.sectionHeld d.scope d.index n)) [] }
  let s1 := (s.put (slotFld k) 1).bump Reg.HRC_UNREADABLE_CNT_COUNT silent.length
  let s2 := (s1.mark Reg.HRC_DUMP_STATUS_BUSY).mark Reg.HRC_STATUS_DUMP_BUSY
  s2.modHrc fun h => { h with running := some x, dumps := h.dumps.filter fun y => y.slot != k }

/-- Ask for a dump (R432): the state, and whether it starts or waits; only one request waits. -/
def State.askDump (s : State) (d : Dump) : State × Bool :=
  if s.hrc.running.isSome then
    if s.hrc.waiting.isSome then (s.dumpMissed, false)
    else ((s.mark Reg.HRC_DUMP_STATUS_WAITING).modHrc fun h => { h with waiting := some d }, true)
  else match s.dumpSlot d.scope with
    | some k => (s.startDump d k, true)
    | none => (s.dumpMissed, false)

/-- A write of HRC_DUMP_CTRL (R432, R434, R447): ACK frees a finished slot, GO requests a dump. -/
def State.writeDumpCtrl (s : State) (v : Nat) : State :=
  let ack (t : State) (k : Nat) : State :=
    if bitOn v (11 + k) && t.get (slotFld k) ≥ 2 then (t.put (slotFld k) 0).modHrc fun h => { h with dumps := h.dumps.filter fun y => y.slot != k } else t
  let s1 := ack (ack s 0) 1
  let scope := bitsOf v 0 2
  let index := bitsOf v 2 8
  if bitOn v 10 && (scope == 2 || (scope == 0 && index < 144) || (scope == 1 && index < 36)) then
    (s1.askDump { scope := scope, index := index, logseq := none, startFrame := 0, slot := 0 }).1
  else s1

/-- DUMP_REQUEST (R432). -/
def execDumpRequest (p : Party) (v : Word) (s : State) : Host.Outcome State Fault Refusal := .next (s.byCp p fun t => t.writeDumpCtrl v.toNat)

/-- DUMP_ACK (R434). -/
def execDumpAck (p : Party) (v : Word) (s : State) : Host.Outcome State Fault Refusal := .next (s.byCp p fun t => t.writeDumpCtrl v.toNat)

/-- REASON of an UNREADABLE section (R433). -/
def missReason : DumpMiss → Nat
  | .noResponse => 1
  | .truncated => 2
  | .ringError => 5

/-- DUMP_BLOCK_TIMEOUT (R431): a section of the running dump is recorded UNREADABLE. -/
def execDumpBlockTimeout (block : BitVec 16) (section_ : Byte) (why : DumpMiss) (s : State) : Host.Outcome State Fault Refusal :=
  match s.hrc.running with
  | none => .next s
  | some d =>
    let x : Dump := { d with unreadable := d.unreadable ++ [(block.toNat, section_.toNat, missReason why)] }
    .next ((s.bump Reg.HRC_UNREADABLE_CNT_COUNT).modHrc fun h => { h with running := some x })

/-! ### Resets (R435, R436) -/

/-- The key of a unit that is reset: a core, a cluster, the module. -/
def resetKey (u : Nat × Nat) : Nat := if u.1 = 1 then u.2 else if u.1 = 2 then 1000 + u.2 else 2000

/-- A core comes out of its program: a LAUNCH on it completes ABORTED, and its sequencer, array, vector engine,
scratchpad and tiles are cleared. -/
def State.clearCore (s : State) (c : Nat) : State :=
  let s1 := match s.launchOn c with
    | some o => s.endOp o stAborted 0
    | none => s
  let s2 := (s1.zeroSp c).setCore c {}
  let s3 := ((s2.setReg (Reg.CORE_ACW c) 0).setReg (Reg.CORE_ASW c) 0).setReg (Reg.CORE_ACC_OWNER c) 0
  let s4 := (((s3.setReg (Reg.CORE_ACC_STATE_LO c) 0).setReg (Reg.CORE_ACC_STATE_HI c) 0).setReg (Reg.CORE_VX_STATUS c) 0).setReg (Reg.CORE_MX_STATUS c) 0
  (s4.modInt fun x => { x with testing := x.testing.filter fun y => y.1 != c }).modHrc fun h => { h with
    stops := h.stops.filter fun x => !(x.unit.kind.val == 1 && x.unit.unit.toNat == c)
    hung := h.hung.filter (· != c) }

/-- The cluster DMA engine and the duplicate buffer of a cluster are cleared: the descriptors it serves complete
ABORTED, and duplicates checked there are skipped (R349, R435). -/
def State.clearCluster (s : State) (k : Nat) : State :=
  let s1 := s.each (dumpCores 1 k) State.clearCore
  let s2 := s1.each (s1.ops.filter fun o => o.issued && o.fin.isNone && o.opc == 2 && Op.unit s1 o == (2, k)) fun t o => t.endOp o stAborted 0
  (s2.skipDups fun d => coreCluster d.check == k).modHrc fun h => { h with
    stops := h.stops.filter fun x => !(x.unit.kind.val == 2 && x.unit.unit.toNat == k)
    hung := h.hung.filter (· != 1000 + k) }

/-- A core or cluster reset starts (R435, R436); within a recovery the module's own reset takes its place (R437). -/
def State.startReset (s : State) (u : Nat × Nat) : State :=
  if s.on Reg.HRC_STATUS_RECOVERING then s else
  let s1 := s.when (s.get Reg.HRC_RESET_CTRL_KIND == u.1 - 1 && s.get Reg.HRC_RESET_CTRL_INDEX == u.2) fun t => t.put Reg.HRC_RESET_CTRL_GO 0
  if u.1 = 1 then (s1.clearCore u.2).mark (rstCore u.2)
  else if u.1 = 2 then (s1.clearCluster u.2).mark (rstCl u.2)
  else s1

/-- The unit is in reset. -/
def State.unitInReset (s : State) (u : Nat × Nat) : Bool :=
  if u.1 = 1 then s.coreInReset u.2 else if u.1 = 2 then s.on (rstCl u.2) else s.on Reg.HRC_STATUS_RECOVERING

/-- A core or cluster reset after its dump, or at once where no dump is taken (R430, R432, R447). -/
def State.dumpThenReset (s : State) (u : Nat × Nat) (logseq : Option Nat) : State :=
  if !s.on Reg.HRC_CTRL_DUMP_EN then s.startReset u
  else
    let r := s.askDump { scope := u.1 - 1, index := u.2, logseq := logseq, startFrame := 0, slot := 0, thenReset := u }
    if r.2 then r.1 else r.1.startReset u

/-- Whole-module recovery is decided (R437): the module dump starts; a request during recovery is ignored. -/
def State.decideRecovery (s : State) (logseq : Option Nat) : State :=
  if s.on Reg.HRC_STATUS_RECOVERING || s.on Reg.HRC_STATUS_OUT_OF_SERVICE then s
  else
    let s1 := (((s.mark Reg.HRC_STATUS_RECOVERING).mark Reg.HRC_EVENT_MODULE_RECOVERY).bump Reg.HRC_MODULE_REC_CNT_COUNT).modHrc
      fun h => { h with recoverAt := s.now }
    s1.when (s1.on Reg.HRC_CTRL_DUMP_EN) fun t => (t.askDump { scope := 2, index := 0, logseq := logseq, startFrame := 0, slot := 0 }).1

/-- What follows a CORE_HANG (R435): with AUTO_RESET = 0 core and cluster resets wait for firmware. -/
def State.resetFor (s : State) (u : Nat × Nat) (logseq : Option Nat) : State :=
  if u.1 = 3 then s.decideRecovery logseq else if s.on Reg.HRC_CTRL_AUTO_RESET then s.dumpThenReset u logseq else s

/-- A write of HRC_RESET_CTRL (R435, R447). -/
def State.writeResetCtrl (s : State) (v : Nat) : State :=
  let kind := bitsOf v 0 2
  let index := bitsOf v 2 8
  let s1 := (s.put Reg.HRC_RESET_CTRL_KIND kind).put Reg.HRC_RESET_CTRL_INDEX index
  if !bitOn v 31 then s1
  else if kind = 2 then s1.decideRecovery none
  else if kind = 3 || index ≥ (if kind = 0 then 144 else 36) || s.unitInReset (kind + 1, index) then s1
  else (s1.mark Reg.HRC_RESET_CTRL_GO).dumpThenReset (kind + 1, index) none

/-- CORE_RESET_REQUEST (R435). -/
def execCoreResetRequest (p : Party) (v : Word) (s : State) : Host.Outcome State Fault Refusal := .next (s.fwOnly p fun t => t.writeResetCtrl v.toNat)

/-- CLUSTER_RESET_REQUEST (R435). -/
def execClusterResetRequest (p : Party) (v : Word) (s : State) : Host.Outcome State Fault Refusal := .next (s.fwOnly p fun t => t.writeResetCtrl v.toNat)

/-- MODULE_RECOVERY_REQUEST (R435). -/
def execModuleRecoveryRequest (p : Party) (v : Word) (s : State) : Host.Outcome State Fault Refusal := .next (s.fwOnly p fun t => t.writeResetCtrl v.toNat)

/-- DUMP_END (R430, R432): the slot holds the dump and its record carries FLAGS.DUMP; the reset that waited for it
starts, and then the dump that waits. -/
def execDumpEnd (s : State) : Host.Outcome State Fault Refusal :=
  match s.hrc.running with
  | none => .next s
  | some d =>
    let x : Dump := { d with endFrame := some s.frame }
    let s1 := (s.put (slotFld d.slot) (if d.scope = 2 then 3 else 2)).mark Reg.HRC_EVENT_DUMP_DONE
    let s2 := (s1.put Reg.HRC_DUMP_STATUS_BUSY 0).put Reg.HRC_STATUS_DUMP_BUSY 0
    let s3 := s2.modHrc fun h => { h with
      running := none, dumps := h.dumps ++ [x]
      tail := h.tail.map fun (r : FaultRec) => if d.logseq == some r.logseq then { r with dump := true } else r }
    let s4 := if d.thenReset.1 = 0 || s3.unitInReset d.thenReset then s3 else s3.startReset d.thenReset
    match s4.hrc.waiting with
    | none => .next s4
    | some w =>
      let s5 := (s4.put Reg.HRC_DUMP_STATUS_WAITING 0).modHrc fun h => { h with waiting := none }
      let r := s5.askDump w
      .next (if r.2 || w.thenReset.1 = 0 then r.1 else r.1.startReset w.thenReset)

/-! ### CORE_HANG (R419–R424) -/

/-- The unit that is reset for a hung one (R435). -/
def resetUnit (kind unit : Nat) : Nat × Nat := if kind = 1 then (1, unit) else if kind = 2 then (2, unit) else (3, 0)

/-- The fields of a CORE_HANG record: cause, misses, last heartbeat, and for a core or processor a PC that the manual
gives no coding for. -/
def State.hangDetail (s : State) (kind unit cause : Nat) : List (Nat × Nat) × State :=
  let f := s.fresh
  let k := s.core unit
  if kind = 1 then ([(1, cause), (1, k.misses), (8, k.lastHb), (8, f.1 % 2 ^ 64)], f.2)
  else if kind = 15 then ([(1, cause), (1, 0), (8, 0), (8, f.1 % 2 ^ 64)], f.2)
  else ([(1, cause), (1, 0), (8, 0), (8, 0)], s)

/-- The operations that a unit serves. -/
def State.servedBy (s : State) (kind unit : Nat) : List Op :=
  if kind = 1 then (s.launchOn unit).toList
  else s.ops.filter fun o => o.issued && o.fin.isNone && [2, 3, 7, 8].contains o.opc && Op.unit s o == (kind, unit)

/-- A hung unit that worked for a draining context holds its drain (R443). -/
def State.holdDrain (s : State) (p : PartyRec) (key : Nat) : State :=
  if s.get (Reg.SUB_CTX_CTRL_STATE p.ctx) == 2 then s.modCtx p.ctx fun x => { x with drainHold := key :: x.drainHold.filter (· != key) } else s

/-- A unit raises CORE_HANG (R419, R422, R424, R436): one record and FAULTED for each descriptor it serves, or a record
of the descriptor `party` that it was asked to leave; its duplicates are skipped (R349), and its reset follows. A unit
already in reset raises nothing more. -/
def State.hang (s : State) (kind unit cause : Nat) (party : Option PartyRec) : State :=
  let u := resetUnit kind unit
  let key := resetKey u
  if s.unitInReset u || s.hrc.hung.contains (hungKey kind unit) then s
  else
    let s0 := ((s.bump Reg.HRC_HANG_CNT_COUNT).mark Reg.HRC_EVENT_CORE_HANG).modHrc fun h => { h with
      hung := hungKey kind unit :: h.hung, afterHang := if u.1 = 1 then unit :: h.afterHang.filter (· != unit) else h.afterHang
      stops := h.stops.filter fun x => !(x.unit.kind.val == kind && x.unit.unit.toNat == unit) }
    let d := s0.hangDetail kind unit cause
    let seq := s.hrc.logseq
    let l := s.servedBy kind unit
    let s1 := if l.isEmpty then
        let live := (party.map fun p => s.gen p.ctx == p.gen && s.active p.ctx).getD false
        let r : FaultRec := { code := fCoreHang, unitKind := kind, unit := unit, p1 := party, detail := d.1 }
        if live then d.2.raise r else d.2.logRec r
      else d.2.faultMany l fCoreHang kind unit fun _ => d.1
    let s2 := match party with
      | some p => s1.holdDrain p key
      | none => s1
    let s3 := s2.when (kind == 1) fun t => t.skipDups fun e => e.check == unit
    s3.resetFor u (some seq)

/-- A core is in a declared wait that the model holds (R419): SWAIT, SBAR, also one that SYN_CTRL holds, or a POST to a full
ring. -/
def Core.declaredWait (k : Core) : Bool := k.wait.isSome || match k.stall with
  | some (.post ..) | some (.swait ..) | some (.sbar ..) => true
  | _ => false

/-- The heartbeat of a core (R419): it answers where it retired an instruction or spent the whole interval in a declared
wait, the holds of R103, R118 and R145, which `held` names, among them. A core without a LAUNCH always answers. A wait that
was held at both ends of an interval in which nothing retired held all of it. -/
def State.heartbeat (s : State) (held : List (Fin 144)) (c : Nat) : State :=
  let k := s.core c
  let begin_ (x : Core) : Core := { x with retired := false, waitHb := x.declaredWait }
  if s.hrc.hung.contains c then s
  else if k.launch.isNone then s.modCore c fun x => begin_ { x with misses := 0, lastHb := s.frame }
  else if sget (fun _ => 0) s.hrc.hbGated (coreDie c) > 128 then s.modCore c begin_
  else if k.retired || k.halted || (k.waitHb && k.declaredWait) || held.any (·.val == c) then
    s.modCore c fun x => begin_ { x with misses := 0, lastHb := s.frame }
  else
    let s1 := s.modCore c fun x => begin_ { x with misses := x.misses + 1 }
    s1.when ((s1.core c).misses ≥ s1.get Reg.HRC_HB_CFG_MISS) fun t => t.hang 1 c 1 none

/-- HEARTBEAT_CHECK (R419): once at each tick whose counter is a multiple of 256, where an interval ends also while HB_EN = 0; `held` are the cores that spent the whole
interval with an instruction held under R103 or R118 or in a bank wait of R145, which are timing. -/
def execHeartbeatCheck (held : List (Fin 144)) (s : State) : Host.Outcome State Fault Refusal :=
  if !s.atMultiple 256 || s.hrc.hbLast == s.now || 4 < s.time.pos then .next s
  else
    let s0 := s.turn 4
    let s1 := s0.each (s0.cores.map (·.1)) fun u c =>
      if s.on Reg.HRC_CTRL_HB_EN then u.heartbeat held c
      else u.modCore c fun x => { x with retired := false, waitHb := x.declaredWait }
    .next (s1.modHrc fun h => { h with hbLast := s.now, hbFrame := s.frame, hbGated := [] })

/-- STOP_TIMEOUT (R424): a unit that has not stopped 16 frames after the request raises CORE_HANG with CAUSE 2. -/
def execStopTimeout (u : UnitRef) (s : State) : Host.Outcome State Fault Refusal :=
  match s.hrc.stops.find? fun x => x.unit == u && x.tick + 16 ≤ s.now with
  | none => .next s
  | some x => .next (s.hang u.kind.val u.unit.toNat 2 (some x.party))

/-- INTERNAL_LINK_STALL (R420): a die-to-die link 0–3 or the hub bus 4; nothing more while the module recovers (R436). -/
def execInternalLinkStall (link : Fin 5) (s : State) : Host.Outcome State Fault Refusal :=
  if !s.on Reg.HRC_CTRL_LINK_STALL_EN || s.on Reg.HRC_STATUS_RECOVERING then .next s
  else
    let seq := s.hrc.logseq
    let s1 := (s.mark Reg.HRC_EVENT_LINK_STALL).logRec { code := fLinkDown, unitKind := 13, unit := link.val, detail := [(1, 0), (1, 6), (2, 0)] }
    .next (s1.decideRecovery (some seq))

/-- HRC_FW_KICK (R421): the control processor's own watchdog begins again; firmware that names no processor kicks for all. -/
def State.fwKick (s : State) (p : Party) : State :=
  s.modHrc fun h => { h with fwTicks := match p with
    | .cp k => sset (fun _ => 0) h.fwTicks k.val 0
    | _ => [] }

def execHrcFwKick (p : Party) (s : State) : Host.Outcome State Fault Refusal := .next (s.fwOnly p fun t => t.fwKick p)

/-- FW_WATCHDOG_EXPIRE (R421): no kick of a control processor for HRC_FW_WDOG frames while firmware is started. -/
def execFwWatchdogExpire (cp : Fin 8) (s : State) : Host.Outcome State Fault Refusal :=
  if !s.on Reg.SEC_STATUS_FW_STARTED || sget (fun _ => 0) s.hrc.fwTicks cp.val < s.get Reg.HRC_FW_WDOG_FRAMES then .next s
  else .next ((s.mark Reg.HRC_EVENT_FW_WDOG).hang 15 cp.val 4 none)

/-! ### Escalation (R438, R439) -/

/-- A reset's time joins Idfort's storage, and the resets of the unit within the window are counted (R438). -/
def State.noteReset (s : State) (key rtc : Nat) : State :=
  s.modHrc fun h => { h with resetTimes := h.resetTimes ++ [(key, rtc)] }
def State.resetsIn (s : State) (key rtc window : Nat) : Nat := (s.hrc.resetTimes.filter fun e => e.1 == key && rtc < e.2 + window).length

/-- A fence request for a cluster (R439). -/
def State.askFence (s : State) (k : Nat) : State :=
  (((s.put Reg.HRC_ESC_STATUS_DIE (k / 9)).put Reg.HRC_ESC_STATUS_CLUSTER (k % 9)).mark Reg.HRC_ESC_STATUS_FENCE_REQ).mark Reg.HRC_EVENT_ESC_FENCE

/-- Drains held by a unit go on (R443). -/
def State.releaseDrain (s : State) (key : Nat) : State :=
  s.each (List.range 64) fun t c => if (t.ctx c).drainHold.contains key then t.modCtx c fun x => { x with drainHold := x.drainHold.filter (· != key) } else t

/-- CORE_RESET_DONE (R435, R438): the reset ends with its self-test, whose failure raises CORE_HANG with CAUSE 3 and
the reset of the cluster; while the cluster is itself in reset nothing is recorded (R436). -/
def execCoreResetDone (core : Fin 144) (ok : Bool) (rtc : Nat) (s : State) : Host.Outcome State Fault Refusal :=
  let c := core.val
  if !s.on (rstCore c) then .next s
  else
    let s1 := ((s.put (rstCore c) 0).bump Reg.HRC_CORE_RST_CNT_COUNT).mark Reg.HRC_EVENT_CORE_RESET
    let s2 := ((s1.releaseDrain c).noteReset c rtc).when (s1.hrc.afterHang.contains c) fun t =>
      (t.chargeNoted 0 c 100 fCoreHang).modHrc fun h => { h with afterHang := h.afterHang.filter (· != c) }
    let n := s2.get Reg.HRC_ESC_CORE_COUNT
    let s3 := s2.when (n != 0 && s2.resetsIn c rtc (s2.get Reg.HRC_ESC_CORE_WINDOW_S) ≥ n) fun t => t.askFence (coreCluster c)
    if ok || s3.unitInReset (2, coreCluster c) then .next s3
    else
      let seq := s3.hrc.logseq
      let d := s3.hangDetail 1 c 3
      let s4 := ((d.2.bump Reg.HRC_HANG_CNT_COUNT).mark Reg.HRC_EVENT_CORE_HANG).logRec { code := fCoreHang, unitKind := 1, unit := c, detail := d.1 }
      .next (s4.resetFor (2, coreCluster c) (some seq))

/-- CLUSTER_RESET_DONE (R435, R438): a failed self-test leads to whole-module recovery. -/
def execClusterResetDone (cluster : Fin 36) (ok : Bool) (rtc : Nat) (s : State) : Host.Outcome State Fault Refusal :=
  let k := cluster.val
  if !s.on (rstCl k) then .next s
  else
    let s1 := ((s.put (rstCl k) 0).bump Reg.HRC_CLUSTER_RST_CNT_COUNT).mark Reg.HRC_EVENT_CLUSTER_RESET
    let s2 := (((dumpCores 1 k).foldl (fun t c => t.releaseDrain c) (s1.releaseDrain (1000 + k))).noteReset (1000 + k) rtc).chargeNoted 1 k 150 fCoreHang
    let n := s2.get Reg.HRC_ESC_CLUSTER_COUNT
    let s3 := s2.when (n != 0 && s2.resetsIn (1000 + k) rtc (s2.get Reg.HRC_ESC_CLUSTER_WINDOW_S) ≥ n) fun t => t.askFence k
    .next (if ok then s3 else s3.decideRecovery none)

/-! ### The fault log ring (R427) -/

/-- A write of HRC_FLOG_CFG (R447): SIZE_LOG2 only while ENABLE = 0, clamped to 6–16; setting ENABLE restarts PI at 0. -/
def State.writeFlogCfg (s : State) (v : Nat) : State :=
  let was := s.on Reg.HRC_FLOG_CFG_ENABLE
  let s1 := s.when (!was) fun t => t.put Reg.HRC_FLOG_CFG_SIZE_LOG2 (max 6 (min 16 (bitsOf v 1 5)))
  let s2 := (s1.put Reg.HRC_FLOG_CFG_ENABLE (bitsOf v 0 1)).put Reg.HRC_FLOG_CFG_IRQ_EN (bitsOf v 6 1)
  s2.when (bitOn v 0 && !was) fun t => (t.put Reg.HRC_FLOG_PI_PI 0).modHrc fun h => { h with flogCi := 0, flogSkipped := 0 }

/-- FLOG_ENABLE (R427). -/
def execFlogEnable (p : Party) (v : Word) (s : State) : Host.Outcome State Fault Refusal := .next (s.byCp p fun t => t.writeFlogCfg v.toNat)

end Sys2Proof.Machine
end

