-- ==== Sys2Proof/Machine/Dusk.lean ====
section
/-! DEFINITION. The end of contexts (R229, R441–R445, R461), whole-module recovery (R437, R440). -/
namespace Sys2Proof.Machine

/-! ### Sealed pages (R461) -/

/-- The pages that a context maps with SEALED = 1 (R140). -/
def State.sealedPages (s : State) (c : Nat) : List Nat :=
  ((s.mappedVas c).filterMap fun va => (s.walk c va).bind fun e => if e.tenant then some e.page else none).foldl (fun l a => insertSorted a l) []

/-- The pages that a context maps. -/
def State.mappedPages (s : State) (c : Nat) : List Nat := (s.mappedVas c).filterMap fun va => (s.walk c va).map (·.page)

/-- The sealed pages of an ended context that no other live context maps. -/
def State.pagesToZero (s : State) (c : Nat) : List Nat :=
  let others := ((List.range 64).filter fun k => k != c && s.get (Reg.SUB_CTX_CTRL_STATE k) != 0).flatMap s.mappedPages
  (s.sealedPages c).filter fun a => !others.contains a

/-! ### Dusk (R441, R442) -/

/-- The generation after a Dusk (R168). -/
def nextGen (g : Nat) : Nat := if g = 0xFFFF then 1 else g + 1

/-- Step tracking, replay, checkpoint and Daybreak of a context are abandoned without restore (R441); with the context that a spare
loaded it is free for another load (log entry 64). -/
def State.abandonStep (s : State) (c : Nat) : State :=
  let s1 := ((s.disarm c).put (Reg.RPL_STEP_STATUS_STATE c) 0).put (Reg.RPL_REPLAY_STATUS_STATE c) 0
  let s2 := s1.modCtx c fun x => { zeroing := x.zeroing, drainHold := x.drainHold, duskTick := x.duskTick }
  let s3 := s2.releaseShadow fun p => if p.pre == some c then { p with pre := none } else p
  let s4 := s3.when (s3.ckptCtx == c) fun t => (t.ckptDisarm).when (t.ckptState == 1) State.ckptFailsFree
  let s5 := s4.skipDups fun d => d.party.ctx == c
  let s6 := s5.when (s5.loading c) fun t =>
    ((t.put Reg.RPL_DAYBREAK_STATUS_STATE 5).put Reg.RPL_DAYBREAK_CTRL_LOAD 0).modInt fun x => { x with admitRun := none }
  let s7 := if s6.rpl.loadCtx == c then { s6 with rpl := { s6.rpl with admitted := false } } else s6
  s7.dropOwned fun w => w.engine && w.ctx == c

/-- The context's cells that wait in a queue, and the reads that it would answer, are dropped and counted (R442). -/
def State.dropContextCells (s : State) (c : Nat) : State :=
  let mine (q : QCell) : Bool := q.mine && q.flight.isNone && ((q.owner.map (·.ctx)) == some c || (q.owner.isNone && q.cell.vcid.toNat == s.vcid c))
  let n := (s.fab.cells.filter mine).length + (s.fab.reads.filter fun r => r.ctx == c).length
  (s.modFab fun f => { f with cells := f.cells.filter fun q => !mine q, reads := f.reads.filter fun r => r.ctx != c }).bump
    Reg.HRC_STALE_CNT_COUNT n

/-- The context's writes that are under way are dropped and counted (R442): the next one of an engine between two parts of its
work, and those that wait for a shadow page, of arriving cells and of the hub's units. -/
def State.dropWrites (s : State) (c : Nat) : State :=
  let n := (s.ops.filter fun o => o.ctx == c && o.work.isSome).length + (s.fab.waitCells.filter fun q => q.1 == c).length
    + (s.ckp.held.filter fun h => h.party.ctx == c).length
  ((s.modFab fun f => { f with waitCells := f.waitCells.filter fun q => q.1 != c }).modCkp fun k =>
    { k with held := k.held.filter fun h => h.party.ctx != c }).bump Reg.HRC_STALE_CNT_COUNT n

/-- The completion signals of a context that have not been applied are dropped and counted (R442). -/
def State.dropSignals (s : State) (c : Nat) : State :=
  let ours (x : HeldSync) : Bool := match x with
    | .completion _ _ p _ _ _ => p.ctx == c
    | _ => false
  let n := (s.sub.sigDue.filter fun o => o.ctx == c).length + (s.syn.held.filter ours).length
  { s.bump Reg.HRC_STALE_CNT_COUNT n with
    sub := { s.sub with sigDue := s.sub.sigDue.filter fun o => o.ctx != c }
    syn := { s.syn with held := s.syn.held.filter fun x => !ours x } }

/-- Dusk acts on a context (R441, R442, R461): the next generation, every issued descriptor ABORTED under the old one,
descriptors not yet issued dropped without a record, and the step abandoned; a pending swap of the schedule stays. -/
def State.dusk (s : State) (c : Nat) : State :=
  let s1 := (s.put (Reg.SUB_CTX_GEN_GENERATION c) (nextGen (s.gen c))).put (Reg.SUB_CTX_CTRL_STATE c) 2
  let s2 := (s1.modCtx c fun x => { x with duskReq := none, duskTick := some s.now, drainHold := [] }).dropContextCells c |>.dropSignals c |>.dropWrites c
  let mine := s2.ops.filter fun o => o.ctx == c
  let s3 := s2.each (mine.filter (·.issued)) fun t o => t.endOp o stAborted 0
  let s4 := (s3.setOps (s3.ops.filter fun o => o.ctx != c)).dropParts c
  ((s4.abandonStep c).eraseKeys c).unseal

/-- DUSK_REQUEST (R441). -/
def execDuskRequest (p : Party) (ctx : Fin 64) (v : Word) (s : State) : Host.Outcome State Fault Refusal :=
  .next (s.fwOnly p fun t => t.writeCtxCtrl ctx.val v.toNat)

/-- DUSK_ANNOUNCE (R304, R445): a slice Dusk at its frame. -/
def execDuskAnnounce (m : Announce) (s : State) : Host.Outcome State Fault Refusal :=
  .next (s.announce m (fun t _ => t) fun t c => t.modCtx c fun x => { x with duskReq := x.duskReq.or (some { frame := some m.frame.toNat }) })

/-- DUSK (R441): at the first tick after the request, or at the announced frame, immediately after position 4 of R21. -/
def execDusk (ctx : Fin 64) (s : State) : Host.Outcome State Fault Refusal :=
  let c := ctx.val
  match (s.ctx c).duskReq with
  | none => .next s
  | some d =>
    if !s.discardDue d || 4 < s.time.pos then .next s
    else if !s.active c then .next (s.modCtx c fun x => { x with duskReq := none })
    else .next ((s.turn 4).dusk c)

/-! ### Debug sessions (R464, R466) -/

/-- An open or close of a session: SEC_EVENT.DEBUG_CHANGE and a CPER health record. -/
def State.debugChange (s : State) (level : Nat) : State :=
  ((s.put Reg.SEC_STATUS_DEBUG level).mark Reg.SEC_EVENT_DEBUG_CHANGE).cper
    { event := 5, fault := 0, unitKind := 2, unit := 0, frame := 0, module := 0, score := s.score 2000, scoreBefore := s.score 2000 }

/-- A session opens with the next serial number, and a new ephemeral key, whose private part is a free value (R465, log entry
130). -/
def State.openSession (s : State) (level : Nat) (fuses : List Nat) : State :=
  (s.fresh.2.modSec fun x => { x with
    sessions := x.sessions + 1, vendorWaits := none
    session := some { level := level, serial := x.sessions + 1, fuses := fuses, priv := s.fresh.1 } }).debugChange level

/-- The session closes: halted processors go on. -/
def State.closeSession (s : State) : State :=
  match s.sec.session with
  | none => s
  | some _ =>
    let s1 := (s.modSec fun x => { x with session := none, halted := [], cpSteps := [] }).each (s.cores.map (·.1)) fun t c =>
      if (t.core c).halted then t.modCore c fun k => { k with halted := false, steps := 0 } else t
    s1.debugChange 0

/-- No context holds a weight key or drains, and nothing is being zeroed (R466). -/
def State.unsealed (s : State) : Bool :=
  s.get Reg.SEC_WKEY_VALID == 0 && !s.on Reg.SEC_STATUS_ZEROING && (List.range 64).all fun c => s.get (Reg.SUB_CTX_CTRL_STATE c) != 2

/-- A waiting vendor session opens once the sealed contexts are gone. -/
def State.openWaiting (s : State) : State :=
  match s.sec.vendorWaits with
  | some l => if s.unsealed then s.openSession 2 l else s
  | none => s

/-! ### Free, and zeroed (R443, R461) -/

/-- A context becomes FREE (R443, R461): the zeroing of its sealed pages starts, beside that of pages which still waits. -/
def State.freeContext (s : State) (c : Nat) : State :=
  let pages := s.pagesToZero c
  let s1 := (s.put (Reg.SUB_CTX_CTRL_STATE c) 0).modCtx c fun x => { x with
    duskTick := none, drainHold := [], zeroing := pages.foldl (fun l a => insertSorted a l) x.zeroing }
  (s1.when (!pages.isEmpty) fun t => t.mark Reg.SEC_STATUS_ZEROING).refreshPower

/-- DUSK_DRAIN_DONE (R443): 32 frames after the Dusk, and once the units that hung in the drain have been reset. -/
def execDuskDrainDone (ctx : Fin 64) (s : State) : Host.Outcome State Fault Refusal :=
  let c := ctx.val
  match (s.ctx c).duskTick with
  | none => .next s
  | some t0 =>
    if s.now < t0 + 32 || !(s.ctx c).drainHold.isEmpty then .next s
    else .next ((s.freeContext c).mark Reg.HRC_EVENT_DRAIN_DONE).openWaiting

/-- ZEROING_DONE (R461): the freed sealed pages hold zeros. -/
def execZeroingDone (s : State) : Host.Outcome State Fault Refusal :=
  let pages := (List.range 64).flatMap fun c => (s.ctx c).zeroing
  let s1 := pages.foldl (fun t a => t.zeroMem a (a + 65536)) s
  .next ((s1.each (List.range 64) fun t c => if (t.ctx c).zeroing.isEmpty then t else t.modCtx c fun x => { x with zeroing := [] }).put Reg.SEC_STATUS_ZEROING 0).openWaiting

/-! ### The end of everything outside the always-on domain (R435, R437, R487) -/

/-- The progress memory stands as it is, whatever ends the operations (R192): it is always on. -/
def State.keepProgress (s : State) : State := { s with sub := { s.sub with progMem := s.progAll } }

/-- Every context ends as at the tick of a Dusk, without the drain (R437), and its sealed pages are to be zeroed (R461): where
the memory is cleared as a whole, or lost, `resetDomain` takes that with it. -/
def State.endContexts (s : State) : State :=
  let live := (List.range 64).filter fun c => s.get (Reg.SUB_CTX_CTRL_STATE c) != 0
  (s.keepProgress).each live fun t c => (if t.active c then t.dusk c else t).freeContext c

/-- The registers that the always-on domain keeps: GLB, the bypass, RPL_CMAP, HRC, SEC and the mailboxes. -/
def keepReg (a : Nat) : Bool :=
  a < 0x100000 || (0x500600 ≤ a && a < 0x500680) || (0x800170 ≤ a && a < 0x800180) || (0x900000 ≤ a && a < 0xC00000)

/-- The state with everything outside the always-on domain and Idfort's storage at its reset value (R435). -/
def State.wipe (s : State) : State :=
  { s with
    regs := s.regs.filter fun e => keepReg e.1
    latch := [], mem := [], poison := [], cores := []
    time := { ticks := s.time.ticks, pos := s.time.pos }
    sub := { chans := s.sub.chans, progMem := s.sub.progMem }
    syn := {}
    memx := { repaired := s.memx.repaired, retired := s.memx.retired, spares := s.memx.spares }
    rpl := { fenced := s.rpl.fenced }
    ckp := {}
    integ := { s.integ with dups := [], retained := [], testing := [], busy := [], admitRun := none }
    hrc := { s.hrc with notices := [], stops := [], hung := [], afterHang := [], hbGated := [] }
    opt := { pc := s.opt.pc, byps := s.opt.byps, calStore := s.opt.calStore }
    fab := {}
    snp := {} }

/-- Everything outside the always-on domain is reset: the core and cluster resets that ran are part of it. A cartridge
stays fitted, and fenced clusters stay off the map, which the always-on domain keeps. -/
def State.resetDomain (s : State) : State :=
  let s0 := (List.range 22).foldl (fun t n => t.put (Reg.OPT_LC_STATUS_PRESENT n) (s.get (Reg.OPT_LC_STATUS_PRESENT n))) s.wipe
  let s1 := (s0.put Reg.SEC_STATUS_ZEROING 0).put Reg.HRC_RESET_CTRL_GO 0
  let s2 := (List.range 5).foldl (fun t k => t.setReg (Reg.HRC_RST_CORE k) 0) s1
  let s3 := ((s2.setReg Reg.HRC_RST_CL0 0).setReg Reg.HRC_RST_CL1 0).put Reg.GLB_STATUS_RELAY_READY 0
  ((s3.mark Reg.GLB_STATUS_RELAY).setReg Reg.GLB_CAL_CTRL 0).refreshPower

/-- Every bypass switch is commanded CLOSED (R265). -/
def State.closeAll (s : State) : State := s.each (List.range 8) State.closeBypass

/-- Firmware stops. -/
def State.stopFirmware (s : State) : State :=
  ((s.put Reg.SEC_STATUS_FW_STARTED 0).modFw fun f => { f with start := none, swap := none }).put Reg.GLB_FW_STATUS_SWAP_PENDING 0

/-! ### Whole-module recovery (R437, R440) -/

/-- MODULE_RECOVERY (R437): the contexts end, RECOVERING is sent on every port and on the management network, the
bypass closes, and everything outside the always-on domain is reset. Idfort may decide it itself. -/
def execModuleRecovery (s : State) : Host.Outcome State Fault Refusal :=
  if s.hrc.inRecovery || s.on Reg.HRC_STATUS_OUT_OF_SERVICE then .next s
  else
    let s1 := (s.decideRecovery none).endContexts
    let s2 := (s1.each (List.range 16) fun t p => t.svcOut p (.short .recovering [t.moduleId])).emit (.notice .recovering [s.moduleId])
    let s3 := (s2.closeAll.stopFirmware.resetDomain).put Reg.GLB_RESET_CAUSE_CAUSE 3
    .next (s3.modHrc fun h => { h with inRecovery := true })

/-- The module is taken out of service (R440), which Idfort keeps. -/
def State.outOfService (s : State) : State :=
  let s1 := (s.endContexts.closeAll).stopFirmware
  (((s1.mark Reg.HRC_STATUS_OUT_OF_SERVICE).mark Reg.HRC_EVENT_OUT_OF_SERVICE).refreshPower).emit .ibi

/-- A memory's spare rows at its first training are the hardware's (R162). -/
def State.trainOne (s : State) (m : Nat) : State :=
  let f := s.fresh
  if s.memx.spares.any fun e => e.1 == m then s.setSpares m (s.spares m) else f.2.setSpares m (f.1 % 2 ^ 16)

/-- Trained memory is cleared (R162, R339). -/
def State.clearMem (s : State) : State := { s with mem := [], poison := [], memx := { s.memx with badCheck := [] } }

/-- Near memory, and board memory, are trained and cleared. -/
def State.trainNear (s : State) : State :=
  if s.get Reg.MEM_STATUS_NM_TRAINED == 0xFF then s
  else ((s.put Reg.MEM_STATUS_NM_TRAINED 0xFF).each (List.range 8) State.trainOne).clearMem
def State.trainBoard (s : State) : State :=
  if s.on Reg.MEM_STATUS_BC_TRAINED then s else ((s.put Reg.MEM_STATUS_BC_TRAINED 1).trainOne 8).clearMem
def State.trainMemory (s : State) : State := (((s.put Reg.MEM_STATUS_NM_TRAINED 0).put Reg.MEM_STATUS_BC_TRAINED 0).trainNear).trainBoard

/-- Every ring takes its commissioned code, and the rings of some wavelengths that have light are acquired and verified on each
port's internal loopback (R243, R437, R489); a ring is at VERIFIED, code 4, and its next tone check block begins (R244). -/
def State.verifyRings (s : State) (lams : List Nat) : State :=
  let s1 := s.each (List.range 576) fun t k => t.modTuner k fun x => { x with hcal := some (t.storedCal k) }
  let fed (lam : Nat) : Bool := let n := s.get (Reg.OPT_WL_SRC_SOURCE lam); n < 22 && s.lcState n == lcLit
  let keys := (List.range 16).flatMap fun p => (lams.filter fed).flatMap fun lam => [(ringKey p false lam, lam), (ringKey p true lam, lam)]
  s1.each keys fun t e =>
    t.modTuner e.1 fun x => { x with st := 4, heater := s1.hCal e.1, tone := s.get (Reg.OPT_WL_SRC_SOURCE e.2), attempt := 0, good := 0,
                                     check := some (t.now, 512), sweep := none, acquire := none }

/-- The commissioned powers that Idfort holds are loaded (R239). -/
def State.loadPowers (s : State) : State :=
  s.each (List.range 22) fun t n => t.put (Reg.OPT_LC_COMM_P_C n) (sget Config.laserCal s.opt.pc n)

/-- LC17 and the parked spare are lit (R241, R489), at the commissioned powers that Idfort holds (R239). -/
def State.lightService (s : State) : State :=
  ((s.loadPowers.setLc 17 lcLit 17).put (Reg.OPT_WL_SRC_SOURCE 17) 17).park

/-- Recovery relights the bank and verifies the ports' rings (R437). That BANK_EN reads 1 for it is DESIGN CHOICE: the manual does
not say (log entry 158). -/
def State.relight (s : State) : State :=
  if s.on Reg.OPT_CTRL_BANK_EN && s.lcState 17 == lcLit then s
  else ((s.lightService.mark Reg.OPT_CTRL_BANK_EN).lightBank).verifyRings (List.range 18)

/-- What a whole-module recovery does by itself, each at the end of its time in R437's table: near memory at 1.80 s, board memory
at 2.60 s, light at 3.80 s. -/
def State.recoverySteps (s : State) : State :=
  let t := s.now - s.hrc.recoverAt
  if !s.hrc.inRecovery then s
  else if t = 439454 then s.trainNear else if t = 634766 then s.trainBoard else if t = 927735 then s.relight else s

/-- The half whose image recovery starts: the one marked GOOD (R437, R497). -/
def State.goodHalf (s : State) : Option Nat :=
  if s.on Reg.GLB_FW_STATUS_GOOD_A then some 0 else if s.on Reg.GLB_FW_STATUS_GOOD_B then some 1 else none

/-- Firmware runs from a half (R493). -/
def State.runFirmware (s : State) (half : Nat) : State :=
  (((((s.put Reg.SEC_STATUS_FW_STARTED 1).put Reg.SEC_STATUS_FW_HALF half).modFw fun f => { f with start := none, since := s.now }).modHrc
    fun h => { h with fwTicks := [] }).refreshPower)

/-- MODULE_RECOVERY_DONE (R437, R438): memory and light are ready, as far as `recoverySteps` did not yet make them so, and firmware
is restarted, unless the image does not
verify (Night relay), training fails, or the recoveries within the window take the module out of service. -/
def execModuleRecoveryDone (r : RecoveryEnd) (rtc : Nat) (s : State) : Host.Outcome State Fault Refusal :=
  if !s.hrc.inRecovery then .next s
  else
    let s1 := (s.put Reg.HRC_STATUS_RECOVERING 0).modHrc fun h => { h with inRecovery := false }
    let s2 := (s1.noteReset 2000 rtc).chargeNoted 2 0 200 0
    let n := s2.get Reg.HRC_ESC_MODULE_COUNT
    if r == .trainingFailed || (n != 0 && s2.resetsIn 2000 rtc (s2.get Reg.HRC_ESC_MODULE_WINDOW_S) ≥ n) then .next s2.outOfService
    else
      let s3 := (((s2.trainNear).trainBoard).relight).mark Reg.GLB_STATUS_RELAY_READY
      match s3.goodHalf, r with
      | some h, .done => .next (s3.runFirmware h)
      | _, _ => .next s3.refreshPower

/-! ### Dawn (R489) -/

/-- The rails, the presence contact and MOD_RESET_N let a Dawn begin (R470, R478, R479, R489). -/
def State.mayDawn (s : State) : Bool :=
  s.pins.v12 && s.pins.v48 && s.pins.body && s.pins.mated && !s.pins.resetLow && !s.pins.tripped

/-- Dawn begins where nothing holds it: the module is powered, the PCIe link comes up, and memory and light are
prepared until RELAY_READY. -/
def State.tryDawn (s : State) : State :=
  if !s.mayDawn then s.refreshPower
  else
    let s1 := s.modPins fun x => { x with loadsOff := false, dawn := true, pcieUp := true, configReady := false }
    ((s1.mark Reg.GLB_STATUS_RELAY).put Reg.GLB_STATUS_RELAY_READY 0).refreshPower

end Sys2Proof.Machine
end

