-- ==== Sys2Proof/Machine/Security.lean ====
section
/-! DEFINITION. Idfort: SPDM (R449, R450), tenant keys (R456, R457), the management network (R452, R453), sealed weights
(R458, R459), and the debug levels (R464–R466). AES-256-GCM is computed; SHA-384, P-384 and HKDF are functions that Config leaves open, and
whether a requester's certificate or token verifies comes with the command (log entry 130). -/
namespace Sys2Proof.Machine

/-- The transport of an SPDM request answers: the management network from 12 V, DOE once the
port accepts configuration requests (R449, R481, R488). -/
def State.spdmUp (s : State) (net : Bool) : Bool := s.idfortUp && (net || (s.pins.pcieUp && s.pins.configReady))

/-- An SPDM response. -/
def State.respond (s : State) (net : Bool) (r : SpdmResp) (args : List Nat) : State := if s.spdmUp net then s.emit (.spdm net r args) else s

/-! ### SPDM (R449, R450) -/

/-- GET_VERSION (R449): SPDM 1.3. -/
def execGetVersion (net : Bool) (s : State) : Host.Outcome State Fault Refusal := .next (s.respond net .version [0x13])

/-- GET_CAPABILITIES (R449): certificates, challenge, measurements, and key exchange; no mutual authentication. -/
def execGetCapabilities (net : Bool) (s : State) : Host.Outcome State Fault Refusal := .next (s.respond net .capabilities [])

/-- NEGOTIATE_ALGORITHMS (R449): the one set, ECDSA P-384, SHA-384, secp384r1 and AES-256-GCM; an error where the
requester does not offer it. -/
def execNegotiateAlgorithms (net : Bool) (offers : Bool) (s : State) : Host.Outcome State Fault Refusal :=
  .next (if offers then s.respond net .algorithms [384, 384, 384, 256] else s.respond net .error [])

/-- GET_DIGESTS (R449): slot 0 alone. -/
def execGetDigests (net : Bool) (s : State) : Host.Outcome State Fault Refusal := .next (s.respond net .digests [0])

/-- The firmware image in the active half. -/
def State.runningImage (s : State) : Option FwImage :=
  if !s.on Reg.SEC_STATUS_FW_STARTED then none else if s.on Reg.SEC_STATUS_FW_HALF then s.fw.imageB else s.fw.imageA

/-- The packs' IDs in ascending order. -/
def State.packIds (s : State) : List Nat := (s.integ.packs.map (·.id)).foldl (fun l a => insertSorted a l) []

/-- The SHA-384 of bytes, as a number (R450). -/
def shaOf (bs : List Byte) : Nat := (Config.sha384 bs).toNat

/-- A measurement block as its values (R450): a SHA-384 digest or raw values; the digest of content that is absent is all zeros, as
R450 has it for block 8 in Blank. -/
def State.measured (s : State) (i : Nat) : List Nat :=
  match i with
  | 1 => [shaOf Config.romImage]
  | 2 => [s.sec.idfortDigest]
  | 3 => [(s.runningImage.map (·.digest)).getD 0]
  | 4 => [(s.runningImage.map (·.svn)).getD 0, s.sec.idfortSvn]
  | 5 => [s.secState]
  | 6 => [s.get Reg.SEC_STATUS_DEBUG, (s.sec.session.map (·.serial)).getD 0]
  | 7 => [shaOf (s.packIds.flatMap (leBytes 4))]
  | 8 => [s.sec.operator.getD 0]
  | _ => []

/-- The sizes of a block's values in bytes (R450). -/
def blockSizes (i : Nat) : List Nat := if i = 4 then [4, 4] else if i = 5 then [1] else if i = 6 then [1, 4] else [48]

/-- A block as GET_MEASUREMENTS returns it: its index and its values. -/
def State.measure (s : State) (i : Nat) : List Nat := if (s.measured i).isEmpty then [] else i :: s.measured i

/-- The blocks 1–8 as bytes, for the digest in KEY_OFFER (R456). -/
def State.measureBytes (s : State) : List Byte :=
  ((List.range 8).map (· + 1)).flatMap fun i => (List.zipWith leBytes (blockSizes i) (s.measured i)).flatten

/-! ### Identity (R448) -/

/-- The DeviceID key, which the Idfort ROM derives from the device secret alone and which never changes. -/
def deviceIdKey : Nat := Config.diceKey Config.deviceSecret []

/-- The Alias key, derived anew whenever a value that it measures changes (R448): the control-complex image, the fuses, with the
minimum SVNs that they hold (R455), and the security state. -/
def State.aliasKey (s : State) : Nat :=
  Config.diceKey Config.deviceSecret (s.measure 3 ++ s.measure 5
    ++ [s.get Reg.SEC_FW_STATUS_SVN_MIN, s.sec.idfortMin, s.integ.packMin] ++ s.sec.fuses.flatMap fun e => [e.1, e.2])

/-- An ECDSA signature over SHA-384, by private key and nonce. -/
def signOf (key nonce : Nat) (bs : List Byte) : Nat := (Config.ecSign key nonce bs).toNat

/-- The public key of a private one. -/
def pointOf (key : Nat) : Nat := (Config.ecPoint key).toNat

/-- The certificate chain of slot 0 (R448, R449): the DeviceID certificate with part number, serial number and public key, signed by
the Colutas CA; and the Alias certificate with its public key, signed with the DeviceID key. -/
def State.certChain (s : State) : List Nat :=
  [0x4816, s.get Reg.GLB_SERIAL_LO_SERIAL, s.get Reg.GLB_SERIAL_HI_SERIAL, pointOf deviceIdKey, Config.deviceSignature.toNat,
   pointOf s.aliasKey, signOf deviceIdKey s.aliasKey (leBytes 96 (pointOf s.aliasKey))]

/-- GET_CERTIFICATE (R448, R449): the chain of slot 0. -/
def execGetCertificate (net : Bool) (slot : Byte) (s : State) : Host.Outcome State Fault Refusal :=
  .next (if slot = 0 then s.respond net .certificate (0 :: s.certChain) else s.respond net .error [])

/-- CHALLENGE (R449): signed with the Alias key of slot 0; the nonce of an ECDSA signature is a free value. -/
def execChallenge (net : Bool) (slot : Byte) (nonce : BitVec 256) (s : State) : Host.Outcome State Fault Refusal :=
  if slot = 0 then
    let f := s.fresh
    .next (f.2.respond net .challengeAuth [nonce.toNat, signOf s.aliasKey f.1 (leBytes 32 nonce.toNat ++ s.measureBytes)])
  else .next (s.respond net .error [])

/-- GET_MEASUREMENTS (R450): one block, or all. -/
def execGetMeasurements (net : Bool) (index : Option Byte) (s : State) : Host.Outcome State Fault Refusal :=
  match index with
  | none => .next (s.respond net .measurements ((List.range 8).flatMap fun k => s.measure (k + 1)))
  | some i => .next (if 1 ≤ i.toNat && i.toNat ≤ 8 then s.respond net .measurements (s.measure i.toNat) else s.respond net .error [])

/-- An SPDM session is established on a transport. -/
def State.spdmOpen (s : State) (net : Bool) (n : Nat) : Bool := s.sec.spdm.contains (net, n, true)

def State.dropSpdm (s : State) (net : Bool) (n : Nat) : State := s.modSec fun x => { x with spdm := x.spdm.filter fun e => !(e.1 == net && e.2.1 == n) }

/-- KEY_EXCHANGE (R449): a session begins its handshake. -/
def execKeyExchange (net : Bool) (sess : BitVec 16) (s : State) : Host.Outcome State Fault Refusal :=
  if !s.spdmUp net then .next s
  else .next (((s.dropSpdm net sess.toNat).modSec fun x => { x with spdm := x.spdm ++ [(net, sess.toNat, false)] }).respond net .keyExchangeRsp [sess.toNat])

/-- FINISH (R449): the handshake completes; a wrong verification ends the session. -/
def execFinish (net : Bool) (sess : BitVec 16) (macOk : Bool) (s : State) : Host.Outcome State Fault Refusal :=
  let n := sess.toNat
  if !s.spdmUp net then .next s
  else if !s.sec.spdm.contains (net, n, false) then .next (s.respond net .error [])
  else
    let s1 := s.dropSpdm net n
    .next (if macOk then (s1.modSec fun x => { x with spdm := x.spdm ++ [(net, n, true)] }).respond net .finishRsp [n] else s1.respond net .error [])

/-- END_SESSION (R449). -/
def execEndSession (net : Bool) (sess : BitVec 16) (s : State) : Host.Outcome State Fault Refusal :=
  if !s.spdmUp net then .next s
  else if s.spdmOpen net sess.toNat then .next ((s.dropSpdm net sess.toNat).respond net .endSessionAck [sess.toNat])
  else .next (s.respond net .error [])

/-! ### Tenant keys (R456, R457) -/

/-- A slot is empty and not offered. -/
def State.slotFree (s : State) (kind k : Nat) : Bool :=
  !(if kind = 1 then s.on (Reg.SEC_WKEY_SLOT_VALID k) else s.on (linkFld k)) && !(s.sec.offers.any fun o => o.kind == kind && o.slot == k)

/-- The slot that a key request takes (R456): a free weight slot, or the link slot not in use. -/
def State.slotFor (s : State) (kind : Nat) : Option Nat :=
  if kind = 1 then (List.range 16).find? (s.slotFree 1)
  else if kind = 2 then (if s.slotFree 2 (1 - s.keySlot) then some (1 - s.keySlot) else none)
  else none

/-- What the Alias key signs of an offer (R456): context, generation, VCID, broker nonce, ephemeral public key and the SHA-384 of the
measurement blocks 1–8. -/
def State.offerFields (s : State) (c : Nat) (r : KeyReq) (priv : Nat) : List Nat :=
  [c, s.gen c, r.vcid.toNat, r.nonce.toNat, pointOf priv, shaOf s.measureBytes]
def offerBytes (l : List Nat) : List Byte := (List.zipWith leBytes [1, 2, 2, 32, 96, 48] l).flatten

/-- KEY_REQUEST (R456): an ephemeral key pair is made, and KEY_OFFER is returned, signed with the Alias key. The private key and the
signature's nonce are free values. -/
def execKeyRequest (net : Bool) (sess : BitVec 16) (r : KeyReq) (s : State) : Host.Outcome State Fault Refusal :=
  if !s.spdmUp net then .next s
  else if !s.spdmOpen net sess.toNat || s.secState == 0 || s.secState == 3 then .next (s.respond net .error [])
  else match s.ctxOfVcid r.vcid.toNat, s.slotFor r.kind.toNat with
    | some c, some k =>
      let f := s.fresh
      let g := f.2.fresh
      let args := s.offerFields c r f.1
      let sig := signOf s.aliasKey g.1 (offerBytes args)
      let o : KeyOffer := { kind := r.kind.toNat, ctx := c, gen := s.gen c, vcid := r.vcid.toNat, slot := k, dump := r.dump.toNat
                            nonce := r.nonce.toNat, priv := f.1, signed := sig }
      .next ((g.2.modSec fun x => { x with offers := x.offers ++ [o] }).respond net .keyOffer (args ++ [sig]))
    | _, _ => .next (s.respond net .error [])

/-- The key-encryption key of an offer and the broker's public key (R457): HKDF-SHA-384 of the ECDH secret, with the broker nonce as
salt and as info the label GZKW, the kind, the context and the generation. -/
def KeyOffer.kek (o : KeyOffer) (pub : BitVec 768) : List Nat :=
  keyBytes (Config.hkdf (leBytes 32 o.nonce) (Config.ecdh o.priv pub)
    ([0x47, 0x5A, 0x4B, 0x57] ++ leBytes 1 o.kind ++ leBytes 1 o.ctx ++ leBytes 2 o.gen)).toNat

/-- The wrapped key opened with AES-256-GCM under a zero IV and the offer's signature as AAD; none where the tag fails (R457). -/
def KeyOffer.unwrap (o : KeyOffer) (m : KeyWrapMsg) : Option Nat :=
  let key := o.kek m.pub
  let iv := List.replicate 12 0
  let ct := Gcm.beBytes 32 m.wrapped.toNat
  if m.tag.toNat == Gcm.beNat (Gcm.tagOf key iv (Gcm.beBytes 96 o.signed) ct) then some (Gcm.beNat (Gcm.crypt key iv ct)) else none

/-- An unwrapped key enters its slot (R457): a weight key seals the module. -/
def State.installKey (s : State) (o : KeyOffer) (key : Nat) : State :=
  let s1 := s.mark Reg.SEC_EVENT_KEY_RELEASED
  if o.kind = 1 then
    let s2 := (((s1.put (Reg.SEC_WKEY_SLOT_CONTEXT o.slot) o.ctx).put (Reg.SEC_WKEY_SLOT_VALID o.slot) 1).put (Reg.SEC_WKEY_SLOT_GENERATION o.slot) o.gen).put ⟨Reg.SEC_WKEY, o.slot, 1⟩ 1
    (s2.modSec fun x => { x with
      weightKeys := sset (fun _ => 0) x.weightKeys o.slot key, dumpKeys := sset (fun _ => 0) x.dumpKeys o.slot o.dump }).setSec 2
  else
    (s1.put (linkFld o.slot) 1).modSec fun x => { x with
      linkKeys := sset (fun _ => 0) x.linkKeys o.slot key, linkBind := sset (fun _ => none) x.linkBind o.slot (some (o.ctx, o.gen)) }

/-- KEY_WRAP (R457): for a KEY_OFFER in force; a failed tag leaves the slot empty, and with the offer the ephemeral private key is
erased in either case. -/
def execKeyWrap (net : Bool) (sess : BitVec 16) (m : KeyWrapMsg) (s : State) : Host.Outcome State Fault Refusal :=
  if !s.spdmUp net then .next s
  else match s.sec.offers.find? fun o => o.kind == m.kind.toNat && o.slot == m.slot.toNat with
    | none => .next (s.respond net .error [])
    | some o =>
      if !s.spdmOpen net sess.toNat then .next (s.respond net .error [])
      else
        let s1 := s.modSec fun x => { x with offers := x.offers.filter (· != o) }
        .next (match o.unwrap m with
          | some k => (s1.installKey o k).respond net .keyWrapAck []
          | none => s1.respond net .error [])

/-! ### The management network (R452, R453, R462) -/

/-- The TLS 1.3 handshake of a connection (R452): the suite TLS_AES_256_GCM_SHA384, the group secp384r1 and the Alias chain; whether it
stays open. -/
def State.handshake (s : State) (port : Nat) (kept : Bool) : State := s.emit (.tls port (0x1302 :: 0x0018 :: b2n kept :: s.certChain))

/-- MGMT_CONNECT (R452, R453): a certificate must verify against the enrolled CA; in Blank and Decommissioned none is
asked. A connection that does not verify is closed after the handshake, without Redfish data. -/
def execMgmtConnect (port : Fin 2) (cert : ClientCert) (s : State) : Host.Outcome State Fault Refusal :=
  if !s.idfortUp then .next s
  else if s.secState == 0 || s.secState == 3 then .next ((s.setConn port.val 1).handshake port.val true)
  else if cert == .verifies then .next ((s.setConn port.val 2).handshake port.val true)
  else .next ((s.setConn port.val 0).handshake port.val false)

/-- OPERATOR_ENROLMENT (R453): the first in Blank makes the module Provisioned; a later one replaces the certificate;
Decommissioned refuses it. -/
def execOperatorEnrolment (port : Fin 2) (ca : BitVec 384) (s : State) : Host.Outcome State Fault Refusal :=
  let p := port.val
  if s.secState == 0 && s.conn p == 1 && s.idfortUp then
    .next (((s.modSec fun x => { x with operator := some ca.toNat }).setSec 1).emit (.redfish true))
  else .next (s.byOperator p fun t => if t.secState == 3 then none else some (t.modSec fun x => { x with operator := some ca.toNat }))

/-- DECOMMISSION (R451, R474): from Provisioned; the operator credentials and every tenant key are erased, and the
module returns to Night relay, where alone it can be Decommissioned. -/
def execDecommission (port : Fin 2) (s : State) : Host.Outcome State Fault Refusal :=
  .next (s.byOperator port.val fun t =>
    if t.secState != 1 then none
    else
      let t1 := (t.closeSession.endContexts.stopFirmware.put Reg.SWT_CTRL_ENABLE 0).mark Reg.GLB_STATUS_RELAY
      let t2 := t1.each [0, 1] State.eraseLink
      some ((t2.modSec fun x => { x with operator := none, conns := [], offers := [], rollForward := false, vendorWaits := none }).setSec 3
        |>.refreshPower))

/-- HOST_VIEW_SET (R462). -/
def execHostViewSet (port : Fin 2) (tenant : Bool) (s : State) : Host.Outcome State Fault Refusal :=
  .next (s.byOperator port.val fun t => some (t.modSec fun x => { x with tenantView := tenant }))

/-- ROLL_FORWARD_ENABLE (R455). -/
def execRollForwardEnable (port : Fin 2) (s : State) : Host.Outcome State Fault Refusal :=
  .next (s.byOperator port.val fun t => some (t.modSec fun x => { x with rollForward := true }))

/-- The fused minimum SVN of the Idfort firmware, after 24 h of running without a whole-module recovery (R455). -/
def State.rollIdfort (s : State) : State :=
  if s.now < max s.sec.idfortSince s.hrc.recoverAt + dayTicks then s
  else s.modSec fun x => { x with idfortMin := max x.idfortMin x.idfortSvn }

/-- That of test packs, of those stored for 24 h (R361, R455): a pack runs from its storing on. DESIGN CHOICE (log entry 159). -/
def State.rollPacks (s : State) : State :=
  s.modInt fun x => { x with packMin := (x.packs.filter fun q => max q.since s.hrc.recoverAt + dayTicks ≤ s.now).foldl (fun m q => max m q.svn) x.packMin }

/-- FW_SVN_ROLL_FORWARD (R455): 24 h of clean running of what lies above its fused minimum: the firmware image, the Idfort firmware,
the test packs. -/
def execFwSvnRollForward (s : State) : Host.Outcome State Fault Refusal :=
  if !s.sec.rollForward then .next s
  else
    let s1 := s.rollIdfort.rollPacks
    match s.runningImage with
    | none => .next s1
    | some i =>
      if s.now < s.fw.since + dayTicks || i.svn ≤ s.get Reg.SEC_FW_STATUS_SVN_MIN then .next s1
      else .next (s1.put Reg.SEC_FW_STATUS_SVN_MIN i.svn)

/-- THERM_TRIP_CLEAR (R470, R485): the pin is released, and a new Dawn begins where nothing else holds it. -/
def execThermTripClear (port : Fin 2) (s : State) : Host.Outcome State Fault Refusal :=
  .next (s.byOperator port.val fun t => some (if t.pins.tripped then ((t.modPins fun x => { x with tripped := false }).emit .ibi).tryDawn else t))

/-- RETURN_TO_SERVICE (R440). -/
def execReturnToService (port : Fin 2) (s : State) : Host.Outcome State Fault Refusal :=
  .next (s.byOperator port.val fun t => some ((t.put Reg.HRC_STATUS_OUT_OF_SERVICE 0).when (t.on Reg.HRC_STATUS_OUT_OF_SERVICE) fun u => u.emit .ibi))

/-- BYPASS_OPEN_REQUEST (R492): every switch is armed to open at the frame; refused before RELAY_READY, without
LISTEN_OK, and less than 3 frames after the listener's count. -/
def execBypassOpenRequest (port : Fin 2) (frame : BitVec 64) (s : State) : Host.Outcome State Fault Refusal :=
  let f := frame.toNat
  .next (s.byOperator port.val fun t =>
    let ok (b : Nat) : Bool := t.on (Reg.OPT_BYP_STATUS_LISTEN_OK b) && match (t.byp b).listener with
      | some l => l.1 + (t.now - l.2) + 3 ≤ f
      | none => false
    if !t.on Reg.GLB_STATUS_RELAY_READY || !((List.range 8).all ok) then none
    else some (t.each (List.range 8) fun u b => ((u.put (Reg.OPT_BYP_CTRL_TARGET b) 1).put (Reg.OPT_BYP_FRAME_FRAME b) (f % 2 ^ 32)).mark (Reg.OPT_BYP_CTRL_ARM b)))

/-! ### Debug sessions (R464–R466) -/

/-- INVASIVE_SESSION_OPEN (R453, R464): by the operator alone, in Provisioned or Sealed, one session at a time. -/
def execInvasiveSessionOpen (port : Fin 2) (s : State) : Host.Outcome State Fault Refusal :=
  .next (s.byOperator port.val fun t => if t.sec.session.isSome || t.sec.vendorWaits.isSome then none else some (t.openSession 1 []))

/-- VENDOR_SESSION_OPEN (R453, R466): against a valid token, on the operator's connection, or in Blank and Decommissioned
on any; Dusk starts first on every context with a weight key. Refused until 48 V (R474). -/
def execVendorSessionOpen (port : Fin 2) (t : VendorToken) (s : State) : Host.Outcome State Fault Refusal :=
  let may := if s.secState == 0 || s.secState == 3 then s.conn port.val != 0 else s.conn port.val == 2
  if !s.idfortUp then .next s
  else if !may || !t.valid || s.powerNow < 2 || s.sec.session.isSome || s.sec.vendorWaits.isSome then .next (s.emit (.redfish false))
  else
    let s1 := s.modSec fun x => { x with vendorWaits := some t.fuses }
    let s2 := s1.each ((List.range 64).filter fun c => s1.active c && s1.holdsKey c) fun u c => u.modCtx c fun x => { x with duskReq := x.duskReq.or (some { tick := u.now + 1 }) }
    .next (s2.openWaiting.emit (.redfish true))

/-- DEBUG_SESSION_CLOSE (R464). -/
def execDebugSessionClose (port : Fin 2) (s : State) : Host.Outcome State Fault Refusal :=
  let may := if s.secState == 0 || s.secState == 3 then s.conn port.val != 0 else s.conn port.val == 2
  if !s.idfortUp then .next s
  else if may && s.sec.session.isSome then .next (s.closeSession.emit (.redfish true)) else .next (s.emit (.redfish false))

/-- The level of the open session. -/
def State.debugLevel (s : State) : Nat := (s.sec.session.map (·.level)).getD 0

/-- An invasive session acts on the module in Idle, Active and Throttled (R474). -/
def State.invasive (s : State) : Bool := s.debugLevel == 1 && s.powerNow ≥ 3

/-- CORE_HALT (R464). -/
def execCoreHalt (t : HaltTarget) (s : State) : Host.Outcome State Fault Refusal :=
  if !s.invasive then .next (s.emit (.redfish false))
  else match t with
    | .core c => .next ((s.modCore c.val fun k => { k with halted := true, steps := 0 }).emit (.redfish true))
    | .control k => .next ((s.modSec fun x => { x with
        halted := k.val :: x.halted.filter (· != k.val), cpSteps := sset (fun _ => 0) x.cpSteps k.val 0 }).emit (.redfish true))

/-- CORE_SINGLE_STEP (R464): a halted core may retire one more instruction, a halted control processor make one more access. -/
def execCoreSingleStep (t : HaltTarget) (s : State) : Host.Outcome State Fault Refusal :=
  if !s.invasive then .next (s.emit (.redfish false))
  else match t with
    | .core c => .next (if (s.core c.val).halted then (s.modCore c.val fun k => { k with steps := 1 }).emit (.redfish true) else s.emit (.redfish false))
    | .control k => .next (if s.sec.halted.contains k.val then
        (s.modSec fun x => { x with cpSteps := sset (fun _ => 0) x.cpSteps k.val 1 }).emit (.redfish true)
      else s.emit (.redfish false))

/-- A core whose last LAUNCH belonged to a context that holds a weight key (R465). -/
def State.coreSealed (s : State) (c : Nat) : Bool := s.on (Reg.CORE_ACC_OWNER_VALID c) && s.holdsKey (s.get (Reg.CORE_ACC_OWNER_CONTEXT c))

/-- A PA lies in a page that a context maps SEALED. -/
def State.paSealed (s : State) (pas : List Nat) : Bool :=
  let pages := ((List.range 64).filter fun c => s.get (Reg.SUB_CTX_CTRL_STATE c) != 0).flatMap s.sealedPages
  pas.any fun a => pages.contains (a / 65536 * 65536)

/-- The context with a weight key whose duplicates, waiting or retained, lie at one of the PAs (R347, R350, R465). -/
def State.dupSealed (s : State) (pas : List Nat) : Option Nat :=
  ((s.integ.dups ++ s.integ.retained).find? fun d =>
    let base := s.get (Reg.INT_DUPQ_BASE_LO_PA_LO d.die) * 2 ^ 20 + s.get (Reg.INT_DUPQ_BASE_HI_PA_HI d.die) * 2 ^ 32
    s.holdsKey d.party.ctx && pas.any fun a => base ≤ a && a < base + s.get (Reg.INT_DUPQ_SIZE_MIB d.die) * 2 ^ 20).map (·.party.ctx)

/-- The PAs that a target covers, and whether they are sealed. -/
def State.debugRange (s : State) (t : DebugTarget) : List Nat × Bool :=
  match t with
  | .memory pa n =>
    let l := ((List.range n).map fun k => pa.toNat + k).filter paExists
    (l, s.paSealed l || (s.dupSealed l).isSome || l.any fun a => spBase ≤ a && s.coreSealed ((a - spBase) / 0x400000))
  | .scratchpad c a n => ((List.range n).map fun k => spAddr c.val (a.toNat + k), s.coreSealed c.val)
  | .tile c _ => ([], s.coreSealed c.val)

/-- The bytes of a target, a tile's as R100 lays them out. -/
def State.debugBytes (s : State) (t : DebugTarget) : List Byte :=
  match t with
  | .tile c k => s.tileData c.val k.val
  | _ => (s.debugRange t).1.map s.paByte

/-- The context whose data a sealed target holds: the owner of the core, the lowest that maps the page SEALED, or that of a
duplicate. -/
def State.debugCtx (s : State) (t : DebugTarget) : Option Nat :=
  match t with
  | .memory pa n =>
    let l := ((List.range n).map fun k => pa.toNat + k).filter paExists
    match l.find? (spBase ≤ ·) with
    | some a => some (s.get (Reg.CORE_ACC_OWNER_CONTEXT ((a - spBase) / 0x400000)))
    | none => ((List.range 64).find? fun c => s.get (Reg.SUB_CTX_CTRL_STATE c) != 0 && l.any fun a => (s.sealedPages c).contains (a / 65536 * 65536)).or
        (s.dupSealed l)
  | .scratchpad c _ _ => some (s.get (Reg.CORE_ACC_OWNER_CONTEXT c.val))
  | .tile c _ => some (s.get (Reg.CORE_ACC_OWNER_CONTEXT c.val))

/-- The dump public key of a context's first key slot (R465). -/
def State.dumpKeyOf (s : State) (c : Nat) : Nat :=
  match (List.range 16).find? fun k => s.on (Reg.SEC_WKEY_SLOT_VALID k) && s.get (Reg.SEC_WKEY_SLOT_CONTEXT k) == c with
  | some k => sget (fun _ => 0) s.sec.dumpKeys k
  | none => 0

/-- Data in blocks of 4 KiB, each encrypted separately (R465) under the IV of the session's serial number and a block
counter, and followed by its tag; n blocks from counter k on. -/
def sealBlocks (key serial : Nat) : Nat → Nat → List Byte → List Byte
  | 0, _, _ => []
  | n + 1, k, bs =>
    let iv := (leBytes 4 serial ++ leBytes 8 k).map (·.toNat)
    let ct := Gcm.crypt (keyBytes key) iv ((bs.take 4096).map (·.toNat))
    (ct ++ Gcm.tagOf (keyBytes key) iv [] ct).map (BitVec.ofNat 8) ++ sealBlocks key serial n (k + 1) (bs.drop 4096)

/-- The dump key of a session for a dump public key (R465): HKDF-SHA-384 of the ECDH secret, with the session's serial number as salt
and the label GZDK as info. -/
def DebugSession.dumpKey (x : DebugSession) (pub : Nat) : Nat :=
  (Config.hkdf (leBytes 4 x.serial) (Config.ecdh x.priv (BitVec.ofNat 768 pub)) [0x47, 0x5A, 0x44, 0x4B]).toNat

/-- DEBUG_MEMORY_READ (R465): sealed data leaves encrypted under the session's dump key, with the session's ephemeral public key. -/
def execDebugMemoryRead (t : DebugTarget) (s : State) : Host.Outcome State Fault Refusal :=
  match s.sec.session with
  | none => .next (s.emit (.redfish false))
  | some x =>
    if !s.invasive then .next (s.emit (.redfish false))
    else
      let bs := s.debugBytes t
      if (s.debugRange t).2 then
        let n := ceilDiv bs.length 4096
        let key := x.dumpKey (((s.debugCtx t).map s.dumpKeyOf).getD 0)
        .next ((s.modSec fun y => { y with session := some { x with blocks := x.blocks + n } }).emit
          (.debugData (some (x.serial, x.blocks, pointOf x.priv)) (sealBlocks key x.serial n x.blocks bs)))
      else .next (s.emit (.debugData none bs))

/-- DEBUG_MEMORY_WRITE (R465): refused with SEAL_VIOLATION for sealed data. Pages that a checkpoint tracks are prepared first
(R397, R402); a write whose page would have to wait for the shadow pool is refused: DESIGN CHOICE (log entry 159). -/
def execDebugMemoryWrite (t : DebugTarget) (bytes : List Byte) (s : State) : Host.Outcome State Fault Refusal :=
  if !s.invasive then .next (s.emit (.redfish false))
  else if (s.debugRange t).2 then .next (s.sealCount.emit (.redfish false))
  else match t with
    | .tile c k => .next ((s.setTileData c.val k.val bytes).emit (.redfish true))
    | _ =>
      let cells := (s.debugRange t).1.zip bytes
      match s.touchPages .debug (pagesOf (cells.map (·.1))) with
      | .go u => .next ((u.store cells).emit (.redfish true))
      | .full | .noPool => .next (s.emit (.redfish false))

/-- SCAN_REQUEST (R466): refused while any context is ACTIVE; the scan data are not the manual's. -/
def execScanRequest (s : State) : Host.Outcome State Fault Refusal :=
  if s.debugLevel != 2 || s.powerNow < 2 || (List.range 64).any s.active then .next (s.emit (.redfish false))
  else let f := s.fresh; .next (f.2.emit (.vendorData [f.1]))

/-- FUSE_READ (R466). -/
def execFuseRead (word : BitVec 16) (s : State) : Host.Outcome State Fault Refusal :=
  if s.debugLevel != 2 then .next (s.emit (.redfish false))
  else .next (s.emit (.vendorData [sget (fun _ => 0) s.sec.fuses word.toNat]))

/-- FUSE_WRITE (R466): only a word that the token names; a fuse once set stays set. -/
def execFuseWrite (word : BitVec 16) (v : Word) (s : State) : Host.Outcome State Fault Refusal :=
  match s.sec.session with
  | none => .next (s.emit (.redfish false))
  | some x =>
    if x.level != 2 || !x.fuses.contains word.toNat then .next (s.emit (.redfish false))
    else .next ((s.modSec fun y => { y with fuses := sset (fun _ => 0) y.fuses word.toNat (sget (fun _ => 0) y.fuses word.toNat ||| v.toNat) }).emit (.redfish true))

/-- REFURBISH_TO_BLANK (R466): the enrolled certificate goes; identity, health, escalation and CPER records stay. -/
def execRefurbishToBlank (s : State) : Host.Outcome State Fault Refusal :=
  if s.debugLevel != 2 || s.secState != 3 then .next (s.emit (.redfish false))
  else .next (((s.modSec fun x => { x with operator := none }).setSec 0).emit (.redfish true))

/-! ### Weight intake (R458, R459) -/

/-- A reply of firmware on a host channel: words 0 and 1. -/
def State.intakeReply (s : State) (n status chunks : Nat) : State :=
  let x := s.chan n
  let cp := 0x2000 + n % 8
  let a := pushWord x.to0 (0x81 + status * 256, cp)
  let b := pushWord a.1 (chunks, cp)
  (s.setChan n { x with to0 := b.1, coll0 := x.coll0 || a.2 || b.2, collCnt := satAdd 65535 x.collCnt (b2n a.2 + b2n b.2) }).mbxWake n 0x1000

/-- INTAKE_REQUEST (R458): firmware checks the request; refused while one runs on the channel or where its fields do not
name a weight intake of an ACTIVE context; without the slot's key the reply is no key. -/
def execIntakeRequest (ch : Fin 16) (words : List Word) (s : State) : Host.Outcome State Fault Refusal :=
  let n := ch.val
  let w (k : Nat) : Nat := (words.getD k 0).toNat
  let c := bitsOf (w 0) 8 6
  let k := bitsOf (w 0) 14 4
  if !s.on Reg.SEC_STATUS_FW_STARTED then .next s
  else if (s.sec.intakes.any fun i => i.chan == n) || bitsOf (w 0) 0 8 != 1 || bitsOf (w 0) 18 14 != 0 || w 3 % 65536 != 0 || !s.active c then
    .next (s.intakeReply n 2 0)
  else if !(s.on (Reg.SEC_WKEY_SLOT_VALID k) && s.get (Reg.SEC_WKEY_SLOT_CONTEXT k) == c && s.get (Reg.SEC_WKEY_SLOT_GENERATION k) == s.gen c) then
    .next (s.intakeReply n 3 0)
  else
    let i : Intake := { chan := n, ctx := c, slot := k, host := w 1 + w 2 * 2 ^ 32, va := w 3 + w 4 * 2 ^ 32, count := w 5, tensor := w 6, first := w 7 }
    .next (s.modSec fun x => { x with intakes := x.intakes ++ [i] })

/-- The first page of a chunk that is not mapped with WRITE and SEALED. -/
def State.intakeStop (s : State) (c va n : Nat) : Option Nat :=
  ((List.range (ceilDiv n 65536)).map fun k => va + 65536 * k).find? fun a => (s.xlate c a true).isNone || !s.sealedVa c a

/-- A record of the weight intake engine that names the context. -/
def State.intakeRec (s : State) (c code : Nat) (detail : List (Nat × Nat)) : State :=
  s.raise { code := code, unitKind := 15, unit := 8, p1 := some (s.ctxParty c), detail := detail }

/-- The record of a page that stops an intake (R141). -/
def State.intakePerm (s : State) (c va : Nat) : State :=
  if (s.xlate c va true).isNone then (s.accessRec c 15 8 va).1 else s.intakeRec c fPermission [(1, 10), (8, va)]

/-- The IV and the AAD of a chunk (R459): tensor and chunk index; and the VCID before, the length behind. -/
def intakeIv (tensor index : Nat) : List Nat := (leBytes 4 tensor ++ leBytes 8 index).map (·.toNat)
def intakeAad (vcid tensor index len : Nat) : List Nat := (leBytes 2 vcid).map (·.toNat) ++ intakeIv tensor index ++ (leBytes 4 len).map (·.toNat)

/-- A chunk's tag matches, its first byte the most significant of the number (R459). -/
def State.chunkOk (s : State) (i : Intake) (n : Nat) (b : List Byte × BitVec 128) : Bool :=
  let key := keyBytes (sget (fun _ => 0) s.sec.weightKeys i.slot)
  b.2.toNat == Gcm.beNat (Gcm.tagOf key (intakeIv i.tensor (i.first + n))
    (intakeAad (s.vcid i.ctx) i.tensor (i.first + n) b.1.length) (b.1.map (·.toNat)))

/-- A chunk's plaintext. -/
def State.chunkText (s : State) (i : Intake) (n : Nat) (b : List Byte × BitVec 128) : List Byte :=
  (Gcm.crypt (keyBytes (sget (fun _ => 0) s.sec.weightKeys i.slot)) (intakeIv i.tensor (i.first + n)) (b.1.map (·.toNat))).map (BitVec.ofNat 8)

/-- What the write of a chunk meets: done, a status that stops the intake, or a wait for the shadow pool. -/
inductive Chunk where
  | done (s : State)
  | stop (s : State) (status : Nat)
  | wait

/-- The write of a chunk (R157, R341, R343, R402, R459): wrong parity on the hub-die buses and a failed block check stop the intake
as refused; a first write into a granule poisoned in part does so too. -/
def State.intakeWrite (s : State) (i : Intake) (w : List (Nat × Byte)) (e : MemErr) : Chunk :=
  let c := i.ctx
  let pas := w.filterMap fun x => s.xlate c x.1 true
  let fails (loc pa : Nat) : Chunk :=
    .stop ((s.countCheck loc 15 8 (pa % 4096) (some c)).intakeRec c fCheckFail (checkDetail loc 0 pa)) 2
  match e.par.find? pas.contains with
  | some pa => fails 6 pa
  | none => match s.writeCheck c pas e with
    | some b => fails 3 b
    | none => match s.unitWrite (.engine (128 + i.chan)) c w with
      | .wait => .wait
      | .perm r a => .stop (if r = 1 then s.intakePerm c a else s.intakeRec c fPermission [(1, r), (8, a)]) 4
      | .ok t => match s.partialVa c w with
        | [] => .done t
        | g :: _ => let r := t.consumeUe g (some c); .stop (r.2.intakeRec c fMemUe r.1) 2

/-- The length of chunk n of a blob of some chunks (R459): 1 MiB, of the last one also less, in multiples of 64 bytes. -/
def chunkLenOk (count n len : Nat) : Bool := len == 1048576 || (n + 1 == count && 0 < len && len < 1048576 && len % 64 == 0)

/-- Chunks in order from the n-th on (R459): the state, how many are written, and the status with which the intake ends; none where
it waits. A blob of fewer chunks, or with a chunk of another length, ends it as refused: DESIGN CHOICE (log entry 159). -/
def State.intakeChunks (i : Intake) (e : MemErr) : State → Nat → List (List Byte × BitVec 128) → State × Nat × Option Nat
  | s, n, [] => (s, n, some (if n < i.count then 2 else 0))
  | s, n, b :: rest =>
    let va := i.va + 1048576 * n
    if !chunkLenOk i.count n b.1.length then (s, n, some 2)
    else match s.intakeStop i.ctx va b.1.length with
    | some a => (s.intakePerm i.ctx a, n, some 4)
    | none =>
      if !s.chunkOk i n b then (s.sealCount.intakeRec i.ctx fSealViolation [(2, s.moduleId), (1, i.slot), (1, 1)], n, some 1)
      else match s.intakeWrite i ((s.chunkText i n b).mapIdx fun k x => (va + k, x)) e with
        | .wait => (s.waitShadow (.engine (128 + i.chan)), n, none)
        | .done t => State.intakeChunks i e t (n + 1) rest
        | .stop t st => (t, n, some st)

/-- INTAKE_DONE (R459): the chunks of the blob as the engine finds them at the host address, each with its tag; an intake that waits for
the shadow pool goes on behind the chunks written. Without the key any more (R461) nothing is written. -/
def execIntakeDone (ch : Fin 16) (blob : List (List Byte × BitVec 128)) (e : MemErr) (s : State) : Host.Outcome State Fault Refusal :=
  match s.sec.intakes.find? fun i => i.chan == ch.val with
  | none => .next s
  | some i =>
    let drop (t : State) : State := t.modSec fun x => { x with intakes := x.intakes.filter fun j => j.chan != ch.val }
    if !(s.on (Reg.SEC_WKEY_SLOT_VALID i.slot) && s.get (Reg.SEC_WKEY_SLOT_CONTEXT i.slot) == i.ctx) then .next ((drop s).intakeReply i.chan 3 0)
    else
      let chunks := blob.take i.count
      let r := State.intakeChunks i e (s.meetErrs (some i.ctx) (fun _ => true) e).engineOn i.written (chunks.drop i.written)
      let vas := chunks.mapIdx fun k b => (List.range (ceilDiv b.1.length 65536)).map fun j => i.va + 1048576 * k + 65536 * j
      let t := (r.1.fillTlb i.ctx vas.flatten).engineOff
      match r.2.2 with
      | none => .next (t.modSec fun x => { x with intakes := x.intakes.map fun j => if j.chan == ch.val then { j with written := r.2.1 } else j })
      | some st => .next ((drop t).intakeReply i.chan st r.2.1)

end Sys2Proof.Machine
end

