-- ==== Sys2Proof/Machine/Power.lean ====
section
/-! DEFINITION. Duty gating and its caps (R468–R470), the power readings (R463), Midnight capture (R471–R473), and the
TRIG_IN, TIME_REF and PPS_IN pins (R485, R486). -/
namespace Sys2Proof.Machine

/-! ### Duty (R469) -/

/-- A cap lies between MIN_DUTY and 64. -/
def State.clampCap (s : State) (n : Int) : Nat := (max (s.get Reg.SEC_DUTY_CFG_MIN_DUTY : Int) (min 64 n)).toNat

/-- A cap lowered or raised by its step. -/
def State.capDown (s : State) (n : Nat) : Nat := s.clampCap ((n : Int) - s.get Reg.SEC_DUTY_CFG_STEP_DOWN)
def State.capUp (s : State) (n : Nat) : Nat := s.clampCap ((n : Int) + s.get Reg.SEC_DUTY_CFG_STEP_UP)

/-- Each die's level is the lowest of its caps; while 48 V is low the module runs at MIN_DUTY (R478). A level that falls
below 64 sets THROTTLE. -/
def State.applyDuty (s : State) : State :=
  let hot := (List.range 9).any fun m => s.get (refreshFld m) == 2
  let mem := if hot then s.clampCap 32 else 64
  let low := if s.pins.under.isSome then s.clampCap 0 else 64
  let level (d : Nat) : Nat :=
    s.clampCap (min (min s.pow.powerCap (sget (fun _ => 64) s.pow.tempCap d)) (min mem (min s.pow.curCap low)) : Nat)
  let fell := (List.range 4).any fun d => level d < 64 && s.duty d ≥ 64
  ((s.setDuty level).when fell fun t => t.mark Reg.SEC_EVENT_THROTTLE).refreshPower

/-- The power cap of an interval whose average input power is known (R469). -/
def State.powerStep (s : State) : State :=
  let n := s.pow.n256
  let limit := s.get Reg.SEC_PWR_LIMIT_WATTS
  if n = 0 then s
  else if s.pow.sum256 > limit * n then
    (s.modPow fun x => { x with powerCap := s.capDown x.powerCap }).mark Reg.SEC_EVENT_PWR_LIMIT
  else if s.pow.sum256 < (limit - s.get Reg.SEC_PWR_LIMIT_HYST_W) * n then s.modPow fun x => { x with powerCap := s.capUp x.powerCap }
  else s.modPow fun x => { x with powerCap := s.clampCap x.powerCap }

/-- The temperature cap of a die (R469). -/
def State.tempStep (s : State) (d temp : Nat) : State :=
  let old := sget (fun _ => 64) s.pow.tempCap d
  let new := if temp ≥ s.get Reg.SEC_DUTY_CFG_TJ_THROTTLE then s.capDown old
    else if temp < s.get Reg.SEC_DUTY_CFG_TJ_RELEASE then s.capUp old else s.clampCap old
  (s.modPow fun x => { x with tempCap := sset (fun _ => 64) x.tempCap d new }).when (temp ≥ s.get Reg.SEC_DUTY_CFG_TJ_THROTTLE)
    fun t => t.mark Reg.SEC_EVENT_THERMAL

/-- DUTY_UPDATE (R469): at a tick whose counter is a multiple of 256; `temps` are the dies' hottest sensors in °C. -/
def execDutyUpdate (temps : Word) (s : State) : Host.Outcome State Fault Refusal :=
  if !s.atMultiple 256 || s.pow.dutyLast == s.now || 6 < s.time.pos || s.powerNow < 2 then .next s
  else
    let s1 := ((s.turn 6).setReg Reg.SEC_TEMP temps).powerStep
    let s2 := s1.each (List.range 4) fun t d => t.tempStep d (bitsOf temps.toNat (8 * d) 8)
    let s3 := s2.modPow fun x => { x with
      curCap := if x.curDue.isSome then s2.clampCap x.curCap else s2.capUp x.curCap
      curDue := none, sum256 := 0, n256 := 0, dutyLast := s.now }
    .next s3.applyDuty

/-- OVERCURRENT (R469): a frame whose input current exceeded 82 A; the current cap is MIN_DUTY from this tick. -/
def execOvercurrent (s : State) : Host.Outcome State Fault Refusal :=
  let s1 := s.modPow fun x => { x with curCap := s.clampCap 0, curDue := some s.now }
  .next (s1.mark Reg.SEC_EVENT_OVERCURRENT).applyDuty

/-- The average of the second, to the nearest multiple of 25 W, ties up (R463). -/
def round25 (sum n : Nat) : Nat := (2 * sum + 25 * n) / (50 * n) * 25

/-- POWER_AVG_UPDATE (R463): at a tick whose counter is a multiple of 244,141. -/
def execPowerAvgUpdate (s : State) : Host.Outcome State Fault Refusal :=
  if !s.atMultiple 244141 || s.pow.secLast == s.now || s.pow.nSec == 0 then .next s
  else .next (s.modPow fun x => { x with second := round25 x.sumSec x.nSec, sumSec := 0, nSec := 0, secLast := s.now })

/-! ### Midnight capture (R471–R473) -/

/-- What a request for a capture meets (R473): it arms or merges, or it conflicts. -/
def State.armCapture (s : State) (frame src : Nat) (snap : Option Nat) : Option State :=
  match s.snp.armed with
  | none => some { s.mark Reg.SNP_STATUS_ARMED with snp := { s.snp with armed := some { frame := frame, src := src, snaps := snap.toList } } }
  | some a =>
    if a.frame = frame then some { s with snp := { s.snp with armed := some { a with snaps := a.snaps ++ snap.toList } } }
    else none

/-- A request refused for another armed frame. -/
def State.captureConflict (s : State) : State := (s.bump Reg.SNP_CONFLICT_CNT_COUNT).mark Reg.SNP_EVENT_CONFLICT

/-- A request other than a SNAP: ignored on a conflict. -/
def State.askCapture (s : State) (frame src : Nat) : State := (s.armCapture frame src none).getD s.captureConflict

/-- The lead of captures, at least 3 (R476). -/
def State.snpLead (s : State) : Nat := max 3 (s.get Reg.SNP_CTRL_LEAD)

/-- The capture announcement of this module, a small broadcast (R472). -/
def State.announceCapture (s : State) (frame : Nat) : State := s.svcCast (.capture frame)

/-- SNAP (R472, R473): arms its frame; rejected with PERMISSION on a conflict or where its frame has come too near. -/
def execSnap (ring : Fin 256) (s : State) : Host.Outcome State Fault Refusal :=
  match s.ready ring.val 10 with
  | none => .next s
  | some o =>
    let slice := descBytes o.desc 16 1 == 1
    let f0 := descBytes o.desc 24 8
    let f := if f0 = 0 then (if slice then s.frame + s.snpLead else s.frame + 2) else f0
    let bad (t : State) : State := (t.raise (o.faultRec fPermission 6 0 [(1, 10), (8, 0)])).reject o fPermission
    if !s.snapFrameOk o.desc then .next (bad s)
    else match s.armCapture f 0 (some o.order) with
      | none => .next (bad s.captureConflict)
      | some t => .next ((t.issue o 0).when slice fun u => u.announceCapture f)

/-- A write of SNP_ARM_HI (R472). -/
def State.writeSnpArm (s : State) (v : Nat) : State :=
  let s1 := s.put Reg.SNP_ARM_HI_FRAME_HI v
  let f := s1.get64 Reg.SNP_ARM_LO_FRAME_LO Reg.SNP_ARM_HI_FRAME_HI
  if f ≤ s.frame then s1.mark Reg.SNP_EVENT_LATE else s1.askCapture f 1

/-- SNP_ARM_WRITE (R472): by the host or by firmware. -/
def execSnpArmWrite (v : Word) (s : State) : Host.Outcome State Fault Refusal := .next (s.writeSnpArm v.toNat)

/-- CAPTURE_ANNOUNCE (R304, R472). -/
def execCaptureAnnounce (frame : BitVec 64) (s : State) : Host.Outcome State Fault Refusal :=
  if frame.toNat ≤ s.frame then .next ((s.mark Reg.SNP_EVENT_LATE).mark Reg.SWT_EVENT_LATE_ANNOUNCE)
  else .next (s.askCapture frame.toNat 3)

/-- MIDNIGHT_CAPTURE (R471–R473): at the capture tick, at which TRIG_OUT pulses; `reading` says that the running dump reads capture
sets, and then no block latches. -/
def execMidnightCapture (reading : Bool) (s : State) : Host.Outcome State Fault Refusal :=
  match s.snp.armed with
  | none => .next s
  | some a =>
    if s.frame < a.frame || 2 < s.time.pos then .next s
    else
      let s0 := { (s.turn 2).put Reg.SNP_STATUS_ARMED 0 with snp := { s.snp with armed := none } }
      let s1 := s0.when (s.on Reg.SNP_CTRL_TRIG_OUT_EN) fun t => t.emit .trigOut
      let ops := a.snaps.filterMap s1.opNo?
      if reading && s.hrc.running.isSome then
        let s2 := (s1.bump Reg.SNP_MISSED_CNT_COUNT).mark Reg.SNP_EVENT_MISSED
        .next (s2.each ops fun t o => t.faultOp o fFrameOverrun 6 0 [(4, o.budget), (4, o.frames), (8, o.units), (4, o.substep), (1, 10)])
      else
        let s2 := ((s1.bump Reg.SNP_CAPTURE_CNT_COUNT).mark Reg.SNP_EVENT_CAPTURED).mark Reg.SNP_STATUS_VALID
        let s3 := (s2.put Reg.SNP_STATUS_LAST_SRC a.src).put64 Reg.SNP_LAST_LO_FRAME Reg.SNP_LAST_HI_FRAME a.frame
        .next (({ s3 with snp := s3.capture }).each ops fun t o => t.finish o stDone 0)

/-! ### TRIG_IN (R485) -/

/-- TRIG_IN_EDGE (R472, R485): a short pulse, an edge within 4 frames of an accepted one, and an edge while the pin is
stuck arm nothing; the first two are counted. -/
def execTrigInEdge (short : Bool) (s : State) : Host.Outcome State Fault Refusal :=
  let s0 := s.when (!short) fun t => t.mark Reg.GLB_STATUS_TRIG_IN
  if short || (s.pins.trigAt.map fun t => decide (s.now < t + 4)) == some true then
    .next ((s0.bump Reg.GLB_TRIG_IGN_CNT_COUNT).mark Reg.GLB_EVENT_TRIG_IGNORED)
  else if s.on Reg.GLB_STATUS_TRIG_STUCK then .next s0
  else
    let s1 := s0.modPins fun x => { x with trigAt := some s.now }
    if !s.on Reg.SNP_CTRL_TRIG_IN_EN then .next s1
    else if s.on Reg.SNP_CTRL_TRIG_SLICE then
      let f := s.frame + s.snpLead
      match s1.armCapture f 2 none with
      | some t => .next (t.announceCapture f)
      | none => .next s1.captureConflict
    else .next (s1.askCapture (s.frame + 2) 2)

/-- TRIG_IN_STUCK (R485): the pin has been high for 1 s. -/
def execTrigInStuck (s : State) : Host.Outcome State Fault Refusal :=
  .next ((s.mark Reg.GLB_STATUS_TRIG_STUCK).mark Reg.GLB_EVENT_TRIG_STUCK)

/-! ### The external reference (R485, R486) -/

/-- REF_VALID is cleared, and with it the run of accepted edges. -/
def State.refLost (s : State) : State :=
  if s.on Reg.GLB_STATUS_REF_VALID then ((s.put Reg.GLB_STATUS_REF_VALID 0).mark Reg.GLB_EVENT_REF_LOSS) else s

/-- TIME_REF_LOSS (R485): no edge for 1 µs. -/
def execTimeRefLoss (s : State) : Host.Outcome State Fault Refusal := .next s.refLost

/-- TIME_REF_FREQ_FAULT (R485): outside ±20 ppm over 1 ms. -/
def execTimeRefFreqFault (s : State) : Host.Outcome State Fault Refusal := .next s.refLost

/-- TIME_REF_RECOVER (R485): the first PPS_IN edge after it is accepted. -/
def execTimeRefRecover (s : State) : Host.Outcome State Fault Refusal :=
  if s.on Reg.GLB_STATUS_REF_VALID then .next s
  else .next ((s.mark Reg.GLB_STATUS_REF_VALID).modPins fun x => { x with ppsAt := none, ppsRun := 0 })

/-- PPS_VALID_TIMEOUT (R486): 1.5 s without an accepted edge. -/
def execPpsValidTimeout (s : State) : Host.Outcome State Fault Refusal :=
  .next ((s.put Reg.GLB_STATUS_PPS_VALID 0).modPins fun x => { x with ppsRun := 0 })

end Sys2Proof.Machine
end

