-- ==== Sys2Proof/Machine/Dawn.lean ====
section
/-! DEFINITION. Supplies, body and reset pin (R467, R470, R477–R479, R487), Dawn and the relay (R489–R491), the I3C port
(R483), firmware download and hand-over (R454, R493–R497), and calibration (R498). -/
namespace Sys2Proof.Machine

/-! ### Power down (R467, R470, R487) -/

/-- Every mark of both halves is cleared, and a load in progress is abandoned (R487, R493). -/
def State.clearImages (s : State) : State :=
  (((s.modFw fun _ => {}).setReg Reg.GLB_FW_STATUS 0).put Reg.GLB_FW_CTRL_LOAD 0).put Reg.GLB_FW_CTRL_SWAP 0

/-- Contexts end, the bypass closes, firmware stops, the PCIe link goes down and everything outside the always-on
domain is reset or unpowered (R467, R470, R487); a Dawn or a recovery that ran is abandoned. -/
def State.powerDown (s : State) (cause : Nat) : State :=
  let s1 := (s.endContexts.closeAll.stopFirmware).resetDomain.clearImages
  let s2 := (s1.put Reg.HRC_STATUS_RECOVERING 0).modHrc fun h => { h with inRecovery := false }
  let s3 := s2.modPins fun x => { x with dawn := false, pcieUp := false, configReady := false, enableTick := false }
  let s4 := (s3.modSec fun x => { x with intakes := [] }).modPow fun x => { x with last := 0, sum256 := 0, n256 := 0, sumSec := 0, nSec := 0 }
  (s4.put Reg.GLB_RESET_CAUSE_CAUSE cause).put Reg.GLB_STATUS_RELAY 0

/-- The registers that a loss of the 12 V rail leaves: what Idfort's storage holds, and the positions of the latching
bypass switches. -/
def State.coldRegs (s : State) : State :=
  let s0 : State := { s with regs := s.regs.filter fun e => 0x800170 ≤ e.1 && e.1 < 0x800180 }
  let s1 := ((s0.put Reg.SEC_STATUS_SEC_STATE s.secState).put Reg.SEC_FW_STATUS_SVN_MIN (s.get Reg.SEC_FW_STATUS_SVN_MIN)).put
    Reg.HRC_STATUS_OUT_OF_SERVICE (s.get Reg.HRC_STATUS_OUT_OF_SERVICE)
  let s2 := s1.each (List.range 8) fun t b => t.put (Reg.OPT_BYP_STATUS_POSITION b) (s.get (Reg.OPT_BYP_STATUS_POSITION b))
  s2.each (List.range 22) fun t n => t.put (Reg.OPT_LC_STATUS_PRESENT n) (s.get (Reg.OPT_LC_STATUS_PRESENT n))

/-- Off (R467): the always-on domain is lost too; Idfort's persistent storage stays (R162, R239, R351, R357, R360, R361,
R388, R438, R440, R498), and a trip stays until the operator clears it (R470, R485). Every session and connection ends, a debug
session with its record (R464). -/
def State.turnOff (s : State) : State :=
  let s1 := (s.closeSession.powerDown 0).coldRegs
  { s1 with
    latch := []
    time := { ticks := s1.time.ticks }
    sub := {}
    hrc := { resetTimes := s1.hrc.resetTimes }
    opt := { pc := s1.opt.pc, calStore := s1.opt.calStore, byps := s1.opt.byps.map fun e => (e.1, { e.2 with listener := none }) }
    sec := { operator := s1.sec.operator, tenantView := s1.sec.tenantView, rollForward := s1.sec.rollForward,
             sessions := s1.sec.sessions, fuses := s1.sec.fuses, idfortSvn := s1.sec.idfortSvn,
             idfortDigest := s1.sec.idfortDigest, idfortMin := s1.sec.idfortMin }
    pow := {}
    pins := { s1.pins with under := none, i3c := none, trigAt := none, ppsRun := 0, ppsAt := none, loadsOff := false } }

/-- MAIN_48V_LOSS (R467, R478): Standby, or still Off without 12 V. -/
def State.lose48 (s : State) : State :=
  if !s.pins.v48 then s
  else
    let s1 := if s.powerNow ≥ 2 then s.powerDown 2 else s
    (s1.modPins fun x => { x with v48 := false, under := none }).applyDuty

def execMain48vLoss (s : State) : Host.Outcome State Fault Refusal := .next s.lose48

/-- MAIN_48V_APPLY (R478, R479): a start needs 46 V to 57 V; a running module is back in range from 44 V; above 57 V
and below 40 V the supply counts as lost. -/
def execMain48vApply (mv : BitVec 16) (s : State) : Host.Outcome State Fault Refusal :=
  let v := mv.toNat
  if !s.pins.v48 then
    if 46000 ≤ v && v ≤ 57000 then .next (s.modPins fun x => { x with v48 := true, under := none }).tryDawn else .next s
  else if v > 57000 || v < 40000 then .next s.lose48
  else if 44000 ≤ v && s.pins.under.isSome then .next (s.modPins fun x => { x with under := none }).applyDuty
  else .next s

/-- UNDERVOLT (R478): 48 V lies between 40 V and 44 V, and the module runs at MIN_DUTY. -/
def execUndervolt (s : State) : Host.Outcome State Fault Refusal :=
  if s.powerNow < 2 then .next s
  else .next ((s.modPins fun x => { x with under := x.under.or (some s.now) }).mark Reg.GLB_EVENT_UNDERVOLT).applyDuty

/-- STANDBY_12V_APPLY (R479): Idfort starts; with 48 V already present Dawn begins as if both rails had risen. -/
def execStandby12vApply (s : State) : Host.Outcome State Fault Refusal :=
  if s.pins.v12 then .next s else .next ((s.modPins fun x => { x with v12 := true }).modSec fun x => { x with idfortSince := s.now }).tryDawn

/-- STANDBY_12V_LOSS (R265, R467): Off. -/
def execStandby12vLoss (s : State) : Host.Outcome State Fault Refusal :=
  if !s.pins.v12 then .next s
  else .next ((if s.pins.body then s.turnOff else s).modPins fun x => { x with v12 := false }).refreshPower

/-- BODY_INSERT (R477, R479): the 48 V loads stay held off until the presence contact has been mated for 100 ms. -/
def execBodyInsert (s : State) : Host.Outcome State Fault Refusal :=
  if s.pins.body then .next s else .next ((s.modPins fun x => { x with body := true, mated := false }).modSec fun x => { x with idfortSince := s.now }).refreshPower

/-- BODY_REMOVE (R265, R477): the cassette's switches rest CLOSED, and the body has no supply. -/
def execBodyRemove (s : State) : Host.Outcome State Fault Refusal :=
  if !s.pins.body then .next s
  else .next ((if s.pins.v12 then s.turnOff else s).modPins fun x => { x with body := false, mated := false }).refreshPower

/-- PRESENCE_MATED (R479). -/
def execPresenceMated (s : State) : Host.Outcome State Fault Refusal :=
  if !s.pins.body || s.pins.mated then .next s else .next (s.modPins fun x => { x with mated := true }).tryDawn

/-- THERMAL_TRIP (R470): a die at 115 °C. The loads of 48 V are removed, THERM_TRIP_N falls, the bypass closes, and a CPER
health record is written. -/
def execThermalTrip (die : Fin 4) (temp : Byte) (s : State) : Host.Outcome State Fault Refusal :=
  if temp.toNat < 115 || s.powerNow < 2 then .next s
  else
    let s1 := s.put ⟨Reg.SEC_TEMP, 8 * die.val, 8⟩ temp.toNat
    let s2 := s1.cper { event := 5, fault := 0, unitKind := 2, unit := 0, frame := 0, module := 0, duty := s.duty die.val,
                        score := s.score 2000, scoreBefore := s.score 2000 }
    .next (((s2.powerDown 4).modPins fun x => { x with tripped := true, loadsOff := true, under := none }).emit .ibi).applyDuty

/-! ### MOD_RESET_N and the host port (R481, R487) -/

/-- MOD_RESET_N_ASSERT (R487): low for 1 µs. -/
def execModResetNAssert (s : State) : Host.Outcome State Fault Refusal :=
  if s.pins.resetLow then .next s
  else
    let s1 := if s.powerNow ≥ 2 then s.powerDown 1 else s.closeAll
    .next ((s1.modPins fun x => { x with resetLow := true, pcieUp := false, configReady := false, dawn := false }).refreshPower)

/-- MOD_RESET_N_RELEASE (R487, R489): Dawn begins, or begins again. -/
def execModResetNRelease (s : State) : Host.Outcome State Fault Refusal :=
  if !s.pins.resetLow then .next s else .next (s.modPins fun x => { x with resetLow := false }).tryDawn

/-- PCIE_CONFIG_READY (R481): 100 ms after the release, with MOD_PWR_OK asserted throughout. -/
def execPcieConfigReady (s : State) : Host.Outcome State Fault Refusal :=
  if s.pins.pcieUp && !s.pins.resetLow && s.on Reg.GLB_STATUS_PWR_OK then .next (s.modPins fun x => { x with configReady := true }) else .next s

/-! ### The relay (R489–R491) -/

/-- RELAY_READY (R489): near and board memory are trained and cleared, LC17 and the parked spare are lit, and every
λ17 ring is verified on its port's internal loopback. -/
def execRelayReady (s : State) : Host.Outcome State Fault Refusal :=
  if !s.pins.dawn || s.powerNow < 2 then .next s
  else
    let s1 := ((s.trainMemory.lightService).verifyRings [17]).mark Reg.GLB_STATUS_RELAY_READY
    .next (s1.modPins fun x => { x with dawn := false })

/-- RELAY_EXIT (R491): at the tick after firmware set ENABLE the active bank replaces static express, and a port is up
with every ring that its traffic needs. -/
def execRelayExit (s : State) : Host.Outcome State Fault Refusal :=
  if !s.on Reg.GLB_STATUS_RELAY || !s.on Reg.SWT_CTRL_ENABLE || !s.pins.enableTick then .next s
  else .next ((s.put Reg.GLB_STATUS_RELAY 0).each (List.range 16) fun t p => (t.put (Reg.OPT_PORT_STATUS_UP p) 0).refreshPort p)

/-- IDENTITY_REQUEST (R490): answered where the destination is SWT_ID. -/
def execIdentityRequest (src : BitVec 13) (dest : BitVec 13) (s : State) : Host.Outcome State Fault Refusal :=
  if dest.toNat == s.moduleId && s.powerNow ≥ 2 && !s.pins.resetLow then
    .next (s.emit (.identity src.toNat [s.moduleId, 0x4816, s.get Reg.GLB_SERIAL_LO_SERIAL, s.get Reg.GLB_SERIAL_HI_SERIAL, s.score 2000]))
  else .next s

/-! ### I3C (R483) -/

/-- The status record. -/
def State.i3cRecord (s : State) : List Byte :=
  leBytes 2 0x4816 ++ leBytes 4 (s.get Reg.GLB_SERIAL_LO_SERIAL) ++ leBytes 4 (s.get Reg.GLB_SERIAL_HI_SERIAL)
    ++ leBytes 1 s.secState ++ leBytes 1 (s.get Reg.SEC_STATUS_POWER) ++ leBytes 4 (s.reg Reg.SEC_TEMP).toNat ++ leBytes 2 s.pow.last
    ++ leBytes 1 (b2n s.pins.tripped + 2 * s.get Reg.HRC_STATUS_OUT_OF_SERVICE) ++ List.replicate 13 0

/-- I3C_PRIVATE_READ (R483): in every state except Off. -/
def execI3cPrivateRead (s : State) : Host.Outcome State Fault Refusal :=
  if s.idfortUp then .next (s.emit (.i3c s.i3cRecord)) else .next s

/-- The target takes a dynamic address. -/
def State.i3cAddress (s : State) (a : Nat) : State := if s.idfortUp then s.modPins fun x => { x with i3c := some a } else s

/-- ENTDAA (R483). -/
def execEntdaa (addr : BitVec 7) (s : State) : Host.Outcome State Fault Refusal := .next (s.i3cAddress addr.toNat)

/-- SETDASA (R483): to the static address 0x3A. -/
def execSetdasa (addr : BitVec 7) (s : State) : Host.Outcome State Fault Refusal := .next (s.i3cAddress addr.toNat)

/-! ### Firmware images (R454, R493, R494) -/

/-- The marks of a half. -/
def fwLoaded (h : Nat) : Reg.Fld := if h = 0 then Reg.GLB_FW_STATUS_LOADED_A else Reg.GLB_FW_STATUS_LOADED_B
def fwVerified (h : Nat) : Reg.Fld := if h = 0 then Reg.GLB_FW_STATUS_VERIFIED_A else Reg.GLB_FW_STATUS_VERIFIED_B
def fwGood (h : Nat) : Reg.Fld := if h = 0 then Reg.GLB_FW_STATUS_GOOD_A else Reg.GLB_FW_STATUS_GOOD_B

def State.setImage (s : State) (h : Nat) (i : Option FwImage) : State :=
  s.modFw fun f => if h = 0 then { f with imageA := i } else { f with imageB := i }

def State.fwRuns (s : State) : Bool := s.on Reg.SEC_STATUS_FW_STARTED || s.fw.start.isSome

/-- The half that runs, or is about to. -/
def State.runningHalf (s : State) : Option Nat :=
  if s.on Reg.SEC_STATUS_FW_STARTED then some (s.get Reg.SEC_STATUS_FW_HALF) else s.fw.start.map (·.1)

/-- Why a LOAD of a half is refused (R494). -/
def State.loadRefused (s : State) (h : Nat) : Bool :=
  let n := s.get Reg.GLB_FW_LEN_BYTES
  s.on Reg.GLB_FW_STATUS_BUSY || n == 0 || n > 0x200000 || n % 64 != 0 || s.runningHalf == some h
    || (s.fw.swap.isSome && s.runningHalf == some (1 - h))

/-- LOAD of a half (R493): the copy begins, and the half's marks go with the image that it held. -/
def State.loadFw (s : State) (h : Nat) : State :=
  if s.loadRefused h then s.put Reg.GLB_FW_STATUS_RESULT 6
  else
    let s1 := (((s.put (fwLoaded h) 0).put (fwVerified h) 0).put (fwGood h) 0).setImage h none
    let src := s.get Reg.GLB_FW_SRC_LO_ADDR_LO * 4096 + s.get Reg.GLB_FW_SRC_HI_ADDR_HI * 2 ^ 32
    ((s1.mark Reg.GLB_FW_CTRL_LOAD).mark Reg.GLB_FW_STATUS_BUSY).modFw fun f => { f with load := some (h, src, s.get Reg.GLB_FW_LEN_BYTES) }

/-- START of a half (R493, R494): the control processors begin at the next tick. -/
def State.startFw (s : State) (h : Nat) : State :=
  if s.fwRuns || !s.on (fwVerified h) then s.put Reg.GLB_FW_STATUS_RESULT 6
  else s.modFw fun f => { f with start := some (h, s.now + 1) }

/-- SWAP (R496, R497): armed for its frame, or refused. -/
def State.swapFw (s : State) : State :=
  let f := s.get64 Reg.GLB_FW_SWAP_LO_FRAME Reg.GLB_FW_SWAP_HI_FRAME
  let other := 1 - s.get Reg.SEC_STATUS_FW_HALF
  if !s.on Reg.SEC_STATUS_FW_STARTED || !s.on (fwVerified other) || f < s.frame + 2 || s.fw.swap.isSome then s
  else ((s.mark Reg.GLB_FW_CTRL_SWAP).mark Reg.GLB_FW_STATUS_SWAP_PENDING).modFw fun x => { x with swap := some f }

/-- A write of GLB_FW_CTRL (R501): SWAP is firmware's alone. -/
def State.writeFwCtrl (s : State) (p : Party) (v : Nat) : State :=
  let s1 := s.put Reg.GLB_FW_CTRL_HALF v
  let s2 := s1.when (bitOn v 1) fun t => t.loadFw (v % 2)
  let s3 := s2.when (bitOn v 2) fun t => t.startFw (v % 2)
  s3.when (bitOn v 3) fun t => if p.fw then t.swapFw else t.mark Reg.SUB_EVENT_HOST_DENIED

/-- FW_LOAD (R493, R494). -/
def execFwLoad (p : Party) (v : Word) (s : State) : Host.Outcome State Fault Refusal := .next (s.byCp p fun t => t.writeFwCtrl p v.toNat)

/-- FW_START (R493, R494). -/
def execFwStart (p : Party) (v : Word) (s : State) : Host.Outcome State Fault Refusal := .next (s.byCp p fun t => t.writeFwCtrl p v.toNat)

/-- FW_SWAP (R496, R497). -/
def execFwSwap (p : Party) (v : Word) (s : State) : Host.Outcome State Fault Refusal := .next (s.byCp p fun t => t.writeFwCtrl p v.toNat)

/-- The result of a verification against a fused minimum (R454, R475). -/
def State.verifyImage (s : State) (i : ImageCheck) (key min : Nat) : Nat :=
  if !i.sigOk then 2 else if s.keyRevoked key then 3 else if i.svn.toNat < min then 4 else if i.malformed then 5 else 1

/-- An image refused by verification. -/
def State.rejectImage (s : State) (r : Nat) : State := (s.mark Reg.SEC_EVENT_FW_REJECT).put Reg.SEC_FW_STATUS_RESULT r

/-- FW_LOAD_DONE (R454, R493): the copy ends and Idfort verifies the image; in Decommissioned every image is refused, with
a reason that the manual does not give. -/
def execFwLoadDone (i : ImageCheck) (s : State) : Host.Outcome State Fault Refusal :=
  match s.fw.load with
  | none => .next s
  | some (h, _, _) =>
    let s1 := ((s.put Reg.GLB_FW_STATUS_BUSY 0).put Reg.GLB_FW_CTRL_LOAD 0).modFw fun f => { f with load := none }
    if i.readError then .next (s1.put Reg.GLB_FW_STATUS_RESULT 7)
    else
      let s2 := (s1.mark (fwLoaded h)).setImage h (some ⟨i.svn.toNat, i.digest.toNat⟩)
      let r := s2.verifyImage i i.key.val (s2.get Reg.SEC_FW_STATUS_SVN_MIN)
      if r = 1 && s2.secState == 3 then
        let f := s2.fresh
        .next ((f.2.rejectImage (2 + f.1 % 4)).put Reg.GLB_FW_STATUS_RESULT (2 + f.1 % 4))
      else if r = 1 then .next (((s2.mark (fwVerified h)).put Reg.SEC_FW_STATUS_RESULT 1).put Reg.GLB_FW_STATUS_RESULT 1)
      else .next ((s2.rejectImage r).put Reg.GLB_FW_STATUS_RESULT r)

/-! ### Hand-over (R496, R497) -/

/-- FW_HANDOVER (R496): at its frame the other half runs, and the watchdog restarts at its full limit. -/
def execFwHandover (s : State) : Host.Outcome State Fault Refusal :=
  match s.fw.swap with
  | none => .next s
  | some f =>
    if s.frame < f || !s.on Reg.SEC_STATUS_FW_STARTED then .next s
    else
      let s1 := ((s.put Reg.GLB_FW_CTRL_SWAP 0).put Reg.GLB_FW_STATUS_SWAP_PENDING 0).modFw fun x => { x with swap := none }
      .next ((s1.runFirmware (1 - s.get Reg.SEC_STATUS_FW_HALF)).mark Reg.GLB_EVENT_FW_SWAP_DONE)

/-- FW_GOOD (R497): the running half has kicked the watchdog for 244,141 frames. -/
def execFwGood (s : State) : Host.Outcome State Fault Refusal :=
  let h := s.get Reg.SEC_STATUS_FW_HALF
  if !s.on Reg.SEC_STATUS_FW_STARTED || s.now < s.fw.since + 244141 then .next s
  else .next ((s.mark (fwGood h)).put (fwGood (1 - h)) 0)

/-- IDFORT_FW_UPDATE (R455, R495): verified with its own keys and SVN, stored, and Idfort restarts: its sessions and
connections end, and nothing functional changes. -/
def execIdfortFwUpdate (i : ImageCheck) (s : State) : Host.Outcome State Fault Refusal :=
  if !s.idfortUp || i.readError then .next s
  else
    let r := s.verifyImage i (4 + i.key.val) s.sec.idfortMin
    if r != 1 then .next (s.rejectImage r)
    else .next (s.modSec fun x => { x with idfortSvn := i.svn.toNat, idfortDigest := i.digest.toNat, idfortSince := s.now, spdm := [], conns := [], offers := [] })

/-! ### Calibration (R498) -/

/-- A calibration ends. -/
def State.calEnd (s : State) (ok : Bool) : State :=
  let s1 := (s.put Reg.GLB_CAL_CTRL_BUSY 0).modOpt fun o => { o with cal := none, calMeasured := false, calOld := [] }
  if ok then (s1.mark Reg.GLB_CAL_CTRL_DONE).mark Reg.GLB_EVENT_CAL_DONE else (s1.mark Reg.GLB_CAL_CTRL_FAIL).mark Reg.GLB_EVENT_CAL_FAIL

/-- The rings of both buses of a port. -/
def portRings (p : Nat) : List Nat := (List.range 36).map (36 * p + ·)

/-- GO of a ring calibration: within a gap every ring of the port sweeps as in attempt 1, all together. -/
def State.calRings (s : State) (p : Nat) : State :=
  if 16 ≤ p || !s.on (Reg.OPT_PORT_STATUS_GAP p) then s.calEnd false
  else
    let old := (portRings p).map fun k => (k, (s.tuner k).hcal)
    (s.modOpt fun o => { o with cal := some (0, p, s.now), calOld := old }).each (portRings p) fun t k => t.startSweep k 1

/-- GO of a cartridge's measurement: the planned swap of its wavelength to a spare begins. -/
def State.calLaser (s : State) (n : Nat) : State :=
  if 18 ≤ n || s.get (Reg.OPT_WL_SRC_SOURCE n) != n || s.on (Reg.OPT_LC_STATUS_WARN n) || (s.swapOf n).isSome then s.calEnd false
  else match s.pickSpare n with
    | none => s.calEnd false
    | some k => (s.modOpt fun o => { o with cal := some (1, n, s.now), calMeasured := false }).beginSwap { lam := n, old := n, new := k, start := s.now, cal := true }

/-- A write of GLB_CAL_CTRL: GO is ignored while a calibration runs. -/
def State.writeCalCtrl (s : State) (v : Nat) : State :=
  let s1 := (s.put Reg.GLB_CAL_CTRL_KIND v).put Reg.GLB_CAL_CTRL_INDEX (bitsOf v 1 5)
  if !bitOn v 6 || s.on Reg.GLB_CAL_CTRL_BUSY then s1
  else
    let s2 := ((s1.mark Reg.GLB_CAL_CTRL_BUSY).put Reg.GLB_CAL_CTRL_DONE 0).put Reg.GLB_CAL_CTRL_FAIL 0
    if bitOn v 0 then s2.calLaser (bitsOf v 1 5) else s2.calRings (bitsOf v 1 5)

/-- CAL_PORT_RINGS (R498). -/
def execCalPortRings (p : Party) (v : Word) (s : State) : Host.Outcome State Fault Refusal := .next (s.fwOnly p fun t => t.writeCalCtrl v.toNat)

/-- CAL_CARTRIDGE (R498). -/
def execCalCartridge (p : Party) (v : Word) (s : State) : Host.Outcome State Fault Refusal := .next (s.fwOnly p fun t => t.writeCalCtrl v.toNat)

/-- The H_CALs that the rings had before a failed calibration. -/
def State.restoreCal (s : State) : State := s.each s.opt.calOld fun t e => t.modTuner e.1 fun r => { r with hcal := e.2 }

/-- The new H_CALs of a port's rings go to Idfort's storage. -/
def State.storeCal (s : State) (p : Nat) : State :=
  s.each (portRings p) fun t k => t.modOpt fun o => { o with calStore := sset (fun _ => none) o.calStore k (s.tuner k).hcal }

/-- CAL_DONE (R498): a ring calibration succeeds once every ring is VERIFIED after its first attempt, and fails with the
first ring that is not; a cartridge's ends with its swaps. -/
def execCalDone (s : State) : Host.Outcome State Fault Refusal :=
  match s.opt.cal with
  | none => .next s
  | some (0, p, _) =>
    let l := (portRings p).map s.tuner
    if l.all fun r => r.st == 4 && r.attempt == 0 then .next ((s.storeCal p).calEnd true)
    else if l.any fun r => r.st == 6 || r.attempt ≥ 2 then .next (s.restoreCal.calEnd false)
    else .next s
  | some (_, n, _) =>
    if (s.swapOf n).isSome then .next s
    else .next (s.calEnd (s.opt.calMeasured && s.get (Reg.OPT_WL_SRC_SOURCE n) == n))

end Sys2Proof.Machine
end

