-- ==== Sys2Proof/Machine/Time.lean ====
section
/-! DEFINITION. Fabric time (R22–R40, R47): the frame counter, time messages, the choice of a parent, lock, master and
deputy, holdover and time steps, and PPS_IN (R35, R485, R486). -/
namespace Sys2Proof.Machine

def State.modTime (s : State) (f : TimeSt → TimeSt) : State := { s with time := f s.time }

def State.isMaster (s : State) : Bool := s.on Reg.FTB_STATUS_MASTER

/-- A tick as a stamp: frames of 8,192 hub cycles, in 1/64 cycle (R17, R26). -/
def stampOf (frame : Nat) : Nat := frame * 524288

/-! ### Time messages (R26, R32) -/

/-- This module is the master under a new epoch: the highest seen plus one (R31, R47). It is no follower any more, so
holdover (R36) ends; HOLD_CNT keeps the count of the last one. Log entry 16. -/
def State.becomeMaster (s : State) : State :=
  let e := (s.time.hiEpoch + 1) % 65536
  let s1 := ((s.mark Reg.FTB_STATUS_MASTER).put Reg.FTB_MASTER_MASTER_ID s.moduleId).put Reg.FTB_MASTER_EPOCH e
  ((((s1.mark Reg.FTB_EVENT_MASTER_CHANGE).put Reg.FTB_STATUS_DEPTH 0).put Reg.FTB_STATUS_DEPTH_OVER 0).put Reg.FTB_STATUS_HOLDOVER 0).modTime fun t =>
    { t with hiEpoch := e, hasParent := false, stale := false, promoteDue := false, stepDue := none }

/-- The time message of a port that departs at a stamp. A master stamps its own frame. -/
def State.timeMsg (s : State) (p depart : Nat) : TimeMsg :=
  { depart := BitVec.ofNat 64 depart, arrived := BitVec.ofNat 64 (s.nbr p).arrival
    master := BitVec.ofNat 13 (s.get Reg.FTB_MASTER_MASTER_ID), epoch := BitVec.ofNat 16 (s.get Reg.FTB_MASTER_EPOCH)
    depth := BitVec.ofNat 6 (s.get Reg.FTB_STATUS_DEPTH), locked := s.isMaster || s.on Reg.FTB_STATUS_LOCKED
    origin := BitVec.ofNat 64 (if s.isMaster then s.frame else s.time.origin) }

/-- The time messages of a frame: one per port whose service lane works, departing at a stamp (R26, R47). -/
def State.sendTimes (s : State) (depart : Nat) : State :=
  if !s.on Reg.FTB_CTRL_ENABLE then s
  else (s.each ((List.range 16).filter s.serviceUp) fun t p =>
    (t.svcOut p (.time (t.timeMsg p depart))).setNbr p { t.nbr p with sent := depart, sentAny := true, sentPrev := if (t.nbr p).sentAny then some (t.nbr p).sent else none }).modTime
      fun t => { t with sentNow := true }

/-- The cut-through of a relayed master-origin frame: 24 ns in 1/64 hub cycle (R30). -/
def cutThrough : Nat := 3072

/-- A follower that learns a newer master-origin frame, or a winning master, passes it on within the frame (R27, R30):
these are its time messages of the frame. -/
def State.relayTimes (s old : State) (arrival : Nat) : State :=
  if s.isMaster || s.time.sentNow then s
  else if s.time.origin = old.time.origin && s.reg Reg.FTB_MASTER == old.reg Reg.FTB_MASTER then s
  else s.sendTimes (arrival + cutThrough)

/-- A master wins over another by its epoch, and on equal epochs by the lower module ID (R32). -/
def wins (e m e' m' : Nat) : Bool := e' < e || (e == e' && m < m')

/-- A follower takes the master that a message names, if it wins over the one known, and the newest frame that the
master stamped (R26, R27, R32). -/
def State.learnMaster (s : State) (m : TimeMsg) : State :=
  let e := m.epoch.toNat
  let s1 := s.modTime fun t => { t with hiEpoch := max t.hiEpoch e }
  let cur := s1.get Reg.FTB_MASTER_EPOCH
  if s1.isMaster then s1
  else if wins e m.master.toNat cur (s1.get Reg.FTB_MASTER_MASTER_ID) then
    (((s1.put Reg.FTB_MASTER_MASTER_ID m.master.toNat).put Reg.FTB_MASTER_EPOCH e).mark Reg.FTB_EVENT_MASTER_CHANGE).modTime
      fun t => { t with origin := m.origin.toNat }
  else if e == cur && m.master.toNat == s1.get Reg.FTB_MASTER_MASTER_ID then
    s1.modTime fun t => { t with origin := max t.origin m.origin.toNat }
  else s1

/-- Offset and delay to a neighbour (R26), twice their values, in 1/64 hub cycle. -/
def timeOffset2 (t1 t2 t3 t4 asym : Int) : Int := (t2 - t1) - (t4 - t3) - asym
def timeDelay2 (t1 t2 t3 t4 : Int) : Int := (t2 - t1) + (t4 - t3)

/-- The departure of this module's message that a message of the neighbour answers, t3: of the last two the newest that gives no
negative delay. Its own arrival stamp tells which it was only in this way: DEDUCED (log entry 16). -/
def Nbr.answered (n : Nbr) (t1 t2 t4 : Int) : Option Nat :=
  ((if n.sentAny then [n.sent] else []) ++ n.sentPrev.toList).find? fun (t3 : Nat) => decide (0 ≤ timeDelay2 t1 t2 t3 t4)

/-- What a message tells of the neighbour of a port. -/
def State.heard (s : State) (p : Nat) (m : TimeMsg) (arrival : Nat) : Nbr :=
  let n := s.nbr p
  let asym := signed 16 (s.get (Reg.FTB_PORT_ASYM_ASYM p))
  let t1 : Int := m.depart.toNat
  let t2 : Int := arrival
  let t4 : Int := m.arrived.toNat
  let x := { n with
    seen := true, locked := m.locked, master := m.master.toNat, epoch := m.epoch.toNat, depth := m.depth.toNat
    origin := m.origin.toNat, depart := m.depart.toNat, arrival := arrival }
  match n.answered t1 t2 t4 with
  | some t3 => { x with off2 := timeOffset2 t1 t2 t3 t4 asym, delay2 := timeDelay2 t1 t2 t3 t4, measured := true, heard := true }
  | none => x

/-- TIME_MESSAGE_RECEIVE (R26, R27): the offset to the parent, half an odd number of units rounded either way. -/
def execTimeMessageReceive (port : Fin 16) (m : TimeMsg) (arrival : BitVec 64) (s : State) : Host.Outcome State Fault Refusal :=
  let p := port.val
  if !s.on Reg.FTB_CTRL_ENABLE || !s.serviceUp p then .next s
  else
    let s1 := ((s.setNbr p (s.heard p m arrival.toNat)).learnMaster m).relayTimes s arrival.toNat
    if s1.isMaster || !s1.time.hasParent || s1.get Reg.FTB_STATUS_PARENT != p then .next s1
    else
      let r := s1.fresh
      .next (r.2.put Reg.FTB_OFFSET_OFFSET (toField 32 (((s1.nbr p).off2 + (r.1 % 2 : Nat)) / 2)))

/-! ### The choice of a parent (R27) -/

/-- A neighbour is eligible: locked, of the master followed, with a master-origin frame of age at most 2, and of a
depth below 63. -/
def State.eligible (s : State) (p : Nat) : Bool :=
  let n := s.nbr p
  n.seen && n.locked && n.epoch == s.time.hiEpoch && n.master == s.get Reg.FTB_MASTER_MASTER_ID
    && (s.frame : Int) - n.origin ≤ 2 && n.depth < 63

/-- The eligible neighbour of the smallest depth, on a tie of the lowest port. -/
def State.bestParent (s : State) : Option Nat :=
  ((List.range 16).filter s.eligible).foldl (fun b p => match b with
    | none => some p
    | some q => if (s.nbr p).depth < (s.nbr q).depth then some p else some q) none

/-- DEPTH and DEPTH_OVER (R27, R30). -/
def State.setDepth (s : State) (d : Nat) : State :=
  let s1 := (s.put Reg.FTB_STATUS_DEPTH d).put Reg.FTB_STATUS_DEPTH_OVER (b2n (d > 40))
  s1.when (d > 40 && !s.on Reg.FTB_STATUS_DEPTH_OVER) fun t => t.mark Reg.FTB_EVENT_DEPTH_OVER

/-- No more than 1 ns: 128 units of 7.8125 ps, held twice. -/
def withinNs (off2 : Int) : Bool := off2.natAbs ≤ 256

/-- With a parent: a change is recorded; a follower in holdover slews on where it may, and otherwise a step is due at
the next tick (R33, R39). R33 speaks of an offset that was found: a step is due also towards a new parent whose offset has not
been measured yet, also with a VALID counter. DESIGN CHOICE (log entry 14). -/
def State.followParent (s : State) (p : Nat) : State :=
  let n := s.nbr p
  let new := !s.time.hasParent || s.get Reg.FTB_STATUS_PARENT != p
  let s1 := ((s.put Reg.FTB_STATUS_PARENT p).setDepth (n.depth + 1)).when new fun t => t.mark Reg.FTB_EVENT_PARENT_CHANGE
  let s2 := s1.modTime fun t => { t with hasParent := true }
  let ok := n.measured && withinNs n.off2 && s.on Reg.FTB_STATUS_VALID && !s.on Reg.FTB_STATUS_TIME_LOSS
  if ok then s2.put Reg.FTB_STATUS_HOLDOVER 0
  else if s2.time.stepDue.isSome || !(new || s.on Reg.FTB_STATUS_HOLDOVER) then s2
  else s2.modTime fun t => { t with stepDue := some (s.now + 1) }

/-- Without one the follower enters, or stays in, holdover (R36). -/
def State.holdOver (s : State) : State :=
  let s1 := s.modTime fun t => { t with hasParent := false, stepDue := none }
  if s1.on Reg.FTB_STATUS_HOLDOVER then s1.bump Reg.FTB_HOLD_HOLD_CNT
  else ((s1.mark Reg.FTB_STATUS_HOLDOVER).mark Reg.FTB_EVENT_HOLDOVER_ENTER).put Reg.FTB_HOLD_HOLD_CNT 1

/-- The deputy's stale ticks (R31): it promotes itself at the second of two in a row, if it was locked at the first. -/
def State.deputyTick (s : State) : State :=
  if !s.on Reg.FTB_CTRL_DEPUTY || s.isMaster || (s.frame : Int) - s.time.origin < 2 then
    s.modTime fun t => { t with stale := false, staleLocked := false, promoteDue := false }
  else s.modTime fun t => { t with
    stale := true, staleLocked := s.on Reg.FTB_STATUS_LOCKED, promoteDue := t.stale && t.staleLocked }

/-- A follower's frames within 25 ps, and beyond 100 ps (R28): 3.2 and 12.8 units, held twice. A frame in which the
parent's offset was not measured ends both runs (log entry 16). -/
def State.countLock (s : State) : State :=
  let n := s.nbr (s.get Reg.FTB_STATUS_PARENT)
  if s.isMaster || !s.time.hasParent || !n.heard then s.modTime fun t => { t with good := 0, bad := 0 }
  else s.modTime fun t => { t with
    good := if n.off2.natAbs ≤ 6 then t.good + 1 else 0
    bad := if n.off2.natAbs ≥ 26 then t.bad + 1 else 0 }

/-- A change of ROLE takes effect (R47), and a master that sees a winning one becomes a follower of it (R32). -/
def State.applyRole (s : State) : State :=
  let r := s.get Reg.FTB_CTRL_ROLE
  let s1 := if r == s.time.role then s
    else
      let t := s.modTime fun x => { x with role := r }
      if r = 0 then t.put Reg.FTB_STATUS_MASTER 0 else if t.isMaster then t else t.becomeMaster
  if !s1.isMaster then s1
  else
    let e := s1.get Reg.FTB_MASTER_EPOCH
    let l := s1.time.nbrs.filter fun x => x.2.seen && wins x.2.epoch x.2.master e s1.moduleId
    match l.foldl (fun (b : Option Nbr) x => match b with
        | none => some x.2
        | some y => if wins x.2.epoch x.2.master y.epoch y.master then some x.2 else some y) none with
    | none => s1
    | some n =>
      ((((s1.put Reg.FTB_STATUS_MASTER 0).put Reg.FTB_MASTER_MASTER_ID n.master).put Reg.FTB_MASTER_EPOCH n.epoch).mark
        Reg.FTB_EVENT_MASTER_CHANGE).modTime fun t => { t with origin := n.origin }

/-- A new frame begins for the neighbours: no offset measured, no time message sent. -/
def State.newTimes (s : State) : State :=
  (s.each (s.time.nbrs.map (·.1)) fun t p => t.setNbr p { t.nbr p with heard := false }).modTime fun t => { t with sentNow := false }

/-- A load of the counter is possible (R47): as a master whose counter is not VALID. -/
def State.mayLoad (s : State) : Bool := s.get Reg.FTB_CTRL_ROLE != 0 && !s.on Reg.FTB_STATUS_VALID

/-- A load takes effect at this tick (R47). -/
def State.loadDue (s : State) : Bool :=
  s.time.loadArmed && s.mayLoad && s.get Reg.FTB_CTRL_ROLE != 2 && decide (s.time.loadTick ≤ s.now)

/-- A master's time messages of a tick, ahead of every other (R255), stamped with the new frame; a counter that is to be loaded
at this tick is stamped once it is (R21). -/
def State.tickTimes (s : State) : State :=
  if s.isMaster && !s.loadDue then s.newTimes.sendTimes (stampOf s.frame) else s.newTimes

/-- The time messages of a follower that had nothing newer to pass on leave at the end of the frame, so that it sends once in each
(R26; log entry 16). -/
def State.endTimes (s : State) : State :=
  if s.isMaster || s.time.sentNow then s else s.sendTimes (stampOf (s.frame + 1) - 1)

/-- What a tick does to time: the lock counts of the ended frame, roles, the deputy before any holdover decision
(R31), the parent or holdover, and a master's time messages. -/
def State.timeTick (s : State) : State :=
  let s1 := s.countLock.applyRole.deputyTick
  let s2 := if s1.isMaster || s1.time.promoteDue then s1
    else match s1.bestParent with
      | some p => s1.followParent p
      | none => s1.holdOver
  s2.tickTimes

/-! ### Lock, promotion, loss and steps -/

/-- TIME_LOCK (R28, R39): 16 consecutive frames within 25 ps. -/
def execTimeLock (s : State) : Host.Outcome State Fault Refusal :=
  if s.isMaster || s.time.good < 16 then .next s
  else
    let s1 := s.mark Reg.FTB_STATUS_LOCKED
    if s.time.resync then .next (((s1.put Reg.FTB_STATUS_TIME_LOSS 0).put Reg.FTB_STATUS_TERM_ONLY 0).modTime fun t => { t with resync := false })
    else .next s1

/-- TIME_UNLOCK (R28): 4 consecutive frames beyond 100 ps. -/
def execTimeUnlock (s : State) : Host.Outcome State Fault Refusal :=
  if s.isMaster || s.time.bad < 4 then .next s else .next (s.put Reg.FTB_STATUS_LOCKED 0)

/-- DEPUTY_PROMOTION (R31): a new epoch, and time messages stamped with the present frame; no step. -/
def execDeputyPromotion (s : State) : Host.Outcome State Fault Refusal :=
  if !s.time.promoteDue || !s.on Reg.FTB_CTRL_DEPUTY || s.isMaster then .next s
  else .next (s.becomeMaster.sendTimes (stampOf s.frame))

/-- TIME_LOSS (R37, R38): the record, and every open step of the module is dirty. -/
def execTimeLoss (s : State) : Host.Outcome State Fault Refusal :=
  let n := s.get Reg.FTB_HOLD_HOLD_CNT
  if s.isMaster || !s.on Reg.FTB_STATUS_HOLDOVER || n < s.get Reg.FTB_HOLD_HOLD_LIMIT || !s.on Reg.FTB_STATUS_VALID || s.on Reg.FTB_STATUS_TIME_LOSS then .next s
  else
    let s1 := s.logRec { code := fTimeLoss, unitKind := 11, unit := 0,
                         detail := [(2, n), (1, s.get Reg.FTB_STATUS_PARENT), (2, s.get Reg.FTB_MASTER_MASTER_ID), (2, s.get Reg.FTB_MASTER_EPOCH)] }
    let s2 := ((s1.mark Reg.FTB_STATUS_TIME_LOSS).mark Reg.FTB_STATUS_TERM_ONLY).mark Reg.FTB_EVENT_TIME_LOSS
    .next (s2.each ((List.range 64).filter s2.stepOpen) fun t c => t.cause c 3)

/-- The counter takes a value. Actions of skipped frames come due at the next tick, and those of frames already passed
not again (R40); a counter that was not VALID had no frames of the slice, and its schedule begins anew (log entry 14). -/
def State.setFrame (s : State) (v : BitVec 64) : State :=
  s.modTime fun t => if s.on Reg.FTB_STATUS_VALID then { t with frame := v } else { t with frame := v, top := v.toNat, base := v.toNat }

/-- TIME_STEP (R39): the phase and the counter take the parent's values; lock is to be shown again. -/
def execTimeStep (parentFrame : BitVec 64) (s : State) : Host.Outcome State Fault Refusal :=
  match s.time.stepDue with
  | none => .next s
  | some t0 =>
    if s.now < t0 || 1 < s.time.pos then .next s
    else
      let s1 := (s.turn 1).setFrame parentFrame
      let s1 := s1.modTime fun t => { t with stepDue := none, good := 0, bad := 0, resync := true }
      let s2 := ((s1.bump Reg.FTB_STEP_CNT_STEPS).mark Reg.FTB_EVENT_STEP).mark Reg.FTB_STATUS_VALID
      .next ((s2.put Reg.FTB_STATUS_HOLDOVER 0).put Reg.FTB_STATUS_LOCKED 0)

/-! ### The counter (R23, R47) -/

/-- FTB_FRAME_LO_READ (R23, R502): the low word, and the latches of the other two. -/
def execFtbFrameLoRead (cycle : Fin 8192) (fine : Fin 64) (s : State) : Host.Outcome State Fault Refusal :=
  let s1 := (s.setLatch Reg.FTB_FRAME_HI (BitVec.ofNat 32 (s.frame / 2 ^ 32))).setLatch Reg.FTB_PHASE (BitVec.ofNat 32 (cycle.val + fine.val * 8192))
  .next (s1.answer (BitVec.ofNat 32 s.frame))

/-- A write of FTB_LOAD_HI arms the load. -/
def State.writeLoadHi (s : State) (v : Nat) : State :=
  let s1 := s.put Reg.FTB_LOAD_HI_LOAD_HI v
  if s1.mayLoad then s1.modTime fun t => { t with loadArmed := true, loadTick := s.now + 1, loadPps := false } else s1

/-- FTB_LOAD_HI_WRITE (R47). -/
def execFtbLoadHiWrite (p : Party) (v : Word) (s : State) : Host.Outcome State Fault Refusal := .next (s.byCp p fun t => t.writeLoadHi v.toNat)

/-- COUNTER_LOAD (R35, R47): at the next tick, or with ROLE = 2 at the next PPS_IN edge. A load at a tick comes
ahead of the master's time messages of the tick (R21). -/
def execCounterLoad (s : State) : Host.Outcome State Fault Refusal :=
  if !s.time.loadArmed then .next s
  else if !s.mayLoad then .next (s.modTime fun t => { t with loadArmed := false })
  else if !(if s.get Reg.FTB_CTRL_ROLE = 2 then s.time.loadPps else decide (s.time.loadTick ≤ s.now && s.time.pos ≤ 1)) then .next s
  else
    let v := s.get64 Reg.FTB_LOAD_LO_LOAD_LO Reg.FTB_LOAD_HI_LOAD_HI
    let s1 := ((s.setFrame (BitVec.ofNat 64 v)).modTime fun t => { t with loadArmed := false }).mark Reg.FTB_STATUS_VALID
    .next (s1.when (s1.isMaster && !s1.time.sentNow) fun t => t.sendTimes (stampOf t.frame))

/-! ### PPS_IN (R485, R486) -/

/-- An edge is accepted: 10,000,000 ± 2 reference cycles after the last accepted one, or the first after REF_VALID. -/
def State.ppsAccepts (s : State) (cycles : Nat) : Bool :=
  match s.pins.ppsAt with
  | some _ => 9999998 ≤ cycles && cycles ≤ 10000002
  | none => s.on Reg.GLB_STATUS_REF_VALID

/-- PPS_IN_EDGE (R35, R485, R486): `cycles` of TIME_REF_10M have passed since the last accepted edge. Pulses that are too
short and other edges are ignored and counted. -/
def execPpsInEdge (short : Bool) (cycles : Nat) (s : State) : Host.Outcome State Fault Refusal :=
  if short || !s.ppsAccepts cycles then .next ((s.bump Reg.GLB_PPS_BAD_CNT_COUNT).mark Reg.GLB_EVENT_PPS_BAD)
  else
    let n := min 2 (s.pins.ppsRun + 1)
    let s1 := s.modPins fun x => { x with ppsAt := some s.now, ppsRun := n }
    .next ((s1.when (n ≥ 2) fun t => t.mark Reg.GLB_STATUS_PPS_VALID).modTime fun t => { t with loadPps := t.loadPps || t.loadArmed })

end Sys2Proof.Machine
end

