-- ==== Sys2Proof/Machine/Tick.lean ====
section
/-! DEFINITION. The frame tick (R20–R22): what every tick does by itself. What a rule makes due at a tick, and a command
of its own carries out (a capture, an expiry, a commit, a bank swap), follows the tick as that command. -/
namespace Sys2Proof.Machine

/-! ### The ended frame -/

/-- PI of the fault log ring, written at the end of a frame in which a record was (R427). -/
def State.writeFlogCb (s : State) : State :=
  if !s.hrc.flogDirty then s
  else
    let a := s.get Reg.HRC_FLOG_CB_LO_BASE_LO * 64 + s.get Reg.HRC_FLOG_CB_HI_BASE_HI * 2 ^ 32
    (s.hostStore (a + 16) (leBytes 4 (s.get Reg.HRC_FLOG_PI_PI))).modHrc fun h => { h with flogDirty := false }

/-- The power domain of an operation's unit ran in the ended frame (R42): the hub always does. R42 speaks of one
power domain; a LAUNCH whose cores lie on several dies is counted by its lowest die (DESIGN CHOICE, log entry 123). -/
def State.ranFrame (s : State) (o : Op) : Bool := ((maskBits 4 o.dies).head?.map s.gated) != some true

/-- Counted ticks of the budgets and of the cores' watchdogs (R42, R216). -/
def State.countTicks (s : State) : State :=
  let s1 := s.setOps (s.ops.map fun o => if o.issued && o.fin.isNone && s.ranFrame o then { o with frames := o.frames + 1 } else o)
  s1.each ((s1.cores.filter fun e => e.2.wait.isSome && !s.gated (coreDie e.1)).map (·.1)) fun t c =>
    t.modCore c fun k => { k with wait := k.wait.map fun w => { w with ticks := w.ticks + 1 } }

/-- Gated frames: of a die since the last heartbeat tick (R419), and of any die (R469). -/
def State.countGated (s : State) : State :=
  let l := (List.range 4).filter s.gated
  let s1 := s.modHrc fun h => { h with hbGated := l.foldl (fun m d => sset (fun _ => 0) m d (sget (fun _ => 0) m d + 1)) h.hbGated }
  s1.when (!l.isEmpty) fun t => t.bump Reg.SEC_THROTTLE_CNT_COUNT

/-- The 48 V input of the ended frame (R463, R469, R501). -/
def State.countPower (s : State) (e : TickEnv) : State :=
  let w := e.watts.toNat
  let s1 := s.modPow fun x => { x with sum256 := x.sum256 + w, n256 := x.n256 + 1, sumSec := x.sumSec + w, nSec := x.nSec + 1, last := w }
  (s1.put Reg.GLB_INPUT_VIN e.vin.toNat).put Reg.GLB_INPUT_IIN e.iin.toNat

/-- Frames in which a writer waited for a shadow page, or the checkpoint for its target (R376, R402, R404, R406); the writers
whose writes the state holds go on as far as the pool has pages, and who still waits does so in the frame to come. -/
def State.countStalls (s : State) : State :=
  let s1 := s.when s.ckp.cowWait fun t => (t.bump Reg.RPL_CKPT_COW_STALL_CNT_COUNT).mark Reg.RPL_CKPT_EVENT_COW_STALL
  let s2 := (s1.when s.ckp.preWait fun t => t.bump Reg.RPL_PRE_STALL_CNT_COUNT).serveWaiters
  let full := s2.poolFree.isNone
  let waits (pre : Bool) : Bool := full && s2.ckp.waits.any fun x => x.2 == pre && s2.writerAlive x.1
  let s3 := s2.modCkp fun k => { k with cowWait := waits false, preWait := waits true }
  s3.when (s.ckptState == 1 && s.tgtFull) fun t => (t.bump Reg.RPL_CKPT_FLOW_STALL_CNT_COUNT).modCkp fun k => { k with ciSame := k.ciSame + 1 }

/-- What the end of a frame does. -/
def State.endFrame (s : State) (e : TickEnv) : State :=
  ((((((((s.pollErrs e.ringErr).writeCbs e.ringErr).writeFlogCb).countTicks).countGated).countPower e).countStalls).daybreakTail).endTimes

/-! ### The new frame -/

/-- The counter advances (R22), and what holds once per frame begins anew (R191, R204, R427, R428). -/
def State.advance (s : State) : State :=
  let s1 := s.modTime fun t => { t with ticks := t.ticks + 1, frame := t.frame + 1, base := t.top, top := Nat.max t.top (t.frame + 1).toNat, pos := 0 }
  let s2 := s1.modHrc fun h => { h with notices := [], flogIrq := false, stops := h.stops.filter fun x => s1.now ≤ x.tick + 16 }
  s2.each (s2.sub.chans.map (·.1)) fun t n => t.setChan n { t.chan n with irqSent := false }

/-- Firmware that was started begins (R493), and its watchdog counts (R421). -/
def State.firmwareTick (s : State) : State :=
  match s.fw.start with
  | some (h, t) => if t ≤ s.now then s.runFirmware h else s
  | none => if s.on Reg.SEC_STATUS_FW_STARTED then s.modHrc fun h => { h with
      fwTicks := (List.range 8).foldl (fun m k => sset (fun _ => 0) m k (sget (fun _ => 0) m k + 1)) h.fwTicks } else s

/-- CI of the fault log and of the checkpoint target, read at every tick (R404, R427): of a target in host memory it comes with the
tick; of one in another module it is asked for by a READ_REQ. A restore's CI is its own (R412). -/
def State.pollHost (s : State) (e : TickEnv) : State :=
  let s1 := s.when (s.on Reg.HRC_FLOG_CFG_ENABLE) fun t => t.modHrc fun h => { h with flogCi := e.flogCi.toNat }
  if !s1.on Reg.RPL_CKPT_TGT_CFG_ENABLE || s1.ckptState == 4 then s1
  else if !s1.tgtRemote then
    if s1.ckp.ci == e.ckptCi.toNat then s1 else s1.modCkp fun k => { k with ci := e.ckptCi.toNat, ciSame := 0 }
  else
    let m := s1.get Reg.RPL_CKPT_TGT_CFG_MODULE
    let w := ciEngine s1.ckptCtx
    if routeValid (s1.route m) then s1.sendRead w (s1.gen w.ctx) m (s1.tgtAddr + 8) (runHalf 4) 1 0 false [0, 1, 2, 3] else s1

/-- The level of TRIG_IN, and the end of its sticking after a whole low frame (R485). -/
def State.pinTick (s : State) (e : TickEnv) : State :=
  (s.put Reg.GLB_STATUS_TRIG_IN (b2n e.trigHigh)).when e.trigLow fun t => t.put Reg.GLB_STATUS_TRIG_STUCK 0

/-- The cores with a LAUNCH in flight at the tick (R362). -/
def State.noteBusy (s : State) : State :=
  s.modInt fun x => { x with busy := (s.cores.filter fun e => e.2.launch.isSome).map (·.1) }

/-- The polls, tuning and monitoring of the new frame (R20, R21). -/
def State.beginFrame (s : State) (e : TickEnv) : State :=
  let s1 := (s.pollHost e).pinTick e
  let s2 := s1.stopRings.each (List.range 256) fun t r => t.pollRing e.polls r
  let s3 := (s2.tuneRings e.rings).each e.lasers State.tapLaser
  (((((s3.applyMoves).countPorts).sendAcks).noteExpress).noteBusy).modPins fun x => { x with enableTick := s.on Reg.SWT_CTRL_ENABLE }

/-- FRAME_TICK (R21). Ticks act while 48 V powers the module and it is out of reset; Idfort's own time goes on. -/
def execFrameTick (e : TickEnv) (s : State) : Host.Outcome State Fault Refusal :=
  if s.powerNow < 2 || s.pins.resetLow then .next (s.modTime fun t => { t with ticks := t.ticks + 1 })
  else .next (((((((s.endFrame e).advance).timeTick).applyRefresh).firmwareTick).recoverySteps).beginFrame e)

end Sys2Proof.Machine
end

