-- ==== Sys2Proof/Machine/RegWrite.lean ====
section
/-! DEFINITION. Register writes (R12, R13, R166, R499): who may write which fields, what a write leaves of the value
written, and the registers whose write does something. -/
namespace Sys2Proof.Machine

/-! ### Values as the field tables allow them -/

/-- A write of 0 leaves the field unchanged. -/
def keepZero (lo w old v : Nat) : Nat := if bitsOf v lo w = 0 then setBits v lo w (bitsOf old lo w) else v

/-- The field keeps its value where a condition holds. -/
def keepIf (b : Bool) (lo w old v : Nat) : Nat := if b then setBits v lo w (bitsOf old lo w) else v

/-- A write outside lo–hi is clamped. -/
def clampField (pos w lo hi v : Nat) : Nat := setBits v pos w (max lo (min hi (bitsOf v pos w)))

/-- A partner or client that a write names, whatever its VALID, is the module itself or has no route (R381). -/
def State.badPartner (s : State) (v : Nat) : Bool := bitsOf v 0 13 == s.moduleId || !routeValid (s.route (bitsOf v 0 13))

/-- The value a write leaves of the value written, by the register's base address: state, copy, old word, new
word. A register without an entry takes the value as written. A write of OPT_RING_SEL with a LAMBDA above 17 still takes its PORT
and BUS: R270 says that such writes are ignored, and whether whole, DESIGN CHOICE (log entry 160). -/
def writeRules : List (Nat × (State → Nat → Nat → Nat → Nat)) := [
  (Reg.FTB_CTRL, fun _ _ old v => keepIf (bitsOf v 0 2 == 3) 0 2 old v),
  (Reg.FTB_HOLD, fun _ _ _ v => clampField 16 13 16 4096 v),
  (Reg.FTB_DEFAULT_BUDGET, fun _ _ old v => keepZero 0 32 old v),
  (Reg.MEM_SCRUB_CFG, fun _ _ old v => keepZero 0 16 old v),
  (Reg.SUB_CTX_SEED 0, fun s k old v => if s.get (Reg.SUB_CTX_CTRL_STATE k) = 0 then v else old),
  (Reg.SUB_RING_CTX 0, fun s k old v => if !s.on (Reg.SUB_RING_CFG_ENABLE k) && s.ringIdle k then v else old),
  (Reg.SUB_RING_STATUS 0, fun s k _ v => if !s.on (Reg.SUB_RING_CFG_ENABLE k) && s.ringIdle k then v else 0),
  (Reg.SUB_RING_RING_LO 0, fun s k old v => if !s.on (Reg.SUB_RING_CFG_ENABLE k) && s.ringIdle k then v else old),
  (Reg.SUB_RING_RING_HI 0, fun s k old v => if !s.on (Reg.SUB_RING_CFG_ENABLE k) && s.ringIdle k then v else old),
  (Reg.SUB_RING_CQ_LO 0, fun s k old v => if !s.on (Reg.SUB_RING_CFG_ENABLE k) && s.ringIdle k then v else old),
  (Reg.SUB_RING_CQ_HI 0, fun s k old v => if !s.on (Reg.SUB_RING_CFG_ENABLE k) && s.ringIdle k then v else old),
  (Reg.SUB_RING_CB_LO 0, fun s k old v => if !s.on (Reg.SUB_RING_CFG_ENABLE k) && s.ringIdle k then v else old),
  (Reg.SUB_RING_CB_HI 0, fun s k old v => if !s.on (Reg.SUB_RING_CFG_ENABLE k) && s.ringIdle k then v else old),
  (Reg.SUB_RING_SEQ_LO 0, fun s k old v => if !s.on (Reg.SUB_RING_CFG_ENABLE k) && s.ringIdle k then v else old),
  (Reg.SUB_RING_SEQ_HI 0, fun s k old v => if !s.on (Reg.SUB_RING_CFG_ENABLE k) && s.ringIdle k then v else old),
  (Reg.MBX_CH_CFG 0, fun s k old v => if k ≥ 24 && (s.chan k).to0.isEmpty && (s.chan k).to1.isEmpty then v else old),
  (Reg.SYN_CTX_WDOG 0, fun _ _ old v => keepZero 0 32 old v),
  (Reg.SYN_CTX_EPOCH 0, fun s k old v => if s.get (Reg.SUB_CTX_CTRL_STATE k) = 0 then v else old),
  (Reg.OPT_QUIET_LIMIT, fun _ _ old v => keepZero 0 32 old v),
  (Reg.OPT_LASER_THRESH, fun _ _ old v => if bitsOf v 0 8 ≥ bitsOf v 8 8 || bitsOf v 8 8 ≥ bitsOf v 16 8 then old else v),
  (Reg.OPT_RING_SEL, fun _ _ old v => keepIf (bitsOf v 5 5 > 17) 5 5 old v)]

/-- The rest of the table: slots and routes, replay, checkpoint, integrity, hangs, power and capture. -/
def writeRules2 : List (Nat × (State → Nat → Nat → Nat → Nat)) := [
  (Reg.OPT_PORT_LANE 0, fun s k old v => keepIf (s.on (Reg.OPT_PORT_STATUS_UP k) || (16 ≤ bitsOf v 0 5 && bitsOf v 0 5 ≤ 30)) 0 5 old v),
  (Reg.SWT_CTRL, fun s _ old v => keepIf (s.on Reg.SWT_CTRL_ENABLE) 1 1 old v),
  (Reg.SWT_ID, fun s _ old v => if s.on Reg.SWT_CTRL_ENABLE then old else v),
  (Reg.SWT_SLICE, fun s _ old v => if s.on Reg.SWT_CTRL_ENABLE then old else v),
  (Reg.SWT_SCHED_BANK, fun s _ old v => if s.on Reg.SWT_CTRL_ENABLE then old else v),
  (Reg.RPL_GRAD_BASE_HI 0, fun _ _ _ v => clampField 16 14 0 8192 v),
  (Reg.RPL_REPLAY_CFG, fun _ _ _ v => clampField 16 4 3 15 v),
  (Reg.RPL_PROT_BASE_HI, fun _ _ _ v => clampField 16 9 0 256 v),
  (Reg.RPL_MIR_PARTNER, fun s _ old v => if s.badPartner v then old else v),
  (Reg.RPL_MIR_CLIENT, fun s _ old v =>
    if s.badPartner v then old
    else if !bitOn v 13 then setBits v 14 2 0
    else keepIf (bitsOf v 14 2 < 2) 14 2 old v),
  (Reg.RPL_RING_CFG, fun s _ old v => keepIf (s.rpl.sets.any fun t => t.state != 0) 0 22 old v),
  (Reg.RPL_CKPT_CFG, fun _ _ old v => keepZero 6 6 old v),
  (Reg.RPL_CKPT_TAB_LO, fun s _ old v => if s.ckptWritable then v else old),
  (Reg.RPL_CKPT_TAB_HI, fun s _ old v => if s.ckptWritable then clampField 16 9 0 256 v else old),
  (Reg.RPL_CKPT_DIG_LO, fun s _ old v => if s.ckptWritable then v else old),
  (Reg.RPL_CKPT_DIG_HI, fun s _ old v => if s.ckptWritable then v else old),
  (Reg.RPL_CKPT_DIRTY_LO, fun s _ old v => if s.ckptWritable then v else old),
  (Reg.RPL_CKPT_DIRTY_HI, fun s _ old v => if s.ckptWritable then v else old),
  (Reg.RPL_CKPT_TGT_LO, fun s _ old v => if s.ckptWritable then v else old),
  (Reg.RPL_CKPT_TGT_HI, fun s _ old v => if s.ckptWritable then v else old),
  (Reg.RPL_SHADOW_CFG, fun s _ old v => if s.ckp.shadow.isEmpty then v else old),
  (Reg.INT_DUP_CFG, fun _ _ old v => keepZero 0 16 old v),
  (Reg.INT_TEST_CFG, fun _ _ _ v => clampField 0 10 0 64 v),
  (Reg.INT_DUPQ_SIZE 0, fun s k old v => if s.dupFill k = 0 then v else old),
  (Reg.INT_CTX_CFG 0, fun s k old v =>
    if s.get (Reg.SUB_CTX_CTRL_STATE k) ≠ 0 then old else keepIf (bitsOf v 1 5 < 2 || 16 < bitsOf v 1 5) 1 5 old v),
  (Reg.HRC_HB_CFG, fun _ _ old v => keepZero 0 4 old v),
  (Reg.HRC_FW_WDOG, fun _ _ old v => keepZero 0 32 old v),
  (Reg.HRC_FLOG_LO, fun s _ old v => if s.on Reg.HRC_FLOG_CFG_ENABLE then old else v),
  (Reg.HRC_FLOG_HI, fun s _ old v => if s.on Reg.HRC_FLOG_CFG_ENABLE then old else v),
  (Reg.HRC_FLOG_CB_LO, fun s _ old v => if s.on Reg.HRC_FLOG_CFG_ENABLE then old else v),
  (Reg.HRC_FLOG_CB_HI, fun s _ old v => if s.on Reg.HRC_FLOG_CFG_ENABLE then old else v),
  (Reg.SEC_PWR_LIMIT, fun _ _ _ v => clampField 0 16 1000 3600 v),
  (Reg.SEC_DUTY_CFG, fun _ _ old v =>
    let v1 := clampField 15 8 0 110 (clampField 0 7 1 64 (keepZero 7 4 old (keepZero 11 4 old v)))
    keepIf (bitsOf v1 23 8 ≥ bitsOf v1 15 8) 23 8 old v1),
  (Reg.SNP_CTRL, fun _ _ _ v => clampField 3 4 3 15 v)]

/-- The value that a write leaves of the value written. -/
def State.admitted (s : State) (base k old v : Nat) : Nat :=
  match (writeRules ++ writeRules2).find? fun e => e.1 == base with
  | some e => e.2 s k old v
  | none => v

/-! ### Fields (R13) -/

/-- One field written by its access code. -/
def writeField (f : Reg.FieldRow) (v word : Nat) : Nat :=
  match f.acc with
  | .rw | .wo => setBits word f.lo f.w (bitsOf v f.lo f.w)
  | .w1c => setBits word f.lo f.w (bitsOf word f.lo f.w &&& (2 ^ f.w - 1 - bitsOf v f.lo f.w))
  | .w1s => setBits word f.lo f.w (bitsOf word f.lo f.w ||| bitsOf v f.lo f.w)
  | .ro | .rwo => word

/-- A register word after a write: every field by its access code, reserved bits ignored (R12, R13). -/
def writeFields (fs : List Reg.FieldRow) (v word : Nat) : Nat := fs.foldl (fun w f => writeField f v w) word

/-- A field that a write can change. -/
def writable (f : Reg.FieldRow) : Bool := f.acc != .ro

/-- A host write asks for a change of a firmware-only field (R166): a 1 in a W1S, W1C or WO field, or another value
of an RW field. -/
def asksDenied (f : Reg.FieldRow) (old v : Nat) : Bool :=
  f.fw && match f.acc with
    | .w1s | .w1c | .wo => bitsOf v f.lo f.w != 0
    | .rw => bitsOf v f.lo f.w != bitsOf old f.lo f.w
    | .ro | .rwo => false

/-- What is left of a host write for its firmware-only fields: the current value of an RW field, 0 of the others. -/
def hostValue (fs : List Reg.FieldRow) (old v : Nat) : Nat :=
  fs.foldl (fun w f => if f.fw then setBits w f.lo f.w (if f.acc == .rw then bitsOf old f.lo f.w else 0) else w) v

/-! ### Registers whose write does more -/

/-- Configuration of the selected barrier (R230). An episode that it would complete goes on until the next arrival: the manual does
not say when such a write is evaluated, DESIGN CHOICE (log entry 160). -/
def State.writeBarCfg (s : State) (v : Nat) : State :=
  let i := s.get Reg.SYN_OBJ_SEL_INDEX
  s.setObj i { s.obj i with localN := bitsOf v 0 12, parentPort := bitsOf v 12 4, root := bitOn v 16 }

def State.writeBarChild (s : State) (v : Nat) : State :=
  let i := s.get Reg.SYN_OBJ_SEL_INDEX
  s.setObj i { s.obj i with childMask := bitsOf v 0 16 }

/-- KIND of the selected object, writable only while no waiter names it (R230). A change makes a new object of it, without value,
configuration or episode: R230 says only when KIND is writable, DESIGN CHOICE (log entry 160). -/
def State.writeObjKind (s : State) (v : Nat) : State :=
  let i := s.get Reg.SYN_OBJ_SEL_INDEX
  if s.objWaiters i = 0 && (s.obj i).barrier != bitOn v 0 then s.setObj i { barrier := bitOn v 0 } else s

/-- The sender's identity on a mailbox channel (R200): its own for a control processor, the channel's control processor
for firmware that names none, and no endpoint's where the channel joins no control processor. -/
def State.mbxIdentity (s : State) (p : Party) (n : Nat) : Nat :=
  match p with
  | .host => 0x1000
  | .idfort => 0x3000
  | .operator => 0
  | .cp k => 0x2000 + k.val
  | .firmware =>
    let e0 := s.get (Reg.MBX_CH_CFG_E0 n)
    let e1 := s.get (Reg.MBX_CH_CFG_E1 n)
    if e0 / 8 == 0x400 then e0 else if e1 / 8 == 0x400 then e1 else 0

/-- A write of MBX_CHn_STATUS clears the collision bits as its endpoint sees them (R206). A write of another party counts as FOREIGN,
as R201 has it for TX, while one of WAKE is applied whoever writes it: R206 says neither, DESIGN CHOICE (log entry 160). -/
def State.writeMbxStatus (s : State) (who n v : Nat) : State :=
  let x := s.chan n
  if who == s.get (Reg.MBX_CH_CFG_E0 n) then
    s.setChan n { x with coll0 := x.coll0 && !bitOn v 8, coll1 := x.coll1 && !bitOn v 9 }
  else if who == s.get (Reg.MBX_CH_CFG_E1 n) then
    s.setChan n { x with coll1 := x.coll1 && !bitOn v 8, coll0 := x.coll0 && !bitOn v 9 }
  else (s.mark Reg.MBX_EVENT_FOREIGN).bump Reg.MBX_FOREIGN_CNT_COUNT

/-- The registers whose write is an operation, by base address: state, writer, copy, value. -/
def writeOps : List (Nat × (State → Party → Nat → Nat → State)) := [
  (Reg.FTB_LOAD_HI, fun s _ _ v => s.writeLoadHi v),
  (Reg.MEM_XLAT_INVAL, fun s _ _ v => s.writeXlatInval v),
  (Reg.MEM_REPAIR_CTRL, fun s _ _ v => s.writeRepairCtrl v),
  (Reg.SUB_CTX_CTRL 0, fun s _ k v => s.writeCtxCtrl k v),
  (Reg.SUB_RING_CFG 0, fun s _ k v => s.writeRingCfg k v),
  (Reg.MBX_CH_TX 0, fun s p k v => s.mbxTx (s.mbxIdentity p k) k v),
  (Reg.MBX_CH_STATUS 0, fun s p k v => s.writeMbxStatus (s.mbxIdentity p k) k v),
  (Reg.SYN_OBJ_VAL_HI, fun s _ _ v => s.writeObjHi v),
  (Reg.SYN_OBJ_STATE, fun s _ _ v => s.writeObjKind v),
  (Reg.SYN_BAR_CFG, fun s _ _ v => s.writeBarCfg v),
  (Reg.SYN_BAR_CHILD, fun s _ _ v => s.writeBarChild v),
  (Reg.SYN_BAR_REARM, fun s _ _ v => s.writeRearm v),
  (Reg.SYN_XLAT_INVAL, fun s _ _ v => s.writeSynXlat v),
  (Reg.OPT_LC_CTRL 0, fun s _ k v => s.writeLcCtrl k v),
  (Reg.OPT_BYP_CTRL 0, fun s _ k v => s.writeBypCtrl k v),
  (Reg.SWT_SCHED_LOAD_CTRL, fun s _ _ v => s.writeSchedLoad v),
  (Reg.SWT_ROUTE_DATA, fun s _ _ v => s.writeRoute v),
  (Reg.SWT_KEY_SWITCH_HI, fun s _ _ v => s.writeKeySwitch v),
  (Reg.RPL_STEP_CTRL 0, fun s _ k v => s.writeStepCtrl k v),
  (Reg.RPL_REPLAY_CTRL 0, fun s _ k v => s.writeReplayCtrl k v),
  (Reg.RPL_SET_CTRL, fun s _ _ v => s.writeSetCtrl v),
  (Reg.RPL_CL_FENCE, fun s _ _ v => s.writeFence v),
  (Reg.RPL_DAYBREAK_CTRL, fun s _ _ _ => s),
  (Reg.RPL_CKPT_CTRL, fun s _ _ v => s.writeCkptCtrl v),
  (Reg.RPL_CKPT_TGT_CFG, fun s _ _ v => s.writeTgtCfg v),
  (Reg.INT_DIGEST_FAULT, fun s _ _ v =>
    let f := s.fresh
    f.2.writeDigestFault v (if f.1 % 3 = 0 then .majority else if f.1 % 3 = 1 then .minority else .noMajority)),
  (Reg.INT_HEALTH_DATA, fun s _ _ v => s.writeScore v),
  (Reg.HRC_RESET_CTRL, fun s _ _ v => s.writeResetCtrl v),
  (Reg.HRC_FW_KICK, fun s p _ _ => s.fwKick p),
  (Reg.HRC_DUMP_CTRL, fun s _ _ v => s.writeDumpCtrl v),
  (Reg.HRC_FLOG_CFG, fun s _ _ v => s.writeFlogCfg v),
  (Reg.SNP_ARM_HI, fun s _ _ v => s.writeSnpArm v),
  (Reg.GLB_FW_CTRL, fun s p _ v => s.writeFwCtrl p v),
  (Reg.GLB_CAL_CTRL, fun s _ _ v => s.writeCalCtrl v)]

/-- What follows from a plain write: of the state before, the base address and the state after. -/
def State.afterWrite (s : State) (base : Nat) (t : State) : State :=
  if base = Reg.SYN_CTRL then t.resumeSync
  else if base = Reg.OPT_CTRL then t.bankChange (s.on Reg.OPT_CTRL_BANK_EN)
  else if base = Reg.SWT_CTRL then
    if s.on Reg.SWT_CTRL_ENABLE && !t.on Reg.SWT_CTRL_ENABLE then (t.mark Reg.GLB_STATUS_RELAY).each (List.range 16) State.refreshPort else t
  else if base = Reg.SWT_SCHED_BANK then t.put Reg.SWT_STATUS_ACTIVE_BANK (t.get Reg.SWT_SCHED_BANK_ACTIVE)
  else if base = Reg.SWT_ID || base = Reg.SWT_SLICE || base = Reg.OPT_PORT_LANE 0 then
    if s.moduleId == t.moduleId && s.sliceTag == t.sliceTag && (List.range 16).all (fun p => s.txSpare p == t.txSpare p) then t else t.sendBeacons
  else if base = Reg.RPL_MIR_CLIENT then
    if t.get Reg.RPL_MIR_CLIENT_STATE = 2 || !t.on Reg.RPL_MIR_CLIENT_VALID then t.put Reg.RPL_MIR_CLIENT_VERIFIED 0 else t
  else if 0x800210 ≤ base && base < 0x800228 then
    if s.ckptWritable then t.mark Reg.RPL_CKPT_STATUS_FULL_NEXT else t
  else t

/-- A write of the register at a key by a party that may write every field of the value. -/
def State.applyWrite (s : State) (p : Party) (r : Reg.Row) (a v : Nat) : State :=
  match writeOps.find? fun e => e.1 == r.base with
  | some e => e.2 s p (r.index a) v
  | none =>
    let old := (s.reg a).toNat
    s.afterWrite r.base (s.setReg a (BitVec.ofNat 32 (writeFields r.fields (s.admitted r.base (r.index a) old v) old)))

/-- The host's write of a register (R166): ignored where every writable field is firmware-only; otherwise the
host's fields are applied; HOST_DENIED tells of a denied change. A register without a writable field ignores it. -/
def State.hostWrite (s : State) (r : Reg.Row) (a v : Nat) : State :=
  let old := (s.reg a).toNat
  if !(r.fields.any writable) then s
  else if (r.fields.filter writable).all (·.fw) then s.mark Reg.SUB_EVENT_HOST_DENIED
  else
    let t := s.applyWrite .host r a (hostValue r.fields old v)
    if r.fields.any fun f => asksDenied f old v then t.mark Reg.SUB_EVENT_HOST_DENIED else t

/-- The key of the register at a BAR0 offset: the registers at 0x800004–0x800038 and 0x800100–0x800104 are those of
the context that RPL_STEP_SEL selects (R336, R395). -/
def State.regKey (s : State) (a : Nat) : Nat :=
  if (0x800004 ≤ a && a < 0x80003C) || a = 0x800100 || a = 0x800104 then 0x100000000 + 0x1000 * s.stepSel + (a - 0x800000) else a

/-- REGISTER_WRITE (R12, R166, R499): the fields that the writer may write take effect by their access codes; outside
a defined register nothing happens. The operator writes the power and duty limits (R475), and in an invasive session every register
as firmware does (R464); Idfort the mailbox block (R206). -/
def State.writeRegister (s : State) (p : Party) (addr v : Nat) : State :=
  let a := s.regKey addr
  match Reg.rowAt a with
  | none => s
  | some r =>
    let may := r.fields.any writable && match p with
      | .host | .firmware | .cp _ => true
      | .operator => s.invasive || r.base == Reg.SEC_PWR_LIMIT || r.base == Reg.SEC_DUTY_CFG
      | .idfort => 0xB00000 ≤ a && a < 0xC00000 && r.fields.any fun f => writable f && !f.fw
    if !may then s else if p == .host then s.hostWrite r a v else s.applyWrite p r a v

/-- REGISTER_WRITE (R166). -/
def execRegisterWrite (p : Party) (addr v : Word) (s : State) : Host.Outcome State Fault Refusal :=
  .next (s.byCp p fun t => t.writeRegister p addr.toNat v.toNat)

end Sys2Proof.Machine
end

