-- ==== Sys2Proof/Machine/Dispatch.lean ====
section
/-! DEFINITION. The dispatch: one arm per command, each one direct call of its meaning. -/
namespace Sys2Proof.Machine

/-- The effect of a command on everything but the queue. -/
def exec (i : Instr) (s : State) : Host.Outcome State Fault Refusal :=
  match i with
  | .frameTick e => Sys2Proof.Machine.execFrameTick e s
  | .ftbFrameLoRead cycle fine => Sys2Proof.Machine.execFtbFrameLoRead cycle fine s
  | .timeMessageReceive port m arrival => Sys2Proof.Machine.execTimeMessageReceive port m arrival s
  | .timeLock => Sys2Proof.Machine.execTimeLock s
  | .timeUnlock => Sys2Proof.Machine.execTimeUnlock s
  | .deputyPromotion => Sys2Proof.Machine.execDeputyPromotion s
  | .timeLoss => Sys2Proof.Machine.execTimeLoss s
  | .timeStep parentFrame => Sys2Proof.Machine.execTimeStep parentFrame s
  | .ftbLoadHiWrite p v => Sys2Proof.Machine.execFtbLoadHiWrite p v s
  | .counterLoad => Sys2Proof.Machine.execCounterLoad s
  | .frameOverrun ring idx => Sys2Proof.Machine.execFrameOverrun ring idx s
  | .registerWrite p addr v => Sys2Proof.Machine.execRegisterWrite p addr v s
  | .acwWrite core v => Sys2Proof.Machine.execAcwWrite core v s
  | .aswClear core v => Sys2Proof.Machine.execAswClear core v s
  | .mma core a e x => Sys2Proof.Machine.execMma core a e x s
  | .ard core a x => Sys2Proof.Machine.execArd core a x s
  | .add core a b d dr e => Sys2Proof.Machine.execAdd core a b d dr e s
  | .sub core a b d dr e => Sys2Proof.Machine.execSub core a b d dr e s
  | .mul core a b d dr e => Sys2Proof.Machine.execMul core a b d dr e s
  | .fma core a b c d dr e => Sys2Proof.Machine.execFma core a b c d dr e s
  | .max core a b d dr e => Sys2Proof.Machine.execMax core a b d dr e s
  | .min core a b d dr e => Sys2Proof.Machine.execMin core a b d dr e s
  | .abs core a d dr e => Sys2Proof.Machine.execAbs core a d dr e s
  | .neg core a d dr e => Sys2Proof.Machine.execNeg core a d dr e s
  | .cvt core a d dr e => Sys2Proof.Machine.execCvt core a d dr e s
  | .cmp core rel a b d dr e => Sys2Proof.Machine.execCmp core rel a b d dr e s
  | .sel core a b c d dr e => Sys2Proof.Machine.execSel core a b c d dr e s
  | .div core a b d dr e => Sys2Proof.Machine.execDiv core a b d dr e s
  | .sqrt core a d dr e => Sys2Proof.Machine.execSqrt core a d dr e s
  | .rcp core a d dr e => Sys2Proof.Machine.execRcp core a d dr e s
  | .rsqrt core a d dr e => Sys2Proof.Machine.execRsqrt core a d dr e s
  | .exp core a d dr e => Sys2Proof.Machine.execExp core a d dr e s
  | .exp2 core a d dr e => Sys2Proof.Machine.execExp2 core a d dr e s
  | .subexp core a b d dr e => Sys2Proof.Machine.execSubexp core a b d dr e s
  | .log core a d dr e => Sys2Proof.Machine.execLog core a d dr e s
  | .log2 core a d dr e => Sys2Proof.Machine.execLog2 core a d dr e s
  | .sigmoid core a d dr e => Sys2Proof.Machine.execSigmoid core a d dr e s
  | .tanh core a d dr e => Sys2Proof.Machine.execTanh core a d dr e s
  | .erf core a d dr e => Sys2Proof.Machine.execErf core a d dr e s
  | .gelu core a d dr e => Sys2Proof.Machine.execGelu core a d dr e s
  | .silu core a d dr e => Sys2Proof.Machine.execSilu core a d dr e s
  | .sin core a d dr e => Sys2Proof.Machine.execSin core a d dr e s
  | .cos core a d dr e => Sys2Proof.Machine.execCos core a d dr e s
  | .dsigmoid core a b d dr e => Sys2Proof.Machine.execDsigmoid core a b d dr e s
  | .dtanh core a b d dr e => Sys2Proof.Machine.execDtanh core a b d dr e s
  | .dexp core a b d dr e => Sys2Proof.Machine.execDexp core a b d dr e s
  | .drelu core a b d dr e => Sys2Proof.Machine.execDrelu core a b d dr e s
  | .dgelu core a b d dr e => Sys2Proof.Machine.execDgelu core a b d dr e s
  | .dsilu core a b d dr e => Sys2Proof.Machine.execDsilu core a b d dr e s
  | .derf core a b d dr e => Sys2Proof.Machine.execDerf core a b d dr e s
  | .rsum core rdims a d dr e => Sys2Proof.Machine.execRsum core rdims a d dr e s
  | .rdot core rdims a b d dr e => Sys2Proof.Machine.execRdot core rdims a b d dr e s
  | .rsumsq core rdims a d dr e => Sys2Proof.Machine.execRsumsq core rdims a d dr e s
  | .rmax core rdims ib a d d2 dr e => Sys2Proof.Machine.execRmax core rdims ib a d d2 dr e s
  | .rmin core rdims ib a d d2 dr e => Sys2Proof.Machine.execRmin core rdims ib a d d2 dr e s
  | .rand core d dr e => Sys2Proof.Machine.execRand core d dr e s
  | .drop core thr k a d mask dr e => Sys2Proof.Machine.execDrop core thr k a d mask dr e s
  | .sample core rdims tauInv ib a d dr e => Sys2Proof.Machine.execSample core rdims tauInv ib a d dr e s
  | .ssig core vid mod v => Sys2Proof.Machine.execSsig core vid mod v s
  | .swait core vid thr wdog => Sys2Proof.Machine.execSwait core vid thr wdog s
  | .sbar core vid payOp payload res wdog => Sys2Proof.Machine.execSbar core vid payOp payload res wdog s
  | .commit core => Sys2Proof.Machine.execCommit core s
  | .post core ring src e => Sys2Proof.Machine.execPost core ring src e s
  | .gclaim core region tag e => Sys2Proof.Machine.execGclaim core region tag e s
  | .kickWrite ring pi => Sys2Proof.Machine.execKickWrite ring pi s
  | .ringEnable p ring v => Sys2Proof.Machine.execRingEnable p ring v s
  | .ringDisable p ring v => Sys2Proof.Machine.execRingDisable p ring v s
  | .descriptorFetch ring slot e => Sys2Proof.Machine.execDescriptorFetch ring slot e s
  | .ringStall ring => Sys2Proof.Machine.execRingStall ring s
  | .launch ring => Sys2Proof.Machine.execLaunch ring s
  | .dma ring e part => Sys2Proof.Machine.execDma ring e part s
  | .coll ring e => Sys2Proof.Machine.execColl ring e s
  | .signal ring => Sys2Proof.Machine.execSignal ring s
  | .wait ring => Sys2Proof.Machine.execWait ring s
  | .barrier ring => Sys2Proof.Machine.execBarrier ring s
  | .update ring e part => Sys2Proof.Machine.execUpdate ring e part s
  | .digest ring e part => Sys2Proof.Machine.execDigest ring e part s
  | .phase ring => Sys2Proof.Machine.execPhase ring s
  | .snap ring => Sys2Proof.Machine.execSnap ring s
  | .fence ring => Sys2Proof.Machine.execFence ring s
  | .noon ring => Sys2Proof.Machine.execNoon ring s
  | .close ring => Sys2Proof.Machine.execClose ring s
  | .descriptorComplete ring idx e => Sys2Proof.Machine.execDescriptorComplete ring idx e s
  | .contextActivate p ctx v => Sys2Proof.Machine.execContextActivate p ctx v s
  | .subProgData0Read => Sys2Proof.Machine.execSubProgData0Read s
  | .mbxTx who ch w => Sys2Proof.Machine.execMbxTx who ch w s
  | .mbxRx who ch => Sys2Proof.Machine.execMbxRx who ch s
  | .signalMessage port m => Sys2Proof.Machine.execSignalMessage port m s
  | .syncAck m => Sys2Proof.Machine.execSyncAck m s
  | .syncNack m => Sys2Proof.Machine.execSyncNack m s
  | .remoteSignalTimeout tag => Sys2Proof.Machine.execRemoteSignalTimeout tag s
  | .barrierArrive port m => Sys2Proof.Machine.execBarrierArrive port m s
  | .barrierRelease port m => Sys2Proof.Machine.execBarrierRelease port m s
  | .barrierBreak port m => Sys2Proof.Machine.execBarrierBreak port m s
  | .syncWatchdog w => Sys2Proof.Machine.execSyncWatchdog w s
  | .synObjValLoRead => Sys2Proof.Machine.execSynObjValLoRead s
  | .synObjValHiWrite p v => Sys2Proof.Machine.execSynObjValHiWrite p v s
  | .synBarRearm p v => Sys2Proof.Machine.execSynBarRearm p v s
  | .synXlatInval p v => Sys2Proof.Machine.execSynXlatInval p v s
  | .synXlatDone => Sys2Proof.Machine.execSynXlatDone s
  | .coreMxPassLoRead core => Sys2Proof.Machine.execCoreMxPassLoRead core s
  | .coreVxElemLoRead core => Sys2Proof.Machine.execCoreVxElemLoRead core s
  | .intDupSampledLoRead => Sys2Proof.Machine.execIntDupSampledLoRead s
  | .memXlatInval p v => Sys2Proof.Machine.execMemXlatInval p v s
  | .memXlatDone => Sys2Proof.Machine.execMemXlatDone s
  | .memRepairGo p v => Sys2Proof.Machine.execMemRepairGo p v s
  | .repairStart => Sys2Proof.Machine.execRepairStart s
  | .repairDone stalls => Sys2Proof.Machine.execRepairDone stalls s
  | .memTempSample mem temp => Sys2Proof.Machine.execMemTempSample mem temp s
  | .scrubRead granule result => Sys2Proof.Machine.execScrubRead granule result s
  | .ceWindowExpire granule => Sys2Proof.Machine.execCeWindowExpire granule s
  | .ringLock r => Sys2Proof.Machine.execRingLock r s
  | .toneCheckEnd r tones => Sys2Proof.Machine.execToneCheckEnd r tones s
  | .ringSweepEnd r extremum => Sys2Proof.Machine.execRingSweepEnd r extremum s
  | .laneAlarm port => Sys2Proof.Machine.execLaneAlarm port s
  | .laneAlarmMessage port m => Sys2Proof.Machine.execLaneAlarmMessage port m s
  | .laneMove port m => Sys2Proof.Machine.execLaneMove port m s
  | .laneMoveRequest port m => Sys2Proof.Machine.execLaneMoveRequest port m s
  | .laneMoveRefusal port m => Sys2Proof.Machine.execLaneMoveRefusal port m s
  | .laneMoveSwitch port => Sys2Proof.Machine.execLaneMoveSwitch port s
  | .spareLocked lam => Sys2Proof.Machine.execSpareLocked lam s
  | .spareLockTimeout lam => Sys2Proof.Machine.execSpareLockTimeout lam s
  | .spareMatched lam => Sys2Proof.Machine.execSpareMatched lam s
  | .laserSourceSwitch lam => Sys2Proof.Machine.execLaserSourceSwitch lam s
  | .oldSourceDark lam pc => Sys2Proof.Machine.execOldSourceDark lam pc s
  | .laserFail cart => Sys2Proof.Machine.execLaserFail cart s
  | .cartridgeRelease p cart v => Sys2Proof.Machine.execCartridgeRelease p cart v s
  | .leverOpen cart => Sys2Proof.Machine.execLeverOpen cart s
  | .cartridgePull cart => Sys2Proof.Machine.execCartridgePull cart s
  | .cartridgeInsert cart pc => Sys2Proof.Machine.execCartridgeInsert cart pc s
  | .cellLaunch slot port term => Sys2Proof.Machine.execCellLaunch slot port term s
  | .cellReceive slot port c e => Sys2Proof.Machine.execCellReceive slot port c e s
  | .readReqServe src xfer e => Sys2Proof.Machine.execReadReqServe src xfer e s
  | .linkAck port m => Sys2Proof.Machine.execLinkAck port m s
  | .linkNak port m => Sys2Proof.Machine.execLinkNak port m s
  | .holdRefusal port m => Sys2Proof.Machine.execHoldRefusal port m s
  | .resume port m => Sys2Proof.Machine.execResume port m s
  | .credit port m => Sys2Proof.Machine.execCredit port m s
  | .delivered m => Sys2Proof.Machine.execDelivered m s
  | .cellRefusal m => Sys2Proof.Machine.execCellRefusal m s
  | .cellInflightTimeout port term lseq => Sys2Proof.Machine.execCellInflightTimeout port term lseq s
  | .deliveryTimeout xfer => Sys2Proof.Machine.execDeliveryTimeout xfer s
  | .quietLimitExpire port => Sys2Proof.Machine.execQuietLimitExpire port s
  | .serviceMessageReceive port bytes route => Sys2Proof.Machine.execServiceMessageReceive port bytes route s
  | .beaconSend port => Sys2Proof.Machine.execBeaconSend port s
  | .beaconReceive port b => Sys2Proof.Machine.execBeaconReceive port b s
  | .portTrainingDone port => Sys2Proof.Machine.execPortTrainingDone port s
  | .delayMeasureDone port => Sys2Proof.Machine.execDelayMeasureDone port s
  | .peerSilent port => Sys2Proof.Machine.execPeerSilent port s
  | .portGapStart port => Sys2Proof.Machine.execPortGapStart port s
  | .portGapEnd port => Sys2Proof.Machine.execPortGapEnd port s
  | .bypassArm p b v => Sys2Proof.Machine.execBypassArm p b v s
  | .bypassCloseCommand p b => Sys2Proof.Machine.execBypassCloseCommand p b s
  | .bypassMotionStart b => Sys2Proof.Machine.execBypassMotionStart b s
  | .bypassMotionEnd b => Sys2Proof.Machine.execBypassMotionEnd b s
  | .listenerMessage b frame => Sys2Proof.Machine.execListenerMessage b frame s
  | .schedLoad p v => Sys2Proof.Machine.execSchedLoad p v s
  | .schedLoadDone => Sys2Proof.Machine.execSchedLoadDone s
  | .scheduleSwap => Sys2Proof.Machine.execScheduleSwap s
  | .routeDataWrite p v => Sys2Proof.Machine.execRouteDataWrite p v s
  | .routeEntryEffect index => Sys2Proof.Machine.execRouteEntryEffect index s
  | .reroute port => Sys2Proof.Machine.execReroute port s
  | .keySwitchArm p v => Sys2Proof.Machine.execKeySwitchArm p v s
  | .keySwitch => Sys2Proof.Machine.execKeySwitch s
  | .oldKeyErase => Sys2Proof.Machine.execOldKeyErase s
  | .stepTrackingEnable p v => Sys2Proof.Machine.execStepTrackingEnable p v s
  | .stepArm p v => Sys2Proof.Machine.execStepArm p v s
  | .stepCancel p v => Sys2Proof.Machine.execStepCancel p v s
  | .stepOpen ctx => Sys2Proof.Machine.execStepOpen ctx s
  | .closeReady ctx => Sys2Proof.Machine.execCloseReady ctx s
  | .stepCommit ctx => Sys2Proof.Machine.execStepCommit ctx s
  | .closeDeadline ctx => Sys2Proof.Machine.execCloseDeadline ctx s
  | .votedTimeout ctx => Sys2Proof.Machine.execVotedTimeout ctx s
  | .attemptDiscard ctx => Sys2Proof.Machine.execAttemptDiscard ctx s
  | .discardDrainEnd ctx => Sys2Proof.Machine.execDiscardDrainEnd ctx s
  | .restoreComplete ctx => Sys2Proof.Machine.execRestoreComplete ctx s
  | .replayDiscardWrite p v => Sys2Proof.Machine.execReplayDiscardWrite p v s
  | .replayArriveWrite p v => Sys2Proof.Machine.execReplayArriveWrite p v s
  | .replayOpen m => Sys2Proof.Machine.execReplayOpen m s
  | .discardAnnounce m => Sys2Proof.Machine.execDiscardAnnounce m s
  | .arriveAnnounce m => Sys2Proof.Machine.execArriveAnnounce m s
  | .duskAnnounce m => Sys2Proof.Machine.execDuskAnnounce m s
  | .identityRequest src dest => Sys2Proof.Machine.execIdentityRequest src dest s
  | .setOpen p v => Sys2Proof.Machine.execSetOpen p v s
  | .setSeal p v => Sys2Proof.Machine.execSetSeal p v s
  | .setSealed => Sys2Proof.Machine.execSetSealed s
  | .clusterFence p v => Sys2Proof.Machine.execClusterFence p v s
  | .daybreakLoad p v ans => Sys2Proof.Machine.execDaybreakLoad p v ans s
  | .daybreakDone => Sys2Proof.Machine.execDaybreakDone s
  | .ckptArm p v => Sys2Proof.Machine.execCkptArm p v s
  | .ckptCancel p v => Sys2Proof.Machine.execCkptCancel p v s
  | .ckptPageCopy e fail => Sys2Proof.Machine.execCkptPageCopy e fail s
  | .ckptDone fail => Sys2Proof.Machine.execCkptDone fail s
  | .ckptTargetStall => Sys2Proof.Machine.execCkptTargetStall s
  | .ckptTgtEnable p v => Sys2Proof.Machine.execCkptTgtEnable p v s
  | .ckptRestore p v => Sys2Proof.Machine.execCkptRestore p v s
  | .restoreRecord rec page => Sys2Proof.Machine.execRestoreRecord rec page s
  | .ckptRestoreDone => Sys2Proof.Machine.execCkptRestoreDone s
  | .dupCheckRun pcore q run => Sys2Proof.Machine.execDupCheckRun pcore q run s
  | .dupLimitExpire ctx => Sys2Proof.Machine.execDupLimitExpire ctx s
  | .digestFaultRaise p v standing => Sys2Proof.Machine.execDigestFaultRaise p v standing s
  | .healthScoreWrite p v => Sys2Proof.Machine.execHealthScoreWrite p v s
  | .tempBandCheck core temp => Sys2Proof.Machine.execTempBandCheck core temp s
  | .bandEntryExpire core => Sys2Proof.Machine.execBandEntryExpire core s
  | .healthRecovery u => Sys2Proof.Machine.execHealthRecovery u s
  | .testItemStart core pack item temp => Sys2Proof.Machine.execTestItemStart core pack item temp s
  | .testItemEnd core hash temp sp => Sys2Proof.Machine.execTestItemEnd core hash temp sp s
  | .testPackPush port pack => Sys2Proof.Machine.execTestPackPush port pack s
  | .heartbeatCheck waited => Sys2Proof.Machine.execHeartbeatCheck waited s
  | .stopTimeout u => Sys2Proof.Machine.execStopTimeout u s
  | .internalLinkStall link => Sys2Proof.Machine.execInternalLinkStall link s
  | .hrcFwKick p => Sys2Proof.Machine.execHrcFwKick p s
  | .fwWatchdogExpire cp => Sys2Proof.Machine.execFwWatchdogExpire cp s
  | .dumpRequest p v => Sys2Proof.Machine.execDumpRequest p v s
  | .dumpAck p v => Sys2Proof.Machine.execDumpAck p v s
  | .dumpBlockTimeout block section_ why => Sys2Proof.Machine.execDumpBlockTimeout block section_ why s
  | .dumpEnd => Sys2Proof.Machine.execDumpEnd s
  | .coreResetRequest p v => Sys2Proof.Machine.execCoreResetRequest p v s
  | .clusterResetRequest p v => Sys2Proof.Machine.execClusterResetRequest p v s
  | .moduleRecoveryRequest p v => Sys2Proof.Machine.execModuleRecoveryRequest p v s
  | .coreResetDone core ok rtc => Sys2Proof.Machine.execCoreResetDone core ok rtc s
  | .clusterResetDone cluster ok rtc => Sys2Proof.Machine.execClusterResetDone cluster ok rtc s
  | .moduleRecovery => Sys2Proof.Machine.execModuleRecovery s
  | .moduleRecoveryDone r rtc => Sys2Proof.Machine.execModuleRecoveryDone r rtc s
  | .flogEnable p v => Sys2Proof.Machine.execFlogEnable p v s
  | .duskRequest p ctx v => Sys2Proof.Machine.execDuskRequest p ctx v s
  | .dusk ctx => Sys2Proof.Machine.execDusk ctx s
  | .duskDrainDone ctx => Sys2Proof.Machine.execDuskDrainDone ctx s
  | .zeroingDone => Sys2Proof.Machine.execZeroingDone s
  | .getVersion net => Sys2Proof.Machine.execGetVersion net s
  | .getCapabilities net => Sys2Proof.Machine.execGetCapabilities net s
  | .negotiateAlgorithms net offers => Sys2Proof.Machine.execNegotiateAlgorithms net offers s
  | .getDigests net => Sys2Proof.Machine.execGetDigests net s
  | .getCertificate net slot => Sys2Proof.Machine.execGetCertificate net slot s
  | .challenge net slot nonce => Sys2Proof.Machine.execChallenge net slot nonce s
  | .getMeasurements net index => Sys2Proof.Machine.execGetMeasurements net index s
  | .keyExchange net sess => Sys2Proof.Machine.execKeyExchange net sess s
  | .finish net sess macOk => Sys2Proof.Machine.execFinish net sess macOk s
  | .endSession net sess => Sys2Proof.Machine.execEndSession net sess s
  | .keyRequest net sess r => Sys2Proof.Machine.execKeyRequest net sess r s
  | .keyWrap net sess m => Sys2Proof.Machine.execKeyWrap net sess m s
  | .mgmtConnect port cert => Sys2Proof.Machine.execMgmtConnect port cert s
  | .operatorEnrolment port ca => Sys2Proof.Machine.execOperatorEnrolment port ca s
  | .decommission port => Sys2Proof.Machine.execDecommission port s
  | .hostViewSet port tenant => Sys2Proof.Machine.execHostViewSet port tenant s
  | .rollForwardEnable port => Sys2Proof.Machine.execRollForwardEnable port s
  | .fwSvnRollForward => Sys2Proof.Machine.execFwSvnRollForward s
  | .invasiveSessionOpen port => Sys2Proof.Machine.execInvasiveSessionOpen port s
  | .vendorSessionOpen port t => Sys2Proof.Machine.execVendorSessionOpen port t s
  | .debugSessionClose port => Sys2Proof.Machine.execDebugSessionClose port s
  | .coreHalt t => Sys2Proof.Machine.execCoreHalt t s
  | .coreSingleStep t => Sys2Proof.Machine.execCoreSingleStep t s
  | .debugMemoryRead t => Sys2Proof.Machine.execDebugMemoryRead t s
  | .debugMemoryWrite t bytes => Sys2Proof.Machine.execDebugMemoryWrite t bytes s
  | .scanRequest => Sys2Proof.Machine.execScanRequest s
  | .fuseRead word => Sys2Proof.Machine.execFuseRead word s
  | .fuseWrite word v => Sys2Proof.Machine.execFuseWrite word v s
  | .refurbishToBlank => Sys2Proof.Machine.execRefurbishToBlank s
  | .bypassOpenRequest port frame => Sys2Proof.Machine.execBypassOpenRequest port frame s
  | .thermTripClear port => Sys2Proof.Machine.execThermTripClear port s
  | .returnToService port => Sys2Proof.Machine.execReturnToService port s
  | .intakeRequest ch words => Sys2Proof.Machine.execIntakeRequest ch words s
  | .intakeDone ch blob e => Sys2Proof.Machine.execIntakeDone ch blob e s
  | .dutyUpdate temps => Sys2Proof.Machine.execDutyUpdate temps s
  | .overcurrent => Sys2Proof.Machine.execOvercurrent s
  | .thermalTrip die temp => Sys2Proof.Machine.execThermalTrip die temp s
  | .powerAvgUpdate => Sys2Proof.Machine.execPowerAvgUpdate s
  | .snpArmWrite v => Sys2Proof.Machine.execSnpArmWrite v s
  | .captureAnnounce frame => Sys2Proof.Machine.execCaptureAnnounce frame s
  | .midnightCapture reading => Sys2Proof.Machine.execMidnightCapture reading s
  | .trigInEdge short => Sys2Proof.Machine.execTrigInEdge short s
  | .trigInStuck => Sys2Proof.Machine.execTrigInStuck s
  | .ppsInEdge short cycles => Sys2Proof.Machine.execPpsInEdge short cycles s
  | .ppsValidTimeout => Sys2Proof.Machine.execPpsValidTimeout s
  | .timeRefLoss => Sys2Proof.Machine.execTimeRefLoss s
  | .timeRefFreqFault => Sys2Proof.Machine.execTimeRefFreqFault s
  | .timeRefRecover => Sys2Proof.Machine.execTimeRefRecover s
  | .main48vApply mv => Sys2Proof.Machine.execMain48vApply mv s
  | .main48vLoss => Sys2Proof.Machine.execMain48vLoss s
  | .undervolt => Sys2Proof.Machine.execUndervolt s
  | .standby12vApply => Sys2Proof.Machine.execStandby12vApply s
  | .standby12vLoss => Sys2Proof.Machine.execStandby12vLoss s
  | .bodyInsert => Sys2Proof.Machine.execBodyInsert s
  | .bodyRemove => Sys2Proof.Machine.execBodyRemove s
  | .modResetNAssert => Sys2Proof.Machine.execModResetNAssert s
  | .modResetNRelease => Sys2Proof.Machine.execModResetNRelease s
  | .relayReady => Sys2Proof.Machine.execRelayReady s
  | .relayExit => Sys2Proof.Machine.execRelayExit s
  | .i3cPrivateRead => Sys2Proof.Machine.execI3cPrivateRead s
  | .entdaa addr => Sys2Proof.Machine.execEntdaa addr s
  | .setdasa addr => Sys2Proof.Machine.execSetdasa addr s
  | .fwLoad p v => Sys2Proof.Machine.execFwLoad p v s
  | .fwLoadDone img => Sys2Proof.Machine.execFwLoadDone img s
  | .fwStart p v => Sys2Proof.Machine.execFwStart p v s
  | .fwSwap p v => Sys2Proof.Machine.execFwSwap p v s
  | .fwHandover => Sys2Proof.Machine.execFwHandover s
  | .fwGood => Sys2Proof.Machine.execFwGood s
  | .calPortRings p v => Sys2Proof.Machine.execCalPortRings p v s
  | .calCartridge p v => Sys2Proof.Machine.execCalCartridge p v s
  | .calDone => Sys2Proof.Machine.execCalDone s
  | .launchCoreCompletion core => Sys2Proof.Machine.execLaunchCoreCompletion core s
  | .admissionLimitExpire => Sys2Proof.Machine.execAdmissionLimitExpire s
  | .presenceMated => Sys2Proof.Machine.execPresenceMated s
  | .pcieConfigReady => Sys2Proof.Machine.execPcieConfigReady s
  | .cperAcknowledge n => Sys2Proof.Machine.execCperAcknowledge n s
  | .testKeyEnrol port => Sys2Proof.Machine.execTestKeyEnrol port s
  | .idfortFwUpdate img => Sys2Proof.Machine.execIdfortFwUpdate img s

end Sys2Proof.Machine
end

