-- ==== Sys2Proof/Safety.lean ====
section
/-! DEFINITION. What counts as a sound state of the model, in the terms that the statements use: every sparse map stands in
its one canonical form, so that equal contents are equal data. -/
namespace Sys2Proof.Machine

/-- A memory in canonical form: addresses strictly rising, and no byte listed that an unlisted address reads as. -/
def Memory.wf (m : List Host.Cell) : Bool := swf memZero m

/-- The map of the cores is in canonical form, and so is every core's scratchpad. -/
def scratchOk (l : Sparse Core) : Bool := swf (fun _ => {}) l && l.all fun e => Memory.wf e.2.sp

/-- The register window, the memory, host memory, the map of the cores and every scratchpad are in canonical form. -/
def State.canon (s : State) : Bool :=
  swf Reg.resetOf s.regs && Memory.wf s.mem && Memory.wf s.hostMem && scratchOk s.cores

/-- The machine goes on: the step neither faults nor refuses. -/
def State.goesOn (s : State) : Prop := ∃ t, step s = .next t

/-! ### Core sequencers -/

/-- A core's program goes on to its next instruction: one more has retired (R419). -/
def State.stepped (s : State) (c : Nat) : State := s.modCore c fun k => { k with retired := true, steps := k.steps - 1 }

/-- A vector instruction as its checks, its reads and its end see it. -/
structure VecCall where
  core : Nat
  args : VArgs
  errs : MemErr
  /-- CLASS of CORE_VX_STATUS (R132) -/
  cls : Nat
  /-- the elements or rows that it writes -/
  elems : Nat

def mapCall (c : Fin 144) (ins : List Stream) (d : Stream) (e : MemErr) (cls : Nat) (bad : Bool := false) (mask : Option Stream := none) : VecCall :=
  { core := c.val, errs := e, cls := cls, elems := d.counts.foldl (· * ·) 1
    args := { ins := ins, outs := d :: mask.toList, shape := d.counts, badOperand := bad || (mask.any fun q => q.counts != d.counts), rows := false } }

def rowCall (c : Fin 144) (rdims : Byte) (ins outs : List Stream) (a d : Stream) (e : MemErr) (cls : Nat) : VecCall :=
  let bad := !(rdims.toNat == 1 || rdims.toNat == 2) || !(outs.all fun q => q.n0.toNat == 1 && (rdims.toNat == 1 || q.n1.toNat == 1) && q.counts == d.counts)
  { core := c.val, errs := e, cls := cls, elems := d.counts.foldl (· * ·) 1
    args := { ins := ins, outs := outs, shape := (rowShape rdims.toNat a d).1, badOperand := bad, rows := true } }

/-- The vector instructions (R118): their streams and classes. -/
def vecCall : Instr → Option VecCall
  | .add c a b d _ e | .sub c a b d _ e | .mul c a b d _ e | .max c a b d _ e | .min c a b d _ e | .dexp c a b d _ e
  | .drelu c a b d _ e => some (mapCall c [a, b] d e clsElem)
  | .fma c a b x d _ e | .sel c a b x d _ e => some (mapCall c [a, b, x] d e clsElem)
  | .abs c a d _ e | .neg c a d _ e | .cvt c a d _ e => some (mapCall c [a] d e clsElem)
  | .cmp c r a b d _ e => some (mapCall c [a, b] d e clsElem (r == .unknown))
  | .div c a b d _ e | .dsigmoid c a b d _ e | .dtanh c a b d _ e | .dgelu c a b d _ e | .dsilu c a b d _ e
  | .derf c a b d _ e | .subexp c a b d _ e => some (mapCall c [a, b] d e clsFn)
  | .sqrt c a d _ e | .rcp c a d _ e | .rsqrt c a d _ e | .exp c a d _ e | .exp2 c a d _ e | .log c a d _ e | .log2 c a d _ e
  | .sigmoid c a d _ e | .tanh c a d _ e | .erf c a d _ e | .gelu c a d _ e | .silu c a d _ e | .sin c a d _ e | .cos c a d _ e =>
    some (mapCall c [a] d e clsFn)
  | .rsum c r a d _ e | .rsumsq c r a d _ e => some (rowCall c r [a] [d] a d e clsRed)
  | .rdot c r a b d _ e => some (rowCall c r [a, b] [d] a d e clsRed)
  | .rmax c r _ a d d2 _ e | .rmin c r _ a d d2 _ e => some (rowCall c r [a] [d, d2.words] a d e clsRed)
  | .rand c d _ e => some (mapCall c [] d e clsRand)
  | .drop c _ _ a d m _ e => some (mapCall c [a] d e clsRand false m)
  | .sample c r _ _ a d _ e => some (rowCall c r [a] [d.words] a d.words e clsRand)
  | _ => none

/-- The core of a sequencer instruction. -/
def seqCore : Instr → Option Nat
  | .acwWrite c _ | .aswClear c _ | .mma c _ _ _ | .ard c _ _ | .ssig c _ _ _ | .swait c _ _ _ | .sbar c _ _ _ _ _
  | .commit c | .post c _ _ _ | .gclaim c _ _ _ | .launchCoreCompletion c => some c.val
  | i => (vecCall i).map (·.core)

/-- A byte of a core's scratchpad in the PA map. -/
def VecCall.pa (q : VecCall) (a : Nat) : Nat := spBase + q.core * 0x400000 + a

/-- The scratchpad bytes of a vector instruction's outputs, scales included. -/
def VecCall.outBytes (q : VecCall) : List Nat := q.args.outs.flatMap streamBytes

/-- Nothing stops a vector instruction: its core runs LAUNCH `o`, its operands and streams pass the checks at issue, and no
byte of its streams meets an error or poison. -/
def State.vecReady (s : State) (q : VecCall) (o : Op) : Prop :=
  s.running q.core = some o ∧ q.args.reason = none ∧ q.errs.ce = [] ∧ q.errs.ue = []
    ∧ ∀ a ∈ q.args.ins.flatMap streamBytes ++ q.outBytes, s.poisoned (q.pa a) = false

/-- What a vector instruction that completed leaves (R63, R113, R117, R132): its core's CLASS, its element counter grown by the
elements or rows written modulo 2^64, flags only added to ASW; every other register but the counters of serial, held and
stalled cycles, every byte outside its outputs, every other core, and of its own all but the scratchpad, the retirement mark
and the steps left, and all else of the module as before. -/
def State.vecDone (s t : State) (q : VecCall) : Prop :=
  t = { s with regs := t.regs, mem := t.mem, memx := t.memx, cores := t.cores, freeCtr := t.freeCtr }
    ∧ t.get (Reg.CORE_VX_STATUS_CLASS q.core) = q.cls
    ∧ t.get64 (Reg.CORE_VX_ELEM_LO_ELEM_LO q.core) (Reg.CORE_VX_ELEM_HI_ELEM_HI q.core)
        = (s.get64 (Reg.CORE_VX_ELEM_LO_ELEM_LO q.core) (Reg.CORE_VX_ELEM_HI_ELEM_HI q.core) + q.elems) % 2 ^ 64
    ∧ (∃ f : Nat, t.reg (Reg.CORE_ASW q.core) = s.reg (Reg.CORE_ASW q.core) ||| BitVec.ofNat 32 f ∧ f < 32)
    ∧ (∀ a, a ≠ Reg.CORE_ASW q.core → a ≠ Reg.CORE_VX_ELEM_LO q.core → a ≠ Reg.CORE_VX_ELEM_HI q.core →
        a ≠ Reg.CORE_VX_STATUS q.core → a ≠ Reg.CORE_VX_SERIAL_CNT q.core → a ≠ Reg.CORE_VX_HAZARD_CNT q.core →
        a ≠ Reg.CORE_SP_STALL_CNT q.core → t.reg a = s.reg a)
    ∧ (∀ a, (∀ b ∈ q.outBytes, a ≠ q.pa b) → t.byteAt a = s.byteAt a)
    ∧ (∀ c, { t.core c with sp := [] } = { (if c = q.core then s.stepped c else s).core c with sp := [] })

/-- The result of an element of each elementary instruction, function and derivative (R119–R122, R128), from its control
word, output and input elements; the first part gives its random bits. -/
def elemResult : Instr → Option (Draw × (Acw → Stream → List Val → VRes))
  | .add _ _ _ _ dr _ => some (dr, fun a _ vs => VElem.add.eval (a.rmode == 3) vs)
  | .sub _ _ _ _ dr _ => some (dr, fun a _ vs => VElem.sub.eval (a.rmode == 3) vs)
  | .mul _ _ _ _ dr _ => some (dr, fun a _ vs => VElem.mul.eval (a.rmode == 3) vs)
  | .max _ _ _ _ dr _ => some (dr, fun a _ vs => VElem.max.eval (a.rmode == 3) vs)
  | .min _ _ _ _ dr _ => some (dr, fun a _ vs => VElem.min.eval (a.rmode == 3) vs)
  | .drelu _ _ _ _ dr _ => some (dr, fun a _ vs => VElem.drelu.eval (a.rmode == 3) vs)
  | .dexp _ _ _ _ dr _ => some (dr, fun a _ vs => VElem.mul.eval (a.rmode == 3) vs)
  | .fma _ _ _ _ _ dr _ => some (dr, fun a _ vs => VElem.fma.eval (a.rmode == 3) vs)
  | .sel _ _ _ _ _ dr _ => some (dr, fun a _ vs => VElem.sel.eval (a.rmode == 3) vs)
  | .abs _ _ _ dr _ => some (dr, fun a _ vs => VElem.abs.eval (a.rmode == 3) vs)
  | .neg _ _ _ dr _ => some (dr, fun a _ vs => VElem.neg.eval (a.rmode == 3) vs)
  | .cvt _ _ _ dr _ => some (dr, fun a _ vs => VElem.cvt.eval (a.rmode == 3) vs)
  | .cmp _ r _ _ _ dr _ => some (dr, fun a _ vs => (VElem.cmp r).eval (a.rmode == 3) vs)
  | .div _ _ _ _ dr _ => some (dr, fun a d vs => VFn.div.result (strictOut a d) vs)
  | .dsigmoid _ _ _ _ dr _ => some (dr, fun a d vs => VFn.dsigmoid.result (strictOut a d) vs)
  | .dtanh _ _ _ _ dr _ => some (dr, fun a d vs => VFn.dtanh.result (strictOut a d) vs)
  | .dgelu _ _ _ _ dr _ => some (dr, fun a d vs => VFn.dgelu.result (strictOut a d) vs)
  | .dsilu _ _ _ _ dr _ => some (dr, fun a d vs => VFn.dsilu.result (strictOut a d) vs)
  | .derf _ _ _ _ dr _ => some (dr, fun a d vs => VFn.derf.result (strictOut a d) vs)
  | .subexp _ _ _ _ dr _ => some (dr, fun a d vs => subexpResult (strictOut a d) vs)
  | .sqrt _ _ _ dr _ => some (dr, fun a d vs => VFn.sqrt.result (strictOut a d) vs)
  | .rcp _ _ _ dr _ => some (dr, fun a d vs => VFn.rcp.result (strictOut a d) vs)
  | .rsqrt _ _ _ dr _ => some (dr, fun a d vs => VFn.rsqrt.result (strictOut a d) vs)
  | .exp _ _ _ dr _ => some (dr, fun a d vs => VFn.exp.result (strictOut a d) vs)
  | .exp2 _ _ _ dr _ => some (dr, fun a d vs => VFn.exp2.result (strictOut a d) vs)
  | .log _ _ _ dr _ => some (dr, fun a d vs => VFn.log.result (strictOut a d) vs)
  | .log2 _ _ _ dr _ => some (dr, fun a d vs => VFn.log2.result (strictOut a d) vs)
  | .sigmoid _ _ _ dr _ => some (dr, fun a d vs => VFn.sigmoid.result (strictOut a d) vs)
  | .tanh _ _ _ dr _ => some (dr, fun a d vs => VFn.tanh.result (strictOut a d) vs)
  | .erf _ _ _ dr _ => some (dr, fun a d vs => VFn.erf.result (strictOut a d) vs)
  | .gelu _ _ _ dr _ => some (dr, fun a d vs => VFn.gelu.result (strictOut a d) vs)
  | .silu _ _ _ dr _ => some (dr, fun a d vs => VFn.silu.result (strictOut a d) vs)
  | .sin _ _ _ dr _ => some (dr, fun a d vs => VFn.sin.result (strictOut a d) vs)
  | .cos _ _ _ dr _ => some (dr, fun a d vs => VFn.cos.result (strictOut a d) vs)
  | _ => none

/-- A party can act: only a control processor that a debug session has halted cannot (R464). -/
def State.acts (s : State) (p : Party) : Prop := ∀ k, p = .cp k → s.sec.halted.contains k.val = false

/-- Element 0 of a plain stream in a core's scratchpad has taken a code, the other bits of its bytes unchanged (R50). -/
def State.wroteCode (s t : State) (c : Nat) (d : Stream) (code : Nat) : Prop :=
  let p := d.place 0
  spNat (t.core c).sp p.1.toNat p.2.2 = setBits (spNat (s.core c).sp p.1.toNat p.2.2) p.2.1 d.fmt.bits code

/-- The elements of the one row that a row reduction with one output reads, by input. -/
def State.oneRow (s : State) (c : Nat) (rdims : Byte) (ins : List Stream) (a d : Stream) : List (List Val) :=
  (coords (rowShape rdims.toNat a d).2).map fun ix => ins.map fun st => st.read (s.core c).sp (st.offset ix)

/-- The number of an element of a list of inputs, NaN where there is none. -/
def numAt (vs : List Val) (k : Nat) : Num := ((vs[k]?).map (·.num)).getD .nan

end Sys2Proof.Machine
end

