-- ==== Sys2Proof/Certificates/Slice0/Obligations.lean ====
section
/-! DEFINITION. The statements about the model: per command or group of commands, the state it answers under hypotheses on
the state and the operands; the invariant that every step keeps; and what reset leaves. -/
section
open Sys2Proof Sys2Proof.Machine

/-! ### The queue, reset and the canonical form -/

/-- O1: a step takes the command at the front of the queue and runs it on the state with the queue's rest. -/
def Obligations.StepRunsFrontCommand : Prop :=
  ∀ (c : Instr) (rest : List Instr) (s : State), s.pending = c :: rest → step s = exec c { s with pending := rest }

/-- O2: reset is canonical: no register, memory or scratchpad map lists what it need not. -/
def Obligations.ResetIsCanonical : Prop := State.reset.canon = true

/-- O3: what reset leaves: Night relay with the fabric not enabled and firmware not started, every duty level 64, every context FREE,
every ring disabled with its index at 0, every byte of memory and scratchpad 0 (log entries 1 and 4), the frame counter 0
and nothing sent (R166, R170, R468, R490, R491). -/
def Obligations.ResetValues : Prop :=
  State.reset.get Reg.GLB_STATUS_RELAY = 1 ∧ State.reset.get Reg.SWT_CTRL_ENABLE = 0
    ∧ State.reset.get Reg.SEC_STATUS_FW_STARTED = 0
    ∧ (∀ d < 4, State.reset.duty d = 64)
    ∧ (∀ c < 64, State.reset.get (Reg.SUB_CTX_CTRL_STATE c) = 0)
    ∧ (∀ r < 256, State.reset.get (Reg.SUB_RING_CFG_ENABLE r) = 0 ∧ State.reset.get (Reg.SUB_RING_CI_CI r) = 0)
    ∧ (∀ a, State.reset.byteAt a = 0) ∧ State.reset.frame = 0 ∧ State.reset.out = []

/-- O4: from every canonical state a step that answers a next state answers a canonical one. -/
def Obligations.StepKeepsCanonicalForm : Prop :=
  ∀ s t : State, s.canon = true → step s = .next t → t.canon = true

/-- O5: no command faults or is refused: each answers a next state, from every state and with every operand. -/
def Obligations.EveryCommandAnswersNext : Prop := ∀ (c : Instr) (s : State), ∃ t, exec c s = .next t

/-! ### Registers and memory -/

/-- O6: a field reads what was written to it, cut to its width; every field of another register, every field of the same
register that does not meet it, and every byte of memory and scratchpad keep their values (R10, R13). -/
def Obligations.FieldWriteReadsBack : Prop :=
  ∀ (s : State) (f : Reg.Fld) (v : Nat), s.canon = true → f.lo + f.w ≤ 32 →
    (s.put f v).get f = v % 2 ^ f.w
    ∧ (∀ g : Reg.Fld, g.reg ≠ f.reg ∨ g.lo + g.w ≤ f.lo ∨ f.lo + f.w ≤ g.lo → (s.put f v).get g = s.get g)
    ∧ (∀ a, a ≠ f.reg → (s.put f v).reg a = s.reg a)
    ∧ (∀ a, (s.put f v).byteAt a = s.byteAt a)

/-- O7: a store to memory or scratchpad leaves every byte outside its cells; a cell whose poison unit is not poisoned, or is
covered whole, reads the last value stored to it; a poisoned unit that the store covers only in part keeps every byte and
its poison (R157). In the check regions the memory holds each check word's difference from the right one: a byte stored
there reads as stored, and a store that covers a whole block leaves the block's check word right (R339, R340). -/
def Obligations.StoreObeysPoison : Prop :=
  ∀ (s : State) (w : List Host.Cell), s.canon = true →
    (∀ a, (∀ c ∈ w, c.1 ≠ a) → (∀ b, checkedBlock a = some b → coversBlock w b = false) → (s.store w).byteAt a = s.byteAt a)
    ∧ (∀ pre a b post, w = pre ++ (a, b) :: post → (∀ c ∈ post, c.1 ≠ a) → (poisonUnit a).1 ∉ s.partialPoison w →
        checkedBlock a = none → (s.store w).byteAt a = b)
    ∧ (∀ a, (poisonUnit a).1 ∈ s.partialPoison w → (s.store w).poisoned a = true
        ∧ ((∀ b, checkedBlock a = some b → coversBlock w b = false) → (s.store w).byteAt a = s.byteAt a))
    ∧ (∀ a b, checkedBlock a ≠ none → (poisonUnit a).1 ∉ s.partialPoison [(a, b)] → (s.store [(a, b)]).paByte a = b)
    ∧ (∀ b, coversBlock w b = true → (∀ k < 4, checkedBlock (checkAt b + k) = some b) → (s.store w).checkBad b = false)

/-- O8: a write to a virtual page that does not translate stores nothing and names the first address that fails; one that
translates stores each byte at the physical address of its virtual one (R139, R141). -/
def Obligations.VirtualWriteTranslates : Prop :=
  ∀ (s : State) (c va : Nat) (bs : List Byte),
    (∀ e, s.writeVa c va bs = .error e → ∃ k < bs.length, e = va + k ∧ s.xlate c e true = none ∧ ∀ j < k, (s.xlate c (va + j) true).isSome)
    ∧ (∀ t, s.writeVa c va bs = .ok t → ∃ pas : List Nat, pas.length = bs.length ∧
        (∀ k < bs.length, s.xlate c (va + k) true = pas[k]?) ∧ t = s.store (pas.zip bs))

/-! ### Reads that latch -/

/-- O9: each latching read (FTB_FRAME_LO, CORE_MX_PASS_LO, CORE_VX_ELEM_LO, INT_DUP_SAMPLED_LO, SYN_OBJ_VAL_LO and
SUB_PROG_DATA0) completes in every state: it answers its register's value and latches its partners, and changes nothing else. The three 64-bit event counters are coarsened for a host in the tenant view (R462, R502). -/
def Obligations.LatchingReads : Prop :=
  ∀ s : State,
    (∀ (cycle : Fin 8192) (fine : Fin 64), exec (.ftbFrameLoRead cycle fine) s = .next
      (((s.setLatch Reg.FTB_FRAME_HI (BitVec.ofNat 32 (s.time.frame.toNat / 2 ^ 32))).setLatch Reg.FTB_PHASE
        (BitVec.ofNat 32 (cycle.val + 8192 * fine.val))).answer (BitVec.ofNat 32 s.time.frame.toNat)))
    ∧ (∀ core : Fin 144, exec (.coreMxPassLoRead core) s = .next
      ((s.setLatch (Reg.CORE_MX_PASS_HI core) (s.reg (Reg.CORE_MX_PASS_HI core))).answer
        (BitVec.ofNat 32 (s.coarse (s.reg (Reg.CORE_MX_PASS_LO core)).toNat))))
    ∧ (∀ core : Fin 144, exec (.coreVxElemLoRead core) s = .next
      ((s.setLatch (Reg.CORE_VX_ELEM_HI core) (s.reg (Reg.CORE_VX_ELEM_HI core))).answer
        (BitVec.ofNat 32 (s.coarse (s.reg (Reg.CORE_VX_ELEM_LO core)).toNat))))
    ∧ (exec .intDupSampledLoRead s = .next
      ((s.setLatch Reg.INT_DUP_SAMPLED_HI (s.reg Reg.INT_DUP_SAMPLED_HI)).answer
        (BitVec.ofNat 32 (s.coarse (s.reg Reg.INT_DUP_SAMPLED_LO).toNat))))
    ∧ exec .synObjValLoRead s = .next
        (((s.setLatch Reg.SYN_OBJ_VAL_HI (BitVec.ofNat 32
            ((if (s.obj (s.get Reg.SYN_OBJ_SEL_INDEX)).barrier then 0 else (s.obj (s.get Reg.SYN_OBJ_SEL_INDEX)).value) / 2 ^ 32))).setLatch
          Reg.SYN_OBJ_STATE (BitVec.ofNat 32 (s.objState (s.get Reg.SYN_OBJ_SEL_INDEX)))).answer
          (BitVec.ofNat 32 (if (s.obj (s.get Reg.SYN_OBJ_SEL_INDEX)).barrier then 0 else (s.obj (s.get Reg.SYN_OBJ_SEL_INDEX)).value)))
    ∧ exec .subProgData0Read s = .next
        (((List.range 7).foldl (fun t k => t.setLatch (Reg.SUB_PROG_DATA (k + 1))
            (BitVec.ofNat 32 (leNat ((s.progBytes.drop (4 * (k + 1))).take 4)))) s).answer
          (BitVec.ofNat 32 (leNat (s.progBytes.take 4))))

/-! ### Mailboxes -/

/-- O10: a word that an endpoint writes to TX joins the queue towards the other endpoint with the writer's identity; where that
queue holds 8 words it replaces the newest, COLLISION is set and counted. The other endpoint is woken: the host by vector
256 + n, once per frame and only with IRQ_EN, every other endpoint by a wake event. A write by neither endpoint stores
nothing and is counted as FOREIGN (R201, R202, R204). A read of RX by an endpoint takes the oldest word of its queue, returns it and latches its sender's identity; an empty
queue returns 0 and latches 0; a read by neither endpoint returns 0 and takes nothing (R203, R206). -/
def Obligations.Mailboxes : Prop :=
  (∀ (who : BitVec 16) (ch : Fin 32) (w : Word) (s : State),
      let x := s.chan ch
      let e0 := s.get (Reg.MBX_CH_CFG_E0 ch)
      let e1 := s.get (Reg.MBX_CH_CFG_E1 ch)
      (who.toNat = e0 → x.to1.length < 8 → exec (.mbxTx who ch w) s = .next
        ((s.setChan ch { x with to1 := x.to1 ++ [(w.toNat, who.toNat)], collCnt := min 65535 x.collCnt }).mbxWake ch e1))
      ∧ (who.toNat = e0 → x.to1.length = 8 → exec (.mbxTx who ch w) s = .next
        ((s.setChan ch { x with to1 := x.to1.dropLast ++ [(w.toNat, who.toNat)], coll1 := true, collCnt := min 65535 (x.collCnt + 1) }).mbxWake ch e1))
      ∧ (who.toNat = e1 → e0 ≠ e1 → x.to0.length < 8 → exec (.mbxTx who ch w) s = .next
        ((s.setChan ch { x with to0 := x.to0 ++ [(w.toNat, who.toNat)], collCnt := min 65535 x.collCnt }).mbxWake ch e0))
      ∧ (who.toNat = e1 → e0 ≠ e1 → x.to0.length = 8 → exec (.mbxTx who ch w) s = .next
        ((s.setChan ch { x with to0 := x.to0.dropLast ++ [(w.toNat, who.toNat)], coll0 := true, collCnt := min 65535 (x.collCnt + 1) }).mbxWake ch e0))
      ∧ (who.toNat ≠ e0 → who.toNat ≠ e1 → exec (.mbxTx who ch w) s = .next
        ((s.mark Reg.MBX_EVENT_FOREIGN).bump Reg.MBX_FOREIGN_CNT_COUNT))
      ∧ (∀ (n : Nat) (t : State), t.on (Reg.MBX_CH_WAKE_IRQ_EN n) = true → (t.chan n).irqSent = false →
        t.mbxWake n 0x1000 = (t.emit (.msix (256 + n))).setChan n { t.chan n with irqSent := true })
      ∧ (∀ (n : Nat) (t : State), t.on (Reg.MBX_CH_WAKE_IRQ_EN n) = false ∨ (t.chan n).irqSent = true → t.mbxWake n 0x1000 = t)
      ∧ (∀ (n e : Nat) (t : State), e ≠ 0x1000 → t.mbxWake n e = t.emit (.wake e)))
  ∧ (∀ (who : BitVec 16) (ch : Fin 32) (s : State),
      let x := s.chan ch
      (∀ w from_ rest, who.toNat = s.get (Reg.MBX_CH_CFG_E0 ch) → x.to0 = (w, from_) :: rest →
        exec (.mbxRx who ch) s = .next ((s.setChan ch { x with to0 := rest, stamp0 := from_ }).answer (BitVec.ofNat 32 w)))
      ∧ (who.toNat = s.get (Reg.MBX_CH_CFG_E0 ch) → x.to0 = [] →
        exec (.mbxRx who ch) s = .next ((s.setChan ch { x with stamp0 := 0 }).answer 0))
      ∧ (∀ w from_ rest, who.toNat = s.get (Reg.MBX_CH_CFG_E1 ch) → who.toNat ≠ s.get (Reg.MBX_CH_CFG_E0 ch) → x.to1 = (w, from_) :: rest →
        exec (.mbxRx who ch) s = .next ((s.setChan ch { x with to1 := rest, stamp1 := from_ }).answer (BitVec.ofNat 32 w)))
      ∧ (who.toNat = s.get (Reg.MBX_CH_CFG_E1 ch) → who.toNat ≠ s.get (Reg.MBX_CH_CFG_E0 ch) → x.to1 = [] →
        exec (.mbxRx who ch) s = .next ((s.setChan ch { x with stamp1 := 0 }).answer 0))
      ∧ (who.toNat ≠ s.get (Reg.MBX_CH_CFG_E0 ch) → who.toNat ≠ s.get (Reg.MBX_CH_CFG_E1 ch) →
        exec (.mbxRx who ch) s = .next (s.answer 0)))

/-! ### Core sequencers -/

/-- O11: two choices of the model, no rules of the spec: with no command waiting a step leaves the module as it is (log entry 2), and
a sequencer or vector instruction of a core that runs no LAUNCH changes nothing (log entry 3). -/
def Obligations.NothingToRun : Prop :=
  (∀ s : State, s.pending = [] → step s = .next s)
    ∧ ∀ (i : Instr) (c : Nat) (s : State), seqCore i = some c → s.running c = none → exec i s = .next s

/-- O12: the core program writes its arithmetic control word, of which RMODE, STRICT, SAT and MXRULE exist, and clears the
flags of its status word that the mask names (R61–R64); COMMIT counts a point of its core for the LAUNCH, whose sub-step is the
lowest count of its core set (R193). Nothing else changes but that an instruction has retired. -/
def Obligations.CoreControlWords : Prop :=
  ∀ (core : Fin 144) (v : Word) (o : Op) (s : State), s.running core = some o →
    exec (.acwWrite core v) s = .next ((s.stepped core).setReg (Reg.CORE_ACW core) (v &&& 0x3F))
    ∧ exec (.aswClear core v) s = .next ((s.stepped core).setReg (Reg.CORE_ASW core) (s.reg (Reg.CORE_ASW core) &&& ~~~v))
    ∧ (let n (c : Nat) : Nat := sget (fun _ => 0) o.commits c + (if c = core.val then 1 else 0)
       exec (.commit core) s = .next ((s.stepped core).modOp o.ring o.idx fun x => { x with
         commits := sset (fun _ => 0) o.commits core.val (n core.val), substep := (o.cores.map n).foldl min (n core.val) }))

/-- O13: a SSIG on an object of the own module adds its value to the counter in the name of its core; one to another module is
sent as a remote signal of its core, or is held by its core while 1,024 remote operations stand; one to the own module by
number that its checks let through is applied here. A value in scratchpad is the 64-bit word there, and poison in it ends the
LAUNCH with MEM_UE, as poison in the identifier's table entry does. An identifier that maps no counter stops the LAUNCH with
PERMISSION, REASON 6. While ENABLE is 0 the core holds the instruction (R157, R209, R214, R218, R220, R230, R504). -/
def Obligations.SignalFromACore : Prop :=
  ∀ (core : Fin 144) (vid : BitVec 16) (d : BitVec 64) (a : BitVec 22) (dest : BitVec 13) (m : Option (BitVec 13)) (v : SigVal)
    (o : Op) (s : State), s.running core = some o →
    let t := s.stepped core
    let pas := (List.range 8).map fun k => spAddr core (a.toNat + k)
    (s.synOn = false → exec (.ssig core vid m v) s = .next (s.modCore core fun k => { k with stall := some (.ssig vid.toNat m v) }))
    ∧ (s.synOn = true →
      (∀ obj, t.xtObj o.ctx vid.toNat false = some obj →
        exec (.ssig core vid none (.imm d)) s = .next ((t.fillXt o.ctx vid.toNat).signal obj d.toNat o.party 1 core vid.toNat)
        ∧ ((∀ pa ∈ pas, t.poisoned pa = false) → exec (.ssig core vid none (.sp a)) s = .next
          ((t.fillXt o.ctx vid.toNat).signal obj (leNat (pas.map t.byteAt)) o.party 1 core vid.toNat)))
      ∧ (∀ pa, pas.find? t.poisoned = some pa → exec (.ssig core vid m (.sp a)) s = .next (t.ueOp o 1 core pa))
      ∧ (t.xtObj o.ctx vid.toNat false = none → exec (.ssig core vid none (.imm d)) s = .next
        (match t.xtPoison o.ctx vid.toNat with
          | some pa => t.ueOp o 1 core pa
          | none => t.stopPerm core 6 vid.toNat))
      ∧ (dest.toNat ≠ t.moduleId → t.remoteFree = true →
        exec (.ssig core vid (some dest) (.imm d)) s = .next (t.sendSignal o (some core.val) dest.toNat vid.toNat d.toNat))
      ∧ (dest.toNat ≠ t.moduleId → t.remoteFree = false → exec (.ssig core vid (some dest) (.imm d)) s = .next
        (s.modCore core fun k => { k with stall := some (.ssig vid.toNat (some dest) (.imm d)) }))
      ∧ (∀ c obj, dest.toNat = t.moduleId → t.remoteCheck o.vcid (t.get (Reg.SYN_CTX_EPOCH_EPOCH o.ctx)) vid.toNat = .ok (c, obj) →
        exec (.ssig core vid (some dest) (.imm d)) s = .next
          ((t.fillXt c vid.toNat).sumSignals obj [⟨obj, d.toNat, t.ctxParty c, 7, 0, vid.toNat, true⟩])))

/-- O14: a SWAIT whose counter has reached the threshold lets its core go on; otherwise the core waits with the named watchdog
or the context's; a threshold above 2^63 − 1 stops the LAUNCH with REASON 10 (R213, R215, R216, R503). A SBAR arrives at its
barrier with its payload operation and payload, and its core waits for the release; where both episodes are full its core
holds it, where its payload operation does not fit its LAUNCH stops with REASON 10, and at a broken barrier it
stops with SYNC_WATCHDOG (R224–R228, R504); a barrier that becomes free lets the cores that hold an instruction try again.
While ENABLE is 0 the core holds either instruction (R230). -/
def Obligations.CoreWaits : Prop :=
  ∀ (core : Fin 144) (vid : BitVec 16) (thr payload : BitVec 64) (op : Byte) (res : BitVec 22) (wdog : Word) (o : Op) (s : State) (obj : Nat),
    s.running core = some o →
    let t := s.stepped core
    let b := t.obj obj
    let u := t.fillXt o.ctx vid.toNat
    let frames := if wdog.toNat = 0 then t.get (Reg.SYN_CTX_WDOG_FRAMES o.ctx) else wdog.toNat
    let held := s.modCore core fun k => { k with stall := some (.sbar vid.toNat op.toNat payload.toNat res.toNat wdog.toNat) }
    (s.synOn = false → exec (.swait core vid thr wdog) s = .next
        (s.modCore core fun k => { k with stall := some (.swait vid.toNat thr.toNat wdog.toNat) })
      ∧ exec (.sbar core vid op payload res wdog) s = .next held.retrySync)
    ∧ (s.synOn = true →
      (t.xtObj o.ctx vid.toNat false = some obj → thr.toNat ≤ b.value → thr.toNat ≤ counterMax →
        exec (.swait core vid thr wdog) s = .next u)
      ∧ (t.xtObj o.ctx vid.toNat false = some obj → b.value < thr.toNat → thr.toNat ≤ counterMax →
        exec (.swait core vid thr wdog) s = .next (u.modCore core fun k => { k with
          wait := some { obj := obj, vid := vid.toNat, thr := thr.toNat, wdog := frames } }))
      ∧ (counterMax < thr.toNat → exec (.swait core vid thr wdog) s = .next (t.stopPerm core 10 vid.toNat))
      ∧ (t.xtObj o.ctx vid.toNat true = some obj → op.toNat ≤ 2 →
        (b.broken = false → b.slot.isSome → b.fits op.toNat = true → exec (.sbar core vid op payload res wdog) s = .next
          ((u.modCore core fun k => { k with
              wait := some { obj := obj, vid := vid.toNat, barrier := true, wdog := frames, res := res.toNat } }).arrive
            obj o.ctx vid.toNat (.core core) op.toNat payload.toNat).retrySync)
        ∧ (b.broken = false → b.slot = none → exec (.sbar core vid op payload res wdog) s = .next held.retrySync)
        ∧ (b.broken = false → b.slot.isSome → b.fits op.toNat = false →
          exec (.sbar core vid op payload res wdog) s = .next (t.stopPerm core 10 vid.toNat).retrySync)
        ∧ (b.broken = true → ∃ detail, exec (.sbar core vid op payload res wdog) s = .next
          (((t.bump Reg.SYN_WDOG_CNT_COUNT).mark Reg.SYN_EVENT_WATCHDOG).stopLaunch core fSyncWatchdog detail).retrySync)))

/-- O15: a POST to an enabled device-resident ring of its own context with a free slot, and with no earlier POST to it held, writes
the 64 bytes of scratchpad to the slot of the producer index, bytes 8–15 replaced by the sequence number that the slot must
carry, and advances the producer index; where the ring is full, not enabled or waited for its core holds it, as it does where
the slot's page waits for a pre-image; poison in the 64 bytes ends the LAUNCH with MEM_UE, a parity error on the way with
CHECK_FAIL, a slot that does not translate with PERMISSION, a store that cannot be done as its code says, and a ring of
another context or in host memory stops it with REASON 9 (R141, R157, R198, R199, R343, R402, R503, R504). -/
def Obligations.PostADescriptor : Prop :=
  ∀ (core : Fin 144) (ring : Fin 256) (src : BitVec 22) (e : MemErr) (o : Op) (s : State), s.running core = some o →
    let t := s.stepped core
    let x := t.ring ring
    let pas := (List.range 64).map fun k => spAddr core (src.toNat + k)
    let m := t.meetErrs (some o.ctx) pas.contains e
    let bs := pas.map m.byteAt
    let slot := m.ringBase ring + x.piOld % m.ringSize ring * 64
    let desc := bs.take 8 ++ leBytes 8 (m.seqBase ring + x.piOld) ++ bs.drop 16
    let open_ : Prop := t.ringCtx ring = o.ctx ∧ t.on (Reg.SUB_RING_CFG_LOC ring) = true
    let room : Prop := t.on (Reg.SUB_RING_CFG_ENABLE ring) = true ∧ sub32 x.piOld (t.get (Reg.SUB_RING_CI_CI ring)) < t.ringSize ring
      ∧ ∀ q ∈ s.heldPosts ring, s.sub.postCnt ≤ q.1
    let post := exec (.post core ring src e) s
    (open_ → room → (∀ pa, m.readErr o.ctx pas e ≠ .ue pa ∧ m.readErr o.ctx pas e ≠ .parity pa) →
      (∀ a, m.xlateRun o.ctx slot 64 true = .error a → post = .next (m.xlateFault o 1 core a))
      ∧ (∀ dst, m.xlateRun o.ctx slot 64 true = .ok dst →
        (∀ u, m.storeFor (.core core) o 1 core slot (dst.zip desc) e = .ok u → post = .next (u.modRing ring fun y => { y with
          piOld := mod32 (y.piOld + 1), kicked := y.blocked || y.piOld == m.get (Reg.SUB_RING_CI_CI ring), blocked := false }))
        ∧ (∀ u, m.storeFor (.core core) o 1 core slot (dst.zip desc) e = .stop u → post = .next u)
        ∧ (m.storeFor (.core core) o 1 core slot (dst.zip desc) e = .wait →
          post = .next ((s.waitShadow (.core core)).holdPost core ring src.toNat s.sub.postCnt))))
    ∧ (open_ → room → ∀ pa, m.readErr o.ctx pas e = .ue pa → post = .next (m.ueOp o 1 core pa))
    ∧ (open_ → room → ∀ pa, m.readErr o.ctx pas e = .parity pa → post = .next (m.parityOp o 1 core pa))
    ∧ (open_ → ¬ room → post = .next (s.holdPost core ring src.toNat s.sub.postCnt))
    ∧ (¬ open_ → post = .next (t.stopPerm core 9 ring))

/-- O16: the program of a LAUNCH ends on a core: its tile sequences end, the core is free, the LAUNCH counts one more progress
unit and one core less, and finishes with its last core once its remote signals are acknowledged (R184, R193, R220). -/
def Obligations.LaunchEndsOnACore : Prop :=
  ∀ (core : Fin 144) (o : Op) (s : State), s.running core = some o →
    exec (.launchCoreCompletion core) s = .next
      (((((s.stepped core).endSeqs core).modCore core fun k => { k with launch := none, misses := 0, weights := none }).modOp o.ring o.idx
        fun x => { x with coresLeft := x.coresLeft.filter (· != core.val), units := x.units + 1 }).launchCheck o.ring o.idx)
    ∧ (∀ (q : Op) (t : State), t.op? q.ring q.idx = some q → q.opc = 1 → q.issued = true → q.fin = none → q.coresLeft = [] → q.remote = 0 →
        t.launchCheck q.ring q.idx = t.finish q (if q.noticed then stNotice else stDone) (if q.noticed then fExactRange else 0))
    ∧ (∀ (q : Op) (t : State), t.op? q.ring q.idx = some q → q.coresLeft ≠ [] ∨ q.remote ≠ 0 → t.launchCheck q.ring q.idx = t)

/-- O17: GCLAIM claims a gradient region of its context for the open attempt: a region not yet claimed in it takes the tag and
the claimant, which waits where the entry's page waits for a pre-image; a region that the same tag holds stays; one that
another tag holds raises GRAD_ALIAS in the name of both and ends the LAUNCH; without tracking it does nothing, and a region
outside the table stops the LAUNCH with REASON 10. Poison that its entry holds ends the LAUNCH with MEM_UE, a parity or check
error with CHECK_FAIL (R157, R313, R314, R341, R343, R402, R503). -/
def Obligations.GradientClaim : Prop :=
  ∀ (core : Fin 144) (region tag : BitVec 16) (e : MemErr) (o : Op) (s : State), s.running core = some o →
    let t := s.stepped core
    let c := o.ctx
    let a := t.get (Reg.RPL_GRAD_BASE_LO_PA_LO c) * 2 ^ 18 + t.get (Reg.RPL_GRAD_BASE_HI_PA_HI c) * 2 ^ 32 + 32 * region.toNat
    let pas := (List.range 32).map fun k => a + k
    let m := t.meetErrs (some c) pas.contains e
    let tracked : Prop := t.on (Reg.RPL_STEP_CTRL_ENABLE c) = true
    let inRange : Prop := t.on (Reg.RPL_GRAD_BASE_LO_VALID c) = true ∧ region.toNat < t.get (Reg.RPL_GRAD_BASE_HI_COUNT c)
    let inTable : Prop := inRange ∧ m.readErr c pas e = .none ∧ bitOn (m.natAt a 8) 0 = true
    let step := m.stepNum c
    let att := m.get (Reg.RPL_STEP_ATTEMPT_ATTEMPT c)
    let claimed : Prop := (m.ctx c).claims.contains region.toNat = true ∧ m.natAt (a + 16) 8 = step ∧ m.natAt (a + 24) 4 = att
    let entry := leBytes 2 tag.toNat ++ leBytes 1 o.ring ++ leBytes 1 0 ++ leBytes 8 step ++ leBytes 4 att ++ leBytes 4 o.seq
    let store := m.storeFor (.core core) o 1 core a (cellsAt (a + 12) entry) e
    let claim := exec (.gclaim core region tag e) s
    (¬ tracked → claim = .next t)
    ∧ (tracked → ¬ inRange → claim = .next (t.stopPerm core 10 region.toNat))
    ∧ (tracked → inRange → ∀ pa, m.readErr c pas e = .ue pa → claim = .next (m.ueOp o 1 core pa))
    ∧ (tracked → inRange → ∀ pa, m.readErr c pas e = .parity pa → claim = .next (m.parityOp o 1 core pa))
    ∧ (tracked → inRange → ∀ pa, m.readErr c pas e = .chk pa → claim = .next (m.checkOp o 1 core 1 pa))
    ∧ (tracked → inRange → m.readErr c pas e = .none → bitOn (m.natAt a 8) 0 = false → claim = .next (m.stopPerm core 10 region.toNat))
    ∧ (tracked → inTable → ¬ claimed →
      (∀ u, store = .ok u → claim = .next (u.modCtx c fun x => { x with
        claims := if x.claims.contains region.toNat then x.claims else region.toNat :: x.claims }))
      ∧ (∀ u, store = .stop u → claim = .next u)
      ∧ (store = .wait → claim = .next ((s.waitShadow (.core core)).hold core (.claim region.toNat tag.toNat))))
    ∧ (tracked → inTable → claimed → m.natAt (a + 12) 2 = tag.toNat → claim = .next m)
    ∧ (tracked → inTable → claimed → m.natAt (a + 12) 2 ≠ tag.toNat → ∃ r : FaultRec,
      r.code = fGradAlias ∧ r.unitKind = 1 ∧ r.unit = core.val ∧ r.p1 = some o.party
      ∧ r.p2 = some ⟨c, m.gen c, m.vcid c, m.natAt (a + 14) 1, m.natAt (a + 28) 4⟩
      ∧ r.detail = [(2, region.toNat), (2, tag.toNat), (2, m.natAt (a + 12) 2)]
      ∧ claim = .next ((((m.bump Reg.RPL_GRAD_ALIAS_CNT_COUNT).mark Reg.RPL_STEP_EVENT_GRAD_ALIAS).raise r).endOp o stFaulted fGradAlias))

/-! ### The vector engine -/

/-- O18: every vector instruction that nothing stops completes: its core's CLASS shows its class, its element counter has grown
by the elements or rows written (modulo 2^64), flags have only been added to its ASW, and every other register but the counts
of serial instructions, held and stalled cycles keeps its value. Every byte of memory and scratchpad outside its outputs
keeps its value, no other core and no other part of the module changes, and of its core only the scratchpad, the retirement
mark and the steps left (State.vecDone). Every instruction follows by name: the elementary ones, the functions, the
derivatives, the row reductions and the random ones, RAND, DROP with and without its mask and SAMPLE (R63, R113, R117–R119,
R122–R124, R128, R129, R132). -/
def Obligations.VectorInstructionsComplete : Prop :=
  (∀ (i : Instr) (q : VecCall) (o : Op) (s : State), s.canon = true → vecCall i = some q → s.vecReady q o →
      ∃ t, exec i s = .next t ∧ s.vecDone t q)
  ∧ (∀ (core : Fin 144) (rdims : Byte) (ib k tau : Word) (thr : BitVec 24) (a b d d2 : Sys2Proof.Stream) (m : Option Sys2Proof.Stream)
      (dr : Draw) (e : MemErr) (o : Op) (s : State), s.canon = true →
    (s.vecReady (rowCall core rdims [a] [d] a d e clsRed) o →
      (∃ t, exec (.rsum core rdims a d dr e) s = .next t ∧ s.vecDone t (rowCall core rdims [a] [d] a d e clsRed))
      ∧ (∃ t, exec (.rsumsq core rdims a d dr e) s = .next t ∧ s.vecDone t (rowCall core rdims [a] [d] a d e clsRed)))
    ∧ (s.vecReady (rowCall core rdims [a, b] [d] a d e clsRed) o →
      ∃ t, exec (.rdot core rdims a b d dr e) s = .next t ∧ s.vecDone t (rowCall core rdims [a, b] [d] a d e clsRed))
    ∧ (s.vecReady (rowCall core rdims [a] [d, d2.words] a d e clsRed) o →
      (∃ t, exec (.rmax core rdims ib a d d2 dr e) s = .next t ∧ s.vecDone t (rowCall core rdims [a] [d, d2.words] a d e clsRed))
      ∧ (∃ t, exec (.rmin core rdims ib a d d2 dr e) s = .next t ∧ s.vecDone t (rowCall core rdims [a] [d, d2.words] a d e clsRed)))
    ∧ (s.vecReady (mapCall core [] d e clsRand) o →
      ∃ t, exec (.rand core d dr e) s = .next t ∧ s.vecDone t (mapCall core [] d e clsRand))
    ∧ (s.vecReady (mapCall core [a] d e clsRand false m) o →
      ∃ t, exec (.drop core thr k a d m dr e) s = .next t ∧ s.vecDone t (mapCall core [a] d e clsRand false m))
    ∧ (s.vecReady (rowCall core rdims [a] [d.words] a d.words e clsRand) o →
      ∃ t, exec (.sample core rdims tau ib a d dr e) s = .next t ∧ s.vecDone t (rowCall core rdims [a] [d.words] a d.words e clsRand)))
  ∧ ∀ (core : Fin 144) (a b x d : Sys2Proof.Stream) (dr : Draw) (e : MemErr) (o : Op) (s : State), s.canon = true →
    (s.vecReady (mapCall core [a, b] d e clsElem) o →
      (∃ t, exec (.add core a b d dr e) s = .next t ∧ s.vecDone t (mapCall core [a, b] d e clsElem))
      ∧ (∃ t, exec (.sub core a b d dr e) s = .next t ∧ s.vecDone t (mapCall core [a, b] d e clsElem))
      ∧ (∃ t, exec (.mul core a b d dr e) s = .next t ∧ s.vecDone t (mapCall core [a, b] d e clsElem))
      ∧ (∃ t, exec (.max core a b d dr e) s = .next t ∧ s.vecDone t (mapCall core [a, b] d e clsElem))
      ∧ (∃ t, exec (.min core a b d dr e) s = .next t ∧ s.vecDone t (mapCall core [a, b] d e clsElem))
      ∧ (∃ t, exec (.dexp core a b d dr e) s = .next t ∧ s.vecDone t (mapCall core [a, b] d e clsElem))
      ∧ (∃ t, exec (.drelu core a b d dr e) s = .next t ∧ s.vecDone t (mapCall core [a, b] d e clsElem)))
    ∧ (s.vecReady (mapCall core [a, b] d e clsFn) o →
      (∃ t, exec (.div core a b d dr e) s = .next t ∧ s.vecDone t (mapCall core [a, b] d e clsFn))
      ∧ (∃ t, exec (.dsigmoid core a b d dr e) s = .next t ∧ s.vecDone t (mapCall core [a, b] d e clsFn))
      ∧ (∃ t, exec (.dtanh core a b d dr e) s = .next t ∧ s.vecDone t (mapCall core [a, b] d e clsFn))
      ∧ (∃ t, exec (.dgelu core a b d dr e) s = .next t ∧ s.vecDone t (mapCall core [a, b] d e clsFn))
      ∧ (∃ t, exec (.dsilu core a b d dr e) s = .next t ∧ s.vecDone t (mapCall core [a, b] d e clsFn))
      ∧ (∃ t, exec (.derf core a b d dr e) s = .next t ∧ s.vecDone t (mapCall core [a, b] d e clsFn))
      ∧ (∃ t, exec (.subexp core a b d dr e) s = .next t ∧ s.vecDone t (mapCall core [a, b] d e clsFn)))
    ∧ (s.vecReady (mapCall core [a] d e clsElem) o →
      (∃ t, exec (.abs core a d dr e) s = .next t ∧ s.vecDone t (mapCall core [a] d e clsElem))
      ∧ (∃ t, exec (.neg core a d dr e) s = .next t ∧ s.vecDone t (mapCall core [a] d e clsElem))
      ∧ (∃ t, exec (.cvt core a d dr e) s = .next t ∧ s.vecDone t (mapCall core [a] d e clsElem)))
    ∧ (s.vecReady (mapCall core [a] d e clsFn) o →
      (∃ t, exec (.sqrt core a d dr e) s = .next t ∧ s.vecDone t (mapCall core [a] d e clsFn))
      ∧ (∃ t, exec (.rcp core a d dr e) s = .next t ∧ s.vecDone t (mapCall core [a] d e clsFn))
      ∧ (∃ t, exec (.rsqrt core a d dr e) s = .next t ∧ s.vecDone t (mapCall core [a] d e clsFn))
      ∧ (∃ t, exec (.exp core a d dr e) s = .next t ∧ s.vecDone t (mapCall core [a] d e clsFn))
      ∧ (∃ t, exec (.exp2 core a d dr e) s = .next t ∧ s.vecDone t (mapCall core [a] d e clsFn))
      ∧ (∃ t, exec (.log core a d dr e) s = .next t ∧ s.vecDone t (mapCall core [a] d e clsFn))
      ∧ (∃ t, exec (.log2 core a d dr e) s = .next t ∧ s.vecDone t (mapCall core [a] d e clsFn))
      ∧ (∃ t, exec (.sigmoid core a d dr e) s = .next t ∧ s.vecDone t (mapCall core [a] d e clsFn))
      ∧ (∃ t, exec (.tanh core a d dr e) s = .next t ∧ s.vecDone t (mapCall core [a] d e clsFn))
      ∧ (∃ t, exec (.erf core a d dr e) s = .next t ∧ s.vecDone t (mapCall core [a] d e clsFn))
      ∧ (∃ t, exec (.gelu core a d dr e) s = .next t ∧ s.vecDone t (mapCall core [a] d e clsFn))
      ∧ (∃ t, exec (.silu core a d dr e) s = .next t ∧ s.vecDone t (mapCall core [a] d e clsFn))
      ∧ (∃ t, exec (.sin core a d dr e) s = .next t ∧ s.vecDone t (mapCall core [a] d e clsFn))
      ∧ (∃ t, exec (.cos core a d dr e) s = .next t ∧ s.vecDone t (mapCall core [a] d e clsFn)))
    ∧ (s.vecReady (mapCall core [a, b, x] d e clsElem) o →
      (∃ t, exec (.fma core a b x d dr e) s = .next t ∧ s.vecDone t (mapCall core [a, b, x] d e clsElem))
      ∧ (∃ t, exec (.sel core a b x d dr e) s = .next t ∧ s.vecDone t (mapCall core [a, b, x] d e clsElem)))
    ∧ (∀ r, r ≠ Rel.unknown → s.vecReady (mapCall core [a, b] d e clsElem) o →
      ∃ t, exec (.cmp core r a b d dr e) s = .next t ∧ s.vecDone t (mapCall core [a, b] d e clsElem))

/-- O19: a vector instruction whose operands or streams break the rules stops its LAUNCH at issue with PERMISSION, with REASON 10
for an operand and 5 for a stream (R116, R503); where an input stream holds a poisoned byte it writes none of its outputs,
consumes the uncorrectable error at the first one, and its LAUNCH ends with MEM_UE (R157), the cycles held and stalled
before it counted (R118, R145: free numbers, log entry 126). -/
def Obligations.VectorInstructionsStop : Prop :=
  ∀ (i : Instr) (q : VecCall) (o : Op) (s : State), vecCall i = some q → s.running q.core = some o →
    (∀ r, q.args.reason = some r → (r = 10 ∨ r = 5) ∧ exec i s = .next ((s.stepped q.core).stopPerm q.core r 0))
    ∧ (∀ a, q.args.reason = none → q.errs.ce = [] → q.errs.ue = [] →
        (q.args.ins.flatMap streamBytes).find? (fun b => s.poisoned (q.pa b)) = some a →
        let t := ((s.stepped q.core).bumpFree (Reg.CORE_VX_HAZARD_CNT_CYCLES q.core)).bumpFree (Reg.CORE_SP_STALL_CNT_CYCLES q.core)
        exec i s = .next (({ t with memx := { t.memx with newUe := [] } }).ueOp o 1 q.core (q.pa a)))

/-- O20: the exact results of the elementary operations, before their one rounding: sum, difference, product, fused sum;
the larger and the smaller, with a NaN where an input is NaN; magnitude, negation and conversion; 1 or 0 for a comparison,
false with a NaN but for NE; the first input where the third is not zero, else the second; and the derivative of ReLU
(R119, R121, R122, R128). A signalling input sets INVALID (R71). -/
def Obligations.ElementaryResults : Prop :=
  ∀ (a b c : Val) (rdn : Bool),
    (VElem.add.eval rdn [a, b]).x = (Sys2Proof.Num.add a.num b.num rdn).1
    ∧ (VElem.sub.eval rdn [a, b]).x = (Sys2Proof.Num.add a.num b.num.neg rdn).1
    ∧ (VElem.mul.eval rdn [a, b]).x = (Sys2Proof.Num.mul a.num b.num).1
    ∧ (VElem.fma.eval rdn [a, b, c]).x = (Sys2Proof.Num.fma a.num b.num c.num rdn).1
    ∧ (a.num.isNan = true ∨ b.num.isNan = true → (VElem.max.eval rdn [a, b]).x = .nan ∧ (VElem.min.eval rdn [a, b]).x = .nan)
    ∧ (a.num.isNan = false → b.num.isNan = false → Sys2Proof.Num.cmp a.num b.num > 0 →
        (VElem.max.eval rdn [a, b]).x = a.num ∧ (VElem.min.eval rdn [a, b]).x = b.num)
    ∧ (a.num.isNan = false → b.num.isNan = false → Sys2Proof.Num.cmp a.num b.num < 0 →
        (VElem.max.eval rdn [a, b]).x = b.num ∧ (VElem.min.eval rdn [a, b]).x = a.num)
    ∧ (VElem.abs.eval rdn [a]).x = a.num.abs ∧ (VElem.neg.eval rdn [a]).x = a.num.neg ∧ (VElem.cvt.eval rdn [a]).x = a.num
    ∧ (c.num.isZero = true → (VElem.sel.eval rdn [a, b, c]).x = b.num)
    ∧ (c.num.isZero = false → (VElem.sel.eval rdn [a, b, c]).x = a.num)
    ∧ (a.num.isNan = true → (VElem.drelu.eval rdn [a, b]).x = .nan)
    ∧ (a.num.isNan = false → Sys2Proof.Num.cmp a.num (.zero false) > 0 → (VElem.drelu.eval rdn [a, b]).x = b.num)
    ∧ (a.num.isNan = false → Sys2Proof.Num.cmp a.num (.zero false) ≤ 0 → (VElem.drelu.eval rdn [a, b]).x = .zero false)
    ∧ (let holds (r : Rel) (p : Prop) : Prop := (p → ((VElem.cmp r).eval rdn [a, b]).x = Sys2Proof.Num.one)
          ∧ (¬ p → ((VElem.cmp r).eval rdn [a, b]).x = .zero false)
       (a.num.isNan = true ∨ b.num.isNan = true → ∀ r : Rel, holds r (r = .ne))
       ∧ (a.num.isNan = false → b.num.isNan = false → holds .eq (Sys2Proof.Num.cmp a.num b.num = 0) ∧ holds .ne (Sys2Proof.Num.cmp a.num b.num ≠ 0)
          ∧ holds .lt (Sys2Proof.Num.cmp a.num b.num < 0) ∧ holds .le (Sys2Proof.Num.cmp a.num b.num ≤ 0)))
    ∧ (∀ op : VElem, a.snan = true → (op.eval rdn [a, b]).fl &&& flInvalid = flInvalid)

/-- O21: what R122 fixes of the functions: a NaN input gives NaN; division by zero of a finite number above zero, the square
root of a number below zero, the reciprocals and the logarithms at zero and below, and the limits of the exponential, the
sigmoid and the hyperbolic tangent, with their flags; in strict mode a quotient and a square root are exact before their
one rounding (R119, R122). -/
def Obligations.FunctionSpecialValues : Prop :=
  (∀ (f : VFn) (st : Bool) (b : Sys2Proof.Num), (f.eval st .nan b).x = .nan ∧ (f.eval st b .nan).x = .nan)
  ∧ (∀ (m : Nat) (e : Int) (st : Bool), m ≠ 0 →
      (VFn.sqrt.eval st (.fin true m e) (.zero false)).x = .nan ∧ (VFn.sqrt.eval st (.fin true m e) (.zero false)).fl = flInvalid
      ∧ (VFn.rsqrt.eval st (.fin true m e) (.zero false)).x = .nan ∧ (VFn.rsqrt.eval st (.fin true m e) (.zero false)).fl = flInvalid
      ∧ (VFn.log.eval st (.fin true m e) (.zero false)).x = .nan ∧ (VFn.log.eval st (.fin true m e) (.zero false)).fl = flInvalid
      ∧ (VFn.log2.eval st (.fin true m e) (.zero false)).x = .nan ∧ (VFn.log2.eval st (.fin true m e) (.zero false)).fl = flInvalid)
  ∧ (∀ st sg : Bool,
      let at32 (f : VFn) (x : Sys2Proof.Num) : Nat := code32 (f.eval st x (.zero false)).x
      let flags (f : VFn) (x : Sys2Proof.Num) : Nat := (f.eval st x (.zero false)).fl
      at32 .rcp (.zero sg) = (if sg then 0xFF800000 else 0x7F800000) ∧ flags .rcp (.zero sg) = flDivZero
      ∧ at32 .rsqrt (.zero sg) = (if sg then 0xFF800000 else 0x7F800000) ∧ flags .rsqrt (.zero sg) = flDivZero
      ∧ at32 .log (.zero sg) = 0xFF800000 ∧ flags .log (.zero sg) = flDivZero
      ∧ at32 .log2 (.zero sg) = 0xFF800000 ∧ flags .log2 (.zero sg) = flDivZero
      ∧ at32 .exp (.inf true) = 0 ∧ at32 .exp (.inf false) = 0x7F800000
      ∧ at32 .sigmoid (.inf true) = 0 ∧ at32 .sigmoid (.inf false) = 0x3F800000
      ∧ at32 .tanh (.inf sg) = (if sg then 0xBF800000 else 0x3F800000))
  ∧ (∀ a b : Val, (VFn.div.result true [a, b]).x = (Sys2Proof.Num.div a.num b.num).1 ∧ (VFn.sqrt.result true [a]).x = (Sys2Proof.Num.sqrt a.num).1)

/-- O22: an elementary instruction, function or derivative with one element writes its output's code: the encoding of the
result in the output's format, under the rounding mode, saturation and strictness of its core's control word, and its flags
join ASW (R62, R63, R119, R122, R128). -/
def Obligations.ElementWritesItsResult : Prop :=
  ∀ (i : Instr) (q : VecCall) (dr : Draw) (f : Acw → Sys2Proof.Stream → List Val → VRes) (d : Sys2Proof.Stream) (o : Op) (s : State),
    s.canon = true → vecCall i = some q → elemResult i = some (dr, f) → s.vecReady q o → q.args.outs = [d] → d.block = false →
    d.counts = [1, 1, 1, 1] →
    let a := s.acw q.core
    let r := encodeRes d.fmt (elemMode a dr (s.seedOf o) false 0) a.sat (strictOut a d)
      (f a d (q.args.ins.map fun st => st.read (s.core q.core).sp 0))
    ∃ t, exec i s = .next t ∧ s.wroteCode t q.core d r.1
      ∧ t.reg (Reg.CORE_ASW q.core) = s.reg (Reg.CORE_ASW q.core) ||| BitVec.ofNat 32 (r.2 &&& reported (strictOut a d))

/-- O23: the row reductions with one row write the sum of the elements, of their squares or of the products in the order of
the adder tree, or the index of the winner's element after the index base; a row that begins with a NaN has index 0
(R123–R125). -/
def Obligations.RowReductionResult : Prop :=
  ∀ (core : Fin 144) (rdims : Byte) (ib : Word) (a b d d2 : Sys2Proof.Stream) (dr : Draw) (e : MemErr) (o : Op) (s : State),
    s.canon = true → d.block = false → d.counts = [1, 1, 1, 1] →
    let w := s.acw core
    let st := strictOut w d
    let inner := if st = true ∧ w.rmode ≠ 5 then Rm.ofCode w.rmode 0 else Rm.rne
    let code (x : Sys2Proof.Num) : Nat := (encodeRes d.fmt (elemMode w dr (s.seedOf o) false 0) w.sat st (.of (x, 0))).1
    let row1 := s.oneRow core rdims [a] a d
    let row2 := s.oneRow core rdims [a, b] a d
    let xs := row1.map fun v => numAt v 0
    (s.vecReady (rowCall core rdims [a] [d] a d e clsRed) o →
      (∃ t, exec (.rsum core rdims a d dr e) s = .next t ∧ s.wroteCode t core d (code (rowSum inner st xs).1))
      ∧ (∃ t, exec (.rsumsq core rdims a d dr e) s = .next t
          ∧ s.wroteCode t core d (code (rowSum inner st (xs.map fun x => (Sys2Proof.Num.mul x x).1)).1)))
    ∧ (s.vecReady (rowCall core rdims [a, b] [d] a d e clsRed) o →
      ∃ t, exec (.rdot core rdims a b d dr e) s = .next t
        ∧ s.wroteCode t core d (code (rowSum inner st (row2.map fun v => (Sys2Proof.Num.mul (numAt v 0) (numAt v 1)).1)).1))
    ∧ (s.vecReady (rowCall core rdims [a] [d, d2.words] a d e clsRed) o →
      (∃ t, exec (.rmax core rdims ib a d d2 dr e) s = .next t
        ∧ s.wroteCode t core d2.words ((ib.toNat + rowWinner true xs) % 2 ^ 32))
      ∧ (∃ t, exec (.rmin core rdims ib a d d2 dr e) s = .next t
        ∧ s.wroteCode t core d2.words ((ib.toNat + rowWinner false xs) % 2 ^ 32)))
    ∧ (∀ m, rowWinner m (.nan :: xs) = 0)

/-- O24: the random instructions with one element: RAND writes x1[31:8] × 2⁻²⁴ of the words drawn for its element index, draw
number, job seed and tensor; DROP writes a × k where that number reaches the threshold and +0 where it does not, and with a
mask that lies apart from its output 1 or 0 there; SAMPLE writes, after the index base, the index of the largest a × τ⁻¹ + G
of its row, each rounded to binary32, G drawn for the element's index in its input (R124, R129–R131). -/
def Obligations.RandomResult : Prop :=
  ∀ (core : Fin 144) (thr : BitVec 24) (k ib tau : Word) (rdims : Byte) (a d : Sys2Proof.Stream) (dr : Draw) (e : MemErr) (o : Op) (s : State),
    s.canon = true → d.block = false → d.counts = [1, 1, 1, 1] →
    let w := s.acw core
    let drawn (i : Int) := drawWords (elemIndex dr i) dr.draw.toNat (s.seedOf o) dr.tensor.toNat
    let u := (drawn 0).2.1 / 256
    let code (st : Sys2Proof.Stream) (strict : Bool) (x : Sys2Proof.Num) : Nat :=
      (encodeRes st.fmt (elemMode w dr (s.seedOf o) true 0) w.sat strict (.of (x, 0))).1
    let x := numAt [a.read (s.core core).sp 0] 0
    let kept := if thr.toNat ≤ u then (Sys2Proof.Num.mul x (num32 k.toNat)).1 else .zero false
    let cands := (coords (rowShape rdims.toNat a d.words).2).map fun ix =>
      (round32 .rne false (Sys2Proof.Num.fma (numAt [a.read (s.core core).sp (a.offset ix)] 0) (num32 tau.toNat)
        (gumbel (drawn (a.offset ix)).2.2.1)).1).1
    (s.vecReady (mapCall core [] d e clsRand) o →
      ∃ t, exec (.rand core d dr e) s = .next t ∧ s.wroteCode t core d (code d (strictOut w d) (.fin false u (-24))))
    ∧ (s.vecReady (mapCall core [a] d e clsRand) o →
      ∃ t, exec (.drop core thr k a d none dr e) s = .next t ∧ s.wroteCode t core d (code d (strictOut w d) kept))
    ∧ (∀ q : Sys2Proof.Stream, q.block = false → (∀ b ∈ streamBytes q, b ∉ streamBytes d) → s.vecReady (mapCall core [a] d e clsRand false (some q)) o →
      ∃ t, exec (.drop core thr k a d (some q) dr e) s = .next t ∧ s.wroteCode t core d (code d (strictOut w d) kept)
        ∧ s.wroteCode t core q (code q false (if thr.toNat ≤ u then Sys2Proof.Num.one else .zero false)))
    ∧ (s.vecReady (rowCall core rdims [a] [d.words] a d.words e clsRand) o →
      ∃ t, exec (.sample core rdims tau ib a d dr e) s = .next t
        ∧ s.wroteCode t core d.words ((ib.toNat + rowWinner true cands) % 2 ^ 32))

/-! ### The matrix array -/

/-- O25: an MMA whose operands, tile mask and reads stand runs its passes (an accumulating one after the count of the
corrected errors of its tile), and its operand and mask failures stop its LAUNCH, in that order; a read that meets poison
ends it with MEM_UE (R60, R81, R109, R157, R503). The cycles that it is held and that its reads wait for a scratchpad bank
are free numbers (R118, R145, log entry 126). -/
def Obligations.MmaRuns : Prop :=
  ∀ (core : Fin 144) (a : MmaArgs) (e : MemErr) (x : TileErr) (o : Op) (s : State), s.running core = some o → e.ce = [] → e.ue = [] →
    let t0 := s.stepped core
    let t1 := t0.holdCycles core
    let t := { t1 with memx := { t1.memx with newUe := [] } }
    let inEx := t0.inExact core a.tile.toNat
    let ids := if a.exact || inEx then quad a.tile.toNat else [a.tile.toNat]
    let reads := mmaReads a (!t0.keepApplies core a)
    let bad : Prop := a.operandsOk = false ∨ (a.exact = true ∧ a.acc = true ∧ inEx = false)
    (bad → exec (.mma core a e x) s = .next (t0.stopPerm core 10 0))
    ∧ (¬ bad → inMask o ids = false → exec (.mma core a e x) s = .next (t0.stopPerm core 4 a.tile.toNat))
    ∧ (¬ bad → inMask o ids = true → ∀ b, reads.find? (fun b => t.poisoned (spBase + core * 0x400000 + b)) = some b →
        exec (.mma core a e x) s = .next (t.ueOp o 1 core (spBase + core * 0x400000 + b)))
    ∧ (¬ bad → inMask o ids = true → (∀ b ∈ reads, t.poisoned (spBase + core * 0x400000 + b) = false) →
        (a.acc = false → exec (.mma core a e x) s = .next (t.mmaRun core a o))
        ∧ (a.acc = true → x.ue = false → exec (.mma core a e x) s = .next ((t.bump (Reg.CORE_SP_CE_CNT_COUNT core) x.ce).mmaRun core a o)))

/-- O26: an opening MMA in fast mode on a plain tile leaves in each element of its M × N region the binary32 code of the
ordered sum of its products from −0, leaves every other element of its tile and, where it ends no sampled tile sequence,
every byte of scratchpad and memory as they were, and shows its passes, class and transposition in the registers (R78, R79,
R88, R100, R112, R347). The core's tiles
are those that a LAUNCH of another owner finds: all +0 (R104). -/
def Obligations.MmaResult : Prop :=
  ∀ (core : Fin 144) (a : MmaArgs) (o : Op) (s : State), s.canon = true → (s.core core).tiles = [] → a.exact = false → a.acc = false →
    s.inExact core a.tile.toNat = false → (s.acw core).strict = false → a.n.toNat ≤ 128 →
    let sp := (s.core core).sp
    let w := s.mmaWeights core a
    let t := s.mmaRun core a o
    (∀ i j, i < a.m.toNat → j < a.n.toNat →
      sget (fun _ => 0) ((t.core core).tile a.tile.toNat) (128 * i + j)
        = code32 (orderedElem a.cls a.k.toNat
            (fun k => product a.aFmt a.bFmt (elemCode a.aArr sp (a.aOff i k)) (w k j)) (.zero true)).1)
    ∧ (∀ i j, j < 128 → (a.m.toNat ≤ i ∨ a.n.toNat ≤ j) →
        sget (fun _ => 0) ((t.core core).tile a.tile.toNat) (128 * i + j) = 0)
    ∧ ((∀ q ∈ (s.core core).openSeqs, q.tile = a.tile.toNat → q.sampled = false) → ∀ b, t.byteAt b = s.byteAt b)
    ∧ t.get (Reg.CORE_MX_STATUS_CLASS core) = a.cls ∧ t.get (Reg.CORE_MX_STATUS_TRANS core) = b2n a.trans
    ∧ t.get64 (Reg.CORE_MX_PASS_LO_PASSES_LO core) (Reg.CORE_MX_PASS_HI_PASSES_HI core)
        = (s.get64 (Reg.CORE_MX_PASS_LO_PASSES_LO core) (Reg.CORE_MX_PASS_HI_PASSES_HI core) + ceilDiv a.k.toNat (passLen a.cls)) % 2 ^ 64

/-- O27: an ARD whose operands and tile mask stand and whose reads meet no uncorrectable error reads its region out; its
failures stop its LAUNCH. A readout changes neither the tiles of its core nor their marks (R105–R109). The cycles that it is
held and waits for a scratchpad bank are free numbers (R118, R145, log entry 126). -/
def Obligations.ArdReadsOut : Prop :=
  ∀ (core : Fin 144) (a : ArdArgs) (x : TileErr) (o : Op) (s : State), s.running core = some o →
    let t := s.stepped core
    let inEx := t.inExact core a.tile.toNat
    let head := if inEx then a.tile.toNat / 4 * 4 else a.tile.toNat
    (a.operandsOk = false → exec (.ard core a x) s = .next (t.stopPerm core 10 0))
    ∧ (a.operandsOk = true → inMask o (if inEx then quad head else [head]) = false → exec (.ard core a x) s = .next (t.stopPerm core 4 a.tile.toNat))
    ∧ (a.operandsOk = true → inMask o (if inEx then quad head else [head]) = true → x.ue = false →
        exec (.ard core a x) s = .next
          (((t.holdCycles core).bump (Reg.CORE_SP_CE_CNT_COUNT core) x.ce).ardRun o core a inEx head))
    ∧ (∀ (u : State) (b : Bool) (h : Nat), u.canon = true → u.poison = [] →
        let v := u.ardRun o core a b h
        (v.core core).tiles = (u.core core).tiles ∧ (v.core core).exact = (u.core core).exact ∧ (v.core core).marks = (u.core core).marks)

/-! ### Rings and descriptors -/

/-- O28: enabling a disabled and idle ring takes the written fields, the size held to 4–16, restarts its consumer index at 0
and ends a stall, keeps that its vector went out in this frame (R191), counts the operations of its earlier life still in
flight (log entry 150), and the POSTs that cores hold for it are tried again; disabling an enabled ring clears ENABLE and marks it to stop (R172). A kick of an active ring whose
index lies in both windows becomes the ring's producer index and has the ring examined; an index outside them sets BAD_PI;
a kick of a ring that is not active changes nothing (R173, R174). -/
def Obligations.RingControl : Prop :=
  (∀ (p : Party) (r : Fin 256) (v : Word) (s : State),
      s.acts p → (s.on (Reg.SUB_RING_CFG_ENABLE r) = false → s.ringIdle r = true → v.getLsbD 0 = true →
        exec (.ringEnable p r v) s = .next
          (((((s.ringCfgFields r v.toNat).put (Reg.SUB_RING_CFG_ENABLE r) 1).setRing r
            { changed := (s.ring r).cqPi != 0 || s.get (Reg.SUB_RING_CI_CI r) != 0, irqSent := (s.ring r).irqSent
              issuedRej := (s.ops.filter fun o => o.ring == r.val && o.issued).length }).put (Reg.SUB_RING_CI_CI r) 0).put
            (Reg.SUB_RING_STATUS_STALL r) 0).retryPosts)
      ∧ (s.on (Reg.SUB_RING_CFG_ENABLE r) = true → v.getLsbD 0 = false →
        exec (.ringDisable p r v) s = .next ((s.put (Reg.SUB_RING_CFG_ENABLE r) 0).modRing r fun x => { x with stopping := true }))
      ∧ (s.canon = true → (s.ringCfgFields r v.toNat).get (Reg.SUB_RING_CFG_SIZE_LOG2 r) = max 4 (min 16 (v.toNat / 4 % 32))))
  ∧ (∀ (r : Fin 256) (pi : Word) (s : State),
      let inWindow : Prop := sub32 pi.toNat (s.ring r).piOld ≤ s.ringSize r ∧ sub32 pi.toNat (s.get (Reg.SUB_RING_CI_CI r)) ≤ s.ringSize r
      (s.ringActive r = true → inWindow → exec (.kickWrite r pi) s = .next
        ((s.setRing r { s.ring r with piOld := pi.toNat }).modRing r fun x => { x with blocked := false }))
      ∧ (s.ringActive r = true → ¬ inWindow → exec (.kickWrite r pi) s = .next
        (((s.mark (Reg.SUB_RING_STATUS_BAD_PI r)).mark Reg.SUB_EVENT_BAD_PI).modRing r fun x => { x with blocked := false }))
      ∧ (s.ringActive r = false → exec (.kickWrite r pi) s = .next s))

/-- O29: the fetch of a published index whose descriptor carries the sequence number S₀ + CI accepts it, and a POST that a core holds for
the freed slot is tried again; another number, or a slot that cannot be read, is a failed fetch of that index; a full module takes none and sets INFLIGHT_FULL (R176, R197). An accepted descriptor that no
rule rejects joins the operations in flight with its context, generation, and budget, and CI advances by one modulo 2^32. -/
def Obligations.FetchAcceptsTheSequence : Prop :=
  ∀ (r : Fin 256) (slot d : Descriptor) (e : MemErr) (s : State),
    let ci := s.get (Reg.SUB_RING_CI_CI r)
    let ready : Prop := s.ringActive r = true ∧ ci ≠ (s.ring r).piOld ∧ (s.ring r).blocked = false
    let fetch := exec (.descriptorFetch r slot e) s
    (∀ u, ready → s.inflightFull r = false → s.slotOf r slot e = .ok (u, d) → descBytes d 8 8 = (u.seqBase r + ci) % 2 ^ 64 →
      fetch = .next (u.accept r d).retryPosts)
    ∧ (∀ u, ready → s.inflightFull r = false → s.slotOf r slot e = .ok (u, d) → descBytes d 8 8 ≠ (u.seqBase r + ci) % 2 ^ 64 →
      fetch = .next (u.seqFail r (descBytes d 8 8)))
    ∧ (∀ u, ready → s.inflightFull r = false → s.slotOf r slot e = .error u → fetch = .next (u.seqFail r 0))
    ∧ (ready → s.inflightFull r = true → fetch = .next (s.mark Reg.SUB_EVENT_INFLIGHT_FULL))
    ∧ (¬ ready → fetch = .next s)
    ∧ (s.rejectReason r d = none → (s.discarding (s.ringCtx r) = false ∨ discardEnds (s.newOp r d) = false) → descBytes d 0 1 ≠ 13 →
      let t := ((s.put (Reg.SUB_RING_CI_CI r) ((ci + 1) % 2 ^ 32)).put (Reg.SUB_RING_STATUS_STALL r) 0).modRing r (fun x => { x with fails := 0, changed := true })
      s.accept r d = { t with sub := { t.sub with ops := t.sub.ops ++ [s.newOp r d], accepted := t.sub.accepted + 1, progMem := [] } })

/-- O30: a descriptor is rejected with REASON 2 for an opcode outside 1–13, for reserved flags or bytes that are not zero and for
a field out of range, and with REASON 3 where its VCID is not the ring's (R178, R183). -/
def Obligations.BadDescriptorsAreRejected : Prop :=
  ∀ (r : Nat) (d : Descriptor) (s : State),
    (descBytes d 0 1 = 0 ∨ 13 < descBytes d 0 1 → s.rejectReason r d = some (2, 0))
    ∧ (flagsOk d = false → s.rejectReason r d = some (2, 0))
    ∧ (∀ q ∈ reservedBytes (descBytes d 0 1), descBytes d q.1 q.2 ≠ 0 → s.rejectReason r d = some (2, 0))
    ∧ (fieldsOk d = false → s.rejectReason r d = some (2, 0))
    ∧ (∀ q, s.rejectReason r d = some q → q.1 ≠ 2 → descBytes d 2 2 ≠ s.get (Reg.SUB_RING_CTX_VCID r) → q = (3, 0))

/-- O31: after 16 failing ticks of one index RING_STALL is raised once: the ring's STALL, the event, the counter, and the notice
with ring, index, and the sequence numbers expected and found (R176). An issued operation that has not completed by the B-th counted tick ends FAULTED with FRAME_OVERRUN and its progress,
unless its watchdog expires on that tick, at its turn in the order of the tick; before it nothing happens (R21, R42–R45). -/
def Obligations.RingStallAndFrameOverrun : Prop :=
  (∀ (r : Fin 256) (s : State),
      let x := s.ring r
      let c := s.ringCtx r
      let ci := s.get (Reg.SUB_RING_CI_CI r)
      (16 ≤ x.fails → s.on (Reg.SUB_RING_STATUS_STALL r) = false → exec (.ringStall r) s = .next
        ((((s.mark (Reg.SUB_RING_STATUS_STALL r)).mark Reg.SUB_EVENT_RING_STALL).bump (Reg.SUB_RING_STALL_CNT_COUNT r)).raise
          { code := fRingStall, notice := true, unitKind := 6, p1 := some ⟨c, s.gen c, s.vcid c, r, 0⟩,
            detail := [(1, r), (4, ci), (8, (s.seqBase r + ci) % 2 ^ 64), (8, x.found)] }))
      ∧ (x.fails < 16 ∨ s.on (Reg.SUB_RING_STATUS_STALL r) = true → exec (.ringStall r) s = .next s))
  ∧ (∀ (r : Fin 256) (idx : Word) (o : Op) (s : State), s.op? r idx.toNat = some o →
      (o.issued = true → o.fin = none → o.budget ≤ o.frames → o.wdogExpired = false → s.time.pos ≤ 4 → exec (.frameOverrun r idx) s = .next
        ((s.turn 4).faultOp o fFrameOverrun (Op.unit s o).1 (Op.unit s o).2
          [(4, o.budget), (4, o.frames), (8, o.units), (4, o.substep), (1, o.opc)]))
      ∧ (o.frames < o.budget → exec (.frameOverrun r idx) s = .next s))

/-- O32: a LAUNCH at the head of its ring is issued to all its cores at once, each with ACW and ASW 0, its program and its
arguments; while a core cannot take it, it is held, as it is, with INFLIGHT_FULL, while a die has no room (R197); where it overlaps a tile of a LAUNCH of another ring it is rejected with ACC_CONFLICT (R62, R110, R184). -/
def Obligations.LaunchIsIssued : Prop :=
  ∀ (r : Fin 256) (o : Op) (s : State), s.ready r 1 = some o →
    let cs := s.launchCores o
    (s.overlaps o = [] → cs.all s.coreFree = true → s.dieFull (diesOf cs) = false → exec (.launch r) s = .next
      (((s.issue o (diesOf cs)).modOp o.ring o.idx fun x => { x with cores := cs, coresLeft := cs }).each cs fun t c => t.startCore o c))
    ∧ (s.overlaps o = [] → cs.all s.coreFree = false → exec (.launch r) s = .next s)
    ∧ (s.overlaps o = [] → cs.all s.coreFree = true → s.dieFull (diesOf cs) = true →
      exec (.launch r) s = .next (s.mark Reg.SUB_EVENT_INFLIGHT_FULL))
    ∧ (∀ c q, ((s.overlaps o).find? fun e => e.2.ring != o.ring) = some (c, q) → exec (.launch r) s = .next (s.accConflict o c q))
    ∧ (∀ (t : State) (c : Nat), t.canon = true → (t.startCore o c).reg (Reg.CORE_ACW c) = 0 ∧ (t.startCore o c).reg (Reg.CORE_ASW c) = 0
        ∧ ((t.startCore o c).core c).launch = some (o.ring, o.idx) ∧ ((t.startCore o c).core c).program = descBytes o.desc 32 8
        ∧ ((t.startCore o c).core c).args = descBytes o.desc 40 8)

/-- O33: DESCRIPTOR_COMPLETE of the operation of a ring that finished first writes its completion record; one that is DONE
then signals its counter if it carries a completion signal, a signal that a record written before it still owes among them,
and while ENABLE is 0 the signal is held. Breaks that are due go out. One that has not finished, or before which another of
its ring finished, gets none (R187–R191, R230, R332). -/
def Obligations.CompletionRecordAndSignal : Prop :=
  (∀ (r : Fin 256) (idx : Word) (e : MemErr) (o : Op) (s : State), s.op? r idx.toNat = some o → s.nextFin r = some o →
    (∀ st code, o.fin = some (st, code) → st ≠ stRejected → exec (.descriptorComplete r idx e) s = .next ((s.recordOp o st code e).sigAfter o).flushBreaks)
    ∧ (∀ code, o.fin = some (stRejected, code) → exec (.descriptorComplete r idx e) s = .next (if s.cqFree o.ring then s.reject o code else s)))
  ∧ (∀ (r : Fin 256) (idx : Word) (e : MemErr) (o : Op) (s : State), s.op? r idx.toNat = some o → o.fin = none ∨ s.nextFin r ≠ some o →
    exec (.descriptorComplete r idx e) s = .next s)
  ∧ (∀ (r : Fin 256) (idx : Word) (e : MemErr) (o : Op) (s : State), s.op? r idx.toNat = none → s.sigOf r idx.toNat = some o →
    exec (.descriptorComplete r idx e) s = .next
      ({ s with sub := { s.sub with sigDue := s.sub.sigDue.filter fun q => !(q.ring == o.ring && q.idx == o.idx) } }.sigAfter o))
  ∧ (∀ (o : Op) (s : State),
    let vid := descBytes o.desc 56 2
    let val := descBytes o.desc 60 4
    let u := Op.unit s o
    (∀ code, o.fin = some (stDone, code) → o.flag 0 = false → s.sigAfter o = s.mirrorDone o)
    ∧ (∀ st code, o.fin = some (st, code) → st ≠ stDone → st ≠ stNotice → s.sigAfter o = s)
    ∧ (∀ code obj, o.fin = some (stDone, code) → o.flag 0 = true → (s.mirrorDone o).xtObj o.ctx vid false = some obj →
      (s.synOn = true → s.sigAfter o = ((s.mirrorDone o).fillXt o.ctx vid).signal obj val o.party u.1 u.2 vid)
      ∧ (s.synOn = false → s.sigAfter o = (s.mirrorDone o).holdSync (.completion obj val o.party u.1 u.2 vid))))

/-- O34: a SIGNAL on a counter of its module finishes DONE and adds its value; to another module it is sent and held until its
ACK, and not issued while 1,024 remote operations stand; while ENABLE is 0 none is issued (R230); a WAIT whose counter has reached its threshold finishes DONE, another waits with its watchdog; a BARRIER arrives with its
payload, and the cores that hold an instruction for the barrier try again; without a free waiter entry a WAIT or BARRIER is held and WAITERS_FULL is set; a FENCE finishes once every earlier
descriptor in its scope has completed, and stays in flight until then (R186, R211, R213, R214, R216, R218, R224). -/
def Obligations.SyncDescriptors : Prop :=
  ∀ (r : Fin 256) (o : Op) (s : State),
    let vid := descBytes o.desc 16 2
    let v := descBytes o.desc 24 8
    let m := descBytes o.desc 18 2
    let named := descBytes o.desc 32 4
    let frames := if named = 0 then s.get (Reg.SYN_CTX_WDOG_FRAMES o.ctx) else named
    (∀ obj, s.ready r 4 = some o → s.synOn = true → m < 0x8000 → s.xtObj o.ctx vid false = some obj →
      exec (.signal r) s = .next ((((s.issue o 0).finish o stDone 0).fillXt o.ctx vid).signal obj v o.party 7 0 vid))
    ∧ (s.ready r 4 = some o → s.synOn = true → bitOn m 15 = true → m % 8192 ≠ s.moduleId → s.remoteFree = true →
      exec (.signal r) s = .next ((s.issue o 0).sendSignal o none (m % 8192) vid v))
    ∧ (s.ready r 4 = some o → s.synOn = true → bitOn m 15 = true → m % 8192 = s.moduleId →
      exec (.signal r) s = .next ((s.issue o 0).signalSelf o vid v))
    ∧ (s.ready r 4 = some o → s.synOn = true → bitOn m 15 = true → m % 8192 ≠ s.moduleId → s.remoteFree = false → exec (.signal r) s = .next s)
    ∧ (s.synOn = false → exec (.signal r) s = .next s ∧ exec (.wait r) s = .next s ∧ exec (.barrier r) s = .next s)
    ∧ (∀ obj, s.ready r 5 = some o → s.synOn = true → s.waitersUsed < 4096 → s.xtObj o.ctx vid false = some obj →
      v ≤ (s.obj obj).value → exec (.wait r) s = .next (((s.issue o 0).fillXt o.ctx vid).finish o stDone 0))
    ∧ (∀ obj, s.ready r 5 = some o → s.synOn = true → s.waitersUsed < 4096 → s.xtObj o.ctx vid false = some obj →
      (s.obj obj).value < v → exec (.wait r) s = .next (((s.issue o 0).fillXt o.ctx vid).modOp o.ring o.idx fun x => { x with
        wait := some { obj := obj, vid := vid, thr := v, wdog := frames } }))
    ∧ (s.ready r 5 = some o → s.synOn = true → 4096 ≤ s.waitersUsed → exec (.wait r) s = .next (s.mark Reg.SYN_EVENT_WAITERS_FULL))
    ∧ (s.ready r 6 = some o → s.synOn = true → 4096 ≤ s.waitersUsed → exec (.barrier r) s = .next (s.mark Reg.SYN_EVENT_WAITERS_FULL))
    ∧ (∀ obj, s.ready r 6 = some o → s.synOn = true → s.waitersUsed < 4096 → s.xtObj o.ctx vid true = some obj →
      (s.obj obj).broken = false → (s.obj obj).slot.isSome → (s.obj obj).fits (descBytes o.desc 18 1) = true →
      exec (.barrier r) s = .next ((((s.issue o 0).fillXt o.ctx vid).modOp o.ring o.idx fun x => { x with
        wait := some { obj := obj, vid := vid, barrier := true, wdog := frames } }).arrive obj o.ctx vid
          (.desc (Fin.ofNat 256 o.ring) (BitVec.ofNat 32 o.idx)) (descBytes o.desc 18 1) v).retrySync)
    ∧ (s.fenceOf r = none → s.ready r 11 = some o → (s.issue o 0).fenceClear o = true →
      exec (.fence r) s = .next ((s.issue o 0).finish o stDone 0))
    ∧ (s.fenceOf r = none → s.ready r 11 = some o → (s.issue o 0).fenceClear o = false → exec (.fence r) s = .next (s.issue o 0))
    ∧ (s.fenceOf r = some o → s.fenceClear o = true → exec (.fence r) s = .next (s.finish o stDone 0))

/-- O35: a remote signal that its checks let through is applied once and answered ACK, and a refused one is counted and answered
NACK with its code; one of another slice leaves a ROUTE_MISS record of its port, without an answer; while ENABLE is 0 it is
held. The signals that reach a counter at once add to it as one sum, each value of 0 as if it were none; a sum that passes
2^63 − 1 sets OVERFLOW, counts it and raises SYNC_OVERFLOW with the whole sum in the name of the first source (R211). The ACK
ends the signal held under its tag, the NACK and 16 frames without an answer fail it, and a place is free for the cores that
hold a signal; an answer to no held signal changes nothing but that the cores try again (R218–R222, R230, R286). -/
def Obligations.RemoteSignals : Prop :=
  ∀ (port : Fin 16) (m : SyncMsg) (tag : BitVec 16) (s : State),
    (s.synOn = false → exec (.signalMessage port m) s = .next (s.holdSync (.signal port m)))
    ∧ (s.synOn = true → m.slice.toNat ≠ s.get Reg.SWT_SLICE_TAG →
      exec (.signalMessage port m) s = .next (s.routeMiss port 1 m.src.toNat m.dest.toNat m.slice.toNat))
    ∧ (∀ c obj, s.synOn = true → m.slice.toNat = s.get Reg.SWT_SLICE_TAG →
      s.remoteCheck m.vcid.toNat m.epoch.toNat m.object.toNat = .ok (c, obj) → exec (.signalMessage port m) s = .next
        (let t := s.fillXt c m.object.toNat
         (t.sendTo t.moduleId m.src.toNat (.sync { m with kind := 2, dest := m.src, src := m.dest, value := 0 })).sumSignals obj
           [⟨obj, m.value.toNat, s.ctxParty c, 7, 0, m.object.toNat, true⟩]))
    ∧ (∀ code, s.synOn = true → m.slice.toNat = s.get Reg.SWT_SLICE_TAG →
      s.remoteCheck m.vcid.toNat m.epoch.toNat m.object.toNat = .error code → exec (.signalMessage port m) s = .next
        (let t := (s.countRefusal code).when (code == fMemUe) fun u => u.xtUe m.vcid.toNat m.object.toNat
         t.sendTo t.moduleId m.src.toNat (.sync { m with kind := 3, dest := m.src, src := m.dest, value := BitVec.ofNat 64 code })))
    ∧ (∀ x, s.remoteOf m.tag.toNat = some x → exec (.syncAck m) s = .next (s.ackSignal x).retrySync)
    ∧ (∀ x, s.remoteOf m.tag.toNat = some x → ∃ detail, exec (.syncNack m) s = .next (s.failSignal x (m.value.toNat % 256) detail).retrySync)
    ∧ (∀ x, s.remoteOf tag.toNat = some x → x.sentTick + 16 ≤ s.now →
      exec (.remoteSignalTimeout tag) s = .next (s.failSignal x fLinkDown [(1, 0), (1, 4), (2, x.dest)]).retrySync)
    ∧ (∀ x, s.remoteOf tag.toNat = some x → s.now < x.sentTick + 16 → exec (.remoteSignalTimeout tag) s = .next s)
    ∧ (∀ obj x, x.d ≠ 0 → (s.obj obj).value + x.d ≤ counterMax → s.sumSignals obj [x] = s.setCounter obj ((s.obj obj).value + x.d))
    ∧ (∀ obj x, x.d ≠ 0 → counterMax < (s.obj obj).value + x.d → s.sumSignals obj [x] =
      (((s.mark Reg.SYN_EVENT_OVERFLOW).bump Reg.SYN_OVERFLOW_CNT_COUNT).raise { code := fSyncOverflow, unitKind := x.kind, unit := x.unit
                                                                                 p1 := some x.party, detail := [(2, x.vid), (8, x.d)] }).setCounter obj
        ((s.obj obj).value + x.d))
    ∧ (∀ obj x, x.d = 0 → s.sumSignals obj [x] = s)
    ∧ (s.remoteOf m.tag.toNat = none → exec (.syncAck m) s = .next s.retrySync ∧ exec (.syncNack m) s = .next s)

/-- O36: the barrier messages of a neighbour: an ARRIVE of a child joins the episode of its sense, a RELEASE from the parent
of the current sense releases the episode, a BREAK breaks the barrier, and a message that names no ACTIVE context, no
barrier object or another epoch is dropped and counted; cores that hold an instruction then try again; while ENABLE is 0
the message is held (R226–R228, R230). An expired watchdog ends a WAIT with SYNC_WATCHDOG,
and breaks the barrier that a descriptor's arrival waits at, at its turn in the order of the tick (R21, R216, R228). -/
def Obligations.BarrierMessages : Prop :=
  ∀ (port : Fin 16) (m : SyncMsg) (s : State),
    (∀ c obj, s.synOn = true → s.barrierTarget m = .ok (c, obj) →
      exec (.barrierArrive port m) s = .next ((s.fillXt c m.object.toNat).childArrive port m c obj).retrySync
      ∧ exec (.barrierRelease port m) s = .next ((s.fillXt c m.object.toNat).parentRelease port m obj).retrySync
      ∧ exec (.barrierBreak port m) s = .next ((s.fillXt c m.object.toNat).receiveBreak m c obj).retrySync)
    ∧ (s.synOn = false → exec (.barrierArrive port m) s = .next (s.holdSync (.arrive port m))
      ∧ exec (.barrierRelease port m) s = .next (s.holdSync (.release port m))
      ∧ exec (.barrierBreak port m) s = .next (s.holdSync (.brk port m)))
    ∧ (∀ t, s.synOn = true → s.barrierTarget m = .error t → (t = s.countRefusal fPermission ∨ t = s.countRefusal fStaleContext)
        ∧ exec (.barrierArrive port m) s = .next t.retrySync ∧ exec (.barrierRelease port m) s = .next t.retrySync
        ∧ exec (.barrierBreak port m) s = .next t.retrySync)
    ∧ (∀ obj, let b := s.obj obj
        b.root = false → port.val = b.parentPort → m.sense = b.sense → b.broken = false →
        s.parentRelease port m obj = (s.release obj m.value.toNat).barrierCheck 2 obj)
    ∧ (∀ obj, let b := s.obj obj
        b.root = true ∨ port.val ≠ b.parentPort ∨ m.sense ≠ b.sense → s.parentRelease port m obj = s.bump Reg.SYN_FOREIGN_CNT_COUNT)
    ∧ (∀ (r : Fin 256) (i : Word) (o : Op) (q : WaitRec), s.op? r i.toNat = some o → o.wait = some q → o.wdogExpired = true → s.time.pos ≤ 4 →
        (q.barrier = true → exec (.syncWatchdog (.desc r i)) s = .next ((s.turn 4).breakObj q.obj o.ctx q.vid none false).retrySync)
        ∧ (q.barrier = false → exec (.syncWatchdog (.desc r i)) s = .next
            ((((s.turn 4).bump Reg.SYN_WDOG_CNT_COUNT).mark Reg.SYN_EVENT_WATCHDOG).faultOp o fSyncWatchdog 7 0 (waitDetail q.vid (s.obj q.obj).value q.thr))))

/-- O37: a local DMA between memory or scratchpad ends whose rules stand starts, as far as the command says, and one that has
started goes on; one of at most 4 KiB whose reads and write meet no error moves its bytes to the destination and is done; one
whose ends differ in length or overlap is rejected with REASON 2 or 10; a die without room holds it with INFLIGHT_FULL
(R148–R150, R185, R197). A COLL of a known group whose modules have routes reads its source and starts, at most 32 run, and
one for which everything has come goes on; an UPDATE whose block is aligned and well formed runs its groups of 128 elements,
and after the last writes its result and is done; a DIGEST hashes its pages, writes the digest and is done (R292–R300,
R320–R328, R354, R423). -/
def Obligations.EngineDescriptors : Prop :=
  ∀ (r : Fin 256) (e : MemErr) (part : Option Word) (o : Op) (s : State),
    let x := s.engineOn
    let fresh (opc : Nat) : Prop := s.inWork r opc = none ∨ part = some 0
    let dma := exec (.dma r e part) s
    let coll := exec (.coll r e) s
    (part ≠ some 0 → s.inWork r 2 = some o → dma = .next ((x.dmaOn o (o.work.getD {}) e part).fillTlb o.ctx (s.dmaVas o)).engineOff)
    ∧ (fresh 2 → s.ready r 2 = some o → s.engineHeld o = false →
      (s.dieFull (dmaDies o) = true → dma = .next (s.mark Reg.SUB_EVENT_INFLIGHT_FULL))
      ∧ (s.dieFull (dmaDies o) = false → dma = .next ((x.dmaIssue o e part).fillTlb o.ctx (s.dmaVas o)).engineOff))
    ∧ (∀ shape, x.shapePoison o = none → x.shapeOf o = .ok shape →
      let ends := x.dmaEnds o shape
      (ends.1.bytes.length ≠ ends.2.bytes.length → x.dmaIssue o e part = x.rejectRule o 2 (descBytes o.desc 40 8))
      ∧ (ends.1.bytes.length = ends.2.bytes.length → x.endsOverlap o.ctx ends.1 ends.2 = true →
          x.dmaIssue o e part = x.rejectRule o 10 (descBytes o.desc 32 8))
      ∧ (ends.1.bytes.length = ends.2.bytes.length → x.endsOverlap o.ctx ends.1 ends.2 = false → ends.1.kind ≠ 2 → ends.2.kind ≠ 2 →
          x.sealBreach o.ctx ends.1 ends.2 = false →
          x.dmaIssue o e part = (x.issue o (dmaDies o)).dmaRun o shape ends.1 ends.2 e part))
    ∧ (∀ (y u : State) (shape : Option (List Byte)) (src dst : DmaEnd) (pas : List Nat), src.kind ≠ 2 → dst.kind = 0 → o.work = none →
        src.bytes.length = dst.bytes.length → 0 < dst.bytes.length → dst.bytes.length ≤ 4096 → y.endPas o.ctx src false = .ok pas →
        let z := y.meetRead o pas e
        z.2 = .none → z.1.engineWrite { o with units := 0 } (dst.bytes.zip (pas.map z.1.paByte)) e = .ok u →
        y.dmaRun o shape src dst e none = (u.modOp o.ring o.idx fun v => { v with units := 1, work := none }).finish o stDone 0)
    ∧ (s.collDue r = none → s.ready r 3 = some o →
      (32 ≤ s.collRunning → coll = .next s)
      ∧ (s.collRunning < 32 → s.engineHeld o = false →
        coll = .next ((x.collIssue o e).fillTlb o.ctx (collVas o (s.group (descBytes o.desc 20 4)))).engineOff))
    ∧ (let g := x.group (descBytes o.desc 20 4)
       x.groupPoison (descBytes o.desc 20 4) g = none → x.groupOk g o.vcid = true →
       (∀ m ∈ x.collModules g (descBytes o.desc 16 1), routeValid (x.route m) = true) → x.collSealed o g = false →
       x.collIssue o e = (x.issue o 0).collStart o g e)
    ∧ (∀ q, s.collDue r = some (o, q) → coll = .next ((x.collStep o q e).fillTlb o.ctx q.outVas).engineOff)
    ∧ (∀ bs s1, fresh 7 → s.ready r 7 = some o → s.engineHeld o = false → s.updRead o (descBytes o.desc 40 8) 128 e = .ok (bs, s1) →
        updAligned o (updBlock bs) = true → updBlockOk o (updBlock bs) = true → o.rule ≠ 4 →
        ¬ (o.target = 1 ∧ (s1.issue o 0).on Reg.RPL_MIR_CLIENT_VALID = true ∧ (s1.issue o 0).get Reg.RPL_MIR_CLIENT_STATE = 2) →
        exec (.update r e part) s = .next ((s1.issue o 0).engineOn.updGo o e part { block := bs }).engineOff)
    ∧ (part ≠ some 0 → s.inWork r 7 = some o → exec (.update r e part) s = .next
        ((x.updGo o e part (o.work.getD {})).fillTlb o.ctx (updVas o (updBlock (o.work.getD {}).block))).engineOff)
    ∧ (∀ (y t : State) (w v : EngWork), updCount o = 128 → w.done = 0 → v.done = 1 → y.updGroup o (updBlock w.block) e w = .go t v →
        y.updGo o e none w = t.updDone o (updBlock w.block) e v
        ∧ ((updBlock w.block).result = 0 →
            t.updDone o (updBlock w.block) e v = (t.modOp o.ring o.idx fun q => { q with units := 1, work := none }).finish { o with units := 1 } stDone 0))
    ∧ (fresh 8 → s.ready r 8 = some o → s.engineHeld o = false → exec (.digest r e part) s = .next ((s.issue o 0).digestGo o e part {}))
    ∧ (part ≠ some 0 → s.inWork r 8 = some o → exec (.digest r e part) s = .next (s.digestGo o e part (o.work.getD {})))
    ∧ (∀ (y t u : State) (w v : EngWork), descBytes o.desc 32 8 = 1 → w.done = 0 → v.done = 1 → y.digestPage o e w = .go t v →
        let out := (digestBytes (digestOf v.hashes)).mapIdx fun k b => (descBytes o.desc 40 8 + k, b)
        (t.modOp o.ring o.idx fun q => { q with units := 1, work := none }).engineWrite { o with units := 1 } out e = .ok u →
        y.digestGo o e none w = u.finish { o with units := 1 } stDone 0)

/-- O38: the descriptors of a step: a NOON whose earlier descriptors and duplicates have reported arrives at its barrier with AND,
payload the vote in its low bits and ones above, MATCH cleared where step or attempt differ and the input vote where no
sealed set of the step exists; a CLOSE of the open step is issued and waits, one of another step is rejected; a PHASE on the running bank finishes, and on the other, loaded,
arms the swap of banks for its frame; a SNAP arms a capture (R278, R309, R317, R329, R333, R472). -/
def Obligations.StepDescriptors : Prop :=
  ∀ (r : Fin 256) (o : Op) (s : State),
    let c := o.ctx
    let vid := descBytes o.desc 16 2
    let f := descBytes o.desc 24 8
    (∀ obj, s.ready r 12 = some o → s.earlierOpen o = false → s.dupPending c = false → s.synOn = true → s.noWaiter = false →
      s.xtObj c vid true = some obj → (s.obj obj).broken = false → (s.obj obj).slot.isSome → (s.obj obj).fits 1 = true →
      let same : Prop := f = s.stepNum c ∧ descBytes o.desc 32 4 = s.get (Reg.RPL_STEP_ATTEMPT_ATTEMPT c) ∧ (s.ctx c).mismatch = false
      ∀ s1 s2 : State, (same → s1 = s) → (¬ same → s1 = s.clearVote c 5) → (s.inputsOk c = true → s2 = s1) → (s.inputsOk c = false → s2 = s1.clearVote c 6) →
        let vote := 2 ^ 64 - 128 + s2.get (Reg.RPL_STEP_VOTE_OWN c) % 128
        exec (.noon r) s = .next ((s2.modCtx c fun x => { x with noonObj := obj, noonVid := vid, vote := vote, mismatch := false, noonHeld := none }).issueArrival
          o obj vid 1 vote 0))
    ∧ (s.ready r 12 = some o → (s.earlierOpen o = true ∨ s.dupPending c = true) →
      exec (.noon r) s = .next (s.modCtx c fun x => { x with noonHeld := x.noonHeld.or (some s.now) }))
    ∧ (s.ready r 13 = some o → f = s.stepNum c → exec (.close r) s = .next (s.issue o 0))
    ∧ (s.ready r 13 = some o → f ≠ s.stepNum c →
      exec (.close r) s = .next ((s.raise (o.faultRec fPermission 6 0 [(1, 10), (8, 0)])).reject o fPermission))
    ∧ (s.ready r 9 = some o → s.bank = descBytes o.desc 16 1 % 2 → exec (.phase r) s = .next ((s.issue o 0).finish o stDone 0))
    ∧ (s.ready r 9 = some o → s.bank ≠ descBytes o.desc 16 1 % 2 → s.fab.swap = none → s.on (loadedFld (descBytes o.desc 16 1 % 2)) = true →
      let at_ := if f ≤ s.frame then s.frame + 1 else f
      exec (.phase r) s = .next ((((s.issue o 0).mark Reg.SWT_STATUS_SWAP_PENDING).put64 Reg.SWT_SWAP_FRAME_LO_FRAME Reg.SWT_SWAP_FRAME_HI_FRAME at_).modFab
        fun x => { x with swap := some (descBytes o.desc 16 1 % 2, at_, o.order) }))
    ∧ (∀ t, s.ready r 10 = some o → s.snapFrameOk o.desc = true → descBytes o.desc 16 1 = 0 →
      s.armCapture (if f = 0 then s.frame + 2 else f) 0 (some o.order) = some t → exec (.snap r) s = .next (t.issue o 0))

/-- O39: once every earlier descriptor of the context has completed, its CLOSE is ready; at its frame a ready CLOSE of a voted
attempt that no discard of that frame takes commits the step at its turn in the order of the tick (R21); at its frame less 3 one that is not ready ends FAULTED with FRAME_OVERRUN, and breaks the Noon barrier of an attempt that is still open, which is discarded; and a voted attempt
without a CLOSE one context watchdog after the release breaks its Noon barrier and is discarded (R329–R332). -/
def Obligations.StepCloses : Prop :=
  ∀ (ctx : Fin 64) (o : Op) (retention : Nat) (s : State),
    let c := ctx.val
    (s.closeOf c = some (o, retention) → s.earlierOpen o = false → s.stepOpen c = true → exec (.closeReady ctx) s = .next (s.mark (Reg.RPL_STEP_STATUS_CLOSE_READY c)))
    ∧ (s.closeOf c = some (o, retention) → (s.earlierOpen o = true ∨ s.stepOpen c = false) → exec (.closeReady ctx) s = .next s)
    ∧ (s.closeOf c = some (o, retention) → s.on (Reg.RPL_STEP_STATUS_CLOSE_READY c) = true → s.stepState c = 2 → s.discardNow c = false →
      s.closeFrame c ≤ s.frame → s.time.pos ≤ 7 → exec (.stepCommit ctx) s = .next (((s.turn 7).commitStep c o retention).cutAtCommit c (s.stepNum c)))
    ∧ (s.closeOf c = some (o, retention) → s.on (Reg.RPL_STEP_STATUS_CLOSE_READY c) = false → s.closeFrame c ≤ s.frame + 3 →
      let t := if s.stepState c = 1 then s.breakOpen c else s
      exec (.closeDeadline ctx) s = .next ((t.faultOp o fFrameOverrun 6 0 [(4, o.budget), (4, o.frames), (8, 0), (4, 0), (1, 13)]).modCtx c
        fun x => { x with closeOp := none }).retrySync)
    ∧ (s.stepState c = 2 → (s.ctx c).closeOp = none → s.discardSet c = false →
      (s.ctx c).votedTick + s.get (Reg.SYN_CTX_WDOG_FRAMES c) ≤ s.now → exec (.votedTimeout ctx) s = .next
        ((((s.mark Reg.RPL_STEP_EVENT_BREAK_SENT).discardNext c).modCtx c fun y => { y with mismatch := true, broke := true }).breakObj
          (s.ctx c).noonObj c (s.ctx c).noonVid none true).retrySync)
    ∧ (s.canon = true → let t := s.commitStep c o retention
        t.stepState c = 0 ∧ t.get Reg.RPL_STEP_EVENT_CLOSED = 1
        ∧ ∀ x ∈ t.rpl.sets, x ∈ s.rpl.sets)

/-! ### Time, memory, optics -/

/-- O40: the time base. A tick of a module that is powered and out of reset runs its actions in the order of R21 and advances
the frame counter by one, and one of any other only counts; a received time message gives its neighbour's record and the highest epoch seen, and news of the master goes on at once; a
follower locks
after 16 good frames, ending a loss after a step, and unlocks after 4 bad ones; the deputy becomes master with the next epoch;
a follower's holdover at its limit is TIME_LOSS; a due step takes the parent's counter; an armed load takes its value at the
next tick, or for ROLE 2 after an edge, and a master that has not yet sent in the frame then does, both at their turn in the order of the tick (R21, R22, R26, R28, R31, R35, R37, R39, R47). -/
def Obligations.TimeBase : Prop :=
  ∀ (e : TickEnv) (port : Fin 16) (m : TimeMsg) (arrival pf : BitVec 64) (p : Party) (v : Word) (s : State),
    (2 ≤ s.powerNow → s.pins.resetLow = false →
      exec (.frameTick e) s = .next (((((((s.endFrame e).advance).timeTick).applyRefresh).firmwareTick).recoverySteps).beginFrame e)
      ∧ (s.endFrame e).advance.time.frame = (s.endFrame e).time.frame + 1 ∧ (s.endFrame e).advance.time.ticks = (s.endFrame e).time.ticks + 1)
    ∧ (s.powerNow < 2 ∨ s.pins.resetLow = true → exec (.frameTick e) s = .next (s.modTime fun t => { t with ticks := t.ticks + 1 }))
    ∧ (s.on Reg.FTB_CTRL_ENABLE = true → s.serviceUp port = true →
      let t := ((s.setNbr port (s.heard port m arrival.toNat)).learnMaster m).relayTimes s arrival.toNat
      let parent : Prop := t.isMaster = false ∧ t.time.hasParent = true ∧ t.get Reg.FTB_STATUS_PARENT = port
      (¬ parent → exec (.timeMessageReceive port m arrival) s = .next t)
      ∧ (parent → exec (.timeMessageReceive port m arrival) s = .next (t.fresh.2.put Reg.FTB_OFFSET_OFFSET
          (toField 32 ((((t.nbr port).off2 + (t.fresh.1 % 2 : Nat)) / 2 : Int))))))
    ∧ (s.isMaster = false → 16 ≤ s.time.good → s.time.resync = false → exec .timeLock s = .next (s.mark Reg.FTB_STATUS_LOCKED))
    ∧ (s.isMaster = false → 16 ≤ s.time.good → s.time.resync = true → exec .timeLock s = .next
      ((((s.mark Reg.FTB_STATUS_LOCKED).put Reg.FTB_STATUS_TIME_LOSS 0).put Reg.FTB_STATUS_TERM_ONLY 0).modTime fun t => { t with resync := false }))
    ∧ (s.isMaster = false → 4 ≤ s.time.bad → exec .timeUnlock s = .next (s.put Reg.FTB_STATUS_LOCKED 0))
    ∧ (s.time.promoteDue = true → s.on Reg.FTB_CTRL_DEPUTY = true → s.isMaster = false → exec .deputyPromotion s = .next (s.becomeMaster.sendTimes (stampOf s.frame))
        ∧ s.becomeMaster.time.hiEpoch = (s.time.hiEpoch + 1) % 65536)
    ∧ (s.isMaster = false → s.on Reg.FTB_STATUS_HOLDOVER = true → s.get Reg.FTB_HOLD_HOLD_LIMIT ≤ s.get Reg.FTB_HOLD_HOLD_CNT → s.on Reg.FTB_STATUS_VALID = true →
      s.on Reg.FTB_STATUS_TIME_LOSS = false → exec .timeLoss s = .next
        (let t := (((s.logRec { code := fTimeLoss, unitKind := 11, unit := 0, detail :=
            [(2, s.get Reg.FTB_HOLD_HOLD_CNT), (1, s.get Reg.FTB_STATUS_PARENT), (2, s.get Reg.FTB_MASTER_MASTER_ID), (2, s.get Reg.FTB_MASTER_EPOCH)] }).mark
            Reg.FTB_STATUS_TIME_LOSS).mark Reg.FTB_STATUS_TERM_ONLY).mark Reg.FTB_EVENT_TIME_LOSS
         t.each ((List.range 64).filter t.stepOpen) fun u c => u.cause c 3))
    ∧ (s.setFrame pf).time.frame = pf
    ∧ (∀ t0, s.time.stepDue = some t0 → t0 ≤ s.now → s.time.pos ≤ 1 → exec (.timeStep pf) s = .next
        ((((((((s.turn 1).setFrame pf).modTime fun t => { t with stepDue := none, good := 0, bad := 0, resync := true }).bump Reg.FTB_STEP_CNT_STEPS).mark
          Reg.FTB_EVENT_STEP).mark Reg.FTB_STATUS_VALID).put Reg.FTB_STATUS_HOLDOVER 0).put Reg.FTB_STATUS_LOCKED 0))
    ∧ (s.acts p → s.get Reg.FTB_CTRL_ROLE ≠ 0 → s.canon = true → s.on Reg.FTB_STATUS_VALID = false → exec (.ftbLoadHiWrite p v) s = .next
        ((s.put Reg.FTB_LOAD_HI_LOAD_HI v.toNat).modTime fun t => { t with loadArmed := true, loadTick := s.now + 1, loadPps := false }))
    ∧ (s.time.loadArmed = true → s.get Reg.FTB_CTRL_ROLE ≠ 0 → s.on Reg.FTB_STATUS_VALID = false →
      (s.get Reg.FTB_CTRL_ROLE = 2 ∧ s.time.loadPps = true ∨ s.get Reg.FTB_CTRL_ROLE ≠ 2 ∧ s.time.loadTick ≤ s.now ∧ s.time.pos ≤ 1) →
      let t := ((s.setFrame (BitVec.ofNat 64 (s.get64 Reg.FTB_LOAD_LO_LOAD_LO Reg.FTB_LOAD_HI_LOAD_HI))).modTime fun t =>
        { t with loadArmed := false }).mark Reg.FTB_STATUS_VALID
      (t.isMaster = true ∧ t.time.sentNow = false → exec .counterLoad s = .next (t.sendTimes (stampOf t.frame)))
      ∧ (¬ (t.isMaster = true ∧ t.time.sentNow = false) → exec .counterLoad s = .next t))

/-- O41: the time references on the pins: an accepted PPS edge is the second of a run only 10,000,000 ± 2 cycles after the last
and then makes PPS valid; an edge that is too short or early is ignored and counted; without edges PPS is not valid; the loss
or a frequency fault of the 10 MHz reference ends its validity, and 1 ms within ±10 ppm restores it; a capture is armed by a
register, an announcement or TRIG_IN for a frame to come, merges with one for its frame and conflicts with one for another,
is taken at its frame, the live set of every block that is powered and out of reset with it, a core's with its ASW, the
others' marked invalid, or missed while a dump reads the sets, TRIG_OUT pulsing either way; TRIG_IN edges too short or too close are counted and arm nothing
(R21, R63, R471–R473, R485, R486). -/
def Obligations.ReferencesAndCaptures : Prop :=
  ∀ (cycles : Nat) (v : Word) (frame : BitVec 64) (s : State),
    (s.pins.ppsAt.isSome → 9999998 ≤ cycles → cycles ≤ 10000002 → 1 ≤ s.pins.ppsRun → exec (.ppsInEdge false cycles) s = .next
      (((s.modPins fun x => { x with ppsAt := some s.now, ppsRun := 2 }).mark Reg.GLB_STATUS_PPS_VALID).modTime
        fun t => { t with loadPps := t.loadPps || t.loadArmed }))
    ∧ (exec (.ppsInEdge true cycles) s = .next ((s.bump Reg.GLB_PPS_BAD_CNT_COUNT).mark Reg.GLB_EVENT_PPS_BAD))
    ∧ (s.pins.ppsAt.isSome → cycles < 9999998 ∨ 10000002 < cycles → exec (.ppsInEdge false cycles) s = .next
      ((s.bump Reg.GLB_PPS_BAD_CNT_COUNT).mark Reg.GLB_EVENT_PPS_BAD))
    ∧ exec .ppsValidTimeout s = .next ((s.put Reg.GLB_STATUS_PPS_VALID 0).modPins fun x => { x with ppsRun := 0 })
    ∧ exec .timeRefLoss s = .next s.refLost ∧ exec .timeRefFreqFault s = .next s.refLost
    ∧ (s.canon = true → s.refLost.on Reg.GLB_STATUS_REF_VALID = false)
    ∧ (s.on Reg.GLB_STATUS_REF_VALID = false → exec .timeRefRecover s = .next
      ((s.mark Reg.GLB_STATUS_REF_VALID).modPins fun x => { x with ppsAt := none, ppsRun := 0 }))
    ∧ (let t := s.put Reg.SNP_ARM_HI_FRAME_HI v.toNat
       let f := t.get64 Reg.SNP_ARM_LO_FRAME_LO Reg.SNP_ARM_HI_FRAME_HI
       (s.snp.armed = none → s.frame < f → exec (.snpArmWrite v) s = .next
          ({ t.mark Reg.SNP_STATUS_ARMED with snp := { t.snp with armed := some { frame := f, src := 1, snaps := [] } } }))
       ∧ (∀ a, s.snp.armed = some a → s.frame < f → a.frame ≠ f → exec (.snpArmWrite v) s = .next
          ((t.bump Reg.SNP_CONFLICT_CNT_COUNT).mark Reg.SNP_EVENT_CONFLICT))
       ∧ (f ≤ s.frame → exec (.snpArmWrite v) s = .next (t.mark Reg.SNP_EVENT_LATE)))
    ∧ (frame.toNat ≤ s.frame → exec (.captureAnnounce frame) s = .next ((s.mark Reg.SNP_EVENT_LATE).mark Reg.SWT_EVENT_LATE_ANNOUNCE))
    ∧ (s.snp.armed = none → s.frame < frame.toNat → exec (.captureAnnounce frame) s = .next
        ({ s.mark Reg.SNP_STATUS_ARMED with snp := { s.snp with armed := some { frame := frame.toNat, src := 3, snaps := [] } } }))
    ∧ (∀ a, s.snp.armed = some a → s.frame < frame.toNat → a.frame = frame.toNat → exec (.captureAnnounce frame) s = .next s)
    ∧ (∀ a, s.snp.armed = some a → a.frame ≤ s.frame → s.time.pos ≤ 2 →
        let t0 : State := { (s.turn 2).put Reg.SNP_STATUS_ARMED 0 with snp := { s.snp with armed := none } }
        let t := if s.on Reg.SNP_CTRL_TRIG_OUT_EN = true then t0.emit .trigOut else t0
        let ops := a.snaps.filterMap t.opNo?
        let taken := ((((t.bump Reg.SNP_CAPTURE_CNT_COUNT).mark Reg.SNP_EVENT_CAPTURED).mark Reg.SNP_STATUS_VALID).put
          Reg.SNP_STATUS_LAST_SRC a.src).put64 Reg.SNP_LAST_LO_FRAME Reg.SNP_LAST_HI_FRAME a.frame
        (∀ reading, reading = false ∨ s.hrc.running = none → exec (.midnightCapture reading) s = .next
          (({ taken with snp := taken.capture } : State).each ops fun u o => u.finish o stDone 0))
        ∧ (s.hrc.running.isSome = true → exec (.midnightCapture true) s = .next
          (((t.bump Reg.SNP_MISSED_CNT_COUNT).mark Reg.SNP_EVENT_MISSED).each ops fun u o =>
            u.faultOp o fFrameOverrun 6 0 [(4, o.budget), (4, o.frames), (8, o.units), (4, o.substep), (1, 10)])))
    ∧ (∀ a, s.snp.armed = some a → s.frame < a.frame → exec (.midnightCapture false) s = .next s)
    ∧ (let seen := s.mark Reg.GLB_STATUS_TRIG_IN
       (∀ t, s.pins.trigAt = some t → s.now < t + 4 → exec (.trigInEdge false) s = .next
          ((seen.bump Reg.GLB_TRIG_IGN_CNT_COUNT).mark Reg.GLB_EVENT_TRIG_IGNORED))
       ∧ (s.canon = true → s.pins.trigAt = none → s.on Reg.GLB_STATUS_TRIG_STUCK = false →
          let taken := seen.modPins fun x => { x with trigAt := some s.now }
          (s.on Reg.SNP_CTRL_TRIG_IN_EN = false → exec (.trigInEdge false) s = .next taken)
          ∧ (s.on Reg.SNP_CTRL_TRIG_IN_EN = true → s.snp.armed = none →
              (s.on Reg.SNP_CTRL_TRIG_SLICE = false → exec (.trigInEdge false) s = .next
                ({ taken.mark Reg.SNP_STATUS_ARMED with snp := { s.snp with armed := some { frame := s.frame + 2, src := 2, snaps := [] } } }))
              ∧ (s.on Reg.SNP_CTRL_TRIG_SLICE = true → exec (.trigInEdge false) s = .next
                (({ taken.mark Reg.SNP_STATUS_ARMED with snp := { s.snp with armed := some { frame := s.frame + s.snpLead, src := 2, snaps := [] } } } : State).svcCast
                  (.capture (s.frame + s.snpLead)))))))
    ∧ (∀ b, b ∈ s.capture.invalid ↔ b ∈ snapBlocks ∧ s.blockSilent b ≠ none)
    ∧ (s.snp.sets = [] → ∀ b ∈ snapBlocks, sget (fun _ => []) s.capture.sets b = if s.blockSilent b = none then s.liveSet b else [])
    ∧ (∀ c < 144, (s.liveSet (4096 + c)).head? = some (s.reg (Reg.CORE_ASW c)).toNat)
    ∧ exec (.trigInEdge true) s = .next ((s.bump Reg.GLB_TRIG_IGN_CNT_COUNT).mark Reg.GLB_EVENT_TRIG_IGNORED)
    ∧ exec .trigInStuck s = .next ((s.mark Reg.GLB_STATUS_TRIG_STUCK).mark Reg.GLB_EVENT_TRIG_STUCK)

/-- O42: the memories: a repair goes ahead with the chunk at the tick after GO, or fails without a spare row; three frames later
the chunk lies in a spare row; a temperature sample sets the refresh state of the next tick by R153's thresholds; a scrub
read counts a corrected error and poisons an uncorrectable one; a row chunk's count of corrected errors lapses after 24 h;
an invalidation of translations is BUSY until it is done, and then no engine holds one of the context, or of any; the page
of a failed repair is retired then (the model's choice: log entry 129) (R142, R153, R156, R158–R162). -/
def Obligations.MemoryUpkeep : Prop :=
  ∀ (v : Word) (stalls : BitVec 16) (mem : Fin 9) (temp : Byte) (g : BitVec 34) (s : State),
    let pa := g.toNat * 64
    (∀ t0, s.memx.repairGo = some t0 → t0 < s.now → s.spares (memOf s.repairChunk) = 0 → exec .repairStart s = .next
      ((((s.mark Reg.MEM_REPAIR_STATUS_NO_SPARE).mark Reg.MEM_EVENT_REPAIR_FAIL).put Reg.MEM_REPAIR_CTRL_GO 0).modMem fun x =>
        { x with repairGo := none, retireDue := insertSorted (s.repairChunk / 65536 * 65536) x.retireDue }))
    ∧ (∀ t0, s.memx.repairGo = some t0 → t0 < s.now → s.spares (memOf s.repairChunk) ≠ 0 → exec .repairStart s = .next
      ((((s.mark Reg.MEM_REPAIR_STATUS_BUSY).mark Reg.MEM_STATUS_REPAIR_BUSY).put Reg.MEM_REPAIR_STATUS_STALL 0).modMem
        fun x => { x with repairGo := none, repair := some (s.repairChunk, s.now) }))
    ∧ (∀ a t0, s.memx.repair = some (a, t0) → t0 + 3 ≤ s.now → exec (.repairDone stalls) s = .next
      (((((((s.put Reg.MEM_REPAIR_STATUS_BUSY 0).put Reg.MEM_STATUS_REPAIR_BUSY 0).put Reg.MEM_REPAIR_CTRL_GO 0).mark Reg.MEM_REPAIR_STATUS_DONE).mark
        Reg.MEM_EVENT_REPAIR_DONE).put Reg.MEM_REPAIR_STATUS_STALL stalls.toNat).setSpares (memOf a) (s.spares (memOf a) - 1)
          |>.modMem fun x => { x with repair := none, repaired := x.repaired ++ [a] }))
    ∧ (exec (.memTempSample mem temp) s = .next ((s.put (tempFld mem) temp.toNat).modMem fun x => { x with
        refreshDue := sset (fun _ => (0, 0)) x.refreshDue mem (refreshNext (s.get (refreshFld mem)) temp.toNat, s.now + 1) }))
    ∧ (∀ θ, (85 < θ → θ ≤ 95 → refreshNext 0 θ = 1) ∧ (95 < θ → refreshNext 0 θ = 2) ∧ (θ ≤ 85 → refreshNext 0 θ = 0)
        ∧ (θ < 82 → refreshNext 1 θ = 0) ∧ (92 ≤ θ → refreshNext 2 θ = 2))
    ∧ (s.on Reg.MEM_CTRL_SCRUB_EN = true → paExists pa = true → memOf pa ≠ 9 →
      exec (.scrubRead g .clean) s = .next s ∧ exec (.scrubRead g .corrected) s = .next (s.correctedErr pa none)
      ∧ exec (.scrubRead g .uncorrectable) s = .next (s.markUe pa none))
    ∧ (let w := sget (fun _ => (0, 0)) s.memx.ceCount (chunkOf pa)
       w.1 ≠ 0 → w.2 + dayTicks ≤ s.now → exec (.ceWindowExpire g) s = .next
        (s.modMem fun x => { x with ceCount := sset (fun _ => (0, 0)) x.ceCount (chunkOf pa) (0, 0) }))
    ∧ (v.getLsbD 7 = true → s.on Reg.MEM_XLAT_INVAL_BUSY = false → exec (.memXlatInval .firmware v) s = .next
        (((s.mark Reg.MEM_XLAT_INVAL_BUSY).mark Reg.MEM_STATUS_XLAT_BUSY).modMem fun x =>
          { x with inval := some (if v.getLsbD 6 then none else some (v.toNat % 64)) }))
    ∧ (v.getLsbD 31 = true → s.on Reg.MEM_REPAIR_STATUS_BUSY = false → s.canon = true → s.memx.repairGo = none →
        ∃ t, exec (.memRepairGo .firmware v) s = .next t ∧ t.get Reg.MEM_REPAIR_CTRL_GO = 1 ∧ t.memx.repairGo = some s.now
          ∧ t.get Reg.MEM_REPAIR_CTRL_PAGE = v.toNat % 2 ^ 24 ∧ t.get Reg.MEM_REPAIR_CTRL_CHUNK = v.toNat / 2 ^ 24 % 64)
    ∧ (∃ f : MemSt → MemSt, exec .memXlatDone s = .next (((s.put Reg.MEM_XLAT_INVAL_BUSY 0).put Reg.MEM_STATUS_XLAT_BUSY 0).modMem f)
        ∧ (∀ c, s.memx.inval = some (some c) → (f s.memx).tlb = s.memx.tlb.filter fun x => x.ctx != c)
        ∧ (s.memx.inval = some none → (f s.memx).tlb = [])
        ∧ (f s.memx).inval = none ∧ (f s.memx).retireDue = []
        ∧ (f s.memx).retired = s.memx.retireDue.foldl (fun l p => insertSorted p l) s.memx.retired)

/-- O43: the ring loops and the lanes, every form of each command. A ring that has held for 16 frames is LOCKED and its tone check
begins; an attempt that does not acquire in 16 frames fails. The end of a sweep moves the ring to its extremum, which a
calibration of its port keeps, or fails the attempt where there is none. A tone check that ends sound verifies the ring, takes
up the rings of its bus after an attempt, ends the quiet time of its lanes where it is a transmit ring, and a failed one raises
WRONG_LAMBDA and fails the attempt. A lane alarm is counted and sent to the source of the lane, but not in the dark gap; at its
source the ring of that lane is quiet for the short check. A message of a lane's move takes effect 18 frames later at its
receiver, and so does the sender's own: the lane travels on λ16, its quiet time ends, or it is back, and then λ16 takes a lane
whose wavelength was lost. A request for a move is met where λ16 is free and AUTO_SWAP is 1, and is otherwise refused (log
entry 157); a refusal holds the cells of its port. Messages of the service lane are heard only where it runs
(R244–R251, R261). -/
def Obligations.RingsAndLanes : Prop :=
  ∀ (r : RingName) (ext : Option (BitVec 16)) (tones : List Tone) (port : Fin 16) (m : LinkMsg) (s : State),
    let p := r.port.val
    let lam := r.lam.val
    let k := ringKey p r.rx lam
    let x := s.tuner k
    let lane := m.count.toNat % 16
    let q := m.port.toNat
    let lock := exec (.ringLock r) s
    let sweep := exec (.ringSweepEnd r ext) s
    let check := exec (.toneCheckEnd r tones) s
    let switch := exec (.laneMoveSwitch port) s
    -- the ring loop locks, or its attempt fails
    (x.st = 2 → 16 ≤ x.good → lock = .next (s.modTuner k fun y => { y with st := 3, acquire := none, check := some (s.now, 512) }))
    ∧ (∀ t0, x.st = 2 → x.good < 16 → x.acquire = some t0 → 0 < x.attempt → t0 + 16 ≤ s.now → lock = .next (s.attemptFails p r.rx lam))
    ∧ (x.st ≠ 2 ∨ (x.good < 16 ∧ (x.acquire = none ∨ x.attempt = 0 ∨ ∃ t0, x.acquire = some t0 ∧ s.now < t0 + 16)) → lock = .next s)
    -- a sweep
    ∧ (∀ t0, x.sweep = some t0 → x.st = 1 → t0 + 250 ≤ s.now →
      (ext = none → sweep = .next (s.attemptFails p r.rx lam))
      ∧ (∀ h, ext = some h →
        let calibrated : Prop := ∃ c, s.opt.cal = some c ∧ c.1 = 0 ∧ c.2.1 = p
        (calibrated → sweep = .next (s.modTuner k fun y => { y with
          st := 2, sweep := none, heater := h.toNat, good := 0, acquire := some s.now, hcal := some h.toNat }))
        ∧ (¬ calibrated → sweep = .next (s.modTuner k fun y => { y with
          st := 2, sweep := none, heater := h.toNat, good := 0, acquire := some s.now }))))
    ∧ (x.sweep = none ∨ x.st ≠ 1 ∨ (∃ t0, x.sweep = some t0 ∧ s.now < t0 + 250) → sweep = .next s)
    -- a tone check
    ∧ (∀ t0 n, x.check = some (t0, n) → s.on Reg.OPT_CTRL_TONE_EN = true → t0 + n ≤ s.now → x.st = 3 ∨ x.st = 4 →
        let t := s.modTuner k fun y => { y with tone := strongest tones }
        let verified := t.modTuner k fun y => { y with st := 4, attempt := 0, check := some (s.now, 512) }
        let resumed := (if 0 < x.attempt then verified.resumeBus p r.rx lam else verified).goAfter p r.rx lam
        (toneOk (t.expected p r.rx lam) tones = false → check = .next ((t.wrongLambda p r.rx lam tones).attemptFails p r.rx lam))
        ∧ (toneOk (t.expected p r.rx lam) tones = true →
          (r.rx = true → check = .next (resumed.refreshPort p))
          ∧ (r.rx = false → check = .next (((List.range 16).foldl (fun u j =>
              if laneWave (u.txSpare p) j = lam then u.quietOff p (32 + j) else u) resumed).refreshPort p))))
    ∧ (x.check = none ∨ s.on Reg.OPT_CTRL_TONE_EN = false ∨ (x.st ≠ 3 ∧ x.st ≠ 4) ∨ (∃ t0 n, x.check = some (t0, n) ∧ s.now < t0 + n) → check = .next s)
    -- lane alarms
    ∧ (∀ w lanes l, (s.port port).alarm = (w, lanes) :: l →
        let t0 := s.modPort port fun y => { y with alarm := l }
        (s.on (Reg.OPT_PORT_STATUS_GAP port) = false → exec (.laneAlarm port) s = .next
          (((t0.bump (Reg.OPT_PORT_ALARM_CNT_COUNT port)).mark Reg.OPT_EVENT_LANE_ALARM).each lanes fun t j =>
            (t.shortCheck (ringKey port true (laneWave (t.sourceSpare port w) j))).sendTo t.moduleId w
              (.lane (t.linkMsg 1 0 w (t.farPort port w) j 0 0 0))))
        ∧ (s.on (Reg.OPT_PORT_STATUS_GAP port) = true → exec (.laneAlarm port) s = .next t0))
    ∧ ((s.port port).alarm = [] → exec (.laneAlarm port) s = .next s)
    ∧ (s.serviceUp port = true →
      exec (.laneAlarmMessage port m) s = .next ((s.quietOn q (32 + lane)).shortCheck
        (ringKey q false (laneWave ((s.quietOn q (32 + lane)).txSpare q) lane)))
      -- a lane's move
      ∧ exec (.laneMove port m) s = .next (s.modPort q fun y =>
        let z := sget (fun _ => {}) y.sources m.src.toNat
        { y with sources := sset (fun _ => {}) y.sources m.src.toNat { z with change := some (if z.txSpare = lane then 31 else lane, s.now + 18) } })
      ∧ (let refused := s.sendTo s.moduleId m.src.toNat (.lane (s.linkMsg 4 0 m.src.toNat (s.farPort q m.src.toNat) lane 0 0 0))
         let done : Prop := s.txSpare q = lane ∨ ∃ y, (s.port q).move = some y ∧ y.lane = lane
         (done → exec (.laneMoveRequest port m) s = .next s)
         ∧ (¬ done → s.spareFree q = true → s.on Reg.OPT_CTRL_AUTO_SWAP = true → exec (.laneMoveRequest port m) s = .next (s.startMove q lane false))
         ∧ (¬ done → s.spareFree q = false ∨ s.on Reg.OPT_CTRL_AUTO_SWAP = false → exec (.laneMoveRequest port m) s = .next refused))
      ∧ ((s.port q).hold = [] → exec (.laneMoveRefusal port m) s = .next s)
      ∧ ((s.port q).hold ≠ [] → exec (.laneMoveRefusal port m) s = .next (s.mark (Reg.OPT_PORT_STATUS_RX_HOLD q))))
    ∧ (s.serviceUp port = false → exec (.laneAlarmMessage port m) s = .next s ∧ exec (.laneMove port m) s = .next s
      ∧ exec (.laneMoveRequest port m) s = .next s ∧ exec (.laneMoveRefusal port m) s = .next s)
    ∧ (∀ y, (s.port port).move = some y → y.at_ + 18 ≤ s.now →
      let moved (l : Nat) := (s.put (Reg.OPT_PORT_LANE_TX_SPARE port) l).modPort port fun z => { z with move := none }
      (y.back = false → switch = .next
        ((((((moved y.lane).quietOff port y.lane).quietOff port (64 + y.lane)).quietOff port (32 + y.lane)).refreshPort port).sendBeacon port))
      ∧ (y.back = true → let t := (moved 31).refreshPort port
        (∀ l, t.lostLane port = some l → t.on Reg.OPT_CTRL_AUTO_SWAP = true → switch = .next ((t.startMove port l false).sendBeacon port))
        ∧ (t.lostLane port = none ∨ t.on Reg.OPT_CTRL_AUTO_SWAP = false → switch = .next (t.sendBeacon port))))
    ∧ ((s.port port).move = none ∨ (∃ y, (s.port port).move = some y ∧ s.now < y.at_ + 18) → switch = .next s)

/-- O44: the cartridges: the spare of a swap locks, and is matched, its switch announced for two frames later; at that frame the
wavelength takes the new source and SWAP_DONE is set; a spare that does not lock in 24,414 frames is FAILED and the next is
taken, unless the bank only reports; an old source is READY_TO_PULL, or as a spare that has handed its wavelength back free
again; a laser that fails is recorded, counted, FAILED and deselected; a released or opened cartridge leaves its wavelength;
a pulled lit cartridge fails at the next tick; an inserted one is present, measured and dark, or lit again on the
wavelength that it feeds, or takes back its own (R238, R242, R258, R260). -/
def Obligations.Cartridges : Prop :=
  ∀ (p : Party) (lam : Fin 18) (cart : Fin 22) (v : Word) (pc : BitVec 16) (s : State),
    (∀ w, s.swapOf lam = some w → w.locked = true → w.switchAt = none → exec (.spareMatched lam) s = .next
      (((s.setLc w.new lcMatched lam).modSwap lam fun x => { x with switchAt := some (s.now + 2) }).sendBeacons))
    ∧ exec (.spareLocked lam) s = .next (s.modSwap lam fun w => { w with locked := true })
    ∧ (∀ w, s.swapOf lam = some w → w.locked = false → w.start + 24414 ≤ s.now →
      let u := ((s.setLc w.new lcFailed 31).dropSwap w.lam).when w.switchAt.isSome State.sendBeacons
      (u.on Reg.OPT_CTRL_AUTO_SWAP = false → exec (.spareLockTimeout lam) s = .next u)
      ∧ (∀ n, u.on Reg.OPT_CTRL_AUTO_SWAP = true → u.pickSpare w.lam = some n → exec (.spareLockTimeout lam) s = .next
          (u.beginSwap { w with new := n, start := s.now, locked := false, switchAt := none }))
      ∧ (u.on Reg.OPT_CTRL_AUTO_SWAP = true → u.pickSpare w.lam = none → exec (.spareLockTimeout lam) s = .next (u.noSpare w.lam w.failed)))
    ∧ (∀ w n, s.swapOf lam = some w → w.switched = false → w.switchAt = some n → n ≤ s.now → exec (.laserSourceSwitch lam) s = .next
      ((((((s.put (Reg.OPT_WL_SRC_SOURCE lam) w.new).setLc w.new lcLit lam).mark Reg.OPT_EVENT_SWAP_DONE).modSwap lam fun x => { x with switched := true }).modOpt
        fun o => { o with prevSrc := sset (fun _ => (31, 0)) o.prevSrc lam (w.old, s.now) }).park.sendBeacons))
    ∧ (∀ w n, s.swapOf lam = some w → w.switched = true → w.switchAt = some n → n + 16 ≤ s.now →
      let u := s.dropSwap lam
      (w.failed = true → exec (.oldSourceDark lam pc) s = .next (u.each (List.range 16) fun t q =>
        let t1 := t.quietOff q (64 + lam)
        if lam.val < 16 && s.on Reg.OPT_CTRL_AUTO_SWAP && t1.txSpare q == lam.val && (t1.port q).move.isNone then t1.startMove q lam true else t1))
      ∧ (w.failed = false → w.cal = true ∧ w.old < 18 → exec (.oldSourceDark lam pc) s = .next
        (((u.put (Reg.OPT_LC_COMM_P_C w.old) pc.toNat).modOpt fun o => { o with pc := sset Config.laserCal o.pc w.old pc.toNat, calMeasured := true }).beginSwap
          { lam := lam, old := w.new, new := w.old, start := s.now, cal := true }))
      ∧ (w.failed = false → ¬ (w.cal = true ∧ w.old < 18) → exec (.oldSourceDark lam pc) s = .next ((u.retire w).handBack lam)))
    ∧ (∀ w, w.old < 22 → s.retire w =
      if w.cal = true ∨ (18 ≤ w.old ∧ w.new < 18) then (s.setLc w.old lcDark 31).park else s.setLc w.old lcReady 31)
    ∧ (∀ e, (s.opt.failDue.find? fun x => x.1 == cart.val) = some e → e.2.2 ≤ s.now →
      let t := ((s.modOpt fun o => { o with failDue := o.failDue.filter fun x => x.1 != cart.val, hist := sset (fun _ => []) o.hist cart [] }).logRec
        { code := fLaserFail, unitKind := 10, unit := cart, detail := [(1, cart), (1, s.get (Reg.OPT_LC_STATUS_LAMBDA cart)), (1, e.2.1)] }).bump
        Reg.OPT_LASER_FAIL_CNT_COUNT
      let u := t.mark Reg.OPT_EVENT_LASER_FAIL
      (∀ n, u.feeds cart = some n → exec (.laserFail cart) s = .next (((u.setLc cart lcFailed 31).loseLaser cart n).park))
      ∧ (u.feeds cart = none → (u.opt.swaps.find? fun w => w.new == cart.val && !w.switched) = none →
          exec (.laserFail cart) s = .next (u.setLc cart lcFailed 31).park)
      ∧ (∀ w, u.feeds cart = none → (u.opt.swaps.find? fun w => w.new == cart.val && !w.switched) = some w →
          exec (.laserFail cart) s = .next ((u.setLc cart lcFailed 31).nextSpare w).park))
    ∧ (p.fw = true → s.acts p → exec (.cartridgeRelease p cart v) s = .next (s.writeLcCtrl cart v.toNat))
    ∧ (p.fw = false → exec (.cartridgeRelease p cart v) s = .next (s.mark Reg.SUB_EVENT_HOST_DENIED))
    ∧ exec (.leverOpen cart) s = .next ((s.mark (Reg.OPT_LC_STATUS_LEVER_OPEN cart)).releaseLc cart)
    ∧ (s.lit cart = true → exec (.cartridgePull cart) s = .next ((s.put (Reg.OPT_LC_STATUS_PRESENT cart) 0).modOpt
        fun o => { o with failDue := (o.failDue.filter fun e => e.1 != cart.val) ++ [(cart.val, 2, s.now + 1)] }))
    ∧ (s.lit cart = false → exec (.cartridgePull cart) s = .next ((s.put (Reg.OPT_LC_STATUS_PRESENT cart) 0).setLc cart lcDark 31).park)
    ∧ (let t := (((((((s.mark (Reg.OPT_LC_STATUS_PRESENT cart)).put (Reg.OPT_LC_STATUS_LEVER_OPEN cart) 0).put (Reg.OPT_LC_STATUS_WARN cart) 0).put
          (Reg.OPT_LC_STATUS_SWAP cart) 0).put (Reg.OPT_LC_COMM_P_C cart) pc.toNat).modOpt fun o =>
            { o with pc := sset Config.laserCal o.pc cart pc.toNat, hist := sset (fun _ => []) o.hist cart [], litFor := sset (fun _ => 0) o.litFor cart 0 }).setLc
              cart lcDark 31)
       let own : Prop := t.get (Reg.OPT_WL_SRC_SOURCE cart) = cart.val ∧ t.bankOn cart = true ∧ t.on Reg.GLB_STATUS_RELAY_READY = true
       (18 ≤ cart.val → exec (.cartridgeInsert cart pc) s = .next t.park)
       ∧ (cart.val < 18 → own → exec (.cartridgeInsert cart pc) s = .next (t.setLc cart lcLit cart))
       ∧ (cart.val < 18 → ¬ own → exec (.cartridgeInsert cart pc) s = .next (t.handBack cart)))

/-! ### The fabric -/

/-- O45: cells and their answers: in a slot a port launches the cell that its schedule word and credits give, and an idle cell
where it has none; a port that cannot launch sends idle cells too; under the relay all light passes to the paired port, and an
EXPRESS slot that is not degraded expresses; a port in its gap takes in nothing, and one that is not UP notes the markers
alone; a terminated cell goes through the receipt of its port: one that fails its decode is refused and counted, whatever its
TYPE reads, an idle cell counts nothing but its markers and corrections, one that arrives on RX_HOLD is refused, a duplicate is
discarded, one that meets a full buffer is refused, and one that is accepted is checked and taken in; a relaunched cell reads
its source bytes again, and a source that fails ends its descriptor instead; an ACK ends the flight of the cells up to its sequence, a NAK refuses the cell, a hold refusal
makes it wait until RESUME; credits add up to 16; DELIVERED marks its transfer, a refusal ends its descriptor with its code
and fails an engine's restore, load or checkpoint,
a READ_REQ is answered with the bytes it names, and 16 frames without an answer or a report count as a refusal or LINK_DOWN
(R244, R248, R252, R253, R273, R280–R289, R490). -/
def Obligations.CellsAndAnswers : Prop :=
  ∀ (slot : Fin 64) (port : Fin 16) (term src : BitVec 13) (lseq : BitVec 16) (xfer : Word) (m : LinkMsg) (c : Cell) (e : RxEnv) (me : MemErr) (s : State),
    (let lights := s.switchRelay = false ∧ s.bypOpen port = true ∧ s.on (Reg.OPT_PORT_STATUS_GAP port) = false ∧ s.outKind slot port ≠ 2
     (∀ q served, lights → s.canLaunch port = true → s.sliceTag ≠ 0 → s.toLaunch slot port term.toNat = some (q, served) →
        (s.on Reg.SWT_SLICE_ENC = false ∨ q.mine = false ∨ s.on (keyFld s.keySlot) = true) → s.relaunchErr q = .none →
        exec (.cellLaunch slot port term) s = .next (s.launchCell slot port term.toNat q served))
     ∧ (∀ q served, lights → s.canLaunch port = true → s.sliceTag ≠ 0 → s.toLaunch slot port term.toNat = some (q, served) →
        (s.on Reg.SWT_SLICE_ENC = false ∨ q.mine = false ∨ s.on (keyFld s.keySlot) = true) → s.relaunchErr q ≠ .none →
        exec (.cellLaunch slot port term) s = .next ((s.relaunchFails q (s.relaunchErr q)).idleSlot slot port))
     ∧ (∀ q l c, q.lseq = some l → q.src ≠ [] → s.ctxOf q.cell.vcid.toNat = some c → (s.readAgain q).payload = q.src.map s.paByte)
     ∧ (∀ q served, lights → s.canLaunch port = true → s.sliceTag ≠ 0 → s.toLaunch slot port term.toNat = some (q, served) →
        s.on Reg.SWT_SLICE_ENC = true → q.mine = true → s.on (keyFld s.keySlot) = false →
        exec (.cellLaunch slot port term) s = .next (s.idleSlot slot port))
     ∧ (lights → (s.canLaunch port = false ∨ s.sliceTag = 0 ∨ s.toLaunch slot port term.toNat = none) →
          exec (.cellLaunch slot port term) s = .next (s.idleSlot slot port))
     ∧ (¬ lights → exec (.cellLaunch slot port term) s = .next s))
    ∧ (let w := s.schedWord s.bank slot port 0
       let from_ := if wordKind w = 1 then wordOrigin w else s.peer port
       let n := c.lseq.toNat
       let bad := wrongSymbols e
       let ok := allDecode bad && c.crcOk
       (s.bypOpen port = false → exec (.cellReceive slot port c e) s = .next s)
       ∧ (s.bypOpen port = true → s.switchRelay = true → exec (.cellReceive slot port c e) s = .next (s.emit (.express slot port (pairPort port) c)))
       ∧ (s.bypOpen port = true → s.switchRelay = false → wordKind w = 2 → s.degraded port (wordPort w) = false →
          exec (.cellReceive slot port c e) s = .next (s.emit (.express slot port (wordPort w) c)))
       ∧ (s.bypOpen port = true → s.switchRelay = false → (wordKind w ≠ 2 ∨ s.degraded port (wordPort w) = true) →
          (s.on (Reg.OPT_PORT_STATUS_GAP port) = true → exec (.cellReceive slot port c e) s = .next s)
          ∧ (s.on (Reg.OPT_PORT_STATUS_GAP port) = false →
             let s0 := s.noteLanes port from_ e
             ((s.on (Reg.OPT_PORT_STATUS_UP port) = false ∨ (s.canTerminate port = false ∧ s.on (Reg.OPT_PORT_STATUS_RX_HOLD port) = false)) →
                exec (.cellReceive slot port c e) s = .next s0)
             ∧ (s.on (Reg.OPT_PORT_STATUS_UP port) = true → (s.canTerminate port = true ∨ s.on (Reg.OPT_PORT_STATUS_RX_HOLD port) = true) →
                let s1 := if wordKind w = 2 ∧ ¬ (c.type = 0 ∧ ok = true) then (s0.bump Reg.SWT_DEGRADE_CNT_COUNT).mark Reg.SWT_EVENT_DEGRADE else s0
                exec (.cellReceive slot port c e) s = .next (s1.terminate port from_ (wordKind w == 1) (wordKind w == 0) c e))))
       ∧ (∀ fixed paid : Bool,
          let t1 := s.bump (Reg.OPT_PORT_FEC_CORR_CNT_COUNT port) (correctedWords bad)
          let t := if ok then t1 else t1.bump (Reg.OPT_PORT_FEC_UNCORR_CNT_COUNT port)
          let a := (sget (fun _ => {}) t.fab.rxLink (port * 8192 + from_)).accept n
          let full := 16 ≤ t.bufCount port fixed
          let held := t.on (Reg.OPT_PORT_STATUS_RX_HOLD port)
          (ok = true → c.type = 0 → s.terminate port from_ fixed paid c e = t)
          ∧ (¬ (ok = true ∧ c.type = 0) →
             (held = true → s.terminate port from_ fixed paid c e = (t.nak 3 port from_ n).creditBack t port paid)
             ∧ (held = false → ok = false → s.terminate port from_ fixed paid c e = (t.nak 2 port from_ n).creditBack t port paid)
             ∧ (held = false → ok = true → a.2 = true → s.terminate port from_ fixed paid c e = t.creditBack t port paid)
             ∧ (held = false → ok = true → a.2 = false → full → s.terminate port from_ fixed paid c e = (t.nak 2 port from_ n).creditBack t port paid)
             ∧ (held = false → ok = true → a.2 = false → ¬ full →
                let t2 := (t.modFab fun f => { f with rxLink := sset (fun _ => {}) f.rxLink (port * 8192 + from_) a.1 }).modPort port
                  fun x => { x with rxHeads := noteHead x.rxHeads c }
                s.terminate port from_ fixed paid c e = (t2.cellIn port fixed paid c e.parityOk).creditBack t2 port paid))))
    ∧ (s.serviceUp port = true → exec (.linkAck port m) s = .next
        (s.each ((s.flights m.port.toNat m.src.toNat).filter fun q => (m.lseq.toNat + 65536 - q.lseq.getD 0) % 65536 < 32768) fun t q => t.cellAcked q))
    ∧ (∀ q, s.serviceUp port = true → s.answered m.port.toNat m.src.toNat m.lseq.toNat = some q → exec (.linkNak port m) s = .next (s.refuseCell q true))
    ∧ (∀ q, let t := s.modPort m.port.toNat fun x => { x with heldBy := if x.heldBy.contains m.src.toNat then x.heldBy else m.src.toNat :: x.heldBy }
        s.serviceUp port = true → t.answered m.port.toNat m.src.toNat m.lseq.toNat = some q → exec (.holdRefusal port m) s = .next (t.refuseCell q false))
    ∧ (s.serviceUp port = true → exec (.resume port m) s = .next (s.modPort m.port.toNat fun x => { x with heldBy := x.heldBy.filter (· != m.src.toNat) }))
    ∧ (s.serviceUp port = true → exec (.credit port m) s = .next (s.modPort m.port.toNat fun x => { x with credits := min 16 (x.credits + m.count.toNat) }))
    ∧ (s.serviceUp port = false → exec (.linkAck port m) s = .next s ∧ exec (.linkNak port m) s = .next s ∧ exec (.holdRefusal port m) s = .next s
        ∧ exec (.resume port m) s = .next s ∧ exec (.credit port m) s = .next s)
    ∧ (∀ q f, s.answered port term.toNat lseq.toNat = some q → q.flight = some f → f.2.2 + 16 ≤ s.now →
        exec (.cellInflightTimeout port term lseq) s = .next (s.refuseCell q true))
    ∧ (∀ x, s.xferOf m.xfer.toNat = some x → m.gen.toNat = s.gen x.owner.ctx → x.dead = false → exec (.delivered m) s = .next
        (((s.modFab fun f => { f with xfers := f.xfers.map fun y => if y == x then
          { y with delivered := true, landed := List.range y.lens.length } else y }).countUnits x.owner).checkXfers x.owner))
    ∧ (∀ x, s.xferOf m.xfer.toNat = some x → m.gen.toNat = s.gen x.owner.ctx → x.dead = false →
        let r := s.refusalOf m.code.toNat x.dest (s.get (Reg.SYN_CTX_EPOCH_EPOCH x.owner.ctx))
        (∀ o, x.owner.engine = false → s.op? x.owner.ring x.owner.idx = some o →
          exec (.cellRefusal m) s = .next (r.2.faultOp o m.code.toNat (Op.unit s o).1 (Op.unit s o).2 r.1))
        ∧ (x.owner.engine = true → exec (.cellRefusal m) s = .next (r.2.engineFails x.owner m.code.toNat r.1)))
    ∧ (∀ x, s.xferOf m.xfer.toNat = some x → m.gen.toNat = s.gen x.owner.ctx → x.dead = true →
        exec (.delivered m) s = .next (s.modFab fun f => { f with xfers := f.xfers.filter (· != x) })
        ∧ exec (.cellRefusal m) s = .next (s.modFab fun f => { f with xfers := f.xfers.filter (· != x) }))
    ∧ (∀ x, s.xferOf m.xfer.toNat = some x → m.gen.toNat ≠ s.gen x.owner.ctx →
        exec (.delivered m) s = .next (s.staleReport.dropDead x) ∧ exec (.cellRefusal m) s = .next (s.staleReport.dropDead x))
    ∧ (∀ x t, s.xferOf xfer.toNat = some x → x.dead = false → x.delivered = false → x.unacked = 0 → x.lastAck = some t → t + 16 ≤ s.now →
        (∀ o, x.owner.engine = false → s.op? x.owner.ring x.owner.idx = some o → exec (.deliveryTimeout xfer) s = .next
          (s.faultOp o fLinkDown (Op.unit s o).1 (Op.unit s o).2 [(1, routePort (s.route x.dest)), (1, 5), (2, x.dest)]))
        ∧ (x.owner.engine = true → exec (.deliveryTimeout xfer) s = .next
          (s.engineFails x.owner fLinkDown [(1, routePort (s.route x.dest)), (1, engineCause x.owner 5), (2, x.dest)])))
    ∧ (∀ ctx code d, s.engineFails (restoreEngine ctx) code d = s.restoreFails ctx code d ∧ s.engineFails (loadEngine ctx) code d = s.daybreakFails ctx code d
        ∧ (s.ckptState = 1 → s.engineFails (ckptEngine ctx) code d = s.ckptFails code d)
        ∧ (s.ckptState = 4 → s.engineFails (ckptEngine ctx) code d = s.chainFails s.ckp.restore.lastSeq code d))
    ∧ (∀ r, (s.fab.reads.find? fun r => r.src == src.toNat && r.xfer == xfer.toNat) = some r →
        let t := (s.modFab fun f => { f with reads := f.reads.filter fun q => !(q.src == src.toNat && q.xfer == xfer.toNat) }).engineOn
        let pas := r.vas.filterMap fun a => t.xlate r.ctx a false
        let u := (t.spWaits pas).meetErrs (some r.ctx) (fun pa => pas.contains pa || (t.blockMode r.ctx && (blocksOf pas).contains (pa / 4096 * 4096))) me
        routeValid (s.route r.src) = true → (∀ a ∈ r.vas, (t.xlate r.ctx a false).isSome) →
        (t.on Reg.SWT_SLICE_ENC = true ∨ ∀ a ∈ r.vas, t.sealedVa r.ctx a = false) → u.readErr r.ctx pas me = .none →
        exec (.readReqServe src xfer me) s = .next (((u.readAnswer r pas).fillTlb r.ctx r.vas).engineOff))

/-- O46: the service lane and the ports: a service message that fails its CRC is asked for again, and one in order advances the
hop's sequence and is passed to its module; a duplicate is dropped and a gap in the sequence asked for again; a beacon goes
out every 64 frames, and the direct neighbour's names the peer; training and the delay
measurement end after 16 frames; a neighbour silent for 64 frames is reported once; the quiet limit raises LINK_DOWN; a
port's gap begins at its frame and ends after its length; and the listener of a bypass keeps the frame count (R254–R256,
R267–R269, R274, R293, R389). -/
def Obligations.ServiceLaneAndPorts : Prop :=
  ∀ (port : Fin 16) (bytes : List Byte) (route : Option (BitVec 13 × BitVec 13)) (b : Beacon) (k : Fin 8) (frame : BitVec 64) (s : State),
    let x := s.port port
    (let h := svcHeader bytes
     let body := svcBodyOf bytes
     let way := (svcRoute h.cls body).or (route.map fun r => (r.1.toNat, r.2.toNat))
     let ahead := (h.hseq + 4096 - x.hopRecv) % 4096
     let u := s.modPort port fun y => { y with silent := 0 }
     (s.serviceUp port = false → exec (.serviceMessageReceive port bytes route) s = .next s)
     ∧ (svcInverted bytes = true → exec (.serviceMessageReceive port bytes route) s = .next s)
     ∧ (s.serviceUp port = true → svcInverted bytes = false → svcOk bytes = false →
        exec (.serviceMessageReceive port bytes route) s = .next ((s.svcIdle port true).invertSvc port h body way))
     ∧ (s.serviceUp port = true → svcInverted bytes = false → svcOk bytes = true → h.nak = false →
        (h.cls = 0 → (ahead = 0 ∨ 2048 ≤ ahead) → exec (.serviceMessageReceive port bytes route) s = .next u)
        ∧ (h.cls ≠ 0 → ahead = 1 → exec (.serviceMessageReceive port bytes route) s =
            .next (((u.modPort port fun y => { y with hopRecv := h.hseq }).routeSvc port h body way).svcIdle port false))
        ∧ (h.cls ≠ 0 → (ahead = 0 ∨ 2048 ≤ ahead) → exec (.serviceMessageReceive port bytes route) s = .next u)
        ∧ (ahead ≠ 0 → ahead < 2048 → (h.cls = 0 ∨ ahead ≠ 1) → exec (.serviceMessageReceive port bytes route) s = .next (u.svcIdle port true)))
     ∧ (s.serviceUp port = true → svcInverted bytes = false → svcOk bytes = true → h.nak = true → h.cls = 0 → (ahead = 0 ∨ 2048 ≤ ahead) →
        exec (.serviceMessageReceive port bytes route) s = .next (u.svcResend port h.hack))
     ∧ (∀ a, unknownSvc h body = false → s.routeSvc port h body (some (a, s.moduleId)) = s)
     ∧ (∀ a d, unknownSvc h body = false → d ≠ s.moduleId → s.routeSvc port h body (some (a, d)) = s.forwardSvc port a d (.passed h.cls body) h.hops)
     ∧ (unknownSvc h body = true → s.routeSvc port h body way = s.modFab fun f => { f with unknownClass := f.unknownClass + 1 })
     ∧ (7 < h.cls → unknownSvc h body = true))
    ∧ (s.serviceUp port = true → x.beaconAt + 64 ≤ s.now → exec (.beaconSend port) s = .next (s.sendBeacon port))
    ∧ ((s.now < x.beaconAt + 64 ∨ s.serviceUp port = false) → exec (.beaconSend port) s = .next s)
    ∧ (s.serviceUp port = false → exec (.beaconReceive port b) s = .next s)
    ∧ (s.serviceUp port = true → b.hops = 0 → x.fresh = false → s.peer port = b.src.toNat → exec (.beaconReceive port b) s = .next
        (let t := (s.mark (Reg.OPT_PORT_STATUS_PEER_VALID port)).modPort port fun y =>
           let z : SourceMap := { sget (fun _ => {}) y.sources b.src.toNat with
             txSpare := b.txSpare.toNat, sources := b.sources.map (·.toNat), port := b.port.toNat,
             slice := b.slice.toNat, bypassOpen := b.bypassOpen }
           { y with silent := 0, sources := sset (fun _ => {}) y.sources b.src.toNat z }
         t.each ((t.port port).hold.filter fun lam => lam ≤ 16 && !(t.rxWaves port).contains lam) (fun u lam => u.holdOff port lam) |>.refreshPort port))
    ∧ (∀ t0, x.trainAt = some t0 → t0 + 16 ≤ s.now → s.on (Reg.OPT_PORT_STATUS_PEER_VALID port) = true → exec (.portTrainingDone port) s = .next
        ((s.modPort port fun y => { y with trained := true, trainAt := none }).refreshPort port))
    ∧ (∀ t0, x.measureAt = some t0 → t0 + 16 ≤ s.now → (s.nbr port).measured = true → exec (.delayMeasureDone port) s = .next
        (let r := s.fresh
         let d := (((s.nbr port).delay2 + (r.1 % 2 : Nat)) / 2).toNat % 2 ^ 24
         (((r.2.put (Reg.SWT_PORT_DELAY_DELAY port) d).mark (Reg.SWT_PORT_DELAY_VALID port)).put (Reg.SWT_PORT_DELAY_EXPRESS_OK port) (b2n (expressOk d))).modPort
           port fun y => { y with measureAt := none }))
    ∧ (x.wasUp = true → x.silent = 64 → exec (.peerSilent port) s = .next
        (((s.mark Reg.RPL_REPLAY_EVENT_PEER_SILENT).sendTo s.moduleId (Config.sliceManager % 8192) (.short .peerSilent [s.peer port])).modPort port
          fun y => { y with silent := 65 }))
    ∧ (x.silent ≠ 64 → exec (.peerSilent port) s = .next s)
    ∧ ((x.quiet ≠ [] ∨ x.hold ≠ []) → s.get Reg.OPT_QUIET_LIMIT_FRAMES ≤ x.quietTicks → s.on (Reg.OPT_PORT_STATUS_LINK_DOWN port) = false →
        exec (.quietLimitExpire port) s = .next (s.linkDown port 2))
    ∧ (s.get (Reg.OPT_PORT_GAP_LEN_FRAMES port) ≠ 0 → s.on (Reg.OPT_PORT_STATUS_GAP port) = false →
        (s.atLow32 (s.get (Reg.OPT_PORT_GAP_START_START port)) = true → exec (.portGapStart port) s = .next
          (((s.mark (Reg.OPT_PORT_STATUS_GAP port)).modPort port fun y => { y with gapEnd := some (s.now + s.get (Reg.OPT_PORT_GAP_LEN_FRAMES port)) }).refreshPort port))
        ∧ (s.atLow32 (s.get (Reg.OPT_PORT_GAP_START_START port)) = false → exec (.portGapStart port) s = .next s))
    ∧ (∀ v : Nat, v < 2 ^ 32 → (s.atLow32 v = true ↔ ∃ f, s.time.base < f ∧ f ≤ s.time.top ∧ f % 2 ^ 32 = v))
    ∧ (∀ t, x.gapEnd = some t → t ≤ s.now → exec (.portGapEnd port) s = .next
        (((s.put (Reg.OPT_PORT_STATUS_GAP port) 0).modPort port fun y => { y with gapEnd := none }).refreshPort port))
    ∧ (s.pins.v12 = true → exec (.listenerMessage k frame) s = .next
        ((s.mark (Reg.OPT_BYP_STATUS_LISTEN_OK k)).modByp k fun y => { y with listener := some (frame.toNat, s.now) }))

/-- O47: the bypass switches, schedules, routes and link keys: a switch closes when Idfort or firmware commands it; an armed opening
moves at its frame, or is deferred while the rate limit forbids it; a motion ends in its position; a loaded image that passes
its checks fills its bank, and a failing one none; the pending bank becomes active at its frame and its PHASE is done; a
route entry written counts from the next tick; after LINK_DOWN the alternative routes carry the port's waiting cells; the key
slot changes at its frame and the old key is erased 64 frames later (R265–R267, R277, R278, R285–R287, R290, R302). -/
def Obligations.SwitchingCommands : Prop :=
  ∀ (k : Fin 8) (port : Fin 16) (v : Word) (index : BitVec 13) (s : State),
    let pos := s.get (Reg.OPT_BYP_STATUS_POSITION k)
    exec (.bypassCloseCommand .idfort k) s = .next (s.closeBypass k) ∧ exec (.bypassCloseCommand .firmware k) s = .next (s.closeBypass k)
    ∧ (∀ p : Party, p.fw = true → s.acts p → exec (.bypassArm p k v) s = .next (s.writeBypCtrl k v.toNat)
        ∧ exec (.bypassCloseCommand p k) s = .next (s.closeBypass k))
    ∧ (∀ p : Party, p.fw = false → exec (.bypassArm p k v) s = .next (s.mark Reg.SUB_EVENT_HOST_DENIED))
    ∧ (s.on (Reg.OPT_BYP_CTRL_ARM k) = true →
        (if s.on Reg.FTB_STATUS_VALID then s.atLow32 (s.get (Reg.OPT_BYP_FRAME_FRAME k)) = true
         else (s.motionClock k).map (· % 2 ^ 32) = some (s.get (Reg.OPT_BYP_FRAME_FRAME k))) →
        (s.on (Reg.OPT_BYP_CTRL_TARGET k) = false → exec (.bypassMotionStart k) s = .next (s.closeBypass k))
        ∧ (s.on (Reg.OPT_BYP_CTRL_TARGET k) = true → s.bypassHeld = true → pos ≠ bypIsOpen → pos ≠ bypOpening → s.mayOpen k = true →
            exec (.bypassMotionStart k) s = .next (((s.put (Reg.OPT_BYP_CTRL_ARM k) 0).put (Reg.OPT_BYP_STATUS_DEFERRED k) 0).move k bypOpening))
        ∧ (s.on (Reg.OPT_BYP_CTRL_TARGET k) = true → s.bypassHeld = true → pos ≠ bypIsOpen → pos ≠ bypOpening → s.mayOpen k = false →
            s.on (Reg.OPT_BYP_STATUS_DEFERRED k) = false →
            exec (.bypassMotionStart k) s = .next ((s.mark (Reg.OPT_BYP_STATUS_DEFERRED k)).mark Reg.OPT_EVENT_BYPASS_DEFER)))
    ∧ (pos = bypOpening → exec (.bypassMotionEnd k) s = .next
        (let t := s.put (Reg.OPT_BYP_STATUS_POSITION k) bypIsOpen
         ([2 * k.val, 2 * k.val + 1].filter t.serviceUp).foldl State.sendBeacon t))
    ∧ (pos = bypClosing → exec (.bypassMotionEnd k) s = .next (s.put (Reg.OPT_BYP_STATUS_POSITION k) bypClosed))
    ∧ (∀ b, s.fab.load = some (b, true) → exec .schedLoadDone s = .next
        ((((s.put Reg.SWT_SCHED_LOAD_CTRL_BUSY 0).put Reg.SWT_SCHED_LOAD_CTRL_GO 0).modFab fun f => { f with load := none }).loadFails 1 0 0))
    ∧ (∀ b, s.fab.load = some (b, false) →
        let t := ((s.put Reg.SWT_SCHED_LOAD_CTRL_BUSY 0).put Reg.SWT_SCHED_LOAD_CTRL_GO 0).modFab fun f => { f with load := none }
        (∀ q, t.imageError = some q → exec .schedLoadDone s = .next (t.loadFails q.1 q.2.1 q.2.2))
        ∧ (t.imageError = none → exec .schedLoadDone s = .next ((t.mark (loadedFld b)).modFab fun f =>
            let put (m : Sparse Nat) (n : Nat) : Sparse Nat := sset (fun _ => 0) m (2048 * b + n) (t.natAt (t.imageBase + 4 * n) 4)
            { f with sched := (List.range 2048).foldl put f.sched })))
    ∧ (∀ b f n, s.fab.swap = some (b, f, n) → f ≤ s.frame → s.time.pos ≤ 5 →
        let t := ((((((s.turn 5).put Reg.SWT_SCHED_BANK_ACTIVE b).put Reg.SWT_STATUS_ACTIVE_BANK b).put Reg.SWT_STATUS_SWAP_PENDING 0).mark
          Reg.SWT_EVENT_SWAP_DONE).modFab fun x => { x with swap := none }).moveFlows b
        (∀ o, t.opNo? n = some o → exec .scheduleSwap s = .next (t.finish o stDone 0)) ∧ (t.opNo? n = none → exec .scheduleSwap s = .next t))
    ∧ (∀ b f n, s.fab.swap = some (b, f, n) → s.frame < f → exec .scheduleSwap s = .next s)
    ∧ (let due := sget (fun _ => 0) s.fab.routeDue index.toNat
       let w := sget (fun _ => 0) s.fab.routeNew index.toNat
       due ≠ 0 → due ≤ s.now → routeValid w = true → exec (.routeEntryEffect index) s = .next (s.modFab fun f =>
        { f with routes := sset (fun _ => 0) f.routes index.toNat w, routeDue := sset (fun _ => 0) f.routeDue index.toNat 0 }))
    ∧ (∀ t, (s.port port).rerouted = false → (s.port port).downAt = some t → t < s.now → s.on Reg.SWT_CTRL_REROUTE = true →
        s.on (Reg.OPT_PORT_STATUS_LINK_DOWN port) = true → ∃ u : State, exec (.reroute port) s = .next u
          ∧ u.regs = (s.mark Reg.SWT_EVENT_REROUTE).regs ∧ u.fab.cells.length = s.fab.cells.length
          ∧ ∀ (n : Nat) (q : QCell), s.fab.cells[n]? = some q → q.flight = none → q.queue = .own port.val →
              routePort (s.route q.cell.dest.toNat) = port.val → routeAltOk (s.route q.cell.dest.toNat) = true →
              u.fab.cells[n]? = some { q with queue := .own (routeAlt (s.route q.cell.dest.toNat)) })
    ∧ (∀ f, s.fab.keyArm = some f → f ≤ s.frame → exec .keySwitch s = .next
        ((s.put Reg.SWT_STATUS_KEY_SLOT (1 - s.keySlot)).modFab fun x => { x with keyArm := none, keyErase := some (s.keySlot, s.now + 64) }))
    ∧ (∀ j t, s.fab.keyErase = some (j, t) → t ≤ s.now → exec .oldKeyErase s = .next (((s.put (keyFld j) 0).modFab fun x => { x with keyErase := none }).dropLinkKey j))

/-! ### Firmware's registers, steps, replay, checkpoint -/

/-- O48: the commands of firmware's own registers do nothing for another party but set HOST_DENIED (R166), and every other
field, counter and byte keeps its value. -/
def Obligations.OtherPartiesAreDenied : Prop :=
  ∀ (p : Party) (c : Fin 64) (b : Fin 8) (cart : Fin 22) (v : Word) (ans : Option PartnerState) (st : Standing) (s : State), p.fw = false →
    ∀ i ∈ [Instr.contextActivate p c v, .duskRequest p c v, .synObjValHiWrite p v, .synBarRearm p v, .synXlatInval p v, .memXlatInval p v,
      .memRepairGo p v, .cartridgeRelease p cart v, .bypassArm p b v, .schedLoad p v, .routeDataWrite p v, .keySwitchArm p v,
      .stepTrackingEnable p v, .stepArm p v, .stepCancel p v, .replayDiscardWrite p v, .replayArriveWrite p v, .setOpen p v, .setSeal p v,
      .clusterFence p v, .daybreakLoad p v ans, .ckptArm p v, .ckptCancel p v, .ckptRestore p v, .ckptTgtEnable p v, .digestFaultRaise p v st,
      .healthScoreWrite p v, .hrcFwKick p, .coreResetRequest p v, .clusterResetRequest p v, .moduleRecoveryRequest p v, .calPortRings p v,
      .calCartridge p v],
      exec i s = .next (s.mark Reg.SUB_EVENT_HOST_DENIED)

/-- O49: what firmware's writes of contexts, objects, bypasses and the fabric do: a FREE context takes its VCID and with ACTIVATE is
ACTIVE; DUSK on an ACTIVE one asks for its teardown at the next tick, ahead of one announced for a later frame; the high word gives the selected counter its 64-bit
value and wakes its waiters; a rearm empties the selected barrier; an invalidation is BUSY until it is done; an image load
is BUSY and leaves its bank not loaded, and one asked for while BUSY only keeps its BANK; a route entry counts from the next tick; a key switch is armed for a frame to come;
a control processor's kick restarts its own watchdog, and firmware's every one; an armed bypass keeps its target (R166, R167, R210, R228, R230, R267, R277, R287, R302, R421, R441). -/
def Obligations.FirmwareWrites : Prop :=
  ∀ (c : Fin 64) (b : Fin 8) (v : Word) (s : State),
    let obj := s.get Reg.SYN_OBJ_SEL_INDEX
    (s.get (Reg.SUB_CTX_CTRL_STATE c) = 0 → v.getLsbD 2 = true → exec (.contextActivate .firmware c v) s = .next
      ((s.put (Reg.SUB_CTX_CTRL_VCID c) (v.toNat / 65536 % 65536)).put (Reg.SUB_CTX_CTRL_STATE c) 1).refreshPower)
    ∧ (s.get (Reg.SUB_CTX_CTRL_STATE c) = 1 → v.getLsbD 3 = true → ((s.ctx c).duskReq = none ∨ ∃ d f, (s.ctx c).duskReq = some d ∧ d.frame = some f ∧ f ≠ s.frame + 1) →
      exec (.duskRequest .firmware c v) s = .next (s.modCtx c fun x => { x with duskReq := some { tick := s.now + 1 } }))
    ∧ ((s.obj obj).barrier = false → s.canon = true → exec (.synObjValHiWrite .firmware v) s = .next
      ((s.put Reg.SYN_OBJ_VAL_HI_VAL_HI v.toNat).setCounter obj (s.get Reg.SYN_OBJ_VAL_LO_VAL_LO + v.toNat * 2 ^ 32)))
    ∧ ((s.obj obj).barrier = true → v.getLsbD 0 = true → exec (.synBarRearm .firmware v) s = .next (s.rearm obj false).retrySync)
    ∧ (v.getLsbD 7 = true → s.on Reg.SYN_XLAT_INVAL_BUSY = false → exec (.synXlatInval .firmware v) s = .next
      { s.mark Reg.SYN_XLAT_INVAL_BUSY with syn := { s.syn with inval := some (if v.getLsbD 6 then none else some (v.toNat % 64)) } })
    ∧ (∃ t, exec .synXlatDone s = .next t ∧ t.regs = (s.put Reg.SYN_XLAT_INVAL_BUSY 0).regs ∧ t.syn.inval = none ∧ t.mem = s.mem
        ∧ (∀ k, s.syn.inval = some (some k) → t.syn.xlt = s.syn.xlt.filter fun e => e.1 != k)
        ∧ (s.syn.inval = some none → t.syn.xlt = []))
    ∧ (s.on Reg.SWT_SCHED_LOAD_CTRL_BUSY = false → v.getLsbD 1 = true → s.canon = true → ∃ t, exec (.schedLoad .firmware v) s = .next t
        ∧ t.on Reg.SWT_SCHED_LOAD_CTRL_BUSY = true ∧ t.on (loadedFld (v.toNat % 2)) = false ∧ t.on Reg.SWT_SCHED_LOAD_CTRL_GO = true ∧ t.mem = s.mem ∧ (t.fab.load.map (·.1)) = some (v.toNat % 2))
    ∧ (s.on Reg.SWT_SCHED_LOAD_CTRL_BUSY = true → exec (.schedLoad .firmware v) s = .next (s.put Reg.SWT_SCHED_LOAD_CTRL_BANK (v.toNat % 2)))
    ∧ (let m := s.get Reg.SWT_ROUTE_SEL_INDEX
       exec (.routeDataWrite .firmware v) s = .next (s.modFab fun f => { f with
        routeNew := sset (fun _ => 0) f.routeNew m v.toNat, routeDue := sset (fun _ => 0) f.routeDue m (s.now + 1) }))
    ∧ (s.canon = true → let f := s.get Reg.SWT_KEY_SWITCH_LO_FRAME_LO + v.toNat * 2 ^ 32
       exec (.keySwitchArm .firmware v) s = .next ((s.put Reg.SWT_KEY_SWITCH_HI_FRAME_HI v.toNat).modFab fun x =>
        { x with keyArm := if f ≤ s.frame then none else some f }))
    ∧ exec (.hrcFwKick .firmware) s = .next (s.modHrc fun h => { h with fwTicks := [] })
    ∧ (∀ k : Fin 8, s.acts (.cp k) → exec (.hrcFwKick (.cp k)) s = .next (s.modHrc fun h => { h with fwTicks := sset (fun _ => 0) h.fwTicks k 0 }))
    ∧ (v.getLsbD 1 = true → exec (.bypassArm .firmware b v) s = .next
        ((s.put (Reg.OPT_BYP_CTRL_TARGET b) (v.toNat % 2)).mark (Reg.OPT_BYP_CTRL_ARM b)))

/-- O50: the step's control: tracking is set and cleared while no step is open, an arm is marked, a cancel clears it; the
armed frame opens the next step's first attempt, or finds a step open and opens nothing; a discard asked for is done at
its tick, an announced one only where it names the open attempt (with no step open it disarms what is armed and makes the context
READY for the attempt it asks for), and an opening or discard whose turn in the tick is past
is not; 32 frames later the step's objects return to their bases and the MIRROR pages are asked of the partner, each at its
VA plus the mirror offset; with all of them read the restore makes the context READY (R306–R310, R336, R371–R377, R382). -/
def Obligations.StepControl : Prop :=
  ∀ (ctx : Fin 64) (v : Word) (s : State),
    let c := ctx.val
    let k := s.stepSel
    (exec (.stepTrackingEnable .firmware v) s = .next (s.writeStepCtrl k v.toNat) ∧ exec (.stepArm .firmware v) s = .next (s.writeStepCtrl k v.toNat)
      ∧ exec (.stepCancel .firmware v) s = .next (s.writeStepCtrl k v.toNat))
    ∧ (s.canon = true → s.stepOpen k = false → (s.writeStepCtrl k v.toNat).get (Reg.RPL_STEP_CTRL_ENABLE k) = v.toNat % 2)
    ∧ (s.canon = true → s.stepOpen k = true → (s.writeStepCtrl k v.toNat).get (Reg.RPL_STEP_CTRL_ENABLE k) = s.get (Reg.RPL_STEP_CTRL_ENABLE k))
    ∧ (s.canon = true → v.getLsbD 3 = true → (s.writeStepCtrl k v.toNat).get (Reg.RPL_STEP_CTRL_ARM k) = 0)
    ∧ (s.canon = true → v.getLsbD 2 = true → v.getLsbD 3 = false → (s.writeStepCtrl k v.toNat).get (Reg.RPL_STEP_CTRL_ARM k) = 1)
    ∧ ((s.ctx c).replayArm = none → s.on (Reg.RPL_STEP_CTRL_ARM c) = true → (s.ctx c).armTick < s.now → s.openFrame c ≤ s.frame →
        (s.ctx c).armLate = false → s.time.pos ≤ 7 → s.stepState c = 0 → s.restoreHolds c = false → s.on (Reg.RPL_STEP_CTRL_ENABLE c) = true →
        exec (.stepOpen ctx) s = .next
          ((s.turn 7).applyFence.openAttempt c (s.get64 (Reg.RPL_STEP_NEXT_LO_STEP c) (Reg.RPL_STEP_NEXT_HI_STEP c)) 0 (s.openFrame c)))
    ∧ ((s.ctx c).replayArm = none → s.on (Reg.RPL_STEP_CTRL_ARM c) = true → (s.ctx c).armTick < s.now → s.openFrame c ≤ s.frame →
        s.time.pos ≤ 7 → s.stepState c ≠ 0 → exec (.stepOpen ctx) s = .next ((s.disarm c).mark Reg.RPL_STEP_EVENT_OPEN_MISSED))
    ∧ (∀ d, (s.ctx c).discard = some d → s.discardDue d = true → s.stepOpen c = true → d.which = none → s.time.pos ≤ 7 →
        exec (.attemptDiscard ctx) s = .next ((((s.turn 7).modCtx c fun x => { x with discard := none }).discardAttempt c d.hold).retrySync))
    ∧ (∀ d, (s.ctx c).discard = none → (s.ctx c).announced.find? s.discardDue = some d → s.time.pos ≤ 7 →
        let t := (s.turn 7).modCtx c fun x => { x with announced := x.announced.erase d }
        (s.stepOpen c = true → d.which = some (s.stepNum c, s.get (Reg.RPL_STEP_ATTEMPT_ATTEMPT c)) →
          exec (.attemptDiscard ctx) s = .next ((t.discardAttempt c d.hold).retrySync))
        ∧ (s.stepOpen c = true → d.which.isSome = true → d.which ≠ some (s.stepNum c, s.get (Reg.RPL_STEP_ATTEMPT_ATTEMPT c)) →
          exec (.attemptDiscard ctx) s = .next t)
        ∧ (s.stepOpen c = false → t.discarding c = false → exec (.attemptDiscard ctx) s = .next
          ((((t.disarm c).modCtx c fun x => { x with replayArm := none, betweenSteps := true }).put
            (Reg.RPL_REPLAY_STATUS_HOLD c) (b2n d.hold)).replayReady c)))
    ∧ ((∀ d, (s.ctx c).discard = some d → s.discardDue d = false) → (∀ d ∈ (s.ctx c).announced, s.discardDue d = false) →
        exec (.attemptDiscard ctx) s = .next s)
    ∧ (7 < s.time.pos → exec (.stepOpen ctx) s = .next s ∧ exec (.attemptDiscard ctx) s = .next s)
    ∧ (∀ t0, (s.ctx c).drainTick = some t0 → t0 + 32 ≤ s.now → s.get (Reg.RPL_REPLAY_STATUS_STATE c) = 1 →
        (s.restoreSet c = [] ∨ s.protPoison = none) →
        exec (.discardDrainEnd ctx) s = .next (((s.put (Reg.RPL_REPLAY_STATUS_STATE c) 2).each (s.ctx c).bases fun t b => t.restoreBase b).readPages
          (restoreEngine c) (s.mirrorSet c)))
    ∧ (∀ va, let m := s.get Reg.RPL_MIR_PARTNER_MODULE
        let at_ := va + (s.get Reg.RPL_MIR_OFFSET_LO_OFF_LO * 65536 + s.get Reg.RPL_MIR_OFFSET_HI_OFF_HI * 2 ^ 32)
        routeValid (s.route m) = true → ∃ body, (s.readPages (restoreEngine c) [va]).fab.cells = s.fab.cells ++
          [{ cell := s.newCell c 2 2 m s.fab.nextXfer 0 at_ 0 body, queue := s.ownQueue m, owner := some (restoreEngine c) }])
    ∧ (∀ t, s.get (Reg.RPL_REPLAY_STATUS_STATE c) = 2 → s.on (Reg.RPL_REPLAY_STATUS_RESTORE_FAIL c) = false → s.ringsDrained c = true →
        s.loading c = false → s.xfersOf (restoreEngine c) = [] → s.shadowPoison c (s.restoreSet c) = none →
        (s.restoreSet c = [] ∨ s.protPoison = none) →
        s.touchPages (.engine c) (((s.restoreSet c).filter fun va => s.sourceOf va != some 0).filterMap fun va => s.pageOf c va) = .go t →
        exec (.restoreComplete ctx) s = .next ((t.restorePages c).restoreDone c))
    ∧ (s.xfersOf (restoreEngine c) ≠ [] → exec (.restoreComplete ctx) s = .next s)

/-- O51: the replay's announcements and the input sets: firmware's discard is done at the next tick, and a cleared hold lets a READY
context arrive; a replay open for a frame to come is armed, a past one is late; a discard or a dusk announced for a frame to
come waits for it; a set opens in the ring, or is refused with no page or descriptor free; a seal without a guest copy seals
the newest set being filled at once, one asked for while a seal runs does nothing, and one with a guest copy sends the set's pages and then its slot data to the
partner and is sealed when both are there; an identity request is answered (R304, R367, R368, R371, R379, R380, R395, R442). -/
def Obligations.AnnouncementsAndSets : Prop :=
  ∀ (m : Announce) (v : Word) (src dest : BitVec 13) (c : Nat) (s : State),
    let k := s.stepSel
    (v.getLsbD 0 = true → v.getLsbD 1 = false → s.stepOpen k = true → exec (.replayDiscardWrite .firmware v) s = .next (s.discardNext k))
    ∧ (v.getLsbD 0 = false → v.getLsbD 1 = true → exec (.replayArriveWrite .firmware v) s = .next (s.clearHold k))
    ∧ (s.announced m = some c → s.get (Reg.RPL_REPLAY_STATUS_STATE c) = 3 → s.frame < m.frame.toNat → exec (.replayOpen m) s = .next
        ((s.mark (Reg.RPL_STEP_STATUS_ARMED c)).modCtx c fun x => { x with replayArm := some (m.step.toNat, m.attempt.toNat, m.frame.toNat) }))
    ∧ (m.frame.toNat ≤ s.frame →
        let t := s.mark Reg.SWT_EVENT_LATE_ANNOUNCE
        (s.announced m = some c → s.get (Reg.RPL_REPLAY_STATUS_STATE c) = 3 → exec (.replayOpen m) s = .next (t.mark Reg.RPL_REPLAY_EVENT_LATE))
        ∧ (s.announced m = some c → s.get (Reg.RPL_REPLAY_STATUS_STATE c) ≠ 3 → exec (.replayOpen m) s = .next t)
        ∧ (s.announced m = none → exec (.replayOpen m) s = .next t)
        ∧ exec (.discardAnnounce m) s = .next t ∧ exec (.duskAnnounce m) s = .next t)
    ∧ (s.announced m = some c → s.frame < m.frame.toNat → exec (.discardAnnounce m) s = .next
        (s.modCtx c fun x => { x with
          announced := x.announced ++ [{ frame := some m.frame.toNat, hold := m.hold, which := some (m.step.toNat, m.attempt.toNat) }] }))
    ∧ (s.announced m = some c → s.frame < m.frame.toNat → exec (.duskAnnounce m) s = .next
        (s.modCtx c fun x => { x with duskReq := x.duskReq.or (some { frame := some m.frame.toNat }) }))
    ∧ (s.announced m = some c → exec (.arriveAnnounce m) s = .next (s.clearHold c))
    ∧ (v.getLsbD 22 = true → v.getLsbD 23 = false → exec (.setOpen .firmware v) s = .next
        ((s.put Reg.RPL_SET_CTRL_PAGES (v.toNat % 2 ^ 22)).openSet (v.toNat % 2 ^ 22)))
    ∧ (∀ n, s.rpl.sets.length < 16 → n ≤ s.ringFree → (s.openSet n).rpl.sets
        = s.rpl.sets ++ [{ step := s.get Reg.RPL_SET_STEP_STEP, first := s.ringTail, pages := n, state := 1 }])
    ∧ (∀ n, 16 ≤ s.rpl.sets.length ∨ s.ringFree < n → s.openSet n = (s.mark Reg.RPL_SET_CTRL_REFUSED).mark Reg.RPL_REPLAY_EVENT_SET_REFUSED)
    ∧ (v.getLsbD 22 = false → v.getLsbD 23 = true → exec (.setSeal .firmware v) s = .next
        ((s.put Reg.RPL_SET_CTRL_PAGES (v.toNat % 2 ^ 22)).sealSet))
    ∧ (∀ l x r, s.rpl.sets = l ++ x :: r → x.state = 1 → (∀ y ∈ r, y.state ≠ 1) → s.on Reg.RPL_SET_CTRL_SEAL = false →
        s.on Reg.RPL_RING_CFG_GUEST = false → s.sealSet.rpl.sets = l ++ { x with state := 3 } :: r)
    ∧ (s.on Reg.RPL_SET_CTRL_SEAL = true → s.sealSet = s)
    ∧ ((s.rpl.sets.any fun (t : InSet) => t.state == 2) = true → s.rpl.slotDue = false → (∀ x ∈ s.fab.xfers, x.owner.engine = true → x.owner.idx ≠ 3) →
        let t := ({ s with rpl := { s.rpl with sets := s.rpl.sets.map fun (t : InSet) => if t.state == 2 then { t with state := 3 } else t } } : State).put
          Reg.RPL_SET_CTRL_SEAL 0
        (s.rpl.guestResend = true → exec .setSealed s = .next (t.put Reg.RPL_MIR_CLIENT_GUEST_STALE 0))
        ∧ (s.rpl.guestResend = false → exec .setSealed s = .next t))
    ∧ (s.rpl.slotDue = true → exec .setSealed s = .next s)
    ∧ (∀ l x r ctx va, s.rpl.sets = l ++ x :: r → x.state = 1 → (∀ y ∈ r, y.state ≠ 1) → s.on Reg.RPL_SET_CTRL_SEAL = false →
        s.on Reg.RPL_RING_CFG_GUEST = true →
        let u := s.mark Reg.RPL_SET_CTRL_SEAL
        let t : State := { u with rpl := { u.rpl with sets := l ++ { x with state := 2 } :: r } }
        t.on Reg.RPL_MIR_CLIENT_GUEST_STALE = false → t.learnCtx = some ctx → t.ringVa ctx = some va →
        routeValid (t.route (t.get Reg.RPL_MIR_PARTNER_MODULE)) = true → t.setPages x ≠ [] →
        s.sealSet = ({ t with rpl := { t.rpl with slotDue := true, guestResend := false } } : State).withEngine ctx
          ((t.setPages x).map fun p => va + 65536 * p) fun y => y.copyPages (ringEngine ctx) va (t.setPages x))
    ∧ (∀ w : Owner, (s.sendSlots w).fab.cells = s.fab.cells ++
        [{ cell := s.newCell w.ctx 1 6 (s.get Reg.RPL_MIR_PARTNER_MODULE) s.fab.nextXfer 0 slotAddr 0
             ((s.rpl.sets.filter fun (t : InSet) => 2 ≤ t.state).flatMap fun t => leBytes 4 t.step ++ leBytes 4 (t.first + 2 ^ 22 * 3) ++ leBytes 4 t.pages),
           queue := s.ownQueue (s.get Reg.RPL_MIR_PARTNER_MODULE), owner := some w, src := [] }])
    ∧ (dest.toNat = s.moduleId → 2 ≤ s.powerNow → s.pins.resetLow = false → exec (.identityRequest src dest) s = .next
        (s.emit (.identity src.toNat [s.moduleId, 0x4816, s.get Reg.GLB_SERIAL_LO_SERIAL, s.get Reg.GLB_SERIAL_HI_SERIAL, s.score 2000])))

/-- O52: the cluster fence, Daybreak and the checkpoint: a fence of a mapped cluster with CL8 of its die free is pending, and
one with CL8 in use is refused; a Daybreak load whose partner's last step is the one in RPL_SET_STEP reads its MIRROR pages,
and with them and the input sets read it is DONE; an armed checkpoint is marked, a target's ring starts at index 0; the RANGE records go first,
then each page; with all sent the END record completes it; a stalled target and a failed write fail it; a restore reads
record by record and is RESTORED when its coverage and digest are right (R387, R391, R398–R417). -/
def Obligations.FenceDaybreakCheckpoint : Prop :=
  ∀ (v : Word) (ans : Option PartnerState) (e : MemErr) (rec : BitVec 512) (page : List Byte) (s : State),
    let d := v.toNat % 4
    let k := v.toNat / 4 % 16
    let t0 := (s.put Reg.RPL_CL_FENCE_DIE d).put Reg.RPL_CL_FENCE_CLUSTER k
    (v.getLsbD 31 = true → s.clusterUser d 8 = none → k ≤ 7 → (s.clusterUser d k).isSome → exec (.clusterFence .firmware v) s = .next (t0.mark Reg.RPL_CL_FENCE_PENDING))
    ∧ (v.getLsbD 31 = true → (s.clusterUser d 8).isSome → s.on Reg.HRC_ESC_STATUS_FENCE_REQ = false →
        exec (.clusterFence .firmware v) s = .next (s.mark Reg.RPL_REPLAY_EVENT_FENCE_REFUSED))
    ∧ (exec (.daybreakLoad .firmware v ans) s = .next (s.writeDaybreak v.toNat ans))
    ∧ (∀ a, s.canon = true → ans = some a → v.getLsbD 0 = true →
        (s.get Reg.RPL_DAYBREAK_STATUS_STATE = 0 ∨ s.get Reg.RPL_DAYBREAK_STATUS_STATE = 4 ∨ s.get Reg.RPL_DAYBREAK_STATUS_STATE = 5) →
        s.get (Reg.RPL_REPLAY_STATUS_STATE s.stepSel) = 2 → a.lastStep.toNat = s.get Reg.RPL_SET_STEP_STEP → a.state = 1 → s.protPoison = none →
        (s.writeDaybreak v.toNat ans).rpl.loadSets = a.sets.map GuestSlot.inSet
        ∧ (s.mirrorPages = [] → (s.writeDaybreak v.toNat ans).get Reg.RPL_DAYBREAK_STATUS_STATE = 2)
        ∧ (∀ va, s.mirrorPages = [va] → routeValid (s.route (s.get Reg.RPL_MIR_PARTNER_MODULE)) = true →
            (s.writeDaybreak v.toNat ans).get Reg.RPL_DAYBREAK_STATUS_STATE = 1))
    ∧ (s.get (Reg.RPL_REPLAY_STATUS_STATE s.stepSel) ≠ 2 → s.mayAdmit = false → s.writeDaybreak v.toNat ans = s)
    ∧ (∀ u : State, s.get Reg.RPL_DAYBREAK_STATUS_STATE = 2 → s.protPoison = none →
        s.touchPages (.engine (64 + s.rpl.loadCtx))
          (((s.protRanges.filter fun x => x.source == 1).flatMap (·.vas)).filterMap fun va => s.pageOf s.rpl.loadCtx va) = .go u →
        s.daybreakTail = (s.masterPages.foldl (fun (x : State) va => x.rebuildPage s.rpl.loadCtx va) u).readSets s.rpl.loadCtx)
    ∧ (s.canon = true → s.rpl.loadSets = [] → (s.readSets s.rpl.loadCtx).get Reg.RPL_DAYBREAK_STATUS_STATE = 3 ∧ (s.readSets s.rpl.loadCtx).rpl.sets = [])
    ∧ (s.get Reg.RPL_DAYBREAK_STATUS_STATE = 3 → s.integ.admitRun = none → s.xfersOf (loadEngine s.rpl.loadCtx) = [] →
        let inPlace := s.get (Reg.RPL_REPLAY_STATUS_STATE s.rpl.loadCtx) = 2
        let done := ((s.put Reg.RPL_DAYBREAK_STATUS_STATE 4).put Reg.RPL_DAYBREAK_CTRL_LOAD 0).mark Reg.RPL_REPLAY_EVENT_DAYBREAK_DONE
        (inPlace → s.ringsDrained s.rpl.loadCtx = true → exec .daybreakDone s = .next (done.restoreDone s.rpl.loadCtx))
        ∧ (inPlace → s.ringsDrained s.rpl.loadCtx = false → exec .daybreakDone s = .next s)
        ∧ (¬ inPlace → exec .daybreakDone s = .next
            (({ done.mirrorStale with rpl := { done.mirrorStale.rpl with admitted := true } } : State).restoreDone s.rpl.loadCtx)))
    ∧ (s.get Reg.RPL_DAYBREAK_STATUS_STATE = 1 → exec .daybreakDone s = .next s)
    ∧ (v.toNat = 1 → exec (.ckptArm .firmware v) s = .next
        (((s.put Reg.RPL_CKPT_CTRL_FORCE_FULL 0).mark Reg.RPL_CKPT_CTRL_ARM).mark Reg.RPL_CKPT_STATUS_ARMED))
    ∧ (v.toNat = 2 → exec (.ckptCancel .firmware v) s = .next (s.put Reg.RPL_CKPT_CTRL_FORCE_FULL 0).ckptCancel)
    ∧ (s.ckptState = 4 ∨ s.ckptState = 5 → s.ckptCancel = (s.ckptDisarm.dropOutbox.setCkpt 0).put Reg.RPL_CKPT_CTRL_RESTORE 0)
    ∧ (v.toNat = 8 → exec (.ckptRestore .firmware v) s = .next (s.put Reg.RPL_CKPT_CTRL_FORCE_FULL 0).startRestore)
    ∧ (v.getLsbD 0 = true → s.ckptWritable = true → s.on Reg.RPL_CKPT_TGT_CFG_ENABLE = false → ∃ t, exec (.ckptTgtEnable .firmware v) s = .next t
        ∧ t.ckp.pi = 0 ∧ t.ckp.ci = 0 ∧ t.mem = s.mem ∧ t.sub = s.sub)
    ∧ (s.ckptReady = true ↔ s.ckptState = 1 ∧ s.on Reg.RPL_CKPT_TGT_CFG_ENABLE = true ∧ s.tgtFull = false ∧ s.tgtIdle = true)
    ∧ (s.ckptReady = true →
        (∀ x, s.ckptTabPoison = none → s.ckptRanges[s.ckp.rangesSent]? = some x → exec (.ckptPageCopy e none) s = .next
          ((s.sendRecord none (s.rangeRecord s.ckp.rangesSent x)).modCkp fun y => { y with rangesSent := y.rangesSent + 1 }))
        ∧ (∀ pa, s.ckptTabPoison = some pa → exec (.ckptPageCopy e none) s = .next (s.ckptUe pa))
        ∧ (∀ g, s.ckptTabPoison = none → s.ckptRanges[s.ckp.rangesSent]? = none → s.nextPage = some g → exec (.ckptPageCopy e none) s = .next (s.copyOne g e))
        ∧ (∀ code, s.tgtRemote = false → exec (.ckptPageCopy e (some code)) s = .next (s.targetFails code.toNat))
        ∧ (s.ckp.pending = [] → s.ckptRanges.length ≤ s.ckp.rangesSent → s.ckptTabPoison = none →
            s.poisonIn (s.digAt 0) (16 * s.ckptPages.length) = none →
            let t := s.sendRecord none (s.ckptRecord 3 (b2n (s.on Reg.RPL_CKPT_STATUS_FULL)) s.ckptRanges.length s.ckp.cutPrev
              (digestBytes (digestOf ((List.range s.ckptPages.length).map s.digEntry))) (leBytes 4 (s.get Reg.RPL_CKPT_COPIED_PAGES)))
            (s.tgtRemote = false → exec (.ckptDone none) s = .next (((((t.setCkpt 2).mark Reg.RPL_CKPT_EVENT_DONE).modCkp
                fun y => { y with endSent := false }).put Reg.RPL_CKPT_PREV_EPOCH t.ckp.cutEpoch).put Reg.RPL_CKPT_PREV_VALID 1))
            ∧ (s.tgtRemote = true → exec (.ckptDone none) s = .next (t.modCkp fun y => { y with endSent := true }))))
    ∧ (s.ckptState = 1 → s.tgtFull = true → 2048 * s.get Reg.RPL_CKPT_TGT_CFG_TGT_LIMIT ≤ s.ckp.ciSame →
        exec .ckptTargetStall s = .next s.ckptFailsFree)
    ∧ (s.ckptState = 4 → s.ckptTabPoison = none → exec (.restoreRecord rec page) s = .next
        (((s.chainRec (ckptRec rec) (fullPage page)).modCkp fun y => { y with
          ci := mod32 (y.ci + 1), restore := { y.restore with lastSeq := (ckptRec rec).seq } }).tgtWrite 8 (leBytes 4 (s.ckp.ci + 1))).tgtSend)
    ∧ (∀ a b, s.ckptState = 4 → s.ckptTabPoison = none → s.protPoison = none → s.endsOk = true → s.ckp.restore.ranges = s.ckptRanges.length → s.ckp.restore.written.length = s.ckptPages.length →
        s.ckp.restore.ends.getLast? = some (a, b) →
        let hs := (List.range s.ckptPages.length).map fun g => (sget (fun _ => none) s.ckp.restore.written g).getD (0, 0)
        (b ≠ digestOf hs → exec .ckptRestoreDone s = .next (s.chainFails s.ckp.restore.lastSeq fDigestMismatch [(2, 0xFFFF), (1, 3)]))
        ∧ (b = digestOf hs →
            let n := s.ckptPages.length
            let built := s.masterPages.foldl (fun (x : State) va => x.rebuildPage s.ckptCtx va) s
            let table := built.storeAt (built.digAt 0) (hs.flatMap digestBytes)
            let clear := (table.zeroMem (table.bitmapBase 0) (table.bitmapBase 0 + ceilDiv n 8)).zeroMem (table.bitmapBase 1) (table.bitmapBase 1 + ceilDiv n 8)
            exec .ckptRestoreDone s = .next ((((((clear.put Reg.RPL_CKPT_PREV_EPOCH a).put Reg.RPL_CKPT_PREV_VALID 1).mark
              Reg.RPL_CKPT_STATUS_FULL_NEXT).setCkpt 6).mark Reg.RPL_CKPT_EVENT_RESTORE_DONE).put Reg.RPL_CKPT_CTRL_RESTORE 0)))

/-! ### Integrity, hangs and recovery -/

/-- O53: what each integrity command does, in every state. A duplicate whose second run agrees leaves its queue, one that differs
is a mismatch, and one whose checking core is in reset waits; the duplicates of an attempt not reported by their limit are
skipped; firmware's digest fault is raised with the charge of its standing; firmware's score of a unit that exists is held
to 1,000 and recorded; a core is in its temperature band where BAND_EN is set and an entry is near, and its entries lapse;
a unit 24 h without a charge gains 25 points, with a record; a pack that passes its checks is stored in place of one of its
ID, any other is rejected; an idle core inside an item's window takes the item in an admission or while its share of the last
frames is not used up, with its tiles and scratchpad cleared; the item that ends passes with the expected hash and charges its
core without it; an admission past its limit fails; a record is acknowledged; and at most four operator keys are held
(R348–R351, R354–R363, R453). -/
def Obligations.IntegrityCommands : Prop :=
  ∀ (core : Fin 144) (ctx : Fin 64) (v q pack : Word) (item : BitVec 16) (temp : Int) (n : BitVec 12) (port : Fin 2) (pp : PackPush)
    (st : Standing) (run : DupRun) (p : Party) (u : HealthUnit) (hash : BitVec 128) (sp : List (BitVec 22 × Byte)) (s : State),
    (∀ d, (s.integ.dups.find? fun d => d.pcore == core.val && d.q == q.toNat) = some d →
      let t := (s.modInt fun x => { x with dups := x.dups.filter fun y => y != d }).arrayOn d.check
      let again := (dupRerun d).flip run
      (s.coreInReset d.check = true → exec (.dupCheckRun core q run) s = .next s)
      ∧ (s.coreInReset d.check = false → again = d.last → exec (.dupCheckRun core q run) s = .next t)
      ∧ (s.coreInReset d.check = false → again ≠ d.last → exec (.dupCheckRun core q run) s = .next (t.dupMismatch d run again)))
    ∧ ((s.integ.dups.find? fun d => d.pcore == core.val && d.q == q.toNat) = none → exec (.dupCheckRun core q run) s = .next s)
    ∧ (∀ t, (s.ctx ctx).noonHeld = some t →
        (t + s.get Reg.INT_DUP_CFG_LIMIT ≤ s.now → exec (.dupLimitExpire ctx) s = .next
          (s.skipDups fun d => d.party.ctx == ctx.val && d.step == s.stepNum ctx && d.attempt == s.get (Reg.RPL_STEP_ATTEMPT_ATTEMPT ctx)))
        ∧ (s.now < t + s.get Reg.INT_DUP_CFG_LIMIT → exec (.dupLimitExpire ctx) s = .next s))
    ∧ ((s.ctx ctx).noonHeld = none → exec (.dupLimitExpire ctx) s = .next s)
    ∧ (let s1 := ((s.put Reg.INT_DIGEST_FAULT_CONTEXT (v.toNat % 64)).put Reg.INT_DIGEST_FAULT_RELATION (v.toNat / 64 % 4)).put
        Reg.INT_DIGEST_FAULT_PEER (v.toNat / 256 % 8192)
       let s3 := ((s1.bump Reg.INT_DIGEST_MISMATCH_CNT_COUNT).mark Reg.INT_EVENT_DIGEST_MISMATCH).raise
        { code := fDigestMismatch, unitKind := 14, p1 := some (s.ctxParty (v.toNat % 64)), detail := [(2, v.toNat / 256 % 8192), (1, v.toNat / 64 % 4)] }
       let record (t : State) (n : Nat) : State := t.cper
        { event := 3, fault := fDigestMismatch, unitKind := 2, unit := 0, peer := v.toNat / 256 % 8192,
          frame := 0, module := 0, score := s1.score 2000 - n, scoreBefore := s1.score 2000 }
       p.fw = true → s.acts p →
        (v.getLsbD 31 = false → exec (.digestFaultRaise p v st) s = .next s1)
        ∧ (v.getLsbD 31 = true → st = .majority → exec (.digestFaultRaise p v st) s = .next (record s3 0))
        ∧ (v.getLsbD 31 = true → st = .noMajority → exec (.digestFaultRaise p v st) s = .next (record (s3.charge 2 0 100) 100))
        ∧ (v.getLsbD 31 = true → st = .minority → v.toNat / 64 % 4 ≠ 2 → exec (.digestFaultRaise p v st) s = .next (record (s3.charge 2 0 200) 200))
        ∧ (v.getLsbD 31 = true → st = .minority → v.toNat / 64 % 4 = 2 →
            exec (.digestFaultRaise p v st) s = .next (record (s3.charge 2 0 200) 200).mirrorStale))
    ∧ (let k := s.healthSel
       let new := min 1000 (v.toNat % 1024)
       p.fw = true → s.acts p →
        (healthUnit k = true → exec (.healthScoreWrite p v) s = .next ((s.setScore k.1 k.2 new).cper
          { event := 5, fault := 0, unitKind := k.1, unit := k.2, frame := 0, module := 0, score := new, scoreBefore := s.score (scoreKey k.1 k.2) }))
        ∧ (healthUnit k = false → exec (.healthScoreWrite p v) s = .next s))
    ∧ (p.fw = false → exec (.digestFaultRaise p v st) s = .next (s.mark Reg.SUB_EVENT_HOST_DENIED)
        ∧ exec (.healthScoreWrite p v) s = .next (s.mark Reg.SUB_EVENT_HOST_DENIED))
    ∧ (let others := s.integ.inBand.filter (· != core.val)
       (s.atMultiple 256 = true → s.on Reg.INT_CTRL_BAND_EN = true → s.nearBand core temp = true → exec (.tempBandCheck core temp) s = .next
        (s.modInt fun x => { x with inBand := insertSorted core.val others }))
       ∧ (s.atMultiple 256 = true → (s.on Reg.INT_CTRL_BAND_EN = false ∨ s.nearBand core temp = false) → exec (.tempBandCheck core temp) s = .next
        (s.modInt fun x => { x with inBand := others }))
       ∧ (s.atMultiple 256 = false → exec (.tempBandCheck core temp) s = .next s))
    ∧ (let kept := (sget (fun _ => []) s.integ.bands core).filter fun e => decide (s.now < e.tick + s.get Reg.INT_DUP_CFG_BAND_DAYS * dayTicks)
       exec (.bandEntryExpire core) s = .next (s.modInt fun x => { x with bands := sset (fun _ => []) x.bands core kept }))
    ∧ (let k : Nat × Nat := match u with
        | .core c => (0, c.val)
        | .cluster j => (1, j.val)
        | .module => (2, 0)
       let key := scoreKey k.1 k.2
       let due := sget (fun _ => 0) s.integ.charged key + dayTicks ≤ s.now ∧ s.score key < 1000
       (due → exec (.healthRecovery u) s = .next
        (((s.setScore k.1 k.2 (s.score key + 25)).modInt fun x => { x with charged := sset (fun _ => 0) x.charged key s.now }).cper
          { event := 5, fault := 0, unitKind := k.1, unit := k.2, frame := 0, module := 0, score := min 1000 (s.score key + 25), scoreBefore := s.score key }))
       ∧ (¬ due → exec (.healthRecovery u) s = .next s))
    ∧ (let others := s.integ.packs.filter fun x => x.id != pp.id.toNat
       let new : Pack := { id := pp.id.toNat, operatorMade := pp.operatorMade, admission := pp.admission, items := pp.items,
                           svn := pp.svn.toNat, size := pp.size, since := s.now }
       (s.packOk pp = true ↔ (∃ k, pp.key = some k ∧ s.packKeyOk k = true) ∧ s.integ.packMin ≤ pp.svn.toNat ∧ 1 ≤ pp.items.length ∧ pp.items.length ≤ 4096
          ∧ others.length < 64 ∧ (others.map (·.size)).foldl (· + ·) 0 + pp.size ≤ 16 * 2 ^ 20)
       ∧ (s.idfortUp = true → s.conn port = 2 → s.packOk pp = true → exec (.testPackPush port pp) s = .next
          ((s.modInt fun x => { x with packs := others ++ [new], passed := x.passed.filter fun y => y.2.1 != pp.id.toNat }).emit (.redfish true)))
       ∧ (s.idfortUp = true → s.conn port = 2 → s.packOk pp = false → exec (.testPackPush port pp) s = .next
          ((s.mark Reg.INT_EVENT_PACK_REJECT).emit (.redfish true)))
       ∧ (s.idfortUp = true → s.conn port ≠ 2 → exec (.testPackPush port pp) s = .next (s.emit (.redfish false)))
       ∧ (s.idfortUp = false → exec (.testPackPush port pp) s = .next s))
    ∧ (∀ x i, s.pack pack.toNat = some x → x.items[item.toNat]? = some i →
        let admits := s.integ.admitRun.isSome = true ∧ x.admission = true
        let fits := i.low ≤ temp ∧ temp ≤ i.high ∧ s.coreIdle core = true
        let t := ((((s.each (List.range 32) fun t k => t.plainTile core k).zeroSp core).modCore core fun k => { k with foreign := true }).arrayOn
          core).bump Reg.INT_TEST_RUN_CNT_COUNT
        let ticks (own : List Nat) : State := t.modInt fun y => { y with
          testing := y.testing ++ [(core.val, x.id, item.toNat)], testFrames := sset (fun _ => []) y.testFrames core own }
        (fits → admits → exec (.testItemStart core pack item temp) s = .next (ticks (s.testTicks core)))
        ∧ (fits → ¬ admits → s.on Reg.INT_CTRL_TEST_EN = true → s.now ∈ s.testTicks core →
            exec (.testItemStart core pack item temp) s = .next (ticks (s.testTicks core)))
        ∧ (fits → ¬ admits → s.on Reg.INT_CTRL_TEST_EN = true → s.now ∉ s.testTicks core →
            (s.testTicks core).length < s.get Reg.INT_TEST_CFG_SHARE →
            exec (.testItemStart core pack item temp) s = .next (ticks (s.testTicks core ++ [s.now])))
        ∧ (fits → ¬ admits → (s.on Reg.INT_CTRL_TEST_EN = false ∨ (s.now ∉ s.testTicks core ∧ s.get Reg.INT_TEST_CFG_SHARE ≤ (s.testTicks core).length)) →
            exec (.testItemStart core pack item temp) s = .next s)
        ∧ (¬ fits → exec (.testItemStart core pack item temp) s = .next s))
    ∧ ((∀ x, s.pack pack.toNat = some x → x.items[item.toNat]? = none) → exec (.testItemStart core pack item temp) s = .next s)
    ∧ (∀ r, (s.integ.testing.find? fun x => x.1 == core.val) = some r →
        let t := (s.modInt fun x => { x with testing := x.testing.filter (· != r) }).store (sp.map fun e => (spAddr core e.1.toNat, e.2))
        (∀ x i, s.pack r.2.1 = some x → x.items[r.2.2]? = some i →
          (hash = i.hash → x.admission = true → exec (.testItemEnd core hash temp sp) s = .next (t.itemPassed r))
          ∧ (hash = i.hash → x.admission = false → exec (.testItemEnd core hash temp sp) s = .next t)
          ∧ (hash ≠ i.hash → (x.admission = false ∨ t.integ.admitRun = none) →
              exec (.testItemEnd core hash temp sp) s = .next (t.testFails core r.2.1 r.2.2 temp))
          ∧ (hash ≠ i.hash → x.admission = true → t.integ.admitRun ≠ none →
              exec (.testItemEnd core hash temp sp) s = .next (t.testFails core r.2.1 r.2.2 temp).admitFails))
        ∧ ((∀ x, s.pack r.2.1 = some x → x.items[r.2.2]? = none) → exec (.testItemEnd core hash temp sp) s = .next t))
    ∧ ((s.integ.testing.find? fun x => x.1 == core.val) = none → exec (.testItemEnd core hash temp sp) s = .next s)
    ∧ (∀ k d, s.integ.admitRun = some (k, d) →
        (d ≤ s.now → exec .admissionLimitExpire s = .next ((s.mark Reg.INT_EVENT_TEST_FAIL).admitFails))
        ∧ (s.now < d → exec .admissionLimitExpire s = .next s))
    ∧ (s.integ.admitRun = none → exec .admissionLimitExpire s = .next s)
    ∧ (exec (.cperAcknowledge n) s = .next (s.modInt fun x => { x with cper := x.cper.mapIdx fun k c => if k = n.toNat then { c with acked := true } else c }))
    ∧ (s.idfortUp = true → s.conn port = 2 →
        (s.integ.operatorKeys < 4 → exec (.testKeyEnrol port) s = .next
          ((s.modInt fun x => { x with operatorKeys := x.operatorKeys + 1 }).emit (.redfish true)))
        ∧ (4 ≤ s.integ.operatorKeys → exec (.testKeyEnrol port) s = .next (s.emit (.redfish false))))
    ∧ (s.idfortUp = true → s.conn port ≠ 2 → exec (.testKeyEnrol port) s = .next (s.emit (.redfish false)))
    ∧ (s.idfortUp = false → exec (.testKeyEnrol port) s = .next s)

/-- O54: every 256 frames the cores with a LAUNCH are checked for progress; a unit that has not stopped 16 frames after its
request hangs with CAUSE 2, and a control processor whose watchdog has not been kicked with CAUSE 4; a stalled internal link is
LINK_DOWN and leads to module recovery; requests and acknowledgements act through the dump register; a section without an
answer is UNREADABLE; a finished dump that no reset and no other dump waits for frees its engine; firmware's resets go
ahead after their dumps; the end of a core's or cluster's reset is counted, and a cluster that fails its self-test leads
to module recovery; and the fault log takes its configuration (R419–R421, R424, R427, R430–R438). -/
def Obligations.HangsDumpsResets : Prop :=
  ∀ (core : Fin 144) (cl : Fin 36) (cp : Fin 8) (link : Fin 5) (u : UnitRef) (waited : List (Fin 144)) (p : Party) (v : Word) (block : BitVec 16)
    (sec : Byte) (why : DumpMiss) (rtc : Nat) (s : State),
    (s.atMultiple 256 = true → s.hrc.hbLast ≠ s.now → s.time.pos ≤ 4 → s.on Reg.HRC_CTRL_HB_EN = true → exec (.heartbeatCheck waited) s = .next
      (((s.turn 4).each (s.cores.map (·.1)) fun t c => t.heartbeat waited c).modHrc fun h => { h with hbLast := s.now, hbFrame := s.frame, hbGated := [] }))
    ∧ (s.atMultiple 256 = true → s.hrc.hbLast ≠ s.now → s.time.pos ≤ 4 → s.on Reg.HRC_CTRL_HB_EN = false → exec (.heartbeatCheck waited) s = .next
      (((s.turn 4).each (s.cores.map (·.1)) fun t c => t.modCore c fun x => { x with retired := false, waitHb := x.declaredWait }).modHrc
        fun h => { h with hbLast := s.now, hbFrame := s.frame, hbGated := [] }))
    ∧ ((s.atMultiple 256 = false ∨ s.hrc.hbLast = s.now) → exec (.heartbeatCheck waited) s = .next s)
    ∧ (s.atMultiple 256 = true ↔ ∃ k, s.time.base < 256 * k ∧ 256 * k ≤ s.time.top)
    ∧ (∀ x, (s.hrc.stops.find? fun x => x.unit == u && x.tick + 16 ≤ s.now) = some x →
        exec (.stopTimeout u) s = .next (s.hang u.kind u.unit.toNat 2 (some x.party)))
    ∧ (s.on Reg.HRC_CTRL_LINK_STALL_EN = true → s.on Reg.HRC_STATUS_RECOVERING = false → exec (.internalLinkStall link) s = .next
        (((s.mark Reg.HRC_EVENT_LINK_STALL).logRec { code := fLinkDown, unitKind := 13, unit := link, detail := [(1, 0), (1, 6), (2, 0)] }).decideRecovery
          (some s.hrc.logseq)))
    ∧ (s.on Reg.SEC_STATUS_FW_STARTED = true → s.get Reg.HRC_FW_WDOG_FRAMES ≤ sget (fun _ => 0) s.hrc.fwTicks cp → exec (.fwWatchdogExpire cp) s = .next
        ((s.mark Reg.HRC_EVENT_FW_WDOG).hang 15 cp 4 none))
    ∧ (sget (fun _ => 0) s.hrc.fwTicks cp < s.get Reg.HRC_FW_WDOG_FRAMES → exec (.fwWatchdogExpire cp) s = .next s)
    ∧ ((s.on Reg.HRC_CTRL_LINK_STALL_EN = false ∨ s.on Reg.HRC_STATUS_RECOVERING = true) → exec (.internalLinkStall link) s = .next s)
    ∧ (s.acts p → exec (.dumpRequest p v) s = .next (s.writeDumpCtrl v.toNat) ∧ exec (.dumpAck p v) s = .next (s.writeDumpCtrl v.toNat))
    ∧ (∀ d, s.hrc.running = some d → exec (.dumpBlockTimeout block sec why) s = .next ((s.bump Reg.HRC_UNREADABLE_CNT_COUNT).modHrc
        fun h => { h with running := some { d with unreadable := d.unreadable ++ [(block.toNat, sec.toNat, missReason why)] } }))
    ∧ (∀ d, s.hrc.running = some d → s.hrc.waiting = none → d.thenReset.1 = 0 → exec .dumpEnd s = .next
        (((((s.put (slotFld d.slot) (if d.scope = 2 then 3 else 2)).mark Reg.HRC_EVENT_DUMP_DONE).put Reg.HRC_DUMP_STATUS_BUSY 0).put Reg.HRC_STATUS_DUMP_BUSY 0).modHrc
          fun h => { h with
            running := none, dumps := h.dumps ++ [{ d with endFrame := some s.frame }]
            tail := h.tail.map fun (r : FaultRec) => if d.logseq == some r.logseq then { r with dump := true } else r }))
    ∧ (let t := (s.put Reg.HRC_RESET_CTRL_KIND (v.toNat % 4)).put Reg.HRC_RESET_CTRL_INDEX (v.toNat / 4 % 256)
       (v.getLsbD 31 = true → v.toNat % 4 = 0 → v.toNat / 4 % 256 < 144 → s.unitInReset (1, v.toNat / 4 % 256) = false →
          exec (.coreResetRequest .firmware v) s = .next ((t.mark Reg.HRC_RESET_CTRL_GO).dumpThenReset (1, v.toNat / 4 % 256) none))
       ∧ (v.getLsbD 31 = true → v.toNat % 4 = 1 → v.toNat / 4 % 256 < 36 → s.unitInReset (2, v.toNat / 4 % 256) = false →
          exec (.clusterResetRequest .firmware v) s = .next ((t.mark Reg.HRC_RESET_CTRL_GO).dumpThenReset (2, v.toNat / 4 % 256) none))
       ∧ (v.getLsbD 31 = true → v.toNat % 4 = 2 → exec (.moduleRecoveryRequest .firmware v) s = .next (t.decideRecovery none)))
    ∧ (s.on (rstCore core) = true →
        let t := ((((s.put (rstCore core) 0).bump Reg.HRC_CORE_RST_CNT_COUNT).mark Reg.HRC_EVENT_CORE_RESET).releaseDrain core).noteReset core rtc
        core.val ∉ s.hrc.afterHang → t.get Reg.HRC_ESC_CORE_COUNT = 0 → exec (.coreResetDone core true rtc) s = .next t)
    ∧ (s.on (rstCore core) = false → exec (.coreResetDone core true rtc) s = .next s)
    ∧ (s.on (rstCl cl) = true →
        let t := ((s.put (rstCl cl) 0).bump Reg.HRC_CLUSTER_RST_CNT_COUNT).mark Reg.HRC_EVENT_CLUSTER_RESET
        let w := (((dumpCores 1 cl).foldl (fun (t : State) c => t.releaseDrain c) (t.releaseDrain (1000 + cl))).noteReset (1000 + cl) rtc).chargeNoted 1 cl 150 fCoreHang
        w.get Reg.HRC_ESC_CLUSTER_COUNT = 0 → exec (.clusterResetDone cl true rtc) s = .next w
          ∧ exec (.clusterResetDone cl false rtc) s = .next (w.decideRecovery none))
    ∧ (s.acts p → exec (.flogEnable p v) s = .next (s.writeFlogCfg v.toNat))

/-! ### Contexts' end, module recovery, intake -/

/-- O55: Dusk acts at its tick on an ACTIVE context and lapses on any other; 32 frames later, with no unit of the drain left to reset,
the context is FREE; the freed sealed pages are zeroed and ZEROING reads 0; a module recovery ends every context, tells every
port and the management network, closes the bypass and resets everything outside the always-on domain, with RESET_CAUSE 3;
at its end firmware runs again from the GOOD half; a module that fails its training is out of service; a valid intake
request starts an intake and any other is answered at once; an intake takes chunks of 1 MiB, the last one a shorter multiple of
64 bytes, and answers with the chunks written, and one that must wait for a copied page goes on from there
(R437, R440–R443, R458, R459, R461). -/
def Obligations.DuskRecoveryIntake : Prop :=
  ∀ (ctx : Fin 64) (ch : Fin 16) (words : List Word) (blob : List (List Byte × BitVec 128)) (me : MemErr) (rtc : Nat) (s : State),
    let c := ctx.val
    let n := ch.val
    (∀ d, (s.ctx c).duskReq = some d → s.discardDue d = true → s.time.pos ≤ 4 → s.active c = true → exec (.dusk ctx) s = .next ((s.turn 4).dusk c))
    ∧ (∀ d, (s.ctx c).duskReq = some d → s.discardDue d = true → s.time.pos ≤ 4 → s.active c = false → exec (.dusk ctx) s = .next
        (s.modCtx c fun x => { x with duskReq := none }))
    ∧ (∀ d, (s.ctx c).duskReq = some d → s.discardDue d = false ∨ 4 < s.time.pos → exec (.dusk ctx) s = .next s)
    ∧ (∀ t0, (s.ctx c).duskTick = some t0 → t0 + 32 ≤ s.now → (s.ctx c).drainHold = [] → exec (.duskDrainDone ctx) s = .next
        ((s.freeContext c).mark Reg.HRC_EVENT_DRAIN_DONE).openWaiting)
    ∧ (∀ t0, (s.ctx c).duskTick = some t0 → s.now < t0 + 32 → exec (.duskDrainDone ctx) s = .next s)
    ∧ (let pages := (List.range 64).flatMap fun c => (s.ctx c).zeroing
       let zeroed := pages.foldl (fun (t : State) a => t.zeroMem a (a + 65536)) s
       exec .zeroingDone s = .next ((zeroed.each (List.range 64) fun t c =>
         if (t.ctx c).zeroing.isEmpty then t else t.modCtx c fun x => { x with zeroing := [] }).put Reg.SEC_STATUS_ZEROING 0).openWaiting)
    ∧ (s.hrc.inRecovery = false → s.on Reg.HRC_STATUS_OUT_OF_SERVICE = false →
        let told := ((s.decideRecovery none).endContexts.each (List.range 16) fun t p => t.svcOut p (.short .recovering [t.moduleId])).emit
          (.notice .recovering [s.moduleId])
        let t := ((told.closeAll.stopFirmware.resetDomain).put Reg.GLB_RESET_CAUSE_CAUSE 3).modHrc fun h => { h with inRecovery := true }
        exec .moduleRecovery s = .next t ∧ t.mem = [] ∧ t.cores = [] ∧ t.poison = [] ∧ t.snp = {} ∧ t.hrc.inRecovery = true)
    ∧ (s.hrc.inRecovery = true →
        let back := ((s.put Reg.HRC_STATUS_RECOVERING 0).modHrc fun h => { h with inRecovery := false }).noteReset 2000 rtc |>.chargeNoted 2 0 200 0
        let lit := (((back.trainNear).trainBoard).relight).mark Reg.GLB_STATUS_RELAY_READY
        (∀ h, back.get Reg.HRC_ESC_MODULE_COUNT = 0 → lit.goodHalf = some h → exec (.moduleRecoveryDone .done rtc) s = .next (lit.runFirmware h))
        ∧ (back.get Reg.HRC_ESC_MODULE_COUNT = 0 → lit.goodHalf = none → exec (.moduleRecoveryDone .done rtc) s = .next lit.refreshPower)
        ∧ exec (.moduleRecoveryDone .trainingFailed rtc) s = .next back.outOfService)
    ∧ (let w (k : Nat) : Nat := (words.getD k 0).toNat
       let x := bitsOf (w 0) 8 6
       let k := bitsOf (w 0) 14 4
       s.on Reg.SEC_STATUS_FW_STARTED = true →
       ((s.sec.intakes.any fun i => i.chan == n) = false → bitsOf (w 0) 0 8 = 1 → bitsOf (w 0) 18 14 = 0 → w 3 % 65536 = 0 → s.active x = true →
         (s.on (Reg.SEC_WKEY_SLOT_VALID k) = true → s.get (Reg.SEC_WKEY_SLOT_CONTEXT k) = x → s.get (Reg.SEC_WKEY_SLOT_GENERATION k) = s.gen x →
            exec (.intakeRequest ch words) s = .next (s.modSec fun y => { y with intakes := y.intakes ++
              [{ chan := n, ctx := x, slot := k, host := w 1 + w 2 * 2 ^ 32, va := w 3 + w 4 * 2 ^ 32, count := w 5, tensor := w 6, first := w 7 }] }))
         ∧ (s.on (Reg.SEC_WKEY_SLOT_VALID k) = false → exec (.intakeRequest ch words) s = .next (s.intakeReply n 3 0)))
       ∧ ((s.sec.intakes.any fun i => i.chan == n) = true → exec (.intakeRequest ch words) s = .next (s.intakeReply n 2 0)))
    ∧ (∀ i, (s.sec.intakes.find? fun i => i.chan == n) = some i →
        let drop (t : State) : State := t.modSec fun x => { x with intakes := x.intakes.filter fun j => j.chan != n }
        let chunks := blob.take i.count
        let vas := (chunks.mapIdx fun k b => (List.range (ceilDiv b.1.length 65536)).map fun j => i.va + 1048576 * k + 65536 * j).flatten
        let start := (s.meetErrs (some i.ctx) (fun _ => true) me).engineOn
        ((s.on (Reg.SEC_WKEY_SLOT_VALID i.slot) = false ∨ s.get (Reg.SEC_WKEY_SLOT_CONTEXT i.slot) ≠ i.ctx) →
          exec (.intakeDone ch blob me) s = .next ((drop s).intakeReply i.chan 3 0))
        ∧ (s.on (Reg.SEC_WKEY_SLOT_VALID i.slot) = true → s.get (Reg.SEC_WKEY_SLOT_CONTEXT i.slot) = i.ctx →
            (∀ t m st, State.intakeChunks i me start i.written (chunks.drop i.written) = (t, m, some st) →
              exec (.intakeDone ch blob me) s = .next ((drop (t.fillTlb i.ctx vas).engineOff).intakeReply i.chan st m))
            ∧ (∀ t m, State.intakeChunks i me start i.written (chunks.drop i.written) = (t, m, none) →
              exec (.intakeDone ch blob me) s = .next ((t.fillTlb i.ctx vas).engineOff.modSec fun x => { x with
                intakes := x.intakes.map fun j => if j.chan == n then { j with written := m } else j }))))
    ∧ (∀ (i : Intake) (u : State) (m : Nat) (b : List Byte × BitVec 128) (l : List (List Byte × BitVec 128)),
        let va := i.va + 1048576 * m
        let long := b.1.length = 1048576 ∨ (m + 1 = i.count ∧ 0 < b.1.length ∧ b.1.length < 1048576 ∧ b.1.length % 64 = 0)
        (i.count ≤ m → State.intakeChunks i me u m [] = (u, m, some 0))
        ∧ (m < i.count → State.intakeChunks i me u m [] = (u, m, some 2))
        ∧ (¬ long → State.intakeChunks i me u m (b :: l) = (u, m, some 2))
        ∧ (long → ∀ a, u.intakeStop i.ctx va b.1.length = some a → State.intakeChunks i me u m (b :: l) = (u.intakePerm i.ctx a, m, some 4))
        ∧ (long → u.intakeStop i.ctx va b.1.length = none → u.chunkOk i m b = false →
            State.intakeChunks i me u m (b :: l) = (u.sealCount.intakeRec i.ctx fSealViolation [(2, u.moduleId), (1, i.slot), (1, 1)], m, some 1))
        ∧ (long → u.intakeStop i.ctx va b.1.length = none → u.chunkOk i m b = true →
            let w := (u.chunkText i m b).mapIdx fun k x => (va + k, x)
            (∀ v, u.intakeWrite i w me = .done v → State.intakeChunks i me u m (b :: l) = State.intakeChunks i me v (m + 1) l)
            ∧ (∀ v st, u.intakeWrite i w me = .stop v st → State.intakeChunks i me u m (b :: l) = (v, m, some st))
            ∧ (u.intakeWrite i w me = .wait → State.intakeChunks i me u m (b :: l) = (u.waitShadow (.engine (128 + i.chan)), m, none))))

/-! ### Identity, keys, the operator -/

/-- O56: the SPDM responses: version 1.3, capabilities, the one set of algorithms, slot 0 alone, measurements by index; a session
begins with KEY_EXCHANGE, completes with FINISH and ends with END_SESSION or a wrong verification; a key request in an open
session is answered by a signed offer of the context, its generation, the VCID, the nonce, an ephemeral public key and the
measurements' SHA-384; a wrap opens under the key derived from the offer's ephemeral key and the broker's, with the offer's
signature as AAD: the key it holds fills its slot, a weight key seals the module, and a failed tag leaves the slot empty
(R448–R450, R456, R457). -/
def Obligations.TenantKeys : Prop :=
  ∀ (net : Bool) (slot : Byte) (nonce : BitVec 256) (sess : BitVec 16) (r : KeyReq) (w : KeyWrapMsg) (s : State), s.spdmUp net = true →
    let n := sess.toNat
    let err := s.emit (.spdm net .error [])
    exec (.getVersion net) s = .next (s.emit (.spdm net .version [0x13]))
    ∧ exec (.getCapabilities net) s = .next (s.emit (.spdm net .capabilities []))
    ∧ exec (.negotiateAlgorithms net true) s = .next (s.emit (.spdm net .algorithms [384, 384, 384, 256]))
    ∧ exec (.negotiateAlgorithms net false) s = .next err
    ∧ exec (.getDigests net) s = .next (s.emit (.spdm net .digests [0]))
    ∧ exec (.getCertificate net 0) s = .next (s.emit (.spdm net .certificate (0 :: s.certChain)))
    ∧ s.certChain = [0x4816, s.get Reg.GLB_SERIAL_LO_SERIAL, s.get Reg.GLB_SERIAL_HI_SERIAL, pointOf deviceIdKey, Config.deviceSignature.toNat,
        pointOf s.aliasKey, signOf deviceIdKey s.aliasKey (leBytes 96 (pointOf s.aliasKey))]
    ∧ (∃ k : Nat, exec (.challenge net 0 nonce) s = .next (s.fresh.2.emit (.spdm net .challengeAuth
        [nonce.toNat, signOf s.aliasKey k (leBytes 32 nonce.toNat ++ s.measureBytes)])))
    ∧ (slot ≠ 0 → exec (.getCertificate net slot) s = .next err ∧ exec (.challenge net slot nonce) s = .next err)
    ∧ exec (.getMeasurements net none) s = .next (s.emit (.spdm net .measurements ((List.range 8).flatMap fun k => s.measure (k + 1))))
    ∧ (1 ≤ slot.toNat → slot.toNat ≤ 8 → exec (.getMeasurements net (some slot)) s = .next (s.emit (.spdm net .measurements (s.measure slot.toNat))))
    ∧ exec (.keyExchange net sess) s = .next
        (((s.dropSpdm net n).modSec fun x => { x with spdm := x.spdm ++ [(net, n, false)] }).emit (.spdm net .keyExchangeRsp [n]))
    ∧ (s.sec.spdm.contains (net, n, false) = true →
        exec (.finish net sess true) s = .next
          (((s.dropSpdm net n).modSec fun x => { x with spdm := x.spdm ++ [(net, n, true)] }).emit (.spdm net .finishRsp [n]))
        ∧ exec (.finish net sess false) s = .next ((s.dropSpdm net n).emit (.spdm net .error [])))
    ∧ (s.spdmOpen net n = true → exec (.endSession net sess) s = .next ((s.dropSpdm net n).emit (.spdm net .endSessionAck [n])))
    ∧ (s.spdmOpen net n = false → exec (.endSession net sess) s = .next err ∧ exec (.keyRequest net sess r) s = .next err)
    ∧ (∀ c k, s.spdmOpen net n = true → s.secState = 1 ∨ s.secState = 2 → s.ctxOfVcid r.vcid.toNat = some c → s.slotFor r.kind.toNat = some k →
        ∃ priv sig salt : Nat, ∃ t : State, exec (.keyRequest net sess r) s = .next t
          ∧ sig = signOf s.aliasKey salt (offerBytes [c, s.gen c, r.vcid.toNat, r.nonce.toNat, pointOf priv, shaOf s.measureBytes])
          ∧ t.sec.offers = s.sec.offers ++ [{ kind := r.kind.toNat, ctx := c, gen := s.gen c, vcid := r.vcid.toNat, slot := k, dump := r.dump.toNat,
                                              nonce := r.nonce.toNat, priv := priv, signed := sig }]
          ∧ t.out = .spdm net .keyOffer [c, s.gen c, r.vcid.toNat, r.nonce.toNat, pointOf priv, shaOf s.measureBytes, sig] :: s.out
          ∧ t.regs = s.regs ∧ t.mem = s.mem)
    ∧ ((s.secState = 0 ∨ s.secState = 3) → exec (.keyRequest net sess r) s = .next err)
    ∧ ((s.ctxOfVcid r.vcid.toNat = none ∨ s.slotFor r.kind.toNat = none) → exec (.keyRequest net sess r) s = .next err)
    ∧ (∀ o, (s.sec.offers.find? fun o => o.kind == w.kind.toNat && o.slot == w.slot.toNat) = some o → s.spdmOpen net n = true →
        let used := s.modSec fun x => { x with offers := x.offers.filter (· != o) }
        (∀ key, o.unwrap w = some key →
          exec (.keyWrap net sess w) s = .next ((used.installKey o key).respond net .keyWrapAck [])
          ∧ (o.kind = 1 → o.slot < 16 → s.canon = true →
              let t := used.installKey o key
              t.secState = 2 ∧ t.on (Reg.SEC_WKEY_SLOT_VALID o.slot) = true
              ∧ sget (fun _ => 0) t.sec.weightKeys o.slot = key ∧ sget (fun _ => 0) t.sec.dumpKeys o.slot = o.dump))
        ∧ (o.unwrap w = none → exec (.keyWrap net sess w) s = .next (used.emit (.spdm net .error []))))
    ∧ (∀ o : KeyOffer,
        let key := keyBytes (Config.hkdf (leBytes 32 o.nonce) (Config.ecdh o.priv w.pub)
          ([0x47, 0x5A, 0x4B, 0x57] ++ leBytes 1 o.kind ++ leBytes 1 o.ctx ++ leBytes 2 o.gen)).toNat
        let tag := Gcm.beNat (Gcm.tagOf key (List.replicate 12 0) (Gcm.beBytes 96 o.signed) (Gcm.beBytes 32 w.wrapped.toNat))
        (w.tag.toNat = tag → o.unwrap w = some (Gcm.beNat (Gcm.crypt key (List.replicate 12 0) (Gcm.beBytes 32 w.wrapped.toNat))))
        ∧ (w.tag.toNat ≠ tag → o.unwrap w = none))
    ∧ ((s.sec.offers.find? fun o => o.kind == w.kind.toNat && o.slot == w.slot.toNat) = none → exec (.keyWrap net sess w) s = .next err)
    ∧ (s.spdmOpen net n = false → exec (.keyWrap net sess w) s = .next err)

/-- O57: the management network: every connection is answered by the TLS handshake with the Alias chain; it is the operator's when its certificate verifies, is open to anyone in Blank and
Decommissioned, and is refused else; the first enrolment in Blank makes the module Provisioned and a later one replaces the
certificate; every other operator action needs the operator's connection; decommissioning leaves Provisioned; the host view,
roll-forward, return to service, the end of a thermal trip and the opening of the bypass are the operator's; a day of clean
running raises the fused minimum of firmware, of Idfort and of the test packs (R440, R451–R455, R462, R470, R474, R492). -/
def Obligations.OperatorActions : Prop :=
  ∀ (port : Fin 2) (ca : BitVec 384) (tenant : Bool) (frame : BitVec 64) (s : State), s.idfortUp = true →
    let p := port.val
    let done (t : State) : State := t.emit (.redfish true)
    let refused := s.emit (.redfish false)
    let tls (t : State) (kept : Nat) : State := t.emit (.tls p (0x1302 :: 0x0018 :: kept :: t.certChain))
    (s.secState = 1 ∨ s.secState = 2 → exec (.mgmtConnect port .verifies) s = .next (tls (s.setConn p 2) 1))
    ∧ (∀ cert, cert ≠ .verifies → s.secState = 1 ∨ s.secState = 2 → exec (.mgmtConnect port cert) s = .next (tls (s.setConn p 0) 0))
    ∧ (∀ cert, s.secState = 0 ∨ s.secState = 3 → exec (.mgmtConnect port cert) s = .next (tls (s.setConn p 1) 1))
    ∧ (s.secState = 0 → s.conn p = 1 → exec (.operatorEnrolment port ca) s = .next
        (done ((s.modSec fun x => { x with operator := some ca.toNat }).setSec 1)))
    ∧ (s.secState = 1 ∨ s.secState = 2 → s.conn p = 2 → exec (.operatorEnrolment port ca) s = .next
        (done (s.modSec fun x => { x with operator := some ca.toNat })))
    ∧ (s.secState = 3 → exec (.operatorEnrolment port ca) s = .next refused)
    ∧ (s.conn p ≠ 2 → ∀ i ∈ [Instr.decommission port, .hostViewSet port tenant, .rollForwardEnable port, .thermTripClear port, .returnToService port,
        .bypassOpenRequest port frame, .invasiveSessionOpen port], exec i s = .next refused)
    ∧ (s.conn p = 2 → s.secState = 1 →
        let off := (s.closeSession.endContexts.stopFirmware.put Reg.SWT_CTRL_ENABLE 0).mark Reg.GLB_STATUS_RELAY
        let bare := (off.eraseLink 0).eraseLink 1
        exec (.decommission port) s = .next (done (((bare.modSec fun x => { x with
          operator := none, conns := [], offers := [], rollForward := false, vendorWaits := none }).setSec 3).refreshPower)))
    ∧ (s.conn p = 2 → s.secState ≠ 1 → exec (.decommission port) s = .next refused)
    ∧ (s.conn p = 2 → exec (.hostViewSet port tenant) s = .next (done (s.modSec fun x => { x with tenantView := tenant }))
        ∧ exec (.rollForwardEnable port) s = .next (done (s.modSec fun x => { x with rollForward := true })))
    ∧ (s.conn p = 2 → s.pins.tripped = true → exec (.thermTripClear port) s = .next
        (done ((s.modPins fun x => { x with tripped := false }).emit .ibi).tryDawn))
    ∧ (s.conn p = 2 → s.on Reg.HRC_STATUS_OUT_OF_SERVICE = true → exec (.returnToService port) s = .next
        (done ((s.put Reg.HRC_STATUS_OUT_OF_SERVICE 0).emit .ibi)))
    ∧ (s.conn p = 2 → s.on Reg.GLB_STATUS_RELAY_READY = true →
        (∀ b < 8, s.on (Reg.OPT_BYP_STATUS_LISTEN_OK b) = true ∧ ∃ f t, (s.byp b).listener = some (f, t) ∧ f + (s.now - t) + 3 ≤ frame.toNat) →
        exec (.bypassOpenRequest port frame) s = .next (done (s.each (List.range 8) fun u b =>
          ((u.put (Reg.OPT_BYP_CTRL_TARGET b) 1).put (Reg.OPT_BYP_FRAME_FRAME b) (frame.toNat % 2 ^ 32)).mark (Reg.OPT_BYP_CTRL_ARM b))))
    ∧ (s.conn p = 2 → s.on Reg.GLB_STATUS_RELAY_READY = false → exec (.bypassOpenRequest port frame) s = .next refused)
    ∧ (s.sec.rollForward = true →
        let t := s.rollIdfort.rollPacks
        (∀ i, s.runningImage = some i → s.fw.since + dayTicks ≤ s.now → s.get Reg.SEC_FW_STATUS_SVN_MIN < i.svn →
          exec .fwSvnRollForward s = .next (t.put Reg.SEC_FW_STATUS_SVN_MIN i.svn))
        ∧ (∀ i, s.runningImage = some i → (s.now < s.fw.since + dayTicks ∨ i.svn ≤ s.get Reg.SEC_FW_STATUS_SVN_MIN) → exec .fwSvnRollForward s = .next t)
        ∧ (s.runningImage = none → exec .fwSvnRollForward s = .next t)
        ∧ (max s.sec.idfortSince s.hrc.recoverAt + dayTicks ≤ s.now → t.sec.idfortMin = max s.sec.idfortMin s.sec.idfortSvn)
        ∧ (s.now < max s.sec.idfortSince s.hrc.recoverAt + dayTicks → t.sec.idfortMin = s.sec.idfortMin)
        ∧ (∀ q ∈ s.integ.packs, max q.since s.hrc.recoverAt + dayTicks ≤ s.now → q.svn ≤ t.integ.packMin) ∧ s.integ.packMin ≤ t.integ.packMin)
    ∧ (s.sec.rollForward = false → exec .fwSvnRollForward s = .next s)

/-- O58: debug sessions: an invasive one opens with the next serial number, a health record and DEBUG_CHANGE; a vendor session
opens at once on a module without sealed contexts; closing one ends it; inside an invasive session a core or control
processor halts, a halted one that is stepped retires one more instruction, plain memory is read and written, sealed memory leaves under
the session's dump key and its writes are refused; inside a vendor session a scan runs without ACTIVE contexts, a fuse is
read, a named fuse word takes the new ones, and a Decommissioned module becomes Blank; without a session all are refused
(R464–R466, R474). -/
def Obligations.DebugSessions : Prop :=
  ∀ (port : Fin 2) (core : Fin 144) (k : Fin 8) (tok : VendorToken) (t : DebugTarget) (bytes : List Byte) (word : BitVec 16) (v : Word) (s : State),
    let done (t : State) : State := t.emit (.redfish true)
    let refused := s.emit (.redfish false)
    (s.idfortUp = true → s.conn port.val = 2 → s.sec.session = none → s.sec.vendorWaits = none → ∃ priv : Nat, exec (.invasiveSessionOpen port) s = .next
      (done (((s.fresh.2.modSec fun x => { x with
          sessions := x.sessions + 1, session := some { level := 1, serial := x.sessions + 1, fuses := [], priv := priv }, vendorWaits := none }).put
        Reg.SEC_STATUS_DEBUG 1).mark Reg.SEC_EVENT_DEBUG_CHANGE |>.cper
          { event := 5, fault := 0, unitKind := 2, unit := 0, frame := 0, module := 0, score := s.score 2000, scoreBefore := s.score 2000 })))
    ∧ (s.idfortUp = true → s.conn port.val = 2 → tok.valid = true → 2 ≤ s.powerNow → s.sec.session = none → s.sec.vendorWaits = none →
        (∀ c < 64, s.active c = true → s.holdsKey c = false) → s.unsealed = true → exec (.vendorSessionOpen port tok) s = .next
          (done ((s.modSec fun x => { x with vendorWaits := some tok.fuses }).openSession 2 tok.fuses)))
    ∧ (s.idfortUp = true → tok.valid = false → exec (.vendorSessionOpen port tok) s = .next refused)
    ∧ (s.idfortUp = true → s.conn port.val = 2 → s.sec.session.isSome = true → exec (.debugSessionClose port) s = .next (done s.closeSession))
    ∧ (s.idfortUp = true → s.sec.session = none → exec (.debugSessionClose port) s = .next refused)
    ∧ (s.invasive = false → ∀ i ∈ [Instr.coreHalt (.core core), .coreHalt (.control k), .coreSingleStep (.core core), .coreSingleStep (.control k),
        .debugMemoryRead t, .debugMemoryWrite t bytes], exec i s = .next refused)
    ∧ (s.debugLevel ≠ 2 → ∀ i ∈ [Instr.scanRequest, .fuseRead word, .fuseWrite word v, .refurbishToBlank], exec i s = .next refused)
    ∧ (s.invasive = true →
        exec (.coreHalt (.core core)) s = .next (done (s.modCore core fun k => { k with halted := true, steps := 0 }))
        ∧ exec (.coreHalt (.control k)) s = .next (done (s.modSec fun x => { x with
            halted := k.val :: x.halted.filter (· != k.val), cpSteps := sset (fun _ => 0) x.cpSteps k.val 0 }))
        ∧ ((s.core core).halted = false → exec (.coreSingleStep (.core core)) s = .next refused)
        ∧ (s.sec.halted.contains k.val = false → exec (.coreSingleStep (.control k)) s = .next refused)
        ∧ ((s.core core).halted = true → exec (.coreSingleStep (.core core)) s = .next (done (s.modCore core fun k => { k with steps := 1 })))
        ∧ (s.sec.halted.contains k.val = true → exec (.coreSingleStep (.control k)) s = .next
            (done (s.modSec fun x => { x with cpSteps := sset (fun _ => 0) x.cpSteps k.val 1 })))
        ∧ ((s.debugRange t).2 = false → exec (.debugMemoryRead t) s = .next (s.emit (.debugData none (s.debugBytes t))))
        ∧ (∀ x, s.sec.session = some x → (s.debugRange t).2 = true → exec (.debugMemoryRead t) s = .next
            ((s.modSec fun y => { y with session := some { x with blocks := x.blocks + ceilDiv (s.debugBytes t).length 4096 } }).emit
              (.debugData (some (x.serial, x.blocks, pointOf x.priv)) (sealBlocks (x.dumpKey (((s.debugCtx t).map s.dumpKeyOf).getD 0))
                x.serial (ceilDiv (s.debugBytes t).length 4096) x.blocks (s.debugBytes t)))))
        ∧ ((s.debugRange t).2 = true → exec (.debugMemoryWrite t bytes) s = .next (s.sealCount.emit (.redfish false)))
        ∧ (∀ pa n, t = .memory pa n → (s.debugRange t).1 = ((List.range n).map fun k => pa.toNat + k).filter paExists)
        ∧ (∀ c a n, t = .scratchpad c a n → (s.debugRange t).1 = (List.range n).map fun k => spAddr c (a.toNat + k))
        ∧ ((∀ c i, t ≠ .tile c i) → (s.debugRange t).2 = false →
            let cells := (s.debugRange t).1.zip bytes
            (∀ u, s.touchPages .debug (pagesOf (cells.map (·.1))) = .go u → exec (.debugMemoryWrite t bytes) s = .next (done (u.store cells)))
            ∧ (s.touchPages .debug (pagesOf (cells.map (·.1))) = .full → exec (.debugMemoryWrite t bytes) s = .next refused))
        ∧ (∀ c i, t = .tile c i → (s.debugRange t).2 = false → exec (.debugMemoryWrite t bytes) s = .next (done (s.setTileData c i bytes))))
    ∧ (s.debugLevel = 2 →
        (2 ≤ s.powerNow → (∀ c < 64, s.active c = false) → ∃ data u, exec .scanRequest s = .next (u.emit (.vendorData [data])) ∧ u = s.fresh.2)
        ∧ (∀ c < 64, s.active c = true → exec .scanRequest s = .next refused)
        ∧ exec (.fuseRead word) s = .next (s.emit (.vendorData [sget (fun _ => 0) s.sec.fuses word.toNat]))
        ∧ (∀ x, s.sec.session = some x →
            (word.toNat ∈ x.fuses → exec (.fuseWrite word v) s = .next (done (s.modSec fun y =>
              { y with fuses := sset (fun _ => 0) y.fuses word.toNat (sget (fun _ => 0) y.fuses word.toNat ||| v.toNat) })))
            ∧ (word.toNat ∉ x.fuses → exec (.fuseWrite word v) s = .next refused))
        ∧ (s.secState = 3 → exec .refurbishToBlank s = .next (done ((s.modSec fun x => { x with operator := none }).setSec 0)))
        ∧ (s.secState ≠ 3 → exec .refurbishToBlank s = .next refused))

/-! ### Power, pins, captures, firmware, registers -/

/-- O59: power, duty and pins: an overcurrent brings the current cap to MIN_DUTY; the second's average is rounded to 25 W; the duty
levels follow the interval's power and the dies' temperatures once in 256 frames, every cap between MIN_DUTY and 64; a die at 115 °C ends the loads; 48 V starts
a Dawn from 46 V to 57 V, counts as lost above 57 V and below 40 V, and low it holds MIN_DUTY; the 12 V rail, the body, the
presence contact and the reset pin act as the supply rules say; the Dawn ends with memory trained and cleared, light and
RELAY_READY; the fabric leaves the relay at the tick after its enable; and the I3C port takes its address and gives the
module's record (R463, R467–R470, R477–R483, R487–R491). -/
def Obligations.PowerAndPins : Prop :=
  ∀ (temps : Word) (die : Fin 4) (temp : Byte) (mv : BitVec 16) (addr : BitVec 7) (s : State),
    (exec .overcurrent s = .next (((s.modPow fun x => { x with curCap := s.get Reg.SEC_DUTY_CFG_MIN_DUTY, curDue := some s.now }).mark
        Reg.SEC_EVENT_OVERCURRENT).applyDuty))
    ∧ (s.atMultiple 244141 = true → s.pow.secLast ≠ s.now → s.pow.nSec ≠ 0 → exec .powerAvgUpdate s = .next
        (s.modPow fun x => { x with second := round25 x.sumSec x.nSec, sumSec := 0, nSec := 0, secLast := s.now }))
    ∧ (s.atMultiple 256 = true → s.pow.dutyLast ≠ s.now → s.time.pos ≤ 6 → 2 ≤ s.powerNow →
        let t := (((s.turn 6).setReg Reg.SEC_TEMP temps).powerStep).each (List.range 4) fun t d => t.tempStep d (bitsOf temps.toNat (8 * d) 8)
        exec (.dutyUpdate temps) s = .next ((t.modPow fun x => { x with
          curCap := if x.curDue.isSome then t.clampCap x.curCap else t.capUp x.curCap
          curDue := none, sum256 := 0, n256 := 0, dutyLast := s.now }).applyDuty))
    ∧ ((s.atMultiple 256 = false ∨ s.pow.dutyLast = s.now ∨ s.powerNow < 2) → exec (.dutyUpdate temps) s = .next s)
    ∧ (115 ≤ temp.toNat → 2 ≤ s.powerNow → exec (.thermalTrip die temp) s = .next
        ((((((s.put ⟨Reg.SEC_TEMP, 8 * die.val, 8⟩ temp.toNat).cper
          { event := 5, fault := 0, unitKind := 2, unit := 0, frame := 0, module := 0
            duty := s.duty die.val
            score := s.score 2000, scoreBefore := s.score 2000 }).powerDown 4).modPins
          fun x => { x with tripped := true, loadsOff := true, under := none }).emit .ibi).applyDuty))
    ∧ (temp.toNat < 115 → exec (.thermalTrip die temp) s = .next s)
    ∧ (s.pins.v48 = false → 46000 ≤ mv.toNat → mv.toNat ≤ 57000 → exec (.main48vApply mv) s = .next
        (s.modPins fun x => { x with v48 := true, under := none }).tryDawn)
    ∧ (s.pins.v48 = false → mv.toNat < 46000 ∨ 57000 < mv.toNat → exec (.main48vApply mv) s = .next s)
    ∧ (s.pins.v48 = true → mv.toNat < 40000 ∨ 57000 < mv.toNat → exec (.main48vApply mv) s = .next s.lose48)
    ∧ (s.pins.v48 = true → 44000 ≤ mv.toNat → mv.toNat ≤ 57000 → s.pins.under.isSome = true → exec (.main48vApply mv) s = .next
        (s.modPins fun x => { x with under := none }).applyDuty)
    ∧ (s.pins.v48 = true → 2 ≤ s.powerNow → exec .main48vLoss s = .next ((s.powerDown 2).modPins fun x => { x with v48 := false, under := none }).applyDuty)
    ∧ (2 ≤ s.powerNow → exec .undervolt s = .next
        ((s.modPins fun x => { x with under := x.under.or (some s.now) }).mark Reg.GLB_EVENT_UNDERVOLT).applyDuty)
    ∧ (s.pins.v12 = false → exec .standby12vApply s = .next ((s.modPins fun x => { x with v12 := true }).modSec fun x => { x with idfortSince := s.now }).tryDawn)
    ∧ (∀ n : Int, n ≤ 64 → s.get Reg.SEC_DUTY_CFG_MIN_DUTY ≤ s.clampCap n ∧ (s.get Reg.SEC_DUTY_CFG_MIN_DUTY ≤ 64 → s.clampCap n ≤ 64))
    ∧ (s.pins.v12 = true → s.pins.body = true → exec .standby12vLoss s = .next (s.turnOff.modPins fun x => { x with v12 := false }).refreshPower)
    ∧ (s.pins.body = false → exec .bodyInsert s = .next
        ((s.modPins fun x => { x with body := true, mated := false }).modSec fun x => { x with idfortSince := s.now }).refreshPower)
    ∧ (s.pins.body = true → s.pins.v12 = true → exec .bodyRemove s = .next
        (s.turnOff.modPins fun x => { x with body := false, mated := false }).refreshPower)
    ∧ (s.pins.body = true → s.pins.mated = false → exec .presenceMated s = .next (s.modPins fun x => { x with mated := true }).tryDawn)
    ∧ (s.pins.resetLow = false → 2 ≤ s.powerNow → exec .modResetNAssert s = .next
        ((s.powerDown 1).modPins fun x => { x with resetLow := true, pcieUp := false, configReady := false, dawn := false }).refreshPower)
    ∧ (s.pins.resetLow = true → exec .modResetNRelease s = .next (s.modPins fun x => { x with resetLow := false }).tryDawn)
    ∧ (s.pins.pcieUp = true → s.pins.resetLow = false → s.on Reg.GLB_STATUS_PWR_OK = true → exec .pcieConfigReady s = .next
        (s.modPins fun x => { x with configReady := true }))
    ∧ (s.pins.dawn = true → 2 ≤ s.powerNow → exec .relayReady s = .next
        ((((s.trainMemory.lightService).verifyRings [17]).mark Reg.GLB_STATUS_RELAY_READY).modPins fun x => { x with dawn := false })
        ∧ (s.canon = true → s.trainMemory.mem = [] ∧ s.trainMemory.poison = []))
    ∧ (s.on Reg.GLB_STATUS_RELAY = true → s.on Reg.SWT_CTRL_ENABLE = true → s.pins.enableTick = true → exec .relayExit s = .next
        ((s.put Reg.GLB_STATUS_RELAY 0).each (List.range 16) fun t p => (t.put (Reg.OPT_PORT_STATUS_UP p) 0).refreshPort p))
    ∧ (s.idfortUp = true →
        exec .i3cPrivateRead s = .next (s.emit (.i3c s.i3cRecord))
        ∧ exec (.entdaa addr) s = .next (s.modPins fun x => { x with i3c := some addr.toNat })
        ∧ exec (.setdasa addr) s = .next (s.modPins fun x => { x with i3c := some addr.toNat }))

/-- O60: firmware, calibration and the register window: a LOAD that nothing refuses clears its half's marks and is BUSY; a refused
LOAD or START sets RESULT 6; a START of a verified half begins at the next tick; a copied image is LOADED, and VERIFIED where
no check of Idfort refuses it, and otherwise FW_REJECT tells the reason; at its frame a swap hands over to the other half and
the watchdog restarts; after 244,141 frames the running half is GOOD; a verified Idfort image is stored; a calibration without
a gap fails, and one of rings that are all verified is done; a write outside a register, or of firmware's registers by
the host, changes no register but HOST_DENIED; and a halted control processor that is not stepped does nothing (R166, R454, R455, R493–R499). -/
def Obligations.FirmwareAndRegisters : Prop :=
  ∀ (p : Party) (v addr : Word) (i : ImageCheck) (s : State), s.canon = true →
    let h := v.toNat % 2
    let t := s.put Reg.GLB_FW_CTRL_HALF v.toNat
    (v.getLsbD 1 = true → v.getLsbD 2 = false → v.getLsbD 3 = false →
      (s.acts p → t.loadRefused h = true → exec (.fwLoad p v) s = .next (t.put Reg.GLB_FW_STATUS_RESULT 6))
      ∧ (s.acts p → t.loadRefused h = false → ∃ u, exec (.fwLoad p v) s = .next u
          ∧ u.on (fwLoaded h) = false ∧ u.on (fwVerified h) = false ∧ u.on (fwGood h) = false ∧ u.on Reg.GLB_FW_STATUS_BUSY = true
          ∧ u.fw.load = some (h, s.get Reg.GLB_FW_SRC_LO_ADDR_LO * 4096 + s.get Reg.GLB_FW_SRC_HI_ADDR_HI * 2 ^ 32, s.get Reg.GLB_FW_LEN_BYTES)
          ∧ u.mem = s.mem ∧ u.sub = s.sub ∧ u.rpl = s.rpl))
    ∧ (v.getLsbD 1 = false → v.getLsbD 2 = true → v.getLsbD 3 = false →
        (s.acts p → t.fwRuns = true ∨ t.on (fwVerified h) = false → exec (.fwStart p v) s = .next (t.put Reg.GLB_FW_STATUS_RESULT 6))
        ∧ (s.acts p → t.fwRuns = false → t.on (fwVerified h) = true → exec (.fwStart p v) s = .next (t.modFw fun f => { f with start := some (h, s.now + 1) })))
    ∧ (v.getLsbD 1 = false → v.getLsbD 2 = false → v.getLsbD 3 = true →
        (p.fw = true → s.acts p → exec (.fwSwap p v) s = .next t.swapFw) ∧ (p.fw = false → exec (.fwSwap p v) s = .next (t.mark Reg.SUB_EVENT_HOST_DENIED)))
    ∧ (∀ k : Fin 8, p = .cp k → s.sec.halted.contains k.val = true → sget (fun _ => 0) s.sec.cpSteps k.val = 0 →
        ∀ x ∈ [Instr.fwLoad p v, .fwStart p v, .fwSwap p v, .registerWrite p addr v], exec x s = .next s)
    ∧ (let f := s.get64 Reg.GLB_FW_SWAP_LO_FRAME Reg.GLB_FW_SWAP_HI_FRAME
       let other := 1 - s.get Reg.SEC_STATUS_FW_HALF
       (s.on Reg.SEC_STATUS_FW_STARTED = true → s.on (fwVerified other) = true → s.frame + 2 ≤ f → s.fw.swap = none → s.swapFw
          = ((s.mark Reg.GLB_FW_CTRL_SWAP).mark Reg.GLB_FW_STATUS_SWAP_PENDING).modFw fun x => { x with swap := some f })
       ∧ (s.on (fwVerified other) = false ∨ f < s.frame + 2 ∨ s.fw.swap.isSome = true → s.swapFw = s))
    ∧ (∀ half src n, s.fw.load = some (half, src, n) →
        let ended := ((s.put Reg.GLB_FW_STATUS_BUSY 0).put Reg.GLB_FW_CTRL_LOAD 0).modFw fun f => { f with load := none }
        let copied := (ended.mark (fwLoaded half)).setImage half (some ⟨i.svn.toNat, i.digest.toNat⟩)
        (i.readError = true → exec (.fwLoadDone i) s = .next (ended.put Reg.GLB_FW_STATUS_RESULT 7))
        ∧ (i.readError = false → s.secState ≠ 3 → s.verifyImage i i.key.val (s.get Reg.SEC_FW_STATUS_SVN_MIN) = 1 → exec (.fwLoadDone i) s = .next
            (((copied.mark (fwVerified half)).put Reg.SEC_FW_STATUS_RESULT 1).put Reg.GLB_FW_STATUS_RESULT 1))
        ∧ (∀ r, i.readError = false → r ≠ 1 → s.verifyImage i i.key.val (s.get Reg.SEC_FW_STATUS_SVN_MIN) = r → exec (.fwLoadDone i) s = .next
            (((copied.mark Reg.SEC_EVENT_FW_REJECT).put Reg.SEC_FW_STATUS_RESULT r).put Reg.GLB_FW_STATUS_RESULT r)))
    ∧ (∀ f, s.fw.swap = some f → f ≤ s.frame → s.on Reg.SEC_STATUS_FW_STARTED = true → exec .fwHandover s = .next
        (((((s.put Reg.GLB_FW_CTRL_SWAP 0).put Reg.GLB_FW_STATUS_SWAP_PENDING 0).modFw fun x => { x with swap := none }).runFirmware
          (1 - s.get Reg.SEC_STATUS_FW_HALF)).mark Reg.GLB_EVENT_FW_SWAP_DONE))
    ∧ (let half := s.get Reg.SEC_STATUS_FW_HALF
       s.on Reg.SEC_STATUS_FW_STARTED = true → s.fw.since + 244141 ≤ s.now → exec .fwGood s = .next ((s.mark (fwGood half)).put (fwGood (1 - half)) 0))
    ∧ (s.idfortUp = true → i.readError = false → s.verifyImage i (4 + i.key.val) s.sec.idfortMin = 1 → exec (.idfortFwUpdate i) s = .next
        (s.modSec fun x => { x with idfortSvn := i.svn.toNat, idfortDigest := i.digest.toNat, idfortSince := s.now, spdm := [], conns := [], offers := [] }))
    ∧ (s.on Reg.GLB_CAL_CTRL_BUSY = false → v.getLsbD 6 = true → bitsOf v.toNat 1 5 < 16 →
        let go := ((((s.put Reg.GLB_CAL_CTRL_KIND v.toNat).put Reg.GLB_CAL_CTRL_INDEX (bitsOf v.toNat 1 5)).mark Reg.GLB_CAL_CTRL_BUSY).put
          Reg.GLB_CAL_CTRL_DONE 0).put Reg.GLB_CAL_CTRL_FAIL 0
        let n := bitsOf v.toNat 1 5
        (v.getLsbD 0 = false → s.on (Reg.OPT_PORT_STATUS_GAP n) = false → exec (.calPortRings .firmware v) s = .next (go.calEnd false))
        ∧ (v.getLsbD 0 = false → s.on (Reg.OPT_PORT_STATUS_GAP n) = true → exec (.calPortRings .firmware v) s = .next
            ((go.modOpt fun o => { o with cal := some (0, n, s.now), calOld := (portRings n).map fun k => (k, (s.tuner k).hcal) }).each (portRings n)
              fun t k => t.startSweep k 1))
        ∧ (v.getLsbD 0 = true → s.on (Reg.OPT_LC_STATUS_WARN n) = true → exec (.calCartridge .firmware v) s = .next (go.calEnd false)))
    ∧ (∀ n g, s.opt.cal = some (0, n, g) →
        ((∀ k ∈ portRings n, (s.tuner k).st = 4 ∧ (s.tuner k).attempt = 0) → exec .calDone s = .next ((s.each (portRings n) fun t k => t.modOpt fun o =>
            { o with calStore := sset (fun _ => none) o.calStore k (s.tuner k).hcal }).calEnd true))
        ∧ (∀ k ∈ portRings n, (s.tuner k).st = 6 → exec .calDone s = .next (s.restoreCal.calEnd false)))
    ∧ (s.acts p → Reg.rowAt (s.regKey addr.toNat) = none → exec (.registerWrite p addr v) s = .next s)
    ∧ (∀ r, Reg.rowAt (s.regKey addr.toNat) = some r → r.fields.any writable = true → (∀ f ∈ r.fields, writable f = true → f.fw = true) →
        exec (.registerWrite .host addr v) s = .next (s.mark Reg.SUB_EVENT_HOST_DENIED))
    ∧ (∀ r, Reg.rowAt (s.regKey addr.toNat) = some r → r.fields.any writable = true → r.base ∉ writeOps.map (·.1) →
        let old := (s.reg (s.regKey addr.toNat)).toNat
        exec (.registerWrite .firmware addr v) s = .next (s.afterWrite r.base (s.setReg (s.regKey addr.toNat)
          (BitVec.ofNat 32 (writeFields r.fields (s.admitted r.base (r.index (s.regKey addr.toNat)) old v.toNat) old)))))

end
end

