-- ==== Sys2Proof/Laws/Bits.lean ====
section
/-! SUPPORT. Laws of bit fields: a field written reads back, and fields that do not overlap are left alone. -/
namespace Sys2Proof

/-- A field is what testing its bits says. -/
theorem bitsOf_testBit (n lo w i : Nat) : (bitsOf n lo w).testBit i = (decide (i < w) && n.testBit (lo + i)) := by
  unfold bitsOf
  rw [Nat.testBit_mod_two_pow, ← Nat.shiftRight_eq_div_pow, Nat.testBit_shiftRight]

theorem bitsOf_lt (n lo w : Nat) : bitsOf n lo w < 2 ^ w := Nat.mod_lt _ (Nat.two_pow_pos w)

theorem bitsOf_zero_lo (n w : Nat) : bitsOf n 0 w = n % 2 ^ w := by simp [bitsOf]

/-- A number split at a field. -/
theorem split_field (n lo w : Nat) :
    n = n % 2 ^ lo + bitsOf n lo w * 2 ^ lo + n / 2 ^ (lo + w) * 2 ^ (lo + w) := by
  unfold bitsOf
  have h1 := Nat.mod_add_div n (2 ^ lo)
  have h2 := Nat.mod_add_div (n / 2 ^ lo) (2 ^ w)
  rw [Nat.div_div_eq_div_mul, ← Nat.pow_add] at h2
  calc n = n % 2 ^ lo + 2 ^ lo * (n / 2 ^ lo) := h1.symm
    _ = n % 2 ^ lo + 2 ^ lo * (n / 2 ^ lo % 2 ^ w + 2 ^ w * (n / 2 ^ (lo + w))) := by rw [h2]
    _ = _ := by rw [Nat.pow_add]; ring

theorem setBits_eq (n lo w v : Nat) :
    setBits n lo w v = n % 2 ^ lo + v % 2 ^ w * 2 ^ lo + n / 2 ^ (lo + w) * 2 ^ (lo + w) := by
  unfold setBits
  have h := split_field n lo w
  omega

/-- A field written reads back the value, to its width. -/
@[simp] theorem bitsOf_setBits_same (n lo w v : Nat) : bitsOf (setBits n lo w v) lo w = v % 2 ^ w := by
  rw [setBits_eq]
  unfold bitsOf
  have h1 : n % 2 ^ lo < 2 ^ lo := Nat.mod_lt _ (Nat.two_pow_pos lo)
  have h2 : n % 2 ^ lo + v % 2 ^ w * 2 ^ lo + n / 2 ^ (lo + w) * 2 ^ (lo + w)
      = n % 2 ^ lo + 2 ^ lo * (v % 2 ^ w + 2 ^ w * (n / 2 ^ (lo + w))) := by rw [Nat.pow_add]; ring
  rw [h2, Nat.add_mul_div_left _ _ (Nat.two_pow_pos lo), Nat.div_eq_of_lt h1, Nat.zero_add, Nat.add_mul_mod_self_left, Nat.mod_mod]

/-- A field below the one written. -/
theorem bitsOf_setBits_below {n lo w v lo' w' : Nat} (h : lo' + w' ≤ lo) : bitsOf (setBits n lo w v) lo' w' = bitsOf n lo' w' := by
  have key : setBits n lo w v % 2 ^ lo = n % 2 ^ lo := by
    rw [setBits_eq, Nat.pow_add]
    have h2 : n % 2 ^ lo + v % 2 ^ w * 2 ^ lo + n / (2 ^ lo * 2 ^ w) * (2 ^ lo * 2 ^ w)
      = n % 2 ^ lo + 2 ^ lo * (v % 2 ^ w + 2 ^ w * (n / (2 ^ lo * 2 ^ w))) := by ring
    rw [h2, Nat.add_mul_mod_self_left, Nat.mod_mod]
  apply Nat.eq_of_testBit_eq
  intro i
  rw [bitsOf_testBit, bitsOf_testBit]
  by_cases hi : i < w'
  · have e1 : (setBits n lo w v).testBit (lo' + i) = (setBits n lo w v % 2 ^ lo).testBit (lo' + i) := by
      rw [Nat.testBit_mod_two_pow]; simp; omega
    have e2 : n.testBit (lo' + i) = (n % 2 ^ lo).testBit (lo' + i) := by
      rw [Nat.testBit_mod_two_pow]; simp; omega
    rw [e1, e2, key]
  · simp [hi]

/-- A field above the one written. -/
theorem bitsOf_setBits_above {n lo w v lo' w' : Nat} (h : lo + w ≤ lo') : bitsOf (setBits n lo w v) lo' w' = bitsOf n lo' w' := by
  have key : setBits n lo w v / 2 ^ (lo + w) = n / 2 ^ (lo + w) := by
    rw [setBits_eq]
    have h1 : n % 2 ^ lo < 2 ^ lo := Nat.mod_lt _ (Nat.two_pow_pos lo)
    have h2 : v % 2 ^ w < 2 ^ w := Nat.mod_lt _ (Nat.two_pow_pos w)
    have h3 : n % 2 ^ lo + v % 2 ^ w * 2 ^ lo < 2 ^ (lo + w) := by
      rw [Nat.pow_add, Nat.mul_comm (2 ^ lo)]
      calc n % 2 ^ lo + v % 2 ^ w * 2 ^ lo < 2 ^ lo + v % 2 ^ w * 2 ^ lo := by omega
        _ = (v % 2 ^ w + 1) * 2 ^ lo := by ring
        _ ≤ 2 ^ w * 2 ^ lo := Nat.mul_le_mul_right _ h2
    rw [Nat.add_mul_div_right _ _ (Nat.two_pow_pos _), Nat.div_eq_of_lt h3, Nat.zero_add]
  unfold bitsOf
  obtain ⟨k, rfl⟩ := Nat.exists_eq_add_of_le h
  rw [Nat.pow_add, ← Nat.div_div_eq_div_mul, key, Nat.div_div_eq_div_mul, ← Nat.pow_add]

/-- A word stays a word when a field inside it is written. -/
theorem setBits_lt {n lo w v k : Nat} (hn : n < 2 ^ k) (h : lo + w ≤ k) : setBits n lo w v < 2 ^ k := by
  rw [setBits_eq]
  obtain ⟨j, rfl⟩ := Nat.exists_eq_add_of_le h
  have h1 : n % 2 ^ lo < 2 ^ lo := Nat.mod_lt _ (Nat.two_pow_pos lo)
  have h2 : v % 2 ^ w < 2 ^ w := Nat.mod_lt _ (Nat.two_pow_pos w)
  have h3 : n / 2 ^ (lo + w) < 2 ^ j := by
    rw [Nat.div_lt_iff_lt_mul (Nat.two_pow_pos _), ← Nat.pow_add]; rw [Nat.add_comm]; exact hn
  have h4 : n % 2 ^ lo + v % 2 ^ w * 2 ^ lo < 2 ^ (lo + w) := by
    rw [Nat.pow_add, Nat.mul_comm (2 ^ lo)]
    calc n % 2 ^ lo + v % 2 ^ w * 2 ^ lo < 2 ^ lo + v % 2 ^ w * 2 ^ lo := by omega
      _ = (v % 2 ^ w + 1) * 2 ^ lo := by ring
      _ ≤ 2 ^ w * 2 ^ lo := Nat.mul_le_mul_right _ h2
  calc n % 2 ^ lo + v % 2 ^ w * 2 ^ lo + n / 2 ^ (lo + w) * 2 ^ (lo + w)
      < 2 ^ (lo + w) + n / 2 ^ (lo + w) * 2 ^ (lo + w) := by omega
    _ = (n / 2 ^ (lo + w) + 1) * 2 ^ (lo + w) := by ring
    _ ≤ 2 ^ j * 2 ^ (lo + w) := Nat.mul_le_mul_right _ h3
    _ = 2 ^ (lo + w + j) := by rw [← Nat.pow_add]; congr 1; omega

end Sys2Proof
end

