-- ==== Sys2Proof/Laws/Sparse.lean ====
section
/-! SUPPORT. Laws of sparse maps: reading after writing, and the canonical form that every operation keeps. -/
namespace Sys2Proof

variable {β : Type} [DecidableEq β] {d : Nat → β}

/-- The canonical form from a higher bound is the form from a lower one. -/
theorem swfFrom_mono {m : Sparse β} {lo lo' : Nat} (h : swfFrom d lo m = true) (hl : lo' ≤ lo) : swfFrom d lo' m = true := by
  cases m with
  | nil => rfl
  | cons e m =>
    simp only [swfFrom, Bool.and_eq_true, decide_eq_true_eq] at h ⊢
    exact ⟨⟨by omega, h.1.2⟩, h.2⟩

/-- Below its first key a map in canonical form holds the defaults. -/
theorem sget_below {m : Sparse β} {lo k : Nat} (h : swfFrom d lo m = true) (hk : k < lo) : sget d m k = d k := by
  cases m with
  | nil => rfl
  | cons e m =>
    simp only [swfFrom, Bool.and_eq_true, decide_eq_true_eq] at h
    have h1 : k ≠ e.1 := by omega
    have h2 : k < e.1 := by omega
    simp [sget, h1, h2]

/-- A write keeps the canonical form from a bound that its key meets. -/
theorem swfFrom_sset {m : Sparse β} {lo k : Nat} {v : β} (h : swfFrom d lo m = true) (hk : lo ≤ k) :
    swfFrom d lo (sset d m k v) = true := by
  induction m generalizing lo with
  | nil =>
    by_cases hv : v = d k
    · simp [sset, hv, swfFrom]
    · simp [sset, hv, swfFrom, hk]
  | cons e m ih =>
    obtain ⟨a, w⟩ := e
    simp only [swfFrom, Bool.and_eq_true, decide_eq_true_eq, bne_iff_ne, ne_eq] at h
    obtain ⟨⟨h1, h2⟩, h3⟩ := h
    unfold sset
    split
    · split
      · simp [swfFrom, h1, h2, h3]
      · simp_all [swfFrom]
    · split
      · split
        · exact swfFrom_mono h3 (by omega)
        · simp_all [swfFrom]
      · simp only [swfFrom, Bool.and_eq_true, decide_eq_true_eq, bne_iff_ne, ne_eq]
        exact ⟨⟨h1, h2⟩, ih h3 (by omega)⟩

/-- A write keeps the canonical form. -/
@[simp] theorem swf_sset {m : Sparse β} {k : Nat} {v : β} (h : swf d m = true) : swf d (sset d m k v) = true :=
  swfFrom_sset h (Nat.zero_le k)

@[simp] theorem swf_nil : swf d ([] : Sparse β) = true := id rfl

/-- Removing entries keeps the canonical form. -/
theorem swfFrom_filter {m : Sparse β} {lo : Nat} (p : Nat × β → Bool) (h : swfFrom d lo m = true) :
    swfFrom d lo (m.filter p) = true := by
  induction m generalizing lo with
  | nil => rfl
  | cons e m ih =>
    simp only [swfFrom, Bool.and_eq_true, decide_eq_true_eq] at h
    rw [List.filter_cons]
    split
    · simp only [swfFrom, Bool.and_eq_true, decide_eq_true_eq]
      exact ⟨h.1, ih h.2⟩
    · exact ih (swfFrom_mono h.2 (by omega))

@[simp] theorem swf_filter {m : Sparse β} (p : Nat × β → Bool) (h : swf d m = true) : swf d (m.filter p) = true :=
  swfFrom_filter p h

@[simp] theorem swf_sclear {m : Sparse β} {lo hi : Nat} (h : swf d m = true) : swf d (sclear m lo hi) = true :=
  swfFrom_filter _ h

/-- A fold of updates that keep the canonical form keeps it. -/
@[simp] theorem swf_foldl {α : Type} {m : Sparse β} (l : List α) (f : Sparse β → α → Sparse β)
    (hf : ∀ m x, swf d m = true → swf d (f m x) = true) (h : swf d m = true) : swf d (l.foldl f m) = true := by
  induction l generalizing m with
  | nil => exact h
  | cons x l ih => exact ih (hf m x h)

/-- A read of the key written. -/
theorem sgetFrom_same {m : Sparse β} {lo k : Nat} {v : β} (h : swfFrom d lo m = true) : sget d (sset d m k v) k = v := by
  induction m generalizing lo with
  | nil => by_cases hv : v = d k <;> simp [sset, sget, hv]
  | cons e m ih =>
    obtain ⟨a, w⟩ := e
    simp only [swfFrom, Bool.and_eq_true, decide_eq_true_eq] at h
    unfold sset
    split
    · split
      · rename_i h1 h2
        have h3 : k ≠ a := by omega
        simp [sget, h1, h2, h3]
      · simp [sget]
    · split
      · split
        · rename_i h1 h2 h3
          rw [sget_below (lo := a + 1) h.2 (by omega), h3]
        · simp [sget]
      · rename_i h1 h2
        simp [sget, h1, h2, ih h.2]

/-- A read of another key. -/
theorem sgetFrom_ne {m : Sparse β} {lo k j : Nat} {v : β} (h : swfFrom d lo m = true) (hj : j ≠ k) :
    sget d (sset d m k v) j = sget d m j := by
  induction m generalizing lo with
  | nil =>
    by_cases hv : v = d k
    · simp [sset, hv]
    · simp [sset, hv, sget, hj]
  | cons e m ih =>
    obtain ⟨a, w⟩ := e
    simp only [swfFrom, Bool.and_eq_true, decide_eq_true_eq] at h
    unfold sset
    split
    · split
      · rfl
      · by_cases h1 : j < k
        · have h2 : j ≠ a := by omega
          have h3 : j < a := by omega
          simp [sget, hj, h1, h2, h3]
        · simp [sget, hj, h1]
    · split
      · rename_i h1 h2
        subst h2
        by_cases h3 : j < k
        · split
          · rw [sget_below (lo := k + 1) h.2 (by omega)]; simp [sget, hj, h3]
          · simp [sget, hj, h3]
        · split <;> simp [sget, hj, h3]
      · simp only [sget]
        rw [ih h.2]

/-- A read of the key written gives the value. -/
@[simp] theorem sget_sset_same {m : Sparse β} {k : Nat} {v : β} (h : swf d m = true) : sget d (sset d m k v) k = v :=
  sgetFrom_same h

/-- A write leaves what every other key holds. -/
theorem sget_sset_ne {m : Sparse β} {k j : Nat} {v : β} (h : swf d m = true) (hj : j ≠ k) :
    sget d (sset d m k v) j = sget d m j := sgetFrom_ne h hj

end Sys2Proof
end

