-- ==== Sys2Proof/Laws/State.lean ====
section
/-! SUPPORT. What each primitive update leaves alone: one law per update and field, all by definition. -/
namespace Sys2Proof.Machine

variable (s : State)

@[simp] theorem State.setReg_latch (a : Nat) (v : Word) : (s.setReg a v).latch = s.latch := rfl
@[simp] theorem State.setReg_lastRead (a : Nat) (v : Word) : (s.setReg a v).lastRead = s.lastRead := rfl
@[simp] theorem State.setReg_out (a : Nat) (v : Word) : (s.setReg a v).out = s.out := rfl
@[simp] theorem State.setReg_freeCtr (a : Nat) (v : Word) : (s.setReg a v).freeCtr = s.freeCtr := rfl
@[simp] theorem State.setReg_mem (a : Nat) (v : Word) : (s.setReg a v).mem = s.mem := rfl
@[simp] theorem State.setReg_poison (a : Nat) (v : Word) : (s.setReg a v).poison = s.poison := rfl
@[simp] theorem State.setReg_hostMem (a : Nat) (v : Word) : (s.setReg a v).hostMem = s.hostMem := rfl
@[simp] theorem State.setReg_time (a : Nat) (v : Word) : (s.setReg a v).time = s.time := rfl
@[simp] theorem State.setReg_cores (a : Nat) (v : Word) : (s.setReg a v).cores = s.cores := rfl
@[simp] theorem State.setReg_sub (a : Nat) (v : Word) : (s.setReg a v).sub = s.sub := rfl
@[simp] theorem State.setReg_syn (a : Nat) (v : Word) : (s.setReg a v).syn = s.syn := rfl
@[simp] theorem State.setReg_memx (a : Nat) (v : Word) : (s.setReg a v).memx = s.memx := rfl
@[simp] theorem State.setReg_rpl (a : Nat) (v : Word) : (s.setReg a v).rpl = s.rpl := rfl
@[simp] theorem State.setReg_ckp (a : Nat) (v : Word) : (s.setReg a v).ckp = s.ckp := rfl
@[simp] theorem State.setReg_integ (a : Nat) (v : Word) : (s.setReg a v).integ = s.integ := rfl
@[simp] theorem State.setReg_hrc (a : Nat) (v : Word) : (s.setReg a v).hrc = s.hrc := rfl
@[simp] theorem State.setReg_opt (a : Nat) (v : Word) : (s.setReg a v).opt = s.opt := rfl
@[simp] theorem State.setReg_fab (a : Nat) (v : Word) : (s.setReg a v).fab = s.fab := rfl
@[simp] theorem State.setReg_pins (a : Nat) (v : Word) : (s.setReg a v).pins = s.pins := rfl
@[simp] theorem State.setReg_sec (a : Nat) (v : Word) : (s.setReg a v).sec = s.sec := rfl
@[simp] theorem State.setReg_pow (a : Nat) (v : Word) : (s.setReg a v).pow = s.pow := rfl
@[simp] theorem State.setReg_snp (a : Nat) (v : Word) : (s.setReg a v).snp = s.snp := rfl
@[simp] theorem State.setReg_fw (a : Nat) (v : Word) : (s.setReg a v).fw = s.fw := rfl
@[simp] theorem State.setReg_pending (a : Nat) (v : Word) : (s.setReg a v).pending = s.pending := rfl
@[simp] theorem State.put_latch (f : Reg.Fld) (v : Nat) : (s.put f v).latch = s.latch := rfl
@[simp] theorem State.put_lastRead (f : Reg.Fld) (v : Nat) : (s.put f v).lastRead = s.lastRead := rfl
@[simp] theorem State.put_out (f : Reg.Fld) (v : Nat) : (s.put f v).out = s.out := rfl
@[simp] theorem State.put_freeCtr (f : Reg.Fld) (v : Nat) : (s.put f v).freeCtr = s.freeCtr := rfl
@[simp] theorem State.put_mem (f : Reg.Fld) (v : Nat) : (s.put f v).mem = s.mem := rfl
@[simp] theorem State.put_poison (f : Reg.Fld) (v : Nat) : (s.put f v).poison = s.poison := rfl
@[simp] theorem State.put_hostMem (f : Reg.Fld) (v : Nat) : (s.put f v).hostMem = s.hostMem := rfl
@[simp] theorem State.put_time (f : Reg.Fld) (v : Nat) : (s.put f v).time = s.time := rfl
@[simp] theorem State.put_cores (f : Reg.Fld) (v : Nat) : (s.put f v).cores = s.cores := rfl
@[simp] theorem State.put_sub (f : Reg.Fld) (v : Nat) : (s.put f v).sub = s.sub := rfl
@[simp] theorem State.put_syn (f : Reg.Fld) (v : Nat) : (s.put f v).syn = s.syn := rfl
@[simp] theorem State.put_memx (f : Reg.Fld) (v : Nat) : (s.put f v).memx = s.memx := rfl
@[simp] theorem State.put_rpl (f : Reg.Fld) (v : Nat) : (s.put f v).rpl = s.rpl := rfl
@[simp] theorem State.put_ckp (f : Reg.Fld) (v : Nat) : (s.put f v).ckp = s.ckp := rfl
@[simp] theorem State.put_integ (f : Reg.Fld) (v : Nat) : (s.put f v).integ = s.integ := rfl
@[simp] theorem State.put_hrc (f : Reg.Fld) (v : Nat) : (s.put f v).hrc = s.hrc := rfl
@[simp] theorem State.put_opt (f : Reg.Fld) (v : Nat) : (s.put f v).opt = s.opt := rfl
@[simp] theorem State.put_fab (f : Reg.Fld) (v : Nat) : (s.put f v).fab = s.fab := rfl
@[simp] theorem State.put_pins (f : Reg.Fld) (v : Nat) : (s.put f v).pins = s.pins := rfl
@[simp] theorem State.put_sec (f : Reg.Fld) (v : Nat) : (s.put f v).sec = s.sec := rfl
@[simp] theorem State.put_pow (f : Reg.Fld) (v : Nat) : (s.put f v).pow = s.pow := rfl
@[simp] theorem State.put_snp (f : Reg.Fld) (v : Nat) : (s.put f v).snp = s.snp := rfl
@[simp] theorem State.put_fw (f : Reg.Fld) (v : Nat) : (s.put f v).fw = s.fw := rfl
@[simp] theorem State.put_pending (f : Reg.Fld) (v : Nat) : (s.put f v).pending = s.pending := rfl
@[simp] theorem State.mark_latch (f : Reg.Fld) : (s.mark f).latch = s.latch := rfl
@[simp] theorem State.mark_lastRead (f : Reg.Fld) : (s.mark f).lastRead = s.lastRead := rfl
@[simp] theorem State.mark_out (f : Reg.Fld) : (s.mark f).out = s.out := rfl
@[simp] theorem State.mark_freeCtr (f : Reg.Fld) : (s.mark f).freeCtr = s.freeCtr := rfl
@[simp] theorem State.mark_mem (f : Reg.Fld) : (s.mark f).mem = s.mem := rfl
@[simp] theorem State.mark_poison (f : Reg.Fld) : (s.mark f).poison = s.poison := rfl
@[simp] theorem State.mark_hostMem (f : Reg.Fld) : (s.mark f).hostMem = s.hostMem := rfl
@[simp] theorem State.mark_time (f : Reg.Fld) : (s.mark f).time = s.time := rfl
@[simp] theorem State.mark_cores (f : Reg.Fld) : (s.mark f).cores = s.cores := rfl
@[simp] theorem State.mark_sub (f : Reg.Fld) : (s.mark f).sub = s.sub := rfl
@[simp] theorem State.mark_syn (f : Reg.Fld) : (s.mark f).syn = s.syn := rfl
@[simp] theorem State.mark_memx (f : Reg.Fld) : (s.mark f).memx = s.memx := rfl
@[simp] theorem State.mark_rpl (f : Reg.Fld) : (s.mark f).rpl = s.rpl := rfl
@[simp] theorem State.mark_ckp (f : Reg.Fld) : (s.mark f).ckp = s.ckp := rfl
@[simp] theorem State.mark_integ (f : Reg.Fld) : (s.mark f).integ = s.integ := rfl
@[simp] theorem State.mark_hrc (f : Reg.Fld) : (s.mark f).hrc = s.hrc := rfl
@[simp] theorem State.mark_opt (f : Reg.Fld) : (s.mark f).opt = s.opt := rfl
@[simp] theorem State.mark_fab (f : Reg.Fld) : (s.mark f).fab = s.fab := rfl
@[simp] theorem State.mark_pins (f : Reg.Fld) : (s.mark f).pins = s.pins := rfl
@[simp] theorem State.mark_sec (f : Reg.Fld) : (s.mark f).sec = s.sec := rfl
@[simp] theorem State.mark_pow (f : Reg.Fld) : (s.mark f).pow = s.pow := rfl
@[simp] theorem State.mark_snp (f : Reg.Fld) : (s.mark f).snp = s.snp := rfl
@[simp] theorem State.mark_fw (f : Reg.Fld) : (s.mark f).fw = s.fw := rfl
@[simp] theorem State.mark_pending (f : Reg.Fld) : (s.mark f).pending = s.pending := rfl
@[simp] theorem State.bump_latch (f : Reg.Fld) (n : Nat) : (s.bump f n).latch = s.latch := rfl
@[simp] theorem State.bump_lastRead (f : Reg.Fld) (n : Nat) : (s.bump f n).lastRead = s.lastRead := rfl
@[simp] theorem State.bump_out (f : Reg.Fld) (n : Nat) : (s.bump f n).out = s.out := rfl
@[simp] theorem State.bump_freeCtr (f : Reg.Fld) (n : Nat) : (s.bump f n).freeCtr = s.freeCtr := rfl
@[simp] theorem State.bump_mem (f : Reg.Fld) (n : Nat) : (s.bump f n).mem = s.mem := rfl
@[simp] theorem State.bump_poison (f : Reg.Fld) (n : Nat) : (s.bump f n).poison = s.poison := rfl
@[simp] theorem State.bump_hostMem (f : Reg.Fld) (n : Nat) : (s.bump f n).hostMem = s.hostMem := rfl
@[simp] theorem State.bump_time (f : Reg.Fld) (n : Nat) : (s.bump f n).time = s.time := rfl
@[simp] theorem State.bump_cores (f : Reg.Fld) (n : Nat) : (s.bump f n).cores = s.cores := rfl
@[simp] theorem State.bump_sub (f : Reg.Fld) (n : Nat) : (s.bump f n).sub = s.sub := rfl
@[simp] theorem State.bump_syn (f : Reg.Fld) (n : Nat) : (s.bump f n).syn = s.syn := rfl
@[simp] theorem State.bump_memx (f : Reg.Fld) (n : Nat) : (s.bump f n).memx = s.memx := rfl
@[simp] theorem State.bump_rpl (f : Reg.Fld) (n : Nat) : (s.bump f n).rpl = s.rpl := rfl
@[simp] theorem State.bump_ckp (f : Reg.Fld) (n : Nat) : (s.bump f n).ckp = s.ckp := rfl
@[simp] theorem State.bump_integ (f : Reg.Fld) (n : Nat) : (s.bump f n).integ = s.integ := rfl
@[simp] theorem State.bump_hrc (f : Reg.Fld) (n : Nat) : (s.bump f n).hrc = s.hrc := rfl
@[simp] theorem State.bump_opt (f : Reg.Fld) (n : Nat) : (s.bump f n).opt = s.opt := rfl
@[simp] theorem State.bump_fab (f : Reg.Fld) (n : Nat) : (s.bump f n).fab = s.fab := rfl
@[simp] theorem State.bump_pins (f : Reg.Fld) (n : Nat) : (s.bump f n).pins = s.pins := rfl
@[simp] theorem State.bump_sec (f : Reg.Fld) (n : Nat) : (s.bump f n).sec = s.sec := rfl
@[simp] theorem State.bump_pow (f : Reg.Fld) (n : Nat) : (s.bump f n).pow = s.pow := rfl
@[simp] theorem State.bump_snp (f : Reg.Fld) (n : Nat) : (s.bump f n).snp = s.snp := rfl
@[simp] theorem State.bump_fw (f : Reg.Fld) (n : Nat) : (s.bump f n).fw = s.fw := rfl
@[simp] theorem State.bump_pending (f : Reg.Fld) (n : Nat) : (s.bump f n).pending = s.pending := rfl
@[simp] theorem State.put64_latch (l h : Reg.Fld) (v : Nat) : (s.put64 l h v).latch = s.latch := rfl
@[simp] theorem State.put64_lastRead (l h : Reg.Fld) (v : Nat) : (s.put64 l h v).lastRead = s.lastRead := rfl
@[simp] theorem State.put64_out (l h : Reg.Fld) (v : Nat) : (s.put64 l h v).out = s.out := rfl
@[simp] theorem State.put64_freeCtr (l h : Reg.Fld) (v : Nat) : (s.put64 l h v).freeCtr = s.freeCtr := rfl
@[simp] theorem State.put64_mem (l h : Reg.Fld) (v : Nat) : (s.put64 l h v).mem = s.mem := rfl
@[simp] theorem State.put64_poison (l h : Reg.Fld) (v : Nat) : (s.put64 l h v).poison = s.poison := rfl
@[simp] theorem State.put64_hostMem (l h : Reg.Fld) (v : Nat) : (s.put64 l h v).hostMem = s.hostMem := rfl
@[simp] theorem State.put64_time (l h : Reg.Fld) (v : Nat) : (s.put64 l h v).time = s.time := rfl
@[simp] theorem State.put64_cores (l h : Reg.Fld) (v : Nat) : (s.put64 l h v).cores = s.cores := rfl
@[simp] theorem State.put64_sub (l h : Reg.Fld) (v : Nat) : (s.put64 l h v).sub = s.sub := rfl
@[simp] theorem State.put64_syn (l h : Reg.Fld) (v : Nat) : (s.put64 l h v).syn = s.syn := rfl
@[simp] theorem State.put64_memx (l h : Reg.Fld) (v : Nat) : (s.put64 l h v).memx = s.memx := rfl
@[simp] theorem State.put64_rpl (l h : Reg.Fld) (v : Nat) : (s.put64 l h v).rpl = s.rpl := rfl
@[simp] theorem State.put64_ckp (l h : Reg.Fld) (v : Nat) : (s.put64 l h v).ckp = s.ckp := rfl
@[simp] theorem State.put64_integ (l h : Reg.Fld) (v : Nat) : (s.put64 l h v).integ = s.integ := rfl
@[simp] theorem State.put64_hrc (l h : Reg.Fld) (v : Nat) : (s.put64 l h v).hrc = s.hrc := rfl
@[simp] theorem State.put64_opt (l h : Reg.Fld) (v : Nat) : (s.put64 l h v).opt = s.opt := rfl
@[simp] theorem State.put64_fab (l h : Reg.Fld) (v : Nat) : (s.put64 l h v).fab = s.fab := rfl
@[simp] theorem State.put64_pins (l h : Reg.Fld) (v : Nat) : (s.put64 l h v).pins = s.pins := rfl
@[simp] theorem State.put64_sec (l h : Reg.Fld) (v : Nat) : (s.put64 l h v).sec = s.sec := rfl
@[simp] theorem State.put64_pow (l h : Reg.Fld) (v : Nat) : (s.put64 l h v).pow = s.pow := rfl
@[simp] theorem State.put64_snp (l h : Reg.Fld) (v : Nat) : (s.put64 l h v).snp = s.snp := rfl
@[simp] theorem State.put64_fw (l h : Reg.Fld) (v : Nat) : (s.put64 l h v).fw = s.fw := rfl
@[simp] theorem State.put64_pending (l h : Reg.Fld) (v : Nat) : (s.put64 l h v).pending = s.pending := rfl
@[simp] theorem State.setLatch_regs (a : Nat) (v : Word) : (s.setLatch a v).regs = s.regs := rfl
@[simp] theorem State.setLatch_lastRead (a : Nat) (v : Word) : (s.setLatch a v).lastRead = s.lastRead := rfl
@[simp] theorem State.setLatch_out (a : Nat) (v : Word) : (s.setLatch a v).out = s.out := rfl
@[simp] theorem State.setLatch_freeCtr (a : Nat) (v : Word) : (s.setLatch a v).freeCtr = s.freeCtr := rfl
@[simp] theorem State.setLatch_mem (a : Nat) (v : Word) : (s.setLatch a v).mem = s.mem := rfl
@[simp] theorem State.setLatch_poison (a : Nat) (v : Word) : (s.setLatch a v).poison = s.poison := rfl
@[simp] theorem State.setLatch_hostMem (a : Nat) (v : Word) : (s.setLatch a v).hostMem = s.hostMem := rfl
@[simp] theorem State.setLatch_time (a : Nat) (v : Word) : (s.setLatch a v).time = s.time := rfl
@[simp] theorem State.setLatch_cores (a : Nat) (v : Word) : (s.setLatch a v).cores = s.cores := rfl
@[simp] theorem State.setLatch_sub (a : Nat) (v : Word) : (s.setLatch a v).sub = s.sub := rfl
@[simp] theorem State.setLatch_syn (a : Nat) (v : Word) : (s.setLatch a v).syn = s.syn := rfl
@[simp] theorem State.setLatch_memx (a : Nat) (v : Word) : (s.setLatch a v).memx = s.memx := rfl
@[simp] theorem State.setLatch_rpl (a : Nat) (v : Word) : (s.setLatch a v).rpl = s.rpl := rfl
@[simp] theorem State.setLatch_ckp (a : Nat) (v : Word) : (s.setLatch a v).ckp = s.ckp := rfl
@[simp] theorem State.setLatch_integ (a : Nat) (v : Word) : (s.setLatch a v).integ = s.integ := rfl
@[simp] theorem State.setLatch_hrc (a : Nat) (v : Word) : (s.setLatch a v).hrc = s.hrc := rfl
@[simp] theorem State.setLatch_opt (a : Nat) (v : Word) : (s.setLatch a v).opt = s.opt := rfl
@[simp] theorem State.setLatch_fab (a : Nat) (v : Word) : (s.setLatch a v).fab = s.fab := rfl
@[simp] theorem State.setLatch_pins (a : Nat) (v : Word) : (s.setLatch a v).pins = s.pins := rfl
@[simp] theorem State.setLatch_sec (a : Nat) (v : Word) : (s.setLatch a v).sec = s.sec := rfl
@[simp] theorem State.setLatch_pow (a : Nat) (v : Word) : (s.setLatch a v).pow = s.pow := rfl
@[simp] theorem State.setLatch_snp (a : Nat) (v : Word) : (s.setLatch a v).snp = s.snp := rfl
@[simp] theorem State.setLatch_fw (a : Nat) (v : Word) : (s.setLatch a v).fw = s.fw := rfl
@[simp] theorem State.setLatch_pending (a : Nat) (v : Word) : (s.setLatch a v).pending = s.pending := rfl
@[simp] theorem State.answer_regs (v : Word) : (s.answer v).regs = s.regs := rfl
@[simp] theorem State.answer_latch (v : Word) : (s.answer v).latch = s.latch := rfl
@[simp] theorem State.answer_out (v : Word) : (s.answer v).out = s.out := rfl
@[simp] theorem State.answer_freeCtr (v : Word) : (s.answer v).freeCtr = s.freeCtr := rfl
@[simp] theorem State.answer_mem (v : Word) : (s.answer v).mem = s.mem := rfl
@[simp] theorem State.answer_poison (v : Word) : (s.answer v).poison = s.poison := rfl
@[simp] theorem State.answer_hostMem (v : Word) : (s.answer v).hostMem = s.hostMem := rfl
@[simp] theorem State.answer_time (v : Word) : (s.answer v).time = s.time := rfl
@[simp] theorem State.answer_cores (v : Word) : (s.answer v).cores = s.cores := rfl
@[simp] theorem State.answer_sub (v : Word) : (s.answer v).sub = s.sub := rfl
@[simp] theorem State.answer_syn (v : Word) : (s.answer v).syn = s.syn := rfl
@[simp] theorem State.answer_memx (v : Word) : (s.answer v).memx = s.memx := rfl
@[simp] theorem State.answer_rpl (v : Word) : (s.answer v).rpl = s.rpl := rfl
@[simp] theorem State.answer_ckp (v : Word) : (s.answer v).ckp = s.ckp := rfl
@[simp] theorem State.answer_integ (v : Word) : (s.answer v).integ = s.integ := rfl
@[simp] theorem State.answer_hrc (v : Word) : (s.answer v).hrc = s.hrc := rfl
@[simp] theorem State.answer_opt (v : Word) : (s.answer v).opt = s.opt := rfl
@[simp] theorem State.answer_fab (v : Word) : (s.answer v).fab = s.fab := rfl
@[simp] theorem State.answer_pins (v : Word) : (s.answer v).pins = s.pins := rfl
@[simp] theorem State.answer_sec (v : Word) : (s.answer v).sec = s.sec := rfl
@[simp] theorem State.answer_pow (v : Word) : (s.answer v).pow = s.pow := rfl
@[simp] theorem State.answer_snp (v : Word) : (s.answer v).snp = s.snp := rfl
@[simp] theorem State.answer_fw (v : Word) : (s.answer v).fw = s.fw := rfl
@[simp] theorem State.answer_pending (v : Word) : (s.answer v).pending = s.pending := rfl
@[simp] theorem State.emit_regs (o : Out) : (s.emit o).regs = s.regs := rfl
@[simp] theorem State.emit_latch (o : Out) : (s.emit o).latch = s.latch := rfl
@[simp] theorem State.emit_lastRead (o : Out) : (s.emit o).lastRead = s.lastRead := rfl
@[simp] theorem State.emit_freeCtr (o : Out) : (s.emit o).freeCtr = s.freeCtr := rfl
@[simp] theorem State.emit_mem (o : Out) : (s.emit o).mem = s.mem := rfl
@[simp] theorem State.emit_poison (o : Out) : (s.emit o).poison = s.poison := rfl
@[simp] theorem State.emit_hostMem (o : Out) : (s.emit o).hostMem = s.hostMem := rfl
@[simp] theorem State.emit_time (o : Out) : (s.emit o).time = s.time := rfl
@[simp] theorem State.emit_cores (o : Out) : (s.emit o).cores = s.cores := rfl
@[simp] theorem State.emit_sub (o : Out) : (s.emit o).sub = s.sub := rfl
@[simp] theorem State.emit_syn (o : Out) : (s.emit o).syn = s.syn := rfl
@[simp] theorem State.emit_memx (o : Out) : (s.emit o).memx = s.memx := rfl
@[simp] theorem State.emit_rpl (o : Out) : (s.emit o).rpl = s.rpl := rfl
@[simp] theorem State.emit_ckp (o : Out) : (s.emit o).ckp = s.ckp := rfl
@[simp] theorem State.emit_integ (o : Out) : (s.emit o).integ = s.integ := rfl
@[simp] theorem State.emit_hrc (o : Out) : (s.emit o).hrc = s.hrc := rfl
@[simp] theorem State.emit_opt (o : Out) : (s.emit o).opt = s.opt := rfl
@[simp] theorem State.emit_fab (o : Out) : (s.emit o).fab = s.fab := rfl
@[simp] theorem State.emit_pins (o : Out) : (s.emit o).pins = s.pins := rfl
@[simp] theorem State.emit_sec (o : Out) : (s.emit o).sec = s.sec := rfl
@[simp] theorem State.emit_pow (o : Out) : (s.emit o).pow = s.pow := rfl
@[simp] theorem State.emit_snp (o : Out) : (s.emit o).snp = s.snp := rfl
@[simp] theorem State.emit_fw (o : Out) : (s.emit o).fw = s.fw := rfl
@[simp] theorem State.emit_pending (o : Out) : (s.emit o).pending = s.pending := rfl
@[simp] theorem State.setCore_regs (c : Nat) (v : Core) : (s.setCore c v).regs = s.regs := rfl
@[simp] theorem State.setCore_latch (c : Nat) (v : Core) : (s.setCore c v).latch = s.latch := rfl
@[simp] theorem State.setCore_lastRead (c : Nat) (v : Core) : (s.setCore c v).lastRead = s.lastRead := rfl
@[simp] theorem State.setCore_out (c : Nat) (v : Core) : (s.setCore c v).out = s.out := rfl
@[simp] theorem State.setCore_freeCtr (c : Nat) (v : Core) : (s.setCore c v).freeCtr = s.freeCtr := rfl
@[simp] theorem State.setCore_mem (c : Nat) (v : Core) : (s.setCore c v).mem = s.mem := rfl
@[simp] theorem State.setCore_poison (c : Nat) (v : Core) : (s.setCore c v).poison = s.poison := rfl
@[simp] theorem State.setCore_hostMem (c : Nat) (v : Core) : (s.setCore c v).hostMem = s.hostMem := rfl
@[simp] theorem State.setCore_time (c : Nat) (v : Core) : (s.setCore c v).time = s.time := rfl
@[simp] theorem State.setCore_sub (c : Nat) (v : Core) : (s.setCore c v).sub = s.sub := rfl
@[simp] theorem State.setCore_syn (c : Nat) (v : Core) : (s.setCore c v).syn = s.syn := rfl
@[simp] theorem State.setCore_memx (c : Nat) (v : Core) : (s.setCore c v).memx = s.memx := rfl
@[simp] theorem State.setCore_rpl (c : Nat) (v : Core) : (s.setCore c v).rpl = s.rpl := rfl
@[simp] theorem State.setCore_ckp (c : Nat) (v : Core) : (s.setCore c v).ckp = s.ckp := rfl
@[simp] theorem State.setCore_integ (c : Nat) (v : Core) : (s.setCore c v).integ = s.integ := rfl
@[simp] theorem State.setCore_hrc (c : Nat) (v : Core) : (s.setCore c v).hrc = s.hrc := rfl
@[simp] theorem State.setCore_opt (c : Nat) (v : Core) : (s.setCore c v).opt = s.opt := rfl
@[simp] theorem State.setCore_fab (c : Nat) (v : Core) : (s.setCore c v).fab = s.fab := rfl
@[simp] theorem State.setCore_pins (c : Nat) (v : Core) : (s.setCore c v).pins = s.pins := rfl
@[simp] theorem State.setCore_sec (c : Nat) (v : Core) : (s.setCore c v).sec = s.sec := rfl
@[simp] theorem State.setCore_pow (c : Nat) (v : Core) : (s.setCore c v).pow = s.pow := rfl
@[simp] theorem State.setCore_snp (c : Nat) (v : Core) : (s.setCore c v).snp = s.snp := rfl
@[simp] theorem State.setCore_fw (c : Nat) (v : Core) : (s.setCore c v).fw = s.fw := rfl
@[simp] theorem State.setCore_pending (c : Nat) (v : Core) : (s.setCore c v).pending = s.pending := rfl
@[simp] theorem State.modCore_regs (c : Nat) (f : Core → Core) : (s.modCore c f).regs = s.regs := rfl
@[simp] theorem State.modCore_latch (c : Nat) (f : Core → Core) : (s.modCore c f).latch = s.latch := rfl
@[simp] theorem State.modCore_lastRead (c : Nat) (f : Core → Core) : (s.modCore c f).lastRead = s.lastRead := rfl
@[simp] theorem State.modCore_out (c : Nat) (f : Core → Core) : (s.modCore c f).out = s.out := rfl
@[simp] theorem State.modCore_freeCtr (c : Nat) (f : Core → Core) : (s.modCore c f).freeCtr = s.freeCtr := rfl
@[simp] theorem State.modCore_mem (c : Nat) (f : Core → Core) : (s.modCore c f).mem = s.mem := rfl
@[simp] theorem State.modCore_poison (c : Nat) (f : Core → Core) : (s.modCore c f).poison = s.poison := rfl
@[simp] theorem State.modCore_hostMem (c : Nat) (f : Core → Core) : (s.modCore c f).hostMem = s.hostMem := rfl
@[simp] theorem State.modCore_time (c : Nat) (f : Core → Core) : (s.modCore c f).time = s.time := rfl
@[simp] theorem State.modCore_sub (c : Nat) (f : Core → Core) : (s.modCore c f).sub = s.sub := rfl
@[simp] theorem State.modCore_syn (c : Nat) (f : Core → Core) : (s.modCore c f).syn = s.syn := rfl
@[simp] theorem State.modCore_memx (c : Nat) (f : Core → Core) : (s.modCore c f).memx = s.memx := rfl
@[simp] theorem State.modCore_rpl (c : Nat) (f : Core → Core) : (s.modCore c f).rpl = s.rpl := rfl
@[simp] theorem State.modCore_ckp (c : Nat) (f : Core → Core) : (s.modCore c f).ckp = s.ckp := rfl
@[simp] theorem State.modCore_integ (c : Nat) (f : Core → Core) : (s.modCore c f).integ = s.integ := rfl
@[simp] theorem State.modCore_hrc (c : Nat) (f : Core → Core) : (s.modCore c f).hrc = s.hrc := rfl
@[simp] theorem State.modCore_opt (c : Nat) (f : Core → Core) : (s.modCore c f).opt = s.opt := rfl
@[simp] theorem State.modCore_fab (c : Nat) (f : Core → Core) : (s.modCore c f).fab = s.fab := rfl
@[simp] theorem State.modCore_pins (c : Nat) (f : Core → Core) : (s.modCore c f).pins = s.pins := rfl
@[simp] theorem State.modCore_sec (c : Nat) (f : Core → Core) : (s.modCore c f).sec = s.sec := rfl
@[simp] theorem State.modCore_pow (c : Nat) (f : Core → Core) : (s.modCore c f).pow = s.pow := rfl
@[simp] theorem State.modCore_snp (c : Nat) (f : Core → Core) : (s.modCore c f).snp = s.snp := rfl
@[simp] theorem State.modCore_fw (c : Nat) (f : Core → Core) : (s.modCore c f).fw = s.fw := rfl
@[simp] theorem State.modCore_pending (c : Nat) (f : Core → Core) : (s.modCore c f).pending = s.pending := rfl
@[simp] theorem State.setRing_regs (r : Nat) (v : RingX) : (s.setRing r v).regs = s.regs := rfl
@[simp] theorem State.setRing_latch (r : Nat) (v : RingX) : (s.setRing r v).latch = s.latch := rfl
@[simp] theorem State.setRing_lastRead (r : Nat) (v : RingX) : (s.setRing r v).lastRead = s.lastRead := rfl
@[simp] theorem State.setRing_out (r : Nat) (v : RingX) : (s.setRing r v).out = s.out := rfl
@[simp] theorem State.setRing_freeCtr (r : Nat) (v : RingX) : (s.setRing r v).freeCtr = s.freeCtr := rfl
@[simp] theorem State.setRing_mem (r : Nat) (v : RingX) : (s.setRing r v).mem = s.mem := rfl
@[simp] theorem State.setRing_poison (r : Nat) (v : RingX) : (s.setRing r v).poison = s.poison := rfl
@[simp] theorem State.setRing_hostMem (r : Nat) (v : RingX) : (s.setRing r v).hostMem = s.hostMem := rfl
@[simp] theorem State.setRing_time (r : Nat) (v : RingX) : (s.setRing r v).time = s.time := rfl
@[simp] theorem State.setRing_cores (r : Nat) (v : RingX) : (s.setRing r v).cores = s.cores := rfl
@[simp] theorem State.setRing_syn (r : Nat) (v : RingX) : (s.setRing r v).syn = s.syn := rfl
@[simp] theorem State.setRing_memx (r : Nat) (v : RingX) : (s.setRing r v).memx = s.memx := rfl
@[simp] theorem State.setRing_rpl (r : Nat) (v : RingX) : (s.setRing r v).rpl = s.rpl := rfl
@[simp] theorem State.setRing_ckp (r : Nat) (v : RingX) : (s.setRing r v).ckp = s.ckp := rfl
@[simp] theorem State.setRing_integ (r : Nat) (v : RingX) : (s.setRing r v).integ = s.integ := rfl
@[simp] theorem State.setRing_hrc (r : Nat) (v : RingX) : (s.setRing r v).hrc = s.hrc := rfl
@[simp] theorem State.setRing_opt (r : Nat) (v : RingX) : (s.setRing r v).opt = s.opt := rfl
@[simp] theorem State.setRing_fab (r : Nat) (v : RingX) : (s.setRing r v).fab = s.fab := rfl
@[simp] theorem State.setRing_pins (r : Nat) (v : RingX) : (s.setRing r v).pins = s.pins := rfl
@[simp] theorem State.setRing_sec (r : Nat) (v : RingX) : (s.setRing r v).sec = s.sec := rfl
@[simp] theorem State.setRing_pow (r : Nat) (v : RingX) : (s.setRing r v).pow = s.pow := rfl
@[simp] theorem State.setRing_snp (r : Nat) (v : RingX) : (s.setRing r v).snp = s.snp := rfl
@[simp] theorem State.setRing_fw (r : Nat) (v : RingX) : (s.setRing r v).fw = s.fw := rfl
@[simp] theorem State.setRing_pending (r : Nat) (v : RingX) : (s.setRing r v).pending = s.pending := rfl
@[simp] theorem State.modRing_regs (r : Nat) (f : RingX → RingX) : (s.modRing r f).regs = s.regs := rfl
@[simp] theorem State.modRing_latch (r : Nat) (f : RingX → RingX) : (s.modRing r f).latch = s.latch := rfl
@[simp] theorem State.modRing_lastRead (r : Nat) (f : RingX → RingX) : (s.modRing r f).lastRead = s.lastRead := rfl
@[simp] theorem State.modRing_out (r : Nat) (f : RingX → RingX) : (s.modRing r f).out = s.out := rfl
@[simp] theorem State.modRing_freeCtr (r : Nat) (f : RingX → RingX) : (s.modRing r f).freeCtr = s.freeCtr := rfl
@[simp] theorem State.modRing_mem (r : Nat) (f : RingX → RingX) : (s.modRing r f).mem = s.mem := rfl
@[simp] theorem State.modRing_poison (r : Nat) (f : RingX → RingX) : (s.modRing r f).poison = s.poison := rfl
@[simp] theorem State.modRing_hostMem (r : Nat) (f : RingX → RingX) : (s.modRing r f).hostMem = s.hostMem := rfl
@[simp] theorem State.modRing_time (r : Nat) (f : RingX → RingX) : (s.modRing r f).time = s.time := rfl
@[simp] theorem State.modRing_cores (r : Nat) (f : RingX → RingX) : (s.modRing r f).cores = s.cores := rfl
@[simp] theorem State.modRing_syn (r : Nat) (f : RingX → RingX) : (s.modRing r f).syn = s.syn := rfl
@[simp] theorem State.modRing_memx (r : Nat) (f : RingX → RingX) : (s.modRing r f).memx = s.memx := rfl
@[simp] theorem State.modRing_rpl (r : Nat) (f : RingX → RingX) : (s.modRing r f).rpl = s.rpl := rfl
@[simp] theorem State.modRing_ckp (r : Nat) (f : RingX → RingX) : (s.modRing r f).ckp = s.ckp := rfl
@[simp] theorem State.modRing_integ (r : Nat) (f : RingX → RingX) : (s.modRing r f).integ = s.integ := rfl
@[simp] theorem State.modRing_hrc (r : Nat) (f : RingX → RingX) : (s.modRing r f).hrc = s.hrc := rfl
@[simp] theorem State.modRing_opt (r : Nat) (f : RingX → RingX) : (s.modRing r f).opt = s.opt := rfl
@[simp] theorem State.modRing_fab (r : Nat) (f : RingX → RingX) : (s.modRing r f).fab = s.fab := rfl
@[simp] theorem State.modRing_pins (r : Nat) (f : RingX → RingX) : (s.modRing r f).pins = s.pins := rfl
@[simp] theorem State.modRing_sec (r : Nat) (f : RingX → RingX) : (s.modRing r f).sec = s.sec := rfl
@[simp] theorem State.modRing_pow (r : Nat) (f : RingX → RingX) : (s.modRing r f).pow = s.pow := rfl
@[simp] theorem State.modRing_snp (r : Nat) (f : RingX → RingX) : (s.modRing r f).snp = s.snp := rfl
@[simp] theorem State.modRing_fw (r : Nat) (f : RingX → RingX) : (s.modRing r f).fw = s.fw := rfl
@[simp] theorem State.modRing_pending (r : Nat) (f : RingX → RingX) : (s.modRing r f).pending = s.pending := rfl
@[simp] theorem State.setChan_regs (n : Nat) (v : Chan) : (s.setChan n v).regs = s.regs := rfl
@[simp] theorem State.setChan_latch (n : Nat) (v : Chan) : (s.setChan n v).latch = s.latch := rfl
@[simp] theorem State.setChan_lastRead (n : Nat) (v : Chan) : (s.setChan n v).lastRead = s.lastRead := rfl
@[simp] theorem State.setChan_out (n : Nat) (v : Chan) : (s.setChan n v).out = s.out := rfl
@[simp] theorem State.setChan_freeCtr (n : Nat) (v : Chan) : (s.setChan n v).freeCtr = s.freeCtr := rfl
@[simp] theorem State.setChan_mem (n : Nat) (v : Chan) : (s.setChan n v).mem = s.mem := rfl
@[simp] theorem State.setChan_poison (n : Nat) (v : Chan) : (s.setChan n v).poison = s.poison := rfl
@[simp] theorem State.setChan_hostMem (n : Nat) (v : Chan) : (s.setChan n v).hostMem = s.hostMem := rfl
@[simp] theorem State.setChan_time (n : Nat) (v : Chan) : (s.setChan n v).time = s.time := rfl
@[simp] theorem State.setChan_cores (n : Nat) (v : Chan) : (s.setChan n v).cores = s.cores := rfl
@[simp] theorem State.setChan_syn (n : Nat) (v : Chan) : (s.setChan n v).syn = s.syn := rfl
@[simp] theorem State.setChan_memx (n : Nat) (v : Chan) : (s.setChan n v).memx = s.memx := rfl
@[simp] theorem State.setChan_rpl (n : Nat) (v : Chan) : (s.setChan n v).rpl = s.rpl := rfl
@[simp] theorem State.setChan_ckp (n : Nat) (v : Chan) : (s.setChan n v).ckp = s.ckp := rfl
@[simp] theorem State.setChan_integ (n : Nat) (v : Chan) : (s.setChan n v).integ = s.integ := rfl
@[simp] theorem State.setChan_hrc (n : Nat) (v : Chan) : (s.setChan n v).hrc = s.hrc := rfl
@[simp] theorem State.setChan_opt (n : Nat) (v : Chan) : (s.setChan n v).opt = s.opt := rfl
@[simp] theorem State.setChan_fab (n : Nat) (v : Chan) : (s.setChan n v).fab = s.fab := rfl
@[simp] theorem State.setChan_pins (n : Nat) (v : Chan) : (s.setChan n v).pins = s.pins := rfl
@[simp] theorem State.setChan_sec (n : Nat) (v : Chan) : (s.setChan n v).sec = s.sec := rfl
@[simp] theorem State.setChan_pow (n : Nat) (v : Chan) : (s.setChan n v).pow = s.pow := rfl
@[simp] theorem State.setChan_snp (n : Nat) (v : Chan) : (s.setChan n v).snp = s.snp := rfl
@[simp] theorem State.setChan_fw (n : Nat) (v : Chan) : (s.setChan n v).fw = s.fw := rfl
@[simp] theorem State.setChan_pending (n : Nat) (v : Chan) : (s.setChan n v).pending = s.pending := rfl
@[simp] theorem State.setOps_regs (l : List Op) : (s.setOps l).regs = s.regs := rfl
@[simp] theorem State.setOps_latch (l : List Op) : (s.setOps l).latch = s.latch := rfl
@[simp] theorem State.setOps_lastRead (l : List Op) : (s.setOps l).lastRead = s.lastRead := rfl
@[simp] theorem State.setOps_out (l : List Op) : (s.setOps l).out = s.out := rfl
@[simp] theorem State.setOps_freeCtr (l : List Op) : (s.setOps l).freeCtr = s.freeCtr := rfl
@[simp] theorem State.setOps_mem (l : List Op) : (s.setOps l).mem = s.mem := rfl
@[simp] theorem State.setOps_poison (l : List Op) : (s.setOps l).poison = s.poison := rfl
@[simp] theorem State.setOps_hostMem (l : List Op) : (s.setOps l).hostMem = s.hostMem := rfl
@[simp] theorem State.setOps_time (l : List Op) : (s.setOps l).time = s.time := rfl
@[simp] theorem State.setOps_cores (l : List Op) : (s.setOps l).cores = s.cores := rfl
@[simp] theorem State.setOps_syn (l : List Op) : (s.setOps l).syn = s.syn := rfl
@[simp] theorem State.setOps_memx (l : List Op) : (s.setOps l).memx = s.memx := rfl
@[simp] theorem State.setOps_rpl (l : List Op) : (s.setOps l).rpl = s.rpl := rfl
@[simp] theorem State.setOps_ckp (l : List Op) : (s.setOps l).ckp = s.ckp := rfl
@[simp] theorem State.setOps_integ (l : List Op) : (s.setOps l).integ = s.integ := rfl
@[simp] theorem State.setOps_hrc (l : List Op) : (s.setOps l).hrc = s.hrc := rfl
@[simp] theorem State.setOps_opt (l : List Op) : (s.setOps l).opt = s.opt := rfl
@[simp] theorem State.setOps_fab (l : List Op) : (s.setOps l).fab = s.fab := rfl
@[simp] theorem State.setOps_pins (l : List Op) : (s.setOps l).pins = s.pins := rfl
@[simp] theorem State.setOps_sec (l : List Op) : (s.setOps l).sec = s.sec := rfl
@[simp] theorem State.setOps_pow (l : List Op) : (s.setOps l).pow = s.pow := rfl
@[simp] theorem State.setOps_snp (l : List Op) : (s.setOps l).snp = s.snp := rfl
@[simp] theorem State.setOps_fw (l : List Op) : (s.setOps l).fw = s.fw := rfl
@[simp] theorem State.setOps_pending (l : List Op) : (s.setOps l).pending = s.pending := rfl
@[simp] theorem State.modOp_regs (r i : Nat) (f : Op → Op) : (s.modOp r i f).regs = s.regs := rfl
@[simp] theorem State.modOp_latch (r i : Nat) (f : Op → Op) : (s.modOp r i f).latch = s.latch := rfl
@[simp] theorem State.modOp_lastRead (r i : Nat) (f : Op → Op) : (s.modOp r i f).lastRead = s.lastRead := rfl
@[simp] theorem State.modOp_out (r i : Nat) (f : Op → Op) : (s.modOp r i f).out = s.out := rfl
@[simp] theorem State.modOp_freeCtr (r i : Nat) (f : Op → Op) : (s.modOp r i f).freeCtr = s.freeCtr := rfl
@[simp] theorem State.modOp_mem (r i : Nat) (f : Op → Op) : (s.modOp r i f).mem = s.mem := rfl
@[simp] theorem State.modOp_poison (r i : Nat) (f : Op → Op) : (s.modOp r i f).poison = s.poison := rfl
@[simp] theorem State.modOp_hostMem (r i : Nat) (f : Op → Op) : (s.modOp r i f).hostMem = s.hostMem := rfl
@[simp] theorem State.modOp_time (r i : Nat) (f : Op → Op) : (s.modOp r i f).time = s.time := rfl
@[simp] theorem State.modOp_cores (r i : Nat) (f : Op → Op) : (s.modOp r i f).cores = s.cores := rfl
@[simp] theorem State.modOp_syn (r i : Nat) (f : Op → Op) : (s.modOp r i f).syn = s.syn := rfl
@[simp] theorem State.modOp_memx (r i : Nat) (f : Op → Op) : (s.modOp r i f).memx = s.memx := rfl
@[simp] theorem State.modOp_rpl (r i : Nat) (f : Op → Op) : (s.modOp r i f).rpl = s.rpl := rfl
@[simp] theorem State.modOp_ckp (r i : Nat) (f : Op → Op) : (s.modOp r i f).ckp = s.ckp := rfl
@[simp] theorem State.modOp_integ (r i : Nat) (f : Op → Op) : (s.modOp r i f).integ = s.integ := rfl
@[simp] theorem State.modOp_hrc (r i : Nat) (f : Op → Op) : (s.modOp r i f).hrc = s.hrc := rfl
@[simp] theorem State.modOp_opt (r i : Nat) (f : Op → Op) : (s.modOp r i f).opt = s.opt := rfl
@[simp] theorem State.modOp_fab (r i : Nat) (f : Op → Op) : (s.modOp r i f).fab = s.fab := rfl
@[simp] theorem State.modOp_pins (r i : Nat) (f : Op → Op) : (s.modOp r i f).pins = s.pins := rfl
@[simp] theorem State.modOp_sec (r i : Nat) (f : Op → Op) : (s.modOp r i f).sec = s.sec := rfl
@[simp] theorem State.modOp_pow (r i : Nat) (f : Op → Op) : (s.modOp r i f).pow = s.pow := rfl
@[simp] theorem State.modOp_snp (r i : Nat) (f : Op → Op) : (s.modOp r i f).snp = s.snp := rfl
@[simp] theorem State.modOp_fw (r i : Nat) (f : Op → Op) : (s.modOp r i f).fw = s.fw := rfl
@[simp] theorem State.modOp_pending (r i : Nat) (f : Op → Op) : (s.modOp r i f).pending = s.pending := rfl
@[simp] theorem State.dropOp_regs (r i : Nat) : (s.dropOp r i).regs = s.regs := rfl
@[simp] theorem State.dropOp_latch (r i : Nat) : (s.dropOp r i).latch = s.latch := rfl
@[simp] theorem State.dropOp_lastRead (r i : Nat) : (s.dropOp r i).lastRead = s.lastRead := rfl
@[simp] theorem State.dropOp_out (r i : Nat) : (s.dropOp r i).out = s.out := rfl
@[simp] theorem State.dropOp_freeCtr (r i : Nat) : (s.dropOp r i).freeCtr = s.freeCtr := rfl
@[simp] theorem State.dropOp_mem (r i : Nat) : (s.dropOp r i).mem = s.mem := rfl
@[simp] theorem State.dropOp_poison (r i : Nat) : (s.dropOp r i).poison = s.poison := rfl
@[simp] theorem State.dropOp_hostMem (r i : Nat) : (s.dropOp r i).hostMem = s.hostMem := rfl
@[simp] theorem State.dropOp_time (r i : Nat) : (s.dropOp r i).time = s.time := rfl
@[simp] theorem State.dropOp_cores (r i : Nat) : (s.dropOp r i).cores = s.cores := rfl
@[simp] theorem State.dropOp_syn (r i : Nat) : (s.dropOp r i).syn = s.syn := rfl
@[simp] theorem State.dropOp_memx (r i : Nat) : (s.dropOp r i).memx = s.memx := rfl
@[simp] theorem State.dropOp_rpl (r i : Nat) : (s.dropOp r i).rpl = s.rpl := rfl
@[simp] theorem State.dropOp_ckp (r i : Nat) : (s.dropOp r i).ckp = s.ckp := rfl
@[simp] theorem State.dropOp_integ (r i : Nat) : (s.dropOp r i).integ = s.integ := rfl
@[simp] theorem State.dropOp_hrc (r i : Nat) : (s.dropOp r i).hrc = s.hrc := rfl
@[simp] theorem State.dropOp_opt (r i : Nat) : (s.dropOp r i).opt = s.opt := rfl
@[simp] theorem State.dropOp_fab (r i : Nat) : (s.dropOp r i).fab = s.fab := rfl
@[simp] theorem State.dropOp_pins (r i : Nat) : (s.dropOp r i).pins = s.pins := rfl
@[simp] theorem State.dropOp_sec (r i : Nat) : (s.dropOp r i).sec = s.sec := rfl
@[simp] theorem State.dropOp_pow (r i : Nat) : (s.dropOp r i).pow = s.pow := rfl
@[simp] theorem State.dropOp_snp (r i : Nat) : (s.dropOp r i).snp = s.snp := rfl
@[simp] theorem State.dropOp_fw (r i : Nat) : (s.dropOp r i).fw = s.fw := rfl
@[simp] theorem State.dropOp_pending (r i : Nat) : (s.dropOp r i).pending = s.pending := rfl
@[simp] theorem State.setObj_regs (o : Nat) (v : SyncObj) : (s.setObj o v).regs = s.regs := rfl
@[simp] theorem State.setObj_latch (o : Nat) (v : SyncObj) : (s.setObj o v).latch = s.latch := rfl
@[simp] theorem State.setObj_lastRead (o : Nat) (v : SyncObj) : (s.setObj o v).lastRead = s.lastRead := rfl
@[simp] theorem State.setObj_out (o : Nat) (v : SyncObj) : (s.setObj o v).out = s.out := rfl
@[simp] theorem State.setObj_freeCtr (o : Nat) (v : SyncObj) : (s.setObj o v).freeCtr = s.freeCtr := rfl
@[simp] theorem State.setObj_mem (o : Nat) (v : SyncObj) : (s.setObj o v).mem = s.mem := rfl
@[simp] theorem State.setObj_poison (o : Nat) (v : SyncObj) : (s.setObj o v).poison = s.poison := rfl
@[simp] theorem State.setObj_hostMem (o : Nat) (v : SyncObj) : (s.setObj o v).hostMem = s.hostMem := rfl
@[simp] theorem State.setObj_time (o : Nat) (v : SyncObj) : (s.setObj o v).time = s.time := rfl
@[simp] theorem State.setObj_cores (o : Nat) (v : SyncObj) : (s.setObj o v).cores = s.cores := rfl
@[simp] theorem State.setObj_sub (o : Nat) (v : SyncObj) : (s.setObj o v).sub = s.sub := rfl
@[simp] theorem State.setObj_memx (o : Nat) (v : SyncObj) : (s.setObj o v).memx = s.memx := rfl
@[simp] theorem State.setObj_rpl (o : Nat) (v : SyncObj) : (s.setObj o v).rpl = s.rpl := rfl
@[simp] theorem State.setObj_ckp (o : Nat) (v : SyncObj) : (s.setObj o v).ckp = s.ckp := rfl
@[simp] theorem State.setObj_integ (o : Nat) (v : SyncObj) : (s.setObj o v).integ = s.integ := rfl
@[simp] theorem State.setObj_hrc (o : Nat) (v : SyncObj) : (s.setObj o v).hrc = s.hrc := rfl
@[simp] theorem State.setObj_opt (o : Nat) (v : SyncObj) : (s.setObj o v).opt = s.opt := rfl
@[simp] theorem State.setObj_fab (o : Nat) (v : SyncObj) : (s.setObj o v).fab = s.fab := rfl
@[simp] theorem State.setObj_pins (o : Nat) (v : SyncObj) : (s.setObj o v).pins = s.pins := rfl
@[simp] theorem State.setObj_sec (o : Nat) (v : SyncObj) : (s.setObj o v).sec = s.sec := rfl
@[simp] theorem State.setObj_pow (o : Nat) (v : SyncObj) : (s.setObj o v).pow = s.pow := rfl
@[simp] theorem State.setObj_snp (o : Nat) (v : SyncObj) : (s.setObj o v).snp = s.snp := rfl
@[simp] theorem State.setObj_fw (o : Nat) (v : SyncObj) : (s.setObj o v).fw = s.fw := rfl
@[simp] theorem State.setObj_pending (o : Nat) (v : SyncObj) : (s.setObj o v).pending = s.pending := rfl
@[simp] theorem State.setNbr_regs (p : Nat) (v : Nbr) : (s.setNbr p v).regs = s.regs := rfl
@[simp] theorem State.setNbr_latch (p : Nat) (v : Nbr) : (s.setNbr p v).latch = s.latch := rfl
@[simp] theorem State.setNbr_lastRead (p : Nat) (v : Nbr) : (s.setNbr p v).lastRead = s.lastRead := rfl
@[simp] theorem State.setNbr_out (p : Nat) (v : Nbr) : (s.setNbr p v).out = s.out := rfl
@[simp] theorem State.setNbr_freeCtr (p : Nat) (v : Nbr) : (s.setNbr p v).freeCtr = s.freeCtr := rfl
@[simp] theorem State.setNbr_mem (p : Nat) (v : Nbr) : (s.setNbr p v).mem = s.mem := rfl
@[simp] theorem State.setNbr_poison (p : Nat) (v : Nbr) : (s.setNbr p v).poison = s.poison := rfl
@[simp] theorem State.setNbr_hostMem (p : Nat) (v : Nbr) : (s.setNbr p v).hostMem = s.hostMem := rfl
@[simp] theorem State.setNbr_cores (p : Nat) (v : Nbr) : (s.setNbr p v).cores = s.cores := rfl
@[simp] theorem State.setNbr_sub (p : Nat) (v : Nbr) : (s.setNbr p v).sub = s.sub := rfl
@[simp] theorem State.setNbr_syn (p : Nat) (v : Nbr) : (s.setNbr p v).syn = s.syn := rfl
@[simp] theorem State.setNbr_memx (p : Nat) (v : Nbr) : (s.setNbr p v).memx = s.memx := rfl
@[simp] theorem State.setNbr_rpl (p : Nat) (v : Nbr) : (s.setNbr p v).rpl = s.rpl := rfl
@[simp] theorem State.setNbr_ckp (p : Nat) (v : Nbr) : (s.setNbr p v).ckp = s.ckp := rfl
@[simp] theorem State.setNbr_integ (p : Nat) (v : Nbr) : (s.setNbr p v).integ = s.integ := rfl
@[simp] theorem State.setNbr_hrc (p : Nat) (v : Nbr) : (s.setNbr p v).hrc = s.hrc := rfl
@[simp] theorem State.setNbr_opt (p : Nat) (v : Nbr) : (s.setNbr p v).opt = s.opt := rfl
@[simp] theorem State.setNbr_fab (p : Nat) (v : Nbr) : (s.setNbr p v).fab = s.fab := rfl
@[simp] theorem State.setNbr_pins (p : Nat) (v : Nbr) : (s.setNbr p v).pins = s.pins := rfl
@[simp] theorem State.setNbr_sec (p : Nat) (v : Nbr) : (s.setNbr p v).sec = s.sec := rfl
@[simp] theorem State.setNbr_pow (p : Nat) (v : Nbr) : (s.setNbr p v).pow = s.pow := rfl
@[simp] theorem State.setNbr_snp (p : Nat) (v : Nbr) : (s.setNbr p v).snp = s.snp := rfl
@[simp] theorem State.setNbr_fw (p : Nat) (v : Nbr) : (s.setNbr p v).fw = s.fw := rfl
@[simp] theorem State.setNbr_pending (p : Nat) (v : Nbr) : (s.setNbr p v).pending = s.pending := rfl
@[simp] theorem State.setCtx_regs (c : Nat) (v : CtxX) : (s.setCtx c v).regs = s.regs := rfl
@[simp] theorem State.setCtx_latch (c : Nat) (v : CtxX) : (s.setCtx c v).latch = s.latch := rfl
@[simp] theorem State.setCtx_lastRead (c : Nat) (v : CtxX) : (s.setCtx c v).lastRead = s.lastRead := rfl
@[simp] theorem State.setCtx_out (c : Nat) (v : CtxX) : (s.setCtx c v).out = s.out := rfl
@[simp] theorem State.setCtx_freeCtr (c : Nat) (v : CtxX) : (s.setCtx c v).freeCtr = s.freeCtr := rfl
@[simp] theorem State.setCtx_mem (c : Nat) (v : CtxX) : (s.setCtx c v).mem = s.mem := rfl
@[simp] theorem State.setCtx_poison (c : Nat) (v : CtxX) : (s.setCtx c v).poison = s.poison := rfl
@[simp] theorem State.setCtx_hostMem (c : Nat) (v : CtxX) : (s.setCtx c v).hostMem = s.hostMem := rfl
@[simp] theorem State.setCtx_time (c : Nat) (v : CtxX) : (s.setCtx c v).time = s.time := rfl
@[simp] theorem State.setCtx_cores (c : Nat) (v : CtxX) : (s.setCtx c v).cores = s.cores := rfl
@[simp] theorem State.setCtx_sub (c : Nat) (v : CtxX) : (s.setCtx c v).sub = s.sub := rfl
@[simp] theorem State.setCtx_syn (c : Nat) (v : CtxX) : (s.setCtx c v).syn = s.syn := rfl
@[simp] theorem State.setCtx_memx (c : Nat) (v : CtxX) : (s.setCtx c v).memx = s.memx := rfl
@[simp] theorem State.setCtx_ckp (c : Nat) (v : CtxX) : (s.setCtx c v).ckp = s.ckp := rfl
@[simp] theorem State.setCtx_integ (c : Nat) (v : CtxX) : (s.setCtx c v).integ = s.integ := rfl
@[simp] theorem State.setCtx_hrc (c : Nat) (v : CtxX) : (s.setCtx c v).hrc = s.hrc := rfl
@[simp] theorem State.setCtx_opt (c : Nat) (v : CtxX) : (s.setCtx c v).opt = s.opt := rfl
@[simp] theorem State.setCtx_fab (c : Nat) (v : CtxX) : (s.setCtx c v).fab = s.fab := rfl
@[simp] theorem State.setCtx_pins (c : Nat) (v : CtxX) : (s.setCtx c v).pins = s.pins := rfl
@[simp] theorem State.setCtx_sec (c : Nat) (v : CtxX) : (s.setCtx c v).sec = s.sec := rfl
@[simp] theorem State.setCtx_pow (c : Nat) (v : CtxX) : (s.setCtx c v).pow = s.pow := rfl
@[simp] theorem State.setCtx_snp (c : Nat) (v : CtxX) : (s.setCtx c v).snp = s.snp := rfl
@[simp] theorem State.setCtx_fw (c : Nat) (v : CtxX) : (s.setCtx c v).fw = s.fw := rfl
@[simp] theorem State.setCtx_pending (c : Nat) (v : CtxX) : (s.setCtx c v).pending = s.pending := rfl
@[simp] theorem State.modCtx_regs (c : Nat) (f : CtxX → CtxX) : (s.modCtx c f).regs = s.regs := rfl
@[simp] theorem State.modCtx_latch (c : Nat) (f : CtxX → CtxX) : (s.modCtx c f).latch = s.latch := rfl
@[simp] theorem State.modCtx_lastRead (c : Nat) (f : CtxX → CtxX) : (s.modCtx c f).lastRead = s.lastRead := rfl
@[simp] theorem State.modCtx_out (c : Nat) (f : CtxX → CtxX) : (s.modCtx c f).out = s.out := rfl
@[simp] theorem State.modCtx_freeCtr (c : Nat) (f : CtxX → CtxX) : (s.modCtx c f).freeCtr = s.freeCtr := rfl
@[simp] theorem State.modCtx_mem (c : Nat) (f : CtxX → CtxX) : (s.modCtx c f).mem = s.mem := rfl
@[simp] theorem State.modCtx_poison (c : Nat) (f : CtxX → CtxX) : (s.modCtx c f).poison = s.poison := rfl
@[simp] theorem State.modCtx_hostMem (c : Nat) (f : CtxX → CtxX) : (s.modCtx c f).hostMem = s.hostMem := rfl
@[simp] theorem State.modCtx_time (c : Nat) (f : CtxX → CtxX) : (s.modCtx c f).time = s.time := rfl
@[simp] theorem State.modCtx_cores (c : Nat) (f : CtxX → CtxX) : (s.modCtx c f).cores = s.cores := rfl
@[simp] theorem State.modCtx_sub (c : Nat) (f : CtxX → CtxX) : (s.modCtx c f).sub = s.sub := rfl
@[simp] theorem State.modCtx_syn (c : Nat) (f : CtxX → CtxX) : (s.modCtx c f).syn = s.syn := rfl
@[simp] theorem State.modCtx_memx (c : Nat) (f : CtxX → CtxX) : (s.modCtx c f).memx = s.memx := rfl
@[simp] theorem State.modCtx_ckp (c : Nat) (f : CtxX → CtxX) : (s.modCtx c f).ckp = s.ckp := rfl
@[simp] theorem State.modCtx_integ (c : Nat) (f : CtxX → CtxX) : (s.modCtx c f).integ = s.integ := rfl
@[simp] theorem State.modCtx_hrc (c : Nat) (f : CtxX → CtxX) : (s.modCtx c f).hrc = s.hrc := rfl
@[simp] theorem State.modCtx_opt (c : Nat) (f : CtxX → CtxX) : (s.modCtx c f).opt = s.opt := rfl
@[simp] theorem State.modCtx_fab (c : Nat) (f : CtxX → CtxX) : (s.modCtx c f).fab = s.fab := rfl
@[simp] theorem State.modCtx_pins (c : Nat) (f : CtxX → CtxX) : (s.modCtx c f).pins = s.pins := rfl
@[simp] theorem State.modCtx_sec (c : Nat) (f : CtxX → CtxX) : (s.modCtx c f).sec = s.sec := rfl
@[simp] theorem State.modCtx_pow (c : Nat) (f : CtxX → CtxX) : (s.modCtx c f).pow = s.pow := rfl
@[simp] theorem State.modCtx_snp (c : Nat) (f : CtxX → CtxX) : (s.modCtx c f).snp = s.snp := rfl
@[simp] theorem State.modCtx_fw (c : Nat) (f : CtxX → CtxX) : (s.modCtx c f).fw = s.fw := rfl
@[simp] theorem State.modCtx_pending (c : Nat) (f : CtxX → CtxX) : (s.modCtx c f).pending = s.pending := rfl
@[simp] theorem State.modHrc_regs (f : HrcSt → HrcSt) : (s.modHrc f).regs = s.regs := rfl
@[simp] theorem State.modHrc_latch (f : HrcSt → HrcSt) : (s.modHrc f).latch = s.latch := rfl
@[simp] theorem State.modHrc_lastRead (f : HrcSt → HrcSt) : (s.modHrc f).lastRead = s.lastRead := rfl
@[simp] theorem State.modHrc_out (f : HrcSt → HrcSt) : (s.modHrc f).out = s.out := rfl
@[simp] theorem State.modHrc_freeCtr (f : HrcSt → HrcSt) : (s.modHrc f).freeCtr = s.freeCtr := rfl
@[simp] theorem State.modHrc_mem (f : HrcSt → HrcSt) : (s.modHrc f).mem = s.mem := rfl
@[simp] theorem State.modHrc_poison (f : HrcSt → HrcSt) : (s.modHrc f).poison = s.poison := rfl
@[simp] theorem State.modHrc_hostMem (f : HrcSt → HrcSt) : (s.modHrc f).hostMem = s.hostMem := rfl
@[simp] theorem State.modHrc_time (f : HrcSt → HrcSt) : (s.modHrc f).time = s.time := rfl
@[simp] theorem State.modHrc_cores (f : HrcSt → HrcSt) : (s.modHrc f).cores = s.cores := rfl
@[simp] theorem State.modHrc_sub (f : HrcSt → HrcSt) : (s.modHrc f).sub = s.sub := rfl
@[simp] theorem State.modHrc_syn (f : HrcSt → HrcSt) : (s.modHrc f).syn = s.syn := rfl
@[simp] theorem State.modHrc_memx (f : HrcSt → HrcSt) : (s.modHrc f).memx = s.memx := rfl
@[simp] theorem State.modHrc_rpl (f : HrcSt → HrcSt) : (s.modHrc f).rpl = s.rpl := rfl
@[simp] theorem State.modHrc_ckp (f : HrcSt → HrcSt) : (s.modHrc f).ckp = s.ckp := rfl
@[simp] theorem State.modHrc_integ (f : HrcSt → HrcSt) : (s.modHrc f).integ = s.integ := rfl
@[simp] theorem State.modHrc_opt (f : HrcSt → HrcSt) : (s.modHrc f).opt = s.opt := rfl
@[simp] theorem State.modHrc_fab (f : HrcSt → HrcSt) : (s.modHrc f).fab = s.fab := rfl
@[simp] theorem State.modHrc_pins (f : HrcSt → HrcSt) : (s.modHrc f).pins = s.pins := rfl
@[simp] theorem State.modHrc_sec (f : HrcSt → HrcSt) : (s.modHrc f).sec = s.sec := rfl
@[simp] theorem State.modHrc_pow (f : HrcSt → HrcSt) : (s.modHrc f).pow = s.pow := rfl
@[simp] theorem State.modHrc_snp (f : HrcSt → HrcSt) : (s.modHrc f).snp = s.snp := rfl
@[simp] theorem State.modHrc_fw (f : HrcSt → HrcSt) : (s.modHrc f).fw = s.fw := rfl
@[simp] theorem State.modHrc_pending (f : HrcSt → HrcSt) : (s.modHrc f).pending = s.pending := rfl
@[simp] theorem State.modCkp_regs (f : CkpSt → CkpSt) : (s.modCkp f).regs = s.regs := rfl
@[simp] theorem State.modCkp_latch (f : CkpSt → CkpSt) : (s.modCkp f).latch = s.latch := rfl
@[simp] theorem State.modCkp_lastRead (f : CkpSt → CkpSt) : (s.modCkp f).lastRead = s.lastRead := rfl
@[simp] theorem State.modCkp_out (f : CkpSt → CkpSt) : (s.modCkp f).out = s.out := rfl
@[simp] theorem State.modCkp_freeCtr (f : CkpSt → CkpSt) : (s.modCkp f).freeCtr = s.freeCtr := rfl
@[simp] theorem State.modCkp_mem (f : CkpSt → CkpSt) : (s.modCkp f).mem = s.mem := rfl
@[simp] theorem State.modCkp_poison (f : CkpSt → CkpSt) : (s.modCkp f).poison = s.poison := rfl
@[simp] theorem State.modCkp_hostMem (f : CkpSt → CkpSt) : (s.modCkp f).hostMem = s.hostMem := rfl
@[simp] theorem State.modCkp_time (f : CkpSt → CkpSt) : (s.modCkp f).time = s.time := rfl
@[simp] theorem State.modCkp_cores (f : CkpSt → CkpSt) : (s.modCkp f).cores = s.cores := rfl
@[simp] theorem State.modCkp_sub (f : CkpSt → CkpSt) : (s.modCkp f).sub = s.sub := rfl
@[simp] theorem State.modCkp_syn (f : CkpSt → CkpSt) : (s.modCkp f).syn = s.syn := rfl
@[simp] theorem State.modCkp_memx (f : CkpSt → CkpSt) : (s.modCkp f).memx = s.memx := rfl
@[simp] theorem State.modCkp_rpl (f : CkpSt → CkpSt) : (s.modCkp f).rpl = s.rpl := rfl
@[simp] theorem State.modCkp_integ (f : CkpSt → CkpSt) : (s.modCkp f).integ = s.integ := rfl
@[simp] theorem State.modCkp_hrc (f : CkpSt → CkpSt) : (s.modCkp f).hrc = s.hrc := rfl
@[simp] theorem State.modCkp_opt (f : CkpSt → CkpSt) : (s.modCkp f).opt = s.opt := rfl
@[simp] theorem State.modCkp_fab (f : CkpSt → CkpSt) : (s.modCkp f).fab = s.fab := rfl
@[simp] theorem State.modCkp_pins (f : CkpSt → CkpSt) : (s.modCkp f).pins = s.pins := rfl
@[simp] theorem State.modCkp_sec (f : CkpSt → CkpSt) : (s.modCkp f).sec = s.sec := rfl
@[simp] theorem State.modCkp_pow (f : CkpSt → CkpSt) : (s.modCkp f).pow = s.pow := rfl
@[simp] theorem State.modCkp_snp (f : CkpSt → CkpSt) : (s.modCkp f).snp = s.snp := rfl
@[simp] theorem State.modCkp_fw (f : CkpSt → CkpSt) : (s.modCkp f).fw = s.fw := rfl
@[simp] theorem State.modCkp_pending (f : CkpSt → CkpSt) : (s.modCkp f).pending = s.pending := rfl
@[simp] theorem State.modMem_regs (f : MemSt → MemSt) : (s.modMem f).regs = s.regs := rfl
@[simp] theorem State.modMem_latch (f : MemSt → MemSt) : (s.modMem f).latch = s.latch := rfl
@[simp] theorem State.modMem_lastRead (f : MemSt → MemSt) : (s.modMem f).lastRead = s.lastRead := rfl
@[simp] theorem State.modMem_out (f : MemSt → MemSt) : (s.modMem f).out = s.out := rfl
@[simp] theorem State.modMem_freeCtr (f : MemSt → MemSt) : (s.modMem f).freeCtr = s.freeCtr := rfl
@[simp] theorem State.modMem_mem (f : MemSt → MemSt) : (s.modMem f).mem = s.mem := rfl
@[simp] theorem State.modMem_poison (f : MemSt → MemSt) : (s.modMem f).poison = s.poison := rfl
@[simp] theorem State.modMem_hostMem (f : MemSt → MemSt) : (s.modMem f).hostMem = s.hostMem := rfl
@[simp] theorem State.modMem_time (f : MemSt → MemSt) : (s.modMem f).time = s.time := rfl
@[simp] theorem State.modMem_cores (f : MemSt → MemSt) : (s.modMem f).cores = s.cores := rfl
@[simp] theorem State.modMem_sub (f : MemSt → MemSt) : (s.modMem f).sub = s.sub := rfl
@[simp] theorem State.modMem_syn (f : MemSt → MemSt) : (s.modMem f).syn = s.syn := rfl
@[simp] theorem State.modMem_rpl (f : MemSt → MemSt) : (s.modMem f).rpl = s.rpl := rfl
@[simp] theorem State.modMem_ckp (f : MemSt → MemSt) : (s.modMem f).ckp = s.ckp := rfl
@[simp] theorem State.modMem_integ (f : MemSt → MemSt) : (s.modMem f).integ = s.integ := rfl
@[simp] theorem State.modMem_hrc (f : MemSt → MemSt) : (s.modMem f).hrc = s.hrc := rfl
@[simp] theorem State.modMem_opt (f : MemSt → MemSt) : (s.modMem f).opt = s.opt := rfl
@[simp] theorem State.modMem_fab (f : MemSt → MemSt) : (s.modMem f).fab = s.fab := rfl
@[simp] theorem State.modMem_pins (f : MemSt → MemSt) : (s.modMem f).pins = s.pins := rfl
@[simp] theorem State.modMem_sec (f : MemSt → MemSt) : (s.modMem f).sec = s.sec := rfl
@[simp] theorem State.modMem_pow (f : MemSt → MemSt) : (s.modMem f).pow = s.pow := rfl
@[simp] theorem State.modMem_snp (f : MemSt → MemSt) : (s.modMem f).snp = s.snp := rfl
@[simp] theorem State.modMem_fw (f : MemSt → MemSt) : (s.modMem f).fw = s.fw := rfl
@[simp] theorem State.modMem_pending (f : MemSt → MemSt) : (s.modMem f).pending = s.pending := rfl
@[simp] theorem State.modInt_regs (f : IntSt → IntSt) : (s.modInt f).regs = s.regs := rfl
@[simp] theorem State.modInt_latch (f : IntSt → IntSt) : (s.modInt f).latch = s.latch := rfl
@[simp] theorem State.modInt_lastRead (f : IntSt → IntSt) : (s.modInt f).lastRead = s.lastRead := rfl
@[simp] theorem State.modInt_out (f : IntSt → IntSt) : (s.modInt f).out = s.out := rfl
@[simp] theorem State.modInt_freeCtr (f : IntSt → IntSt) : (s.modInt f).freeCtr = s.freeCtr := rfl
@[simp] theorem State.modInt_mem (f : IntSt → IntSt) : (s.modInt f).mem = s.mem := rfl
@[simp] theorem State.modInt_poison (f : IntSt → IntSt) : (s.modInt f).poison = s.poison := rfl
@[simp] theorem State.modInt_hostMem (f : IntSt → IntSt) : (s.modInt f).hostMem = s.hostMem := rfl
@[simp] theorem State.modInt_time (f : IntSt → IntSt) : (s.modInt f).time = s.time := rfl
@[simp] theorem State.modInt_cores (f : IntSt → IntSt) : (s.modInt f).cores = s.cores := rfl
@[simp] theorem State.modInt_sub (f : IntSt → IntSt) : (s.modInt f).sub = s.sub := rfl
@[simp] theorem State.modInt_syn (f : IntSt → IntSt) : (s.modInt f).syn = s.syn := rfl
@[simp] theorem State.modInt_memx (f : IntSt → IntSt) : (s.modInt f).memx = s.memx := rfl
@[simp] theorem State.modInt_rpl (f : IntSt → IntSt) : (s.modInt f).rpl = s.rpl := rfl
@[simp] theorem State.modInt_ckp (f : IntSt → IntSt) : (s.modInt f).ckp = s.ckp := rfl
@[simp] theorem State.modInt_hrc (f : IntSt → IntSt) : (s.modInt f).hrc = s.hrc := rfl
@[simp] theorem State.modInt_opt (f : IntSt → IntSt) : (s.modInt f).opt = s.opt := rfl
@[simp] theorem State.modInt_fab (f : IntSt → IntSt) : (s.modInt f).fab = s.fab := rfl
@[simp] theorem State.modInt_pins (f : IntSt → IntSt) : (s.modInt f).pins = s.pins := rfl
@[simp] theorem State.modInt_sec (f : IntSt → IntSt) : (s.modInt f).sec = s.sec := rfl
@[simp] theorem State.modInt_pow (f : IntSt → IntSt) : (s.modInt f).pow = s.pow := rfl
@[simp] theorem State.modInt_snp (f : IntSt → IntSt) : (s.modInt f).snp = s.snp := rfl
@[simp] theorem State.modInt_fw (f : IntSt → IntSt) : (s.modInt f).fw = s.fw := rfl
@[simp] theorem State.modInt_pending (f : IntSt → IntSt) : (s.modInt f).pending = s.pending := rfl
@[simp] theorem State.modOpt_regs (f : OptSt → OptSt) : (s.modOpt f).regs = s.regs := rfl
@[simp] theorem State.modOpt_latch (f : OptSt → OptSt) : (s.modOpt f).latch = s.latch := rfl
@[simp] theorem State.modOpt_lastRead (f : OptSt → OptSt) : (s.modOpt f).lastRead = s.lastRead := rfl
@[simp] theorem State.modOpt_out (f : OptSt → OptSt) : (s.modOpt f).out = s.out := rfl
@[simp] theorem State.modOpt_freeCtr (f : OptSt → OptSt) : (s.modOpt f).freeCtr = s.freeCtr := rfl
@[simp] theorem State.modOpt_mem (f : OptSt → OptSt) : (s.modOpt f).mem = s.mem := rfl
@[simp] theorem State.modOpt_poison (f : OptSt → OptSt) : (s.modOpt f).poison = s.poison := rfl
@[simp] theorem State.modOpt_hostMem (f : OptSt → OptSt) : (s.modOpt f).hostMem = s.hostMem := rfl
@[simp] theorem State.modOpt_time (f : OptSt → OptSt) : (s.modOpt f).time = s.time := rfl
@[simp] theorem State.modOpt_cores (f : OptSt → OptSt) : (s.modOpt f).cores = s.cores := rfl
@[simp] theorem State.modOpt_sub (f : OptSt → OptSt) : (s.modOpt f).sub = s.sub := rfl
@[simp] theorem State.modOpt_syn (f : OptSt → OptSt) : (s.modOpt f).syn = s.syn := rfl
@[simp] theorem State.modOpt_memx (f : OptSt → OptSt) : (s.modOpt f).memx = s.memx := rfl
@[simp] theorem State.modOpt_rpl (f : OptSt → OptSt) : (s.modOpt f).rpl = s.rpl := rfl
@[simp] theorem State.modOpt_ckp (f : OptSt → OptSt) : (s.modOpt f).ckp = s.ckp := rfl
@[simp] theorem State.modOpt_integ (f : OptSt → OptSt) : (s.modOpt f).integ = s.integ := rfl
@[simp] theorem State.modOpt_hrc (f : OptSt → OptSt) : (s.modOpt f).hrc = s.hrc := rfl
@[simp] theorem State.modOpt_fab (f : OptSt → OptSt) : (s.modOpt f).fab = s.fab := rfl
@[simp] theorem State.modOpt_pins (f : OptSt → OptSt) : (s.modOpt f).pins = s.pins := rfl
@[simp] theorem State.modOpt_sec (f : OptSt → OptSt) : (s.modOpt f).sec = s.sec := rfl
@[simp] theorem State.modOpt_pow (f : OptSt → OptSt) : (s.modOpt f).pow = s.pow := rfl
@[simp] theorem State.modOpt_snp (f : OptSt → OptSt) : (s.modOpt f).snp = s.snp := rfl
@[simp] theorem State.modOpt_fw (f : OptSt → OptSt) : (s.modOpt f).fw = s.fw := rfl
@[simp] theorem State.modOpt_pending (f : OptSt → OptSt) : (s.modOpt f).pending = s.pending := rfl
@[simp] theorem State.modFab_regs (f : FabSt → FabSt) : (s.modFab f).regs = s.regs := rfl
@[simp] theorem State.modFab_latch (f : FabSt → FabSt) : (s.modFab f).latch = s.latch := rfl
@[simp] theorem State.modFab_lastRead (f : FabSt → FabSt) : (s.modFab f).lastRead = s.lastRead := rfl
@[simp] theorem State.modFab_out (f : FabSt → FabSt) : (s.modFab f).out = s.out := rfl
@[simp] theorem State.modFab_freeCtr (f : FabSt → FabSt) : (s.modFab f).freeCtr = s.freeCtr := rfl
@[simp] theorem State.modFab_mem (f : FabSt → FabSt) : (s.modFab f).mem = s.mem := rfl
@[simp] theorem State.modFab_poison (f : FabSt → FabSt) : (s.modFab f).poison = s.poison := rfl
@[simp] theorem State.modFab_hostMem (f : FabSt → FabSt) : (s.modFab f).hostMem = s.hostMem := rfl
@[simp] theorem State.modFab_time (f : FabSt → FabSt) : (s.modFab f).time = s.time := rfl
@[simp] theorem State.modFab_cores (f : FabSt → FabSt) : (s.modFab f).cores = s.cores := rfl
@[simp] theorem State.modFab_sub (f : FabSt → FabSt) : (s.modFab f).sub = s.sub := rfl
@[simp] theorem State.modFab_syn (f : FabSt → FabSt) : (s.modFab f).syn = s.syn := rfl
@[simp] theorem State.modFab_memx (f : FabSt → FabSt) : (s.modFab f).memx = s.memx := rfl
@[simp] theorem State.modFab_rpl (f : FabSt → FabSt) : (s.modFab f).rpl = s.rpl := rfl
@[simp] theorem State.modFab_ckp (f : FabSt → FabSt) : (s.modFab f).ckp = s.ckp := rfl
@[simp] theorem State.modFab_integ (f : FabSt → FabSt) : (s.modFab f).integ = s.integ := rfl
@[simp] theorem State.modFab_hrc (f : FabSt → FabSt) : (s.modFab f).hrc = s.hrc := rfl
@[simp] theorem State.modFab_opt (f : FabSt → FabSt) : (s.modFab f).opt = s.opt := rfl
@[simp] theorem State.modFab_pins (f : FabSt → FabSt) : (s.modFab f).pins = s.pins := rfl
@[simp] theorem State.modFab_sec (f : FabSt → FabSt) : (s.modFab f).sec = s.sec := rfl
@[simp] theorem State.modFab_pow (f : FabSt → FabSt) : (s.modFab f).pow = s.pow := rfl
@[simp] theorem State.modFab_snp (f : FabSt → FabSt) : (s.modFab f).snp = s.snp := rfl
@[simp] theorem State.modFab_fw (f : FabSt → FabSt) : (s.modFab f).fw = s.fw := rfl
@[simp] theorem State.modFab_pending (f : FabSt → FabSt) : (s.modFab f).pending = s.pending := rfl
@[simp] theorem State.modSec_regs (f : SecSt → SecSt) : (s.modSec f).regs = s.regs := rfl
@[simp] theorem State.modSec_latch (f : SecSt → SecSt) : (s.modSec f).latch = s.latch := rfl
@[simp] theorem State.modSec_lastRead (f : SecSt → SecSt) : (s.modSec f).lastRead = s.lastRead := rfl
@[simp] theorem State.modSec_out (f : SecSt → SecSt) : (s.modSec f).out = s.out := rfl
@[simp] theorem State.modSec_freeCtr (f : SecSt → SecSt) : (s.modSec f).freeCtr = s.freeCtr := rfl
@[simp] theorem State.modSec_mem (f : SecSt → SecSt) : (s.modSec f).mem = s.mem := rfl
@[simp] theorem State.modSec_poison (f : SecSt → SecSt) : (s.modSec f).poison = s.poison := rfl
@[simp] theorem State.modSec_hostMem (f : SecSt → SecSt) : (s.modSec f).hostMem = s.hostMem := rfl
@[simp] theorem State.modSec_time (f : SecSt → SecSt) : (s.modSec f).time = s.time := rfl
@[simp] theorem State.modSec_cores (f : SecSt → SecSt) : (s.modSec f).cores = s.cores := rfl
@[simp] theorem State.modSec_sub (f : SecSt → SecSt) : (s.modSec f).sub = s.sub := rfl
@[simp] theorem State.modSec_syn (f : SecSt → SecSt) : (s.modSec f).syn = s.syn := rfl
@[simp] theorem State.modSec_memx (f : SecSt → SecSt) : (s.modSec f).memx = s.memx := rfl
@[simp] theorem State.modSec_rpl (f : SecSt → SecSt) : (s.modSec f).rpl = s.rpl := rfl
@[simp] theorem State.modSec_ckp (f : SecSt → SecSt) : (s.modSec f).ckp = s.ckp := rfl
@[simp] theorem State.modSec_integ (f : SecSt → SecSt) : (s.modSec f).integ = s.integ := rfl
@[simp] theorem State.modSec_hrc (f : SecSt → SecSt) : (s.modSec f).hrc = s.hrc := rfl
@[simp] theorem State.modSec_opt (f : SecSt → SecSt) : (s.modSec f).opt = s.opt := rfl
@[simp] theorem State.modSec_fab (f : SecSt → SecSt) : (s.modSec f).fab = s.fab := rfl
@[simp] theorem State.modSec_pins (f : SecSt → SecSt) : (s.modSec f).pins = s.pins := rfl
@[simp] theorem State.modSec_pow (f : SecSt → SecSt) : (s.modSec f).pow = s.pow := rfl
@[simp] theorem State.modSec_snp (f : SecSt → SecSt) : (s.modSec f).snp = s.snp := rfl
@[simp] theorem State.modSec_fw (f : SecSt → SecSt) : (s.modSec f).fw = s.fw := rfl
@[simp] theorem State.modSec_pending (f : SecSt → SecSt) : (s.modSec f).pending = s.pending := rfl
@[simp] theorem State.modPow_regs (f : PowSt → PowSt) : (s.modPow f).regs = s.regs := rfl
@[simp] theorem State.modPow_latch (f : PowSt → PowSt) : (s.modPow f).latch = s.latch := rfl
@[simp] theorem State.modPow_lastRead (f : PowSt → PowSt) : (s.modPow f).lastRead = s.lastRead := rfl
@[simp] theorem State.modPow_out (f : PowSt → PowSt) : (s.modPow f).out = s.out := rfl
@[simp] theorem State.modPow_freeCtr (f : PowSt → PowSt) : (s.modPow f).freeCtr = s.freeCtr := rfl
@[simp] theorem State.modPow_mem (f : PowSt → PowSt) : (s.modPow f).mem = s.mem := rfl
@[simp] theorem State.modPow_poison (f : PowSt → PowSt) : (s.modPow f).poison = s.poison := rfl
@[simp] theorem State.modPow_hostMem (f : PowSt → PowSt) : (s.modPow f).hostMem = s.hostMem := rfl
@[simp] theorem State.modPow_time (f : PowSt → PowSt) : (s.modPow f).time = s.time := rfl
@[simp] theorem State.modPow_cores (f : PowSt → PowSt) : (s.modPow f).cores = s.cores := rfl
@[simp] theorem State.modPow_sub (f : PowSt → PowSt) : (s.modPow f).sub = s.sub := rfl
@[simp] theorem State.modPow_syn (f : PowSt → PowSt) : (s.modPow f).syn = s.syn := rfl
@[simp] theorem State.modPow_memx (f : PowSt → PowSt) : (s.modPow f).memx = s.memx := rfl
@[simp] theorem State.modPow_rpl (f : PowSt → PowSt) : (s.modPow f).rpl = s.rpl := rfl
@[simp] theorem State.modPow_ckp (f : PowSt → PowSt) : (s.modPow f).ckp = s.ckp := rfl
@[simp] theorem State.modPow_integ (f : PowSt → PowSt) : (s.modPow f).integ = s.integ := rfl
@[simp] theorem State.modPow_hrc (f : PowSt → PowSt) : (s.modPow f).hrc = s.hrc := rfl
@[simp] theorem State.modPow_opt (f : PowSt → PowSt) : (s.modPow f).opt = s.opt := rfl
@[simp] theorem State.modPow_fab (f : PowSt → PowSt) : (s.modPow f).fab = s.fab := rfl
@[simp] theorem State.modPow_pins (f : PowSt → PowSt) : (s.modPow f).pins = s.pins := rfl
@[simp] theorem State.modPow_sec (f : PowSt → PowSt) : (s.modPow f).sec = s.sec := rfl
@[simp] theorem State.modPow_snp (f : PowSt → PowSt) : (s.modPow f).snp = s.snp := rfl
@[simp] theorem State.modPow_fw (f : PowSt → PowSt) : (s.modPow f).fw = s.fw := rfl
@[simp] theorem State.modPow_pending (f : PowSt → PowSt) : (s.modPow f).pending = s.pending := rfl
@[simp] theorem State.modPins_regs (f : PinSt → PinSt) : (s.modPins f).regs = s.regs := rfl
@[simp] theorem State.modPins_latch (f : PinSt → PinSt) : (s.modPins f).latch = s.latch := rfl
@[simp] theorem State.modPins_lastRead (f : PinSt → PinSt) : (s.modPins f).lastRead = s.lastRead := rfl
@[simp] theorem State.modPins_out (f : PinSt → PinSt) : (s.modPins f).out = s.out := rfl
@[simp] theorem State.modPins_freeCtr (f : PinSt → PinSt) : (s.modPins f).freeCtr = s.freeCtr := rfl
@[simp] theorem State.modPins_mem (f : PinSt → PinSt) : (s.modPins f).mem = s.mem := rfl
@[simp] theorem State.modPins_poison (f : PinSt → PinSt) : (s.modPins f).poison = s.poison := rfl
@[simp] theorem State.modPins_hostMem (f : PinSt → PinSt) : (s.modPins f).hostMem = s.hostMem := rfl
@[simp] theorem State.modPins_time (f : PinSt → PinSt) : (s.modPins f).time = s.time := rfl
@[simp] theorem State.modPins_cores (f : PinSt → PinSt) : (s.modPins f).cores = s.cores := rfl
@[simp] theorem State.modPins_sub (f : PinSt → PinSt) : (s.modPins f).sub = s.sub := rfl
@[simp] theorem State.modPins_syn (f : PinSt → PinSt) : (s.modPins f).syn = s.syn := rfl
@[simp] theorem State.modPins_memx (f : PinSt → PinSt) : (s.modPins f).memx = s.memx := rfl
@[simp] theorem State.modPins_rpl (f : PinSt → PinSt) : (s.modPins f).rpl = s.rpl := rfl
@[simp] theorem State.modPins_ckp (f : PinSt → PinSt) : (s.modPins f).ckp = s.ckp := rfl
@[simp] theorem State.modPins_integ (f : PinSt → PinSt) : (s.modPins f).integ = s.integ := rfl
@[simp] theorem State.modPins_hrc (f : PinSt → PinSt) : (s.modPins f).hrc = s.hrc := rfl
@[simp] theorem State.modPins_opt (f : PinSt → PinSt) : (s.modPins f).opt = s.opt := rfl
@[simp] theorem State.modPins_fab (f : PinSt → PinSt) : (s.modPins f).fab = s.fab := rfl
@[simp] theorem State.modPins_sec (f : PinSt → PinSt) : (s.modPins f).sec = s.sec := rfl
@[simp] theorem State.modPins_pow (f : PinSt → PinSt) : (s.modPins f).pow = s.pow := rfl
@[simp] theorem State.modPins_snp (f : PinSt → PinSt) : (s.modPins f).snp = s.snp := rfl
@[simp] theorem State.modPins_fw (f : PinSt → PinSt) : (s.modPins f).fw = s.fw := rfl
@[simp] theorem State.modPins_pending (f : PinSt → PinSt) : (s.modPins f).pending = s.pending := rfl
@[simp] theorem State.modFw_regs (f : FwSt → FwSt) : (s.modFw f).regs = s.regs := rfl
@[simp] theorem State.modFw_latch (f : FwSt → FwSt) : (s.modFw f).latch = s.latch := rfl
@[simp] theorem State.modFw_lastRead (f : FwSt → FwSt) : (s.modFw f).lastRead = s.lastRead := rfl
@[simp] theorem State.modFw_out (f : FwSt → FwSt) : (s.modFw f).out = s.out := rfl
@[simp] theorem State.modFw_freeCtr (f : FwSt → FwSt) : (s.modFw f).freeCtr = s.freeCtr := rfl
@[simp] theorem State.modFw_mem (f : FwSt → FwSt) : (s.modFw f).mem = s.mem := rfl
@[simp] theorem State.modFw_poison (f : FwSt → FwSt) : (s.modFw f).poison = s.poison := rfl
@[simp] theorem State.modFw_hostMem (f : FwSt → FwSt) : (s.modFw f).hostMem = s.hostMem := rfl
@[simp] theorem State.modFw_time (f : FwSt → FwSt) : (s.modFw f).time = s.time := rfl
@[simp] theorem State.modFw_cores (f : FwSt → FwSt) : (s.modFw f).cores = s.cores := rfl
@[simp] theorem State.modFw_sub (f : FwSt → FwSt) : (s.modFw f).sub = s.sub := rfl
@[simp] theorem State.modFw_syn (f : FwSt → FwSt) : (s.modFw f).syn = s.syn := rfl
@[simp] theorem State.modFw_memx (f : FwSt → FwSt) : (s.modFw f).memx = s.memx := rfl
@[simp] theorem State.modFw_rpl (f : FwSt → FwSt) : (s.modFw f).rpl = s.rpl := rfl
@[simp] theorem State.modFw_ckp (f : FwSt → FwSt) : (s.modFw f).ckp = s.ckp := rfl
@[simp] theorem State.modFw_integ (f : FwSt → FwSt) : (s.modFw f).integ = s.integ := rfl
@[simp] theorem State.modFw_hrc (f : FwSt → FwSt) : (s.modFw f).hrc = s.hrc := rfl
@[simp] theorem State.modFw_opt (f : FwSt → FwSt) : (s.modFw f).opt = s.opt := rfl
@[simp] theorem State.modFw_fab (f : FwSt → FwSt) : (s.modFw f).fab = s.fab := rfl
@[simp] theorem State.modFw_pins (f : FwSt → FwSt) : (s.modFw f).pins = s.pins := rfl
@[simp] theorem State.modFw_sec (f : FwSt → FwSt) : (s.modFw f).sec = s.sec := rfl
@[simp] theorem State.modFw_pow (f : FwSt → FwSt) : (s.modFw f).pow = s.pow := rfl
@[simp] theorem State.modFw_snp (f : FwSt → FwSt) : (s.modFw f).snp = s.snp := rfl
@[simp] theorem State.modFw_pending (f : FwSt → FwSt) : (s.modFw f).pending = s.pending := rfl
@[simp] theorem State.modTime_regs (f : TimeSt → TimeSt) : (s.modTime f).regs = s.regs := rfl
@[simp] theorem State.modTime_latch (f : TimeSt → TimeSt) : (s.modTime f).latch = s.latch := rfl
@[simp] theorem State.modTime_lastRead (f : TimeSt → TimeSt) : (s.modTime f).lastRead = s.lastRead := rfl
@[simp] theorem State.modTime_out (f : TimeSt → TimeSt) : (s.modTime f).out = s.out := rfl
@[simp] theorem State.modTime_freeCtr (f : TimeSt → TimeSt) : (s.modTime f).freeCtr = s.freeCtr := rfl
@[simp] theorem State.modTime_mem (f : TimeSt → TimeSt) : (s.modTime f).mem = s.mem := rfl
@[simp] theorem State.modTime_poison (f : TimeSt → TimeSt) : (s.modTime f).poison = s.poison := rfl
@[simp] theorem State.modTime_hostMem (f : TimeSt → TimeSt) : (s.modTime f).hostMem = s.hostMem := rfl
@[simp] theorem State.modTime_cores (f : TimeSt → TimeSt) : (s.modTime f).cores = s.cores := rfl
@[simp] theorem State.modTime_sub (f : TimeSt → TimeSt) : (s.modTime f).sub = s.sub := rfl
@[simp] theorem State.modTime_syn (f : TimeSt → TimeSt) : (s.modTime f).syn = s.syn := rfl
@[simp] theorem State.modTime_memx (f : TimeSt → TimeSt) : (s.modTime f).memx = s.memx := rfl
@[simp] theorem State.modTime_rpl (f : TimeSt → TimeSt) : (s.modTime f).rpl = s.rpl := rfl
@[simp] theorem State.modTime_ckp (f : TimeSt → TimeSt) : (s.modTime f).ckp = s.ckp := rfl
@[simp] theorem State.modTime_integ (f : TimeSt → TimeSt) : (s.modTime f).integ = s.integ := rfl
@[simp] theorem State.modTime_hrc (f : TimeSt → TimeSt) : (s.modTime f).hrc = s.hrc := rfl
@[simp] theorem State.modTime_opt (f : TimeSt → TimeSt) : (s.modTime f).opt = s.opt := rfl
@[simp] theorem State.modTime_fab (f : TimeSt → TimeSt) : (s.modTime f).fab = s.fab := rfl
@[simp] theorem State.modTime_pins (f : TimeSt → TimeSt) : (s.modTime f).pins = s.pins := rfl
@[simp] theorem State.modTime_sec (f : TimeSt → TimeSt) : (s.modTime f).sec = s.sec := rfl
@[simp] theorem State.modTime_pow (f : TimeSt → TimeSt) : (s.modTime f).pow = s.pow := rfl
@[simp] theorem State.modTime_snp (f : TimeSt → TimeSt) : (s.modTime f).snp = s.snp := rfl
@[simp] theorem State.modTime_fw (f : TimeSt → TimeSt) : (s.modTime f).fw = s.fw := rfl
@[simp] theorem State.modTime_pending (f : TimeSt → TimeSt) : (s.modTime f).pending = s.pending := rfl
@[simp] theorem State.modPort_regs (p : Nat) (f : PortSt → PortSt) : (s.modPort p f).regs = s.regs := rfl
@[simp] theorem State.modPort_latch (p : Nat) (f : PortSt → PortSt) : (s.modPort p f).latch = s.latch := rfl
@[simp] theorem State.modPort_lastRead (p : Nat) (f : PortSt → PortSt) : (s.modPort p f).lastRead = s.lastRead := rfl
@[simp] theorem State.modPort_out (p : Nat) (f : PortSt → PortSt) : (s.modPort p f).out = s.out := rfl
@[simp] theorem State.modPort_freeCtr (p : Nat) (f : PortSt → PortSt) : (s.modPort p f).freeCtr = s.freeCtr := rfl
@[simp] theorem State.modPort_mem (p : Nat) (f : PortSt → PortSt) : (s.modPort p f).mem = s.mem := rfl
@[simp] theorem State.modPort_poison (p : Nat) (f : PortSt → PortSt) : (s.modPort p f).poison = s.poison := rfl
@[simp] theorem State.modPort_hostMem (p : Nat) (f : PortSt → PortSt) : (s.modPort p f).hostMem = s.hostMem := rfl
@[simp] theorem State.modPort_time (p : Nat) (f : PortSt → PortSt) : (s.modPort p f).time = s.time := rfl
@[simp] theorem State.modPort_cores (p : Nat) (f : PortSt → PortSt) : (s.modPort p f).cores = s.cores := rfl
@[simp] theorem State.modPort_sub (p : Nat) (f : PortSt → PortSt) : (s.modPort p f).sub = s.sub := rfl
@[simp] theorem State.modPort_syn (p : Nat) (f : PortSt → PortSt) : (s.modPort p f).syn = s.syn := rfl
@[simp] theorem State.modPort_memx (p : Nat) (f : PortSt → PortSt) : (s.modPort p f).memx = s.memx := rfl
@[simp] theorem State.modPort_rpl (p : Nat) (f : PortSt → PortSt) : (s.modPort p f).rpl = s.rpl := rfl
@[simp] theorem State.modPort_ckp (p : Nat) (f : PortSt → PortSt) : (s.modPort p f).ckp = s.ckp := rfl
@[simp] theorem State.modPort_integ (p : Nat) (f : PortSt → PortSt) : (s.modPort p f).integ = s.integ := rfl
@[simp] theorem State.modPort_hrc (p : Nat) (f : PortSt → PortSt) : (s.modPort p f).hrc = s.hrc := rfl
@[simp] theorem State.modPort_fab (p : Nat) (f : PortSt → PortSt) : (s.modPort p f).fab = s.fab := rfl
@[simp] theorem State.modPort_pins (p : Nat) (f : PortSt → PortSt) : (s.modPort p f).pins = s.pins := rfl
@[simp] theorem State.modPort_sec (p : Nat) (f : PortSt → PortSt) : (s.modPort p f).sec = s.sec := rfl
@[simp] theorem State.modPort_pow (p : Nat) (f : PortSt → PortSt) : (s.modPort p f).pow = s.pow := rfl
@[simp] theorem State.modPort_snp (p : Nat) (f : PortSt → PortSt) : (s.modPort p f).snp = s.snp := rfl
@[simp] theorem State.modPort_fw (p : Nat) (f : PortSt → PortSt) : (s.modPort p f).fw = s.fw := rfl
@[simp] theorem State.modPort_pending (p : Nat) (f : PortSt → PortSt) : (s.modPort p f).pending = s.pending := rfl
@[simp] theorem State.modTuner_regs (k : Nat) (f : RingSt → RingSt) : (s.modTuner k f).regs = s.regs := rfl
@[simp] theorem State.modTuner_latch (k : Nat) (f : RingSt → RingSt) : (s.modTuner k f).latch = s.latch := rfl
@[simp] theorem State.modTuner_lastRead (k : Nat) (f : RingSt → RingSt) : (s.modTuner k f).lastRead = s.lastRead := rfl
@[simp] theorem State.modTuner_out (k : Nat) (f : RingSt → RingSt) : (s.modTuner k f).out = s.out := rfl
@[simp] theorem State.modTuner_freeCtr (k : Nat) (f : RingSt → RingSt) : (s.modTuner k f).freeCtr = s.freeCtr := rfl
@[simp] theorem State.modTuner_mem (k : Nat) (f : RingSt → RingSt) : (s.modTuner k f).mem = s.mem := rfl
@[simp] theorem State.modTuner_poison (k : Nat) (f : RingSt → RingSt) : (s.modTuner k f).poison = s.poison := rfl
@[simp] theorem State.modTuner_hostMem (k : Nat) (f : RingSt → RingSt) : (s.modTuner k f).hostMem = s.hostMem := rfl
@[simp] theorem State.modTuner_time (k : Nat) (f : RingSt → RingSt) : (s.modTuner k f).time = s.time := rfl
@[simp] theorem State.modTuner_cores (k : Nat) (f : RingSt → RingSt) : (s.modTuner k f).cores = s.cores := rfl
@[simp] theorem State.modTuner_sub (k : Nat) (f : RingSt → RingSt) : (s.modTuner k f).sub = s.sub := rfl
@[simp] theorem State.modTuner_syn (k : Nat) (f : RingSt → RingSt) : (s.modTuner k f).syn = s.syn := rfl
@[simp] theorem State.modTuner_memx (k : Nat) (f : RingSt → RingSt) : (s.modTuner k f).memx = s.memx := rfl
@[simp] theorem State.modTuner_rpl (k : Nat) (f : RingSt → RingSt) : (s.modTuner k f).rpl = s.rpl := rfl
@[simp] theorem State.modTuner_ckp (k : Nat) (f : RingSt → RingSt) : (s.modTuner k f).ckp = s.ckp := rfl
@[simp] theorem State.modTuner_integ (k : Nat) (f : RingSt → RingSt) : (s.modTuner k f).integ = s.integ := rfl
@[simp] theorem State.modTuner_hrc (k : Nat) (f : RingSt → RingSt) : (s.modTuner k f).hrc = s.hrc := rfl
@[simp] theorem State.modTuner_fab (k : Nat) (f : RingSt → RingSt) : (s.modTuner k f).fab = s.fab := rfl
@[simp] theorem State.modTuner_pins (k : Nat) (f : RingSt → RingSt) : (s.modTuner k f).pins = s.pins := rfl
@[simp] theorem State.modTuner_sec (k : Nat) (f : RingSt → RingSt) : (s.modTuner k f).sec = s.sec := rfl
@[simp] theorem State.modTuner_pow (k : Nat) (f : RingSt → RingSt) : (s.modTuner k f).pow = s.pow := rfl
@[simp] theorem State.modTuner_snp (k : Nat) (f : RingSt → RingSt) : (s.modTuner k f).snp = s.snp := rfl
@[simp] theorem State.modTuner_fw (k : Nat) (f : RingSt → RingSt) : (s.modTuner k f).fw = s.fw := rfl
@[simp] theorem State.modTuner_pending (k : Nat) (f : RingSt → RingSt) : (s.modTuner k f).pending = s.pending := rfl
@[simp] theorem State.modByp_regs (b : Nat) (f : BypSt → BypSt) : (s.modByp b f).regs = s.regs := rfl
@[simp] theorem State.modByp_latch (b : Nat) (f : BypSt → BypSt) : (s.modByp b f).latch = s.latch := rfl
@[simp] theorem State.modByp_lastRead (b : Nat) (f : BypSt → BypSt) : (s.modByp b f).lastRead = s.lastRead := rfl
@[simp] theorem State.modByp_out (b : Nat) (f : BypSt → BypSt) : (s.modByp b f).out = s.out := rfl
@[simp] theorem State.modByp_freeCtr (b : Nat) (f : BypSt → BypSt) : (s.modByp b f).freeCtr = s.freeCtr := rfl
@[simp] theorem State.modByp_mem (b : Nat) (f : BypSt → BypSt) : (s.modByp b f).mem = s.mem := rfl
@[simp] theorem State.modByp_poison (b : Nat) (f : BypSt → BypSt) : (s.modByp b f).poison = s.poison := rfl
@[simp] theorem State.modByp_hostMem (b : Nat) (f : BypSt → BypSt) : (s.modByp b f).hostMem = s.hostMem := rfl
@[simp] theorem State.modByp_time (b : Nat) (f : BypSt → BypSt) : (s.modByp b f).time = s.time := rfl
@[simp] theorem State.modByp_cores (b : Nat) (f : BypSt → BypSt) : (s.modByp b f).cores = s.cores := rfl
@[simp] theorem State.modByp_sub (b : Nat) (f : BypSt → BypSt) : (s.modByp b f).sub = s.sub := rfl
@[simp] theorem State.modByp_syn (b : Nat) (f : BypSt → BypSt) : (s.modByp b f).syn = s.syn := rfl
@[simp] theorem State.modByp_memx (b : Nat) (f : BypSt → BypSt) : (s.modByp b f).memx = s.memx := rfl
@[simp] theorem State.modByp_rpl (b : Nat) (f : BypSt → BypSt) : (s.modByp b f).rpl = s.rpl := rfl
@[simp] theorem State.modByp_ckp (b : Nat) (f : BypSt → BypSt) : (s.modByp b f).ckp = s.ckp := rfl
@[simp] theorem State.modByp_integ (b : Nat) (f : BypSt → BypSt) : (s.modByp b f).integ = s.integ := rfl
@[simp] theorem State.modByp_hrc (b : Nat) (f : BypSt → BypSt) : (s.modByp b f).hrc = s.hrc := rfl
@[simp] theorem State.modByp_fab (b : Nat) (f : BypSt → BypSt) : (s.modByp b f).fab = s.fab := rfl
@[simp] theorem State.modByp_pins (b : Nat) (f : BypSt → BypSt) : (s.modByp b f).pins = s.pins := rfl
@[simp] theorem State.modByp_sec (b : Nat) (f : BypSt → BypSt) : (s.modByp b f).sec = s.sec := rfl
@[simp] theorem State.modByp_pow (b : Nat) (f : BypSt → BypSt) : (s.modByp b f).pow = s.pow := rfl
@[simp] theorem State.modByp_snp (b : Nat) (f : BypSt → BypSt) : (s.modByp b f).snp = s.snp := rfl
@[simp] theorem State.modByp_fw (b : Nat) (f : BypSt → BypSt) : (s.modByp b f).fw = s.fw := rfl
@[simp] theorem State.modByp_pending (b : Nat) (f : BypSt → BypSt) : (s.modByp b f).pending = s.pending := rfl
@[simp] theorem State.fresh_regs : s.fresh.2.regs = s.regs := rfl
@[simp] theorem State.fresh_latch : s.fresh.2.latch = s.latch := rfl
@[simp] theorem State.fresh_lastRead : s.fresh.2.lastRead = s.lastRead := rfl
@[simp] theorem State.fresh_out : s.fresh.2.out = s.out := rfl
@[simp] theorem State.fresh_mem : s.fresh.2.mem = s.mem := rfl
@[simp] theorem State.fresh_poison : s.fresh.2.poison = s.poison := rfl
@[simp] theorem State.fresh_hostMem : s.fresh.2.hostMem = s.hostMem := rfl
@[simp] theorem State.fresh_time : s.fresh.2.time = s.time := rfl
@[simp] theorem State.fresh_cores : s.fresh.2.cores = s.cores := rfl
@[simp] theorem State.fresh_sub : s.fresh.2.sub = s.sub := rfl
@[simp] theorem State.fresh_syn : s.fresh.2.syn = s.syn := rfl
@[simp] theorem State.fresh_memx : s.fresh.2.memx = s.memx := rfl
@[simp] theorem State.fresh_rpl : s.fresh.2.rpl = s.rpl := rfl
@[simp] theorem State.fresh_ckp : s.fresh.2.ckp = s.ckp := rfl
@[simp] theorem State.fresh_integ : s.fresh.2.integ = s.integ := rfl
@[simp] theorem State.fresh_hrc : s.fresh.2.hrc = s.hrc := rfl
@[simp] theorem State.fresh_opt : s.fresh.2.opt = s.opt := rfl
@[simp] theorem State.fresh_fab : s.fresh.2.fab = s.fab := rfl
@[simp] theorem State.fresh_pins : s.fresh.2.pins = s.pins := rfl
@[simp] theorem State.fresh_sec : s.fresh.2.sec = s.sec := rfl
@[simp] theorem State.fresh_pow : s.fresh.2.pow = s.pow := rfl
@[simp] theorem State.fresh_snp : s.fresh.2.snp = s.snp := rfl
@[simp] theorem State.fresh_fw : s.fresh.2.fw = s.fw := rfl
@[simp] theorem State.fresh_pending : s.fresh.2.pending = s.pending := rfl

end Sys2Proof.Machine
end

