-- ==== Sys2Proof/Laws/Canon.lean ====
section
/-! SUPPORT. The canonical form that every operation over registers and memory keeps. -/
namespace Sys2Proof.Machine

variable {s : State}

/-- The canonical form, by its parts. -/
theorem State.canon_iff : s.canon = true ↔ swf Reg.resetOf s.regs = true ∧ swf memZero s.mem = true
    ∧ swf memZero s.hostMem = true ∧ scratchOk s.cores = true := by
  simp [State.canon, Memory.wf, and_assoc]

@[simp] theorem State.canon_regs (h : s.canon = true) : swf Reg.resetOf s.regs = true := (State.canon_iff.1 h).1
@[simp] theorem State.canon_mem (h : s.canon = true) : swf memZero s.mem = true := (State.canon_iff.1 h).2.1
@[simp] theorem State.canon_hostMem (h : s.canon = true) : swf memZero s.hostMem = true := (State.canon_iff.1 h).2.2.1
@[simp] theorem State.canon_cores (h : s.canon = true) : scratchOk s.cores = true := (State.canon_iff.1 h).2.2.2

/-- The canonical form of a state written out. -/
@[simp low] theorem State.canon_mk (regs latch lastRead out freeCtr mem poison hostMem time cores sub syn memx rpl ckp integ hrc opt fab pins sec pow snp fw pending) : (State.mk regs latch lastRead out freeCtr mem poison hostMem time cores sub syn memx rpl ckp integ hrc opt fab pins sec pow snp fw pending).canon = true ↔ swf Reg.resetOf regs = true ∧ swf memZero mem = true
    ∧ swf memZero hostMem = true ∧ scratchOk cores = true := State.canon_iff

/-- Fields that are no map of the form do not matter. -/
@[simp] theorem State.canon_same (latch lastRead out freeCtr poison time sub syn memx rpl ckp integ hrc opt fab pins sec pow snp fw pending) : (State.mk s.regs latch lastRead out freeCtr s.mem poison s.hostMem time s.cores sub syn memx rpl ckp integ hrc opt fab pins sec pow snp fw pending).canon = s.canon := id rfl

/-- Every entry of a sparse map that a write leaves was there before or is the one written. -/
theorem mem_sset {β : Type} [DecidableEq β] {d : Nat → β} {m : Sparse β} {k : Nat} {v : β} {e : Nat × β}
    (h : e ∈ sset d m k v) : e ∈ m ∨ e = (k, v) := by
  induction m with
  | nil => unfold sset at h; split at h <;> simp_all
  | cons a m ih =>
    unfold sset at h
    split at h
    · split at h <;> simp_all [or_comm]
    · split at h
      · split at h <;> simp_all [or_comm]
        rcases h with h | h <;> simp [h]
      · rcases List.mem_cons.1 h with h | h
        · simp [h]
        · rcases ih h with h | h <;> simp [h]

/-- What a key of a sparse map holds is an entry's value or the default. -/
theorem sget_cases {β : Type} {d : Nat → β} {m : Sparse β} {k : Nat} : (∃ e ∈ m, sget d m k = e.2) ∨ sget d m k = d k := by
  induction m with
  | nil => exact .inr rfl
  | cons a m ih =>
    unfold sget
    split
    · exact .inl ⟨a, by simp, rfl⟩
    · split
      · exact .inr rfl
      · rcases ih with ⟨e, h, h1⟩ | h
        · exact .inl ⟨e, by simp [h], h1⟩
        · exact .inr h

theorem scratchOk_iff {l : Sparse Core} : scratchOk l = true ↔ swf (fun _ => ({} : Core)) l = true ∧ ∀ e ∈ l, swf memZero e.2.sp = true := by
  simp [scratchOk, Memory.wf]

@[simp] theorem scratchOk_nil : scratchOk [] = true := id rfl

/-- A core's scratchpad is in canonical form. -/
@[simp] theorem State.canon_sp (h : s.canon = true) (c : Nat) : swf memZero (s.core c).sp = true := by
  unfold State.core
  rcases sget_cases (d := fun _ => ({} : Core)) (m := s.cores) (k := c) with ⟨e, he, h1⟩ | h1
  · rw [h1]; exact (scratchOk_iff.1 (State.canon_cores h)).2 e he
  · rw [h1]; rfl

@[simp] theorem scratchOk_sset {l : Sparse Core} {c : Nat} {v : Core} (hl : scratchOk l = true) (hv : swf memZero v.sp = true) :
    scratchOk (sset (fun _ => ({} : Core)) l c v) = true := by
  rw [scratchOk_iff] at hl ⊢
  refine ⟨swf_sset hl.1, fun e he => ?_⟩
  rcases mem_sset he with h1 | h1
  · exact hl.2 e h1
  · rw [h1]; exact hv

/-- The map of the cores of a canonical state. -/
@[simp] theorem State.canon_coreMap (h : s.canon = true) : swf (fun _ => ({} : Core)) s.cores = true := (scratchOk_iff.1 (State.canon_cores h)).1

/-- A state whose maps are those of a canonical state is canonical. -/
theorem State.canon_congr {t : State} (h : s.canon = true) (h1 : t.regs = s.regs) (h2 : t.mem = s.mem)
    (h3 : t.hostMem = s.hostMem) (h4 : t.cores = s.cores) : t.canon = true := by
  rw [State.canon_iff] at h ⊢
  rw [h1, h2, h3, h4]; exact h

/-! ### Primitive updates -/

@[simp] theorem State.setReg_canon (h : s.canon = true) (a : Nat) (v : Word) : (s.setReg a v).canon = true := by simp [State.setReg, h]
@[simp] theorem State.put_canon (h : s.canon = true) (f : Reg.Fld) (v : Nat) : (s.put f v).canon = true := State.setReg_canon h _ _
@[simp] theorem State.mark_canon (h : s.canon = true) (f : Reg.Fld) : (s.mark f).canon = true := State.put_canon h _ _
@[simp] theorem State.bump_canon (h : s.canon = true) (f : Reg.Fld) (n : Nat) : (s.bump f n).canon = true := State.put_canon h _ _
@[simp] theorem State.put64_canon (h : s.canon = true) (l u : Reg.Fld) (v : Nat) : (s.put64 l u v).canon = true :=
  State.put_canon (State.put_canon h _ _) _ _
@[simp] theorem State.setCore_canon (h : s.canon = true) (c : Nat) (v : Core) (hv : swf memZero v.sp = true) :
    (s.setCore c v).canon = true := by simp [State.setCore, h, hv]
@[simp] theorem State.modCore_canon (h : s.canon = true) (c : Nat) (f : Core → Core) (hf : swf memZero (f (s.core c)).sp = true) :
    (s.modCore c f).canon = true := State.setCore_canon h _ _ hf
@[simp] theorem canon_ite {c : Prop} [Decidable c] {a b : State} (ha : c → a.canon = true) (hb : ¬ c → b.canon = true) :
    (if c then a else b).canon = true := by
  split
  · exact ha ‹_›
  · exact hb ‹_›

@[simp] theorem State.when_canon (h : s.canon = true) (b : Bool) (f : State → State) (hf : b = true → (f s).canon = true) :
    (s.when b f).canon = true := by
  cases b with
  | false => exact h
  | true => exact hf rfl

@[simp] theorem State.each_canon {α : Type} (h : s.canon = true) (l : List α) (f : State → α → State)
    (hf : ∀ t x, t.canon = true → (f t x).canon = true) : (s.each l f).canon = true := by
  unfold State.each
  induction l generalizing s with
  | nil => exact h
  | cons x l ih => exact ih (hf s x h)

/-- A fold of updates that keep the form. -/
@[simp] theorem foldl_canon {α : Type} (h : s.canon = true) (l : List α) (f : State → α → State)
    (hf : ∀ t x, t.canon = true → (f t x).canon = true) : (l.foldl f s).canon = true := State.each_canon h l f hf

end Sys2Proof.Machine
end

