-- ==== Sys2Proof/Laws/CanonBase.lean ====
section
/-! SUPPORT. The canonical form (State.canon) is kept by the operations over health, faults, links, synchronization, submission, memory pages and training. -/
namespace Sys2Proof.Machine

/-! ### Machine/Ops.lean -/

@[simp] theorem State.setLatch_canon {s : State} (h : s.canon = true) (a : Nat) (v : Word) : (State.setLatch s a v).canon = true := by
  unfold State.setLatch
  simp +contextual (maxDischargeDepth := 30) [*]

@[simp] theorem State.answer_canon {s : State} (h : s.canon = true) (v : Word) : (State.answer s v).canon = true := by
  unfold State.answer
  simp +contextual (maxDischargeDepth := 30) [*]

@[simp] theorem State.emit_canon {s : State} (h : s.canon = true) (o : Out) : (State.emit s o).canon = true := by
  unfold State.emit
  simp +contextual (maxDischargeDepth := 30) [*]

@[simp] theorem State.fresh_canon {s : State} (h : s.canon = true) : (State.fresh s).2.canon = true := by
  unfold State.fresh
  dsimp only
  simp +contextual (maxDischargeDepth := 30) [*]

@[simp] theorem State.bumpFree_canon {s : State} (h : s.canon = true) (f : Reg.Fld) : (State.bumpFree s f).canon = true := by
  unfold State.bumpFree
  simp +contextual (maxDischargeDepth := 30) [*]

@[simp] theorem State.holdCycles_canon {s : State} (h : s.canon = true) (c : Nat) : (State.holdCycles s c).canon = true := by
  unfold State.holdCycles
  simp +contextual (maxDischargeDepth := 30) [*]

@[simp] theorem State.turn_canon {s : State} (h : s.canon = true) (k : Nat) : (State.turn s k).canon = true := by
  unfold State.turn
  dsimp only
  simp +contextual (maxDischargeDepth := 30) [*]

@[simp] theorem State.setRing_canon {s : State} (h : s.canon = true) (r : Nat) (v : RingX) : (State.setRing s r v).canon = true := by
  unfold State.setRing
  dsimp only
  simp +contextual (maxDischargeDepth := 30) [*]

@[simp] theorem State.modRing_canon {s : State} (h : s.canon = true) (r : Nat) (f : RingX → RingX) : (State.modRing s r f).canon = true := by
  unfold State.modRing
  simp +contextual (maxDischargeDepth := 30) [*]

@[simp] theorem State.setChan_canon {s : State} (h : s.canon = true) (n : Nat) (v : Chan) : (State.setChan s n v).canon = true := by
  unfold State.setChan
  dsimp only
  simp +contextual (maxDischargeDepth := 30) [*]

@[simp] theorem State.setObj_canon {s : State} (h : s.canon = true) (o : Nat) (v : SyncObj) : (State.setObj s o v).canon = true := by
  unfold State.setObj
  dsimp only
  simp +contextual (maxDischargeDepth := 30) [*]

@[simp] theorem State.setNbr_canon {s : State} (h : s.canon = true) (p : Nat) (v : Nbr) : (State.setNbr s p v).canon = true := by
  unfold State.setNbr
  dsimp only
  simp +contextual (maxDischargeDepth := 30) [*]

@[simp] theorem State.setCtx_canon {s : State} (h : s.canon = true) (c : Nat) (v : CtxX) : (State.setCtx s c v).canon = true := by
  unfold State.setCtx
  dsimp only
  simp +contextual (maxDischargeDepth := 30) [*]

@[simp] theorem State.modCtx_canon {s : State} (h : s.canon = true) (c : Nat) (f : CtxX → CtxX) : (State.modCtx s c f).canon = true := by
  unfold State.modCtx
  simp +contextual (maxDischargeDepth := 30) [*]

@[simp] theorem State.setOps_canon {s : State} (h : s.canon = true) (l : List Op) : (State.setOps s l).canon = true := by
  unfold State.setOps
  dsimp only
  simp +contextual (maxDischargeDepth := 30) [*]

@[simp] theorem State.modOp_canon {s : State} (h : s.canon = true) (r : Nat) (i : Nat) (f : Op → Op) : (State.modOp s r i f).canon = true := by
  unfold State.modOp
  simp +contextual (maxDischargeDepth := 30) [*]

@[simp] theorem State.dropOp_canon {s : State} (h : s.canon = true) (r : Nat) (i : Nat) : (State.dropOp s r i).canon = true := by
  unfold State.dropOp
  simp +contextual (maxDischargeDepth := 30) [*]

@[simp] theorem State.setByte_canon {s : State} (h : s.canon = true) (a : Nat) (b : Byte) : (State.setByte s a b).canon = true := by
  unfold State.setByte
  repeat' split
  all_goals first | assumption | simp +contextual (maxDischargeDepth := 30) [*]

@[simp] theorem State.setPa_canon {s : State} (h : s.canon = true) (a : Nat) (v : Byte) : (State.setPa s a v).canon = true := by
  unfold State.setPa
  repeat' split
  all_goals first | assumption | simp +contextual (maxDischargeDepth := 30) [*]

@[simp] theorem State.poisonAt_canon {s : State} (h : s.canon = true) (a : Nat) : (State.poisonAt s a).canon = true := by
  unfold State.poisonAt
  dsimp only
  repeat' split
  all_goals assumption

@[simp] theorem State.store_canon {s : State} (h : s.canon = true) (w : List Host.Cell) : (State.store s w).canon = true := by
  unfold State.store
  dsimp only
  simp +contextual (maxDischargeDepth := 30) [*]

@[simp] theorem State.storeAt_canon {s : State} (h : s.canon = true) (a : Nat) (bs : List Byte) : (State.storeAt s a bs).canon = true := by
  unfold State.storeAt
  simp +contextual (maxDischargeDepth := 30) [*]

@[simp] theorem State.hostStore_canon {s : State} (h : s.canon = true) (a : Nat) (bs : List Byte) : (State.hostStore s a bs).canon = true := by
  unfold State.hostStore
  simp +contextual (maxDischargeDepth := 30) [*]

@[simp] theorem State.zeroMem_canon {s : State} (h : s.canon = true) (lo : Nat) (hi : Nat) : (State.zeroMem s lo hi).canon = true := by
  unfold State.zeroMem
  dsimp only
  simp +contextual (maxDischargeDepth := 30) [*]

@[simp] theorem State.zeroSp_canon {s : State} (h : s.canon = true) (c : Nat) : (State.zeroSp s c).canon = true := by
  unfold State.zeroSp
  dsimp only
  simp +contextual (maxDischargeDepth := 30) [*]

@[simp] theorem State.fillTlb_canon {s : State} (h : s.canon = true) (c : Nat) (vas : List Nat) : (State.fillTlb s c vas).canon = true := by
  unfold State.fillTlb
  dsimp only
  simp +contextual (maxDischargeDepth := 30) [*]

@[simp] theorem State.engineOn_canon {s : State} (h : s.canon = true) : (State.engineOn s).canon = true := by
  unfold State.engineOn
  dsimp only
  simp +contextual (maxDischargeDepth := 30) [*]

@[simp] theorem State.engineOff_canon {s : State} (h : s.canon = true) : (State.engineOff s).canon = true := by
  unfold State.engineOff
  dsimp only
  simp +contextual (maxDischargeDepth := 30) [*]

@[simp] theorem State.withEngine_canon {s : State} (h : s.canon = true) (c : Nat) (vas : List Nat) (f : State → State) (hf_f : ∀ x0, x0.canon = true → (f x0).canon = true) : (State.withEngine s c vas f).canon = true := by
  unfold State.withEngine
  simp +contextual (maxDischargeDepth := 30) [*]

theorem State.writeVa_ok_canon {s : State} {c : Nat} {va : Nat} {bs : List Byte} {t : State} (x : State.writeVa s c va bs = .ok t) (h : s.canon = true) : t.canon = true := by
  unfold State.writeVa at x
  cases hx : s.xlateRun c va bs.length true <;> simp [hx, Except.map] at x
  rw [← x]
  exact State.store_canon h _

/-! ### Machine/Service.lean -/

@[simp] theorem State.modOpt_canon {s : State} (h : s.canon = true) (f : OptSt → OptSt) : (State.modOpt s f).canon = true := by
  unfold State.modOpt
  simp +contextual (maxDischargeDepth := 30) [*]

@[simp] theorem State.modPort_canon {s : State} (h : s.canon = true) (p : Nat) (f : PortSt → PortSt) : (State.modPort s p f).canon = true := by
  unfold State.modPort
  simp +contextual (maxDischargeDepth := 30) [*]

@[simp] theorem State.modTuner_canon {s : State} (h : s.canon = true) (k : Nat) (f : RingSt → RingSt) : (State.modTuner s k f).canon = true := by
  unfold State.modTuner
  simp +contextual (maxDischargeDepth := 30) [*]

@[simp] theorem State.svcOut_canon {s : State} (h : s.canon = true) (p : Nat) (m : SvcBody) (hops : Nat) : (State.svcOut s p m hops).canon = true := by
  unfold State.svcOut
  dsimp only
  repeat' split
  all_goals assumption

@[simp] theorem State.svcIdle_canon {s : State} (h : s.canon = true) (p : Nat) (nak : Bool) : (State.svcIdle s p nak).canon = true := by
  unfold State.svcIdle
  repeat' split
  all_goals assumption

@[simp] theorem State.svcResend_canon {s : State} (h : s.canon = true) (p : Nat) (hack : Nat) : (State.svcResend s p hack).canon = true := by
  unfold State.svcResend
  simp +contextual (maxDischargeDepth := 30) [*]

@[simp] theorem State.svcCast_canon {s : State} (h : s.canon = true) (m : SvcBody) : (State.svcCast s m).canon = true := by
  unfold State.svcCast
  simp +contextual (maxDischargeDepth := 30) [*]

/-! ### Machine/Idfort.lean -/

@[simp] theorem State.modSec_canon {s : State} (h : s.canon = true) (f : SecSt → SecSt) : (State.modSec s f).canon = true := by
  unfold State.modSec
  simp +contextual (maxDischargeDepth := 30) [*]

@[simp] theorem State.modPow_canon {s : State} (h : s.canon = true) (f : PowSt → PowSt) : (State.modPow s f).canon = true := by
  unfold State.modPow
  simp +contextual (maxDischargeDepth := 30) [*]

@[simp] theorem State.modPins_canon {s : State} (h : s.canon = true) (f : PinSt → PinSt) : (State.modPins s f).canon = true := by
  unfold State.modPins
  simp +contextual (maxDischargeDepth := 30) [*]

@[simp] theorem State.modFw_canon {s : State} (h : s.canon = true) (f : FwSt → FwSt) : (State.modFw s f).canon = true := by
  unfold State.modFw
  simp +contextual (maxDischargeDepth := 30) [*]

@[simp] theorem State.refreshPower_canon {s : State} (h : s.canon = true) : (State.refreshPower s).canon = true := by
  unfold State.refreshPower
  dsimp only
  repeat' split
  all_goals first | assumption | simp +contextual (maxDischargeDepth := 30) [*]

@[simp] theorem State.setSec_canon {s : State} (h : s.canon = true) (v : Nat) : (State.setSec s v).canon = true := by
  unfold State.setSec
  repeat' split
  all_goals first | assumption | simp +contextual (maxDischargeDepth := 30) [*]

@[simp] theorem State.unseal_canon {s : State} (h : s.canon = true) : (State.unseal s).canon = true := by
  unfold State.unseal
  repeat' split
  all_goals first | assumption | simp +contextual (maxDischargeDepth := 30) [*]

@[simp] theorem State.eraseWeight_canon {s : State} (h : s.canon = true) (k : Nat) : (State.eraseWeight s k).canon = true := by
  unfold State.eraseWeight
  simp +contextual (maxDischargeDepth := 30) [*]

@[simp] theorem State.eraseLink_canon {s : State} (h : s.canon = true) (k : Nat) : (State.eraseLink s k).canon = true := by
  unfold State.eraseLink
  simp +contextual (maxDischargeDepth := 30) [*]

@[simp] theorem State.eraseKeys_canon {s : State} (h : s.canon = true) (c : Nat) : (State.eraseKeys s c).canon = true := by
  unfold State.eraseKeys
  dsimp only
  repeat' split
  all_goals first | assumption | simp +contextual (maxDischargeDepth := 30) [*]

@[simp] theorem State.byCp_canon {s : State} (h : s.canon = true) (p : Party) (f : State → State) (hf_f : ∀ x0, x0.canon = true → (f x0).canon = true) : (State.byCp s p f).canon = true := by
  unfold State.byCp
  repeat' split
  all_goals first | assumption | simp +contextual (maxDischargeDepth := 30) [*]

@[simp] theorem State.setConn_canon {s : State} (h : s.canon = true) (p : Nat) (n : Nat) : (State.setConn s p n).canon = true := by
  unfold State.setConn
  simp +contextual (maxDischargeDepth := 30) [*]

@[simp] theorem State.byOperator_canon {s : State} (h : s.canon = true) (p : Nat) (f : State → Option State) (hf_f : ∀ t, f s = some t → t.canon = true) : (State.byOperator s p f).canon = true := by
  unfold State.byOperator
  split
  · exact h
  · split
    · simp +contextual (maxDischargeDepth := 30) [h]
    · split
      · exact State.emit_canon (hf_f _ ‹_›) _
      · simp +contextual (maxDischargeDepth := 30) [h]

/-! ### Machine/Health.lean -/

@[simp] theorem State.modInt_canon {s : State} (h : s.canon = true) (f : IntSt → IntSt) : (State.modInt s f).canon = true := by
  unfold State.modInt
  simp +contextual (maxDischargeDepth := 30) [*]

@[simp] theorem State.writeCper_canon {s : State} (h : s.canon = true) (c : Cper) : (State.writeCper s c).canon = true := by
  unfold State.writeCper
  dsimp only
  simp +contextual (maxDischargeDepth := 30) [*]

@[simp] theorem State.arrayOn_canon {s : State} (h : s.canon = true) (c : Nat) : (State.arrayOn s c).canon = true := by
  unfold State.arrayOn
  simp +contextual (maxDischargeDepth := 30) [*]

@[simp] theorem State.setDuty_canon {s : State} (h : s.canon = true) (level : Nat → Nat) : (State.setDuty s level).canon = true := by
  unfold State.setDuty
  dsimp only
  simp +contextual (maxDischargeDepth := 30) [*]

@[simp] theorem State.cper_canon {s : State} (h : s.canon = true) (c : Cper) (temp : Option Int) (ctx : Option Nat) : (State.cper s c temp ctx).canon = true := by
  unfold State.cper
  dsimp only
  repeat' split
  all_goals first | assumption | simp +contextual (maxDischargeDepth := 30) [*]

@[simp] theorem State.setScore_canon {s : State} (h : s.canon = true) (kind : Nat) (index : Nat) (v : Nat) : (State.setScore s kind index v).canon = true := by
  unfold State.setScore
  dsimp only
  simp +contextual (maxDischargeDepth := 30) [*]

@[simp] theorem State.charge_canon {s : State} (h : s.canon = true) (kind : Nat) (index : Nat) (n : Nat) : (State.charge s kind index n).canon = true := by
  unfold State.charge
  dsimp only
  simp +contextual (maxDischargeDepth := 30) [*]

@[simp] theorem State.chargeNoted_canon {s : State} (h : s.canon = true) (kind : Nat) (index : Nat) (n : Nat) (fault : Nat) : (State.chargeNoted s kind index n fault).canon = true := by
  unfold State.chargeNoted
  dsimp only
  simp +contextual (maxDischargeDepth := 30) [*]

@[simp] theorem State.teeOut_canon {s : State} (h : s.canon = true) (d : Nat) (n : Nat) : (State.teeOut s d n).canon = true := by
  unfold State.teeOut
  dsimp only
  simp +contextual (maxDischargeDepth := 30) [*]

@[simp] theorem State.endSeq_canon {s : State} (h : s.canon = true) (p : Nat) (tile : Nat) : (State.endSeq s p tile).canon = true := by
  unfold State.endSeq
  dsimp only
  repeat' split
  all_goals first | assumption | simp +contextual (maxDischargeDepth := 30) [*]

@[simp] theorem State.skipDups_canon {s : State} (h : s.canon = true) (f : DupEntry → Bool) : (State.skipDups s f).canon = true := by
  unfold State.skipDups
  dsimp only
  simp +contextual (maxDischargeDepth := 30) [*]

@[simp] theorem State.endSeqs_canon {s : State} (h : s.canon = true) (p : Nat) : (State.endSeqs s p).canon = true := by
  unfold State.endSeqs
  simp +contextual (maxDischargeDepth := 30) [*]

@[simp] theorem State.beginSeq_canon {s : State} (h : s.canon = true) (p : Nat) (tile : Nat) (o : Op) : (State.beginSeq s p tile o).canon = true := by
  unfold State.beginSeq
  dsimp only
  repeat' split
  all_goals first | assumption | simp +contextual (maxDischargeDepth := 30) [*]

@[simp] theorem State.teeSeq_canon {s : State} (h : s.canon = true) (p : Nat) (tiles : List Nat) (job : Option MmaJob) (n : Nat) : (State.teeSeq s p tiles job n).canon = true := by
  unfold State.teeSeq
  simp +contextual (maxDischargeDepth := 30) [*]

@[simp] theorem State.addBand_canon {s : State} (h : s.canon = true) (c : Nat) (temp : Int) : (State.addBand s c temp).canon = true := by
  unfold State.addBand
  dsimp only
  simp +contextual (maxDischargeDepth := 30) [*]

/-! ### Machine/Errors.lean -/

@[simp] theorem State.latchErr_canon {s : State} (h : s.canon = true) (kind : Nat) (pa : Nat) (ctx : Option Nat) : (State.latchErr s kind pa ctx).canon = true := by
  unfold State.latchErr
  dsimp only
  repeat' split
  all_goals first | assumption | simp +contextual (maxDischargeDepth := 30) [*]

@[simp] theorem State.modMem_canon {s : State} (h : s.canon = true) (f : MemSt → MemSt) : (State.modMem s f).canon = true := by
  unfold State.modMem
  simp +contextual (maxDischargeDepth := 30) [*]

@[simp] theorem State.correctedErr_canon {s : State} (h : s.canon = true) (pa : Nat) (ctx : Option Nat) : (State.correctedErr s pa ctx).canon = true := by
  unfold State.correctedErr
  dsimp only
  repeat' split
  all_goals first | assumption | simp +contextual (maxDischargeDepth := 30) [*]

@[simp] theorem State.countUe_canon {s : State} (h : s.canon = true) (pa : Nat) (ctx : Option Nat) : (State.countUe s pa ctx).canon = true := by
  unfold State.countUe
  dsimp only
  repeat' split
  all_goals first | assumption | simp +contextual (maxDischargeDepth := 30) [*]

@[simp] theorem State.markUe_canon {s : State} (h : s.canon = true) (pa : Nat) (ctx : Option Nat) : (State.markUe s pa ctx).canon = true := by
  unfold State.markUe
  simp +contextual (maxDischargeDepth := 30) [*]

@[simp] theorem State.meetErrs_canon {s : State} (h : s.canon = true) (ctx : Option Nat) (inRead : Nat → Bool) (e : MemErr) : (State.meetErrs s ctx inRead e).canon = true := by
  unfold State.meetErrs
  dsimp only
  simp +contextual (maxDischargeDepth := 30) [*]

@[simp] theorem State.ueMemory_canon {s : State} (h : s.canon = true) (pa : Nat) : (State.ueMemory s pa).2.canon = true := by
  unfold State.ueMemory
  dsimp only
  repeat' split
  all_goals assumption

@[simp] theorem State.noteUePage_canon {s : State} (h : s.canon = true) (c : Nat) (pa : Nat) : (State.noteUePage s c pa).canon = true := by
  unfold State.noteUePage
  repeat' split
  all_goals assumption

@[simp] theorem State.consumeUe_canon {s : State} (h : s.canon = true) (pa : Nat) (ctx : Option Nat) : (State.consumeUe s pa ctx).2.canon = true := by
  unfold State.consumeUe
  dsimp only
  repeat' split
  all_goals first | assumption | simp +contextual (maxDischargeDepth := 30) [*]

/-! ### Machine/Records.lean -/

@[simp] theorem State.msix_canon {s : State} (h : s.canon = true) (v : Nat) : (State.msix s v).canon = true := by
  unfold State.msix
  simp +contextual (maxDischargeDepth := 30) [*]

@[simp] theorem State.modHrc_canon {s : State} (h : s.canon = true) (f : HrcSt → HrcSt) : (State.modHrc s f).canon = true := by
  unfold State.modHrc
  simp +contextual (maxDischargeDepth := 30) [*]

@[simp] theorem State.flogWrite_canon {s : State} (h : s.canon = true) (r : FaultRec) : (State.flogWrite s r).canon = true := by
  unfold State.flogWrite
  dsimp only
  repeat' split
  all_goals first | assumption | simp +contextual (maxDischargeDepth := 30) [*]

@[simp] theorem State.logRec_canon {s : State} (h : s.canon = true) (r : FaultRec) : (State.logRec s r).canon = true := by
  unfold State.logRec
  dsimp only
  repeat' split
  all_goals first | assumption | simp +contextual (maxDischargeDepth := 30) [*]

@[simp] theorem State.clearVote_canon {s : State} (h : s.canon = true) (c : Nat) (b : Nat) : (State.clearVote s c b).canon = true := by
  unfold State.clearVote
  simp +contextual (maxDischargeDepth := 30) [*]

@[simp] theorem State.discardNext_canon {s : State} (h : s.canon = true) (c : Nat) : (State.discardNext s c).canon = true := by
  unfold State.discardNext
  simp +contextual (maxDischargeDepth := 30) [*]

@[simp] theorem State.dirty_canon {s : State} (h : s.canon = true) (c : Nat) (b : Nat) : (State.dirty s c b).canon = true := by
  unfold State.dirty
  repeat' split
  all_goals first | assumption | simp +contextual (maxDischargeDepth := 30) [*]

/-! ### Machine/Tracked.lean -/

@[simp] theorem State.ueRecord_canon {s : State} (h : s.canon = true) (p : PartyRec) (unitKind : Nat) (unit : Nat) (pa : Nat) : (State.ueRecord s p unitKind unit pa).canon = true := by
  unfold State.ueRecord
  dsimp only
  simp +contextual (maxDischargeDepth := 30) [*]

@[simp] theorem State.setDirtyBit_canon {s : State} (h : s.canon = true) (g : Nat) : (State.setDirtyBit s g).canon = true := by
  unfold State.setDirtyBit
  dsimp only
  repeat' split
  all_goals first | assumption | simp +contextual (maxDischargeDepth := 30) [*]

@[simp] theorem State.modCkp_canon {s : State} (h : s.canon = true) (f : CkpSt → CkpSt) : (State.modCkp s f).canon = true := by
  unfold State.modCkp
  simp +contextual (maxDischargeDepth := 30) [*]

@[simp] theorem State.unwait_canon {s : State} (h : s.canon = true) (w : Writer) : (State.unwait s w).canon = true := by
  unfold State.unwait
  simp +contextual (maxDischargeDepth := 30) [*]

@[simp] theorem State.waitShadow_canon {s : State} (h : s.canon = true) (w : Writer) (pre : Bool) : (State.waitShadow s w pre).canon = true := by
  unfold State.waitShadow
  simp +contextual (maxDischargeDepth := 30) [*]

@[simp] theorem State.copyPage_canon {s : State} (h : s.canon = true) (src : Nat) (dst : Nat) : (State.copyPage s src dst).canon = true := by
  unfold State.copyPage
  dsimp only
  simp +contextual (maxDischargeDepth := 30) [*]

theorem State.preImage_canon {s : State} {w : Writer} {pa : Nat} {va : Nat} {ckpt : Option Nat} {pre : Option Nat} {t : State} (x : State.preImage s w pa va ckpt pre = .go t) (h : s.canon = true) : t.canon = true := by
  unfold State.preImage at x
  try dsimp only at x
  repeat' split at x
  all_goals first
    | contradiction
    | (simp only [Option.some.injEq, Except.ok.injEq, Except.error.injEq, Pre.go.injEq, reduceCtorEq] at x; done)
    | (simp only [Option.some.injEq, Except.ok.injEq, Except.error.injEq, Pre.go.injEq] at x; subst x; first | assumption | simp +contextual (maxDischargeDepth := 30) [*])

@[simp] theorem State.releaseShadow_canon {s : State} (h : s.canon = true) (f : ShadowPg → ShadowPg) : (State.releaseShadow s f).canon = true := by
  unfold State.releaseShadow
  simp +contextual (maxDischargeDepth := 30) [*]

theorem State.touchPage_canon {s : State} {w : Writer} {pa : Nat} {t : State} (x : State.touchPage s w pa = .go t) (h : s.canon = true) : t.canon = true := by
  unfold State.touchPage at x
  try dsimp only at x
  repeat' split at x
  all_goals try have := State.preImage_canon ‹State.preImage _ _ _ _ _ _ = .go _› (by first | assumption | simp +contextual (maxDischargeDepth := 30) [*])
  all_goals first
    | contradiction
    | (simp only [Option.some.injEq, Except.ok.injEq, Except.error.injEq, Pre.go.injEq, reduceCtorEq] at x; done)
    | (simp only [Option.some.injEq, Except.ok.injEq, Except.error.injEq, Pre.go.injEq] at x; subst x; first | assumption | simp +contextual (maxDischargeDepth := 30) [*])
    | exact State.preImage_canon x (by first | assumption | simp +contextual (maxDischargeDepth := 30) [*])

theorem State.touchPages_canon {s : State} {w : Writer} {l : List Nat} {t : State} (x : s.touchPages w l = .go t) (h : s.canon = true) :
    t.canon = true := by
  induction l generalizing s with
  | nil => injection x with x; rw [← x]; exact State.unwait_canon h _
  | cons a l ih =>
    unfold State.touchPages at x
    split at x
    · rename_i hp; exact ih x (State.touchPage_canon hp h)
    · rename_i hn; exact absurd x (by simpa using hn t)

@[simp] theorem State.countCheck_canon {s : State} (h : s.canon = true) (loc : Nat) (unitKind : Nat) (unit : Nat) (offset : Nat) (ctx : Option Nat) (opc : Nat) : (State.countCheck s loc unitKind unit offset ctx opc).canon = true := by
  unfold State.countCheck
  dsimp only
  simp +contextual (maxDischargeDepth := 30) [*]

/-! ### Machine/Faults.lean -/

@[simp] theorem State.hubFault_canon {s : State} (h : s.canon = true) (p : PartyRec) (kind : Nat) (code : Nat) (detail : List (Nat × Nat)) : (State.hubFault s p kind code detail).canon = true := by
  unfold State.hubFault
  simp +contextual (maxDischargeDepth := 30) [*]

@[simp] theorem State.hubStore_canon {s : State} (hc : s.canon = true) (h : HeldWrite) (e : MemErr) : (State.hubStore s h e).1.canon = true := by
  unfold State.hubStore
  dsimp only
  repeat' split
  all_goals try have := State.touchPages_canon ‹State.touchPages _ _ _ = .go _› (by first | assumption | simp +contextual (maxDischargeDepth := 30) [*])
  all_goals first | assumption | simp +contextual (maxDischargeDepth := 30) [*]

theorem State.hubStore_eq_canon {s : State} {h : HeldWrite} {e : MemErr} {a : State} {b : Bool} (x : State.hubStore s h e = (a, b)) (hc : s.canon = true) : a.canon = true := by
  have := State.hubStore_canon hc h e
  rw [x] at this; exact this

@[simp] theorem State.hubWrite_canon {s : State} (hc : s.canon = true) (h : HeldWrite) (e : MemErr) : (State.hubWrite s h e).canon = true := by
  unfold State.hubWrite
  dsimp only
  repeat' split
  all_goals try have := State.hubStore_eq_canon ‹State.hubStore _ _ _ = (_, _)› (by first | assumption | simp +contextual (maxDischargeDepth := 30) [*])
  all_goals assumption

@[simp] theorem heldWrites_canon {l2_ : State} (h : l2_.canon = true) (l1_ : Nat) : (heldWrites l1_ l2_).canon = true := by
  induction l1_ generalizing l2_ with
  | zero => exact h
  | succ n ih =>
    unfold heldWrites
    repeat' split
    all_goals try have := State.hubStore_eq_canon ‹State.hubStore _ _ _ = (_, _)› (by first | assumption | simp +contextual (maxDischargeDepth := 30) [*])
    all_goals first | assumption | simp +contextual (maxDischargeDepth := 30) [*]

@[simp] theorem State.flushHeld_canon {s : State} (h : s.canon = true) : (State.flushHeld s).canon = true := by
  unfold State.flushHeld
  simp +contextual (maxDischargeDepth := 30) [*]

@[simp] theorem State.ringWrite_canon {s : State} (h : s.canon = true) (r : Nat) (addr : Nat) (bs : List Byte) (e : MemErr) : (State.ringWrite s r addr bs e).canon = true := by
  unfold State.ringWrite
  dsimp only
  repeat' split
  all_goals first | assumption | simp +contextual (maxDischargeDepth := 30) [*]

@[simp] theorem State.writeCb_canon {s : State} (h : s.canon = true) (r : Nat) (e : MemErr) : (State.writeCb s r e).canon = true := by
  unfold State.writeCb
  dsimp only
  simp +contextual (maxDischargeDepth := 30) [*]

@[simp] theorem State.recordOp_canon {s : State} (h : s.canon = true) (o : Op) (status : Nat) (code : Nat) (e : MemErr) : (State.recordOp s o status code e).canon = true := by
  unfold State.recordOp
  dsimp only
  repeat' split
  all_goals first | assumption | simp +contextual (maxDischargeDepth := 30) [*]

@[simp] theorem State.flushFin_canon {l2_ : State} (h : l2_.canon = true) (l1_ : Nat) (l3_ : Nat) : (State.flushFin l1_ l2_ l3_).canon = true := by
  induction l1_ generalizing l2_ l3_ with
  | zero => exact h
  | succ n ih =>
    unfold State.flushFin
    dsimp only
    repeat' split
    all_goals first | assumption | simp +contextual (maxDischargeDepth := 30) [*]

@[simp] theorem State.dropWaiter_canon {s : State} (h : s.canon = true) (obj : Nat) (w : Waiter) : (State.dropWaiter s obj w).canon = true := by
  unfold State.dropWaiter
  dsimp only
  simp +contextual (maxDischargeDepth := 30) [*]

@[simp] theorem State.dropCoreWait_canon {s : State} (h : s.canon = true) (c : Nat) : (State.dropCoreWait s c).canon = true := by
  unfold State.dropCoreWait
  repeat' split
  all_goals assumption

@[simp] theorem State.stopCores_canon {s : State} (h : s.canon = true) (o : Op) : (State.stopCores s o).canon = true := by
  unfold State.stopCores
  dsimp only
  repeat' split
  all_goals first | assumption | simp +contextual (maxDischargeDepth := 30) [*]

@[simp] theorem State.dropOwned_canon {s : State} (h : s.canon = true) (mine : Owner → Bool) : (State.dropOwned s mine).canon = true := by
  unfold State.dropOwned
  dsimp only
  simp +contextual (maxDischargeDepth := 30) [*]

@[simp] theorem State.dropCells_canon {s : State} (h : s.canon = true) (o : Op) : (State.dropCells s o).canon = true := by
  unfold State.dropCells
  dsimp only
  simp +contextual (maxDischargeDepth := 30) [*]

@[simp] theorem State.mirrorStale_canon {s : State} (h : s.canon = true) : (State.mirrorStale s).canon = true := by
  unfold State.mirrorStale
  repeat' split
  all_goals first | assumption | simp +contextual (maxDischargeDepth := 30) [*]

@[simp] theorem State.endQuiet_canon {s : State} (h : s.canon = true) (o : Op) (status : Nat) (code : Nat) : (State.endQuiet s o status code).canon = true := by
  unfold State.endQuiet
  dsimp only
  simp +contextual (maxDischargeDepth := 30) [*]

@[simp] theorem State.holdSync_canon {s : State} (h : s.canon = true) (x : HeldSync) : (State.holdSync s x).canon = true := by
  unfold State.holdSync
  dsimp only
  simp +contextual (maxDischargeDepth := 30) [*]

@[simp] theorem State.barOut_canon {s : State} (h : s.canon = true) (p : Nat) (m : SyncMsg) : (State.barOut s p m).canon = true := by
  unfold State.barOut
  simp +contextual (maxDischargeDepth := 30) [*]

@[simp] theorem State.barSend_canon {s : State} (h : s.canon = true) (p : Nat) (m : SyncMsg) : (State.barSend s p m).canon = true := by
  unfold State.barSend
  repeat' split
  all_goals first | assumption | simp +contextual (maxDischargeDepth := 30) [*]

@[simp] theorem State.failArrival_canon {s : State} (h : s.canon = true) (o : Op) : (State.failArrival s o).canon = true := by
  unfold State.failArrival
  dsimp only
  repeat' split
  all_goals first | assumption | simp +contextual (maxDischargeDepth := 30) [*]

@[simp] theorem State.breakOnly_canon {s : State} (h : s.canon = true) (obj : Nat) (c : Nat) (vid : Nat) (origin : Option Nat) (past : Bool) : (State.breakOnly s obj c vid origin past).canon = true := by
  unfold State.breakOnly
  dsimp only
  simp +contextual (maxDischargeDepth := 30) [*]

@[simp] theorem sendBreaks_canon {l2_ : State} (h : l2_.canon = true) (l1_ : Nat) : (sendBreaks l1_ l2_).canon = true := by
  induction l1_ generalizing l2_ with
  | zero => exact h
  | succ n ih =>
    unfold sendBreaks
    dsimp only
    repeat' split
    all_goals first | assumption | simp +contextual (maxDischargeDepth := 30) [*]

@[simp] theorem State.flushBreaks_canon {s : State} (h : s.canon = true) : (State.flushBreaks s).canon = true := by
  unfold State.flushBreaks
  simp +contextual (maxDischargeDepth := 30) [*]

@[simp] theorem State.breakObj_canon {s : State} (h : s.canon = true) (obj : Nat) (c : Nat) (vid : Nat) (origin : Option Nat) (past : Bool) : (State.breakObj s obj c vid origin past).canon = true := by
  unfold State.breakObj
  simp +contextual (maxDischargeDepth := 30) [*]

@[simp] theorem State.cause_canon {s : State} (h : s.canon = true) (c : Nat) (b : Nat) : (State.cause s c b).canon = true := by
  unfold State.cause
  simp +contextual (maxDischargeDepth := 30) [*]

@[simp] theorem State.raise_canon {s : State} (h : s.canon = true) (r : FaultRec) : (State.raise s r).canon = true := by
  unfold State.raise
  dsimp only
  repeat' split
  all_goals first | assumption | simp +contextual (maxDischargeDepth := 30) [*]

@[simp] theorem State.endOp_canon {s : State} (h : s.canon = true) (o : Op) (status : Nat) (code : Nat) : (State.endOp s o status code).canon = true := by
  unfold State.endOp
  dsimp only
  repeat' split
  all_goals first | assumption | simp +contextual (maxDischargeDepth := 30) [*]

@[simp] theorem State.faultOp_canon {s : State} (h : s.canon = true) (o : Op) (code : Nat) (unitKind : Nat) (unit : Nat) (detail : List (Nat × Nat)) : (State.faultOp s o code unitKind unit detail).canon = true := by
  unfold State.faultOp
  simp +contextual (maxDischargeDepth := 30) [*]

@[simp] theorem State.faultMany_canon {s : State} (h : s.canon = true) (l : List Op) (code : Nat) (unitKind : Nat) (unit : Nat) (detail : Op → List (Nat × Nat)) : (State.faultMany s l code unitKind unit detail).canon = true := by
  unfold State.faultMany
  dsimp only
  simp +contextual (maxDischargeDepth := 30) [*]

@[simp] theorem State.stopLaunch_canon {s : State} (h : s.canon = true) (c : Nat) (code : Nat) (detail : List (Nat × Nat)) : (State.stopLaunch s c code detail).canon = true := by
  unfold State.stopLaunch
  repeat' split
  all_goals first | assumption | simp +contextual (maxDischargeDepth := 30) [*]

@[simp] theorem State.finish_canon {s : State} (h : s.canon = true) (o : Op) (status : Nat) (code : Nat) : (State.finish s o status code).canon = true := by
  unfold State.finish
  dsimp only
  simp +contextual (maxDischargeDepth := 30) [*]

/-! ### Machine/Paging.lean -/

theorem State.unitWrite_canon {s : State} {who : Writer} {c : Nat} {w : List (Nat × Byte)} {t : State} (x : State.unitWrite s who c w = .ok t) (h : s.canon = true) : t.canon = true := by
  unfold State.unitWrite at x
  try dsimp only at x
  repeat' split at x
  all_goals try have := State.touchPages_canon ‹State.touchPages _ _ _ = .go _› (by first | assumption | simp +contextual (maxDischargeDepth := 30) [*])
  all_goals first
    | contradiction
    | (simp only [Option.some.injEq, Except.ok.injEq, Except.error.injEq, Pre.go.injEq, Wrote.ok.injEq, Stored.ok.injEq, Stored.stop.injEq, reduceCtorEq] at x; done)
    | (simp only [Option.some.injEq, Except.ok.injEq, Except.error.injEq, Pre.go.injEq, Wrote.ok.injEq, Stored.ok.injEq, Stored.stop.injEq] at x; subst x; first | assumption | simp +contextual (maxDischargeDepth := 30) [*])
    | exact State.touchPages_canon x (by first | assumption | simp +contextual (maxDischargeDepth := 30) [*])

@[simp] theorem State.ueOp_canon {s : State} (h : s.canon = true) (o : Op) (unitKind : Nat) (unit : Nat) (pa : Nat) : (State.ueOp s o unitKind unit pa).canon = true := by
  unfold State.ueOp
  dsimp only
  simp +contextual (maxDischargeDepth := 30) [*]

@[simp] theorem State.checkOp_canon {s : State} (h : s.canon = true) (o : Op) (unitKind : Nat) (unit : Nat) (loc : Nat) (pa : Nat) : (State.checkOp s o unitKind unit loc pa).canon = true := by
  unfold State.checkOp
  simp +contextual (maxDischargeDepth := 30) [*]

@[simp] theorem State.parityOp_canon {s : State} (h : s.canon = true) (o : Op) (unitKind : Nat) (unit : Nat) (pa : Nat) : (State.parityOp s o unitKind unit pa).canon = true := by
  unfold State.parityOp
  simp +contextual (maxDischargeDepth := 30) [*]

@[simp] theorem State.spWaits_canon {s : State} (h : s.canon = true) (pas : List Nat) : (State.spWaits s pas).canon = true := by
  unfold State.spWaits
  simp +contextual (maxDischargeDepth := 30) [*]

@[simp] theorem State.meetRead_canon {s : State} (h : s.canon = true) (o : Op) (pas : List Nat) (e : MemErr) : (State.meetRead s o pas e).1.canon = true := by
  unfold State.meetRead
  dsimp only
  simp +contextual (maxDischargeDepth := 30) [*]

@[simp] theorem State.readStop_canon {t : State} (h : t.canon = true) (o : Op) (u : Nat × Nat) (loc : Nat) (l1_ : ReadErr) : (State.readStop t o u loc l1_).canon = true := by
  unfold State.readStop
  repeat' split
  all_goals first | assumption | simp +contextual (maxDischargeDepth := 30) [*]

theorem State.storeFor_ok_canon {s0 : State} {w : Writer} {o : Op} {unitKind : Nat} {unit : Nat} {addr : Nat} {cells : List Host.Cell} {e : MemErr} {t : State} (x : State.storeFor s0 w o unitKind unit addr cells e = .ok t) (h : s0.canon = true) : t.canon = true := by
  unfold State.storeFor at x
  try dsimp only at x
  repeat' split at x
  all_goals try have := State.touchPages_canon ‹State.touchPages _ _ _ = .go _› (by first | assumption | simp +contextual (maxDischargeDepth := 30) [*])
  all_goals first
    | contradiction
    | (simp only [Option.some.injEq, Except.ok.injEq, Except.error.injEq, Pre.go.injEq, Wrote.ok.injEq, Stored.ok.injEq, Stored.stop.injEq, reduceCtorEq] at x; done)
    | (simp only [Option.some.injEq, Except.ok.injEq, Except.error.injEq, Pre.go.injEq, Wrote.ok.injEq, Stored.ok.injEq, Stored.stop.injEq] at x; subst x; first | assumption | simp +contextual (maxDischargeDepth := 30) [*])
    | exact State.touchPages_canon x (by first | assumption | simp +contextual (maxDischargeDepth := 30) [*])
    | (cases x; first | assumption | simp +contextual (maxDischargeDepth := 30) [*])

theorem State.storeFor_stop_canon {s0 : State} {w : Writer} {o : Op} {unitKind : Nat} {unit : Nat} {addr : Nat} {cells : List Host.Cell} {e : MemErr} {t : State} (x : State.storeFor s0 w o unitKind unit addr cells e = .stop t) (h : s0.canon = true) : t.canon = true := by
  unfold State.storeFor at x
  try dsimp only at x
  repeat' split at x
  all_goals try have := State.touchPages_canon ‹State.touchPages _ _ _ = .go _› (by first | assumption | simp +contextual (maxDischargeDepth := 30) [*])
  all_goals first
    | contradiction
    | (simp only [Option.some.injEq, Except.ok.injEq, Except.error.injEq, Pre.go.injEq, Wrote.ok.injEq, Stored.ok.injEq, Stored.stop.injEq, reduceCtorEq] at x; done)
    | (simp only [Option.some.injEq, Except.ok.injEq, Except.error.injEq, Pre.go.injEq, Wrote.ok.injEq, Stored.ok.injEq, Stored.stop.injEq] at x; subst x; first | assumption | simp +contextual (maxDischargeDepth := 30) [*])
    | exact State.touchPages_canon x (by first | assumption | simp +contextual (maxDischargeDepth := 30) [*])
    | (cases x; first | assumption | simp +contextual (maxDischargeDepth := 30) [*])

@[simp] theorem State.accessRec_canon {s : State} (h : s.canon = true) (c : Nat) (unitKind : Nat) (unit : Nat) (va : Nat) : (State.accessRec s c unitKind unit va).1.canon = true := by
  unfold State.accessRec
  dsimp only
  repeat' split
  all_goals first | assumption | simp +contextual (maxDischargeDepth := 30) [*]

@[simp] theorem State.xlateFault_canon {s : State} (h : s.canon = true) (o : Op) (unitKind : Nat) (unit : Nat) (va : Nat) : (State.xlateFault s o unitKind unit va).canon = true := by
  unfold State.xlateFault
  repeat' split
  all_goals first | assumption | simp +contextual (maxDischargeDepth := 30) [*]

theorem State.writeFor_ok_canon {s : State} {o : Op} {u : Nat × Nat} {w : List (Nat × Byte)} {e : MemErr} {t : State} (x : State.writeFor s o u w e = .ok t) (h : s.canon = true) : t.canon = true := by
  unfold State.writeFor at x
  try dsimp only at x
  repeat' split at x
  all_goals try have := State.storeFor_ok_canon ‹State.storeFor _ _ _ _ _ _ _ _ = .ok _› (by first | assumption | simp +contextual (maxDischargeDepth := 30) [*])
  all_goals try have := State.storeFor_stop_canon ‹State.storeFor _ _ _ _ _ _ _ _ = .stop _› (by first | assumption | simp +contextual (maxDischargeDepth := 30) [*])
  all_goals first
    | contradiction
    | (simp only [Option.some.injEq, Except.ok.injEq, Except.error.injEq, Pre.go.injEq, Wrote.ok.injEq, Stored.ok.injEq, Stored.stop.injEq, reduceCtorEq] at x; done)
    | (simp only [Option.some.injEq, Except.ok.injEq, Except.error.injEq, Pre.go.injEq, Wrote.ok.injEq, Stored.ok.injEq, Stored.stop.injEq] at x; subst x; first | assumption | simp +contextual (maxDischargeDepth := 30) [*])
    | exact State.storeFor_ok_canon x (by first | assumption | simp +contextual (maxDischargeDepth := 30) [*])
    | exact State.storeFor_stop_canon x (by first | assumption | simp +contextual (maxDischargeDepth := 30) [*])
    | (cases x; first | assumption | simp +contextual (maxDischargeDepth := 30) [*])

theorem State.writeFor_stop_canon {s : State} {o : Op} {u : Nat × Nat} {w : List (Nat × Byte)} {e : MemErr} {t : State} (x : State.writeFor s o u w e = .stop t) (h : s.canon = true) : t.canon = true := by
  unfold State.writeFor at x
  split at x
  · obtain rfl := Stored.stop.inj x; simp [h]
  · exact State.storeFor_stop_canon x h

theorem State.engineWrite_ok_canon {s : State} {o : Op} {w : List (Nat × Byte)} {e : MemErr} {t : State} (x : State.engineWrite s o w e = .ok t) (h : s.canon = true) : t.canon = true := by
  unfold State.engineWrite at x
  try dsimp only at x
  repeat' split at x
  all_goals try have := State.writeFor_ok_canon ‹State.writeFor _ _ _ _ _ = .ok _› (by first | assumption | simp +contextual (maxDischargeDepth := 30) [*])
  all_goals try have := State.writeFor_stop_canon ‹State.writeFor _ _ _ _ _ = .stop _› (by first | assumption | simp +contextual (maxDischargeDepth := 30) [*])
  all_goals first
    | contradiction
    | (simp only [Option.some.injEq, Except.ok.injEq, Except.error.injEq, Pre.go.injEq, Wrote.ok.injEq, Stored.ok.injEq, Stored.stop.injEq, reduceCtorEq] at x; done)
    | (simp only [Option.some.injEq, Except.ok.injEq, Except.error.injEq, Pre.go.injEq, Wrote.ok.injEq, Stored.ok.injEq, Stored.stop.injEq] at x; subst x; first | assumption | simp +contextual (maxDischargeDepth := 30) [*])
    | exact State.writeFor_ok_canon x (by first | assumption | simp +contextual (maxDischargeDepth := 30) [*])
    | exact State.writeFor_stop_canon x (by first | assumption | simp +contextual (maxDischargeDepth := 30) [*])
    | (cases x; first | assumption | simp +contextual (maxDischargeDepth := 30) [*])

theorem State.engineWrite_stop_canon {s : State} {o : Op} {w : List (Nat × Byte)} {e : MemErr} {t : State} (x : State.engineWrite s o w e = .stop t) (h : s.canon = true) : t.canon = true :=
  State.writeFor_stop_canon x h

/-! ### Machine/Links.lean -/

@[simp] theorem State.modFab_canon {s : State} (h : s.canon = true) (f : FabSt → FabSt) : (State.modFab s f).canon = true := by
  unfold State.modFab
  simp +contextual (maxDischargeDepth := 30) [*]

@[simp] theorem State.modByp_canon {s : State} (h : s.canon = true) (b : Nat) (f : BypSt → BypSt) : (State.modByp s b f).canon = true := by
  unfold State.modByp
  simp +contextual (maxDischargeDepth := 30) [*]

@[simp] theorem State.routeMiss_canon {s : State} (h : s.canon = true) (port : Nat) (cause : Nat) (src : Nat) (dest : Nat) (tag : Nat) : (State.routeMiss s port cause src dest tag).canon = true := by
  unfold State.routeMiss
  simp +contextual (maxDischargeDepth := 30) [*]

@[simp] theorem State.sendTo_canon {s : State} (h : s.canon = true) (origin : Nat) (dest : Nat) (m : SvcBody) (hops : Nat) : (State.sendTo s origin dest m hops).canon = true := by
  unfold State.sendTo
  repeat' split
  all_goals first | assumption | simp +contextual (maxDischargeDepth := 30) [*]

@[simp] theorem State.refreshPort_canon {s : State} (h : s.canon = true) (p : Nat) : (State.refreshPort s p).canon = true := by
  unfold State.refreshPort
  repeat' split
  all_goals first | assumption | simp +contextual (maxDischargeDepth := 30) [*]

@[simp] theorem State.heardOn_canon {s : State} (h : s.canon = true) (p : Nat) (f : State → State) (hf_f : ∀ x0, x0.canon = true → (f x0).canon = true) : (State.heardOn s p f).canon = true := by
  unfold State.heardOn
  repeat' split
  all_goals first | assumption | simp +contextual (maxDischargeDepth := 30) [*]

@[simp] theorem State.quietOn_canon {s : State} (h : s.canon = true) (p : Nat) (c : Nat) : (State.quietOn s p c).canon = true := by
  unfold State.quietOn
  dsimp only
  simp +contextual (maxDischargeDepth := 30) [*]

@[simp] theorem State.holdOn_canon {s : State} (h : s.canon = true) (p : Nat) (c : Nat) : (State.holdOn s p c).canon = true := by
  unfold State.holdOn
  dsimp only
  simp +contextual (maxDischargeDepth := 30) [*]

@[simp] theorem State.quietOff_canon {s : State} (h : s.canon = true) (p : Nat) (c : Nat) : (State.quietOff s p c).canon = true := by
  unfold State.quietOff
  dsimp only
  repeat' split
  all_goals first | assumption | simp +contextual (maxDischargeDepth := 30) [*]

@[simp] theorem State.holdOff_canon {s : State} (h : s.canon = true) (p : Nat) (c : Nat) : (State.holdOff s p c).canon = true := by
  unfold State.holdOff
  dsimp only
  repeat' split
  all_goals first | assumption | simp +contextual (maxDischargeDepth := 30) [*]

@[simp] theorem State.dropEngine_canon {s : State} (h : s.canon = true) (w : Owner) : (State.dropEngine s w).canon = true := by
  unfold State.dropEngine
  simp +contextual (maxDischargeDepth := 30) [*]

@[simp] theorem State.restoreFails_canon {s : State} (h : s.canon = true) (c : Nat) (code : Nat) (detail : List (Nat × Nat)) : (State.restoreFails s c code detail).canon = true := by
  unfold State.restoreFails
  dsimp only
  simp +contextual (maxDischargeDepth := 30) [*]

@[simp] theorem State.daybreakFails_canon {s : State} (h : s.canon = true) (c : Nat) (code : Nat) (detail : List (Nat × Nat)) : (State.daybreakFails s c code detail).canon = true := by
  unfold State.daybreakFails
  dsimp only
  repeat' split
  all_goals first | assumption | simp +contextual (maxDischargeDepth := 30) [*]

@[simp] theorem State.setCkpt_canon {s : State} (h : s.canon = true) (st : Nat) : (State.setCkpt s st).canon = true := by
  unfold State.setCkpt
  simp +contextual (maxDischargeDepth := 30) [*]

@[simp] theorem State.dropOutbox_canon {s : State} (h : s.canon = true) : (State.dropOutbox s).canon = true := by
  unfold State.dropOutbox
  simp +contextual (maxDischargeDepth := 30) [*]

@[simp] theorem State.ckptFails_canon {s : State} (h : s.canon = true) (code : Nat) (detail : List (Nat × Nat)) : (State.ckptFails s code detail).canon = true := by
  unfold State.ckptFails
  dsimp only
  simp +contextual (maxDischargeDepth := 30) [*]

@[simp] theorem State.chainFails_canon {s : State} (h : s.canon = true) (seq : Nat) (code : Nat) (detail : List (Nat × Nat)) : (State.chainFails s seq code detail).canon = true := by
  unfold State.chainFails
  dsimp only
  simp +contextual (maxDischargeDepth := 30) [*]

@[simp] theorem State.engineFails_canon {s : State} (h : s.canon = true) (w : Owner) (code : Nat) (detail : List (Nat × Nat)) : (State.engineFails s w code detail).canon = true := by
  unfold State.engineFails
  dsimp only
  repeat' split
  all_goals first | assumption | simp +contextual (maxDischargeDepth := 30) [*]

@[simp] theorem State.faultXfer_canon {s : State} (h : s.canon = true) (w : Owner) (code : Nat) (unitKind : Nat) (unit : Nat) (detail : List (Nat × Nat)) : (State.faultXfer s w code unitKind unit detail).canon = true := by
  unfold State.faultXfer
  repeat' split
  all_goals first | assumption | simp +contextual (maxDischargeDepth := 30) [*]

@[simp] theorem State.linkDown_canon {s : State} (h : s.canon = true) (p : Nat) (cause : Nat) : (State.linkDown s p cause).canon = true := by
  unfold State.linkDown
  dsimp only
  simp +contextual (maxDischargeDepth := 30) [*]

/-! ### Machine/Sync.lean -/

@[simp] theorem State.fillXt_canon {s : State} (h : s.canon = true) (c : Nat) (vid : Nat) : (State.fillXt s c vid).canon = true := by
  unfold State.fillXt
  dsimp only
  repeat' split
  all_goals assumption

@[simp] theorem State.seqInstr_canon {s : State} (h : s.canon = true) (c : Nat) (f : Op → State → State) (hf_f : ∀ x0 x1, x1.canon = true → (f x0 x1).canon = true) : (State.seqInstr s c f).canon = true := by
  unfold State.seqInstr
  repeat' split
  all_goals first | assumption | simp +contextual (maxDischargeDepth := 30) [*]

@[simp] theorem State.hold_canon {s : State} (h : s.canon = true) (c : Nat) (x : Stall) : (State.hold s c x).canon = true := by
  unfold State.hold
  repeat' split
  all_goals first | assumption | simp +contextual (maxDischargeDepth := 30) [*]

@[simp] theorem State.stopPerm_canon {s : State} (h : s.canon = true) (c : Nat) (reason : Nat) (addr : Nat) : (State.stopPerm s c reason addr).canon = true := by
  unfold State.stopPerm
  simp +contextual (maxDischargeDepth := 30) [*]

@[simp] theorem State.stopXt_canon {s : State} (h : s.canon = true) (o : Op) (c : Nat) (vid : Nat) : (State.stopXt s o c vid).canon = true := by
  unfold State.stopXt
  repeat' split
  all_goals first | assumption | simp +contextual (maxDischargeDepth := 30) [*]

@[simp] theorem State.wakeWaiters_canon {s : State} (h : s.canon = true) (obj : Nat) : (State.wakeWaiters s obj).canon = true := by
  unfold State.wakeWaiters
  dsimp only
  simp +contextual (maxDischargeDepth := 30) [*]

@[simp] theorem State.setCounter_canon {s : State} (h : s.canon = true) (obj : Nat) (v : Nat) : (State.setCounter s obj v).canon = true := by
  unfold State.setCounter
  dsimp only
  simp +contextual (maxDischargeDepth := 30) [*]

@[simp] theorem State.sumSignals_canon {s : State} (h : s.canon = true) (obj : Nat) (l : List Sig) : (State.sumSignals s obj l).canon = true := by
  unfold State.sumSignals
  dsimp only
  repeat' split
  all_goals first | assumption | simp +contextual (maxDischargeDepth := 30) [*]

@[simp] theorem State.applySignals_canon {s : State} (h : s.canon = true) (l : List Sig) : (State.applySignals s l).canon = true := by
  unfold State.applySignals
  simp +contextual (maxDischargeDepth := 30) [*]

@[simp] theorem State.signal_canon {s : State} (h : s.canon = true) (obj : Nat) (d : Nat) (p : PartyRec) (unitKind : Nat) (unit : Nat) (vid : Nat) : (State.signal s obj d p unitKind unit vid).canon = true := by
  unfold State.signal
  simp +contextual (maxDischargeDepth := 30) [*]

@[simp] theorem State.countRefusal_canon {s : State} (h : s.canon = true) (code : Nat) : (State.countRefusal s code).canon = true := by
  unfold State.countRefusal
  repeat' split
  all_goals first | assumption | simp +contextual (maxDischargeDepth := 30) [*]

@[simp] theorem State.xtUe_canon {s : State} (h : s.canon = true) (vcid : Nat) (vid : Nat) : (State.xtUe s vcid vid).canon = true := by
  unfold State.xtUe
  repeat' split
  all_goals first | assumption | simp +contextual (maxDischargeDepth := 30) [*]

@[simp] theorem State.remoteSig_canon {s : State} (h : s.canon = true) (vcid : Nat) (epoch : Nat) (vid : Nat) (value : Nat) : (State.remoteSig s vcid epoch vid value).1.canon = true := by
  unfold State.remoteSig
  repeat' split
  all_goals first | assumption | simp +contextual (maxDischargeDepth := 30) [*]

theorem State.remoteSig_eq_canon {s : State} {vcid : Nat} {epoch : Nat} {vid : Nat} {value : Nat} {a : State} {b : Except Nat Sig} (x : State.remoteSig s vcid epoch vid value = (a, b)) (h : s.canon = true) : a.canon = true := by
  have := State.remoteSig_canon h vcid epoch vid value
  rw [x] at this; exact this

@[simp] theorem State.remoteApply_canon {s : State} (h : s.canon = true) (vcid : Nat) (epoch : Nat) (vid : Nat) (value : Nat) : (State.remoteApply s vcid epoch vid value).1.canon = true := by
  unfold State.remoteApply
  repeat' split
  all_goals try have := State.remoteSig_eq_canon ‹State.remoteSig _ _ _ _ _ = (_, _)› (by first | assumption | simp +contextual (maxDischargeDepth := 30) [*])
  all_goals first | assumption | simp +contextual (maxDischargeDepth := 30) [*]

theorem State.remoteApply_eq_canon {s : State} {vcid : Nat} {epoch : Nat} {vid : Nat} {value : Nat} {a : State} {b : Option Nat} (x : State.remoteApply s vcid epoch vid value = (a, b)) (h : s.canon = true) : a.canon = true := by
  have := State.remoteApply_canon h vcid epoch vid value
  rw [x] at this; exact this

@[simp] theorem State.launchCheck_canon {s : State} (h : s.canon = true) (r : Nat) (i : Nat) : (State.launchCheck s r i).canon = true := by
  unfold State.launchCheck
  repeat' split
  all_goals assumption

@[simp] theorem State.sendSignal_canon {s : State} (h : s.canon = true) (o : Op) (core : Option Nat) (dest : Nat) (vid : Nat) (value : Nat) : (State.sendSignal s o core dest vid value).canon = true := by
  unfold State.sendSignal
  dsimp only
  simp +contextual (maxDischargeDepth := 30) [*]

@[simp] theorem State.ackSignal_canon {s : State} (h : s.canon = true) (m : RemoteSig) : (State.ackSignal s m).canon = true := by
  unfold State.ackSignal
  dsimp only
  repeat' split
  all_goals first | assumption | simp +contextual (maxDischargeDepth := 30) [*]

@[simp] theorem State.failSignal_canon {s : State} (h : s.canon = true) (m : RemoteSig) (code : Nat) (detail : List (Nat × Nat)) : (State.failSignal s m code detail).canon = true := by
  unfold State.failSignal
  dsimp only
  repeat' split
  all_goals first | assumption | simp +contextual (maxDischargeDepth := 30) [*]

@[simp] theorem State.sendReplayOpen_canon {s : State} (h : s.canon = true) (c : Nat) : (State.sendReplayOpen s c).canon = true := by
  unfold State.sendReplayOpen
  dsimp only
  repeat' split
  all_goals first | assumption | simp +contextual (maxDischargeDepth := 30) [*]

@[simp] theorem State.writeResult_canon {s : State} (h : s.canon = true) (o : Op) (kind : Nat) (va : Nat) (bs : List Byte) : (State.writeResult s o kind va bs).1.canon = true := by
  unfold State.writeResult
  repeat' split
  all_goals first | assumption | simp +contextual (maxDischargeDepth := 30) [*]

theorem State.writeResult_eq_canon {s : State} {o : Op} {kind : Nat} {va : Nat} {bs : List Byte} {a : State} {b : Option ResultErr} (x : State.writeResult s o kind va bs = (a, b)) (h : s.canon = true) : a.canon = true := by
  have := State.writeResult_canon h o kind va bs
  rw [x] at this; exact this

@[simp] theorem State.resultFault_canon {s : State} (h : s.canon = true) (o : Op) (kind : Nat) (va : Nat) (l1_ : ResultErr) : (State.resultFault s o kind va l1_).canon = true := by
  unfold State.resultFault
  repeat' split
  all_goals first | assumption | simp +contextual (maxDischargeDepth := 30) [*]

@[simp] theorem State.noonRelease_canon {s : State} (h : s.canon = true) (o : Op) (result : Nat) : (State.noonRelease s o result).canon = true := by
  unfold State.noonRelease
  dsimp only
  repeat' split
  all_goals try have := State.writeResult_eq_canon ‹State.writeResult _ _ _ _ _ = (_, _)› (by first | assumption | simp +contextual (maxDischargeDepth := 30) [*])
  all_goals first | assumption | simp +contextual (maxDischargeDepth := 30) [*]

@[simp] theorem State.releaseOne_canon {s : State} (h : s.canon = true) (result : Nat) (root : Bool) (w : Waiter) : (State.releaseOne s result root w).canon = true := by
  unfold State.releaseOne
  dsimp only
  repeat' split
  all_goals try have := State.writeResult_eq_canon ‹State.writeResult _ _ _ _ _ = (_, _)› (by first | assumption | simp +contextual (maxDischargeDepth := 30) [*])
  all_goals first | assumption | simp +contextual (maxDischargeDepth := 30) [*]

@[simp] theorem State.release_canon {s : State} (h : s.canon = true) (obj : Nat) (result : Nat) : (State.release s obj result).canon = true := by
  unfold State.release
  dsimp only
  simp +contextual (maxDischargeDepth := 30) [*]

@[simp] theorem State.barrierCheck_canon {l2_ : State} (h : l2_.canon = true) (l1_ : Nat) (l3_ : Nat) : (State.barrierCheck l1_ l2_ l3_).canon = true := by
  induction l1_ generalizing l2_ l3_ with
  | zero => exact h
  | succ n ih =>
    unfold State.barrierCheck
    dsimp only
    repeat' split
    all_goals first | assumption | simp +contextual (maxDischargeDepth := 30) [*]

@[simp] theorem State.arrive_canon {s : State} (h : s.canon = true) (obj : Nat) (c : Nat) (vid : Nat) (w : Waiter) (op : Nat) (payload : Nat) : (State.arrive s obj c vid w op payload).canon = true := by
  unfold State.arrive
  dsimp only
  repeat' split
  all_goals first | assumption | simp +contextual (maxDischargeDepth := 30) [*]

@[simp] theorem State.dropForeign_canon {s : State} (h : s.canon = true) : (State.dropForeign s).canon = true := by
  unfold State.dropForeign
  simp +contextual (maxDischargeDepth := 30) [*]

theorem State.barrierTarget_error_canon {s : State} {m : SyncMsg} {t : State} (x : State.barrierTarget s m = .error t) (h : s.canon = true) : t.canon = true := by
  unfold State.barrierTarget at x
  try dsimp only at x
  repeat' split at x
  all_goals first
    | contradiction
    | (simp only [Option.some.injEq, Except.ok.injEq, Except.error.injEq, Pre.go.injEq, Wrote.ok.injEq, Stored.ok.injEq, Stored.stop.injEq, reduceCtorEq] at x; done)
    | (simp only [Option.some.injEq, Except.ok.injEq, Except.error.injEq, Pre.go.injEq, Wrote.ok.injEq, Stored.ok.injEq, Stored.stop.injEq] at x; subst x; first | assumption | simp +contextual (maxDischargeDepth := 30) [*])

@[simp] theorem State.childArrive_canon {s : State} (h : s.canon = true) (port : Nat) (m : SyncMsg) (c : Nat) (obj : Nat) : (State.childArrive s port m c obj).canon = true := by
  unfold State.childArrive
  dsimp only
  repeat' split
  all_goals first | assumption | simp +contextual (maxDischargeDepth := 30) [*]

@[simp] theorem State.parentRelease_canon {s : State} (h : s.canon = true) (port : Nat) (m : SyncMsg) (obj : Nat) : (State.parentRelease s port m obj).canon = true := by
  unfold State.parentRelease
  dsimp only
  repeat' split
  all_goals first | assumption | simp +contextual (maxDischargeDepth := 30) [*]

@[simp] theorem State.receiveBreak_canon {s : State} (h : s.canon = true) (m : SyncMsg) (c : Nat) (obj : Nat) : (State.receiveBreak s m c obj).canon = true := by
  unfold State.receiveBreak
  dsimp only
  repeat' split
  all_goals first | assumption | simp +contextual (maxDischargeDepth := 30) [*]

@[simp] theorem State.rearm_canon {s : State} (h : s.canon = true) (obj : Nat) (sense : Bool) : (State.rearm s obj sense).canon = true := by
  unfold State.rearm
  dsimp only
  simp +contextual (maxDischargeDepth := 30) [*]

@[simp] theorem State.ssig_canon {s : State} (h : s.canon = true) {t : State} (h_t : t.canon = true) (o : Op) (c : Nat) (vid : Nat) (mod : Option (BitVec 13)) (v : SigVal) : (State.ssig s t o c vid mod v).canon = true := by
  unfold State.ssig
  cases v
  all_goals
    dsimp only
    generalize List.find? t.poisoned _ = fp
    cases fp with
    | some pa => simp [h_t]
    | none =>
      cases mod with
      | none =>
        dsimp only
        cases t.xtObj o.ctx vid false <;> simp [h_t]
      | some dest =>
        dsimp only
        apply canon_ite
        · intro _
          split
          · exact State.remoteApply_eq_canon ‹_› h_t
          · exact State.stopLaunch_canon (State.remoteApply_eq_canon ‹_› h_t) _ _ _
        · intro _
          apply canon_ite <;> intro _ <;> simp [h, h_t]


@[simp] theorem State.issueSsig_canon {s : State} (h : s.canon = true) (c : Nat) (vid : Nat) (mod : Option (BitVec 13)) (v : SigVal) : (State.issueSsig s c vid mod v).canon = true := by
  unfold State.issueSsig
  repeat' split
  all_goals first | assumption | simp +contextual (maxDischargeDepth := 30) [*]

@[simp] theorem State.swait_canon {t : State} (h : t.canon = true) (o : Op) (c : Nat) (vid : Nat) (thr : Nat) (wdog : Nat) : (State.swait t o c vid thr wdog).canon = true := by
  unfold State.swait
  repeat' split
  all_goals first | assumption | simp +contextual (maxDischargeDepth := 30) [*]

@[simp] theorem State.issueSwait_canon {s : State} (h : s.canon = true) (c : Nat) (vid : Nat) (thr : Nat) (wdog : Nat) : (State.issueSwait s c vid thr wdog).canon = true := by
  unfold State.issueSwait
  repeat' split
  all_goals first | assumption | simp +contextual (maxDischargeDepth := 30) [*]

@[simp] theorem State.sbar_canon {s : State} (h : s.canon = true) {t : State} (h_t : t.canon = true) (o : Op) (core : Fin 144) (vid : Nat) (payOp : Nat) (payload : Nat) (res : Nat) (wdog : Nat) : (State.sbar s t o core vid payOp payload res wdog).canon = true := by
  unfold State.sbar
  dsimp only
  repeat' split
  all_goals first | assumption | simp +contextual (maxDischargeDepth := 30) [*]

@[simp] theorem State.issueSbar_canon {s : State} (h : s.canon = true) (core : Fin 144) (vid : Nat) (payOp : Nat) (payload : Nat) (res : Nat) (wdog : Nat) : (State.issueSbar s core vid payOp payload res wdog).canon = true := by
  unfold State.issueSbar
  repeat' split
  all_goals first | assumption | simp +contextual (maxDischargeDepth := 30) [*]

@[simp] theorem State.retryCore_canon {s : State} (h : s.canon = true) (c : Nat) : (State.retryCore s c).canon = true := by
  unfold State.retryCore
  dsimp only
  repeat' split
  all_goals first | assumption | simp +contextual (maxDischargeDepth := 30) [*]

@[simp] theorem State.retrySync_canon {s : State} (h : s.canon = true) : (State.retrySync s).canon = true := by
  unfold State.retrySync
  dsimp only
  simp +contextual (maxDischargeDepth := 30) [*]

@[simp] theorem State.signalSig_canon {s : State} (h : s.canon = true) (port : Nat) (m : SyncMsg) : (State.signalSig s port m).1.canon = true := by
  unfold State.signalSig
  dsimp only
  repeat' split
  all_goals try have := State.remoteSig_eq_canon ‹State.remoteSig _ _ _ _ _ = (_, _)› (by first | assumption | simp +contextual (maxDischargeDepth := 30) [*])
  all_goals first | assumption | simp +contextual (maxDischargeDepth := 30) [*]

@[simp] theorem State.signalIn_canon {s : State} (h : s.canon = true) (port : Nat) (m : SyncMsg) : (State.signalIn s port m).canon = true := by
  unfold State.signalIn
  dsimp only
  simp +contextual (maxDischargeDepth := 30) [*]

@[simp] theorem State.arriveIn_canon {s : State} (h : s.canon = true) (port : Nat) (m : SyncMsg) : (State.arriveIn s port m).canon = true := by
  unfold State.arriveIn
  repeat' split
  all_goals try have := State.barrierTarget_error_canon ‹State.barrierTarget _ _ = .error _› (by first | assumption | simp +contextual (maxDischargeDepth := 30) [*])
  all_goals first | assumption | simp +contextual (maxDischargeDepth := 30) [*]

@[simp] theorem State.releaseIn_canon {s : State} (h : s.canon = true) (port : Nat) (m : SyncMsg) : (State.releaseIn s port m).canon = true := by
  unfold State.releaseIn
  repeat' split
  all_goals try have := State.barrierTarget_error_canon ‹State.barrierTarget _ _ = .error _› (by first | assumption | simp +contextual (maxDischargeDepth := 30) [*])
  all_goals first | assumption | simp +contextual (maxDischargeDepth := 30) [*]

@[simp] theorem State.breakIn_canon {s : State} (h : s.canon = true) (m : SyncMsg) : (State.breakIn s m).canon = true := by
  unfold State.breakIn
  repeat' split
  all_goals try have := State.barrierTarget_error_canon ‹State.barrierTarget _ _ = .error _› (by first | assumption | simp +contextual (maxDischargeDepth := 30) [*])
  all_goals first | assumption | simp +contextual (maxDischargeDepth := 30) [*]

theorem State.resumeOne_canon (p : State × List Sig) (hp : p.1.canon = true) (x : HeldSync) : (State.resumeOne p x).1.canon = true := by
  unfold State.resumeOne
  cases x <;> simp (maxDischargeDepth := 30) [hp]

@[simp] theorem State.resumeSync_canon {s : State} (h : s.canon = true) : (State.resumeSync s).canon = true := by
  unfold State.resumeSync
  split
  · exact h
  · have hp : ∀ (l : List HeldSync) (p : State × List Sig), p.1.canon = true → (l.foldl State.resumeOne p).1.canon = true := by
      intro l
      induction l with
      | nil => exact fun _ hp => hp
      | cons x l ih => exact fun p hp => ih _ (State.resumeOne_canon p hp x)
    exact State.retrySync_canon (State.applySignals_canon (hp _ _ (by simp [h])) _)

@[simp] theorem State.fwOnly_canon {s : State} (h : s.canon = true) (p : Party) (f : State → State) (hf_f : ∀ x0, x0.canon = true → (f x0).canon = true) : (State.fwOnly s p f).canon = true := by
  unfold State.fwOnly
  repeat' split
  all_goals first | assumption | simp +contextual (maxDischargeDepth := 30) [*]

@[simp] theorem State.writeObjHi_canon {s : State} (h : s.canon = true) (v : Nat) : (State.writeObjHi s v).canon = true := by
  unfold State.writeObjHi
  dsimp only
  repeat' split
  all_goals first | assumption | simp +contextual (maxDischargeDepth := 30) [*]

@[simp] theorem State.writeRearm_canon {s : State} (h : s.canon = true) (v : Nat) : (State.writeRearm s v).canon = true := by
  unfold State.writeRearm
  dsimp only
  repeat' split
  all_goals first | assumption | simp +contextual (maxDischargeDepth := 30) [*]

@[simp] theorem State.writeSynXlat_canon {s : State} (h : s.canon = true) (v : Nat) : (State.writeSynXlat s v).canon = true := by
  unfold State.writeSynXlat
  dsimp only
  repeat' split
  all_goals first | assumption | simp +contextual (maxDischargeDepth := 30) [*]

/-! ### Machine/Submit.lean -/

@[simp] theorem State.holdPost_canon {s : State} (h : s.canon = true) (c : Nat) (r : Nat) (src : Nat) (no : Nat) : (State.holdPost s c r src no).canon = true := by
  unfold State.holdPost
  dsimp only
  simp +contextual (maxDischargeDepth := 30) [*]

@[simp] theorem State.postDesc_canon {s : State} (h : s.canon = true) {t : State} (h_t : t.canon = true) (o : Op) (c : Nat) (r : Nat) (src : Nat) (no : Nat) (e : MemErr) : (State.postDesc s t o c r src no e).canon = true := by
  unfold State.postDesc
  dsimp only
  repeat' split
  all_goals try have := State.storeFor_ok_canon ‹State.storeFor _ _ _ _ _ _ _ _ = .ok _› (by first | assumption | simp +contextual (maxDischargeDepth := 30) [*])
  all_goals try have := State.storeFor_stop_canon ‹State.storeFor _ _ _ _ _ _ _ _ = .stop _› (by first | assumption | simp +contextual (maxDischargeDepth := 30) [*])
  all_goals first | assumption | simp +contextual (maxDischargeDepth := 30) [*]

@[simp] theorem State.issuePost_canon {s : State} (h : s.canon = true) (c : Nat) (r : Nat) (src : Nat) (no : Nat) (e : MemErr) : (State.issuePost s c r src no e).canon = true := by
  unfold State.issuePost
  simp +contextual (maxDischargeDepth := 30) [*]

@[simp] theorem State.retryPosts_canon {s : State} (h : s.canon = true) : (State.retryPosts s).canon = true := by
  unfold State.retryPosts
  refine State.each_canon h _ _ fun t c ht => ?_
  split
  · simp +contextual (maxDischargeDepth := 30) [ht]
  · exact ht

@[simp] theorem State.ringCfgFields_canon {s : State} (h : s.canon = true) (r : Nat) (v : Nat) : (State.ringCfgFields s r v).canon = true := by
  unfold State.ringCfgFields
  simp +contextual (maxDischargeDepth := 30) [*]

@[simp] theorem State.writeRingCfg_canon {s : State} (h : s.canon = true) (r : Nat) (v : Nat) : (State.writeRingCfg s r v).canon = true := by
  unfold State.writeRingCfg
  dsimp only
  repeat' split
  all_goals first | assumption | simp +contextual (maxDischargeDepth := 30) [*]

@[simp] theorem State.acceptPi_canon {s : State} (h : s.canon = true) (r : Nat) (pi : Nat) : (State.acceptPi s r pi).canon = true := by
  unfold State.acceptPi
  dsimp only
  repeat' split
  all_goals first | assumption | simp +contextual (maxDischargeDepth := 30) [*]

theorem State.ringRead_ok_canon {s : State} {r : Nat} {va : Nat} {n : Nat} {e : MemErr} {t : (State × List Byte)} (x : State.ringRead s r va n e = .ok t) (h : s.canon = true) : t.1.canon = true := by
  unfold State.ringRead at x
  try dsimp only at x
  repeat' split at x
  all_goals first
    | contradiction
    | (simp only [Option.some.injEq, Except.ok.injEq, Except.error.injEq, Pre.go.injEq, Wrote.ok.injEq, Stored.ok.injEq, Stored.stop.injEq, reduceCtorEq] at x; done)
    | (simp only [Option.some.injEq, Except.ok.injEq, Except.error.injEq, Pre.go.injEq, Wrote.ok.injEq, Stored.ok.injEq, Stored.stop.injEq] at x; subst x; first | assumption | simp +contextual (maxDischargeDepth := 30) [*])

theorem State.ringRead_error_canon {s : State} {r : Nat} {va : Nat} {n : Nat} {e : MemErr} {t : State} (x : State.ringRead s r va n e = .error t) (h : s.canon = true) : t.canon = true := by
  unfold State.ringRead at x
  try dsimp only at x
  repeat' split at x
  all_goals first
    | contradiction
    | (simp only [Option.some.injEq, Except.ok.injEq, Except.error.injEq, Pre.go.injEq, Wrote.ok.injEq, Stored.ok.injEq, Stored.stop.injEq, reduceCtorEq] at x; done)
    | (simp only [Option.some.injEq, Except.ok.injEq, Except.error.injEq, Pre.go.injEq, Wrote.ok.injEq, Stored.ok.injEq, Stored.stop.injEq] at x; subst x; first | assumption | simp +contextual (maxDischargeDepth := 30) [*])

@[simp] theorem State.pollRing_canon {s : State} (h : s.canon = true) (polls : List RingPoll) (r : Nat) : (State.pollRing s polls r).canon = true := by
  unfold State.pollRing
  dsimp only
  repeat' split
  all_goals try have := State.ringRead_ok_canon ‹State.ringRead _ _ _ _ _ = .ok _› (by first | assumption | simp +contextual (maxDischargeDepth := 30) [*])
  all_goals try have := State.ringRead_error_canon ‹State.ringRead _ _ _ _ _ = .error _› (by first | assumption | simp +contextual (maxDischargeDepth := 30) [*])
  all_goals first | assumption | simp +contextual (maxDischargeDepth := 30) [*]

@[simp] theorem State.pollErrs_canon {s : State} (h : s.canon = true) (e : MemErr) : (State.pollErrs s e).canon = true := by
  unfold State.pollErrs
  refine State.each_canon h _ _ fun t x ht => ?_
  repeat' split
  all_goals try have := State.ringRead_ok_canon ‹State.ringRead _ _ _ _ _ = .ok _› (by first | assumption | simp +contextual (maxDischargeDepth := 30) [*])
  all_goals try have := State.ringRead_error_canon ‹State.ringRead _ _ _ _ _ = .error _› (by first | assumption | simp +contextual (maxDischargeDepth := 30) [*])
  all_goals assumption

@[simp] theorem State.writeCbs_canon {s : State} (h : s.canon = true) (e : MemErr) : (State.writeCbs s e).canon = true := by
  unfold State.writeCbs
  simp +contextual (maxDischargeDepth := 30) [*]

@[simp] theorem State.stopRings_canon {s : State} (h : s.canon = true) : (State.stopRings s).canon = true := by
  unfold State.stopRings
  simp +contextual (maxDischargeDepth := 30) [*]

@[simp] theorem State.reject_canon {s : State} (h : s.canon = true) (o : Op) (code : Nat) : (State.reject s o code).canon = true := by
  unfold State.reject
  repeat' split
  all_goals first | assumption | simp +contextual (maxDischargeDepth := 30) [*]

@[simp] theorem State.rejectXt_canon {s : State} (h : s.canon = true) (o : Op) (vid : Nat) : (State.rejectXt s o vid).canon = true := by
  unfold State.rejectXt
  repeat' split
  all_goals first | assumption | simp +contextual (maxDischargeDepth := 30) [*]

@[simp] theorem State.accept_canon {s : State} (h : s.canon = true) (r : Nat) (d : Descriptor) : (State.accept s r d).canon = true := by
  unfold State.accept
  dsimp only
  repeat' split
  all_goals first | assumption | simp +contextual (maxDischargeDepth := 30) [*]

@[simp] theorem State.seqFail_canon {s : State} (h : s.canon = true) (r : Nat) (found : Nat) : (State.seqFail s r found).canon = true := by
  unfold State.seqFail
  simp +contextual (maxDischargeDepth := 30) [*]

theorem State.slotOf_ok_canon {s : State} {r : Nat} {slot : Descriptor} {e : MemErr} {t : State × Descriptor} (x : State.slotOf s r slot e = .ok t) (h : s.canon = true) : t.1.canon = true := by
  unfold State.slotOf at x
  split at x
  · cases hr : s.ringRead r (s.ringBase r + s.get (Reg.SUB_RING_CI_CI r) % s.ringSize r * 64) 64 e with
    | error u => rw [hr] at x; cases x
    | ok b => rw [hr] at x; cases x; exact State.ringRead_ok_canon hr h
  · cases x; exact h

theorem State.slotOf_error_canon {s : State} {r : Nat} {slot : Descriptor} {e : MemErr} {t : State} (x : State.slotOf s r slot e = .error t) (h : s.canon = true) : t.canon = true := by
  unfold State.slotOf at x
  split at x
  · cases hr : s.ringRead r (s.ringBase r + s.get (Reg.SUB_RING_CI_CI r) % s.ringSize r * 64) 64 e with
    | error u => rw [hr] at x; cases x; exact State.ringRead_error_canon hr h
    | ok b => rw [hr] at x; cases x
  · cases x

@[simp] theorem State.issue_canon {s : State} (h : s.canon = true) (o : Op) (dies : Nat) : (State.issue s o dies).canon = true := by
  unfold State.issue
  dsimp only
  simp +contextual (maxDischargeDepth := 30) [*]

@[simp] theorem State.served_canon {s : State} (h : s.canon = true) (r : Nat) : (State.served s r).canon = true := by
  unfold State.served
  dsimp only
  simp +contextual (maxDischargeDepth := 30) [*]

@[simp] theorem State.signalSelf_canon {s : State} (h : s.canon = true) (o : Op) (vid : Nat) (value : Nat) : (State.signalSelf s o vid value).canon = true := by
  unfold State.signalSelf
  dsimp only
  repeat' split
  all_goals try have := State.remoteApply_eq_canon ‹State.remoteApply _ _ _ _ _ = (_, _)› (by first | assumption | simp +contextual (maxDischargeDepth := 30) [*])
  all_goals first | assumption | simp +contextual (maxDischargeDepth := 30) [*]

@[simp] theorem State.issueArrival_canon {s : State} (h : s.canon = true) (o : Op) (obj : Nat) (vid : Nat) (op : Nat) (payload : Nat) (wdog : Nat) : (State.issueArrival s o obj vid op payload wdog).canon = true := by
  unfold State.issueArrival
  dsimp only
  repeat' split
  all_goals first | assumption | simp +contextual (maxDischargeDepth := 30) [*]

@[simp] theorem State.mirrorDone_canon {s : State} (h : s.canon = true) (o : Op) : (State.mirrorDone s o).canon = true := by
  unfold State.mirrorDone
  dsimp only
  repeat' split
  all_goals first | assumption | simp +contextual (maxDischargeDepth := 30) [*]

@[simp] theorem State.sigAfter_canon {s : State} (h : s.canon = true) (o : Op) : (State.sigAfter s o).canon = true := by
  unfold State.sigAfter
  dsimp only
  repeat' split
  all_goals first | assumption | simp +contextual (maxDischargeDepth := 30) [*]

@[simp] theorem State.writeCtxCtrl_canon {s : State} (h : s.canon = true) (c : Nat) (v : Nat) : (State.writeCtxCtrl s c v).canon = true := by
  unfold State.writeCtxCtrl
  dsimp only
  repeat' split
  all_goals first | assumption | simp +contextual (maxDischargeDepth := 30) [*]

@[simp] theorem State.mbxWake_canon {s : State} (h : s.canon = true) (n : Nat) (endpoint : Nat) : (State.mbxWake s n endpoint).canon = true := by
  unfold State.mbxWake
  dsimp only
  repeat' split
  all_goals assumption

@[simp] theorem State.mbxTx_canon {s : State} (h : s.canon = true) (who : Nat) (n : Nat) (w : Nat) : (State.mbxTx s who n w).canon = true := by
  unfold State.mbxTx
  dsimp only
  repeat' split
  all_goals first | assumption | simp +contextual (maxDischargeDepth := 30) [*]

/-! ### Machine/Training.lean -/

@[simp] theorem State.disarm_canon {s : State} (h : s.canon = true) (c : Nat) : (State.disarm s c).canon = true := by
  unfold State.disarm
  simp +contextual (maxDischargeDepth := 30) [*]

@[simp] theorem State.writeStepCtrl_canon {s : State} (h : s.canon = true) (c : Nat) (v : Nat) : (State.writeStepCtrl s c v).canon = true := by
  unfold State.writeStepCtrl
  dsimp only
  repeat' split
  all_goals first | assumption | simp +contextual (maxDischargeDepth := 30) [*]

@[simp] theorem State.restoreBase_canon {s : State} (h : s.canon = true) (b : StepBase) : (State.restoreBase s b).canon = true := by
  unfold State.restoreBase
  dsimp only
  repeat' split
  all_goals first | assumption | simp +contextual (maxDischargeDepth := 30) [*]

@[simp] theorem State.applyFence_canon {s : State} (h : s.canon = true) : (State.applyFence s).canon = true := by
  unfold State.applyFence
  dsimp only
  repeat' split
  all_goals first | assumption | simp +contextual (maxDischargeDepth := 30) [*]

@[simp] theorem State.writeFence_canon {s : State} (h : s.canon = true) (v : Nat) : (State.writeFence s v).canon = true := by
  unfold State.writeFence
  dsimp only
  repeat' split
  all_goals first | assumption | simp +contextual (maxDischargeDepth := 30) [*]

@[simp] theorem State.openAttempt_canon {s : State} (h : s.canon = true) (c : Nat) (step : Nat) (attempt : Nat) (frame : Nat) : (State.openAttempt s c step attempt frame).canon = true := by
  unfold State.openAttempt
  dsimp only
  simp +contextual (maxDischargeDepth := 30) [*]

@[simp] theorem State.openMissed_canon {s : State} (h : s.canon = true) (c : Nat) : (State.openMissed s c).canon = true := by
  unfold State.openMissed
  simp +contextual (maxDischargeDepth := 30) [*]

@[simp] theorem State.stall_canon {s : State} (h : s.canon = true) (c : Nat) : (State.stall s c).canon = true := by
  unfold State.stall
  dsimp only
  simp +contextual (maxDischargeDepth := 30) [*]

@[simp] theorem State.openReplay_canon {s : State} (h : s.canon = true) (c : Nat) (q : Nat × Nat × Nat) : (State.openReplay s c q).canon = true := by
  unfold State.openReplay
  dsimp only
  repeat' split
  all_goals first | assumption | simp +contextual (maxDischargeDepth := 30) [*]

@[simp] theorem State.writeClaim_canon {s0 : State} (h : s0.canon = true) {t : State} (h_t : t.canon = true) (o : Op) (core : Nat) (a : Nat) (region : Nat) (tag : Nat) (bs : List Byte) (e : MemErr) : (State.writeClaim s0 t o core a region tag bs e).canon = true := by
  unfold State.writeClaim
  repeat' split
  all_goals try have := State.storeFor_ok_canon ‹State.storeFor _ _ _ _ _ _ _ _ = .ok _› (by first | assumption | simp +contextual (maxDischargeDepth := 30) [*])
  all_goals try have := State.storeFor_stop_canon ‹State.storeFor _ _ _ _ _ _ _ _ = .stop _› (by first | assumption | simp +contextual (maxDischargeDepth := 30) [*])
  all_goals first | assumption | simp +contextual (maxDischargeDepth := 30) [*]

@[simp] theorem State.issueClaim_canon {s : State} (h : s.canon = true) (core : Nat) (region : Nat) (tag : Nat) (e : MemErr) : (State.issueClaim s core region tag e).canon = true := by
  unfold State.issueClaim
  refine State.seqInstr_canon h _ _ fun o t ht => ?_
  dsimp only
  repeat' split
  all_goals first | assumption | simp +contextual (maxDischargeDepth := 30) [*]

@[simp] theorem State.retryClaims_canon {s : State} (h : s.canon = true) : (State.retryClaims s).canon = true := by
  unfold State.retryClaims
  refine State.each_canon h _ _ fun t x ht => ?_
  repeat' split
  all_goals first | assumption | simp +contextual (maxDischargeDepth := 30) [*]

@[simp] theorem State.commitStep_canon {s : State} (h : s.canon = true) (c : Nat) (o : Op) (retention : Nat) : (State.commitStep s c o retention).canon = true := by
  unfold State.commitStep
  dsimp only
  repeat' split
  all_goals first | assumption | simp +contextual (maxDischargeDepth := 30) [*]

@[simp] theorem State.breakOpen_canon {s : State} (h : s.canon = true) (c : Nat) : (State.breakOpen s c).canon = true := by
  unfold State.breakOpen
  repeat' split
  all_goals first | assumption | simp +contextual (maxDischargeDepth := 30) [*]

@[simp] theorem State.replayArrive_canon {s : State} (h : s.canon = true) (c : Nat) : (State.replayArrive s c).canon = true := by
  unfold State.replayArrive
  dsimp only
  repeat' split
  all_goals first | assumption | simp +contextual (maxDischargeDepth := 30) [*]

@[simp] theorem State.replayReady_canon {s : State} (h : s.canon = true) (c : Nat) : (State.replayReady s c).canon = true := by
  unfold State.replayReady
  simp +contextual (maxDischargeDepth := 30) [*]

@[simp] theorem State.clearHold_canon {s : State} (h : s.canon = true) (c : Nat) : (State.clearHold s c).canon = true := by
  unfold State.clearHold
  repeat' split
  all_goals first | assumption | simp +contextual (maxDischargeDepth := 30) [*]

@[simp] theorem State.dropParts_canon {s : State} (h : s.canon = true) (c : Nat) : (State.dropParts s c).canon = true := by
  unfold State.dropParts
  dsimp only
  simp +contextual (maxDischargeDepth := 30) [*]

@[simp] theorem State.discardAttempt_canon {s : State} (h : s.canon = true) (c : Nat) (hold : Bool) : (State.discardAttempt s c hold).canon = true := by
  unfold State.discardAttempt
  dsimp only
  simp +contextual (maxDischargeDepth := 30) [*]

@[simp] theorem State.discardClosed_canon {s : State} (h : s.canon = true) (c : Nat) (hold : Bool) : (State.discardClosed s c hold).canon = true := by
  unfold State.discardClosed
  repeat' split
  all_goals first | assumption | simp +contextual (maxDischargeDepth := 30) [*]

@[simp] theorem State.writeReplayCtrl_canon {s : State} (h : s.canon = true) (c : Nat) (v : Nat) : (State.writeReplayCtrl s c v).canon = true := by
  unfold State.writeReplayCtrl
  dsimp only
  simp +contextual (maxDischargeDepth := 30) [*]

@[simp] theorem State.announce_canon {s : State} (h : s.canon = true) (m : Announce) (late act : State → Nat → State)
    (hl : ∀ t c, t.canon = true → (late t c).canon = true) (ha : ∀ t c, t.canon = true → (act t c).canon = true) : (State.announce s m late act).canon = true := by
  have h1 : (if m.frame.toNat ≤ s.frame then s.mark Reg.SWT_EVENT_LATE_ANNOUNCE else s).canon = true := by split <;> simp [h]
  unfold State.announce
  dsimp only
  split
  · exact h1
  · split
    · exact hl _ _ (by simp [h])
    · exact ha _ _ h

end Sys2Proof.Machine
end

