-- ==== Sys2Proof/Laws/CanonCompute.lean ====
section
/-! SUPPORT. The canonical form (State.canon) is kept by the operations of the vector and matrix units, of LAUNCH and of memory events. -/
namespace Sys2Proof.Machine

/-! ### Machine/Vector.lean -/

@[simp] theorem State.orAsw_canon {s : State} (h : s.canon = true) (c : Nat) (f : Nat) : (State.orAsw s c f).canon = true := by
  unfold State.orAsw
  simp +contextual (maxDischargeDepth := 30) [*]

@[simp] theorem State.vecEnd_canon {s : State} (h : s.canon = true) (c : Nat) (o : Op) (w : SpWork) (cls : Nat) (elems : Nat) (serial : Bool) (strict : Bool) : (State.vecEnd s c o w cls elems serial strict).canon = true := by
  unfold State.vecEnd
  dsimp only
  repeat' split
  all_goals first | assumption | simp +contextual (maxDischargeDepth := 30) [*]

@[simp] theorem State.vector_canon {s : State} (h : s.canon = true) (c : Nat) (v : VArgs) (e : MemErr) (cls : Nat) (elems : Nat) (strict : Bool) (f : Op → SpWork → SpWork) : (State.vector s c v e cls elems strict f).canon = true := by
  unfold State.vector
  refine State.seqInstr_canon h _ _ fun o t ht => ?_
  dsimp only
  split
  · simp +contextual (maxDischargeDepth := 30) [ht]
  · split <;> simp +contextual (maxDischargeDepth := 30) [ht]


@[simp] theorem State.vecMap_canon {s : State} (h : s.canon = true) (c : Nat) (ins : List Stream) (d : Stream) (mask : Option Stream) (dr : Draw) (e : MemErr) (cls : Nat) (bad : Bool) (f : Acw → Nat → Int → List Val → VRes) : (State.vecMap s c ins d mask dr e cls bad f).canon = true := by
  unfold State.vecMap
  dsimp only
  repeat' split
  all_goals first | assumption | simp +contextual (maxDischargeDepth := 30) [*]

@[simp] theorem State.vecRows_canon {s : State} (h : s.canon = true) (c : Nat) (rdims : Nat) (ins : List Stream) (outs : List Stream) (a : Stream) (d : Stream) (e : MemErr) (cls : Nat) (strict : Bool) (f : Op → List Nat → List (List Val × Int) → SpWork → SpWork) : (State.vecRows s c rdims ins outs a d e cls strict f).canon = true := by
  unfold State.vecRows
  dsimp only
  simp +contextual (maxDischargeDepth := 30) [*]

@[simp] theorem State.vecSum_canon {s : State} (h : s.canon = true) (c : Nat) (rdims : Nat) (ins : List Stream) (a : Stream) (d : Stream) (dr : Draw) (e : MemErr) (term : List Val → Num × Nat) : (State.vecSum s c rdims ins a d dr e term).canon = true := by
  unfold State.vecSum
  dsimp only
  repeat' split
  all_goals first | assumption | simp +contextual (maxDischargeDepth := 30) [*]

@[simp] theorem State.vecWinner_canon {s : State} (h : s.canon = true) (c : Nat) (rdims : Nat) (isMax : Bool) (ib : Word) (a : Stream) (d : Stream) (d2 : Stream) (dr : Draw) (e : MemErr) : (State.vecWinner s c rdims isMax ib a d d2 dr e).canon = true := by
  unfold State.vecWinner
  dsimp only
  simp +contextual (maxDischargeDepth := 30) [*]

@[simp] theorem State.vecElem_canon {s : State} (h : s.canon = true) (c : Nat) (op : VElem) (ins : List Stream) (d : Stream) (dr : Draw) (e : MemErr) : (State.vecElem s c op ins d dr e).canon = true := by
  unfold State.vecElem
  simp +contextual (maxDischargeDepth := 30) [*]

@[simp] theorem State.vecFn_canon {s : State} (h : s.canon = true) (c : Nat) (fn : VFn) (ins : List Stream) (d : Stream) (dr : Draw) (e : MemErr) : (State.vecFn s c fn ins d dr e).canon = true := by
  unfold State.vecFn
  simp +contextual (maxDischargeDepth := 30) [*]

/-! ### Machine/Matrix.lean -/

@[simp] theorem Core.setTile_sp (k : Core) (t : Nat) (d : Sparse Nat) : (k.setTile t d).sp = k.sp := id rfl
@[simp] theorem Core.setEx_sp (k : Core) (t : Nat) (d : ExactTile) : (k.setEx t d).sp = k.sp := id rfl
@[simp] theorem Core.setMark_sp (k : Core) (t f : Nat) : (k.setMark t f).sp = k.sp := id rfl

@[simp] theorem State.plainTile_canon {s : State} (h : s.canon = true) (c : Nat) (t : Nat) : (State.plainTile s c t).canon = true := by
  unfold State.plainTile
  simp +contextual (maxDischargeDepth := 30) [*]

@[simp] theorem State.setTileImg_canon {s : State} (h : s.canon = true) (c : Nat) (t : Nat) (g : TileImg) : (State.setTileImg s c t g).canon = true := by
  unfold State.setTileImg
  simp +contextual (maxDischargeDepth := 30) [*]

@[simp] theorem State.clearQuad_canon {s : State} (h : s.canon = true) (c : Nat) (t : Nat) (state : Nat) : (State.clearQuad s c t state).canon = true := by
  unfold State.clearQuad
  simp +contextual (maxDischargeDepth := 30) [*]

@[simp] theorem State.mmaStatus_canon {s : State} (h : s.canon = true) (c : Nat) (t : Nat) (passes : Nat) (x : MmaArgs) : (State.mmaStatus s c t passes x).canon = true := by
  unfold State.mmaStatus
  dsimp only
  simp +contextual (maxDischargeDepth := 30) [*]

@[simp] theorem State.exactRange_canon {s : State} (h : s.canon = true) (c : Nat) (t : Nat) (o : Op) (n : RangeNote) : (State.exactRange s c t o n).canon = true := by
  unfold State.exactRange
  dsimp only
  simp +contextual (maxDischargeDepth := 30) [*]

@[simp] theorem State.mmaSeqs_canon {s : State} (h : s.canon = true) (c : Nat) (x : MmaArgs) (o : Op) : (State.mmaSeqs s c x o).canon = true := by
  unfold State.mmaSeqs
  dsimp only
  repeat' split
  all_goals first | assumption | simp +contextual (maxDischargeDepth := 30) [*]

@[simp] theorem State.mmaRun_canon {s : State} (h : s.canon = true) (c : Nat) (x : MmaArgs) (o : Op) : (State.mmaRun s c x o).canon = true := by
  unfold State.mmaRun
  dsimp only
  generalize (s.mmaJob c x (s.core c).sp).run (s.tileImg c x.head) = r
  have h1 := State.mmaSeqs_canon h c x o
  generalize State.mmaSeqs s c x o = s1 at h1
  have h2 : (if x.exact = true then (if x.acc = true then s1 else s1.clearQuad c x.head 2)
      else if s1.inExact c x.head = true then s1.clearQuad c x.head 0 else s1).canon = true := by
    repeat' split
    all_goals first | exact h1 | exact State.clearQuad_canon h1 _ _ _
  have h3 := State.setTileImg_canon h2 c x.head r.1
  refine State.mmaStatus_canon (State.modCore_canon ?_ _ _ ?_) _ _ _ _
  · cases r.2 with
    | none => exact h3
    | some n => exact State.exactRange_canon h3 _ _ _ _
  · cases r.2 with
    | none => split <;> exact State.canon_sp h3 c
    | some n => split <;> exact State.canon_sp (State.exactRange_canon h3 c x.head o n) c


@[simp] theorem State.tileErrs_canon {s : State} (h : s.canon = true) (o : Op) (c : Nat) (x : TileErr) (f : State → State) (hf_f : ∀ x0, x0.canon = true → (f x0).canon = true) : (State.tileErrs s o c x f).canon = true := by
  unfold State.tileErrs
  dsimp only
  repeat' split
  all_goals first | assumption | simp +contextual (maxDischargeDepth := 30) [*]

@[simp] theorem State.mma_canon {t : State} (h : t.canon = true) (o : Op) (c : Nat) (a : MmaArgs) (e : MemErr) (x : TileErr) : (State.mma t o c a e x).canon = true := by
  unfold State.mma
  dsimp only
  repeat' split
  all_goals first | assumption | simp +contextual (maxDischargeDepth := 30) [*]

@[simp] theorem State.setTileData_canon {s : State} (h : s.canon = true) (c : Nat) (t : Nat) (bytes : List Byte) : (State.setTileData s c t bytes).canon = true := by
  unfold State.setTileData
  dsimp only
  repeat' split
  all_goals first | assumption | simp +contextual (maxDischargeDepth := 30) [*]

@[simp] theorem State.ardRun_canon {t : State} (h : t.canon = true) (o : Op) (c : Nat) (a : ArdArgs) (inEx : Bool) (head : Nat) : (State.ardRun t o c a inEx head).canon = true := by
  unfold State.ardRun
  dsimp only
  repeat' split
  all_goals first | assumption | simp +contextual (maxDischargeDepth := 30) [*]

@[simp] theorem State.ard_canon {t : State} (h : t.canon = true) (o : Op) (c : Nat) (a : ArdArgs) (x : TileErr) : (State.ard t o c a x).canon = true := by
  unfold State.ard
  dsimp only
  repeat' split
  all_goals first | assumption | simp +contextual (maxDischargeDepth := 30) [*]

/-! ### Machine/Launch.lean -/

@[simp] theorem State.startCore_canon {s : State} (h : s.canon = true) (o : Op) (c : Nat) : (State.startCore s o c).canon = true := by
  unfold State.startCore
  dsimp only
  repeat' split
  all_goals first | assumption | simp +contextual (maxDischargeDepth := 30) [*]

@[simp] theorem State.accConflict_canon {s : State} (h : s.canon = true) (o : Op) (c : Nat) (q : Op) : (State.accConflict s o c q).canon = true := by
  unfold State.accConflict
  dsimp only
  simp +contextual (maxDischargeDepth := 30) [*]

/-! ### Machine/Memory.lean -/

@[simp] theorem State.writeXlatInval_canon {s : State} (h : s.canon = true) (v : Nat) : (State.writeXlatInval s v).canon = true := by
  unfold State.writeXlatInval
  repeat' split
  all_goals first | assumption | simp +contextual (maxDischargeDepth := 30) [*]

@[simp] theorem State.setSpares_canon {s : State} (h : s.canon = true) (m : Nat) (n : Nat) : (State.setSpares s m n).canon = true := by
  unfold State.setSpares
  repeat' split
  all_goals first | assumption | simp +contextual (maxDischargeDepth := 30) [*]

@[simp] theorem State.writeRepairCtrl_canon {s : State} (h : s.canon = true) (v : Nat) : (State.writeRepairCtrl s v).canon = true := by
  unfold State.writeRepairCtrl
  dsimp only
  repeat' split
  all_goals first | assumption | simp +contextual (maxDischargeDepth := 30) [*]

@[simp] theorem State.applyRefresh_canon {s : State} (h : s.canon = true) : (State.applyRefresh s).canon = true := by
  unfold State.applyRefresh
  dsimp only
  simp +contextual (maxDischargeDepth := 30) [*]

end Sys2Proof.Machine
end

