-- ==== Sys2Proof/Laws/CanonFabric.lean ====
section
/-! SUPPORT. The canonical form (State.canon) is kept by the operations over optics, ports, cells, DMA, collectives and UPDATE. -/
namespace Sys2Proof.Machine

/-! ### Machine/Optics.lean -/

@[simp] theorem State.freezeBus_canon {s : State} (h : s.canon = true) (p : Nat) (rx : Bool) (lam : Nat) : (State.freezeBus s p rx lam).canon = true := by
  unfold State.freezeBus
  dsimp only
  repeat' split
  all_goals first | assumption | simp +contextual (maxDischargeDepth := 30) [*]

@[simp] theorem State.resumeBus_canon {s : State} (h : s.canon = true) (p : Nat) (rx : Bool) (lam : Nat) : (State.resumeBus s p rx lam).canon = true := by
  unfold State.resumeBus
  simp +contextual (maxDischargeDepth := 30) [*]

@[simp] theorem State.startSweep_canon {s : State} (h : s.canon = true) (k : Nat) (a : Nat) : (State.startSweep s k a).canon = true := by
  unfold State.startSweep
  simp +contextual (maxDischargeDepth := 30) [*]

@[simp] theorem State.tuneRing_canon {s : State} (h : s.canon = true) (x : RingRead) : (State.tuneRing s x).canon = true := by
  unfold State.tuneRing
  repeat' split
  all_goals assumption

@[simp] theorem State.stepSweeps_canon {s : State} (h : s.canon = true) : (State.stepSweeps s).canon = true := by
  unfold State.stepSweeps
  simp +contextual (maxDischargeDepth := 30) [*]

@[simp] theorem State.tuneRings_canon {s : State} (h : s.canon = true) (l : List RingRead) : (State.tuneRings s l).canon = true := by
  unfold State.tuneRings
  simp +contextual (maxDischargeDepth := 30) [*]

@[simp] theorem State.startMove_canon {s : State} (h : s.canon = true) (p : Nat) (lane : Nat) (back : Bool) : (State.startMove s p lane back).canon = true := by
  unfold State.startMove
  dsimp only
  simp +contextual (maxDischargeDepth := 30) [*]

@[simp] theorem State.sendBeacon_canon {s : State} (h : s.canon = true) (p : Nat) : (State.sendBeacon s p).canon = true := by
  unfold State.sendBeacon
  simp +contextual (maxDischargeDepth := 30) [*]

@[simp] theorem State.sendBeacons_canon {s : State} (h : s.canon = true) : (State.sendBeacons s).canon = true := by
  unfold State.sendBeacons
  simp +contextual (maxDischargeDepth := 30) [*]

@[simp] theorem State.wrongLambda_canon {s : State} (h : s.canon = true) (p : Nat) (rx : Bool) (lam : Nat) (tones : List Tone) : (State.wrongLambda s p rx lam tones).canon = true := by
  unfold State.wrongLambda
  dsimp only
  simp +contextual (maxDischargeDepth := 30) [*]

@[simp] theorem State.stopFor_canon {s : State} (h : s.canon = true) (p : Nat) (rx : Bool) (lam : Nat) : (State.stopFor s p rx lam).canon = true := by
  unfold State.stopFor
  repeat' split
  all_goals first | assumption | simp +contextual (maxDischargeDepth := 30) [*]

@[simp] theorem State.goAfter_canon {s : State} (h : s.canon = true) (p : Nat) (rx : Bool) (lam : Nat) : (State.goAfter s p rx lam).canon = true := by
  unfold State.goAfter
  repeat' split
  all_goals first | assumption | simp +contextual (maxDischargeDepth := 30) [*]

@[simp] theorem State.ringFailed_canon {s : State} (h : s.canon = true) (p : Nat) (rx : Bool) (lam : Nat) : (State.ringFailed s p rx lam).canon = true := by
  unfold State.ringFailed
  dsimp only
  repeat' split
  all_goals first | assumption | simp +contextual (maxDischargeDepth := 30) [*]

@[simp] theorem State.attemptFails_canon {s : State} (h : s.canon = true) (p : Nat) (rx : Bool) (lam : Nat) : (State.attemptFails s p rx lam).canon = true := by
  unfold State.attemptFails
  dsimp only
  repeat' split
  all_goals first | assumption | simp +contextual (maxDischargeDepth := 30) [*]

@[simp] theorem State.shortCheck_canon {s : State} (h : s.canon = true) (k : Nat) : (State.shortCheck s k).canon = true := by
  unfold State.shortCheck
  simp +contextual (maxDischargeDepth := 30) [*]

@[simp] theorem State.applyMoves_canon {s : State} (h : s.canon = true) : (State.applyMoves s).canon = true := by
  unfold State.applyMoves
  refine State.each_canon h _ _ fun t p ht => ?_
  dsimp only
  split
  · exact State.each_canon (State.modPort_canon ht _ _) _ _ fun u lam hu => State.holdOff_canon hu _ _
  · exact ht


@[simp] theorem State.moveAsked_canon {s : State} (h : s.canon = true) (m : LinkMsg) : (State.moveAsked s m).canon = true := by
  unfold State.moveAsked
  dsimp only
  repeat' split
  all_goals first | assumption | simp +contextual (maxDischargeDepth := 30) [*]

@[simp] theorem State.setLc_canon {s : State} (h : s.canon = true) (n : Nat) (st : Nat) (lam : Nat) : (State.setLc s n st lam).canon = true := by
  unfold State.setLc
  simp +contextual (maxDischargeDepth := 30) [*]

@[simp] theorem State.park_canon {s : State} (h : s.canon = true) : (State.park s).canon = true := by
  unfold State.park
  repeat' split
  all_goals first | assumption | simp +contextual (maxDischargeDepth := 30) [*]

@[simp] theorem State.noSpare_canon {s : State} (h : s.canon = true) (lam : Nat) (failed : Bool) : (State.noSpare s lam failed).canon = true := by
  unfold State.noSpare
  dsimp only
  repeat' split
  all_goals first | assumption | simp +contextual (maxDischargeDepth := 30) [*]

@[simp] theorem State.beginSwap_canon {s : State} (h : s.canon = true) (w : SwapSt) : (State.beginSwap s w).canon = true := by
  unfold State.beginSwap
  dsimp only
  repeat' split
  all_goals first | assumption | simp +contextual (maxDischargeDepth := 30) [*]

@[simp] theorem State.modSwap_canon {s : State} (h : s.canon = true) (lam : Nat) (f : SwapSt → SwapSt) : (State.modSwap s lam f).canon = true := by
  unfold State.modSwap
  simp +contextual (maxDischargeDepth := 30) [*]

@[simp] theorem State.dropSwap_canon {s : State} (h : s.canon = true) (lam : Nat) : (State.dropSwap s lam).canon = true := by
  unfold State.dropSwap
  simp +contextual (maxDischargeDepth := 30) [*]

@[simp] theorem State.retire_canon {s : State} (h : s.canon = true) (w : SwapSt) : (State.retire s w).canon = true := by
  unfold State.retire
  repeat' split
  all_goals first | assumption | simp +contextual (maxDischargeDepth := 30) [*]

@[simp] theorem State.swapOut_canon {s : State} (h : s.canon = true) (lam : Nat) (old : Nat) (failed : Bool) (cal : Bool) : (State.swapOut s lam old failed cal).canon = true := by
  unfold State.swapOut
  dsimp only
  repeat' split
  all_goals first | assumption | simp +contextual (maxDischargeDepth := 30) [*]

@[simp] theorem State.handBack_canon {s : State} (h : s.canon = true) (n : Nat) : (State.handBack s n).canon = true := by
  unfold State.handBack
  dsimp only
  repeat' split
  all_goals first | assumption | simp +contextual (maxDischargeDepth := 30) [*]

@[simp] theorem State.nextSpare_canon {s : State} (h : s.canon = true) (w : SwapSt) : (State.nextSpare s w).canon = true := by
  unfold State.nextSpare
  dsimp only
  repeat' split
  all_goals first | assumption | simp +contextual (maxDischargeDepth := 30) [*]

@[simp] theorem State.releaseLc_canon {s : State} (h : s.canon = true) (n : Nat) : (State.releaseLc s n).canon = true := by
  unfold State.releaseLc
  repeat' split
  all_goals first | assumption | simp +contextual (maxDischargeDepth := 30) [*]

@[simp] theorem State.laserCper_canon {s : State} (h : s.canon = true) (n : Nat) : (State.laserCper s n).canon = true := by
  unfold State.laserCper
  simp +contextual (maxDischargeDepth := 30) [*]

@[simp] theorem State.tapLaser_canon {s : State} (h : s.canon = true) (x : LaserRead) : (State.tapLaser s x).canon = true := by
  unfold State.tapLaser
  dsimp only
  repeat' split
  all_goals first | assumption | simp +contextual (maxDischargeDepth := 30) [*]

@[simp] theorem State.loseLaser_canon {s : State} (h : s.canon = true) (n : Nat) (lam : Nat) : (State.loseLaser s n lam).canon = true := by
  unfold State.loseLaser
  dsimp only
  repeat' split
  all_goals first | assumption | simp +contextual (maxDischargeDepth := 30) [*]

@[simp] theorem State.lightBank_canon {s : State} (h : s.canon = true) : (State.lightBank s).canon = true := by
  unfold State.lightBank
  dsimp only
  simp +contextual (maxDischargeDepth := 30) [*]

@[simp] theorem State.bankChange_canon {s : State} (h : s.canon = true) (was : Bool) : (State.bankChange s was).canon = true := by
  unfold State.bankChange
  dsimp only
  repeat' split
  all_goals first | assumption | simp +contextual (maxDischargeDepth := 30) [*]

@[simp] theorem State.writeLcCtrl_canon {s : State} (h : s.canon = true) (n : Nat) (v : Nat) : (State.writeLcCtrl s n v).canon = true := by
  unfold State.writeLcCtrl
  dsimp only
  repeat' split
  all_goals first | assumption | simp +contextual (maxDischargeDepth := 30) [*]

/-! ### Machine/Ports.lean -/

@[simp] theorem State.forwardSvc_canon {s : State} (h : s.canon = true) (p : Nat) (origin : Nat) (dest : Nat) (m : SvcBody) (hops : Nat) : (State.forwardSvc s p origin dest m hops).canon = true := by
  unfold State.forwardSvc
  repeat' split
  all_goals first | assumption | simp +contextual (maxDischargeDepth := 30) [*]

@[simp] theorem State.routeSvc_canon {s : State} (hc : s.canon = true) (p : Nat) (h : SvcHeader) (body : List Byte) (route : Option (Nat × Nat)) : (State.routeSvc s p h body route).canon = true := by
  unfold State.routeSvc
  repeat' split
  all_goals first | assumption | simp +contextual (maxDischargeDepth := 30) [*]

@[simp] theorem State.invertSvc_canon {s : State} (hc : s.canon = true) (p : Nat) (h : SvcHeader) (body : List Byte) (route : Option (Nat × Nat)) : (State.invertSvc s p h body route).canon = true := by
  unfold State.invertSvc
  dsimp only
  repeat' split
  all_goals assumption

@[simp] theorem State.newPeer_canon {s : State} (h : s.canon = true) (p : Nat) (m : Nat) : (State.newPeer s p m).canon = true := by
  unfold State.newPeer
  dsimp only
  simp +contextual (maxDischargeDepth := 30) [*]

@[simp] theorem State.beaconIn_canon {s : State} (h : s.canon = true) (p : Nat) (b : Beacon) : (State.beaconIn s p b).canon = true := by
  unfold State.beaconIn
  dsimp only
  repeat' split
  all_goals first | assumption | simp +contextual (maxDischargeDepth := 30) [*]

@[simp] theorem State.countPorts_canon {s : State} (h : s.canon = true) : (State.countPorts s).canon = true := by
  unfold State.countPorts
  exact State.each_canon h _ _ fun t p ht => canon_ite (fun _ => ht) fun _ => State.modPort_canon ht _ _


@[simp] theorem State.darken_canon {s : State} (h : s.canon = true) (b : Nat) : (State.darken s b).canon = true := by
  unfold State.darken
  simp +contextual (maxDischargeDepth := 30) [*]

@[simp] theorem State.move_canon {s : State} (h : s.canon = true) (b : Nat) (pos : Nat) : (State.move s b pos).canon = true := by
  unfold State.move
  dsimp only
  simp +contextual (maxDischargeDepth := 30) [*]

@[simp] theorem State.closeBypass_canon {s : State} (h : s.canon = true) (b : Nat) : (State.closeBypass s b).canon = true := by
  unfold State.closeBypass
  dsimp only
  repeat' split
  all_goals first | assumption | simp +contextual (maxDischargeDepth := 30) [*]

@[simp] theorem State.writeBypCtrl_canon {s : State} (h : s.canon = true) (b : Nat) (v : Nat) : (State.writeBypCtrl s b v).canon = true := by
  unfold State.writeBypCtrl
  dsimp only
  simp +contextual (maxDischargeDepth := 30) [*]

/-! ### Machine/Fabric.lean -/

@[simp] theorem State.writeSchedLoad_canon {s : State} (h : s.canon = true) (v : Nat) : (State.writeSchedLoad s v).canon = true := by
  unfold State.writeSchedLoad
  dsimp only
  repeat' split
  all_goals first | assumption | simp +contextual (maxDischargeDepth := 30) [*]

@[simp] theorem State.loadFails_canon {s : State} (h : s.canon = true) (reason : Nat) (slot : Nat) (port : Nat) : (State.loadFails s reason slot port).canon = true := by
  unfold State.loadFails
  simp +contextual (maxDischargeDepth := 30) [*]

@[simp] theorem State.moveFlows_canon {s : State} (h : s.canon = true) (b : Nat) : (State.moveFlows s b).canon = true := by
  unfold State.moveFlows
  dsimp only
  simp +contextual (maxDischargeDepth := 30) [*]

@[simp] theorem State.noteExpress_canon {s : State} (h : s.canon = true) : (State.noteExpress s).canon = true := by
  unfold State.noteExpress
  exact State.each_canon (State.modFab_canon h _) _ _ fun t p ht => State.modPort_canon ht _ _


@[simp] theorem State.sealed_canon {s : State} (h : s.canon = true) (c : Cell) : (State.sealed s c).2.canon = true := by
  unfold State.sealed
  dsimp only
  repeat' split
  all_goals assumption

@[simp] theorem State.emitSlot_canon {s : State} (h : s.canon = true) (slot : Nat) (p : Nat) (c : Cell) : (State.emitSlot s slot p c).canon = true := by
  unfold State.emitSlot
  simp +contextual (maxDischargeDepth := 30) [*]

@[simp] theorem State.launchCell_canon {s : State} (h : s.canon = true) (slot : Nat) (p : Nat) (term : Nat) (q : QCell) (served : Option Nat) : (State.launchCell s slot p term q served).canon = true := by
  unfold State.launchCell
  dsimp only
  repeat' split
  all_goals first | assumption | simp +contextual (maxDischargeDepth := 30) [*]

@[simp] theorem State.idleSlot_canon {s : State} (h : s.canon = true) (slot : Nat) (p : Nat) : (State.idleSlot s slot p).canon = true := by
  unfold State.idleSlot
  simp +contextual (maxDischargeDepth := 30) [*]

@[simp] theorem State.readRefused_canon {s : State} (h : s.canon = true) (c : Nat) (dest : Nat) (gen : Nat) (xfer : Nat) (code : Nat) (detail : List (Nat × Nat)) : (State.readRefused s c dest gen xfer code detail).canon = true := by
  unfold State.readRefused
  dsimp only
  simp +contextual (maxDischargeDepth := 30) [*]

theorem State.readFails_canon {s : State} {c : Nat} {dest : Nat} {gen : Nat} {xfer : Nat} {l1_ : ReadErr} {t : State} (x : State.readFails s c dest gen xfer l1_ = some t) (h : s.canon = true) : t.canon = true := by
  unfold State.readFails at x
  try dsimp only at x
  repeat' split at x
  all_goals first
    | contradiction
    | (simp only [Option.some.injEq, Except.ok.injEq, Except.error.injEq, Pre.go.injEq, Wrote.ok.injEq, Stored.ok.injEq, Stored.stop.injEq, reduceCtorEq] at x; done)
    | (simp only [Option.some.injEq, Except.ok.injEq, Except.error.injEq, Pre.go.injEq, Wrote.ok.injEq, Stored.ok.injEq, Stored.stop.injEq] at x; subst x; first | assumption | simp +contextual (maxDischargeDepth := 30) [*])

@[simp] theorem State.relaunchFails_canon {s : State} (h : s.canon = true) (q : QCell) (x : ReadErr) : (State.relaunchFails s q x).canon = true := by
  unfold State.relaunchFails
  dsimp only
  split
  · simp [h]
  · generalize ht : s.modFab _ = t
    have hc : t.canon = true := by rw [← ht]; exact State.modFab_canon h _
    cases hr : t.readFails _ q.cell.dest.toNat q.cell.gen.toNat q.cell.xfer.toNat x with
    | none => exact hc
    | some u => exact State.readFails_canon hr hc
  · exact h

@[simp] theorem State.addXfer_canon {s : State} (h : s.canon = true) (own : Owner) (gen : Nat) (dest : Nat) (q : Queue) (cells : List (Cell × List Nat)) : (State.addXfer s own gen dest q cells).canon = true := by
  unfold State.addXfer
  simp +contextual (maxDischargeDepth := 30) [*]

@[simp] theorem State.sendWrite_canon {s : State} (h : s.canon = true) (own : Owner) (gen : Nat) (dest : Nat) (flags : Nat) (src : List Nat) (w : List (Nat × Byte)) : (State.sendWrite s own gen dest flags src w).canon = true := by
  unfold State.sendWrite
  dsimp only
  simp +contextual (maxDischargeDepth := 30) [*]

@[simp] theorem State.sendRead_canon {s : State} (h : s.canon = true) (own : Owner) (gen : Nat) (dest : Nat) (addr : Nat) (shape : List Byte) (esz : Nat) (base : Nat) (sp : Bool) (dst : List Nat) : (State.sendRead s own gen dest addr shape esz base sp dst).canon = true := by
  unfold State.sendRead
  dsimp only
  simp +contextual (maxDischargeDepth := 30) [*]

@[simp] theorem State.dropXfers_canon {s : State} (h : s.canon = true) (w : Owner) : (State.dropXfers s w).canon = true := by
  unfold State.dropXfers
  simp +contextual (maxDischargeDepth := 30) [*]

@[simp] theorem State.sendOutbox_canon {s : State} (h : s.canon = true) : (State.sendOutbox s).canon = true := by
  unfold State.sendOutbox
  dsimp only
  repeat' split
  all_goals assumption

@[simp] theorem State.ckptComplete_canon {s : State} (h : s.canon = true) : (State.ckptComplete s).canon = true := by
  unfold State.ckptComplete
  dsimp only
  simp +contextual (maxDischargeDepth := 30) [*]

@[simp] theorem State.sendSlots_canon {s : State} (h : s.canon = true) (w : Owner) : (State.sendSlots s w).canon = true := by
  unfold State.sendSlots
  dsimp only
  simp +contextual (maxDischargeDepth := 30) [*]

@[simp] theorem State.engineStep_canon {s : State} (h : s.canon = true) (w : Owner) : (State.engineStep s w).canon = true := by
  unfold State.engineStep
  dsimp only
  repeat' split
  all_goals first | assumption | simp +contextual (maxDischargeDepth := 30) [*]

@[simp] theorem State.countUnits_canon {s : State} (h : s.canon = true) (w : Owner) : (State.countUnits s w).canon = true := by
  unfold State.countUnits
  dsimp only
  simp +contextual (maxDischargeDepth := 30) [*]

@[simp] theorem State.checkXfers_canon {s : State} (h : s.canon = true) (w : Owner) : (State.checkXfers s w).canon = true := by
  unfold State.checkXfers
  dsimp only
  repeat' split
  all_goals first | assumption | simp +contextual (maxDischargeDepth := 30) [*]

@[simp] theorem State.giveCredit_canon {s : State} (h : s.canon = true) (p : Nat) : (State.giveCredit s p).canon = true := by
  unfold State.giveCredit
  simp +contextual (maxDischargeDepth := 30) [*]

@[simp] theorem State.refuseTo_canon {s : State} (h : s.canon = true) (c : Cell) (code : Nat) : (State.refuseTo s c code).canon = true := by
  unfold State.refuseTo
  simp +contextual (maxDischargeDepth := 30) [*]

@[simp] theorem State.bufferLost_canon {s : State} (h : s.canon = true) (q : QCell) : (State.bufferLost s q).canon = true := by
  unfold State.bufferLost
  dsimp only
  repeat' split
  all_goals first | assumption | simp +contextual (maxDischargeDepth := 30) [*]

@[simp] theorem State.cellAcked_canon {s : State} (h : s.canon = true) (q : QCell) : (State.cellAcked s q).canon = true := by
  unfold State.cellAcked
  dsimp only
  repeat' split
  all_goals first | assumption | simp +contextual (maxDischargeDepth := 30) [*]

@[simp] theorem State.refuseCell_canon {s : State} (h : s.canon = true) (q : QCell) (counts : Bool) : (State.refuseCell s q counts).canon = true := by
  unfold State.refuseCell
  dsimp only
  repeat' split
  all_goals first | assumption | simp +contextual (maxDischargeDepth := 30) [*]

@[simp] theorem State.refuseNamed_canon {s : State} (h : s.canon = true) (m : LinkMsg) (counts : Bool) : (State.refuseNamed s m counts).canon = true := by
  unfold State.refuseNamed
  repeat' split
  all_goals first | assumption | simp +contextual (maxDischargeDepth := 30) [*]

@[simp] theorem State.staleReport_canon {s : State} (h : s.canon = true) : (State.staleReport s).canon = true := by
  unfold State.staleReport
  simp +contextual (maxDischargeDepth := 30) [*]

@[simp] theorem State.dropDead_canon {s : State} (h : s.canon = true) (x : Xfer) : (State.dropDead s x).canon = true := by
  unfold State.dropDead
  repeat' split
  all_goals assumption

@[simp] theorem State.refusalOf_canon {s : State} (h : s.canon = true) (code : Nat) (dest : Nat) (epoch : Nat) : (State.refusalOf s code dest epoch).2.canon = true := by
  unfold State.refusalOf
  dsimp only
  repeat' split
  all_goals assumption

@[simp] theorem State.nak_canon {s : State} (h : s.canon = true) (kind : Nat) (p : Nat) (m : Nat) (lseq : Nat) : (State.nak s kind p m lseq).canon = true := by
  unfold State.nak
  simp +contextual (maxDischargeDepth := 30) [*]

@[simp] theorem State.sealCount_canon {s : State} (h : s.canon = true) : (State.sealCount s).canon = true := by
  unfold State.sealCount
  simp +contextual (maxDischargeDepth := 30) [*]

@[simp] theorem State.authFail_canon {s : State} (h : s.canon = true) (c : Nat) (x : Cell) (cause : Nat) : (State.authFail s c x cause).canon = true := by
  unfold State.authFail
  dsimp only
  simp +contextual (maxDischargeDepth := 30) [*]

@[simp] theorem State.cellWritten_canon {s : State} (h : s.canon = true) (x : Cell) : (State.cellWritten s x).canon = true := by
  unfold State.cellWritten
  dsimp only
  repeat' split
  all_goals first | assumption | simp +contextual (maxDischargeDepth := 30) [*]

@[simp] theorem State.putVa_canon {s : State} (h : s.canon = true) (c : Nat) (w : List (Nat × Byte)) : (State.putVa s c w).canon = true := by
  unfold State.putVa
  simp +contextual (maxDischargeDepth := 30) [*]

theorem State.mirrorCell_canon {s : State} {w : Owner} {x : Cell} {vas : List Nat} {t : State} (x : State.mirrorCell s w x vas = some t) (h : s.canon = true) : t.canon = true := by
  unfold State.mirrorCell at x
  try dsimp only at x
  repeat' split at x
  all_goals try have := State.touchPages_canon ‹State.touchPages _ _ _ = .go _› (by first | assumption | simp +contextual (maxDischargeDepth := 30) [*])
  all_goals first
    | contradiction
    | (simp only [Option.some.injEq, Except.ok.injEq, Except.error.injEq, Pre.go.injEq, Wrote.ok.injEq, Stored.ok.injEq, Stored.stop.injEq, reduceCtorEq] at x; done)
    | (simp only [Option.some.injEq, Except.ok.injEq, Except.error.injEq, Pre.go.injEq, Wrote.ok.injEq, Stored.ok.injEq, Stored.stop.injEq] at x; subst x; first | assumption | simp +contextual (maxDischargeDepth := 30) [*])
    | exact State.touchPages_canon x (by first | assumption | simp +contextual (maxDischargeDepth := 30) [*])

theorem State.writeCell_canon {s : State} {c : Nat} {x : Cell} {t : State} (x : State.writeCell s c x = some t) (h : s.canon = true) : t.canon = true := by
  unfold State.writeCell at x
  try dsimp only at x
  repeat' split at x
  all_goals try have := State.mirrorCell_canon ‹State.mirrorCell _ _ _ _ = some _› (by first | assumption | simp +contextual (maxDischargeDepth := 30) [*])
  all_goals try have := State.unitWrite_canon ‹State.unitWrite _ _ _ _ = .ok _› (by first | assumption | simp +contextual (maxDischargeDepth := 30) [*])
  all_goals first
    | contradiction
    | (simp only [Option.some.injEq, Except.ok.injEq, Except.error.injEq, Pre.go.injEq, Wrote.ok.injEq, Stored.ok.injEq, Stored.stop.injEq, reduceCtorEq] at x; done)
    | (simp only [Option.some.injEq, Except.ok.injEq, Except.error.injEq, Pre.go.injEq, Wrote.ok.injEq, Stored.ok.injEq, Stored.stop.injEq] at x; subst x; first | assumption | simp +contextual (maxDischargeDepth := 30) [*])
    | exact State.mirrorCell_canon x (by first | assumption | simp +contextual (maxDischargeDepth := 30) [*])
    | exact State.unitWrite_canon x (by first | assumption | simp +contextual (maxDischargeDepth := 30) [*])

@[simp] theorem State.landCell_canon {s : State} (h : s.canon = true) (c : Nat) (x : Cell) : (State.landCell s c x).canon = true := by
  unfold State.landCell
  repeat' split
  all_goals try have := State.writeCell_canon ‹State.writeCell _ _ _ = some _› (by first | assumption | simp +contextual (maxDischargeDepth := 30) [*])
  all_goals assumption

@[simp] theorem State.guestIn_canon {s : State} (h : s.canon = true) (x : Cell) : (State.guestIn s x).canon = true := by
  unfold State.guestIn
  dsimp only
  simp +contextual (maxDischargeDepth := 30) [*]

@[simp] theorem State.collIn_canon {s : State} (h : s.canon = true) (c : Nat) (x : Cell) : (State.collIn s c x).canon = true := by
  unfold State.collIn
  dsimp only
  simp +contextual (maxDischargeDepth := 30) [*]

@[simp] theorem State.deliverClear_canon {s : State} (h : s.canon = true) (c : Nat) (x : Cell) (parityOk : Bool) : (State.deliverClear s c x parityOk).canon = true := by
  unfold State.deliverClear
  dsimp only
  repeat' split
  all_goals first | assumption | simp +contextual (maxDischargeDepth := 30) [*]

@[simp] theorem State.deliver_canon {s : State} (h : s.canon = true) (x : Cell) (parityOk : Bool) : (State.deliver s x parityOk).canon = true := by
  unfold State.deliver
  repeat' split
  all_goals first | assumption | simp +contextual (maxDischargeDepth := 30) [*]

@[simp] theorem State.retryCell_canon {s : State} (h : s.canon = true) (q : Nat × Cell) : (State.retryCell s q).canon = true := by
  unfold State.retryCell
  dsimp only
  repeat' split
  all_goals try have := State.writeCell_canon ‹State.writeCell _ _ _ = some _› (by first | assumption | simp +contextual (maxDischargeDepth := 30) [*])
  all_goals first | assumption | simp +contextual (maxDischargeDepth := 30) [*]

@[simp] theorem State.retryCells_canon {s : State} (h : s.canon = true) : (State.retryCells s).canon = true := by
  unfold State.retryCells
  simp +contextual (maxDischargeDepth := 30) [*]

@[simp] theorem State.forwardCell_canon {s : State} (h : s.canon = true) (p : Nat) (fixed : Bool) (paid : Bool) (x : Cell) (parityOk : Bool) : (State.forwardCell s p fixed paid x parityOk).canon = true := by
  unfold State.forwardCell
  dsimp only
  repeat' split
  all_goals first | assumption | simp +contextual (maxDischargeDepth := 30) [*]

@[simp] theorem State.cellIn_canon {s : State} (h : s.canon = true) (p : Nat) (fixed : Bool) (paid : Bool) (x : Cell) (parityOk : Bool) : (State.cellIn s p fixed paid x parityOk).canon = true := by
  unfold State.cellIn
  dsimp only
  repeat' split
  all_goals first | assumption | simp +contextual (maxDischargeDepth := 30) [*]

@[simp] theorem State.noteLanes_canon {s : State} (h : s.canon = true) (p : Nat) (src : Nat) (e : RxEnv) : (State.noteLanes s p src e).canon = true := by
  unfold State.noteLanes
  dsimp only
  repeat' split
  all_goals assumption

@[simp] theorem State.creditBack_canon {s : State} (h : s.canon = true) {old : State} (h_old : old.canon = true) (p : Nat) (paid : Bool) : (State.creditBack s old p paid).canon = true := by
  unfold State.creditBack
  simp +contextual (maxDischargeDepth := 30) [*]

@[simp] theorem State.terminate_canon {s : State} (h : s.canon = true) (p : Nat) (from_ : Nat) (fixed : Bool) (paid : Bool) (c : Cell) (e : RxEnv) : (State.terminate s p from_ fixed paid c e).canon = true := by
  unfold State.terminate
  dsimp only
  repeat' split
  all_goals first | assumption | simp +contextual (maxDischargeDepth := 30) [*]

@[simp] theorem State.sendAcks_canon {s : State} (h : s.canon = true) : (State.sendAcks s).canon = true := by
  unfold State.sendAcks
  dsimp only
  simp +contextual (maxDischargeDepth := 30) [*]

@[simp] theorem State.writeRoute_canon {s : State} (h : s.canon = true) (v : Nat) : (State.writeRoute s v).canon = true := by
  unfold State.writeRoute
  dsimp only
  simp +contextual (maxDischargeDepth := 30) [*]

@[simp] theorem State.missCells_canon {s : State} (h : s.canon = true) (n : Nat) : (State.missCells s n).canon = true := by
  unfold State.missCells
  simp +contextual (maxDischargeDepth := 30) [*]

@[simp] theorem State.routeLost_canon {s : State} (h : s.canon = true) (o : Op) (dest : Nat) : (State.routeLost s o dest).canon = true := by
  unfold State.routeLost
  simp +contextual (maxDischargeDepth := 30) [*]

@[simp] theorem State.writeKeySwitch_canon {s : State} (h : s.canon = true) (v : Nat) : (State.writeKeySwitch s v).canon = true := by
  unfold State.writeKeySwitch
  dsimp only
  repeat' split
  all_goals first | assumption | simp +contextual (maxDischargeDepth := 30) [*]

@[simp] theorem State.dropLinkKey_canon {s : State} (h : s.canon = true) (k : Nat) : (State.dropLinkKey s k).canon = true := by
  unfold State.dropLinkKey
  dsimp only
  simp +contextual (maxDischargeDepth := 30) [*]

/-! ### Machine/Dma.lean -/

@[simp] theorem State.rejectSeal_canon {s : State} (h : s.canon = true) (o : Op) : (State.rejectSeal s o).canon = true := by
  unfold State.rejectSeal
  dsimp only
  simp +contextual (maxDischargeDepth := 30) [*]

@[simp] theorem State.rejectRoute_canon {s : State} (h : s.canon = true) (o : Op) (dest : Nat) : (State.rejectRoute s o dest).canon = true := by
  unfold State.rejectRoute
  simp +contextual (maxDischargeDepth := 30) [*]

@[simp] theorem State.rejectRule_canon {s : State} (h : s.canon = true) (o : Op) (reason : Nat) (addr : Nat) : (State.rejectRule s o reason addr).canon = true := by
  unfold State.rejectRule
  dsimp only
  simp +contextual (maxDischargeDepth := 30) [*]

@[simp] theorem State.faultAddr_canon {s : State} (h : s.canon = true) (o : Op) (reason : Nat) (addr : Nat) : (State.faultAddr s o reason addr).canon = true := by
  unfold State.faultAddr
  dsimp only
  repeat' split
  all_goals first | assumption | simp +contextual (maxDischargeDepth := 30) [*]

theorem State.engineRead_ok_canon {s : State} {o : Op} {pas : List Nat} {e : MemErr} {t : (List Byte × State)} (x : State.engineRead s o pas e = .ok t) (h : s.canon = true) : t.2.canon = true := by
  unfold State.engineRead at x
  try dsimp only at x
  repeat' split at x
  all_goals first
    | contradiction
    | (simp only [Option.some.injEq, Except.ok.injEq, Except.error.injEq, Pre.go.injEq, Wrote.ok.injEq, Stored.ok.injEq, Stored.stop.injEq, reduceCtorEq] at x; done)
    | (simp only [Option.some.injEq, Except.ok.injEq, Except.error.injEq, Pre.go.injEq, Wrote.ok.injEq, Stored.ok.injEq, Stored.stop.injEq] at x; subst x; first | assumption | simp +contextual (maxDischargeDepth := 30) [*])

theorem State.engineRead_error_canon {s : State} {o : Op} {pas : List Nat} {e : MemErr} {t : State} (x : State.engineRead s o pas e = .error t) (h : s.canon = true) : t.canon = true := by
  unfold State.engineRead at x
  try dsimp only at x
  repeat' split at x
  all_goals first
    | contradiction
    | (simp only [Option.some.injEq, Except.ok.injEq, Except.error.injEq, Pre.go.injEq, Wrote.ok.injEq, Stored.ok.injEq, Stored.stop.injEq, reduceCtorEq] at x; done)
    | (simp only [Option.some.injEq, Except.ok.injEq, Except.error.injEq, Pre.go.injEq, Wrote.ok.injEq, Stored.ok.injEq, Stored.stop.injEq] at x; subst x; first | assumption | simp +contextual (maxDischargeDepth := 30) [*])

theorem State.engineSp_ok_canon {s : State} {o : Op} {whole : Bool} {w : List (Nat × Byte)} {e : MemErr} {t : State} (x : State.engineSp s o whole w e = .ok t) (h : s.canon = true) : t.canon = true := by
  unfold State.engineSp at x
  try dsimp only at x
  repeat' split at x
  all_goals first
    | contradiction
    | (simp only [Option.some.injEq, Except.ok.injEq, Except.error.injEq, Pre.go.injEq, Wrote.ok.injEq, Stored.ok.injEq, Stored.stop.injEq, reduceCtorEq] at x; done)
    | (simp only [Option.some.injEq, Except.ok.injEq, Except.error.injEq, Pre.go.injEq, Wrote.ok.injEq, Stored.ok.injEq, Stored.stop.injEq] at x; subst x; first | assumption | simp +contextual (maxDischargeDepth := 30) [*])

theorem State.engineSp_error_canon {s : State} {o : Op} {whole : Bool} {w : List (Nat × Byte)} {e : MemErr} {t : State} (x : State.engineSp s o whole w e = .error t) (h : s.canon = true) : t.canon = true := by
  unfold State.engineSp at x
  try dsimp only at x
  repeat' split at x
  all_goals first
    | contradiction
    | (simp only [Option.some.injEq, Except.ok.injEq, Except.error.injEq, Pre.go.injEq, Wrote.ok.injEq, Stored.ok.injEq, Stored.stop.injEq, reduceCtorEq] at x; done)
    | (simp only [Option.some.injEq, Except.ok.injEq, Except.error.injEq, Pre.go.injEq, Wrote.ok.injEq, Stored.ok.injEq, Stored.stop.injEq] at x; subst x; first | assumption | simp +contextual (maxDischargeDepth := 30) [*])

@[simp] theorem State.saveWork_canon {s : State} (h : s.canon = true) (o : Op) (w : EngWork) (units : Nat) : (State.saveWork s o w units).canon = true := by
  unfold State.saveWork
  simp +contextual (maxDischargeDepth := 30) [*]

theorem State.dmaMove_ok_canon {s : State} {o : Op} {src dst : DmaEnd} {whole : Bool} {a n : Nat} {e : MemErr} {t : State}
    (x : State.dmaMove s o src dst whole a n e = .ok t) (h : s.canon = true) : t.canon = true := by
  unfold State.dmaMove at x
  dsimp only at x
  split at x
  · cases x
  · split at x
    · cases x
    · rename_i hr
      have hu := State.engineRead_ok_canon hr h
      split at x
      · split at x
        · cases x
        · split at x
          · rename_i hs; obtain rfl := Stored.ok.inj x; exact State.engineSp_ok_canon hs hu
          · cases x
      · exact State.engineWrite_ok_canon x hu

theorem State.dmaMove_stop_canon {s : State} {o : Op} {src dst : DmaEnd} {whole : Bool} {a n : Nat} {e : MemErr} {t : State}
    (x : State.dmaMove s o src dst whole a n e = .stop t) (h : s.canon = true) : t.canon = true := by
  unfold State.dmaMove at x
  dsimp only at x
  split at x
  · obtain rfl := Stored.stop.inj x; exact State.faultAddr_canon h _ _ _
  · split at x
    · rename_i hr; obtain rfl := Stored.stop.inj x; exact State.engineRead_error_canon hr h
    · rename_i hr
      have hu := State.engineRead_ok_canon hr h
      split at x
      · split at x
        · obtain rfl := Stored.stop.inj x; exact State.faultAddr_canon hu _ _ _
        · split at x
          · cases x
          · rename_i hs; obtain rfl := Stored.stop.inj x; exact State.engineSp_error_canon hs hu
      · exact State.engineWrite_stop_canon x hu

/-- What a run of parts leaves. -/
theorem runParts_canon {f : State → Nat → Nat → Stored} {next : Nat → Nat} {lim : Nat} (hok : ∀ u k j t, u.canon = true → f u k j = .ok t → t.canon = true)
    (hstop : ∀ u k j t, u.canon = true → f u k j = .stop t → t.canon = true) {s : State} (h : s.canon = true) {n k : Nat} :
    (∀ t a, runParts f next lim n s k = .go t a → t.canon = true) ∧ (∀ t, runParts f next lim n s k = .stop t → t.canon = true)
    ∧ (∀ t a, runParts f next lim n s k = .wait t a → t.canon = true) := by
  induction n generalizing s k with
  | zero =>
    unfold runParts
    exact ⟨fun t a x => (by obtain ⟨rfl, -⟩ := Parts.go.inj x; exact h), fun t x => (by cases x), fun t a x => (by cases x)⟩
  | succ n ih =>
    unfold runParts
    dsimp only
    split
    · exact ⟨fun t a x => (by obtain ⟨rfl, -⟩ := Parts.go.inj x; exact h), fun t x => (by cases x), fun t a x => (by cases x)⟩
    · split
      · rename_i hg; exact ih (hok _ _ _ _ h hg)
      · rename_i hg
        exact ⟨fun t a x => (by cases x), fun t x => (by obtain rfl := Parts.stop.inj x; exact hstop _ _ _ _ h hg), fun t a x => (by cases x)⟩
      · exact ⟨fun t a x => (by cases x), fun t x => (by cases x), fun t a x => (by obtain ⟨rfl, -⟩ := Parts.wait.inj x; exact h)⟩

@[simp] theorem State.dmaLocal_canon {s : State} (h : s.canon = true) (o : Op) (shape : Option (List Byte)) (src dst : DmaEnd) (e : MemErr) (part : Option Word) :
    (State.dmaLocal s o shape src dst e part).canon = true := by
  unfold State.dmaLocal
  dsimp only
  generalize hr : runParts _ _ _ _ s _ = r
  have hp := fun f next lim h1 h2 n k => runParts_canon (f := f) (next := next) (lim := lim) h1 h2 h (n := n) (k := k)
  cases r with
  | stop t => exact (hp _ _ _ (fun _ _ _ _ hu hx => State.dmaMove_ok_canon hx hu) (fun _ _ _ _ hu hx => State.dmaMove_stop_canon hx hu) _ _).2.1 _ hr
  | wait t k =>
    have ht := (hp _ _ _ (fun _ _ _ _ hu hx => State.dmaMove_ok_canon hx hu) (fun _ _ _ _ hu hx => State.dmaMove_stop_canon hx hu) _ _).2.2 _ _ hr
    simp [ht]
  | go t k =>
    have ht := (hp _ _ _ (fun _ _ _ _ hu hx => State.dmaMove_ok_canon hx hu) (fun _ _ _ _ hu hx => State.dmaMove_stop_canon hx hu) _ _).1 _ _ hr
    exact canon_ite (fun _ => State.finish_canon (State.modOp_canon ht _ _ _) _ _ _) fun _ => State.saveWork_canon ht _ _ _

@[simp] theorem State.dmaRun_canon {s : State} (h : s.canon = true) (o : Op) (shape : Option (List Byte)) (src : DmaEnd) (dst : DmaEnd) (e : MemErr) (part : Option Word) : (State.dmaRun s o shape src dst e part).canon = true := by
  unfold State.dmaRun
  dsimp only
  repeat' split
  all_goals try have := State.engineRead_ok_canon ‹State.engineRead _ _ _ _ = .ok _› (by first | assumption | simp +contextual (maxDischargeDepth := 30) [*])
  all_goals try have := State.engineRead_error_canon ‹State.engineRead _ _ _ _ = .error _› (by first | assumption | simp +contextual (maxDischargeDepth := 30) [*])
  all_goals first | assumption | simp +contextual (maxDischargeDepth := 30) [*]

@[simp] theorem State.dmaIssue_canon {s : State} (h : s.canon = true) (o : Op) (e : MemErr) (part : Option Word) : (State.dmaIssue s o e part).canon = true := by
  unfold State.dmaIssue
  dsimp only
  repeat' split
  all_goals first | assumption | simp +contextual (maxDischargeDepth := 30) [*]

@[simp] theorem State.dmaOn_canon {s : State} (h : s.canon = true) (o : Op) (w : EngWork) (e : MemErr) (part : Option Word) : (State.dmaOn s o w e part).canon = true := by
  unfold State.dmaOn
  dsimp only
  repeat' split
  all_goals first | assumption | simp +contextual (maxDischargeDepth := 30) [*]

@[simp] theorem State.readAnswer_canon {s : State} (h : s.canon = true) (r : ReadReq) (pas : List Nat) : (State.readAnswer s r pas).canon = true := by
  unfold State.readAnswer
  dsimp only
  simp +contextual (maxDischargeDepth := 30) [*]

@[simp] theorem State.refuseRead_canon {s : State} (h : s.canon = true) (r : ReadReq) (code : Nat) : (State.refuseRead s r code).canon = true := by
  unfold State.refuseRead
  simp +contextual (maxDischargeDepth := 30) [*]

/-! ### Machine/Coll.lean -/

@[simp] theorem State.takeParts_canon {s : State} (h : s.canon = true) (r : CollRun) : (State.takeParts s r).2.canon = true := by
  unfold State.takeParts
  dsimp only
  simp +contextual (maxDischargeDepth := 30) [*]

@[simp] theorem State.sendColl_canon {s : State} (h : s.canon = true) (o : Op) (r : CollRun) (dest : Nat) (first : Nat) (size : Nat) (src : List Nat) (bs : List Byte) : (State.sendColl s o r dest first size src bs).canon = true := by
  unfold State.sendColl
  dsimp only
  repeat' split
  all_goals assumption

@[simp] theorem State.contribute_canon {s : State} (h : s.canon = true) (o : Op) (r : CollRun) (pas : List Nat) : (State.contribute s o r pas).canon = true := by
  unfold State.contribute
  dsimp only
  repeat' split
  all_goals first | assumption | simp +contextual (maxDischargeDepth := 30) [*]

@[simp] theorem State.setRun_canon {s : State} (h : s.canon = true) (o : Op) (r : Option CollRun) : (State.setRun s o r).canon = true := by
  unfold State.setRun
  simp +contextual (maxDischargeDepth := 30) [*]

@[simp] theorem State.formShard_canon {s : State} (h : s.canon = true) (o : Op) (r : CollRun) : (State.formShard s o r).1.canon = true := by
  unfold State.formShard
  dsimp only
  simp +contextual (maxDischargeDepth := 30) [*]

@[simp] theorem State.writeColl_canon {s : State} (h : s.canon = true) (o : Op) (r : CollRun) (e : MemErr) : (State.writeColl s o r e).canon = true := by
  unfold State.writeColl
  dsimp only
  repeat' split
  all_goals try have := State.engineWrite_ok_canon ‹State.engineWrite _ _ _ _ = .ok _› (by first | assumption | simp +contextual (maxDischargeDepth := 30) [*])
  all_goals try have := State.engineWrite_stop_canon ‹State.engineWrite _ _ _ _ = .stop _› (by first | assumption | simp +contextual (maxDischargeDepth := 30) [*])
  all_goals first | assumption | simp +contextual (maxDischargeDepth := 30) [*]

@[simp] theorem State.collStep_canon {s : State} (h : s.canon = true) (o : Op) (r : CollRun) (e : MemErr) : (State.collStep s o r e).canon = true := by
  unfold State.collStep
  repeat' split
  all_goals first | assumption | simp +contextual (maxDischargeDepth := 30) [*]

@[simp] theorem State.collStart_canon {s : State} (h : s.canon = true) (o : Op) (g : Group) (e : MemErr) : (State.collStart s o g e).canon = true := by
  unfold State.collStart
  dsimp only
  repeat' split
  all_goals try have := State.engineRead_ok_canon ‹State.engineRead _ _ _ _ = .ok _› (by first | assumption | simp +contextual (maxDischargeDepth := 30) [*])
  all_goals try have := State.engineRead_error_canon ‹State.engineRead _ _ _ _ = .error _› (by first | assumption | simp +contextual (maxDischargeDepth := 30) [*])
  all_goals first | assumption | simp +contextual (maxDischargeDepth := 30) [*]

@[simp] theorem State.collIssue_canon {s : State} (h : s.canon = true) (o : Op) (e : MemErr) : (State.collIssue s o e).canon = true := by
  unfold State.collIssue
  dsimp only
  repeat' split
  all_goals first | assumption | simp +contextual (maxDischargeDepth := 30) [*]

/-! ### Machine/Update.lean -/

theorem State.recordPage_canon {s : State} {w : Writer} {c : Nat} {va : Nat} {r : ProtRange} {t : State} (x : State.recordPage s w c va r = .go t) (h : s.canon = true) : t.canon = true := by
  unfold State.recordPage at x
  try dsimp only at x
  repeat' split at x
  all_goals try have := State.preImage_canon ‹State.preImage _ _ _ _ _ _ = .go _› (by first | assumption | simp +contextual (maxDischargeDepth := 30) [*])
  all_goals first
    | contradiction
    | (simp only [Option.some.injEq, Except.ok.injEq, Except.error.injEq, Pre.go.injEq, Wrote.ok.injEq, Stored.ok.injEq, Stored.stop.injEq, Prot.go.injEq, Guarded.ok.injEq, Guarded.stop.injEq, Worked.go.injEq, Worked.stop.injEq, reduceCtorEq] at x; done)
    | (simp only [Option.some.injEq, Except.ok.injEq, Except.error.injEq, Pre.go.injEq, Wrote.ok.injEq, Stored.ok.injEq, Stored.stop.injEq, Prot.go.injEq, Guarded.ok.injEq, Guarded.stop.injEq, Worked.go.injEq, Worked.stop.injEq] at x; subst x; first | assumption | simp +contextual (maxDischargeDepth := 30) [*])
    | exact State.preImage_canon x (by first | assumption | simp +contextual (maxDischargeDepth := 30) [*])

theorem State.protectPages_canon {s : State} {w : Writer} {c : Nat} {l : List Nat} {t : State} (x : s.protectPages w c l = .go t) (h : s.canon = true) :
    t.canon = true := by
  induction l generalizing s with
  | nil => obtain rfl := Prot.go.inj x; exact h
  | cons a l ih =>
    unfold State.protectPages at x
    split at x
    · cases x
    · split at x
      · cases x
      · split at x
        · rename_i hp; exact ih x (State.recordPage_canon hp h)
        · cases x
        · cases x

theorem State.protIf_canon {s t : State} {w : Writer} {c : Nat} {l : List Nat} {p : Prop} [Decidable p]
    (e : (if p then s.protectPages w c l else .go s) = .go t) (h : s.canon = true) : t.canon = true := by
  split at e
  · exact State.protectPages_canon e h
  · obtain rfl := Prot.go.inj e; exact h

theorem State.guardedWrite_ok_canon {s : State} {o : Op} {u : Nat × Nat} {w : List (Nat × Byte)} {e : MemErr} {t : State}
    (x : State.guardedWrite s o u w e = .ok t) (h : s.canon = true) : t.canon = true := by
  unfold State.guardedWrite at x
  dsimp only at x
  split at x
  · cases x
  · cases x
  · cases x
  · cases x
  · rename_i hp
    have hu := State.protIf_canon hp h
    split at x
    · rename_i hw; obtain rfl := Guarded.ok.inj x; exact State.writeFor_ok_canon hw hu
    · cases x
    · cases x

theorem State.guardedWrite_stop_canon {s : State} {o : Op} {u : Nat × Nat} {w : List (Nat × Byte)} {e : MemErr} {t : State}
    (x : State.guardedWrite s o u w e = .stop t) (h : s.canon = true) : t.canon = true := by
  unfold State.guardedWrite at x
  dsimp only at x
  split at x
  · obtain rfl := Guarded.stop.inj x; exact State.faultOp_canon h _ _ _ _ _
  · obtain rfl := Guarded.stop.inj x; exact State.faultOp_canon h _ _ _ _ _
  · obtain rfl := Guarded.stop.inj x; exact State.ueOp_canon h _ _ _ _
  · cases x
  · rename_i hp
    have hu := State.protIf_canon hp h
    split at x
    · cases x
    · rename_i hw; obtain rfl := Guarded.stop.inj x; exact State.writeFor_stop_canon hw hu
    · cases x

@[simp] theorem State.waitWork_canon {s : State} (h : s.canon = true) (o : Op) (w : EngWork) (pre : Bool) : (State.waitWork s o w pre).canon = true := by
  unfold State.waitWork
  simp +contextual (maxDischargeDepth := 30) [*]

@[simp] theorem State.updCounts_canon {s : State} (h : s.canon = true) (nan : Nat) (ovf : Nat) : (State.updCounts s nan ovf).canon = true := by
  unfold State.updCounts
  dsimp only
  simp +contextual (maxDischargeDepth := 30) [*]

theorem State.updGroup_go_canon {s : State} {o0 : Op} {b : UpdBlock} {e : MemErr} {w : EngWork} {t : State} {a : EngWork}
    (x : State.updGroup s o0 b e w = .go t a) (h : s.canon = true) : t.canon = true := by
  unfold State.updGroup at x
  dsimp only at x
  split at x
  · cases x
  · split at x
    · split at x
      · cases x
      · cases x
      · rename_i hg
        obtain ⟨rfl, -⟩ := Worked.go.inj x
        exact State.updCounts_canon (State.guardedWrite_ok_canon hg (State.meetRead_canon h _ _ _)) _ _
    · cases x

theorem State.updGroup_stop_canon {s : State} {o0 : Op} {b : UpdBlock} {e : MemErr} {w : EngWork} {t : State}
    (x : State.updGroup s o0 b e w = .stop t) (h : s.canon = true) : t.canon = true := by
  unfold State.updGroup at x
  dsimp only at x
  split at x
  · obtain rfl := Worked.stop.inj x; exact State.xlateFault_canon h _ _ _ _
  · split at x
    · split at x
      · rename_i hg; obtain rfl := Worked.stop.inj x; exact State.guardedWrite_stop_canon hg (State.meetRead_canon h _ _ _)
      · cases x
      · cases x
    · obtain rfl := Worked.stop.inj x; exact State.readStop_canon (State.meetRead_canon h _ _ _) _ _ _ _

@[simp] theorem State.updDone_canon {s : State} (h : s.canon = true) (o0 : Op) (b : UpdBlock) (e : MemErr) (w : EngWork) : (State.updDone s o0 b e w).canon = true := by
  unfold State.updDone
  dsimp only
  repeat' split
  all_goals try have := State.guardedWrite_ok_canon ‹State.guardedWrite _ _ _ _ _ = .ok _› (by first | assumption | simp +contextual (maxDischargeDepth := 30) [*])
  all_goals try have := State.guardedWrite_stop_canon ‹State.guardedWrite _ _ _ _ _ = .stop _› (by first | assumption | simp +contextual (maxDischargeDepth := 30) [*])
  all_goals assumption

/-- What a run of parts leaves. -/
theorem runWork_canon {f : State → EngWork → Worked} (hgo : ∀ u w t v, u.canon = true → f u w = .go t v → t.canon = true)
    (hstop : ∀ u w t, u.canon = true → f u w = .stop t → t.canon = true) {s : State} (h : s.canon = true) {n : Nat} {w : EngWork} :
    (∀ t v, runWork f n s w = .go t v → t.canon = true) ∧ (∀ t, runWork f n s w = .stop t → t.canon = true)
    ∧ (∀ t v p, runWork f n s w = .wait t v p → t.canon = true) := by
  induction n generalizing s w with
  | zero =>
    unfold runWork
    exact ⟨fun t a x => (by obtain ⟨rfl, -⟩ := Run.go.inj x; exact h), fun t x => (by cases x), fun t a p x => (by cases x)⟩
  | succ n ih =>
    unfold runWork
    split
    · rename_i hg; exact ih (hgo _ _ _ _ h hg)
    · rename_i hg
      exact ⟨fun t a x => (by cases x), fun t x => (by obtain rfl := Run.stop.inj x; exact hstop _ _ _ h hg), fun t a p x => (by cases x)⟩
    · exact ⟨fun t a x => (by cases x), fun t x => (by cases x), fun t a p x => (by obtain ⟨rfl, -, -⟩ := Run.wait.inj x; exact h)⟩

@[simp] theorem State.updGo_canon {s : State} (h : s.canon = true) (o : Op) (e : MemErr) (part : Option Word) (w : EngWork) :
    (State.updGo s o e part w).canon = true := by
  unfold State.updGo
  dsimp only
  have hp := fun b n => runWork_canon (f := fun t v => t.updGroup o b e v) (fun _ _ _ _ hu hx => State.updGroup_go_canon hx hu)
    (fun _ _ _ hu hx => State.updGroup_stop_canon hx hu) h (n := n) (w := w)
  split
  · exact (hp _ _).2.1 _ ‹_›
  · simp [(hp _ _).2.2 _ _ _ ‹_›]
  · have ht := (hp _ _).1 _ _ ‹_›
    split <;> simp [ht]

theorem State.updRead_ok_canon {s : State} {o : Op} {a : Nat} {n : Nat} {e : MemErr} {t : (List Byte × State)} (x : State.updRead s o a n e = .ok t) (h : s.canon = true) : t.2.canon = true := by
  unfold State.updRead at x
  try dsimp only at x
  repeat' split at x
  all_goals first
    | contradiction
    | (simp only [Option.some.injEq, Except.ok.injEq, Except.error.injEq, Pre.go.injEq, Wrote.ok.injEq, Stored.ok.injEq, Stored.stop.injEq, Prot.go.injEq, Guarded.ok.injEq, Guarded.stop.injEq, Worked.go.injEq, Worked.stop.injEq, reduceCtorEq] at x; done)
    | (simp only [Option.some.injEq, Except.ok.injEq, Except.error.injEq, Pre.go.injEq, Wrote.ok.injEq, Stored.ok.injEq, Stored.stop.injEq, Prot.go.injEq, Guarded.ok.injEq, Guarded.stop.injEq, Worked.go.injEq, Worked.stop.injEq] at x; subst x; first | assumption | simp +contextual (maxDischargeDepth := 30) [*])

theorem State.updRead_error_canon {s : State} {o : Op} {a : Nat} {n : Nat} {e : MemErr} {t : State} (x : State.updRead s o a n e = .error t) (h : s.canon = true) : t.canon = true := by
  unfold State.updRead at x
  try dsimp only at x
  repeat' split at x
  all_goals first
    | contradiction
    | (simp only [Option.some.injEq, Except.ok.injEq, Except.error.injEq, Pre.go.injEq, Wrote.ok.injEq, Stored.ok.injEq, Stored.stop.injEq, Prot.go.injEq, Guarded.ok.injEq, Guarded.stop.injEq, Worked.go.injEq, Worked.stop.injEq, reduceCtorEq] at x; done)
    | (simp only [Option.some.injEq, Except.ok.injEq, Except.error.injEq, Pre.go.injEq, Wrote.ok.injEq, Stored.ok.injEq, Stored.stop.injEq, Prot.go.injEq, Guarded.ok.injEq, Guarded.stop.injEq, Worked.go.injEq, Worked.stop.injEq] at x; subst x; first | assumption | simp +contextual (maxDischargeDepth := 30) [*])

@[simp] theorem State.updIssue_canon {s : State} (h : s.canon = true) (o : Op) (e : MemErr) (part : Option Word) (w : EngWork) : (State.updIssue s o e part w).canon = true := by
  unfold State.updIssue
  dsimp only
  repeat' split
  all_goals first | assumption | simp +contextual (maxDischargeDepth := 30) [*]

@[simp] theorem State.updStart_canon {s : State} (h : s.canon = true) (o : Op) (e : MemErr) (part : Option Word) :
    (State.updStart s o e part).canon = true := by
  unfold State.updStart
  dsimp only
  split
  · exact State.updRead_error_canon ‹_› h
  · have h1 := State.updRead_ok_canon ‹_› h
    repeat' split
    · simp [h1]
    · simp [h1]
    · simp [h1]
    · exact State.updRead_error_canon ‹_› h1
    · simp [State.updRead_ok_canon ‹_› h1]
    · simp [State.updRead_ok_canon ‹_› h1]

theorem State.digestPage_go_canon {s : State} {o0 : Op} {e : MemErr} {w : EngWork} {t : State} {a : EngWork}
    (x : State.digestPage s o0 e w = .go t a) (h : s.canon = true) : t.canon = true := by
  unfold State.digestPage at x
  dsimp only at x
  split at x
  · cases x
  · split at x
    · cases x
    · rename_i hr; obtain ⟨rfl, -⟩ := Worked.go.inj x; exact State.engineRead_ok_canon hr h

theorem State.digestPage_stop_canon {s : State} {o0 : Op} {e : MemErr} {w : EngWork} {t : State}
    (x : State.digestPage s o0 e w = .stop t) (h : s.canon = true) : t.canon = true := by
  unfold State.digestPage at x
  dsimp only at x
  split at x
  · obtain rfl := Worked.stop.inj x; exact State.xlateFault_canon h _ _ _ _
  · split at x
    · rename_i hr; obtain rfl := Worked.stop.inj x; exact State.engineRead_error_canon hr h
    · cases x

@[simp] theorem State.digestEnd_canon {s : State} (h : s.canon = true) (o0 : Op) (e : MemErr) (w : EngWork) : (State.digestEnd s o0 e w).canon = true := by
  unfold State.digestEnd
  dsimp only
  have h1 := State.modOp_canon h o0.ring o0.idx fun x => { x with units := w.done, work := none }
  split
  · exact State.finish_canon (State.engineWrite_ok_canon ‹_› h1) _ _ _
  · exact State.engineWrite_stop_canon ‹_› h1
  · simp [h]

@[simp] theorem State.digestGo_canon {s : State} (h : s.canon = true) (o : Op) (e : MemErr) (part : Option Word) (w : EngWork) :
    (State.digestGo s o e part w).canon = true := by
  unfold State.digestGo
  dsimp only
  have hp := fun n => runWork_canon (f := fun t v => t.digestPage o e v) (fun _ _ _ _ hu hx => State.digestPage_go_canon hx hu)
    (fun _ _ _ hu hx => State.digestPage_stop_canon hx hu) h (n := n) (w := w)
  split
  · exact (hp _).2.1 _ ‹_›
  · simp [(hp _).2.2 _ _ _ ‹_›]
  · have ht := (hp _).1 _ _ ‹_›
    split <;> simp [ht]

end Sys2Proof.Machine
end

