-- ==== Sys2Proof/Laws/CanonRecovery.lean ====
section
/-! SUPPORT. The canonical form (State.canon) is kept by the operations of guest copies, restore, checkpoint, integrity, hangs and Dusk. -/
namespace Sys2Proof.Machine

/-! ### Machine/Guest.lean -/

@[simp] theorem State.openSet_canon {s : State} (h : s.canon = true) (pages : Nat) : (State.openSet s pages).canon = true := by
  unfold State.openSet
  dsimp only
  repeat' split
  all_goals first | assumption | simp +contextual (maxDischargeDepth := 30) [*]

@[simp] theorem State.copyPages_canon {s : State} (h : s.canon = true) (w : Owner) (va : Nat) (l : List Nat) : (State.copyPages s w va l).canon = true := by
  unfold State.copyPages
  dsimp only
  repeat' split
  all_goals first | assumption | simp +contextual (maxDischargeDepth := 30) [*]

@[simp] theorem State.guestCopy_canon {s : State} (h : s.canon = true) (x : InSet) : (State.guestCopy s x).canon = true := by
  unfold State.guestCopy
  dsimp only
  repeat' split
  all_goals first | assumption | simp +contextual (maxDischargeDepth := 30) [*]

@[simp] theorem State.sealSet_canon {s : State} (h : s.canon = true) : (State.sealSet s).canon = true := by
  unfold State.sealSet
  dsimp only
  repeat' split
  all_goals first | assumption | simp +contextual (maxDischargeDepth := 30) [*]

@[simp] theorem State.writeSetCtrl_canon {s : State} (h : s.canon = true) (v : Nat) : (State.writeSetCtrl s v).canon = true := by
  unfold State.writeSetCtrl
  dsimp only
  simp +contextual (maxDischargeDepth := 30) [*]

/-! ### Machine/Restore.lean -/

@[simp] theorem State.putPage_canon {s : State} (h : s.canon = true) (c : Nat) (va : Nat) (bytes : List (Nat × Byte)) : (State.putPage s c va bytes).canon = true := by
  unfold State.putPage
  repeat' split
  all_goals first | assumption | simp +contextual (maxDischargeDepth := 30) [*]

@[simp] theorem State.rebuildPage_canon {s : State} (h : s.canon = true) (c : Nat) (va : Nat) : (State.rebuildPage s c va).canon = true := by
  unfold State.rebuildPage
  dsimp only
  repeat' split
  all_goals first | assumption | simp +contextual (maxDischargeDepth := 30) [*]

@[simp] theorem State.partnerFails_canon {s : State} (h : s.canon = true) (code : Nat) : (State.partnerFails s code).2.canon = true := by
  unfold State.partnerFails
  dsimp only
  repeat' split
  all_goals first | assumption | simp +contextual (maxDischargeDepth := 30) [*]

@[simp] theorem State.readPage_canon {s : State} (h : s.canon = true) (w : Owner) (va : Nat) : (State.readPage s w va).canon = true := by
  unfold State.readPage
  simp +contextual (maxDischargeDepth := 30) [*]

@[simp] theorem State.readPages_canon {s : State} (h : s.canon = true) (w : Owner) (vas : List Nat) : (State.readPages s w vas).canon = true := by
  unfold State.readPages
  repeat' split
  all_goals first | assumption | simp +contextual (maxDischargeDepth := 30) [*]

@[simp] theorem serveSteps_canon {l2_ : State} (h : l2_.canon = true) (l1_ : Nat) : (serveSteps l1_ l2_).canon = true := by
  induction l1_ generalizing l2_ with
  | zero => exact h
  | succ n ih =>
    unfold serveSteps
    all_goals first | assumption | simp +contextual (maxDischargeDepth := 30) [*]

@[simp] theorem State.serveWaiters_canon {s : State} (h : s.canon = true) : (State.serveWaiters s).canon = true := by
  unfold State.serveWaiters
  repeat' split
  all_goals first | assumption | simp +contextual (maxDischargeDepth := 30) [*]

@[simp] theorem State.engineUe_canon {s : State} (h : s.canon = true) (w : Owner) (pa : Nat) : (State.engineUe s w pa).canon = true := by
  unfold State.engineUe
  dsimp only
  simp +contextual (maxDischargeDepth := 30) [*]

@[simp] theorem State.restoreLocal_canon {s : State} (h : s.canon = true) (c : Nat) (va : Nat) : (State.restoreLocal s c va).canon = true := by
  unfold State.restoreLocal
  repeat' split
  all_goals first | assumption | simp +contextual (maxDischargeDepth := 30) [*]

@[simp] theorem State.restorePages_canon {s : State} (h : s.canon = true) (c : Nat) : (State.restorePages s c).canon = true := by
  unfold State.restorePages
  dsimp only
  refine State.bump_canon (foldl_canon (foldl_canon ?_ _ _ fun t x ht => ?_) _ _ fun t x ht => by simp +contextual (maxDischargeDepth := 30) [ht]) _ _
  · simp +contextual (maxDischargeDepth := 30) [h]
  · split
    · simpa using ht
    · exact ht


@[simp] theorem State.restoreDone_canon {s : State} (h : s.canon = true) (c : Nat) : (State.restoreDone s c).canon = true := by
  unfold State.restoreDone
  dsimp only
  simp +contextual (maxDischargeDepth := 30) [*]

@[simp] theorem State.mixedFree_canon {s : State} (h : s.canon = true) (check : Nat) : (State.mixedFree s check).2.canon = true := by
  unfold State.mixedFree
  dsimp only
  simp +contextual (maxDischargeDepth := 30) [*]

@[simp] theorem State.writeDaybreak_canon {s : State} (h : s.canon = true) (v : Nat) (ans : Option PartnerState) : (State.writeDaybreak s v ans).canon = true := by
  unfold State.writeDaybreak
  dsimp only
  repeat' split
  all_goals first | assumption | simp +contextual (maxDischargeDepth := 30) [*]

@[simp] theorem State.readSets_canon {s : State} (h : s.canon = true) (c : Nat) : (State.readSets s c).canon = true := by
  unfold State.readSets
  dsimp only
  repeat' split
  all_goals first | assumption | simp +contextual (maxDischargeDepth := 30) [*]

@[simp] theorem State.daybreakTail_canon {s : State} (h : s.canon = true) : (State.daybreakTail s).canon = true := by
  unfold State.daybreakTail
  dsimp only
  repeat' split
  all_goals try have := State.touchPages_canon ‹State.touchPages _ _ _ = .go _› (by first | assumption | simp +contextual (maxDischargeDepth := 30) [*])
  all_goals first | assumption | simp +contextual (maxDischargeDepth := 30) [*]

/-! ### Machine/Checkpoint.lean -/

@[simp] theorem State.ckptDisarm_canon {s : State} (h : s.canon = true) : (State.ckptDisarm s).canon = true := by
  unfold State.ckptDisarm
  simp +contextual (maxDischargeDepth := 30) [*]

@[simp] theorem State.ckptUe_canon {s : State} (h : s.canon = true) (pa : Nat) : (State.ckptUe s pa).canon = true := by
  unfold State.ckptUe
  dsimp only
  simp +contextual (maxDischargeDepth := 30) [*]

@[simp] theorem State.takeCut_canon {s : State} (h : s.canon = true) (step : Nat) : (State.takeCut s step).canon = true := by
  unfold State.takeCut
  dsimp only
  repeat' split
  all_goals first | assumption | simp +contextual (maxDischargeDepth := 30) [*]

@[simp] theorem State.cutAtCommit_canon {s : State} (h : s.canon = true) (c : Nat) (step : Nat) : (State.cutAtCommit s c step).canon = true := by
  unfold State.cutAtCommit
  dsimp only
  repeat' split
  all_goals first | assumption | simp +contextual (maxDischargeDepth := 30) [*]

@[simp] theorem State.ckptFailsFree_canon {s : State} (h : s.canon = true) : (State.ckptFailsFree s).canon = true := by
  unfold State.ckptFailsFree
  dsimp only
  repeat' split
  all_goals first | assumption | simp +contextual (maxDischargeDepth := 30) [*]

@[simp] theorem State.targetFails_canon {s : State} (h : s.canon = true) (code : Nat) : (State.targetFails s code).canon = true := by
  unfold State.targetFails
  dsimp only
  repeat' split
  all_goals first | assumption | simp +contextual (maxDischargeDepth := 30) [*]

@[simp] theorem State.tgtWrite_canon {s : State} (h : s.canon = true) (off : Nat) (bs : List Byte) : (State.tgtWrite s off bs).canon = true := by
  unfold State.tgtWrite
  repeat' split
  all_goals first | assumption | simp +contextual (maxDischargeDepth := 30) [*]

@[simp] theorem State.tgtSend_canon {s : State} (h : s.canon = true) : (State.tgtSend s).canon = true := by
  unfold State.tgtSend
  repeat' split
  all_goals first | assumption | simp +contextual (maxDischargeDepth := 30) [*]

@[simp] theorem State.sendRecord_canon {s : State} (h : s.canon = true) (page : Option (List Byte)) (rec : List Byte) : (State.sendRecord s page rec).canon = true := by
  unfold State.sendRecord
  dsimp only
  repeat' split
  all_goals first | assumption | simp +contextual (maxDischargeDepth := 30) [*]

@[simp] theorem State.pageDone_canon {s : State} (h : s.canon = true) (g : Nat) : (State.pageDone s g).canon = true := by
  unfold State.pageDone
  simp +contextual (maxDischargeDepth := 30) [*]

@[simp] theorem State.copyOne_canon {s : State} (h : s.canon = true) (g : Nat) (e : MemErr) : (State.copyOne s g e).canon = true := by
  unfold State.copyOne
  dsimp only
  split
  · split <;> simp (maxDischargeDepth := 30) [h]
  · rename_i pa _
    split
    · simp (maxDischargeDepth := 30) [h]
    · have hm := State.meetErrs_canon h (some s.ckptCtx) ((List.range 65536).map fun k => pa + k).contains e
      generalize (List.range 65536).map (fun k => pa + k) = pas at *
      generalize State.meetErrs s _ _ e = t at hm
      split
      · simp (maxDischargeDepth := 30) [hm]
      · simp (maxDischargeDepth := 30) [hm]
      · simp (maxDischargeDepth := 30) [hm]
      · split <;> simp (maxDischargeDepth := 30) [hm]


@[simp] theorem State.startRestore_canon {s : State} (h : s.canon = true) : (State.startRestore s).canon = true := by
  unfold State.startRestore
  dsimp only
  repeat' split
  all_goals first | assumption | simp +contextual (maxDischargeDepth := 30) [*]

@[simp] theorem State.ckptCancel_canon {s : State} (h : s.canon = true) : (State.ckptCancel s).canon = true := by
  unfold State.ckptCancel
  dsimp only
  repeat' split
  all_goals first | assumption | simp +contextual (maxDischargeDepth := 30) [*]

@[simp] theorem State.writeCkptCtrl_canon {s : State} (h : s.canon = true) (v : Nat) : (State.writeCkptCtrl s v).canon = true := by
  unfold State.writeCkptCtrl
  dsimp only
  simp +contextual (maxDischargeDepth := 30) [*]

@[simp] theorem State.writeTgtCfg_canon {s : State} (h : s.canon = true) (v : Nat) : (State.writeTgtCfg s v).canon = true := by
  unfold State.writeTgtCfg
  dsimp only
  repeat' split
  all_goals first | assumption | simp +contextual (maxDischargeDepth := 30) [*]

@[simp] theorem State.chainMixed_canon {s : State} (h : s.canon = true) (check : Nat) (r : CkptRec) : (State.chainMixed s check r).canon = true := by
  unfold State.chainMixed
  simp +contextual (maxDischargeDepth := 30) [*]

@[simp] theorem State.modRestore_canon {s : State} (h : s.canon = true) (f : RestoreSt → RestoreSt) : (State.modRestore s f).canon = true := by
  unfold State.modRestore
  simp +contextual (maxDischargeDepth := 30) [*]

@[simp] theorem State.chainEnd_canon {s : State} (h : s.canon = true) (r : CkptRec) : (State.chainEnd s r).canon = true := by
  unfold State.chainEnd
  dsimp only
  repeat' split
  all_goals first | assumption | simp +contextual (maxDischargeDepth := 30) [*]

@[simp] theorem State.chainRange_canon {s : State} (h : s.canon = true) (r : CkptRec) : (State.chainRange s r).canon = true := by
  unfold State.chainRange
  repeat' split
  all_goals first | assumption | simp +contextual (maxDischargeDepth := 30) [*]

@[simp] theorem State.chainPage_canon {s : State} (h : s.canon = true) (r : CkptRec) (page : List Byte) : (State.chainPage s r page).canon = true := by
  unfold State.chainPage
  dsimp only
  repeat' split
  all_goals first | assumption | simp +contextual (maxDischargeDepth := 30) [*]

@[simp] theorem State.chainRec_canon {s : State} (h : s.canon = true) (r : CkptRec) (page : List Byte) : (State.chainRec s r page).canon = true := by
  unfold State.chainRec
  repeat' split
  all_goals first | assumption | simp +contextual (maxDischargeDepth := 30) [*]

/-! ### Machine/Integrity.lean -/

@[simp] theorem State.diffOf_canon {s : State} (h : s.canon = true) (a : TileImg) (b : TileImg) : (State.diffOf s a b).2.canon = true := by
  unfold State.diffOf
  dsimp only
  repeat' split
  all_goals assumption

@[simp] theorem State.dupMismatch_canon {s : State} (h : s.canon = true) (d : DupEntry) (r : DupRun) (again : TileImg) : (State.dupMismatch s d r again).canon = true := by
  unfold State.dupMismatch
  have hx := State.diffOf_canon h d.last again
  generalize s.diffOf d.last again = x at hx
  dsimp only
  exact State.addBand_canon (State.addBand_canon (State.cper_canon (State.chargeNoted_canon (State.chargeNoted_canon (State.chargeNoted_canon
    (State.charge_canon (State.raise_canon (State.modInt_canon (State.mark_canon (State.bump_canon hx _ _) _) _) _) _ _ _) _ _ _ _) _ _ _ _) _ _ _ _) _ _ _) _ _) _ _

@[simp] theorem State.writeDigestFault_canon {s : State} (h : s.canon = true) (v : Nat) (standing : Standing) : (State.writeDigestFault s v standing).canon = true := by
  unfold State.writeDigestFault
  dsimp only
  repeat' split
  all_goals first | assumption | simp +contextual (maxDischargeDepth := 30) [*]

@[simp] theorem State.writeScore_canon {s : State} (h : s.canon = true) (v : Nat) : (State.writeScore s v).canon = true := by
  unfold State.writeScore
  dsimp only
  repeat' split
  all_goals first | assumption | simp +contextual (maxDischargeDepth := 30) [*]

@[simp] theorem State.testFails_canon {s : State} (h : s.canon = true) (c : Nat) (pack : Nat) (item : Nat) (temp : Int) : (State.testFails s c pack item temp).canon = true := by
  unfold State.testFails
  dsimp only
  simp +contextual (maxDischargeDepth := 30) [*]

@[simp] theorem State.admitFails_canon {s : State} (h : s.canon = true) : (State.admitFails s).canon = true := by
  unfold State.admitFails
  simp +contextual (maxDischargeDepth := 30) [*]

@[simp] theorem State.itemPassed_canon {s : State} (h : s.canon = true) (run : Nat × Nat × Nat) : (State.itemPassed s run).canon = true := by
  unfold State.itemPassed
  dsimp only
  repeat' split
  all_goals assumption

/-! ### Machine/Hang.lean -/

@[simp] theorem State.dumpMissed_canon {s : State} (h : s.canon = true) : (State.dumpMissed s).canon = true := by
  unfold State.dumpMissed
  simp +contextual (maxDischargeDepth := 30) [*]

@[simp] theorem State.startDump_canon {s : State} (h : s.canon = true) (d : Dump) (k : Nat) : (State.startDump s d k).canon = true := by
  unfold State.startDump
  dsimp only
  simp +contextual (maxDischargeDepth := 30) [*]

@[simp] theorem State.askDump_canon {s : State} (h : s.canon = true) (d : Dump) : (State.askDump s d).1.canon = true := by
  unfold State.askDump
  repeat' split
  all_goals first | assumption | simp +contextual (maxDischargeDepth := 30) [*]

@[simp] theorem State.writeDumpCtrl_canon {s : State} (h : s.canon = true) (v : Nat) : (State.writeDumpCtrl s v).canon = true := by
  unfold State.writeDumpCtrl
  dsimp only
  repeat' split
  all_goals first | assumption | simp +contextual (maxDischargeDepth := 30) [*]

@[simp] theorem State.clearCore_canon {s : State} (h : s.canon = true) (c : Nat) : (State.clearCore s c).canon = true := by
  unfold State.clearCore
  dsimp only
  repeat' split
  all_goals first | assumption | simp +contextual (maxDischargeDepth := 30) [*]

@[simp] theorem State.clearCluster_canon {s : State} (h : s.canon = true) (k : Nat) : (State.clearCluster s k).canon = true := by
  unfold State.clearCluster
  exact State.modHrc_canon (State.skipDups_canon (State.each_canon (State.each_canon h _ _ fun t x ht => State.clearCore_canon ht _) _ _
    fun t o ht => State.endOp_canon ht _ _ _) _) _


@[simp] theorem State.startReset_canon {s : State} (h : s.canon = true) (u : Nat × Nat) : (State.startReset s u).canon = true := by
  unfold State.startReset
  have h1 := State.when_canon h (s.get Reg.HRC_RESET_CTRL_KIND == u.1 - 1 && s.get Reg.HRC_RESET_CTRL_INDEX == u.2)
    (fun t => t.put Reg.HRC_RESET_CTRL_GO 0) fun _ => State.put_canon h _ _
  exact canon_ite (fun _ => h) fun _ => canon_ite (fun _ => State.mark_canon (State.clearCore_canon h1 _) _) fun _ =>
    canon_ite (fun _ => State.mark_canon (State.clearCluster_canon h1 _) _) fun _ => h1

@[simp] theorem State.dumpThenReset_canon {s : State} (h : s.canon = true) (u : Nat × Nat) (logseq : Option Nat) : (State.dumpThenReset s u logseq).canon = true := by
  unfold State.dumpThenReset
  dsimp only
  repeat' split
  all_goals simp +contextual (maxDischargeDepth := 30) [h]


@[simp] theorem State.decideRecovery_canon {s : State} (h : s.canon = true) (logseq : Option Nat) : (State.decideRecovery s logseq).canon = true := by
  unfold State.decideRecovery
  dsimp only
  repeat' split
  all_goals first | assumption | simp +contextual (maxDischargeDepth := 30) [*]

@[simp] theorem State.resetFor_canon {s : State} (h : s.canon = true) (u : Nat × Nat) (logseq : Option Nat) : (State.resetFor s u logseq).canon = true := by
  unfold State.resetFor
  repeat' split
  all_goals first | assumption | simp +contextual (maxDischargeDepth := 30) [*]

@[simp] theorem State.writeResetCtrl_canon {s : State} (h : s.canon = true) (v : Nat) : (State.writeResetCtrl s v).canon = true := by
  unfold State.writeResetCtrl
  dsimp only
  repeat' split
  all_goals first | assumption | simp +contextual (maxDischargeDepth := 30) [*]

@[simp] theorem State.hangDetail_canon {s : State} (h : s.canon = true) (kind : Nat) (unit : Nat) (cause : Nat) : (State.hangDetail s kind unit cause).2.canon = true := by
  unfold State.hangDetail
  dsimp only
  repeat' split
  all_goals assumption

@[simp] theorem State.holdDrain_canon {s : State} (h : s.canon = true) (p : PartyRec) (key : Nat) : (State.holdDrain s p key).canon = true := by
  unfold State.holdDrain
  repeat' split
  all_goals assumption

@[simp] theorem State.hang_canon {s : State} (h : s.canon = true) (kind : Nat) (unit : Nat) (cause : Nat) (party : Option PartyRec) : (State.hang s kind unit cause party).canon = true := by
  unfold State.hang
  dsimp only
  repeat' split
  all_goals first | assumption | simp +contextual (maxDischargeDepth := 30) [*]

@[simp] theorem State.heartbeat_canon {s : State} (h : s.canon = true) (held : List (Fin 144)) (c : Nat) : (State.heartbeat s held c).canon = true := by
  unfold State.heartbeat
  dsimp only
  repeat' split
  all_goals first | assumption | simp +contextual (maxDischargeDepth := 30) [*]

@[simp] theorem State.fwKick_canon {s : State} (h : s.canon = true) (p : Party) : (State.fwKick s p).canon = true := by
  unfold State.fwKick
  repeat' split
  all_goals assumption

@[simp] theorem State.noteReset_canon {s : State} (h : s.canon = true) (key : Nat) (rtc : Nat) : (State.noteReset s key rtc).canon = true := by
  unfold State.noteReset
  simp +contextual (maxDischargeDepth := 30) [*]

@[simp] theorem State.askFence_canon {s : State} (h : s.canon = true) (k : Nat) : (State.askFence s k).canon = true := by
  unfold State.askFence
  simp +contextual (maxDischargeDepth := 30) [*]

@[simp] theorem State.releaseDrain_canon {s : State} (h : s.canon = true) (key : Nat) : (State.releaseDrain s key).canon = true := by
  unfold State.releaseDrain
  exact State.each_canon h _ _ fun t c ht => canon_ite (fun _ => State.modCtx_canon ht _ _) fun _ => ht


@[simp] theorem State.writeFlogCfg_canon {s : State} (h : s.canon = true) (v : Nat) : (State.writeFlogCfg s v).canon = true := by
  unfold State.writeFlogCfg
  dsimp only
  simp +contextual (maxDischargeDepth := 30) [*]

/-! ### Machine/Dusk.lean -/

@[simp] theorem State.abandonStep_canon {s : State} (h : s.canon = true) (c : Nat) : (State.abandonStep s c).canon = true := by
  unfold State.abandonStep
  dsimp only
  repeat' split
  all_goals first | assumption | simp +contextual (maxDischargeDepth := 30) [*]

@[simp] theorem State.dropContextCells_canon {s : State} (h : s.canon = true) (c : Nat) : (State.dropContextCells s c).canon = true := by
  unfold State.dropContextCells
  dsimp only
  simp +contextual (maxDischargeDepth := 30) [*]

@[simp] theorem State.dropWrites_canon {s : State} (h : s.canon = true) (c : Nat) : (State.dropWrites s c).canon = true := by
  unfold State.dropWrites
  dsimp only
  simp +contextual (maxDischargeDepth := 30) [*]

@[simp] theorem State.dropSignals_canon {s : State} (h : s.canon = true) (c : Nat) : (State.dropSignals s c).canon = true := by
  unfold State.dropSignals
  dsimp only
  simp +contextual (maxDischargeDepth := 30) [*]

@[simp] theorem State.dusk_canon {s : State} (h : s.canon = true) (c : Nat) : (State.dusk s c).canon = true := by
  unfold State.dusk
  dsimp only
  simp +contextual (maxDischargeDepth := 30) [*]

@[simp] theorem State.debugChange_canon {s : State} (h : s.canon = true) (level : Nat) : (State.debugChange s level).canon = true := by
  unfold State.debugChange
  simp +contextual (maxDischargeDepth := 30) [*]

@[simp] theorem State.openSession_canon {s : State} (h : s.canon = true) (level : Nat) (fuses : List Nat) : (State.openSession s level fuses).canon = true := by
  unfold State.openSession
  simp +contextual (maxDischargeDepth := 30) [*]

@[simp] theorem State.closeSession_canon {s : State} (h : s.canon = true) : (State.closeSession s).canon = true := by
  unfold State.closeSession
  dsimp only
  repeat' split
  all_goals first | assumption | simp +contextual (maxDischargeDepth := 30) [*]

@[simp] theorem State.openWaiting_canon {s : State} (h : s.canon = true) : (State.openWaiting s).canon = true := by
  unfold State.openWaiting
  repeat' split
  all_goals first | assumption | simp +contextual (maxDischargeDepth := 30) [*]

@[simp] theorem State.freeContext_canon {s : State} (h : s.canon = true) (c : Nat) : (State.freeContext s c).canon = true := by
  unfold State.freeContext
  dsimp only
  simp +contextual (maxDischargeDepth := 30) [*]

@[simp] theorem State.keepProgress_canon {s : State} (h : s.canon = true) : (State.keepProgress s).canon = true := by
  unfold State.keepProgress
  dsimp only
  simp +contextual (maxDischargeDepth := 30) [*]

@[simp] theorem State.endContexts_canon {s : State} (h : s.canon = true) : (State.endContexts s).canon = true := by
  unfold State.endContexts
  dsimp only
  simp +contextual (maxDischargeDepth := 30) [*]

@[simp] theorem State.wipe_canon {s : State} (h : s.canon = true) : (State.wipe s).canon = true := by
  unfold State.wipe
  dsimp only
  simp +contextual (maxDischargeDepth := 30) [*]

@[simp] theorem State.resetDomain_canon {s : State} (h : s.canon = true) : (State.resetDomain s).canon = true := by
  unfold State.resetDomain
  dsimp only
  simp +contextual (maxDischargeDepth := 30) [*]

@[simp] theorem State.closeAll_canon {s : State} (h : s.canon = true) : (State.closeAll s).canon = true := by
  unfold State.closeAll
  simp +contextual (maxDischargeDepth := 30) [*]

@[simp] theorem State.stopFirmware_canon {s : State} (h : s.canon = true) : (State.stopFirmware s).canon = true := by
  unfold State.stopFirmware
  simp +contextual (maxDischargeDepth := 30) [*]

@[simp] theorem State.outOfService_canon {s : State} (h : s.canon = true) : (State.outOfService s).canon = true := by
  unfold State.outOfService
  dsimp only
  simp +contextual (maxDischargeDepth := 30) [*]

@[simp] theorem State.trainOne_canon {s : State} (h : s.canon = true) (m : Nat) : (State.trainOne s m).canon = true := by
  unfold State.trainOne
  dsimp only
  repeat' split
  all_goals first | assumption | simp +contextual (maxDischargeDepth := 30) [*]

@[simp] theorem State.clearMem_canon {s : State} (h : s.canon = true) : (State.clearMem s).canon = true := by
  unfold State.clearMem
  dsimp only
  simp +contextual (maxDischargeDepth := 30) [*]

@[simp] theorem State.trainNear_canon {s : State} (h : s.canon = true) : (State.trainNear s).canon = true := by
  unfold State.trainNear
  split
  · exact h
  · exact State.clearMem_canon (State.each_canon (State.put_canon h _ _) _ _ fun t m ht => State.trainOne_canon ht m)

@[simp] theorem State.trainBoard_canon {s : State} (h : s.canon = true) : (State.trainBoard s).canon = true := by
  unfold State.trainBoard
  repeat' split
  all_goals first | assumption | simp +contextual (maxDischargeDepth := 30) [*]

@[simp] theorem State.trainMemory_canon {s : State} (h : s.canon = true) : (State.trainMemory s).canon = true :=
  State.trainBoard_canon (State.trainNear_canon (State.put_canon (State.put_canon h _ _) _ _))

@[simp] theorem State.verifyRings_canon {s : State} (h : s.canon = true) (lams : List Nat) : (State.verifyRings s lams).canon = true := by
  unfold State.verifyRings
  dsimp only
  simp +contextual (maxDischargeDepth := 30) [*]

@[simp] theorem State.loadPowers_canon {s : State} (h : s.canon = true) : (State.loadPowers s).canon = true := by
  unfold State.loadPowers
  exact State.each_canon h _ _ fun t n ht => State.put_canon ht _ _


@[simp] theorem State.lightService_canon {s : State} (h : s.canon = true) : (State.lightService s).canon = true := by
  unfold State.lightService
  simp +contextual (maxDischargeDepth := 30) [*]

@[simp] theorem State.relight_canon {s : State} (h : s.canon = true) : (State.relight s).canon = true := by
  unfold State.relight
  repeat' split
  all_goals first | assumption | simp +contextual (maxDischargeDepth := 30) [*]

@[simp] theorem State.recoverySteps_canon {s : State} (h : s.canon = true) : (State.recoverySteps s).canon = true := by
  unfold State.recoverySteps
  dsimp only
  repeat' split
  all_goals first | assumption | simp +contextual (maxDischargeDepth := 30) [*]

@[simp] theorem State.runFirmware_canon {s : State} (h : s.canon = true) (half : Nat) : (State.runFirmware s half).canon = true := by
  unfold State.runFirmware
  simp +contextual (maxDischargeDepth := 30) [*]

@[simp] theorem State.tryDawn_canon {s : State} (h : s.canon = true) : (State.tryDawn s).canon = true := by
  unfold State.tryDawn
  dsimp only
  repeat' split
  all_goals first | assumption | simp +contextual (maxDischargeDepth := 30) [*]

end Sys2Proof.Machine
end

