-- ==== Sys2Proof/Laws/CanonSystem.lean ====
section
/-! SUPPORT. The canonical form (State.canon) is kept by the operations of security, power, Dawn, time, the tick and register writes. -/
namespace Sys2Proof.Machine

/-! ### Machine/Security.lean -/

@[simp] theorem State.respond_canon {s : State} (h : s.canon = true) (net : Bool) (r : SpdmResp) (args : List Nat) : (State.respond s net r args).canon = true := by
  unfold State.respond
  repeat' split
  all_goals assumption

@[simp] theorem State.dropSpdm_canon {s : State} (h : s.canon = true) (net : Bool) (n : Nat) : (State.dropSpdm s net n).canon = true := by
  unfold State.dropSpdm
  simp +contextual (maxDischargeDepth := 30) [*]

@[simp] theorem State.installKey_canon {s : State} (h : s.canon = true) (o : KeyOffer) (key : Nat) : (State.installKey s o key).canon = true := by
  unfold State.installKey
  dsimp only
  repeat' split
  all_goals first | assumption | simp +contextual (maxDischargeDepth := 30) [*]

@[simp] theorem State.handshake_canon {s : State} (h : s.canon = true) (port : Nat) (kept : Bool) : (State.handshake s port kept).canon = true := by
  unfold State.handshake
  simp +contextual (maxDischargeDepth := 30) [*]

@[simp] theorem State.rollIdfort_canon {s : State} (h : s.canon = true) : (State.rollIdfort s).canon = true := by
  unfold State.rollIdfort
  repeat' split
  all_goals assumption

@[simp] theorem State.rollPacks_canon {s : State} (h : s.canon = true) : (State.rollPacks s).canon = true := by
  unfold State.rollPacks
  simp +contextual (maxDischargeDepth := 30) [*]

@[simp] theorem State.intakeReply_canon {s : State} (h : s.canon = true) (n : Nat) (status : Nat) (chunks : Nat) : (State.intakeReply s n status chunks).canon = true := by
  unfold State.intakeReply
  dsimp only
  simp +contextual (maxDischargeDepth := 30) [*]

@[simp] theorem State.intakeRec_canon {s : State} (h : s.canon = true) (c : Nat) (code : Nat) (detail : List (Nat × Nat)) : (State.intakeRec s c code detail).canon = true := by
  unfold State.intakeRec
  simp +contextual (maxDischargeDepth := 30) [*]

@[simp] theorem State.intakePerm_canon {s : State} (h : s.canon = true) (c : Nat) (va : Nat) : (State.intakePerm s c va).canon = true := by
  unfold State.intakePerm
  repeat' split
  all_goals first | assumption | simp +contextual (maxDischargeDepth := 30) [*]

theorem State.intakeWrite_done_canon {s : State} {i : Intake} {w : List (Nat × Byte)} {e : MemErr} {t : State} (x : State.intakeWrite s i w e = .done t) (h : s.canon = true) : t.canon = true := by
  unfold State.intakeWrite at x
  try dsimp only at x
  repeat' split at x
  all_goals try have := State.unitWrite_canon ‹State.unitWrite _ _ _ _ = .ok _› (by first | assumption | simp +contextual (maxDischargeDepth := 30) [*])
  all_goals first
    | contradiction
    | (simp only [Option.some.injEq, Except.ok.injEq, Except.error.injEq, Pre.go.injEq, Wrote.ok.injEq, Stored.ok.injEq, Stored.stop.injEq, Prot.go.injEq, Guarded.ok.injEq, Guarded.stop.injEq, Worked.go.injEq, Worked.stop.injEq, Chunk.done.injEq, Chunk.stop.injEq, reduceCtorEq] at x; done)
    | (simp only [Option.some.injEq, Except.ok.injEq, Except.error.injEq, Pre.go.injEq, Wrote.ok.injEq, Stored.ok.injEq, Stored.stop.injEq, Prot.go.injEq, Guarded.ok.injEq, Guarded.stop.injEq, Worked.go.injEq, Worked.stop.injEq, Chunk.done.injEq, Chunk.stop.injEq] at x; subst x; first | assumption | simp +contextual (maxDischargeDepth := 30) [*])
    | exact State.unitWrite_canon x (by first | assumption | simp +contextual (maxDischargeDepth := 30) [*])
    | (cases x; first | assumption | simp +contextual (maxDischargeDepth := 30) [*])

theorem State.intakeWrite_stop_canon {s : State} {i : Intake} {w : List (Nat × Byte)} {e : MemErr} {t : State} {a : Nat} (x : State.intakeWrite s i w e = .stop t a) (h : s.canon = true) : t.canon = true := by
  unfold State.intakeWrite at x
  try dsimp only at x
  repeat' split at x
  all_goals try have := State.unitWrite_canon ‹State.unitWrite _ _ _ _ = .ok _› (by first | assumption | simp +contextual (maxDischargeDepth := 30) [*])
  all_goals first
    | contradiction
    | (simp only [Option.some.injEq, Except.ok.injEq, Except.error.injEq, Pre.go.injEq, Wrote.ok.injEq, Stored.ok.injEq, Stored.stop.injEq, Prot.go.injEq, Guarded.ok.injEq, Guarded.stop.injEq, Worked.go.injEq, Worked.stop.injEq, Chunk.done.injEq, Chunk.stop.injEq, reduceCtorEq] at x; done)
    | (simp only [Option.some.injEq, Except.ok.injEq, Except.error.injEq, Pre.go.injEq, Wrote.ok.injEq, Stored.ok.injEq, Stored.stop.injEq, Prot.go.injEq, Guarded.ok.injEq, Guarded.stop.injEq, Worked.go.injEq, Worked.stop.injEq, Chunk.done.injEq, Chunk.stop.injEq] at x; subst x; first | assumption | simp +contextual (maxDischargeDepth := 30) [*])
    | exact State.unitWrite_canon x (by first | assumption | simp +contextual (maxDischargeDepth := 30) [*])
    | (cases x; first | assumption | simp +contextual (maxDischargeDepth := 30) [*])

@[simp] theorem State.intakeChunks_canon {s : State} (h : s.canon = true) (i : Intake) (e : MemErr) (n : Nat) (l : List (List Byte × BitVec 128)) :
    (State.intakeChunks i e s n l).1.canon = true := by
  induction l generalizing s n with
  | nil => exact h
  | cons b l ih =>
    unfold State.intakeChunks
    dsimp only
    repeat' split
    · exact h
    · simp [h]
    · simp [h]
    · simp [h]
    · exact ih (State.intakeWrite_done_canon ‹_› h) _
    · exact State.intakeWrite_stop_canon ‹_› h

/-! ### Machine/Power.lean -/

@[simp] theorem State.applyDuty_canon {s : State} (h : s.canon = true) : (State.applyDuty s).canon = true := by
  unfold State.applyDuty
  dsimp only
  repeat' split
  all_goals first | assumption | simp +contextual (maxDischargeDepth := 30) [*]

@[simp] theorem State.powerStep_canon {s : State} (h : s.canon = true) : (State.powerStep s).canon = true := by
  unfold State.powerStep
  dsimp only
  repeat' split
  all_goals first | assumption | simp +contextual (maxDischargeDepth := 30) [*]

@[simp] theorem State.tempStep_canon {s : State} (h : s.canon = true) (d : Nat) (temp : Nat) : (State.tempStep s d temp).canon = true := by
  unfold State.tempStep
  dsimp only
  repeat' split
  all_goals first | assumption | simp +contextual (maxDischargeDepth := 30) [*]

theorem State.armCapture_canon {s : State} {frame : Nat} {src : Nat} {snap : Option Nat} {t : State} (x : State.armCapture s frame src snap = some t) (h : s.canon = true) : t.canon = true := by
  unfold State.armCapture at x
  try dsimp only at x
  repeat' split at x
  all_goals first
    | contradiction
    | (simp only [Option.some.injEq, Except.ok.injEq, Except.error.injEq, Pre.go.injEq, Wrote.ok.injEq, Stored.ok.injEq, Stored.stop.injEq, Prot.go.injEq, Guarded.ok.injEq, Guarded.stop.injEq, Worked.go.injEq, Worked.stop.injEq, Chunk.done.injEq, Chunk.stop.injEq, reduceCtorEq] at x; done)
    | (simp only [Option.some.injEq, Except.ok.injEq, Except.error.injEq, Pre.go.injEq, Wrote.ok.injEq, Stored.ok.injEq, Stored.stop.injEq, Prot.go.injEq, Guarded.ok.injEq, Guarded.stop.injEq, Worked.go.injEq, Worked.stop.injEq, Chunk.done.injEq, Chunk.stop.injEq] at x; subst x; first | assumption | simp +contextual (maxDischargeDepth := 30) [*])

@[simp] theorem State.captureConflict_canon {s : State} (h : s.canon = true) : (State.captureConflict s).canon = true := by
  unfold State.captureConflict
  simp +contextual (maxDischargeDepth := 30) [*]

@[simp] theorem State.askCapture_canon {s : State} (h : s.canon = true) (frame : Nat) (src : Nat) : (State.askCapture s frame src).canon = true := by
  unfold State.askCapture
  cases hc : s.armCapture frame src none with
  | none => simp +contextual (maxDischargeDepth := 30) [h]
  | some t => exact State.armCapture_canon hc h


@[simp] theorem State.announceCapture_canon {s : State} (h : s.canon = true) (frame : Nat) : (State.announceCapture s frame).canon = true := by
  unfold State.announceCapture
  simp +contextual (maxDischargeDepth := 30) [*]

@[simp] theorem State.writeSnpArm_canon {s : State} (h : s.canon = true) (v : Nat) : (State.writeSnpArm s v).canon = true := by
  unfold State.writeSnpArm
  dsimp only
  repeat' split
  all_goals first | assumption | simp +contextual (maxDischargeDepth := 30) [*]

@[simp] theorem State.refLost_canon {s : State} (h : s.canon = true) : (State.refLost s).canon = true := by
  unfold State.refLost
  repeat' split
  all_goals first | assumption | simp +contextual (maxDischargeDepth := 30) [*]

/-! ### Machine/Dawn.lean -/

@[simp] theorem State.clearImages_canon {s : State} (h : s.canon = true) : (State.clearImages s).canon = true := by
  unfold State.clearImages
  simp +contextual (maxDischargeDepth := 30) [*]

@[simp] theorem State.powerDown_canon {s : State} (h : s.canon = true) (cause : Nat) : (State.powerDown s cause).canon = true := by
  unfold State.powerDown
  dsimp only
  simp +contextual (maxDischargeDepth := 30) [*]

@[simp] theorem State.coldRegs_canon {s : State} (h : s.canon = true) : (State.coldRegs s).canon = true := by
  unfold State.coldRegs
  refine State.each_canon (State.each_canon (State.put_canon (State.put_canon (State.put_canon ?_ _ _) _ _) _ _) _ _
    fun t b ht => State.put_canon ht _ _) _ _ fun t n ht => State.put_canon ht _ _
  simp +contextual (maxDischargeDepth := 30) [h]


@[simp] theorem State.turnOff_canon {s : State} (h : s.canon = true) : (State.turnOff s).canon = true := by
  unfold State.turnOff
  have h1 := State.coldRegs_canon (State.powerDown_canon (State.closeSession_canon h) 0)
  generalize (s.closeSession.powerDown 0).coldRegs = t at h1
  exact State.canon_congr h1 rfl rfl rfl rfl

@[simp] theorem State.lose48_canon {s : State} (h : s.canon = true) : (State.lose48 s).canon = true := by
  unfold State.lose48
  exact canon_ite (fun _ => h) fun _ => State.applyDuty_canon (State.modPins_canon
    (canon_ite (fun _ => State.powerDown_canon h _) fun _ => h) _)


@[simp] theorem State.i3cAddress_canon {s : State} (h : s.canon = true) (a : Nat) : (State.i3cAddress s a).canon = true := by
  unfold State.i3cAddress
  repeat' split
  all_goals assumption

@[simp] theorem State.setImage_canon {s : State} (hc : s.canon = true) (h : Nat) (i : Option FwImage) : (State.setImage s h i).canon = true := by
  unfold State.setImage
  repeat' split
  all_goals assumption

@[simp] theorem State.loadFw_canon {s : State} (hc : s.canon = true) (h : Nat) : (State.loadFw s h).canon = true := by
  unfold State.loadFw
  dsimp only
  repeat' split
  all_goals first | assumption | simp +contextual (maxDischargeDepth := 30) [*]

@[simp] theorem State.startFw_canon {s : State} (hc : s.canon = true) (h : Nat) : (State.startFw s h).canon = true := by
  unfold State.startFw
  repeat' split
  all_goals first | assumption | simp +contextual (maxDischargeDepth := 30) [*]

@[simp] theorem State.swapFw_canon {s : State} (h : s.canon = true) : (State.swapFw s).canon = true := by
  unfold State.swapFw
  dsimp only
  repeat' split
  all_goals first | assumption | simp +contextual (maxDischargeDepth := 30) [*]

@[simp] theorem State.writeFwCtrl_canon {s : State} (h : s.canon = true) (p : Party) (v : Nat) : (State.writeFwCtrl s p v).canon = true := by
  unfold State.writeFwCtrl
  dsimp only
  repeat' split
  all_goals first | assumption | simp +contextual (maxDischargeDepth := 30) [*]

@[simp] theorem State.rejectImage_canon {s : State} (h : s.canon = true) (r : Nat) : (State.rejectImage s r).canon = true := by
  unfold State.rejectImage
  simp +contextual (maxDischargeDepth := 30) [*]

@[simp] theorem State.calEnd_canon {s : State} (h : s.canon = true) (ok : Bool) : (State.calEnd s ok).canon = true := by
  unfold State.calEnd
  dsimp only
  repeat' split
  all_goals first | assumption | simp +contextual (maxDischargeDepth := 30) [*]

@[simp] theorem State.calRings_canon {s : State} (h : s.canon = true) (p : Nat) : (State.calRings s p).canon = true := by
  unfold State.calRings
  exact canon_ite (fun _ => State.calEnd_canon h _) fun _ => State.each_canon (State.modOpt_canon h _) _ _ fun t k ht => State.startSweep_canon ht _ _


@[simp] theorem State.calLaser_canon {s : State} (h : s.canon = true) (n : Nat) : (State.calLaser s n).canon = true := by
  unfold State.calLaser
  repeat' split
  all_goals first | assumption | simp +contextual (maxDischargeDepth := 30) [*]

@[simp] theorem State.writeCalCtrl_canon {s : State} (h : s.canon = true) (v : Nat) : (State.writeCalCtrl s v).canon = true := by
  unfold State.writeCalCtrl
  dsimp only
  repeat' split
  all_goals first | assumption | simp +contextual (maxDischargeDepth := 30) [*]

@[simp] theorem State.restoreCal_canon {s : State} (h : s.canon = true) : (State.restoreCal s).canon = true := by
  unfold State.restoreCal
  simp +contextual (maxDischargeDepth := 30) [*]

@[simp] theorem State.storeCal_canon {s : State} (h : s.canon = true) (p : Nat) : (State.storeCal s p).canon = true := by
  unfold State.storeCal
  exact State.each_canon h _ _ fun t k ht => State.modOpt_canon ht _

/-! ### Machine/Time.lean -/

@[simp] theorem State.modTime_canon {s : State} (h : s.canon = true) (f : TimeSt → TimeSt) : (State.modTime s f).canon = true := by
  unfold State.modTime
  simp +contextual (maxDischargeDepth := 30) [*]

@[simp] theorem State.becomeMaster_canon {s : State} (h : s.canon = true) : (State.becomeMaster s).canon = true := by
  unfold State.becomeMaster
  dsimp only
  simp +contextual (maxDischargeDepth := 30) [*]

@[simp] theorem State.sendTimes_canon {s : State} (h : s.canon = true) (depart : Nat) : (State.sendTimes s depart).canon = true := by
  unfold State.sendTimes
  dsimp only
  repeat' split
  all_goals first | assumption | simp +contextual (maxDischargeDepth := 30) [*]

@[simp] theorem State.relayTimes_canon {s : State} (h : s.canon = true) {old : State} (h_old : old.canon = true) (arrival : Nat) : (State.relayTimes s old arrival).canon = true := by
  unfold State.relayTimes
  repeat' split
  all_goals first | assumption | simp +contextual (maxDischargeDepth := 30) [*]

@[simp] theorem State.learnMaster_canon {s : State} (h : s.canon = true) (m : TimeMsg) : (State.learnMaster s m).canon = true := by
  unfold State.learnMaster
  dsimp only
  repeat' split
  all_goals first | assumption | simp +contextual (maxDischargeDepth := 30) [*]

@[simp] theorem State.setDepth_canon {s : State} (h : s.canon = true) (d : Nat) : (State.setDepth s d).canon = true := by
  unfold State.setDepth
  dsimp only
  simp +contextual (maxDischargeDepth := 30) [*]

@[simp] theorem State.followParent_canon {s : State} (h : s.canon = true) (p : Nat) : (State.followParent s p).canon = true := by
  unfold State.followParent
  dsimp only
  repeat' split
  all_goals first | assumption | simp +contextual (maxDischargeDepth := 30) [*]

@[simp] theorem State.holdOver_canon {s : State} (h : s.canon = true) : (State.holdOver s).canon = true := by
  unfold State.holdOver
  dsimp only
  repeat' split
  all_goals first | assumption | simp +contextual (maxDischargeDepth := 30) [*]

@[simp] theorem State.deputyTick_canon {s : State} (h : s.canon = true) : (State.deputyTick s).canon = true := by
  unfold State.deputyTick
  repeat' split
  all_goals assumption

@[simp] theorem State.countLock_canon {s : State} (h : s.canon = true) : (State.countLock s).canon = true := by
  unfold State.countLock
  dsimp only
  repeat' split
  all_goals assumption

@[simp] theorem State.applyRole_canon {s : State} (h : s.canon = true) : (State.applyRole s).canon = true := by
  unfold State.applyRole
  dsimp only
  repeat' split
  all_goals first | assumption | simp +contextual (maxDischargeDepth := 30) [*]

@[simp] theorem State.newTimes_canon {s : State} (h : s.canon = true) : (State.newTimes s).canon = true := by
  unfold State.newTimes
  dsimp only
  simp +contextual (maxDischargeDepth := 30) [*]

@[simp] theorem State.tickTimes_canon {s : State} (h : s.canon = true) : (State.tickTimes s).canon = true := by
  unfold State.tickTimes
  repeat' split
  all_goals first | assumption | simp +contextual (maxDischargeDepth := 30) [*]

@[simp] theorem State.endTimes_canon {s : State} (h : s.canon = true) : (State.endTimes s).canon = true := by
  unfold State.endTimes
  repeat' split
  all_goals first | assumption | simp +contextual (maxDischargeDepth := 30) [*]

@[simp] theorem State.timeTick_canon {s : State} (h : s.canon = true) : (State.timeTick s).canon = true := by
  unfold State.timeTick
  dsimp only
  repeat' split
  all_goals first | assumption | simp +contextual (maxDischargeDepth := 30) [*]

@[simp] theorem State.setFrame_canon {s : State} (h : s.canon = true) (v : BitVec 64) : (State.setFrame s v).canon = true := by
  unfold State.setFrame
  repeat' split
  all_goals assumption

@[simp] theorem State.writeLoadHi_canon {s : State} (h : s.canon = true) (v : Nat) : (State.writeLoadHi s v).canon = true := by
  unfold State.writeLoadHi
  dsimp only
  repeat' split
  all_goals first | assumption | simp +contextual (maxDischargeDepth := 30) [*]

/-! ### Machine/Tick.lean -/

@[simp] theorem State.writeFlogCb_canon {s : State} (h : s.canon = true) : (State.writeFlogCb s).canon = true := by
  unfold State.writeFlogCb
  dsimp only
  repeat' split
  all_goals first | assumption | simp +contextual (maxDischargeDepth := 30) [*]

@[simp] theorem State.countTicks_canon {s : State} (h : s.canon = true) : (State.countTicks s).canon = true := by
  unfold State.countTicks
  dsimp only
  simp +contextual (maxDischargeDepth := 30) [*]

@[simp] theorem State.countGated_canon {s : State} (h : s.canon = true) : (State.countGated s).canon = true := by
  unfold State.countGated
  dsimp only
  simp +contextual (maxDischargeDepth := 30) [*]

@[simp] theorem State.countPower_canon {s : State} (h : s.canon = true) (e : TickEnv) : (State.countPower s e).canon = true := by
  unfold State.countPower
  dsimp only
  simp +contextual (maxDischargeDepth := 30) [*]

@[simp] theorem State.countStalls_canon {s : State} (h : s.canon = true) : (State.countStalls s).canon = true := by
  unfold State.countStalls
  dsimp only
  simp +contextual (maxDischargeDepth := 30) [*]

@[simp] theorem State.endFrame_canon {s : State} (h : s.canon = true) (e : TickEnv) : (State.endFrame s e).canon = true := by
  unfold State.endFrame
  simp +contextual (maxDischargeDepth := 30) [*]

@[simp] theorem State.advance_canon {s : State} (h : s.canon = true) : (State.advance s).canon = true := by
  unfold State.advance
  dsimp only
  simp +contextual (maxDischargeDepth := 30) [*]

@[simp] theorem State.firmwareTick_canon {s : State} (h : s.canon = true) : (State.firmwareTick s).canon = true := by
  unfold State.firmwareTick
  repeat' split
  all_goals first | assumption | simp +contextual (maxDischargeDepth := 30) [*]

@[simp] theorem State.pollHost_canon {s : State} (h : s.canon = true) (e : TickEnv) : (State.pollHost s e).canon = true := by
  unfold State.pollHost
  dsimp only
  repeat' split
  all_goals first | assumption | simp +contextual (maxDischargeDepth := 30) [*]

@[simp] theorem State.pinTick_canon {s : State} (h : s.canon = true) (e : TickEnv) : (State.pinTick s e).canon = true := by
  unfold State.pinTick
  simp +contextual (maxDischargeDepth := 30) [*]

@[simp] theorem State.noteBusy_canon {s : State} (h : s.canon = true) : (State.noteBusy s).canon = true := by
  unfold State.noteBusy
  simp +contextual (maxDischargeDepth := 30) [*]

@[simp] theorem State.beginFrame_canon {s : State} (h : s.canon = true) (e : TickEnv) : (State.beginFrame s e).canon = true := by
  unfold State.beginFrame
  exact State.modPins_canon (State.noteBusy_canon (State.noteExpress_canon (State.sendAcks_canon (State.countPorts_canon (State.applyMoves_canon (State.each_canon
    (State.tuneRings_canon (State.each_canon (State.stopRings_canon (State.pinTick_canon (State.pollHost_canon h e) e)) _ _
      fun t r ht => State.pollRing_canon ht _ _) _) _ _ fun t x ht => State.tapLaser_canon ht _)))))) _

/-! ### Machine/RegWrite.lean -/

@[simp] theorem State.writeBarCfg_canon {s : State} (h : s.canon = true) (v : Nat) : (State.writeBarCfg s v).canon = true := by
  unfold State.writeBarCfg
  dsimp only
  simp +contextual (maxDischargeDepth := 30) [*]

@[simp] theorem State.writeBarChild_canon {s : State} (h : s.canon = true) (v : Nat) : (State.writeBarChild s v).canon = true := by
  unfold State.writeBarChild
  dsimp only
  simp +contextual (maxDischargeDepth := 30) [*]

@[simp] theorem State.writeObjKind_canon {s : State} (h : s.canon = true) (v : Nat) : (State.writeObjKind s v).canon = true := by
  unfold State.writeObjKind
  dsimp only
  repeat' split
  all_goals assumption

@[simp] theorem State.writeMbxStatus_canon {s : State} (h : s.canon = true) (who : Nat) (n : Nat) (v : Nat) : (State.writeMbxStatus s who n v).canon = true := by
  unfold State.writeMbxStatus
  dsimp only
  repeat' split
  all_goals first | assumption | simp +contextual (maxDischargeDepth := 30) [*]

@[simp] theorem State.afterWrite_canon {s : State} (h : s.canon = true) (base : Nat) {t : State} (h_t : t.canon = true) : (State.afterWrite s base t).canon = true := by
  unfold State.afterWrite
  repeat' split
  all_goals first | assumption | simp +contextual (maxDischargeDepth := 30) [*]

/-- Every register with an operation of its own keeps the canonical form. -/
theorem writeOps_canon {e : Nat × (State → Party → Nat → Nat → State)} (he : e ∈ writeOps) {s : State} (h : s.canon = true)
    (p : Party) (k v : Nat) : (e.2 s p k v).canon = true := by
  unfold writeOps at he
  simp only [List.mem_cons, List.not_mem_nil, or_false] at he
  repeat' (rcases he with rfl | he)
  all_goals simp +contextual (maxDischargeDepth := 30) [h]

@[simp] theorem State.applyWrite_canon {s : State} (h : s.canon = true) (p : Party) (r : Reg.Row) (a : Nat) (v : Nat) : (State.applyWrite s p r a v).canon = true := by
  unfold State.applyWrite
  split
  · exact writeOps_canon (List.mem_of_find?_eq_some ‹_›) h _ _ _
  · exact State.afterWrite_canon h _ (by simp +contextual (maxDischargeDepth := 30) [h])


@[simp] theorem State.hostWrite_canon {s : State} (h : s.canon = true) (r : Reg.Row) (a : Nat) (v : Nat) : (State.hostWrite s r a v).canon = true := by
  unfold State.hostWrite
  dsimp only
  repeat' split
  all_goals first | assumption | simp +contextual (maxDischargeDepth := 30) [*]

@[simp] theorem State.writeRegister_canon {s : State} (h : s.canon = true) (p : Party) (addr : Nat) (v : Nat) : (State.writeRegister s p addr v).canon = true := by
  unfold State.writeRegister
  dsimp only
  repeat' split
  all_goals first | assumption | simp +contextual (maxDischargeDepth := 30) [*]

end Sys2Proof.Machine
end

