-- ==== Sys2Proof/Laws/Regs.lean ====
section
/-! SUPPORT. What a register or a field reads after a write: the value written, and everywhere else what it read
before. A state in canonical form is the one premise. -/
namespace Sys2Proof.Machine

variable {s : State}

theorem State.reg_setReg_same (h : s.canon = true) (a : Nat) (v : Word) : (s.setReg a v).reg a = v := by
  simp [State.setReg, State.reg, h]

theorem State.reg_setReg_ne (h : s.canon = true) {a b : Nat} (v : Word) (hb : b ≠ a) : (s.setReg a v).reg b = s.reg b := by
  simp [State.setReg, State.reg, sget_sset_ne, h, hb]

/-- A write to a field leaves every other register. -/
theorem State.reg_put_ne (h : s.canon = true) {f : Reg.Fld} {b : Nat} (v : Nat) (hb : b ≠ f.reg) : (s.put f v).reg b = s.reg b :=
  State.reg_setReg_ne h _ hb

/-- The word of a register after a write to a field of it. -/
theorem State.reg_put_same (h : s.canon = true) (f : Reg.Fld) (v : Nat) :
    (s.put f v).reg f.reg = BitVec.ofNat 32 (setBits (s.reg f.reg).toNat f.lo f.w v) := State.reg_setReg_same h _ _

theorem setBits_word (w : Word) {lo n : Nat} (hn : lo + n ≤ 32) (v : Nat) :
    (BitVec.ofNat 32 (setBits w.toNat lo n v)).toNat = setBits w.toNat lo n v := by
  rw [BitVec.toNat_ofNat]
  exact Nat.mod_eq_of_lt (setBits_lt w.isLt hn)

/-- A field reads what was written to it. -/
theorem State.get_put_same (h : s.canon = true) {f : Reg.Fld} (v : Nat) (hf : f.lo + f.w ≤ 32) : (s.put f v).get f = v % 2 ^ f.w := by
  unfold State.get
  rw [State.reg_put_same h, setBits_word _ hf, bitsOf_setBits_same]

/-- A field of another register keeps its value. -/
theorem State.get_put_ne (h : s.canon = true) {f g : Reg.Fld} (v : Nat) (hg : g.reg ≠ f.reg) : (s.put f v).get g = s.get g := by
  unfold State.get
  rw [State.reg_put_ne h v hg]

/-- A field of the same register that lies below the one written keeps its value. -/
theorem State.get_put_below (h : s.canon = true) {f g : Reg.Fld} (v : Nat) (hf : f.lo + f.w ≤ 32) (hr : g.reg = f.reg)
    (hg : g.lo + g.w ≤ f.lo) : (s.put f v).get g = s.get g := by
  unfold State.get
  rw [hr, State.reg_put_same h, setBits_word _ hf, bitsOf_setBits_below hg]

/-- A field of the same register that lies above the one written keeps its value. -/
theorem State.get_put_above (h : s.canon = true) {f g : Reg.Fld} (v : Nat) (hf : f.lo + f.w ≤ 32) (hr : g.reg = f.reg)
    (hg : f.lo + f.w ≤ g.lo) : (s.put f v).get g = s.get g := by
  unfold State.get
  rw [hr, State.reg_put_same h, setBits_word _ hf, bitsOf_setBits_above hg]

/-- A status bit set reads 1. -/
theorem State.get_mark_same (h : s.canon = true) {f : Reg.Fld} (hf : f.lo + f.w ≤ 32) (hw : f.w = 1) : (s.mark f).get f = 1 := by
  unfold State.mark
  rw [State.get_put_same h _ hf, hw]; rfl

/-- A counter after an increase, at its largest value at most. -/
theorem State.get_bump_same (h : s.canon = true) {f : Reg.Fld} (n : Nat) (hf : f.lo + f.w ≤ 32) :
    (s.bump f n).get f = min (2 ^ f.w - 1) (s.get f + n) := by
  unfold State.bump
  rw [State.get_put_same h _ hf]
  apply Nat.mod_eq_of_lt
  have := Nat.two_pow_pos f.w
  unfold satAdd
  omega

/-! ### Bytes -/

/-- A register write changes no byte. -/
@[simp] theorem State.byteAt_setReg (a : Nat) (v : Word) (b : Nat) : (s.setReg a v).byteAt b = s.byteAt b := id rfl
@[simp] theorem State.byteAt_put (f : Reg.Fld) (v b : Nat) : (s.put f v).byteAt b = s.byteAt b := id rfl
@[simp] theorem State.byteAt_mark (f : Reg.Fld) (b : Nat) : (s.mark f).byteAt b = s.byteAt b := id rfl
@[simp] theorem State.byteAt_bump (f : Reg.Fld) (n b : Nat) : (s.bump f n).byteAt b = s.byteAt b := id rfl
@[simp] theorem State.byteAt_emit (o : Out) (b : Nat) : (s.emit o).byteAt b = s.byteAt b := id rfl

end Sys2Proof.Machine
end

