-- ==== Sys2Proof/Laws/Light.lean ====
section
/-! SUPPORT. What the training of memory and the lighting of λ17 leave alone: every register outside the memory and optics
blocks, so the GOOD marks by which recovery chooses its firmware half. -/
namespace Sys2Proof.Machine

variable {s : State}

/-- A list of updates that each keep the canonical form and a register keeps both. -/
theorem State.each_keeps_reg {α : Type} {b : Nat} {f : State → α → State} (l : List α)
    (hf : ∀ t : State, ∀ x ∈ l, t.canon = true → (f t x).canon = true ∧ (f t x).reg b = t.reg b) (h : s.canon = true) :
    (s.each l f).canon = true ∧ (s.each l f).reg b = s.reg b := by
  induction l generalizing s with
  | nil => exact ⟨h, rfl⟩
  | cons x l ih =>
    have hx := hf s x (by simp) h
    have hl := ih (s := f s x) (fun t y hy => hf t y (by simp [hy])) hx.1
    exact ⟨hl.1, hl.2.trans hx.2⟩

/-- GLB_FW_STATUS, the register of the GOOD marks. -/
theorem State.goodHalf_eq {t : State} (h : t.reg Reg.GLB_FW_STATUS = s.reg Reg.GLB_FW_STATUS) : t.goodHalf = s.goodHalf := by
  have e (f : Reg.Fld) (hf : f.reg = Reg.GLB_FW_STATUS) : t.on f = s.on f := by
    simp only [State.on, State.get, hf, h]
  unfold State.goodHalf
  rw [e _ rfl, e _ rfl]

theorem State.goodHalf_put (h : s.canon = true) {f : Reg.Fld} (v : Nat) (hf : Reg.GLB_FW_STATUS ≠ f.reg) : (s.put f v).goodHalf = s.goodHalf :=
  State.goodHalf_eq (State.reg_put_ne h v hf)

theorem State.setSpares_reg (h : s.canon = true) {m : Nat} (n : Nat) (hm : m < 9) :
    (s.setSpares m n).reg Reg.GLB_FW_STATUS = s.reg Reg.GLB_FW_STATUS := by
  unfold State.setSpares
  rw [State.reg_put_ne (by simp [h]) _ (by interval_cases m <;> decide)]
  rfl

theorem State.trainOne_reg (h : s.canon = true) {m : Nat} (hm : m < 9) : (s.trainOne m).reg Reg.GLB_FW_STATUS = s.reg Reg.GLB_FW_STATUS := by
  unfold State.trainOne
  split
  · exact State.setSpares_reg h _ hm
  · exact State.setSpares_reg (by simpa [State.fresh] using h) _ hm

theorem State.clearMem_reg (b : Nat) : s.clearMem.reg b = s.reg b := rfl

theorem State.trainNear_reg (h : s.canon = true) : s.trainNear.reg Reg.GLB_FW_STATUS = s.reg Reg.GLB_FW_STATUS := by
  unfold State.trainNear
  split
  · rfl
  · have key := State.each_keeps_reg (b := Reg.GLB_FW_STATUS) (List.range 8) (f := State.trainOne)
      (fun t m hm ht => ⟨State.trainOne_canon ht m, State.trainOne_reg ht (by have : m < 8 := by simpa using hm
                                                                              omega)⟩)
      (State.put_canon h Reg.MEM_STATUS_NM_TRAINED 0xFF)
    rw [State.clearMem_reg, key.2, State.reg_put_ne h _ (by decide)]

theorem State.trainBoard_reg (h : s.canon = true) : s.trainBoard.reg Reg.GLB_FW_STATUS = s.reg Reg.GLB_FW_STATUS := by
  unfold State.trainBoard
  split
  · rfl
  · rw [State.clearMem_reg, State.trainOne_reg (State.put_canon h _ _) (by decide), State.reg_put_ne h _ (by decide)]

theorem State.modTuner_reg (k : Nat) (f : RingSt → RingSt) (b : Nat) : (s.modTuner k f).reg b = s.reg b := rfl

/-- Updates of rings leave every register. -/
theorem State.eachTuner_reg {b : Nat} (l : List Nat) (f : State → Nat → RingSt → RingSt) (h : s.canon = true) :
    (s.each l fun t k => t.modTuner k (f t k)).canon = true ∧ (s.each l fun t k => t.modTuner k (f t k)).reg b = s.reg b :=
  State.each_keeps_reg l (fun _ _ _ ht => ⟨State.modTuner_canon ht _ _, State.modTuner_reg _ _ _⟩) h

/-- Acquiring and verifying rings writes no register. -/
theorem State.verifyRings_reg (h : s.canon = true) (lams : List Nat) (b : Nat) : (s.verifyRings lams).reg b = s.reg b := by
  unfold State.verifyRings
  have h1 := State.eachTuner_reg (b := b) (List.range 576) (fun t k x => { x with hcal := some (t.storedCal k) }) h
  exact (State.each_keeps_reg _ (fun _ _ _ ht => ⟨State.modTuner_canon ht _ _, State.modTuner_reg _ _ _⟩) h1.1).2.trans h1.2

theorem State.setLc_reg (h : s.canon = true) (n a b : Nat) (hn : n < 22) : (s.setLc n a b).reg Reg.GLB_FW_STATUS = s.reg Reg.GLB_FW_STATUS := by
  unfold State.setLc
  rw [State.reg_put_ne (by simp [h]) _ (by interval_cases n <;> decide), State.reg_put_ne h _ (by interval_cases n <;> decide)]

theorem State.freeSpares_lt {n : Nat} (hn : n ∈ s.freeSpares) : n < 22 := by
  have hm : n ∈ [18, 19, 20, 21] := (List.mem_filter.mp hn).1
  simp at hm; omega

theorem State.park_reg (h : s.canon = true) : s.park.reg Reg.GLB_FW_STATUS = s.reg Reg.GLB_FW_STATUS := by
  unfold State.park
  split
  · next n hn =>
    have hlt := State.freeSpares_lt (List.mem_of_find?_eq_some hn)
    split
    · rfl
    · have h1 := State.each_keeps_reg (b := Reg.GLB_FW_STATUS) (s.freeSpares.filter fun m => s.lcState m == lcParked)
        (f := fun t m => t.setLc m lcDark 31)
        (fun t m hm ht => ⟨State.setLc_canon ht _ _ _, State.setLc_reg ht m _ _ (State.freeSpares_lt (List.mem_filter.mp hm).1)⟩) h
      rw [State.setLc_reg h1.1 _ _ _ hlt, h1.2]
  · rfl

theorem State.lightService_reg (h : s.canon = true) : s.lightService.reg Reg.GLB_FW_STATUS = s.reg Reg.GLB_FW_STATUS := by
  have key := State.each_keeps_reg (b := Reg.GLB_FW_STATUS) (List.range 22)
    (f := fun (t : State) n => t.put (Reg.OPT_LC_COMM_P_C n) (sget Config.laserCal s.opt.pc n))
    (fun t n hn ht => ⟨by simp [ht], State.reg_put_ne ht _ (by have h22 : n < 22 := by simpa using hn
                                                               interval_cases n <;> decide)⟩) h
  have hp : s.loadPowers.canon = true := key.1
  unfold State.lightService
  rw [State.park_reg (by simp [hp]), State.reg_put_ne (by simp [hp]) _ (by decide), State.setLc_reg hp _ _ _ (by decide)]
  exact key.2

theorem State.lightBank_reg (h : s.canon = true) : s.lightBank.reg Reg.GLB_FW_STATUS = s.reg Reg.GLB_FW_STATUS := by
  refine (State.each_keeps_reg (b := Reg.GLB_FW_STATUS) (List.range 17) (fun t lam _ ht => ?_) h).2
  dsimp only
  split
  · next hn =>
    simp only [Bool.and_eq_true, decide_eq_true_eq] at hn
    exact ⟨State.setLc_canon ht _ _ _, State.setLc_reg ht _ _ _ hn.1.1⟩
  · exact ⟨ht, rfl⟩

theorem State.relight_reg (h : s.canon = true) : s.relight.reg Reg.GLB_FW_STATUS = s.reg Reg.GLB_FW_STATUS := by
  unfold State.relight
  split
  · rfl
  · have h1 : s.lightService.canon = true := by simp [h]
    have h2 : (s.lightService.mark Reg.OPT_CTRL_BANK_EN).canon = true := by simp [h]
    rw [State.verifyRings_reg (State.lightBank_canon h2), State.lightBank_reg h2]
    exact (State.reg_put_ne h1 _ (by decide)).trans (State.lightService_reg h)

/-- Training and relighting leave the half that recovery starts. -/
theorem State.goodHalf_lit (h : s.canon = true) : (((s.trainNear).trainBoard).relight).goodHalf = s.goodHalf := by
  apply State.goodHalf_eq
  rw [State.relight_reg (State.trainBoard_canon (State.trainNear_canon h)), State.trainBoard_reg (State.trainNear_canon h), State.trainNear_reg h]

end Sys2Proof.Machine
end

