-- ==== Sys2Proof/Laws/Seq.lean ====
section
/-! SUPPORT. What a sequencer instruction does with and without a running LAUNCH. -/
namespace Sys2Proof.Machine

theorem State.seqInstr_running {s : State} {c : Nat} {o : Op} (h : s.running c = some o) (f : Op → State → State) :
    s.seqInstr c f = f o (s.stepped c) := by
  simp only [State.seqInstr, h, State.stepped]

theorem State.seqInstr_idle {s : State} {c : Nat} (h : s.running c = none) (f : Op → State → State) : s.seqInstr c f = s := by
  simp only [State.seqInstr, h]

@[simp] theorem State.stepped_regs (s : State) (c : Nat) : (s.stepped c).regs = s.regs := rfl
@[simp] theorem State.stepped_reg (s : State) (c a : Nat) : (s.stepped c).reg a = s.reg a := id rfl
@[simp] theorem State.stepped_get (s : State) (c : Nat) (f : Reg.Fld) : (s.stepped c).get f = s.get f := id rfl
@[simp] theorem State.stepped_on (s : State) (c : Nat) (f : Reg.Fld) : (s.stepped c).on f = s.on f := id rfl

end Sys2Proof.Machine
end

