-- ==== Sys2Proof/Laws/Wire.lean ====
section
/-! SUPPORT. Laws of the light's bytes: a CRC-32C is a 32-bit number (R338), and a cell that carries its own passes its check
(R272). -/
namespace Sys2Proof.Machine

/-- One bit step of CRC-32C. -/
theorem crc32c_bit_lt (x : Nat) (h : x < 2 ^ 32) : (if x % 2 = 1 then (x / 2) ^^^ 0x82F63B78 else x / 2) < 2 ^ 32 := by
  split
  · exact Nat.xor_lt_two_pow (by omega) (by decide)
  · omega

theorem crc32cByte_lt (c : Nat) (b : Byte) (h : c < 2 ^ 32) : crc32cByte c b < 2 ^ 32 := by
  have fold : ∀ (l : List Nat) (x : Nat), x < 2 ^ 32 →
      l.foldl (fun c _ => if c % 2 = 1 then (c / 2) ^^^ 0x82F63B78 else c / 2) x < 2 ^ 32 := by
    intro l
    induction l with
    | nil => exact fun _ hx => hx
    | cons _ t ih => exact fun x hx => ih _ (crc32c_bit_lt x hx)
  exact fold _ _ (Nat.xor_lt_two_pow h (Nat.lt_of_lt_of_le b.isLt (by decide)))

theorem crc32c_lt (l : List Byte) : crc32c l < 2 ^ 32 := by
  have fold : ∀ (l : List Byte) (x : Nat), x < 2 ^ 32 → l.foldl crc32cByte x < 2 ^ 32 := by
    intro l
    induction l with
    | nil => exact fun _ hx => hx
    | cons b t ih => exact fun x hx => ih _ (crc32cByte_lt x b hx)
  exact Nat.xor_lt_two_pow (fold l _ (by decide)) (by decide)

theorem withCrc_crcOk (c : Cell) : c.withCrc.crcOk = true := by
  have h : c.withCrc.body = c.body := rfl
  have hc : c.withCrc.crc = BitVec.ofNat 32 (crc32c c.body) := rfl
  rw [Cell.crcOk, h, hc, BitVec.toNat_ofNat, Nat.mod_eq_of_lt (crc32c_lt c.body), beq_self_eq_true]

end Sys2Proof.Machine
end

