-- ==== Sys2Proof/Machine/Views.lean ====
section
/-! DEFINITION. What a read of a register returns: the stored word, the fields that show the state of the blocks, the
latches of R502 and the host's view (R12, R13, R462, R499). The command table has no row for a plain register read; these
functions observe the state. -/
namespace Sys2Proof.Machine

/-- A word with a field replaced. -/
def withFld (f : Reg.Fld) (v w : Nat) : Nat := setBits w f.lo f.w v

/-- A number held at the largest value of a field. -/
def held (w n : Nat) : Nat := min (2 ^ w - 1) n

/-- The head descriptor of a ring is held: accepted and not yet issued (R179). -/
def State.headHeld (s : State) (r : Nat) : Bool := (s.head r).isSome

/-- SUB_RINGn_STATUS (R205). -/
def State.viewRing (s : State) (r w : Nat) : Nat :=
  withFld (Reg.SUB_RING_STATUS_IDLE r) (b2n (s.ringIdle r)) (withFld (Reg.SUB_RING_STATUS_CQ_FULL r) (b2n !(s.cqFree r))
    (withFld (Reg.SUB_RING_STATUS_HELD r) (b2n (s.headHeld r))
      (withFld (Reg.SUB_RING_STATUS_INFLIGHT r) (s.ops.filter fun o => o.ring == r).length w)))

/-- The sequence number of a ring: S₀ while disabled, the next expected one while enabled (R205). -/
def State.viewSeq (s : State) (r : Nat) : Nat :=
  if s.on (Reg.SUB_RING_CFG_ENABLE r) then (s.seqBase r + s.get (Reg.SUB_RING_CI_CI r)) % 2 ^ 64 else s.seqBase r

/-- MBX_CHn_STATUS and RX_STAMP as an endpoint sees them, 0 for another party (R206). -/
def State.viewMbx (s : State) (who n : Nat) : Nat × Nat :=
  let x := s.chan n
  let pack (inq outq : List (Nat × Nat)) (ci co : Bool) : Nat :=
    inq.length + 16 * outq.length + 256 * b2n ci + 512 * b2n co + 65536 * x.collCnt
  if who == s.get (Reg.MBX_CH_CFG_E0 n) then (pack x.to0 x.to1 x.coll0 x.coll1, x.stamp0)
  else if who == s.get (Reg.MBX_CH_CFG_E1 n) then (pack x.to1 x.to0 x.coll1 x.coll0, x.stamp1)
  else (0, 0)

/-- MBX_CHn_RX: the oldest word inbound to the endpoint that reads, 0 where there is none (R206). -/
def State.viewRx (s : State) (who n : Nat) : Nat :=
  let x := s.chan n
  (((if who == s.get (Reg.MBX_CH_CFG_E0 n) then x.to0 else if who == s.get (Reg.MBX_CH_CFG_E1 n) then x.to1 else []).head?).map (·.1)).getD 0

/-- OPT_STATUS (R270). -/
def State.viewOpt (s : State) : Nat :=
  s.freeSpares.length + 8 * b2n s.parked.isSome + 16 * ((s.parked.getD 18) - 18)
    + 64 * (((List.range 16).filter fun p => s.on (Reg.OPT_PORT_STATUS_UP p)).map (2 ^ ·)).foldl (· + ·) 0

/-- The ring that OPT_RING_SEL selects. -/
def State.ringSel (s : State) : Nat :=
  ringKey (s.get Reg.OPT_RING_SEL_PORT) (s.on Reg.OPT_RING_SEL_BUS) (s.get Reg.OPT_RING_SEL_LAMBDA)

/-- INT_HEALTH_DATA of the selected unit (R364). -/
def State.viewHealth (s : State) : Nat :=
  let u := s.healthSel
  let v := s.score (scoreKey u.1 u.2)
  let core := u.1 == 0
  let seff := if core then s.sEff s.stepSel u.2 else 0
  v + 1024 * b2n (v < 700) + 2048 * b2n (v < 400) + 4096 * b2n (core && s.integ.inBand.contains u.2) + 8192 * seff

/-- HRC_STATUS (R447). -/
def State.viewHrc (s : State) (w : Nat) : Nat :=
  let cores := ((List.range 5).map fun k => popCount 32 (s.reg (Reg.HRC_RST_CORE k)).toNat).foldl (· + ·) 0
  let cls := popCount 32 (s.reg Reg.HRC_RST_CL0).toNat + popCount 32 (s.reg Reg.HRC_RST_CL1).toNat
  withFld Reg.HRC_STATUS_FLOG_FULL (b2n s.flogFull) (withFld Reg.HRC_STATUS_CORES_IN_RESET cores
    (withFld Reg.HRC_STATUS_CLUSTERS_IN_RESET cls w))

/-- HRC_DUMP_WIN (R434): the selected page of the selected slot's finished dump, 0 for an empty slot. -/
def State.viewDump (s : State) (off : Nat) : Nat :=
  let slot := s.get Reg.HRC_DUMP_PAGE_SLOT
  match s.hrc.dumps.find? fun d => d.slot == slot with
  | none => 0
  | some d => leNat ((List.range 4).map fun k => d.bytes.getD (s.get Reg.HRC_DUMP_PAGE_PAGE * 0x80000 + off + k) 0)

/-- The set that RPL_SET_SEL selects. -/
def State.setSel (s : State) : InSet := (s.rpl.sets[s.get Reg.RPL_SET_SEL_SLOT]?).getD ⟨0, 0, 0, 0⟩

/-- An entry of the SNP index (R471, R476): shown once a capture has been taken. -/
def State.viewSnap (s : State) : Nat :=
  match snapBlocks[s.get Reg.SNP_INDEX_SEL_ENTRY]?, s.on Reg.SNP_STATUS_VALID with
  | some b, true => b + 65536 * setUnits b + 2 ^ 28 * b2n (!s.snp.invalid.contains b)
  | _, _ => 0

/-- The partner registers of R502: a read returns the latch. -/
def latchedReg (base : Nat) : Bool :=
  [Reg.FTB_FRAME_HI, Reg.FTB_PHASE, Reg.SYN_OBJ_VAL_HI, Reg.SYN_OBJ_STATE, Reg.CORE_MX_PASS_HI 0, Reg.CORE_VX_ELEM_HI 0,
    Reg.INT_DUP_SAMPLED_HI].contains base || (Reg.SUB_PROG_DATA 1 ≤ base && base ≤ Reg.SUB_PROG_DATA 7)

/-- The registers that show the state of a block: base address, and the word shown from reader, copy and stored word. -/
def views : List (Nat × (State → Party → Nat → Nat → Nat)) := [
  (Reg.FTB_STATUS, fun s _ _ w => withFld Reg.FTB_STATUS_EXT_REF_OK
    (b2n (s.on Reg.GLB_STATUS_REF_VALID && s.on Reg.GLB_STATUS_PPS_VALID && s.get Reg.FTB_CTRL_ROLE == 2)) w),
  (Reg.FTB_FRAME_LO, fun s _ _ _ => s.frame % 2 ^ 32),
  (Reg.MEM_NM_STATUS 0, fun s _ n w => withFld (Reg.MEM_NM_STATUS_TRAINED n) (bitsOf (s.get Reg.MEM_STATUS_NM_TRAINED) n 1)
    (withFld (Reg.MEM_NM_STATUS_REFRESH n)
      (if !s.on Reg.MEM_CTRL_REFRESH_AUTO && s.get (Reg.MEM_NM_STATUS_REFRESH n) = 0 then 1 else s.get (Reg.MEM_NM_STATUS_REFRESH n)) w)),
  (Reg.MEM_BC_TEMP, fun s _ _ w => withFld Reg.MEM_BC_TEMP_REFRESH
    (if !s.on Reg.MEM_CTRL_REFRESH_AUTO && s.get Reg.MEM_BC_TEMP_REFRESH = 0 then 1 else s.get Reg.MEM_BC_TEMP_REFRESH) w),
  (Reg.MEM_BC_TRAINED, fun s _ _ _ => if s.on Reg.MEM_STATUS_BC_TRAINED then 2 ^ 32 - 1 else 0),
  (Reg.MEM_RETIRED_CNT, fun s _ _ _ => held 16 (s.memx.retired.filter (· < nearEnd)).length
    + 65536 * held 16 (s.memx.retired.filter (nearEnd ≤ ·)).length),
  (Reg.SUB_INFLIGHT, fun s _ _ _ => s.ops.length),
  (Reg.SUB_INFLIGHT_DIE 0, fun s _ d _ => (s.ops.filter fun o => bitOn o.dies d).length),
  (Reg.SUB_PROG_SEL, fun s _ _ w => withFld Reg.SUB_PROG_SEL_VALID (b2n s.progSel.isSome) w),
  (Reg.SUB_PROG_DATA 0, fun s _ _ _ => leNat (s.progBytes.take 4)),
  (Reg.SUB_RING_STATUS 0, fun s _ r w => s.viewRing r w),
  (Reg.SUB_RING_SEQ_LO 0, fun s _ r _ => s.viewSeq r % 2 ^ 32),
  (Reg.SUB_RING_SEQ_HI 0, fun s _ r _ => s.viewSeq r / 2 ^ 32),
  (Reg.MBX_CH_RX 0, fun s p n _ => s.viewRx (s.mbxIdentity p n) n),
  (Reg.MBX_CH_STATUS 0, fun s p n _ => (s.viewMbx (s.mbxIdentity p n) n).1),
  (Reg.MBX_CH_RX_STAMP 0, fun s p n _ => (s.viewMbx (s.mbxIdentity p n) n).2),
  (Reg.SYN_WAITERS, fun s _ _ _ => s.waitersUsed),
  (Reg.SYN_REMOTE_PEND, fun s _ _ _ => s.syn.remotes.length),
  (Reg.SYN_OBJ_VAL_LO, fun s _ _ _ =>
    let o := s.obj (s.get Reg.SYN_OBJ_SEL_INDEX)
    if o.barrier then 0 else o.value % 2 ^ 32),
  (Reg.SYN_BAR_CFG, fun s _ _ _ =>
    let o := s.obj (s.get Reg.SYN_OBJ_SEL_INDEX)
    o.localN + 4096 * o.parentPort + 65536 * b2n o.root),
  (Reg.SYN_BAR_CHILD, fun s _ _ _ =>
    let o := s.obj (s.get Reg.SYN_OBJ_SEL_INDEX)
    o.childMask + 65536 * o.cur.arrived)]

/-- The rest of them: light, fabric, training, checkpoint, integrity, hangs, security, capture and pins. -/
def views2 : List (Nat × (State → Party → Nat → Nat → Nat)) := [
  (Reg.OPT_STATUS, fun s _ _ _ => s.viewOpt),
  (Reg.OPT_RING_DATA, fun s _ _ _ =>
    let r := s.tuner s.ringSel
    r.heater + 65536 * (if r.st > 6 then 0 else r.st) + 2 ^ 19 * r.tone + 2 ^ 24 * (r.attempt % 4)),
  (Reg.OPT_RING_CAL, fun s _ _ _ => s.hCal s.ringSel),
  (Reg.SWT_STATUS, fun s _ _ w => withFld Reg.SWT_STATUS_TERM_ONLY (s.get Reg.FTB_STATUS_TERM_ONLY)
    (withFld Reg.SWT_STATUS_COLL_INFLIGHT s.collRunning w)),
  (Reg.SWT_ROUTE_DATA, fun s _ _ _ => sget (fun _ => 0) s.fab.routeNew (s.get Reg.SWT_ROUTE_SEL_INDEX)),
  (Reg.RPL_RING_FREE, fun s _ _ _ => s.ringFree),
  (Reg.RPL_SET_DATA0, fun s _ _ _ => s.setSel.step % 2 ^ 32),
  (Reg.RPL_SET_DATA1, fun s _ _ _ => s.setSel.first + 2 ^ 22 * s.setSel.state),
  (Reg.RPL_SET_DATA2, fun s _ _ _ => s.setSel.pages),
  (Reg.RPL_CKPT_PENDING, fun s _ _ _ => s.ckp.pending.length),
  (Reg.RPL_SHADOW_CFG, fun s _ _ w => withFld Reg.RPL_SHADOW_CFG_IN_USE (held 16 (ceilDiv s.ckp.shadow.length 16)) w),
  (Reg.INT_STATUS, fun s _ _ _ => held 16 s.integ.dups.length + 65536 * b2n (!s.integ.testing.isEmpty) + 131072 * held 7 s.integ.packs.length),
  (Reg.INT_HEALTH_DATA, fun s _ _ _ => s.viewHealth),
  (Reg.INT_DUPQ_FILL 0, fun s _ d _ => held 16 (ceilDiv (s.dupFill d) 1048576)),
  (Reg.HRC_STATUS, fun s _ _ w => s.viewHrc w),
  (Reg.SEC_STATUS, fun s _ _ w => withFld Reg.SEC_STATUS_HOST_VIEW (b2n s.tenantHost) w),
  (Reg.SEC_PWR_READ, fun s p _ _ => held 16 (if p == .host && s.tenantHost then s.pow.second else s.pow.last)),
  (Reg.SNP_STATUS, fun s _ _ w => withFld Reg.SNP_STATUS_BLOCKS (if s.on Reg.SNP_STATUS_VALID then snapBlocks.length else 0) w),
  (Reg.SNP_INDEX_DATA, fun s _ _ _ => s.viewSnap),
  (Reg.GLB_INPUT, fun s p _ w => if p == .host && s.tenantHost then 0 else w)]

/-- A register row's counters rounded for the tenant (R462): every field but the high half of a pair. -/
def coarseWord (r : Reg.Row) (w : Nat) : Nat :=
  if r.name.endsWith "_HI" then w
  else r.fields.foldl (fun v f => setBits v f.lo f.w (bitsOf v f.lo f.w / 4096 * 4096)) w

/-- Write-only fields read 0 (R13). -/
def hideWo (r : Reg.Row) (w : Nat) : Nat :=
  r.fields.foldl (fun v f => if f.acc == .wo then setBits v f.lo f.w 0 else v) w

/-- A register of a mailbox channel of which the reader is no endpoint: it reads 0 (R206). -/
def State.mbxForeign (s : State) (p : Party) (a : Nat) : Bool :=
  let n := (a - 0xB00000) / 0x20
  let who := s.mbxIdentity p n
  0xB00000 ≤ a && a < 0xB00400 && who != s.get (Reg.MBX_CH_CFG_E0 n) && who != s.get (Reg.MBX_CH_CFG_E1 n)

/-- What a party's read of a BAR0 offset returns: 0 outside a defined register (R499). -/
def State.readReg (s : State) (p : Party) (addr : Nat) : Word :=
  if 0x980000 ≤ addr && addr < 0xA00000 then (if addr % 4 = 0 then BitVec.ofNat 32 (s.viewDump (addr - 0x980000)) else 0)
  else
    let a := s.regKey addr
    match Reg.rowAt a with
    | none => 0
    | some r =>
      if latchedReg r.base || (Reg.SUB_PROG_DATA 1 ≤ a && a ≤ Reg.SUB_PROG_DATA 7) then s.latched a
      else if s.mbxForeign p a then 0
      else
        let w := (s.reg a).toNat
        let v := hideWo r (match (views ++ views2).find? fun e => e.1 == r.base with
          | some e => e.2 s p (r.index a) w
          | none => w)
        BitVec.ofNat 32 (if Reg.isCounter r && p == .host && s.tenantHost then coarseWord r v else v)

end Sys2Proof.Machine
end

