-- ==== Sys2Proof/WellFormed.lean ====
section
/-! DEFINITION. Which commands are well formed: the bounds of operands that their types do not give. A command that is not
well formed is none that the module can meet. -/
namespace Sys2Proof

/-- Bytes of a cell's payload (R271). -/
def payloadMax : Nat := 24576

/-- A PA has 40 bits (R134). -/
def paBound : Nat := 2 ^ 40

def MemErr.wf (e : MemErr) : Bool := (e.ce ++ e.ue ++ e.chk ++ e.par).all (· < paBound)

/-- A register address lies in BAR0, 64 MiB, and is a multiple of 4 (R11, R499). -/
def regAddrOk (a : Nat) : Bool := a < 0x4000000 && a % 4 == 0

/-- A frame tick's readings name each ring, each cartridge and each descriptor ring at most once (R173, R239, R243). -/
def TickEnv.wf (e : TickEnv) : Bool :=
  (e.polls.map (·.ring)).Nodup && (e.rings.map (·.ring)).Nodup && (e.lasers.map (·.cart)).Nodup && e.ringErr.wf

/-- A cell carries its LENGTH of payload, one check word per 4 KiB block (R271, R341). -/
def Cell.wf (c : Cell) : Bool := c.payload.length == c.length.toNat && c.payload.length ≤ payloadMax && c.bchk.length ≤ 6

/-- A beacon names a source cartridge for each of the 18 wavelengths, 31 for none (R256). -/
def Beacon.wf (b : Beacon) : Bool := b.sources.length == 18 && b.sources.all fun c => c.toNat < 22 || c.toNat == 31

/-- A frame of one ring holds each tone once (R240). -/
def tonesOk (l : List Tone) : Bool := (l.map (·.cart)).Nodup

/-- A debug access stays inside its memory (R464). -/
def DebugTarget.wf : DebugTarget → Bool
  | .memory pa n => pa.toNat + n ≤ paBound
  | .scratchpad _ a n => a.toNat + n ≤ 0x400000
  | .tile _ _ => true

/-- A page record comes with its page of 65,536 bytes, another record with none (R404, R408). -/
def pageOk (page : List Byte) : Bool := page.length == 0 || page.length == 65536

/-- The operand bounds of a command. -/
def Instr.wf : Instr → Bool
  | .frameTick e => e.wf
  | .registerWrite _ a _ => regAddrOk a.toNat
  | .mma _ _ e _ | .dma _ e _ | .update _ e _ | .digest _ e _ | .coll _ e | .readReqServe _ _ e | .ckptPageCopy e _ => e.wf
  | .post _ _ _ e | .gclaim _ _ _ e | .descriptorFetch _ _ e | .descriptorComplete _ _ e | .intakeDone _ _ e => e.wf
  | .cellReceive _ _ c _ => c.wf
  | .beaconReceive _ b => b.wf
  | .toneCheckEnd _ l => tonesOk l
  | .debugMemoryRead t | .debugMemoryWrite t _ => t.wf
  | .restoreRecord _ page => pageOk page
  | .internalLinkStall _ | .heartbeatCheck _ => true
  | .entdaa a | .setdasa a => a.toNat != 0
  | _ => true

end Sys2Proof
end

