-- ==== Sys2Proof/Tests/Slice0.lean ====
section
/-! SUPPORT. Tests. Each check of WellFormed refuses a term that breaks it; a witness for the hypotheses of each statement,
clause by clause; and small single-step results whose expected values come from the spec's tables and worked examples. -/
namespace Sys2Proof.Tests
open Sys2Proof.Machine
-- The witnesses are evaluated one after another: each holds a whole machine state.
set_option Elab.async false


/-! ### Well-formedness -/

def cell1 : Cell :=
  { type := 0, flags := 0, slice := 0, dest := 1, src := 0, vcid := 0, epoch := 0, gen := 0, lseq := 0, hops := 0, key := 0, length := 1, xfer := 0
    addr := 0, index := 0, group := 0, tensor := 0, birth := 0, nonce := 0, payload := [7], bchk := [] }
def rx1 : RxEnv := { errs := [], markers := [], parityOk := true }
def tick1 : TickEnv :=
  { polls := [], ckptCi := 0, flogCi := 0, rings := [], lasers := [], watts := 0, vin := 0, iin := 0, trigHigh := false, trigLow := true }
def beacon1 : Beacon := { hops := 0, src := 1, port := 0, slice := 0, bypassOpen := false, txSpare := 0, sources := List.replicate 18 31 }
def farErr : MemErr := { ce := [2 ^ 40], ue := [], chk := [] }
def noErr : MemErr := { ce := [], ue := [], chk := [] }
def ring17 : RingName := ⟨0, false, 17⟩

theorem test_wf_memory_error : (Instr.digest 0 noErr none).wf = true ∧ (Instr.digest 0 farErr none).wf = false
    ∧ (Instr.post 0 0 0 farErr).wf = false ∧ (Instr.intakeDone 0 [] farErr).wf = false := by decide
theorem test_wf_register_address :
    (Instr.registerWrite .host 0x3FFFFFC 0).wf = true ∧ (Instr.registerWrite .host 0x4000000 0).wf = false
      ∧ (Instr.registerWrite .host 2 0).wf = false := by decide
theorem test_wf_tick : (Instr.frameTick tick1).wf = true
    ∧ (Instr.frameTick { tick1 with polls := [⟨3, 0, 0⟩, ⟨3, 1, 0⟩] }).wf = false
    ∧ (Instr.frameTick { tick1 with rings := [⟨ring17, 0, 0⟩, ⟨ring17, 1, 0⟩] }).wf = false
    ∧ (Instr.frameTick { tick1 with lasers := [⟨3, 0⟩, ⟨3, 1⟩] }).wf = false
    ∧ (Instr.frameTick { tick1 with ringErr := farErr }).wf = false := by decide
theorem test_wf_cell : (Instr.cellReceive 0 0 cell1 rx1).wf = true ∧ (Instr.cellReceive 0 0 { cell1 with length := 2 } rx1).wf = false
    ∧ (Instr.cellReceive 0 0 { cell1 with bchk := List.replicate 7 0 } rx1).wf = false := by decide
theorem test_wf_beacon : (Instr.beaconReceive 0 beacon1).wf = true
    ∧ (Instr.beaconReceive 0 { beacon1 with sources := List.replicate 18 22 }).wf = false
    ∧ (Instr.beaconReceive 0 { beacon1 with sources := [] }).wf = false := by decide
theorem test_wf_tones : (Instr.toneCheckEnd ring17 [⟨0, 0⟩, ⟨1, 0⟩]).wf = true ∧ (Instr.toneCheckEnd ring17 [⟨1, 0⟩, ⟨1, 5⟩]).wf = false := by
  decide
theorem test_wf_debug : (Instr.debugMemoryRead (.memory 0 64)).wf = true ∧ (Instr.debugMemoryRead (.memory 0xFFFFFFFFFF 2)).wf = false
    ∧ (Instr.debugMemoryRead (.scratchpad 0 0x3FFFFF 2)).wf = false := by decide
theorem test_wf_restore : (Instr.restoreRecord 0 []).wf = true ∧ (Instr.restoreRecord 0 [1]).wf = false := by decide
theorem test_wf_parity_error : (Instr.coll 0 noErr).wf = true ∧ (Instr.coll 0 { noErr with par := [2 ^ 40] }).wf = false := by decide
theorem test_wf_i3c_address : (Instr.entdaa 8).wf = true ∧ (Instr.entdaa 0).wf = false ∧ (Instr.setdasa 0).wf = false := by decide

/-! ### States for the witnesses -/

/-- A state with fields set. -/
def setAll (s : State) (l : List (Reg.Fld × Nat)) : State := l.foldl (fun t f => t.put f.1 f.2) s

/-- A number of n bytes at a PA. -/
def natTo (s : State) (pa n v : Nat) : State := s.storeAt pa (leBytes n v)

/-- Context 0 ACTIVE with a page table that maps VA 0 to the page at PA 0x40000, readable and writable. -/
def ctx0 : State :=
  natTo (natTo (setAll State.reset [(Reg.SUB_CTX_CTRL_STATE 0, 1), (Reg.MEM_PT_BASE_LO_VALID 0, 1), (Reg.MEM_PT_BASE_LO_BASE_LO 0, 1)])
    0x20000 8 0x60001) 0x60000 8 0x40007

/-- The LAUNCH of context 0 that runs on core 0, as ring 0's first descriptor. -/
def launch0 : Op :=
  { ring := 0, idx := 0, seq := 0, opc := 1, ctx := 0, gen := 1, vcid := 0, desc := 0, budget := 8, order := 0, issued := true, cores := [0], coresLeft := [0] }

/-- Core 0 runs `launch0`, with synchronisation enabled. -/
def run0 : State :=
  let s := setAll ctx0 [(Reg.SYN_CTRL_ENABLE, 1), (Reg.SUB_RING_CFG_ENABLE 0, 1)]
  { s with sub := { s.sub with ops := [launch0] }, cores := [(0, { launch := some (0, 0) })] }

theorem witness_running : run0.running 0 = some launch0 ∧ State.reset.running 0 = none ∧ run0.canon = true := by decide +kernel

/-! ### Witnesses: queue, registers, memory -/

theorem witness_StepRunsFrontCommand : ({ State.reset with pending := [.commit 0] } : State).pending = [.commit 0] := by decide
/-- The next state of an outcome. -/
def nextOf (o : Host.Outcome State Fault Refusal) : Option State := match o with
  | .next t => some t
  | _ => none
theorem witness_StepKeepsCanonicalForm :
    State.reset.canon = true ∧ nextOf (step { State.reset with pending := [.commit 0] }) = some State.reset := by decide +kernel
theorem witness_FieldWriteReadsBack : State.reset.canon = true ∧ (Reg.SYN_CTRL_ENABLE).lo + (Reg.SYN_CTRL_ENABLE).w ≤ 32
    ∧ (Reg.SYN_CTRL_ENABLE).reg ≠ (Reg.SWT_CTRL_ENABLE).reg := by decide +kernel
/-- A poisoned granule of 64 bytes at 0x40000, of which a store covers one byte. -/
def poisoned0 : State := { ctx0 with poison := [0x40000] }
theorem witness_StoreObeysPoison : poisoned0.canon = true ∧ (poisonUnit 0x40000).1 ∈ poisoned0.partialPoison [(0x40000, 1)]
    ∧ (poisonUnit 0x50000).1 ∉ poisoned0.partialPoison [(0x50000, 1)] ∧ (∀ c ∈ ([(0x40000, 1)] : List Host.Cell), c.1 ≠ 0x40001)
    ∧ checkedBlock 0x40001 = none ∧ checkedBlock (checkAt 0x1000 + 3) = some 0x1000 ∧ coversBlock [(0, 1)] 0x1000 = false
    ∧ (poisonUnit (checkAt 0x1000)).1 ∉ poisoned0.partialPoison [(checkAt 0x1000, 1)]
    ∧ (∀ k < 4, checkedBlock (checkAt 0x1000 + k) = some 0x1000) := by decide +kernel
theorem witness_StoreObeysPoison_block : coversBlock ((List.range 4096).map fun k => (0x1000 + k, 0)) 0x1000 = true := by
  simp [coversBlock]
theorem witness_VirtualWriteTranslates :
    (ctx0.writeVa 0 0xFFFF [1]).isOk = true ∧ (ctx0.writeVa 0 0xFFFF [1, 2]).isOk = false ∧ ctx0.xlate 0 0xFFFF true = some 0x4FFFF := by
  decide +kernel
theorem witness_Mailboxes :
    let s : State := { State.reset with sub := { chans := [(0, { to0 := [(7, 0x2000)], to1 := List.replicate 8 (1, 0x1000) })] } }
    State.reset.get (Reg.MBX_CH_CFG_E0 0) = 0x1000 ∧ State.reset.get (Reg.MBX_CH_CFG_E1 0) = 0x2000 ∧ (State.reset.chan 0).to1.length < 8
      ∧ (s.chan 0).to1.length = 8 ∧ (s.chan 0).to0 = [(7, 0x2000)] ∧ (State.reset.chan 0).to0 = [] ∧ (State.reset.chan 0).to1 = []
      ∧ (State.reset.put (Reg.MBX_CH_WAKE_IRQ_EN 0) 1).on (Reg.MBX_CH_WAKE_IRQ_EN 0) = true ∧ (State.reset.chan 0).irqSent = false := by
  decide +kernel
theorem witness_Mailboxes_full_inbound :
    let s : State := { State.reset with sub := { chans := [(0, { to0 := List.replicate 8 (1, 0x2000) })] } }
    (s.chan 0).to0.length = 8 := by decide +kernel

/-! ### Witnesses: core sequencers -/

/-- Context 0 names counter 9 as identifier 5 (open to remote signals), barrier 10 as 6; the table lies at 0x80000. -/
def sync0 : State :=
  let s := natTo (natTo (setAll run0 [(Reg.SYN_CTX_XT_LO_VALID 0, 1), (Reg.SYN_CTX_XT_LO_BASE_LO 0, 2)]) 0x80014 4 0x9000D) 0x80018 4 0xA0003
  (s.setObj 9 { value := 5 }).setObj 10 { barrier := true, localN := 1 }

theorem witness_NothingToRun : State.reset.pending = [] ∧ seqCore (.commit 0) = some 0 ∧ State.reset.running 0 = none := by decide +kernel
theorem witness_CoreControlWords : run0.running (0 : Fin 144).val = some launch0 := by decide +kernel
theorem witness_SignalFromACore :
    let t := sync0.stepped 0
    let full : State := { sync0 with syn := { sync0.syn with remotes := List.replicate 1024 { tag := 0, ring := 0, idx := 0, dest := 1, sentTick := 0 } } }
    let off := sync0.put Reg.SYN_CTRL_ENABLE 0
    let hurt : State := { sync0 with poison := [spBase + 8] }
    off.synOn = false ∧ off.running 0 = some launch0 ∧ hurt.running 0 = some launch0 ∧ hurt.synOn = true
      ∧ ((List.range 8).map fun k => spAddr 0 (8 + k)).find? (hurt.stepped 0).poisoned = some (spBase + 8) ∧ t.xtPoison 0 6 = none
      ∧ (({ sync0 with poison := [0x80000] } : State).stepped 0).xtObj 0 6 false = none
      ∧ ((({ sync0 with poison := [0x80000] } : State).stepped 0).xtPoison 0 6).isSome = true
      ∧ (∀ pa ∈ (List.range 8).map fun k => spAddr 0 k, t.poisoned pa = false)
      ∧ sync0.synOn = true ∧ sync0.running 0 = some launch0 ∧ t.xtObj 0 5 false = some 9 ∧ t.xtObj 0 6 false = none ∧ (1 : Nat) ≠ t.moduleId
      ∧ t.remoteFree = true ∧ (full.stepped 0).remoteFree = false ∧ full.running 0 = some launch0 ∧ t.moduleId = 0
      ∧ (t.remoteCheck launch0.vcid (t.get (Reg.SYN_CTX_EPOCH_EPOCH 0)) 5).isOk = true := by decide +kernel
theorem witness_CoreWaits :
    let t := sync0.stepped 0
    let b := t.obj 10
    sync0.running 0 = some launch0 ∧ sync0.synOn = true ∧ (sync0.put Reg.SYN_CTRL_ENABLE 0).synOn = false
      ∧ (sync0.put Reg.SYN_CTRL_ENABLE 0).running 0 = some launch0
      ∧ t.xtObj 0 5 false = some 9 ∧ 5 ≤ (t.obj 9).value ∧ (t.obj 9).value < 6 ∧ counterMax < (0x8000000000000000#64).toNat
      ∧ t.xtObj 0 6 true = some 10 ∧ b.broken = false ∧ b.slot.isSome = true ∧ b.fits 0 = true
      ∧ ({ b with localN := 0 } : SyncObj).slot = none ∧ ({ b with cur := { b.cur with op := some 1 } } : SyncObj).fits 0 = false
      ∧ ({ b with broken := true } : SyncObj).broken = true := by decide +kernel
/-- What a translation or a store gives. -/
def got (x : Except Nat (List Nat)) : List Nat := match x with
  | .ok l => l
  | .error _ => []
def stored (x : Stored) : Nat := match x with
  | .ok _ => 0
  | .stop _ => 1
  | .wait => 2
def readKind (x : ReadErr) : Nat := match x with
  | .none => 0
  | .ue _ => 1
  | .chk _ => 2
  | .parity _ => 3
/-- The page at VA of context 0 belongs to a checkpoint that still has to copy it, and another core's write comes first. -/
def copyWaits (s : State) (va : Nat) : State :=
  let t := natTo (natTo (setAll s [(Reg.RPL_CKPT_TAB_LO_VALID, 1), (Reg.RPL_CKPT_TAB_LO_PA_LO, 96), (Reg.RPL_CKPT_TAB_HI_COUNT, 1),
    (Reg.RPL_SHADOW_CFG_PAGES, 1)]) 0x180000 8 (1 + va)) 0x180008 3 1
  { t with cores := t.cores ++ [(5, { launch := some (0, 0) })], ckp := { t.ckp with pending := [0], waits := [(.core 5, false)] } }
def postState : State :=
  setAll run0 [(Reg.SUB_RING_CFG_LOC 1, 1), (Reg.SUB_RING_CFG_ENABLE 1, 1), (Reg.SUB_RING_CFG_SIZE_LOG2 1, 4)]
theorem witness_PostADescriptor :
    let t := postState.stepped 0
    let full := (postState.setRing 1 { piOld := 16 }).stepped 0
    let pas := (List.range 64).map fun k => spAddr 0 k
    let hurt : State := { t with poison := [spBase] }
    let bus : MemErr := { noErr with par := [spBase] }
    let out : MemErr := { noErr with par := [0x40000] }
    let lost : State := { t with mem := [] }
    let dst := got (t.xlateRun 0 (t.ringBase 1) 64 true)
    let store (u : State) (e : MemErr) : Nat := stored (u.storeFor (.core 0) launch0 1 0 (u.ringBase 1) (dst.zip (List.replicate 64 0)) e)
    postState.running 0 = some launch0 ∧ t.ringCtx 1 = launch0.ctx ∧ t.on (Reg.SUB_RING_CFG_LOC 1) = true ∧ t.on (Reg.SUB_RING_CFG_ENABLE 1) = true
      ∧ sub32 (t.ring 1).piOld (t.get (Reg.SUB_RING_CI_CI 1)) < t.ringSize 1 ∧ t.heldPosts 1 = []
      ∧ (postState.setRing 1 { piOld := 16 }).running 0 = some launch0
      ∧ full.ringSize 1 ≤ sub32 (full.ring 1).piOld (full.get (Reg.SUB_RING_CI_CI 1)) ∧ full.ringCtx 1 = launch0.ctx
      ∧ full.on (Reg.SUB_RING_CFG_LOC 1) = true ∧ t.on (Reg.SUB_RING_CFG_LOC 2) = false
      ∧ readKind ((t.meetErrs (some 0) pas.contains noErr).readErr 0 pas noErr) = 0
      ∧ readKind ((hurt.meetErrs (some 0) pas.contains noErr).readErr 0 pas noErr) = 1
      ∧ readKind ((t.meetErrs (some 0) pas.contains bus).readErr 0 pas bus) = 3
      ∧ dst.length = 64 ∧ (lost.xlateRun 0 (lost.ringBase 1) 64 true).isOk = false ∧ store t noErr = 0 ∧ store t out = 1 := by decide +kernel
theorem witness_PostADescriptor_wait :
    let t := (copyWaits postState 0).stepped 0
    (copyWaits postState 0).running 0 = some launch0
      ∧ stored (t.storeFor (.core 0) launch0 1 0 0 [(0x40000, 0)] noErr) = 2 := by decide +kernel
theorem witness_LaunchEndsOnACore :
    let q := { launch0 with coresLeft := [] }
    let t : State := { run0 with sub := { run0.sub with ops := [q] } }
    t.op? 0 0 = some q ∧ q.opc = 1 ∧ q.issued = true ∧ q.fin = none ∧ q.coresLeft = [] ∧ q.remote = 0 ∧ run0.op? 0 0 = some launch0
      ∧ launch0.coresLeft ≠ [] := by decide +kernel
def claimState : State :=
  natTo (setAll run0 [(Reg.RPL_STEP_CTRL_ENABLE 0, 1), (Reg.RPL_GRAD_BASE_LO_PA_LO 0, 1), (Reg.RPL_GRAD_BASE_LO_VALID 0, 1),
    (Reg.RPL_GRAD_BASE_HI_COUNT 0, 1)]) 0x40000 8 1
theorem witness_GradientClaim :
    let t := claimState.stepped 0
    let later := (claimState.put (Reg.RPL_STEP_ATTEMPT_ATTEMPT 0) 1).stepped 0
    let held := (claimState.modCtx 0 fun x => { x with claims := [0] }).stepped 0
    let pas := (List.range 32).map fun k => 0x40000 + k
    let hurt : State := { t with poison := [0x40000] }
    let bus : MemErr := { noErr with par := [0x40000] }
    let chk : MemErr := { noErr with chk := [0x40000] }
    let cells := cellsAt 0x4000C (List.replicate 20 0)
    (held.ctx 0).claims.contains 0 = true ∧ held.natAt 0x40010 8 = held.stepNum 0
      ∧ held.natAt 0x40018 4 = held.get (Reg.RPL_STEP_ATTEMPT_ATTEMPT 0) ∧ held.natAt 0x4000C 2 = 0 ∧ (t.ctx 0).claims.contains 0 = false
      ∧ readKind (t.readErr 0 pas noErr) = 0 ∧ readKind (hurt.readErr 0 pas noErr) = 1 ∧ readKind (t.readErr 0 pas bus) = 3
      ∧ readKind (t.readErr 0 pas chk) = 2
      ∧ stored (t.storeFor (.core 0) launch0 1 0 0x40000 cells noErr) = 0 ∧ stored (t.storeFor (.core 0) launch0 1 0 0x40000 cells { noErr with par := [0x4000C] }) = 1
      ∧ bitOn (({ t with mem := [] } : State).natAt 0x40000 8) 0 = false
      ∧ claimState.running 0 = some launch0 ∧ (run0.stepped 0).on (Reg.RPL_STEP_CTRL_ENABLE 0) = false ∧ t.on (Reg.RPL_STEP_CTRL_ENABLE 0) = true
      ∧ t.get (Reg.RPL_GRAD_BASE_LO_PA_LO 0) * 2 ^ 18 = 0x40000 ∧ t.on (Reg.RPL_GRAD_BASE_LO_VALID 0) = true
      ∧ 0 < t.get (Reg.RPL_GRAD_BASE_HI_COUNT 0) ∧ ¬ 1 < t.get (Reg.RPL_GRAD_BASE_HI_COUNT 0) ∧ bitOn (t.natAt 0x40000 8) 0 = true
      ∧ later.natAt 0x40018 4 ≠ later.get (Reg.RPL_STEP_ATTEMPT_ATTEMPT 0) := by decide +kernel
theorem witness_GradientClaim_wait :
    let s := copyWaits claimState 0
    s.running 0 = some launch0 ∧ (s.stepped 0).on (Reg.RPL_STEP_CTRL_ENABLE 0) = true ∧ bitOn ((s.stepped 0).natAt 0x40000 8) 0 = true
      ∧ stored ((s.stepped 0).storeFor (.core 0) launch0 1 0 0x40000 (cellsAt 0x4000C (List.replicate 20 0)) noErr) = 2 := by decide +kernel

/-! ### Witnesses: vector and matrix -/

/-- One binary32 element at a scratchpad address. -/
def one32 (a : BitVec 32) : Sys2Proof.Stream :=
  { base := a, fmt := .fp32, scale := none, n0 := 1, n1 := 1, n2 := 1, n3 := 1, t0 := 1, t1 := 1, t2 := 1, t3 := 1 }
/-- A row of two. -/
def two32 (a : BitVec 32) : Sys2Proof.Stream := { one32 a with n0 := 2 }
def draw0 : Draw := ⟨0, 0, 0⟩
def add0 : Instr := .add 0 (one32 0) (one32 4) (one32 8) draw0 noErr

def ready (s : State) (q : VecCall) (o : Op) : Bool :=
  s.running q.core == some o && q.args.reason.isNone && q.errs.ce.isEmpty && q.errs.ue.isEmpty
    && (q.args.ins.flatMap streamBytes ++ q.outBytes).all fun a => !s.poisoned (q.pa a)
theorem ready_iff (s : State) (q : VecCall) (o : Op) (h : ready s q o = true) : s.vecReady q o := by
  simp only [ready, Bool.and_eq_true, beq_iff_eq, List.isEmpty_iff, Option.isNone_iff_eq_none, List.all_eq_true, Bool.not_eq_true'] at h
  exact ⟨h.1.1.1.1, h.1.1.1.2, h.1.1.2, h.1.2, h.2⟩

theorem witness_VectorInstructionsComplete : run0.canon = true ∧ (vecCall add0).isSome = true
    ∧ run0.vecReady (mapCall 0 [one32 0, one32 4] (one32 8) noErr clsElem) launch0 :=
  ⟨by decide +kernel, by decide +kernel, ready_iff _ _ _ (by decide +kernel)⟩
theorem witness_VectorInstructionsStop :
    (mapCall 0 [one32 0x3FFFFE] (one32 8) noErr clsElem).args.reason = some 5 ∧ (mapCall 0 [one32 0] (one32 8) noErr clsElem true).args.reason = some 10
      ∧ ([one32 0].flatMap streamBytes).find? (fun b => ({ run0 with poison := [spBase] } : State).poisoned (spBase + b)) = some 0 := by decide +kernel
theorem witness_ElementaryResults :
    let v (x : Sys2Proof.Num) (g : Bool) : Val := { num := x, snan := g }
    (v .nan true).num.isNan = true ∧ (v .nan true).snan = true ∧ (v Sys2Proof.Num.one false).num.isNan = false
      ∧ Sys2Proof.Num.cmp Sys2Proof.Num.one (.zero true) > 0 ∧ Sys2Proof.Num.cmp (.zero true) Sys2Proof.Num.one < 0
      ∧ Sys2Proof.Num.cmp (.zero true) (.zero false) = 0 ∧ (v (.zero true) false).num.isZero = true := by decide +kernel
theorem witness_ElementWritesItsResult : (elemResult add0).isSome = true ∧ (one32 8).block = false ∧ (one32 8).counts = [1, 1, 1, 1]
    ∧ (mapCall 0 [one32 0, one32 4] (one32 8) noErr clsElem).args.outs = [one32 8] := by decide +kernel
theorem witness_RowReductionResult :
    run0.vecReady (rowCall 0 1 [two32 0] [one32 8] (two32 0) (one32 8) noErr clsRed) launch0
      ∧ run0.vecReady (rowCall 0 1 [two32 0, two32 16] [one32 8] (two32 0) (one32 8) noErr clsRed) launch0
      ∧ run0.vecReady (rowCall 0 1 [two32 0] [one32 8, (one32 12).words] (two32 0) (one32 8) noErr clsRed) launch0 :=
  ⟨ready_iff _ _ _ (by decide +kernel), ready_iff _ _ _ (by decide +kernel), ready_iff _ _ _ (by decide +kernel)⟩
theorem witness_RandomResult :
    run0.vecReady (mapCall 0 [] (one32 8) noErr clsRand) launch0 ∧ run0.vecReady (mapCall 0 [one32 0] (one32 8) noErr clsRand) launch0
      ∧ run0.vecReady (mapCall 0 [one32 0] (one32 8) noErr clsRand false (some (one32 16))) launch0
      ∧ (∀ b ∈ streamBytes (one32 16), b ∉ streamBytes (one32 8))
      ∧ run0.vecReady (rowCall 0 1 [two32 0] [(one32 12).words] (two32 0) (one32 12).words noErr clsRand) launch0 :=
  ⟨ready_iff _ _ _ (by decide +kernel), ready_iff _ _ _ (by decide +kernel), ready_iff _ _ _ (by decide +kernel), by decide +kernel,
    ready_iff _ _ _ (by decide +kernel)⟩

/-- One pass of binary16 operands into tile 3. -/
def mma0 : MmaArgs :=
  { tile := 3, acc := false, exact := false, anchor := none, m := 1, n := 1, k := 2, aAddr := 0, aFmt := .fp16, aScale := none
    bAddr := 64, bFmt := .fp16, bScale := none, trans := false, keep := false }
def ard0 : ArdArgs := { tile := 3, m := 1, n := 1, fmt := .fp32, dst := 0, dstScale := none, red := .none, jb := 0, rs := 0, dr := draw0 }
/-- The LAUNCH uses tiles 0–3. -/
def launch4 : Op := { launch0 with desc := BitVec.ofNat 512 (0xF * 2 ^ 384) }
theorem witness_MmaRuns :
    let t := run0.stepped 0
    noErr.ce = [] ∧ noErr.ue = [] ∧ t.inExact 0 3 = false ∧ mma0.operandsOk = true ∧ { mma0 with m := 0 }.operandsOk = false
      ∧ inMask launch4 [3] = true ∧ inMask launch0 [3] = false
      ∧ (∀ b ∈ mmaReads mma0 (!t.keepApplies 0 mma0), t.poisoned (spBase + b) = false)
      ∧ (mmaReads mma0 true).find? (fun b => ({ t with poison := [spBase] } : State).poisoned (spBase + b)) = some 0
      ∧ { mma0 with tile := 0, exact := true, acc := true, aFmt := .e4m3, bFmt := .e4m3 }.operandsOk = true := by decide +kernel
theorem witness_MmaResult : run0.canon = true ∧ (run0.core 0).tiles = [] ∧ mma0.exact = false ∧ mma0.acc = false ∧ run0.inExact 0 3 = false
    ∧ (run0.acw 0).strict = false ∧ (run0.core 0).openSeqs = [] ∧ mma0.n.toNat ≤ 128 ∧ 0 < mma0.m.toNat ∧ 0 < mma0.n.toNat := by decide +kernel
theorem witness_ArdReadsOut :
    ard0.operandsOk = true ∧ { ard0 with m := 129 }.operandsOk = false ∧ inMask launch0 [3] = false
      ∧ inMask launch4 [3] = true ∧ run0.poison = [] ∧ run0.canon = true := by decide +kernel

/-! ### Witnesses: rings and descriptors -/

/-- Ring 0 of context 0, enabled, with one published descriptor. -/
def ring0 : State := (setAll ctx0 [(Reg.SUB_CTRL_DISPATCH_EN, 1), (Reg.SUB_RING_CFG_ENABLE 0, 1), (Reg.SUB_RING_CFG_SIZE_LOG2 0, 4)]).setRing 0 { piOld := 1 }
theorem witness_RingControl :
    State.reset.on (Reg.SUB_RING_CFG_ENABLE 0) = false ∧ State.reset.ringIdle 0 = true ∧ (1#32).getLsbD 0 = true
      ∧ ring0.on (Reg.SUB_RING_CFG_ENABLE 0) = true ∧ (0#32).getLsbD 0 = false ∧ ring0.ringActive 0 = true
      ∧ sub32 16 (ring0.ring 0).piOld ≤ ring0.ringSize 0 ∧ sub32 16 (ring0.get (Reg.SUB_RING_CI_CI 0)) ≤ ring0.ringSize 0
      ∧ ¬ sub32 17 (ring0.get (Reg.SUB_RING_CI_CI 0)) ≤ ring0.ringSize 0 ∧ State.reset.ringActive 0 = false := by decide +kernel
theorem witness_FetchAcceptsTheSequence :
    let d : Descriptor := BitVec.ofNat 512 4
    let s := ring0.put (Reg.SUB_RING_CFG_MAX_INFLIGHT 0) 1
    let near := ring0.put (Reg.SUB_RING_CFG_LOC 0) 1
    let full : State := { s with sub := { s.sub with ops := [launch0] } }
    ring0.ringActive 0 = true ∧ ring0.get (Reg.SUB_RING_CI_CI 0) ≠ (ring0.ring 0).piOld ∧ (ring0.ring 0).blocked = false
      ∧ ring0.inflightFull 0 = false ∧ (match ring0.slotOf 0 d noErr with | .ok x => x.2 == d | .error _ => false) = true ∧ descBytes d 8 8 = (ring0.seqBase 0 + 0) % 2 ^ 64
      ∧ descBytes (BitVec.ofNat 512 (2 ^ 64)) 8 8 ≠ (ring0.seqBase 0 + 0) % 2 ^ 64 ∧ full.inflightFull 0 = true
      ∧ (match ({ near with mem := [] } : State).slotOf 0 d noErr with | .ok _ => false | .error _ => true) = true ∧ ring0.rejectReason 0 (BitVec.ofNat 512 7) = none ∧ ring0.discarding 0 = false ∧ descBytes (BitVec.ofNat 512 7) 0 1 ≠ 13 := by decide +kernel
theorem witness_BadDescriptorsAreRejected :
    let fence : Descriptor := BitVec.ofNat 512 7
    descBytes 0 0 1 = 0 ∧ 13 < descBytes (BitVec.ofNat 512 14) 0 1 ∧ flagsOk (BitVec.ofNat 512 0xFF07) = false
      ∧ (18, 6) ∈ reservedBytes 7 ∧ descBytes (fence + BitVec.ofNat 512 (2 ^ 144)) 18 6 ≠ 0 ∧ fieldsOk (BitVec.ofNat 512 (7 + 9 * 2 ^ 128)) = false
      ∧ descBytes (fence + BitVec.ofNat 512 (2 ^ 16)) 2 2 ≠ ring0.get (Reg.SUB_RING_CTX_VCID 0)
      ∧ ring0.rejectReason 0 (fence + BitVec.ofNat 512 (2 ^ 16)) = some (3, 0) := by decide +kernel
theorem witness_RingStallAndFrameOverrun :
    let s := ring0.setRing 0 { piOld := 1, fails := 16 }
    let o := { launch0 with frames := 8 }
    let t : State := { run0 with sub := { run0.sub with ops := [o] } }
    16 ≤ (s.ring 0).fails ∧ s.on (Reg.SUB_RING_STATUS_STALL 0) = false ∧ (ring0.ring 0).fails < 16 ∧ t.op? 0 0 = some o ∧ o.issued = true ∧ o.fin = none
      ∧ o.budget ≤ o.frames ∧ o.wdogExpired = false ∧ t.time.pos ≤ 4 ∧ run0.op? 0 0 = some launch0 ∧ launch0.frames < launch0.budget := by decide +kernel
/-- A LAUNCH of core 0 with tile 0 at the head of ring 0. -/
def head0 : Op := { launch0 with issued := false, cores := [], coresLeft := [], desc := BitVec.ofNat 512 (1 + 2 ^ 128 + 2 ^ 384) }
def queued0 : State := { ring0 with sub := { ring0.sub with ops := [head0] } }
/-- Core 0 runs a LAUNCH of ring 1 with the tiles of a mask. -/
def busy0 (tiles : Nat) : State :=
  { queued0 with
    sub := { queued0.sub with ops := [head0, { launch0 with ring := 1, desc := BitVec.ofNat 512 (1 + 2 ^ 128 + tiles * 2 ^ 384) }] }
    cores := [(0, { launch := some (1, 0) })] }
theorem witness_LaunchIsIssued :
    let die (n : Nat) : State := { queued0 with sub := { queued0.sub with ops := head0 :: List.replicate n { launch0 with ring := 1, dies := 1, opc := 2 } } }
    (die 16384).ready 0 1 = some head0 ∧ (die 16384).overlaps head0 = [] ∧ ((die 16384).launchCores head0).all (die 16384).coreFree = true
      ∧ (die 16384).dieFull (diesOf ((die 16384).launchCores head0)) = true ∧ queued0.ready 0 1 = some head0 ∧ queued0.overlaps head0 = [] ∧ (queued0.launchCores head0).all queued0.coreFree = true
      ∧ queued0.dieFull (diesOf (queued0.launchCores head0)) = false ∧ (busy0 2).ready 0 1 = some head0 ∧ (busy0 2).overlaps head0 = []
      ∧ ((busy0 2).launchCores head0).all (busy0 2).coreFree = false ∧ (busy0 1).ready 0 1 = some head0
      ∧ (((busy0 1).overlaps head0).find? fun e => e.2.ring != 0).isSome = true ∧ queued0.canon = true := by decide +kernel
theorem witness_CompletionRecordAndSignal :
    let o := { launch0 with fin := some (stDone, 0) }
    let f := { o with desc := BitVec.ofNat 512 (0x101 + 5 * 2 ^ 448 + 2 ^ 480) }
    let s : State := { sync0 with sub := { sync0.sub with ops := [o] } }
    let t : State := { sync0 with sub := { sync0.sub with ops := [f] } }
    s.op? 0 0 = some o ∧ o.flag 0 = false ∧ t.op? 0 0 = some f ∧ f.flag 0 = true
      ∧ s.nextFin 0 = some o ∧ ({ s with sub := { s.sub with ops := [{ o with fin := some (stRejected, 2) }] } } : State).nextFin 0 = some { o with fin := some (stRejected, 2) }
      ∧ (sync0.nextFin 0).isSome = false ∧ ({ sync0 with sub := { sync0.sub with ops := [], sigDue := [f] } } : State).sigOf 0 0 = some f
      ∧ ({ sync0 with sub := { sync0.sub with ops := [], sigDue := [f] } } : State).op? 0 0 = none
      ∧ (t.mirrorDone f).xtObj 0 (descBytes f.desc 56 2) false = some 9 ∧ launch0.fin = none ∧ t.synOn = true
      ∧ (t.put Reg.SYN_CTRL_ENABLE 0).synOn = false := by decide +kernel

/-! ### Witnesses: synchronisation, engines, the step -/

/-- A descriptor with an opcode and numbers at byte offsets, as the operation at the head of ring 0. -/
def opOf (opc : Nat) (fields : List (Nat × Nat)) : Op :=
  { launch0 with
    opc := opc, issued := false, cores := [], coresLeft := []
    desc := BitVec.ofNat 512 (fields.foldl (fun n f => n + f.2 * 2 ^ (8 * f.1)) opc) }
/-- Ring 0 with operations in flight, over a state. -/
def withOps (s : State) (ops : List Op) : State :=
  let t := (setAll s [(Reg.SUB_CTRL_DISPATCH_EN, 1), (Reg.SUB_RING_CFG_ENABLE 0, 1), (Reg.SUB_RING_CFG_SIZE_LOG2 0, 4)]).setRing 0 { piOld := 1 }
  { t with sub := { t.sub with ops := ops }, cores := [] }

def waiter0 : Op := { launch0 with opc := 5 }

theorem witness_SyncDescriptors :
    let sig := opOf 4 [(16, 5), (24, 2)]
    let far := opOf 4 [(16, 5), (18, 0x8001)]
    let met := opOf 5 [(16, 5), (24, 5)]
    let unmet := opOf 5 [(16, 5), (24, 6)]
    let bar := opOf 6 [(16, 6)]
    let fence := { opOf 11 [(16, 1)] with order := 1 }
    let st (o : Op) : State := withOps sync0 [o]
    let full (o : Op) : State := withOps sync0 (o :: List.replicate 4096 waiter0)
    let back := opOf 4 [(16, 5), (18, 0x8000)]
    let crowd : State := { st far with syn := { (st far).syn with remotes := List.replicate 1024 { tag := 3, ring := 0, idx := 0, dest := 1, sentTick := 0 } } }
    (st sig).ready 0 4 = some sig ∧ (st sig).synOn = true ∧ descBytes sig.desc 18 2 < 0x8000 ∧ (st sig).xtObj 0 5 false = some 9
      ∧ (st far).ready 0 4 = some far ∧ bitOn (descBytes far.desc 18 2) 15 = true ∧ descBytes far.desc 18 2 % 8192 ≠ (st far).moduleId
      ∧ (st far).synOn = true ∧ (st far).remoteFree = true ∧ crowd.ready 0 4 = some far ∧ crowd.synOn = true ∧ crowd.remoteFree = false
      ∧ descBytes far.desc 18 2 % 8192 ≠ crowd.moduleId ∧ (st back).ready 0 4 = some back ∧ (st back).synOn = true
      ∧ bitOn (descBytes back.desc 18 2) 15 = true ∧ descBytes back.desc 18 2 % 8192 = (st back).moduleId
      ∧ ((st sig).put Reg.SYN_CTRL_ENABLE 0).synOn = false ∧ (st met).synOn = true ∧ (st unmet).synOn = true ∧ (st bar).synOn = true
      ∧ (full met).synOn = true ∧ (full bar).synOn = true
      ∧ (st met).ready 0 5 = some met ∧ (st met).waitersUsed < 4096 ∧ descBytes met.desc 24 8 ≤ ((st met).obj 9).value
      ∧ (st unmet).ready 0 5 = some unmet ∧ ((st unmet).obj 9).value < descBytes unmet.desc 24 8
      ∧ (full met).ready 0 5 = some met ∧ 4096 ≤ (full met).waitersUsed ∧ (full bar).ready 0 6 = some bar ∧ 4096 ≤ (full bar).waitersUsed
      ∧ (st bar).ready 0 6 = some bar ∧ (st bar).xtObj 0 6 true = some 10 ∧ ((st bar).obj 10).broken = false ∧ ((st bar).obj 10).slot.isSome = true
      ∧ ((st bar).obj 10).fits 0 = true
      ∧ (st fence).fenceOf 0 = none ∧ (st fence).ready 0 11 = some fence ∧ ((st fence).issue fence 0).fenceClear fence = true
      ∧ (withOps sync0 [waiter0, fence]).ready 0 11 = some fence ∧ (withOps sync0 [waiter0, fence]).fenceOf 0 = none
      ∧ ((withOps sync0 [waiter0, fence]).issue fence 0).fenceClear fence = false
      ∧ (st { fence with issued := true }).fenceOf 0 = some { fence with issued := true } ∧ (st { fence with issued := true }).fenceClear fence = true := by
  decide +kernel

def sync1 : SyncMsg :=
  { kind := 1, sense := false, payOp := 0, dest := 0, src := 1, slice := 0, vcid := 0, epoch := 0, object := 5, tag := 3, value := 1 }
theorem witness_RemoteSignals :
    let held : State := { sync0 with syn := { sync0.syn with remotes := [{ tag := 3, ring := 0, idx := 0, dest := 1, sentTick := 0 }] }, time := { sync0.time with ticks := 16 } }
    (sync0.put Reg.SYN_CTRL_ENABLE 0).synOn = false ∧ ({ sync1 with slice := 1 } : SyncMsg).slice.toNat ≠ sync0.get Reg.SWT_SLICE_TAG
      ∧ ({ held with time := { held.time with ticks := 0 } } : State).now < 0 + 16
      ∧ sync0.synOn = true ∧ sync1.slice.toNat = sync0.get Reg.SWT_SLICE_TAG ∧ (sync0.remoteCheck 0 0 5).isOk = true ∧ (sync0.remoteCheck 0 0 6).isOk = false
      ∧ (sync0.remoteCheck 0 1 5).isOk = false ∧ (held.remoteOf 3).isSome = true ∧ 0 + 16 ≤ held.now ∧ sync0.remoteOf 3 = none
      ∧ (sync0.obj 9).value + 1 ≤ counterMax ∧ counterMax < (sync0.obj 9).value + (2 ^ 63 - 1) := by decide +kernel
theorem witness_BarrierMessages :
    let m := { sync1 with object := 6 }
    let expired (b : Bool) : Op := { waiter0 with frames := 8, wait := some { obj := 9, vid := 5, thr := 9, barrier := b, wdog := 8 } }
    let st (o : Op) : State := withOps sync0 [o]
    sync0.synOn = true ∧ (sync0.barrierTarget m).isOk = true ∧ (sync0.barrierTarget { m with epoch := 1 }).isOk = false
      ∧ (sync0.barrierTarget sync1).isOk = false ∧ (sync0.obj 10).root = false ∧ (0 : Fin 16).val = (sync0.obj 10).parentPort ∧ m.sense = (sync0.obj 10).sense
      ∧ (sync0.put Reg.SYN_CTRL_ENABLE 0).synOn = false ∧ sync0.time.pos ≤ 4 ∧ { m with sense := true }.sense ≠ (sync0.obj 10).sense
      ∧ ((sync0.setObj 10 { barrier := true, root := true }).obj 10).root = true
      ∧ (sync0.obj 10).broken = false ∧ (1 : Fin 16).val ≠ (sync0.obj 10).parentPort ∧ (st (expired true)).op? 0 0 = some (expired true)
      ∧ (expired true).wdogExpired = true ∧ (st (expired false)).op? 0 0 = some (expired false) ∧ (expired false).wdogExpired = true := by decide +kernel

/-- 4 bytes from VA 0 to scratchpad 0 of core 0. -/
def dma0 : Op := opOf 2 [(17, 0x10), (40, 4)]
def dmaSt (o : Op) : State := withOps ctx0 [o]
/-- The block of an UPDATE at VA 0x1000: every array in the mapped page. -/
def updState (o : Op) : State :=
  natTo (natTo (natTo (natTo (natTo (withOps ctx0 [o]) 0x41008 8 0x2000) 0x41010 8 0x3000) 0x41018 8 0x4000) 0x41020 8 0x5000) 0x41028 8 0x6000
theorem witness_EngineDescriptors :
    let overlap := opOf 2 [(24, 0), (32, 2), (40, 4)]
    let x := (dmaSt dma0).engineOn
    let ends := x.dmaEnds dma0 none
    let crowd := withOps ctx0 (dma0 :: List.replicate 16384 { launch0 with ring := 1, dies := 1, opc := 2 })
    let half := { dma0 with issued := true, work := some {} }
    (dmaSt half).inWork 0 2 = some half ∧ (dmaSt dma0).inWork 0 2 = none ∧ (dmaSt dma0).ready 0 2 = some dma0 ∧ (dmaSt dma0).engineHeld dma0 = false
      ∧ (dmaSt dma0).dieFull (dmaDies dma0) = false
      ∧ crowd.inWork 0 2 = none ∧ crowd.ready 0 2 = some dma0 ∧ crowd.engineHeld dma0 = false ∧ crowd.dieFull (dmaDies dma0) = true
      ∧ x.shapePoison dma0 = none ∧ (x.shapeOf dma0).isOk = true
      ∧ ends.1.bytes.length = ends.2.bytes.length ∧ x.endsOverlap 0 ends.1 ends.2 = false ∧ ends.1.kind = 0 ∧ ends.2.kind = 1
      ∧ x.sealBreach 0 ends.1 ends.2 = false ∧ x.endsOverlap 0 (x.dmaEnds overlap none).1 (x.dmaEnds overlap none).2 = true := by decide +kernel
theorem witness_EngineDescriptors_move :
    let y := (dmaSt dma0).engineOn.issue dma0 1
    let z := y.meetRead dma0 [0x40000, 0x40001] noErr
    let src : DmaEnd := ⟨0, 0, [0, 1]⟩
    let dst : DmaEnd := ⟨0, 0, [64, 65]⟩
    src.kind ≠ 2 ∧ dst.kind = 0 ∧ dma0.work = none ∧ src.bytes.length = dst.bytes.length ∧ 0 < dst.bytes.length ∧ dst.bytes.length ≤ 4096
      ∧ (match y.endPas dma0.ctx src false with | .ok l => l == [0x40000, 0x40001] | .error _ => false) = true
      ∧ (match z.2 with | .none => true | _ => false) = true
      ∧ (match z.1.engineWrite { dma0 with units := 0 } (dst.bytes.zip ([0x40000, 0x40001].map z.1.paByte)) noErr with | .ok _ => true | _ => false) = true := by
  decide +kernel
/-- Two strided ends of another shape have different lengths; a shape outside the mapping cannot be read. -/
theorem witness_EngineDescriptors_shape :
    let uneven := opOf 2 [(1, 8), (17, 0x10), (40, 0x100)]
    let x := (natTo (natTo (dmaSt uneven) 0x40100 4 4) 0x40120 4 2).engineOn
    x.shapePoison uneven = none ∧ (match x.shapeOf uneven with
      | .ok shape => (x.dmaEnds uneven shape).1.bytes.length != (x.dmaEnds uneven shape).2.bytes.length
      | .error _ => false) = true := by decide +kernel
/-- Without pages of the input ring no PA lies in it. -/
theorem noRing (s : State) (h : s.get Reg.RPL_RING_CFG_PAGES = 0) (a : Nat) : s.inRing a = false := by
  simp [State.inRing, h]
/-- The walk of a page-0 address is that of address 0. -/
theorem xlate_page0 (s : State) (k : Nat) (wr : Bool) (h : k < 65536) (e : Pte) (hw : s.walk 0 0 = some e) (hr : e.read = true) (hx : e.write = true)
    (hp : e.page + 65536 ≤ nearEnd) (hg : ∀ a, s.inRing a = false) : s.xlate 0 k wr = some (e.page + k) := by
  have hk : s.walk 0 k = s.walk 0 0 := by
    have h1 : k / 65536 = 0 := Nat.div_eq_of_lt h
    have h2 : k / 2 ^ 30 = 0 := Nat.div_eq_of_lt (by omega)
    have h3 : k / 2 ^ 16 = 0 := Nat.div_eq_of_lt (by omega)
    have h4 : ¬ k ≥ 2 ^ 44 := by omega
    have h5 : s.walkTable 0 k = s.walkTable 0 0 := by simp only [State.walkTable, bitsOf, h2, h3, h4, Nat.zero_div, ge_iff_le]; rfl
    unfold State.walk State.heldPtes
    rw [h5, h1]
  have hl : e.page + k < nearEnd := by omega
  have hy : paExists (e.page + k) = true := by simp [paExists, hl]
  unfold State.xlate
  rw [hk, hw]
  cases wr <;> simp [hr, hx, hy, hg, Nat.mod_eq_of_lt h]
theorem xlateRun_page0 (s : State) (e : Pte) (hw : s.walk 0 0 = some e) (hr : e.read = true) (hx : e.write = true) (hp : e.page + 65536 ≤ nearEnd)
    (hg : ∀ a, s.inRing a = false) : s.xlateRun 0 0 65536 false = .ok ((List.range 65536).map fun k => e.page + k) := by
  have key : ∀ l : List Nat, (∀ k ∈ l, k < 65536) → l.foldr (fun k acc =>
      match s.xlate 0 (0 + k) false, acc with
      | some pa, .ok l => .ok (pa :: l)
      | none, _ => .error (0 + k)
      | _, .error e => .error e) (Except.ok [] : Except Nat (List Nat)) = .ok (l.map fun k => e.page + k) := by
    intro l
    induction l with
    | nil => exact fun _ => rfl
    | cons k l ih =>
      intro h
      rw [List.foldr_cons, ih fun j hj => h j (List.mem_cons_of_mem _ hj), Nat.zero_add, xlate_page0 s k false (h k List.mem_cons_self) e hw hr hx hp hg, List.map_cons]
  exact key _ fun k hk => List.mem_range.1 hk
/-- A read of near memory that no command lets meet an error, of a context that checks pages only, where nothing is poisoned. -/
theorem readErr_clean (s : State) (c : Nat) (pas : List Nat) (hp : s.poison = []) (hb : s.memx.badCheck = []) (hm : s.blockMode c = false) :
    s.readErr c pas noErr = .none := by
  have hf : pas.find? s.poisoned = none := List.find?_eq_none.2 fun x _ => by simp [State.poisoned, hp, hb]
  simp [State.readErr, State.readPoison, hf, hm, noErr]
theorem spWaits_near (s : State) (pas : List Nat) (h9 : ∀ p ∈ pas, memOf p ≠ 9) : s.spWaits pas = s := by
  have : (pas.filter fun pa => memOf pa == 9) = [] := List.filter_eq_nil_iff.2 fun p h => by simp [h9 p h]
  simp [State.spWaits, this, State.each, List.eraseDups, List.eraseDupsBy, List.eraseDupsBy.loop]
theorem meetRead_clean (s : State) (o : Op) (pas : List Nat) (h9 : ∀ p ∈ pas, memOf p ≠ 9) (hp : s.poison = []) (hb : s.memx.badCheck = [])
    (hm : s.blockMode o.ctx = false) : (s.meetRead o pas noErr).2 = .none := by
  unfold State.meetRead
  rw [spWaits_near s pas h9]
  exact readErr_clean _ _ _ hp hb hm
theorem engineRead_clean (s : State) (o : Op) (pas : List Nat) (h9 : ∀ p ∈ pas, memOf p ≠ 9) (hp : s.poison = []) (hb : s.memx.badCheck = [])
    (hm : s.blockMode o.ctx = false) : ∃ bs t, s.engineRead o pas noErr = .ok (bs, t) :=
  ⟨pas.map (s.meetRead o pas noErr).1.paByte, (s.meetRead o pas noErr).1, by simp only [State.engineRead, meetRead_clean s o pas h9 hp hb hm]⟩
/-- A DIGEST of the page at VA 0, into VA 0x1000. -/
def dig0 : Op := opOf 8 [(32, 1), (40, 0x1000)]
theorem witness_EngineDescriptors_digest :
    let half := { dig0 with issued := true, work := some {} }
    (dmaSt dig0).ready 0 8 = some dig0 ∧ (dmaSt dig0).inWork 0 8 = none ∧ (dmaSt dig0).engineHeld dig0 = false ∧ (dmaSt half).inWork 0 8 = some half
      ∧ descBytes dig0.desc 32 8 = 1 := by decide +kernel
/-- The same state, its context checked by pages. -/
def digSt : State := (dmaSt dig0).put (Reg.INT_CTX_CFG_MODE 0) 1
/-- The page at VA 0 of context 0 reads whole. -/
theorem page0_near : ∃ pas, digSt.xlateRun 0 0 65536 false = .ok pas ∧ ∀ p ∈ pas, memOf p ≠ 9 := by
  have hw : digSt.walk 0 0 = some ⟨0x40000, true, true, false, false⟩ := by decide +kernel
  have hg : ∀ a, digSt.inRing a = false := fun a => noRing _ (by decide +kernel) a
  refine ⟨_, xlateRun_page0 _ _ hw rfl rfl (by decide) hg, fun p h => ?_⟩
  obtain ⟨k, hk, rfl⟩ := List.mem_map.1 h
  have := List.mem_range.1 hk
  have hl : 0x40000 + k < nearEnd := by unfold nearEnd; omega
  simp only [memOf, hl, if_true]
  omega
theorem digestPage_ok (s t : State) (o : Op) (e : MemErr) (w : EngWork) (pas : List Nat) (bs : List Byte)
    (hp : s.xlateRun o.ctx (descBytes o.desc 24 8 + 65536 * w.done) 65536 false = .ok pas)
    (hr : s.engineRead { o with units := w.done } pas e = .ok (bs, t)) :
    s.digestPage o e w = .go t { w with done := w.done + 1, hashes := w.hashes ++ [pageHash bs] } := by
  unfold State.digestPage
  simp only
  rw [hp]
  simp only [hr]
theorem witness_EngineDescriptors_page :
    ∃ t v, digSt.digestPage dig0 noErr {} = .go t v ∧ v.done = 1 := by
  obtain ⟨pas, hp, h9⟩ := page0_near
  obtain ⟨bs, t, hr⟩ := engineRead_clean digSt { dig0 with units := 0 } _ h9 (by decide +kernel) (by decide +kernel) (by decide +kernel)
  have hv : descBytes dig0.desc 24 8 + 65536 * ({} : EngWork).done = 0 := by decide +kernel
  have hc : dig0.ctx = 0 := rfl
  exact ⟨t, _, digestPage_ok digSt t dig0 noErr {} pas bs (by rw [hv, hc]; exact hp) hr, rfl⟩
/-- A target-1 UPDATE of 128 elements. -/
def upd0 : Op := opOf 7 [(17, 1), (32, 128), (40, 0x1000)]
theorem witness_EngineDescriptors_update :
    let o := upd0
    let half := { o with issued := true, work := some {} }
    let s := updState o
    let b := updBlock ((List.range 128).map fun k => s.byteAt (0x41000 + k))
    s.inWork 0 7 = none ∧ s.ready 0 7 = some o ∧ s.engineHeld o = false ∧ (s.updRead o (descBytes o.desc 40 8) 128 noErr).isOk = true
      ∧ updAligned o b = true ∧ updBlockOk o b = true ∧ o.rule ≠ 4 ∧ s.on Reg.RPL_MIR_CLIENT_VALID = false
      ∧ (updState half).inWork 0 7 = some half ∧ updCount o = 128 ∧ b.result = 0 := by decide +kernel
theorem touchPages_none (s : State) (w : Writer) (h : s.ckptPages = []) (l : List Nat) : s.touchPages w l = .go (s.unwait w) := by
  induction l with
  | nil => rfl
  | cons p l ih => simp only [State.touchPages, State.touchPage, State.ckptIndex, h, List.findIdx?_nil]; exact ih
theorem storeFor_clean (s : State) (w : Writer) (o : Op) (k u a : Nat) (cells : List Host.Cell) (h9 : ∀ x ∈ cells, memOf x.1 ≠ 9) (hp : s.poison = [])
    (hm : s.blockMode o.ctx = false) (hk : s.ckptPages = []) : ∃ t, s.storeFor w o k u a cells noErr = .ok t := by
  have hw := spWaits_near s (cells.map (·.1)) fun p h => by
    obtain ⟨x, hx, rfl⟩ := List.mem_map.1 h
    exact h9 x hx
  exact ⟨_, by simp [State.storeFor, hw, noErr, State.writeCheck, hm, touchPages_none s w hk, State.partialPoison, State.unwait, State.modCkp, hp]; rfl⟩
theorem updGroup_go (s : State) (o0 : Op) (b : UpdBlock) (e : MemErr) (w : EngWork)
    (h1 : ((groupReads { o0 with units := w.done } b (updFirst { o0 with units := w.done } - b.base + 128 * w.done)).flatMap
      fun r => (List.range r.2).map fun i => r.1 + i).find? (fun a => (s.xlate ({ o0 with units := w.done } : Op).ctx a false).isNone) = none) :
    let o := { o0 with units := w.done }
    let q := updFirst o - b.base + 128 * w.done
    let u := (5, s.updUnit o b q)
    let runs := groupReads o b q
    let rr := s.meetRead o ((runs.flatMap fun r => (List.range r.2).map fun i => r.1 + i).filterMap fun a => s.xlate o.ctx a false) e
    rr.2 = .none →
      (∀ out : List (Nat × Byte), (∀ x ∈ out, x.1 < 65536) → ∃ v, rr.1.guardedWrite o u out e = .ok v) →
      (∀ rd, ∀ x ∈ (groupResult o b w.prog q rd).1, x.1 < 65536) →
      ∃ t x, s.updGroup o0 b e w = .go t x ∧ x.done = w.done + 1 := by
  intro o q u runs rr h2 hG ho
  obtain ⟨v, h3⟩ := hG _ (ho (runs.map fun r => (List.range r.2).filterMap fun i => (rr.1.xlate o.ctx (r.1 + i) false).map rr.1.paByte))
  unfold State.updGroup
  simp only [h1]
  rw [h2]
  simp only
  rw [h3]
  exact ⟨_, _, rfl, rfl⟩
/-- A group of a target-1 UPDATE whose addresses all lie in a page that translates goes on. -/
theorem updGroup_clean (s : State) (o : Op) (b : UpdBlock) (e : Pte) (hw : s.walk 0 0 = some e) (hr : e.read = true) (hx : e.write = true)
    (h9 : ∀ k < 65536, memOf (e.page + k) ≠ 9)
    (hl : e.page + 65536 ≤ nearEnd) (hg : ∀ a, s.inRing a = false) (hc : o.ctx = 0) (ht : o.target = 1) (hp : s.poison = [])
    (hb : s.memx.badCheck = []) (hm : s.blockMode 0 = false) (hk : s.ckptPages = [])
    (hv : ∀ x ∈ groupReads { o with units := 0 } b (updFirst { o with units := 0 } - b.base), x.1 + x.2 ≤ 65536)
    (ho : ∀ rd, ∀ x ∈ (groupResult { o with units := 0 } b [] (updFirst { o with units := 0 } - b.base) rd).1, x.1 < 65536) :
    ∃ t v, s.updGroup o b noErr {} = .go t v ∧ v.done = 1 := by
  have hvas : ∀ a ∈ (groupReads { o with units := 0 } b (updFirst { o with units := 0 } - b.base)).flatMap
      fun r => (List.range r.2).map fun i => r.1 + i, a < 65536 := by
    intro a h
    obtain ⟨r, h1, h2⟩ := List.mem_flatMap.1 h
    obtain ⟨i, h3, rfl⟩ := List.mem_map.1 h2
    have := List.mem_range.1 h3
    have := hv r h1
    omega
  have hc0 : ({ o with units := ({} : EngWork).done } : Op).ctx = 0 := hc
  have hX : ∀ (x : MemSt) (a : Nat) (wr : Bool), x.tlbKey = s.memx.tlbKey → x.tlb = s.memx.tlb → x.badCheck = s.memx.badCheck → a < 65536 →
      State.xlate { s with memx := x } 0 a wr = some (e.page + a) := by
    intro x a wr h1 h2 h3 h4
    refine xlate_page0 _ a wr h4 e ?_ hr hx hl hg
    rw [← hw]
    unfold State.walk State.heldPtes State.walkTable State.poisoned
    simp only [h1, h2, h3]
    rfl
  have hf : ((groupReads { o with units := 0 } b (updFirst { o with units := 0 } - b.base)).flatMap fun r => (List.range r.2).map fun i => r.1 + i).find?
      (fun a => (s.xlate ({ o with units := 0 } : Op).ctx a false).isNone) = none := List.find?_eq_none.2 fun a h => by
    rw [show ({ o with units := 0 } : Op).ctx = 0 from hc, hX s.memx a false rfl rfl rfl (hvas a h)]; simp
  have hn : ∀ p ∈ ((groupReads { o with units := 0 } b (updFirst { o with units := 0 } - b.base)).flatMap
      fun r => (List.range r.2).map fun i => r.1 + i).filterMap fun a => s.xlate ({ o with units := 0 } : Op).ctx a false, memOf p ≠ 9 := by
    intro p hpa
    obtain ⟨a, h1, h2⟩ := List.mem_filterMap.1 hpa
    rw [show ({ o with units := 0 } : Op).ctx = 0 from hc, hX s.memx a false rfl rfl rfl (hvas a h1)] at h2
    cases h2
    exact h9 a (hvas a h1)
  have hR := meetRead_clean s { o with units := 0 } _ hn hp hb (by rw [show ({ o with units := 0 } : Op).ctx = 0 from hc]; exact hm)
  have hS : (s.meetRead { o with units := 0 } (((groupReads { o with units := 0 } b (updFirst { o with units := 0 } - b.base)).flatMap
      fun r => (List.range r.2).map fun i => r.1 + i).filterMap fun a => s.xlate ({ o with units := 0 } : Op).ctx a false) noErr).1 = { s with memx := { s.memx with newUe := [] } } := by
    unfold State.meetRead
    rw [spWaits_near s _ hn]
    rfl
  have hG : ∀ w : List (Nat × Byte), (∀ x ∈ w, x.1 < 65536) → ∀ u, ∃ v,
      State.guardedWrite { s with memx := { s.memx with newUe := [] } } { o with units := 0 } u w noErr = .ok v := by
    intro w hwl u
    have h1 : w.find? (fun x => (State.xlate { s with memx := { s.memx with newUe := [] } } ({ o with units := 0 } : Op).ctx x.1 true).isNone) = none :=
      List.find?_eq_none.2 fun x h => by
        rw [show ({ o with units := 0 } : Op).ctx = 0 from hc, hX { s.memx with newUe := [] } x.1 true rfl rfl rfl (hwl x h)]; simp
    obtain ⟨v, h2⟩ := storeFor_clean { s with memx := { s.memx with newUe := [] } } (.op o.ring o.idx) { o with units := 0 } u.1 u.2 ((w.headD (0, 0)).1)
      (w.filterMap fun x => (State.xlate { s with memx := { s.memx with newUe := [] } } ({ o with units := 0 } : Op).ctx x.1 true).map fun pa => (pa, x.2))
      (fun y hy => by
        obtain ⟨x, h3, h4⟩ := List.mem_filterMap.1 hy
        rw [show ({ o with units := 0 } : Op).ctx = 0 from hc, hX { s.memx with newUe := [] } x.1 true rfl rfl rfl (hwl x h3)] at h4
        cases h4
        exact h9 x.1 (hwl x h3)) hp (by rw [show ({ o with units := 0 } : Op).ctx = 0 from hc]; exact hm) hk
    refine ⟨v, ?_⟩
    unfold State.guardedWrite
    rw [if_neg (by rw [show ({ o with units := 0 } : Op).target = 1 from ht]; decide)]
    simp only [State.writeFor, h1]
    rw [h2]
  have hT : ∀ st : State, st = { s with memx := { s.memx with newUe := [] } } → ∀ w : List (Nat × Byte), (∀ x ∈ w, x.1 < 65536) → ∀ u, ∃ v,
      st.guardedWrite { o with units := 0 } u w noErr = .ok v := by
    rintro st rfl
    exact hG
  exact updGroup_go s o b noErr {} hf hR (fun w h => hT _ hS w h _) ho
theorem put_lt (a n : Nat) (bs : List Byte) (h : bs.length ≤ n) : ∀ x ∈ bs.mapIdx (fun k y => (a + k, y)), x.1 < a + n := by
  intro x hx
  obtain ⟨k, hk, rfl⟩ := List.mem_mapIdx.1 hx
  show a + k < a + n
  omega
theorem flat4 (l : List Sys2Proof.Num) : (l.flatMap fun w => leBytes 4 (code32 w)).length = 4 * l.length := by
  induction l with
  | nil => rfl
  | cons x l ih => rw [List.flatMap_cons, List.length_append, ih]; simp [leBytes]; omega
theorem momentEncode_length (l : List Sys2Proof.Num) : (momentEncode l).1.length = l.length := by
  unfold momentEncode
  split
  · exact List.length_map _
  · split
    · exact List.length_map _
    · simp only
      split
      · exact List.length_map _
      · split <;> exact List.length_map _
/-- The bytes that a group of an UPDATE without second moments and copies writes lie in its arrays. -/
theorem groupResult_lt (o : Op) (b : UpdBlock) (q : Nat) (rd : List (List Byte)) (hk : keepsS o.rule = false) (hw : b.work = 0) (hs : b.serve = 0)
    (h1 : b.master + 4 * q + 512 ≤ 65536) (h2 : b.mcode + q + 128 ≤ 65536) (h3 : b.mscale + q / 128 * 4 + 2 ≤ 65536) :
    ∀ x ∈ (groupResult o b [] q rd).1, x.1 < 65536 := by
  intro x hx
  simp only [groupResult, hk, hw, hs, bne_self_eq_false, Bool.false_eq_true, if_false, List.append_nil, List.mem_append] at hx
  rcases hx with (hx | hx) | hx
  · exact Nat.lt_of_lt_of_le (put_lt _ 512 _ (by rw [flat4]; simp) x hx) h1
  · exact Nat.lt_of_lt_of_le (put_lt _ 128 _ (by rw [List.length_map, momentEncode_length]; simp) x hx) h2
  · exact Nat.lt_of_lt_of_le (put_lt _ 2 _ (by simp [leBytes]) x hx) h3
/-- The UPDATE of target 1 and rule 2, whose context is checked by pages. -/
def upd2 : Op := opOf 7 [(16, 2), (17, 1), (32, 128), (40, 0x1000)]
def updSt : State := (((updState upd2).put (Reg.INT_CTX_CFG_MODE 0) 1).issue upd2 0).engineOn
def updB : UpdBlock := updBlock ((List.range 128).map fun k => updSt.byteAt (0x41000 + k))
theorem witness_EngineDescriptors_group : (∃ t v, updSt.updGroup upd2 updB noErr {} = .go t v ∧ v.done = 1) ∧ updCount upd2 = 128 ∧ updB.result = 0 := by
  have hw : updSt.walk 0 0 = some ⟨0x40000, true, true, false, false⟩ := by decide +kernel
  refine ⟨updGroup_clean updSt upd2 updB _ hw rfl rfl ?_ (by decide) (noRing _ (by decide +kernel)) rfl (by decide +kernel) (by decide +kernel)
    (by decide +kernel) (by decide +kernel) (by decide +kernel) (by decide +kernel) fun rd => groupResult_lt _ _ _ _ (by decide +kernel) (by decide +kernel)
    (by decide +kernel) (by decide +kernel) (by decide +kernel) (by decide +kernel), by decide +kernel, by decide +kernel⟩
  intro k hk
  have hl : 0x40000 + k < nearEnd := by unfold nearEnd; omega
  simp only [memOf, hl, if_true]
  omega
/-- Group 0 of one rank, context 0's, at PA 0x80000; a COLL of one binary32 element over it, all-reduce by sum. -/
def collSt (o : Op) : State :=
  natTo (natTo (withOps (setAll ctx0 [(Reg.SWT_GROUP_BASE_LO_PA_LO, 2)]) [o]) 0x80000 2 1) 0x80008 1 1
theorem witness_EngineDescriptors_coll :
    let o := opOf 3 [(32, 0x100), (40, 1)]
    let s := collSt o
    let g := s.group 0
    let x := s.engineOn
    let q := (s.issue o 0).collNew o g [0, 0, 0, 0]
    let due : State := ((s.issue o 0).setRun o (some q))
    let many : State := { s with sub := { s.sub with ops := o :: List.replicate 32 { launch0 with ring := 1, opc := 3 } } }
    s.collDue 0 = none ∧ s.ready 0 3 = some o ∧ s.collRunning < 32 ∧ x.groupPoison 0 g = none ∧ x.groupOk g 0 = true ∧ x.collModules g 0 = []
      ∧ s.engineHeld o = false ∧ x.collSealed o g = false ∧ (due.collDue 0).isSome = true
      ∧ many.collDue 0 = none ∧ many.ready 0 3 = some o ∧ 32 ≤ many.collRunning := by decide +kernel

/-- A step of context 0 whose CLOSE, the first descriptor of ring 0, has been accepted. -/
def closing0 (fields : List (Reg.Fld × Nat)) (ops : List Op) : State :=
  (setAll (withOps sync0 ops) fields).modCtx 0 fun x => { x with closeOp := some (0, 0, 2) }
theorem witness_StepDescriptors :
    let noon := { opOf 12 [(16, 6)] with order := 1 }
    let close := opOf 13 []
    let wrong := opOf 13 [(24, 9)]
    let run := opOf 9 []
    let swap := opOf 9 [(16, 1), (24, 9)]
    let snap := opOf 10 []
    let st (o : Op) : State := withOps sync0 [o]
    let loaded := (st swap).put Reg.SWT_SCHED_BANK_LOADED1 1
    (st noon).ready 0 12 = some noon ∧ (st noon).earlierOpen noon = false ∧ (st noon).dupPending 0 = false ∧ (st noon).synOn = true
      ∧ (st noon).noWaiter = false ∧ (st noon).xtObj 0 6 true = some 10 ∧ ((st noon).obj 10).broken = false ∧ ((st noon).obj 10).slot.isSome = true ∧ ((st noon).obj 10).fits 1 = true
      ∧ descBytes noon.desc 24 8 = (st noon).stepNum 0 ∧ ((st noon).ctx 0).mismatch = false ∧ ((st noon).put Reg.RPL_RING_CFG_REQUIRE 0).inputsOk 0 = true ∧ (st noon).inputsOk 0 = false
      ∧ (withOps sync0 [waiter0, noon]).ready 0 12 = some noon ∧ (withOps sync0 [waiter0, noon]).earlierOpen noon = true
      ∧ (st wrong).ready 0 13 = some wrong ∧ descBytes wrong.desc 24 8 ≠ (st wrong).stepNum 0
      ∧ (st close).ready 0 13 = some close ∧ (st run).ready 0 9 = some run ∧ (st run).bank = descBytes run.desc 16 1 % 2
      ∧ loaded.ready 0 9 = some swap ∧ loaded.bank ≠ descBytes swap.desc 16 1 % 2 ∧ loaded.fab.swap = none ∧ loaded.on (loadedFld 1) = true
      ∧ (st snap).ready 0 10 = some snap ∧ descBytes snap.desc 16 1 = 0 ∧ (st snap).snapFrameOk snap.desc = true ∧ ((st snap).armCapture 2 0 (some snap.order)).isSome = true := by
  decide +kernel
theorem witness_StepCloses :
    let o := { opOf 13 [] with issued := true, order := 1 }
    let s := closing0 [] [o]
    let ready := closing0 [(Reg.RPL_STEP_STATUS_CLOSE_READY 0, 1), (Reg.RPL_STEP_STATUS_STATE 0, 2)] [o]
    let voted := (withOps sync0 []).put (Reg.RPL_STEP_STATUS_STATE 0) 2
    let late : State := { voted with time := { voted.time with ticks := voted.get (Reg.SYN_CTX_WDOG_FRAMES 0) } }
    let opened := closing0 [(Reg.RPL_STEP_STATUS_STATE 0, 1)] [o]
    opened.closeOf 0 = some (o, 2) ∧ opened.earlierOpen o = false ∧ opened.stepOpen 0 = true
      ∧ s.closeOf 0 = some (o, 2) ∧ s.stepOpen 0 = false ∧ ready.time.pos ≤ 7 ∧ ready.discardNow 0 = false ∧ late.discardSet 0 = false ∧ (closing0 [] [waiter0, o]).op? 0 0 = some waiter0
      ∧ (closing0 [] [o, { waiter0 with idx := 1 }]).closeOf 0 = some (o, 2) ∧ (closing0 [] [o, { waiter0 with idx := 1 }]).earlierOpen o = true
      ∧ ready.closeOf 0 = some (o, 2) ∧ ready.on (Reg.RPL_STEP_STATUS_CLOSE_READY 0) = true ∧ ready.stepState 0 = 2 ∧ (ready.ctx 0).discard = none
      ∧ ready.closeFrame 0 ≤ ready.frame ∧ s.on (Reg.RPL_STEP_STATUS_CLOSE_READY 0) = false ∧ s.closeFrame 0 ≤ s.frame + 3
      ∧ late.stepState 0 = 2 ∧ (late.ctx 0).closeOp = none ∧ (late.ctx 0).discard = none
      ∧ (late.ctx 0).votedTick + late.get (Reg.SYN_CTX_WDOG_FRAMES 0) ≤ late.now ∧ s.canon = true := by decide +kernel

/-! ### Witnesses: time, pins, captures, memory, optics -/

def setTime (s : State) (f : TimeSt → TimeSt) : State := { s with time := f s.time }
/-- The tick count. -/
def at_ (s : State) (n : Nat) : State := setTime s fun t => { t with ticks := n }
/-- The frame counter. -/
def atFrame (s : State) (n : Nat) : State := setTime s fun t => { t with frame := BitVec.ofNat 64 n }
/-- The rings of λ17 of port 0 are verified, its bypass is open, and LC17 feeds λ17. -/
def served0 : State :=
  let s := setAll State.reset [(Reg.FTB_CTRL_ENABLE, 1), (Reg.OPT_BYP_STATUS_POSITION 0, 2), (Reg.OPT_WL_SRC_SOURCE 17, 17)]
  (s.modTuner 17 fun r => { r with st := 4 }).modTuner 35 fun r => { r with st := 4 }

theorem witness_TimeBase :
    let child := (setAll served0 [(Reg.FTB_STATUS_PARENT, 0)]).modTime fun t => { t with hasParent := true }
    let good := setTime State.reset fun t => { t with good := 16 }
    let bad := setTime State.reset fun t => { t with bad := 4 }
    let due := (setAll State.reset [(Reg.FTB_CTRL_DEPUTY, 1)]).modTime fun t => { t with promoteDue := true }
    let hold := setAll State.reset [(Reg.FTB_STATUS_HOLDOVER, 1), (Reg.FTB_STATUS_VALID, 1), (Reg.FTB_HOLD_HOLD_LIMIT, 16), (Reg.FTB_HOLD_HOLD_CNT, 16)]
    let loads := (setAll State.reset [(Reg.FTB_CTRL_ROLE, 1)]).modTime fun t => { t with loadArmed := true }
    let master := loads.put Reg.FTB_STATUS_MASTER 1
    let edge := (setAll State.reset [(Reg.FTB_CTRL_ROLE, 2)]).modTime fun t => { t with loadArmed := true, loadPps := true }
    let again := setTime good fun t => { t with resync := true }
    master.isMaster = true ∧ master.time.sentNow = false ∧ loads.isMaster = false ∧ master.time.loadArmed = true ∧ (State.reset.modPins fun x => { x with resetLow := true }).pins.resetLow = true
      ∧ (State.reset.modTime fun x => { x with pos := 0 }).time.pos ≤ 1 ∧ again.isMaster = false ∧ 16 ≤ again.time.good ∧ again.time.resync = true ∧ bad.isMaster = false ∧ hold.isMaster = false
      ∧ (0 : Nat) ≤ State.reset.now ∧ State.reset.time.pos ≤ 1 ∧ loads.time.pos ≤ 1 ∧ loads.time.loadArmed = true ∧ edge.time.loadArmed = true
      ∧ edge.get Reg.FTB_CTRL_ROLE ≠ 0 ∧ 2 ≤ State.reset.powerNow ∧ State.reset.pins.resetLow = false ∧ served0.on Reg.FTB_CTRL_ENABLE = true ∧ served0.serviceUp 0 = true
      ∧ served0.time.hasParent = false ∧ child.serviceUp 0 = true ∧ child.isMaster = false ∧ child.time.hasParent = true
      ∧ child.get Reg.FTB_STATUS_PARENT = 0 ∧ good.isMaster = false ∧ 16 ≤ good.time.good ∧ good.time.resync = false ∧ 4 ≤ bad.time.bad
      ∧ due.time.promoteDue = true ∧ due.on Reg.FTB_CTRL_DEPUTY = true ∧ due.isMaster = false ∧ hold.on Reg.FTB_STATUS_HOLDOVER = true
      ∧ hold.get Reg.FTB_HOLD_HOLD_LIMIT ≤ hold.get Reg.FTB_HOLD_HOLD_CNT ∧ hold.on Reg.FTB_STATUS_VALID = true ∧ hold.on Reg.FTB_STATUS_TIME_LOSS = false
      ∧ (setTime State.reset fun t => { t with stepDue := some 0 }).time.stepDue = some 0 ∧ loads.get Reg.FTB_CTRL_ROLE ≠ 0
      ∧ loads.on Reg.FTB_STATUS_VALID = false ∧ loads.time.loadTick ≤ loads.now ∧ loads.get Reg.FTB_CTRL_ROLE ≠ 2 ∧ loads.canon = true
      ∧ edge.get Reg.FTB_CTRL_ROLE = 2 ∧ edge.time.loadPps = true ∧ edge.on Reg.FTB_STATUS_VALID = false := by decide +kernel
theorem witness_ReferencesAndCaptures :
    let run : State := { State.reset with pins := { State.reset.pins with ppsAt := some 0, ppsRun := 1, trigAt := some 0 } }
    let armed (f : Nat) : State := { State.reset with snp := { State.reset.snp with armed := some { frame := f, src := 1, snaps := [] } } }
    let t := State.reset.put Reg.SNP_ARM_HI_FRAME_HI 1
    let f := t.get64 Reg.SNP_ARM_LO_FRAME_LO Reg.SNP_ARM_HI_FRAME_HI
    run.pins.ppsAt.isSome = true ∧ 1 ≤ run.pins.ppsRun ∧ State.reset.canon = true
      ∧ State.reset.snp.armed = none ∧ State.reset.frame < f ∧ (armed 9).frame < f ∧ (9 : Nat) ≠ f
      ∧ (State.reset.put Reg.SNP_ARM_HI_FRAME_HI 0).get64 Reg.SNP_ARM_LO_FRAME_LO Reg.SNP_ARM_HI_FRAME_HI ≤ State.reset.frame
      ∧ (armed 0).snp.armed.isSome = true ∧ (armed 0).time.pos ≤ 2 ∧ (0 : BitVec 64).toNat ≤ State.reset.frame ∧ State.reset.frame < (9 : BitVec 64).toNat
      ∧ (9 : BitVec 64).toNat = 9 ∧ ({ armed 0 with hrc := { (armed 0).hrc with running := some { scope := 0, index := 0, logseq := none, startFrame := 0, slot := 0 } } } : State).hrc.running.isSome = true
      ∧ State.reset.snp.sets = [] ∧ State.reset.hrc.running = none ∧ State.reset.blockSilent 4096 = none ∧ 4096 ∈ snapBlocks
      ∧ ({ State.reset with rpl := { State.reset.rpl with fenced := [0] } } : State).blockSilent 4096 ≠ none ∧ 0 < 144 ∧ 0 ≤ (armed 0).frame ∧ (armed 9).frame < 9 ∧ run.now < 0 + 4 ∧ State.reset.pins.trigAt = none
      ∧ State.reset.on Reg.GLB_STATUS_TRIG_STUCK = false ∧ (State.reset.put Reg.SNP_CTRL_TRIG_IN_EN 1).on Reg.SNP_CTRL_TRIG_IN_EN = true
      ∧ (State.reset.put Reg.SNP_CTRL_TRIG_SLICE 1).on Reg.SNP_CTRL_TRIG_SLICE = true ∧ State.reset.on Reg.SNP_CTRL_TRIG_SLICE = false
      ∧ (State.reset.put Reg.SNP_CTRL_TRIG_IN_EN 0).on Reg.SNP_CTRL_TRIG_IN_EN = false ∧ State.reset.on Reg.GLB_STATUS_REF_VALID = false := by decide +kernel
theorem witness_MemoryUpkeep :
    let go := (at_ State.reset 1).modMem fun x => { x with repairGo := some 0 }
    let spare := go.setSpares 0 1
    let busy := (at_ State.reset 3).modMem fun x => { x with repair := some (0, 0) }
    let ce := (at_ State.reset dayTicks).modMem fun x => { x with ceCount := [(0, (1, 0))] }
    let scrub := State.reset.put Reg.MEM_CTRL_SCRUB_EN 1
    go.memx.repairGo = some 0 ∧ 0 < go.now ∧ go.spares (memOf go.repairChunk) = 0 ∧ spare.memx.repairGo = some 0 ∧ spare.spares (memOf spare.repairChunk) ≠ 0
      ∧ busy.memx.repair = some (0, 0) ∧ 0 + 3 ≤ busy.now ∧ scrub.on Reg.MEM_CTRL_SCRUB_EN = true ∧ paExists 0 = true ∧ memOf 0 ≠ 9
      ∧ (sget (fun _ => (0, 0)) ce.memx.ceCount (chunkOf 0)).1 ≠ 0 ∧ (sget (fun _ => (0, 0)) ce.memx.ceCount (chunkOf 0)).2 + dayTicks ≤ ce.now
      ∧ State.reset.on Reg.MEM_XLAT_INVAL_BUSY = false ∧ (0x80#32).getLsbD 7 = true ∧ State.reset.on Reg.MEM_REPAIR_STATUS_BUSY = false
      ∧ (0xC0#32).getLsbD 6 = true ∧ (State.reset.modMem fun x => { x with inval := some (some 3) }).memx.inval = some (some 3)
      ∧ (State.reset.modMem fun x => { x with inval := some none }).memx.inval = some none ∧ State.reset.canon = true
      ∧ State.reset.memx.repairGo = none ∧ (0x80000000#32).getLsbD 31 = true := by decide +kernel
theorem witness_RingsAndLanes :
    let quietRing := (at_ State.reset 511).modTuner 0 fun r => { r with st := 4, check := some (0, 512) }
    let ring (f : RingSt → RingSt) : State := (at_ State.reset 512).modTuner 0 f
    let held := ring fun r => { r with st := 2, good := 16 }
    let slow := ring fun r => { r with st := 2, good := 15, acquire := some 496, attempt := 1 }
    let sweep := ring fun r => { r with st := 1, sweep := some 262 }
    let check := (ring fun r => { r with st := 3, check := some (0, 512) }).put Reg.OPT_CTRL_TONE_EN 1
    let rx := ((at_ State.reset 512).modTuner 18 fun r => { r with st := 3, check := some (0, 512) }).put Reg.OPT_CTRL_TONE_EN 1
    let swap := setAll State.reset [(Reg.OPT_CTRL_AUTO_SWAP, 1), (Reg.OPT_PORT_LANE_TX_SPARE 0, 31)]
    let back := (at_ State.reset 18).modPort 0 fun p => { p with move := some { lane := 3, back := true, at_ := 0 }, hold := [3] }
    (held.tuner 0).st = 2 ∧ 16 ≤ (held.tuner 0).good ∧ (slow.tuner 0).good < 16 ∧ (slow.tuner 0).acquire = some 496 ∧ 0 < (slow.tuner 0).attempt
      ∧ 496 + 16 ≤ slow.now ∧ (sweep.tuner 0).sweep = some 262 ∧ (sweep.tuner 0).st = 1 ∧ 262 + 250 ≤ sweep.now ∧ sweep.opt.cal = none
      ∧ (check.tuner 0).check = some (0, 512) ∧ check.on Reg.OPT_CTRL_TONE_EN = true ∧ 0 + 512 ≤ check.now ∧ (check.tuner 0).st = 3
      ∧ toneOk (check.expected 0 false 0) [] = false ∧ (rx.tuner 18).check = some (0, 512) ∧ rx.on Reg.OPT_CTRL_TONE_EN = true ∧ (rx.tuner 18).st = 3
      ∧ (rx.tuner 18).attempt = 0 ∧ toneOk (rx.expected 0 true 0) [⟨0, 100⟩] = true
      ∧ ((State.reset.modPort 0 fun p => { p with alarm := [(3, [1])] }).port 0).alarm = [(3, [1])] ∧ (State.reset.port 0).alarm = []
      ∧ served0.serviceUp 0 = true ∧ State.reset.serviceUp 0 = false ∧ State.reset.on (Reg.OPT_PORT_STATUS_GAP 0) = false
      ∧ (State.reset.put (Reg.OPT_PORT_STATUS_GAP 0) 1).on (Reg.OPT_PORT_STATUS_GAP 0) = true ∧ swap.txSpare 0 ≠ 3 ∧ (swap.port 0).move = none
      ∧ swap.spareFree 0 = true ∧ swap.on Reg.OPT_CTRL_AUTO_SWAP = true ∧ (swap.put (Reg.OPT_PORT_LANE_TX_SPARE 0) 4).spareFree 0 = false
      ∧ (quietRing.put Reg.OPT_CTRL_TONE_EN 1).now < 0 + 512 ∧ (quietRing.tuner 0).st = 4 ∧ (quietRing.tuner 0).check = some (0, 512) ∧ back.lostLane 0 = none
      ∧ served0.on (Reg.OPT_PORT_STATUS_GAP 0) = false ∧ (back.port 0).hold ≠ [] ∧ (back.port 0).move = some { lane := 3, back := true, at_ := 0 } ∧ 0 + 18 ≤ back.now := by decide +kernel
theorem witness_Cartridges :
    let w : SwapSt := { lam := 0, old := 0, new := 18, start := 0 }
    let sw (x : SwapSt) : State := (at_ (setAll State.reset [(Reg.OPT_LC_STATUS_PRESENT 19, 1)]) 24414).modOpt fun o => { o with swaps := [x] }
    let done := { w with switched := true, switchAt := some 24398 }
    let fail := (setAll State.reset [(Reg.OPT_WL_SRC_SOURCE 0, 0)]).modOpt fun o => { o with failDue := [(0, 1, 0)] }
    let report (x : SwapSt) : State := (sw x).put Reg.OPT_CTRL_AUTO_SWAP 0
    (report w).swapOf 0 = some w ∧ ((((report w).setLc 18 lcFailed 31).dropSwap 0)).on Reg.OPT_CTRL_AUTO_SWAP = false
      ∧ ((((sw w).setLc 18 lcFailed 31).dropSwap 0)).on Reg.OPT_CTRL_AUTO_SWAP = true
      ∧ (let u := fail.put (Reg.OPT_WL_SRC_SOURCE 0) 31
         u.feeds 0 = none ∧ (u.opt.swaps.find? fun x => x.new == 0 && !x.switched) = none)
      ∧ (((fail.put (Reg.OPT_WL_SRC_SOURCE 0) 31).modOpt fun o => { o with swaps := [{ w with new := 0 }] }).opt.swaps.find? fun x => x.new == 0 && !x.switched)
        = some { w with new := 0 }
      ∧ (sw { w with locked := true }).swapOf 0 = some { w with locked := true } ∧ w.switchAt = none ∧ (sw w).swapOf 0 = some w ∧ w.locked = false
      ∧ w.start + 24414 ≤ (sw w).now ∧ ((((sw w).setLc 18 lcFailed 31).dropSwap 0).pickSpare 0).isSome = true
      ∧ (sw { w with switchAt := some 9 }).swapOf 0 = some { w with switchAt := some 9 } ∧ 9 ≤ (sw w).now ∧ w.switched = false
      ∧ (sw done).swapOf 0 = some done ∧ 24398 + 16 ≤ (sw done).now ∧ done.failed = false ∧ done.cal = false
      ∧ (fail.opt.failDue.find? fun x => x.1 == (0 : Fin 22).val) = some (0, 1, 0) ∧ (0 : Nat) ≤ fail.now ∧ fail.feeds 0 = some 0 ∧ fail.feeds 20 = none
      ∧ (fail.setLc 0 lcLit 0).lit 0 = true ∧ (fail.setLc 0 lcDark 31).lit 0 = false ∧ (18 : Nat) ≤ (21 : Fin 22).val := by decide +kernel

/-! ### Witnesses: the fabric -/

/-- A switch out of relay in frame lock, with port 0 UP and every transmit ring of it verified. -/
def switch0 : State :=
  let s := setAll State.reset [(Reg.SWT_CTRL_ENABLE, 1), (Reg.GLB_STATUS_RELAY, 0), (Reg.FTB_STATUS_VALID, 1), (Reg.OPT_PORT_STATUS_UP 0, 1),
    (Reg.SWT_SLICE_TAG, 1), (Reg.OPT_BYP_STATUS_POSITION 0, 2)]
  s.each (List.range 18) fun t k => t.modTuner k fun r => { r with st := 4 }
def owner0 : Owner := ⟨0, 0, 0⟩
def qcell0 : QCell := { cell := cell1, queue := .own 0, owner := some owner0 }
/-- A launched cell of port 0, in flight to module 0 since tick 0. -/
def flown0 : QCell := { qcell0 with lseq := some 3, flight := some (0, 0, 0) }
def xfer0 : Xfer := { num := 4, owner := owner0, dest := 1, gen := 1, unacked := 0, lastAck := some 0 }
def read0 : ReadReq := ⟨1, 4, 0, 0, [], 0⟩
def rd0 : State := (ctx0.put Reg.SWT_SLICE_ENC 1).modFab fun f => { f with reads := [read0], routes := [(1, 1)] }
def link0 : LinkMsg := { kind := 0, code := 3, src := 0, dest := 0, port := 0, count := 2, lseq := 3, gen := 1, xfer := 4 }

theorem witness_CellsAndAnswers :
    let s := (switch0.setRing 0 { piOld := 0 }).modFab fun f => { f with cells := [qcell0], sched := [(1, 3)] }
    let ready := s.modPort 0 fun p => { p with credits := 1 }
    let hold := s.put (Reg.OPT_PORT_STATUS_RX_HOLD 0) 1
    let cell : Cell := { cell1 with type := 1 }
    let fl := (at_ s 16).modFab fun f => { f with cells := [flown0] }
    let one := at_ (withOps (setAll State.reset [(Reg.SUB_CTX_GEN_GENERATION 0, 1)]) [launch0]) 16
    let tr := one.modFab fun f => { f with xfers := [xfer0] }
    let rd := rd0
    ready.canLaunch 0 = true ∧ ready.sliceTag ≠ 0 ∧ ready.on Reg.SWT_SLICE_ENC = false ∧ ready.toLaunch 0 0 0 = some (qcell0, some 32)
      ∧ State.reset.canLaunch 0 = false ∧ s.switchRelay = false ∧ s.on (Reg.OPT_PORT_STATUS_UP 0) = true
      ∧ wordKind (s.schedWord s.bank 0 0 0) ≠ 2 ∧ hold.on (Reg.OPT_PORT_STATUS_RX_HOLD 0) = true ∧ hold.switchRelay = false
      ∧ s.on (Reg.OPT_PORT_STATUS_RX_HOLD 0) = false ∧ cell1.type = 0 ∧ cell.type ≠ 0
      ∧ ((sget (fun _ => {}) s.fab.rxLink 0).accept cell.lseq.toNat).2 = false
      ∧ fl.flights 0 0 = [flown0] ∧ fl.answered 0 0 3 = some flown0 ∧ (0 : Nat) + 16 ≤ fl.now
      ∧ tr.xferOf 4 = some xfer0 ∧ link0.gen.toNat = tr.gen 0 ∧ { link0 with gen := 2 }.gen.toNat ≠ tr.gen 0 ∧ tr.op? 0 0 = some launch0
      ∧ xfer0.delivered = false ∧ xfer0.unacked = 0 ∧ 0 + 16 ≤ tr.now
      ∧ (rd.fab.reads.find? fun r => r.src == 1 && r.xfer == 4) = some read0 ∧ routeValid (rd.route read0.src) = true
      ∧ (∀ a ∈ read0.vas, (rd.xlate read0.ctx a false).isSome = true) ∧ rd.on Reg.SWT_SLICE_ENC = true
      ∧ (∀ a ∈ read0.vas.filterMap fun a => rd.xlate read0.ctx a false, rd.poisoned a = false) := by decide +kernel
theorem witness_CellsAndAnswers_lights :
    let again : QCell := { qcell0 with lseq := some 3, src := [0] }
    let ready := ((switch0.setRing 0 { piOld := 0 }).modFab fun f => { f with cells := [qcell0], sched := [(1, 3)] }).modPort 0 fun p => { p with credits := 1 }
    let lost : State := { (ready.put (Reg.SUB_CTX_CTRL_STATE 0) 1).modFab fun f => { f with cells := [again] } with poison := [0] }
    let sealed_ := ready.put Reg.SWT_SLICE_ENC 1
    let down := switch0.put (Reg.OPT_PORT_STATUS_UP 0) 0
    let relay := switch0.put Reg.GLB_STATUS_RELAY 1
    let rx := switch0.each (List.range 18) fun t k => t.modTuner (18 + k) fun r => { r with st := 4 }
    let fast := ((setAll rx [(Reg.SWT_PORT_DELAY_EXPRESS_OK 1, 1), (Reg.OPT_PORT_STATUS_UP 1, 1)]).modFab fun f => { f with sched := [(0, 6)] }).each [0, 1]
      fun t p => t.modPort p fun x => { x with okTick := true, upTick := true }
    ready.switchRelay = false ∧ ready.bypOpen 0 = true ∧ ready.on (Reg.OPT_PORT_STATUS_GAP 0) = false ∧ ready.outKind 0 0 ≠ 2
      ∧ (match ready.relaunchErr qcell0 with | .none => true | _ => false) = true
      ∧ lost.toLaunch 0 0 0 = some (again, some 32) ∧ lost.canLaunch 0 = true ∧ (match lost.relaunchErr again with | .none => false | _ => true) = true
      ∧ again.lseq = some 3 ∧ again.src ≠ [] ∧ lost.ctxOf again.cell.vcid.toNat = some 0
      ∧ sealed_.canLaunch 0 = true ∧ sealed_.toLaunch 0 0 0 = some (qcell0, some 32) ∧ sealed_.on Reg.SWT_SLICE_ENC = true ∧ qcell0.mine = true
      ∧ sealed_.on (keyFld sealed_.keySlot) = false ∧ down.switchRelay = false ∧ down.bypOpen 0 = true ∧ down.on (Reg.OPT_PORT_STATUS_GAP 0) = false
      ∧ down.outKind 0 0 ≠ 2 ∧ down.canLaunch 0 = false ∧ State.reset.bypOpen 0 = false ∧ relay.bypOpen 0 = true ∧ relay.switchRelay = true
      ∧ fast.bypOpen 0 = true ∧ fast.switchRelay = false ∧ wordKind (fast.schedWord fast.bank 0 0 0) = 2 ∧ fast.degraded 0 (wordPort (fast.schedWord fast.bank 0 0 0)) = false := by decide +kernel
theorem witness_CellsAndAnswers_terminate :
    let cell : Cell := { cell1 with type := 1 }
    let rx := switch0.each (List.range 18) fun t k => t.modTuner (18 + k) fun r => { r with st := 4 }
    let fast := ((setAll rx [(Reg.SWT_PORT_DELAY_EXPRESS_OK 1, 1), (Reg.OPT_PORT_STATUS_UP 1, 1)]).modFab fun f => { f with sched := [(0, 6)] }).each [0, 1]
      fun t p => t.modPort p fun x => { x with okTick := true, upTick := true }
    let slow := fast.put (Reg.SWT_PORT_DELAY_EXPRESS_OK 1) 0
    let stuffed := rx.modFab fun f => { f with cells := List.replicate 16 { qcell0 with queue := .buf 0 true } }
    slow.bypOpen 0 = true ∧ slow.switchRelay = false ∧ slow.degraded 0 (wordPort (slow.schedWord slow.bank 0 0 0)) = true ∧ slow.canTerminate 0 = true
      ∧ slow.on (Reg.OPT_PORT_STATUS_UP 0) = true ∧ slow.on (Reg.OPT_PORT_STATUS_GAP 0) = false ∧ switch0.canTerminate 0 = false
      ∧ rx.bufCount 0 true = 0 ∧ cell.type ≠ 0 ∧ cell1.type = 0 ∧ ¬ 16 ≤ rx.bufCount 0 true ∧ 16 ≤ stuffed.bufCount 0 true ∧ ((sget (fun _ => {}) rx.fab.rxLink 0).accept 40000).2 = true
      ∧ allDecode [] = true ∧ allDecode ((List.range 15).map fun k => (0, k)) = true ∧ allDecode ((List.range 16).map fun k => (0, k)) = false ∧ allDecode ((List.range 16).flatMap fun j => [(j, 0), (j, 1)]) = false := by decide +kernel
theorem witness_CellsAndAnswers_answers :
    let one := at_ (withOps (setAll State.reset [(Reg.SUB_CTX_GEN_GENERATION 0, 1)]) [launch0]) 16
    let dead := one.modFab fun f => { f with xfers := [{ xfer0 with dead := true }] }
    let rx2 := rd0.engineOn
    let own := { xfer0 with owner := restoreEngine 0, lastAck := some 0 }
    let asks := one.modFab fun f => { f with xfers := [own] }
    let pas := read0.vas.filterMap fun a => rx2.xlate read0.ctx a false
    asks.xferOf 4 = some own ∧ link0.gen.toNat = asks.gen own.owner.ctx ∧ own.dead = false ∧ own.owner.engine = true ∧ xfer0.owner.engine = false
      ∧ own.delivered = false ∧ own.unacked = 0 ∧ own.lastAck = some 0 ∧ 0 + 16 ≤ asks.now
      ∧ (setAll State.reset [(Reg.RPL_CKPT_STATUS_STATE, 1)]).ckptState = 1 ∧ (setAll State.reset [(Reg.RPL_CKPT_STATUS_STATE, 4)]).ckptState = 4
      ∧ served0.serviceUp 0 = true ∧ (served0.modFab fun f => { f with cells := [flown0] }).answered 0 0 3 = some flown0 ∧ State.reset.serviceUp 0 = false
      ∧ dead.xferOf 4 = some { xfer0 with dead := true } ∧ link0.gen.toNat = dead.gen 0 ∧ xfer0.dead = false
      ∧ rx2.on Reg.SWT_SLICE_ENC = true
      ∧ (match ((rx2.spWaits pas).meetErrs (some 0) (fun pa => pas.contains pa || (rx2.blockMode 0 && (blocksOf pas).contains (pa / 4096 * 4096))) noErr).readErr 0 pas
           noErr with | .none => true | _ => false) = true := by decide +kernel
/-- A cell that carries its own CRC passes; one with another does not. -/
theorem witness_CellsAndAnswers_crc : ({ cell1 with type := 1 } : Cell).withCrc.crcOk = true := withCrc_crcOk _
theorem witness_ServiceLaneAndPorts :
    let s := served0
    let idle (hseq : Nat) (nak : Bool) : List Byte := svcBytes ⟨0, 0, hseq, 0, nak, 0⟩ []
    let third (hseq : Nat) : List Byte := svcBytes ⟨3, 16, hseq, 0, false, 0⟩ link0.bytes
    let bad (x : Nat) : List Byte := (SvcHeader.bytes ⟨0, 0, 0, 0, false, 0⟩) ++ leBytes 4 (crc32c (SvcHeader.bytes ⟨0, 0, 0, 0, false, 0⟩) ^^^ x)
    let ahead (m : List Byte) : Nat := ((svcHeader m).hseq + 4096 - (s.port 0).hopRecv) % 4096
    let mod (f : PortSt → PortSt) : State := (at_ served0 64).modPort 0 f
    let peer := mod fun p => { p with trainAt := some 48, measureAt := some 48, fresh := false }
    let gap := (setAll served0 [(Reg.OPT_PORT_GAP_LEN_FRAMES 0, 4), (Reg.OPT_PORT_GAP_START_START 0, 3)]).modTime fun t => { t with top := 5 }
    s.serviceUp 0 = true ∧ State.reset.serviceUp 0 = false ∧ svcInverted (bad 0xFFFFFFFF) = true ∧ svcInverted (bad 1) = false ∧ svcOk (bad 1) = false
      ∧ (∀ m ∈ [idle 0 false, idle 4 false, idle 0 true, third 0, third 1, third 2], svcInverted m = false ∧ svcOk m = true)
      ∧ (svcHeader (idle 0 false)).nak = false ∧ (svcHeader (idle 0 true)).nak = true ∧ (svcHeader (idle 0 true)).cls = 0 ∧ (svcHeader (third 1)).cls = 3
      ∧ ahead (idle 0 false) = 0 ∧ ahead (third 1) = 1 ∧ ahead (third 0) = 0 ∧ ahead (third 2) = 2 ∧ (svcHeader (svcBytes ⟨8, 0, 0, 0, false, 0⟩ [])).cls = 8
      ∧ unknownSvc (svcHeader (svcBytes ⟨8, 0, 0, 0, false, 0⟩ [])) [] = true ∧ unknownSvc (svcHeader (third 1)) link0.bytes = false ∧ s.moduleId ≠ 8191
      ∧ s.moduleId < 8192 ∧ s.now < (s.port 0).beaconAt + 64 ∧ peer.serviceUp 0 = true ∧ (peer.port 0).beaconAt + 64 ≤ peer.now ∧ s.now < (s.port 0).beaconAt + 64
      ∧ { beacon1 with src := 0 }.hops = 0 ∧ (peer.port 0).fresh = false ∧ peer.peer 0 = { beacon1 with src := 0 }.src.toNat ∧ (peer.port 0).hold = []
      ∧ (peer.port 0).trainAt = some 48 ∧ 48 + 16 ≤ peer.now ∧ (peer.put (Reg.OPT_PORT_STATUS_PEER_VALID 0) 1).on (Reg.OPT_PORT_STATUS_PEER_VALID 0) = true
      ∧ (peer.port 0).measureAt = some 48 ∧ ((peer.setNbr 0 { peer.nbr 0 with measured := true }).nbr 0).measured = true
      ∧ ((mod fun p => { p with wasUp := true, silent := 64 }).port 0).silent = 64 ∧ ((mod fun p => { p with wasUp := true, silent := 64 }).port 0).wasUp = true
      ∧ (s.port 0).silent ≠ 64 ∧ ((mod fun p => { p with quiet := [1], quietTicks := 2 ^ 24 }).port 0).quiet ≠ []
      ∧ s.get Reg.OPT_QUIET_LIMIT_FRAMES ≤ ((mod fun p => { p with quiet := [1], quietTicks := 2 ^ 24 }).port 0).quietTicks
      ∧ s.on (Reg.OPT_PORT_STATUS_LINK_DOWN 0) = false ∧ gap.get (Reg.OPT_PORT_GAP_LEN_FRAMES 0) ≠ 0 ∧ gap.on (Reg.OPT_PORT_STATUS_GAP 0) = false
      ∧ gap.atLow32 (gap.get (Reg.OPT_PORT_GAP_START_START 0)) = true ∧ gap.atLow32 9 = false ∧ ((mod fun p => { p with gapEnd := some 64 }).port 0).gapEnd = some 64
      ∧ 64 ≤ (mod fun p => { p with gapEnd := some 64 }).now ∧ State.reset.pins.v12 = true := by decide +kernel
theorem witness_SwitchingCommands_motion :
    let arm (t : Nat) : State := setAll (setTime (at_ State.reset 24414) fun x => { x with base := 2 ^ 32 - 1, top := 2 ^ 32 }) [(Reg.OPT_BYP_CTRL_ARM 0, 1), (Reg.OPT_BYP_CTRL_TARGET 0, t), (Reg.FTB_STATUS_VALID, 1)]
    let soon := (arm 1).modByp 0 fun b => { b with lastStart := some 1 }
    let hear (t : Nat) : State := ((arm t).put Reg.FTB_STATUS_VALID 0).modByp 0 fun b => { b with listener := some (0, 24414) }
    (∀ t ∈ [0, 1], (arm t).on (Reg.OPT_BYP_CTRL_ARM 0) = true ∧ (arm t).on Reg.FTB_STATUS_VALID = true ∧ (arm t).atLow32 ((arm t).get (Reg.OPT_BYP_FRAME_FRAME 0)) = true
        ∧ (hear t).on Reg.FTB_STATUS_VALID = false ∧ ((hear t).motionClock 0).map (· % 2 ^ 32) = some ((hear t).get (Reg.OPT_BYP_FRAME_FRAME 0))
        ∧ (arm t).on (Reg.OPT_BYP_CTRL_TARGET 0) = (t == 1) ∧ (arm t).get (Reg.OPT_BYP_STATUS_POSITION 0) = bypClosed)
      ∧ (arm 1).bypassHeld = true ∧ (arm 1).mayOpen 0 = true ∧ soon.mayOpen 0 = false ∧ soon.bypassHeld = true ∧ soon.on (Reg.OPT_BYP_CTRL_ARM 0) = true
      ∧ soon.on (Reg.OPT_BYP_CTRL_TARGET 0) = true ∧ soon.on Reg.FTB_STATUS_VALID = true ∧ soon.atLow32 (soon.get (Reg.OPT_BYP_FRAME_FRAME 0)) = true
      ∧ soon.get (Reg.OPT_BYP_STATUS_POSITION 0) = bypClosed ∧ soon.on (Reg.OPT_BYP_STATUS_DEFERRED 0) = false := by decide +kernel
theorem witness_SwitchingCommands :
    let load (r : Bool) : State := State.reset.modFab fun f => { f with load := some (1, r) }
    let swap := (at_ (withOps State.reset [launch0]) 1).modFab fun f => { f with swap := some (1, 0, 0) }
    let none_ := State.reset.modFab fun f => { f with swap := some (1, 0, 0) }
    let later := State.reset.modFab fun f => { f with swap := some (1, 9, 0) }
    let route := State.reset.modFab fun f => { f with routeNew := [(5, 1)] }
    let due := (at_ route 2).modFab fun f => { f with routeDue := [(5, 2)] }
    let re := ((at_ (setAll State.reset [(Reg.SWT_CTRL_REROUTE, 1), (Reg.OPT_PORT_STATUS_LINK_DOWN 0, 1)]) 2).modPort 0 fun p => { p with downAt := some 1 }).modFab
      fun f => { f with cells := [qcell0], routes := [(1, 0x221)] }
    let key := State.reset.modFab fun f => { f with keyArm := some 0, keyErase := some (0, 0) }
    (State.reset.put (Reg.OPT_BYP_STATUS_POSITION 0) bypOpening).get (Reg.OPT_BYP_STATUS_POSITION 0) = bypOpening
      ∧ (State.reset.put (Reg.OPT_BYP_STATUS_POSITION 0) bypClosing).get (Reg.OPT_BYP_STATUS_POSITION 0) = bypClosing
      ∧ (load true).fab.load = some (1, true) ∧ (load false).fab.load = some (1, false)
      ∧ (natTo (load false) 0 1 3).imageError = some (2, 0, 0)
      ∧ swap.fab.swap = some (1, 0, 0) ∧ 0 ≤ swap.frame ∧ swap.time.pos ≤ 5 ∧ ((swap.turn 5).opNo? 0).isSome = true ∧ none_.fab.swap = some (1, 0, 0) ∧ ((none_.turn 5).opNo? 0).isSome = false
      ∧ later.fab.swap = some (1, 9, 0) ∧ later.frame < 9
      ∧ sget (fun _ => 0) due.fab.routeDue 5 ≠ 0 ∧ sget (fun _ => 0) due.fab.routeDue 5 ≤ due.now ∧ routeValid (sget (fun _ => 0) due.fab.routeNew 5) = true
      ∧ (re.port 0).rerouted = false ∧ (re.port 0).downAt = some 1 ∧ 1 < re.now ∧ re.on Reg.SWT_CTRL_REROUTE = true
      ∧ re.on (Reg.OPT_PORT_STATUS_LINK_DOWN 0) = true ∧ re.fab.cells[0]? = some qcell0 ∧ qcell0.flight = none ∧ qcell0.queue = .own 0
      ∧ routePort (re.route qcell0.cell.dest.toNat) = 0 ∧ routeAltOk (re.route qcell0.cell.dest.toNat) = true
      ∧ key.fab.keyArm = some 0 ∧ 0 ≤ key.frame ∧ key.fab.keyErase = some (0, 0) ∧ 0 ≤ key.now := by decide +kernel
theorem witness_SwitchingCommands_good_image : State.reset.imageError = none := by decide +kernel

/-! ### Witnesses: firmware's registers, steps, replay, checkpoint -/

theorem witness_OtherPartiesAreDenied : Party.host.fw = false ∧ Party.idfort.fw = false := by decide
theorem witness_FirmwareWrites :
    let r := State.reset
    let bar := r.setObj 0 { barrier := true }
    r.get (Reg.SUB_CTX_CTRL_STATE 0) = 0 ∧ (4#32).getLsbD 2 = true ∧ ctx0.get (Reg.SUB_CTX_CTRL_STATE 0) = 1 ∧ (8#32).getLsbD 3 = true
      ∧ ((ctx0.modCtx 0 fun x => { x with duskReq := some { frame := some 9 } }).ctx 0).duskReq = some { frame := some 9 } ∧ 9 ≠ ctx0.frame + 1
      ∧ (r.put Reg.SWT_SCHED_LOAD_CTRL_BUSY 1).on Reg.SWT_SCHED_LOAD_CTRL_BUSY = true
      ∧ (ctx0.ctx 0).duskReq = none ∧ (r.obj 0).barrier = false ∧ r.canon = true ∧ r.get Reg.SYN_OBJ_SEL_INDEX = 0 ∧ (bar.obj 0).barrier = true
      ∧ (1#32).getLsbD 0 = true ∧ (0x80#32).getLsbD 7 = true ∧ r.on Reg.SYN_XLAT_INVAL_BUSY = false ∧ r.on Reg.SWT_SCHED_LOAD_CTRL_BUSY = false
      ∧ (2#32).getLsbD 1 = true
      ∧ ({ r with syn := { r.syn with inval := some (some 3) } } : State).syn.inval = some (some 3) ∧ ({ r with syn := { r.syn with inval := some none } } : State).syn.inval = some none := by decide +kernel
/-- Context 0 with a step in a state, at a frame and tick. -/
def stepIn (st : Nat) : State := setAll (at_ ctx0 100) [(Reg.RPL_STEP_STATUS_STATE 0, st)]
def replayIn (st : Nat) : State := setAll (at_ ctx0 100) [(Reg.RPL_REPLAY_STATUS_STATE 0, st)]
theorem witness_StepControl :
    let armed (st : Nat) : State := setAll (stepIn st) [(Reg.RPL_STEP_CTRL_ARM 0, 1), (Reg.RPL_STEP_CTRL_ENABLE 0, 1)]
    let disc (tick : Nat) : State := (stepIn 1).modCtx 0 fun x => { x with discard := some { tick := tick } }
    let told (k : Nat) : State := (stepIn 1).modCtx 0 fun x => { x with announced := [{ frame := some 0, which := some (0, k) }] }
    let late := setTime State.reset fun t => { t with pos := 8 }
    let v (n : Nat) : Word := BitVec.ofNat 32 n
    (stepIn 0).canon = true ∧ (stepIn 0).stepOpen (stepIn 0).stepSel = false ∧ (stepIn 1).canon = true ∧ (stepIn 1).stepOpen (stepIn 1).stepSel = true
      ∧ (v 8).getLsbD 3 = true ∧ (v 4).getLsbD 2 = true ∧ (v 4).getLsbD 3 = false
      ∧ ((armed 0).ctx 0).replayArm = none ∧ (armed 0).on (Reg.RPL_STEP_CTRL_ARM 0) = true ∧ ((armed 0).ctx 0).armTick < (armed 0).now
      ∧ (armed 0).openFrame 0 ≤ (armed 0).frame ∧ ((armed 0).ctx 0).armLate = false ∧ (armed 0).stepState 0 = 0 ∧ (armed 0).restoreHolds 0 = false
      ∧ (armed 0).time.pos ≤ 7 ∧ (armed 1).time.pos ≤ 7 ∧ (disc 1).time.pos ≤ 7 ∧ 7 < late.time.pos
      ∧ (armed 0).on (Reg.RPL_STEP_CTRL_ENABLE 0) = true ∧ ((armed 1).ctx 0).replayArm = none ∧ (armed 1).on (Reg.RPL_STEP_CTRL_ARM 0) = true
      ∧ ((armed 1).ctx 0).armTick < (armed 1).now ∧ (armed 1).openFrame 0 ≤ (armed 1).frame ∧ (armed 1).stepState 0 ≠ 0
      ∧ ((disc 1).ctx 0).discard = some { tick := 1 } ∧ (disc 1).discardDue { tick := 1 } = true ∧ (disc 1).stepOpen 0 = true
      ∧ ((disc 101).ctx 0).discard = some { tick := 101 } ∧ (disc 101).discardDue { tick := 101 } = false ∧ ((disc 101).ctx 0).announced = []
      ∧ (∀ k < 2, ((told k).ctx 0).discard = none ∧ ((told k).ctx 0).announced.find? (told k).discardDue = some { frame := some 0, which := some (0, k) }
        ∧ (told k).discardDue { frame := some 0, which := some (0, k) } = true ∧ (told k).stepOpen 0 = true ∧ (told k).time.pos ≤ 7)
      ∧ ((told 0).stepNum 0, (told 0).get (Reg.RPL_STEP_ATTEMPT_ATTEMPT 0)) = (0, 0) := by decide +kernel
theorem witness_StepControl_restore :
    let told (k : Nat) : State := (stepIn 1).modCtx 0 fun x => { x with announced := [{ frame := some 0, which := some (0, k) }] }
    let idle := (told 0).put (Reg.RPL_STEP_STATUS_STATE 0) 0
    let drain := (replayIn 1).modCtx 0 fun x => { x with drainTick := some 68 }
    let asks := (replayIn 2).modFab fun x => { x with xfers := [{ num := 0, owner := restoreEngine 0, dest := 1, gen := 0, unacked := 1 }] }
    let routed := (replayIn 1).modFab fun x => { x with routes := sset (fun _ => 0) x.routes 0 1 }
    (idle.ctx 0).discard = none ∧ ((idle.ctx 0).announced.find? idle.discardDue).isSome = true ∧ idle.stepOpen 0 = false ∧ idle.discarding 0 = false ∧ idle.time.pos ≤ 7
      ∧ (drain.restoreSet 0 = [] ∨ drain.protPoison = none) ∧ (replayIn 2).protPoison = none
      ∧ (drain.ctx 0).drainTick = some 68 ∧ 68 + 32 ≤ drain.now ∧ drain.get (Reg.RPL_REPLAY_STATUS_STATE 0) = 1
      ∧ (replayIn 2).get (Reg.RPL_REPLAY_STATUS_STATE 0) = 2 ∧ (replayIn 2).on (Reg.RPL_REPLAY_STATUS_RESTORE_FAIL 0) = false
      ∧ routeValid (routed.route (routed.get Reg.RPL_MIR_PARTNER_MODULE)) = true ∧ asks.xfersOf (restoreEngine 0) ≠ []
      ∧ (replayIn 2).ringsDrained 0 = true ∧ (replayIn 2).loading 0 = false ∧ (replayIn 2).xfersOf (restoreEngine 0) = []
      ∧ (replayIn 2).shadowPoison 0 ((replayIn 2).restoreSet 0) = none
      ∧ ((match (replayIn 2).touchPages (.engine 0) ((((replayIn 2).restoreSet 0).filter fun va => (replayIn 2).sourceOf va != some 0).filterMap fun va => (replayIn 2).pageOf 0 va) with
          | .go _ => true
          | _ => false) : Bool) = true := by decide +kernel
theorem witness_AnnouncementsAndSets :
    let m : Announce := { hold := false, vcid := 0, epoch := 0, step := 1, attempt := 1, frame := 9 }
    let past := atFrame (replayIn 3) 9
    let set (n : Nat) : State := { (setAll State.reset [(Reg.RPL_RING_CFG_PAGES, 8), (Reg.RPL_RING_CFG_GUEST, 0)]) with rpl := { sets := [{ step := 1, first := 0, pages := 1, state := n }] } }
    let again : State := { set 2 with rpl := { (set 2).rpl with guestResend := true } }
    let due : State := { set 2 with rpl := { (set 2).rpl with slotDue := true } }
    let one : InSet := { step := 1, first := 0, pages := 1, state := 1 }
    let copy : State := { (setAll ctx0 [(Reg.RPL_STEP_CTRL_ENABLE 0, 1), (Reg.RPL_RING_BASE_LO_PA_LO, 4), (Reg.RPL_RING_CFG_PAGES, 8), (Reg.RPL_RING_CFG_GUEST, 1)]).modFab
      (fun x => { x with routes := sset (fun _ => 0) x.routes 0 1 }) with rpl := { sets := [one] } }
    let full : State := { State.reset with rpl := { sets := List.replicate 16 { step := 1, first := 0, pages := 0, state := 3 } } }
    (replayIn 2).announced m = some 0 ∧ (replayIn 2).get (Reg.RPL_REPLAY_STATUS_STATE 0) ≠ 3 ∧ State.reset.announced { m with vcid := 77 } = none ∧ (atFrame State.reset 9).frame ≥ m.frame.toNat
      ∧ (1#32).getLsbD 0 = true ∧ (1#32).getLsbD 1 = false ∧ (2#32).getLsbD 0 = false ∧ (2#32).getLsbD 1 = true
      ∧ (stepIn 1).stepOpen (stepIn 1).stepSel = true ∧ (replayIn 3).announced m = some 0 ∧ (replayIn 3).get (Reg.RPL_REPLAY_STATUS_STATE 0) = 3
      ∧ (replayIn 3).frame < m.frame.toNat ∧ past.announced m = some 0 ∧ m.frame.toNat ≤ past.frame ∧ past.get (Reg.RPL_REPLAY_STATUS_STATE 0) = 3
      ∧ (0x400001#32).getLsbD 22 = true ∧ (0x400001#32).getLsbD 23 = false ∧ (0x800001#32).getLsbD 22 = false
      ∧ (0x800001#32).getLsbD 23 = true ∧ (set 1).rpl.sets.length < 16 ∧ 7 ≤ (set 1).ringFree ∧ 16 ≤ full.rpl.sets.length ∧ (set 1).ringFree < 8
      ∧ (set 1).rpl.sets = [] ++ { step := 1, first := 0, pages := 1, state := 1 } :: [] ∧ (set 1).on Reg.RPL_RING_CFG_GUEST = false
      ∧ (set 1).on Reg.RPL_SET_CTRL_SEAL = false ∧ ((set 1).put Reg.RPL_SET_CTRL_SEAL 1).on Reg.RPL_SET_CTRL_SEAL = true
      ∧ ((set 2).rpl.sets.any fun t => t.state == 2) = true ∧ (set 2).rpl.slotDue = false ∧ (set 2).fab.xfers = [] ∧ (set 2).rpl.guestResend = false
      ∧ again.rpl.guestResend = true ∧ again.rpl.slotDue = false ∧ (again.rpl.sets.any fun t => t.state == 2) = true ∧ due.rpl.slotDue = true
      ∧ copy.rpl.sets = [] ++ one :: [] ∧ copy.on Reg.RPL_SET_CTRL_SEAL = false ∧ copy.on Reg.RPL_RING_CFG_GUEST = true
      ∧ copy.on Reg.RPL_MIR_CLIENT_GUEST_STALE = false ∧ copy.learnCtx = some 0 ∧ (copy.ringVa 0).isSome = true ∧ copy.setPages one ≠ []
      ∧ routeValid (copy.route (copy.get Reg.RPL_MIR_PARTNER_MODULE)) = true ∧ (BitVec.ofNat 13 State.reset.moduleId).toNat = State.reset.moduleId
      ∧ 2 ≤ State.reset.powerNow ∧ State.reset.pins.resetLow = false := by decide +kernel
/-- A checkpoint in a state, with an enabled target, and one range of no pages in its table at PA 0x4000. -/
def ckptIn (st : Nat) : State :=
  setAll State.reset [(Reg.RPL_CKPT_STATUS_STATE, st), (Reg.RPL_CKPT_TGT_CFG_ENABLE, 1), (Reg.RPL_CKPT_TGT_CFG_SIZE_LOG2, 8)]
def ckptTable (st : Nat) : State :=
  natTo (setAll (ckptIn st) [(Reg.RPL_CKPT_TAB_LO_VALID, 1), (Reg.RPL_CKPT_TAB_LO_PA_LO, 1), (Reg.RPL_CKPT_TAB_HI_COUNT, 1)]) 0x4000 1 1
theorem witness_FenceDaybreakCheckpoint :
    let v := 0x80000000#32
    let used := State.reset.put (cmapFld 0 0) 8
    let sel := setAll State.reset [(Reg.RPL_REPLAY_STATUS_STATE 0, 2), (Reg.RPL_SET_STEP_STEP, 7)]
    let load (n : Nat) : State := setAll State.reset [(Reg.RPL_DAYBREAK_STATUS_STATE, n)]
    let place := (load 3).put (Reg.RPL_REPLAY_STATUS_STATE 0) 2
    let undrained := setAll ring0 [(Reg.RPL_REPLAY_STATUS_STATE 0, 2), (Reg.RPL_DAYBREAK_STATUS_STATE, 3)]
    let partner := natTo (natTo ((setAll sel [(Reg.RPL_PROT_BASE_LO_VALID, 1), (Reg.RPL_PROT_BASE_LO_PA_LO, 1), (Reg.RPL_PROT_BASE_HI_COUNT, 1)]).modFab
      fun x => { x with routes := sset (fun _ => 0) x.routes 0 1 }) 0x4000 1 1) 0x4008 1 1
    (v.getLsbD 31 = true ∧ State.reset.clusterUser 0 8 = none ∧ v.toNat / 4 % 16 ≤ 7 ∧ (State.reset.clusterUser 0 0).isSome = true)
      ∧ (used.clusterUser 0 8).isSome = true ∧ used.on Reg.HRC_ESC_STATUS_FENCE_REQ = false
      ∧ sel.canon = true ∧ (1#32).getLsbD 0 = true ∧ sel.get Reg.RPL_DAYBREAK_STATUS_STATE = 0 ∧ sel.get (Reg.RPL_REPLAY_STATUS_STATE sel.stepSel) = 2
      ∧ (⟨7, 1, []⟩ : PartnerState).lastStep.toNat = sel.get Reg.RPL_SET_STEP_STEP ∧ (⟨7, 1, []⟩ : PartnerState).state = 1 ∧ sel.protPoison = none
      ∧ sel.mirrorPages = [] ∧ partner.mirrorPages = [0] ∧ partner.protPoison = none ∧ routeValid (partner.route (partner.get Reg.RPL_MIR_PARTNER_MODULE)) = true
      ∧ State.reset.get (Reg.RPL_REPLAY_STATUS_STATE State.reset.stepSel) ≠ 2 ∧ State.reset.mayAdmit = false
      ∧ (load 2).get Reg.RPL_DAYBREAK_STATUS_STATE = 2 ∧ (load 2).protPoison = none ∧ (load 2).protRanges.length = 0
      ∧ (match (load 2).touchPages (.engine 64) [] with | .go _ => true | _ => false) = true ∧ (load 2).canon = true ∧ (load 2).rpl.loadSets = []
      ∧ (load 3).get Reg.RPL_DAYBREAK_STATUS_STATE = 3 ∧ (load 3).integ.admitRun = none ∧ (load 3).xfersOf (loadEngine (load 3).rpl.loadCtx) = []
      ∧ (load 3).get (Reg.RPL_REPLAY_STATUS_STATE (load 3).rpl.loadCtx) ≠ 2 ∧ place.get Reg.RPL_DAYBREAK_STATUS_STATE = 3
      ∧ place.get (Reg.RPL_REPLAY_STATUS_STATE place.rpl.loadCtx) = 2 ∧ place.ringsDrained place.rpl.loadCtx = true
      ∧ undrained.get (Reg.RPL_REPLAY_STATUS_STATE 0) = 2 ∧ undrained.get Reg.RPL_DAYBREAK_STATUS_STATE = 3 ∧ undrained.ringsDrained 0 = false
      ∧ (load 1).get Reg.RPL_DAYBREAK_STATUS_STATE = 1 := by decide +kernel
theorem witness_FenceDaybreakCheckpoint_checkpoint :
    let far := (ckptIn 1).put Reg.RPL_CKPT_TGT_CFG_KIND 1
    let pend := (ckptIn 1).modCkp fun x => { x with pending := [5] }
    let full := (ckptIn 1).modCkp fun x => { x with pi := 256, ciSame := 2048 * 2 ^ 16 }
    let chain (b : Nat × Nat) : State := (ckptIn 4).modCkp fun x => { x with restore := { ends := [(1, b)] } }
    (ckptTable 1).ckptTabPoison = none ∧ ({ ckptTable 1 with poison := [0x4000] } : State).ckptTabPoison = some 0x4000
      ∧ ({ ckptTable 1 with poison := [0x4000] } : State).ckptReady = true ∧ pend.ckptTabPoison = none
      ∧ (ckptIn 1).poisonIn ((ckptIn 1).digAt 0) (16 * (ckptIn 1).ckptPages.length) = none ∧ (ckptIn 1).ckptTabPoison = none
      ∧ (ckptIn 4).ckptState = 4 ∧ (ckptIn 4).ckptTabPoison = none ∧ (ckptIn 5).ckptState = 5 ∧ (ckptIn 4).protPoison = none
      ∧ (ckptIn 1).ckptReady = true ∧ (ckptIn 1).tgtRemote = false ∧ far.ckptReady = true ∧ far.tgtRemote = true ∧ (ckptIn 0).ckptReady = false
      ∧ far.ckp.pending = [] ∧ far.ckptRanges.length ≤ far.ckp.rangesSent ∧ (ckptTable 1).ckptReady = true ∧ pend.ckptReady = true
      ∧ (ckptIn 0).ckptWritable = true ∧ (State.reset.on Reg.RPL_CKPT_TGT_CFG_ENABLE) = false ∧ State.reset.ckptWritable = true
      ∧ (ckptTable 1).ckptState = 1 ∧ (ckptTable 1).on Reg.RPL_CKPT_TGT_CFG_ENABLE = true ∧ (ckptTable 1).tgtFull = false
      ∧ ((ckptTable 1).ckptRanges[(ckptTable 1).ckp.rangesSent]?).isSome = true
      ∧ pend.ckptState = 1 ∧ pend.tgtFull = false ∧ pend.on Reg.RPL_CKPT_TGT_CFG_ENABLE = true ∧ (pend.ckptRanges[pend.ckp.rangesSent]?).isSome = false
      ∧ pend.nextPage = some 5 ∧ (ckptIn 1).canon = true ∧ (ckptIn 1).ckp.pending = [] ∧ (ckptIn 1).ckptRanges.length ≤ (ckptIn 1).ckp.rangesSent
      ∧ full.ckptState = 1 ∧ full.tgtFull = true ∧ 2048 * full.get Reg.RPL_CKPT_TGT_CFG_TGT_LIMIT ≤ full.ckp.ciSame
      ∧ (∀ b ∈ [digestOf [], (1, 0)], (chain b).ckptState = 4 ∧ (chain b).endsOk = true ∧ (chain b).ckp.restore.ranges = (chain b).ckptRanges.length
        ∧ (chain b).ckp.restore.written.length = (chain b).ckptPages.length ∧ (chain b).ckp.restore.ends.getLast? = some (1, b))
      ∧ (1, 0) ≠ digestOf [] := by decide +kernel

/-! ### Witnesses: integrity, hangs and recovery -/

def party0 : PartyRec := State.reset.ctxParty 0
def dup0 : DupEntry := { die := 0, lcore := 0, pcore := 0, check := 1, q := 0, party := party0, step := 0, attempt := 0, bytes := 64 }
/-- A test item without operands that runs between 20 and 80 °C. -/
def item0 : TestItem := { program := [1], operands := [], hash := 5, low := 20, high := 80 }
def pack0 : Pack := { id := 3, operatorMade := false, admission := true, items := [item0], svn := 0, size := 64, since := 0 }
def push0 : PackPush := { id := 3, operatorMade := false, admission := true, items := [item0], svn := 0, size := 64, key := some (.operator 0) }
theorem witness_IntegrityCommands :
    let dup := State.reset.modInt fun x => { x with dups := [dup0] }
    let held (n : Nat) : State := (at_ State.reset n).modCtx 0 fun x => { x with noonHeld := some 0 }
    let limit := State.reset.get Reg.INT_DUP_CFG_LIMIT
    let low := (at_ State.reset dayTicks).setScore 0 0 900
    let spare := State.reset.put Reg.INT_HEALTH_SEL_INDEX 144
    (dup.integ.dups.find? fun d => d.pcore == 0 && d.q == 0) = some dup0 ∧ dup.coreInReset dup0.check = false
      ∧ (dup.put (rstCore dup0.check) 1).coreInReset dup0.check = true ∧ (State.reset.integ.dups.find? fun d => d.pcore == 0 && d.q == 0) = none
      ∧ (dupRerun dup0).flip ⟨0, 0, 0, 25, 25⟩ = dup0.last ∧ (dupRerun dup0).flip ⟨0, 1, 0, 25, 25⟩ ≠ dup0.last
      ∧ ((held limit).ctx 0).noonHeld = some 0 ∧ 0 + (held limit).get Reg.INT_DUP_CFG_LIMIT ≤ (held limit).now ∧ (State.reset.ctx 0).noonHeld = none
      ∧ (held (limit - 1)).now < 0 + (held (limit - 1)).get Reg.INT_DUP_CFG_LIMIT ∧ Party.firmware.fw = true ∧ Party.host.fw = false
      ∧ (0#32).getLsbD 31 = false ∧ (0x80000000#32).getLsbD 31 = true ∧ (0x80000000#32).toNat / 64 % 4 ≠ 2 ∧ (0x80000080#32).toNat / 64 % 4 = 2
      ∧ sget (fun _ => 0) low.integ.charged (scoreKey 0 0) + dayTicks ≤ low.now ∧ low.score (scoreKey 0 0) < 1000 ∧ ¬ State.reset.score (scoreKey 0 0) < 1000
      ∧ healthUnit State.reset.healthSel = true ∧ healthUnit spare.healthSel = false := by decide +kernel
theorem witness_IntegrityCommands_bands :
    let beat := setTime (at_ State.reset 256) fun x => { x with base := 255, top := 256 }
    let warm := beat.modInt fun x => { x with bands := [(0, [{ temp := 40, tick := 0 }])] }
    beat.atMultiple 256 = true ∧ (beat.put Reg.INT_CTRL_BAND_EN 1).atMultiple 256 = true ∧ (warm.put Reg.INT_CTRL_BAND_EN 1).on Reg.INT_CTRL_BAND_EN = true
      ∧ (warm.put Reg.INT_CTRL_BAND_EN 1).nearBand 0 40 = true ∧ (warm.put Reg.INT_CTRL_BAND_EN 1).nearBand 0 400 = false
      ∧ (beat.put Reg.INT_CTRL_BAND_EN 0).on Reg.INT_CTRL_BAND_EN = false ∧ State.reset.atMultiple 256 = false
      ∧ (State.reset.modInt fun x => { x with admitRun := some ([], 0) }).integ.admitRun = some ([], 0) ∧ 0 ≤ State.reset.now
      ∧ (State.reset.modInt fun x => { x with admitRun := some ([], 9) }).integ.admitRun = some ([], 9) ∧ State.reset.now < 9 ∧ State.reset.integ.admitRun = none := by
  decide +kernel
/-- Idfort answers, and port 0 has its mutual connection. -/
def served1 : State := { State.reset with sec := { State.reset.sec with conns := [(0, 2)] }, integ := { State.reset.integ with operatorKeys := 1 } }
theorem witness_IntegrityCommands_packs :
    let many := served1.modInt fun x => { x with operatorKeys := 4 }
    let dark := served1.modPins fun x => { x with body := false }
    served1.idfortUp = true ∧ served1.conn 0 = 2 ∧ State.reset.conn 0 ≠ 2 ∧ State.reset.idfortUp = true ∧ dark.idfortUp = false
      ∧ served1.packOk push0 = true ∧ served1.packOk { push0 with key := none } = false ∧ served1.packOk { push0 with items := [] } = false
      ∧ served1.packOk { push0 with size := 16 * 2 ^ 20 } = true ∧ served1.packOk { push0 with size := 16 * 2 ^ 20 + 1 } = false
      ∧ served1.integ.operatorKeys < 4 ∧ 4 ≤ many.integ.operatorKeys ∧ many.conn 0 = 2 := by decide +kernel
theorem witness_IntegrityCommands_tests :
    let item := (State.reset.put Reg.INT_CTRL_TEST_EN 1).modInt fun x => { x with packs := [pack0] }
    let spent := item.put Reg.INT_TEST_CFG_SHARE 0
    let again := item.modInt fun x => { x with testFrames := sset (fun _ => []) x.testFrames 0 [0] }
    let admits := item.modInt fun x => { x with admitRun := some ([], 9) }
    let run (p : Pack) : State := item.modInt fun x => { x with testing := [(0, 3, 0)], packs := [p] }
    let t (s : State) : State := (s.modInt fun x => { x with testing := x.testing.filter (· != (0, 3, 0)) }).store []
    item.pack 3 = some pack0 ∧ pack0.items[0]? = some item0 ∧ pack0.items[1]? = none ∧ item0.low ≤ 20 ∧ (80 : Int) ≤ item0.high ∧ ¬ item0.low ≤ 19
      ∧ item.coreIdle 0 = true ∧ run0.coreIdle 0 = false ∧ admits.integ.admitRun.isSome = true ∧ admits.pack 3 = some pack0 ∧ pack0.admission = true
      ∧ item.integ.admitRun.isSome = false ∧ item.on Reg.INT_CTRL_TEST_EN = true ∧ again.now ∈ again.testTicks 0 ∧ item.now ∉ item.testTicks 0
      ∧ (item.testTicks 0).length < item.get Reg.INT_TEST_CFG_SHARE ∧ spent.get Reg.INT_TEST_CFG_SHARE ≤ (spent.testTicks 0).length ∧ spent.now ∉ spent.testTicks 0
      ∧ (item.put Reg.INT_CTRL_TEST_EN 0).on Reg.INT_CTRL_TEST_EN = false
      ∧ ((run pack0).integ.testing.find? fun x => x.1 == 0) = some (0, 3, 0) ∧ (run pack0).pack 3 = some pack0 ∧ item0.hash = 5 ∧ item0.hash ≠ 6
      ∧ (run { pack0 with admission := false }).pack 3 = some { pack0 with admission := false } ∧ (run { pack0 with id := 4 }).pack 3 = none
      ∧ (t (run pack0)).integ.admitRun = none ∧ (t ((run pack0).modInt fun x => { x with admitRun := some ([], 9) })).integ.admitRun ≠ none
      ∧ (item.integ.testing.find? fun x => x.1 == 0) = none := by decide +kernel
theorem witness_HangsDumpsResets :
    let u : UnitRef := { kind := 0, unit := 0 }
    let stop := (at_ State.reset 16).modHrc fun x => { x with stops := [{ unit := u, party := party0, tick := 0 }] }
    let fw := (State.reset.put Reg.SEC_STATUS_FW_STARTED 1).modHrc fun x => { x with fwTicks := sset (fun _ => 0) x.fwTicks 0 (2 ^ 32) }
    let d : Dump := { scope := 0, index := 0, logseq := none, startFrame := 0, slot := 0 }
    let dump := State.reset.modHrc fun x => { x with running := some d }
    let core := setAll State.reset [(rstCore 0, 1), (Reg.HRC_ESC_CORE_COUNT, 0)]
    let cl := setAll State.reset [(rstCl 0, 1), (Reg.HRC_ESC_CLUSTER_COUNT, 0)]
    let v (n : Nat) : Word := BitVec.ofNat 32 (2 ^ 31 + n)
    let t := ((((core.put (rstCore 0) 0).bump Reg.HRC_CORE_RST_CNT_COUNT).mark Reg.HRC_EVENT_CORE_RESET).releaseDrain 0).noteReset 0 0
    let tc := ((cl.put (rstCl 0) 0).bump Reg.HRC_CLUSTER_RST_CNT_COUNT).mark Reg.HRC_EVENT_CLUSTER_RESET
    let wc := (((dumpCores 1 0).foldl (fun (t : State) c => t.releaseDrain c) (tc.releaseDrain 1000)).noteReset 1000 0).chargeNoted 1 0 150 fCoreHang
    let beat := setTime (at_ (State.reset.put Reg.HRC_CTRL_HB_EN 1) 256) fun x => { x with base := 255, top := 256 }
    beat.atMultiple 256 = true ∧ beat.hrc.hbLast ≠ beat.now ∧ beat.time.pos ≤ 4 ∧ beat.on Reg.HRC_CTRL_HB_EN = true ∧ (beat.put Reg.HRC_CTRL_HB_EN 0).on Reg.HRC_CTRL_HB_EN = false
      ∧ State.reset.on Reg.HRC_STATUS_RECOVERING = false ∧ (State.reset.put Reg.HRC_STATUS_RECOVERING 1).on Reg.HRC_STATUS_RECOVERING = true
      ∧ State.reset.atMultiple 256 = false ∧ State.reset.hrc.hbLast = State.reset.now
      ∧ (stop.hrc.stops.find? fun x => x.unit == u && x.tick + 16 ≤ stop.now) = some { unit := u, party := party0, tick := 0 }
      ∧ (State.reset.put Reg.HRC_CTRL_LINK_STALL_EN 1).on Reg.HRC_CTRL_LINK_STALL_EN = true ∧ fw.on Reg.SEC_STATUS_FW_STARTED = true
      ∧ fw.get Reg.HRC_FW_WDOG_FRAMES ≤ sget (fun _ => 0) fw.hrc.fwTicks 0 ∧ sget (fun _ => 0) State.reset.hrc.fwTicks 0 < State.reset.get Reg.HRC_FW_WDOG_FRAMES
      ∧ dump.hrc.running = some d ∧ dump.hrc.waiting = none ∧ d.thenReset.1 = 0
      ∧ (v 4).getLsbD 31 = true ∧ (v 4).toNat % 4 = 0 ∧ (v 4).toNat / 4 % 256 < 36 ∧ State.reset.unitInReset (1, 1) = false
      ∧ (v 5).toNat % 4 = 1 ∧ State.reset.unitInReset (2, 1) = false ∧ (v 6).toNat % 4 = 2
      ∧ core.on (rstCore 0) = true ∧ 0 ∉ core.hrc.afterHang ∧ t.get Reg.HRC_ESC_CORE_COUNT = 0 ∧ State.reset.on (rstCore 0) = false
      ∧ cl.on (rstCl 0) = true ∧ wc.get Reg.HRC_ESC_CLUSTER_COUNT = 0 := by decide +kernel

/-! ### Witnesses: contexts' end, keys, the operator, debug -/

/-- A module in a security state, with connection 0 of a kind. -/
def secIn (st conn : Nat) : State := (State.reset.put Reg.SEC_STATUS_SEC_STATE st).setConn 0 conn
/-- Firmware runs, and the context of `ctx0` is active. -/
def idle0 : State := ctx0.put Reg.SEC_STATUS_FW_STARTED 1
theorem witness_DuskRecoveryIntake :
    let dusk (tick : Nat) : State := (at_ ctx0 100).modCtx 0 fun x => { x with duskReq := some { tick := tick } }
    let late := setTime (dusk 1) fun t => { t with pos := 5 }
    let free := (at_ State.reset 100).modCtx 0 fun x => { x with duskReq := some { tick := 1 } }
    let drain (t0 : Nat) : State := (at_ State.reset 100).modCtx 0 fun x => { x with duskTick := some t0 }
    let recov := (setAll State.reset [(Reg.GLB_FW_STATUS_GOOD_B, 1), (Reg.HRC_ESC_MODULE_COUNT, 0)]).modHrc fun x => { x with inRecovery := true }
    let key := setAll idle0 [(Reg.SEC_WKEY_SLOT_VALID 2, 1), (Reg.SEC_WKEY_SLOT_CONTEXT 2, 0), (Reg.SEC_WKEY_SLOT_GENERATION 2, idle0.gen 0)]
    let w0 := 1 + 2 * 2 ^ 14
    let i0 : Intake := { chan := 0, ctx := 0, slot := 2, host := 0, va := 0, count := 0, tensor := 0, first := 0 }
    let busy := key.modSec fun x => { x with intakes := [i0] }
    let lone := idle0.modSec fun x => { x with intakes := [i0] }
    ((dusk 1).ctx 0).duskReq = some { tick := 1 } ∧ (dusk 1).discardDue { tick := 1 } = true ∧ (dusk 1).active 0 = true
      ∧ (dusk 1).time.pos ≤ 4 ∧ free.time.pos ≤ 4 ∧ (late.ctx 0).duskReq = some { tick := 1 } ∧ 4 < late.time.pos
      ∧ (free.ctx 0).duskReq = some { tick := 1 } ∧ free.discardDue { tick := 1 } = true ∧ free.active 0 = false
      ∧ ((dusk 101).ctx 0).duskReq = some { tick := 101 } ∧ (dusk 101).discardDue { tick := 101 } = false
      ∧ ((drain 68).ctx 0).duskTick = some 68 ∧ 68 + 32 ≤ (drain 68).now ∧ ((drain 68).ctx 0).drainHold = [] ∧ (drain 69).now < 69 + 32
      ∧ State.reset.hrc.inRecovery = false ∧ State.reset.on Reg.HRC_STATUS_OUT_OF_SERVICE = false ∧ recov.hrc.inRecovery = true
      ∧ ((((recov.put Reg.HRC_STATUS_RECOVERING 0).modHrc fun h => { h with inRecovery := false }).noteReset 2000 0).chargeNoted 2 0 200 0).get Reg.HRC_ESC_MODULE_COUNT = 0
      ∧ recov.canon = true ∧ ((((recov.put Reg.HRC_STATUS_RECOVERING 0).modHrc fun h => { h with inRecovery := false }).noteReset 2000 0).chargeNoted 2 0 200 0).goodHalf = some 1
      ∧ key.on Reg.SEC_STATUS_FW_STARTED = true ∧ (key.sec.intakes.any fun i => i.chan == 0) = false ∧ bitsOf w0 0 8 = 1 ∧ bitsOf w0 18 14 = 0 ∧ bitsOf w0 8 6 = 0
      ∧ (0 : Word).toNat % 65536 = 0 ∧ bitsOf w0 14 4 = 2 ∧ key.active 0 = true ∧ key.on (Reg.SEC_WKEY_SLOT_VALID 2) = true ∧ key.get (Reg.SEC_WKEY_SLOT_CONTEXT 2) = 0
      ∧ key.get (Reg.SEC_WKEY_SLOT_GENERATION 2) = key.gen 0 ∧ idle0.on (Reg.SEC_WKEY_SLOT_VALID 2) = false ∧ idle0.active 0 = true
      ∧ (busy.sec.intakes.find? fun i => i.chan == 0) = some i0 ∧ (lone.sec.intakes.find? fun i => i.chan == 0) = some i0
      ∧ lone.on (Reg.SEC_WKEY_SLOT_VALID i0.slot) = false ∧ busy.on (Reg.SEC_WKEY_SLOT_VALID i0.slot) = true ∧ busy.get (Reg.SEC_WKEY_SLOT_CONTEXT i0.slot) = i0.ctx := by decide +kernel
/-- The 64 bytes of a tensor's last chunk, sealed under the all-zero key, and its tag. -/
def chunk0 (flip : Nat) : List Byte × BitVec 128 :=
  (List.replicate 64 7, BitVec.ofNat 128 (Gcm.beNat (Gcm.tagOf (keyBytes 0) (intakeIv 0 0) (intakeAad 0 0 0 64) (List.replicate 64 7)) ^^^ flip))
def intake1 : Intake := { chan := 0, ctx := 0, slot := 2, host := 0, va := 0, count := 1, tensor := 0, first := 0 }
theorem witness_DuskRecoveryIntake_chunks :
    let sealed := natTo idle0 0x60000 8 0x40017
    let bad : State := { sealed with poison := [0x40000] }
    let listed := natTo (natTo (setAll sealed [(Reg.RPL_CKPT_TAB_LO_VALID, 1), (Reg.RPL_CKPT_TAB_LO_PA_LO, 1), (Reg.RPL_CKPT_TAB_HI_COUNT, 1),
      (Reg.RPL_SHADOW_CFG_PAGES, 1)]) 0x4000 1 1) 0x4008 1 1
    let full := listed.modCkp fun k => { k with pending := [0], shadow := (List.range 16).map fun i => { index := i, pa := 0, va := 0 } }
    idle0.intakeStop 0 0 64 = some 0 ∧ sealed.intakeStop 0 0 64 = none ∧ sealed.chunkOk intake1 0 (chunk0 1) = false ∧ sealed.chunkOk intake1 0 (chunk0 0) = true
      ∧ (chunk0 0).1.length ≠ 1048576 ∧ 0 + 1 = intake1.count ∧ 0 < (chunk0 0).1.length ∧ (chunk0 0).1.length < 1048576 ∧ (chunk0 0).1.length % 64 = 0
      ∧ intake1.count ≤ 1 ∧ 0 < intake1.count ∧ ([7, 7] : List Byte).length % 64 ≠ 0
      ∧ (match sealed.intakeWrite intake1 ((sealed.chunkText intake1 0 (chunk0 0)).mapIdx fun k x => (k, x)) noErr with | .done _ => true | _ => false) = true
      ∧ (match bad.intakeWrite intake1 [(0, 1)] noErr with | .stop _ _ => true | _ => false) = true
      ∧ (match full.intakeWrite intake1 [(0, 1)] noErr with | .wait => true | _ => false) = true
      ∧ (match State.intakeChunks intake1 noErr sealed 1 [] with | (_, 1, some 0) => true | _ => false) = true := by
  decide +kernel
theorem witness_TenantKeys :
    let sess (ok : Bool) : State := (secIn 1 0).modSec fun x => { x with spdm := [(true, 5, ok)] }
    let open_ := ((ctx0.put Reg.SEC_STATUS_SEC_STATE 1).modSec fun x => { x with spdm := [(true, 5, true)] })
    let o : KeyOffer := { kind := 1, ctx := 0, gen := 0, vcid := 0, slot := 0, dump := 0, nonce := 0, priv := 0, signed := 0 }
    let offer := open_.modSec fun x => { x with offers := [o] }
    let used := offer.modSec fun x => { x with offers := x.offers.filter (· != o) }
    State.reset.spdmUp true = true ∧ (1 : Byte) ≠ 0 ∧ 1 ≤ (1 : Byte).toNat ∧ (8 : Byte).toNat ≤ 8 ∧ (sess false).spdmUp true = true
      ∧ (sess false).sec.spdm.contains (true, 5, false) = true ∧ (sess true).spdmOpen true 5 = true ∧ (sess false).spdmOpen true 5 = false
      ∧ open_.spdmUp true = true ∧ open_.spdmOpen true 5 = true ∧ open_.secState = 1 ∧ open_.ctxOfVcid 0 = some 0 ∧ open_.slotFor 1 = some 0
      ∧ (offer.sec.offers.find? fun x => x.kind == 1 && x.slot == 0) = some o ∧ offer.spdmOpen true 5 = true ∧ offer.spdmUp true = true
      ∧ open_.sec.offers.find? (fun x => x.kind == 1 && x.slot == 0) = none ∧ (used.installKey o 0).spdmUp true = true ∧ o.kind = 1 ∧ o.slot < 16 ∧ offer.canon = true := by decide +kernel
/-- Every number of a list is a byte. -/
def Bytes (l : List Nat) : Prop := ∀ b ∈ l, b < 256
theorem bytes_sub (l : List Nat) : Bytes (l.map Gcm.sub) := by
  intro b h
  obtain ⟨a, _, rfl⟩ := List.mem_map.1 h
  exact Nat.mod_lt _ (by decide)
theorem bytes_xor {a b : List Nat} (ha : Bytes a) (hb : Bytes b) : Bytes (Gcm.xorBytes a b) := by
  intro x h
  obtain ⟨i, hi, rfl⟩ := List.mem_iff_getElem.1 h
  simp only [Gcm.xorBytes, List.getElem_zipWith]
  exact Nat.xor_lt_two_pow (n := 8) (ha _ (List.getElem_mem _)) (hb _ (List.getElem_mem _))
theorem bytes_be (n v : Nat) : Bytes (Gcm.beBytes n v) := by
  intro b h
  obtain ⟨a, _, rfl⟩ := List.mem_map.1 h
  exact Nat.mod_lt _ (by decide)
theorem xtime_lt (b : Nat) (h : b < 256) : Gcm.xtime b < 256 := by
  have : ∀ b : Fin 256, Gcm.xtime b.val < 256 := by decide +kernel
  exact this ⟨b, h⟩
theorem bytes_next {i rcon : Nat} {last old : List Nat} (hr : rcon < 256) (hl : Bytes last) (ho : Bytes old) : Bytes (Gcm.nextWord i rcon last old) := by
  unfold Gcm.nextWord
  refine bytes_xor ho ?_
  split
  · refine bytes_xor (bytes_sub _) fun b h => ?_
    simp only [List.mem_cons, List.not_mem_nil, or_false] at h
    omega
  · split
    · exact bytes_sub _
    · exact hl
theorem bytes_expand (n i rcon : Nat) (ws : List (List Nat)) (hr : rcon < 256) (h : ∀ w ∈ ws, Bytes w) : ∀ w ∈ Gcm.expand n i rcon ws, Bytes w := by
  induction n generalizing i rcon ws with
  | zero => exact h
  | succ n ih =>
    refine ih _ _ _ (by split <;> first | exact xtime_lt _ hr | exact hr) fun w hw => ?_
    rcases List.mem_cons.1 hw with rfl | hw
    · refine bytes_next hr ?_ ?_
      · cases ws with
        | nil => intro b hb; cases hb
        | cons a l => exact h a List.mem_cons_self
      · rw [List.getD_eq_getElem?_getD]
        cases e : ws[7]? with
        | none => intro b hb; cases hb
        | some a => exact h a (List.mem_of_getElem? e)
    · exact h w hw
theorem bytes_cut4 : ∀ l : List Nat, Bytes l → ∀ w ∈ Gcm.cut4 l, Bytes w
  | a :: b :: c :: d :: l, h, w, hw => by
    rcases List.mem_cons.1 hw with rfl | hw
    · intro x hx
      refine h x ?_
      simp only [List.mem_cons, List.not_mem_nil, or_false] at hx ⊢
      omega
    · exact bytes_cut4 l (fun x hx => h x (by simp [hx])) w hw
  | [], _, w, hw => by cases hw
  | [_], _, w, hw => by cases hw
  | [_, _], _, w, hw => by cases hw
  | [_, _, _], _, w, hw => by cases hw
theorem bytes_roundKeys (k : List Nat) (hk : Bytes k) : ∀ w ∈ Gcm.roundKeys k, Bytes w := by
  intro w hw b hb
  simp only [Gcm.roundKeys] at hw
  obtain ⟨r, _, rfl⟩ := List.mem_map.1 hw
  obtain ⟨u, hu, hx⟩ := List.mem_flatten.1 hb
  exact bytes_expand 52 8 1 _ (by decide) (fun w h => bytes_cut4 k hk w (List.mem_reverse.1 h)) u
    (List.mem_reverse.1 (List.mem_of_mem_drop (List.mem_of_mem_take hu))) b hx
theorem bytes_block (rks : List (List Nat)) (b : List Nat) (h : ∀ w ∈ rks, Bytes w) : Bytes (Gcm.block rks b) := by
  unfold Gcm.block
  refine bytes_xor ?_ ?_
  · intro x hx
    obtain ⟨k, _, rfl⟩ := List.mem_map.1 hx
    rw [List.getD_eq_getElem?_getD]
    cases e : (List.map Gcm.sub _)[5 * k % 16]? with
    | none => decide
    | some a => exact bytes_sub _ a (List.mem_of_getElem? e)
  · rw [List.getD_eq_getElem?_getD]
    cases e : rks[14]? with
    | none => intro b hb; cases hb
    | some a => exact h a (List.mem_of_getElem? e)
theorem beNat_lt (l : List Nat) (h : Bytes l) : Gcm.beNat l < 256 ^ l.length := by
  have key : ∀ (l : List Nat) (n k : Nat), Bytes l → n < 256 ^ k → l.foldl (fun n b => 256 * n + b) n < 256 ^ (k + l.length) := by
    intro l
    induction l with
    | nil => intro n k _ hn; exact hn
    | cons b l ih =>
      intro n k hb hn
      have h1 := hb b List.mem_cons_self
      have h2 : 256 * n + b < 256 ^ (k + 1) := by rw [Nat.pow_succ]; omega
      have := ih _ (k + 1) (fun x hx => hb x (List.mem_cons_of_mem _ hx)) h2
      rw [List.foldl_cons, List.length_cons, show k + (l.length + 1) = k + 1 + l.length by omega]
      exact this
  have := key l 0 0 h (by decide)
  rwa [Nat.zero_add] at this
/-- A GCM tag is a number of 128 bits. -/
theorem tag_lt (key iv aad ct : List Nat) (hk : Bytes key) : Gcm.beNat (Gcm.tagOf key iv aad ct) < 2 ^ 128 := by
  have hb : Bytes (Gcm.tagOf key iv aad ct) := bytes_xor (bytes_be _ _) (bytes_block _ _ (bytes_roundKeys key hk))
  refine Nat.lt_of_lt_of_le (beNat_lt _ hb) ?_
  have hl : (Gcm.tagOf key iv aad ct).length ≤ 16 := by
    simp only [Gcm.tagOf, Gcm.xorBytes, List.length_zipWith, Gcm.beBytes, List.length_map, List.length_range]
    omega
  exact Nat.le_trans (Nat.pow_le_pow_right (by decide) hl) (by decide)
theorem witness_TenantKeys_wraps (o : KeyOffer) : (∃ w : KeyWrapMsg, w.kind = 1 ∧ w.slot = 0 ∧ (o.unwrap w).isSome = true)
    ∧ ∃ w : KeyWrapMsg, w.kind = 1 ∧ w.slot = 0 ∧ o.unwrap w = none := by
  have hk : Bytes (o.kek 0) := bytes_be _ _
  have ht := tag_lt (o.kek 0) (List.replicate 12 0) (Gcm.beBytes 96 o.signed) (Gcm.beBytes 32 (0 : BitVec 256).toNat) hk
  generalize hx : Gcm.beNat (Gcm.tagOf (o.kek 0) (List.replicate 12 0) (Gcm.beBytes 96 o.signed) (Gcm.beBytes 32 (0 : BitVec 256).toNat)) = x at ht
  refine ⟨⟨⟨1, 0, 0, 0, BitVec.ofNat 128 x⟩, rfl, rfl, ?_⟩, ⟨⟨1, 0, 0, 0, if x = 0 then 1 else 0⟩, rfl, rfl, ?_⟩⟩
  · simp only [KeyOffer.unwrap, hx, BitVec.toNat_ofNat, Nat.mod_eq_of_lt ht, beq_self_eq_true, if_true, Option.isSome_some]
  · simp only [KeyOffer.unwrap, hx]
    rw [if_neg]
    by_cases h : x = 0
    · simp [h]
    · simp [h]; omega
theorem witness_OperatorActions :
    let trip := (secIn 1 2).modPins fun x => { x with tripped := true }
    let out := (secIn 1 2).put Reg.HRC_STATUS_OUT_OF_SERVICE 1
    let ready := (setAll (secIn 1 2) (((List.range 8).map fun b => (Reg.OPT_BYP_STATUS_LISTEN_OK b, 1)) ++ [(Reg.GLB_STATUS_RELAY_READY, 1)])).each
      (List.range 8) fun t b => t.modByp b fun x => { x with listener := some (4, 0) }
    let roll := (((at_ State.reset dayTicks).put Reg.SEC_STATUS_FW_STARTED 1).modSec fun x => { x with rollForward := true }).modFw
      fun x => { x with imageA := some ⟨7, 0⟩, imageB := some ⟨7, 0⟩ }
    (∀ c ≤ 3, (secIn c 2).idfortUp = true ∧ (secIn c 2).secState = c ∧ (secIn c 2).conn 0 = 2 ∧ (secIn c 1).conn 0 = 1)
      ∧ ClientCert.absent ≠ .verifies ∧ (secIn 1 1).conn 0 ≠ 2 ∧ trip.conn 0 = 2 ∧ trip.pins.tripped = true ∧ trip.idfortUp = true
      ∧ out.conn 0 = 2 ∧ out.on Reg.HRC_STATUS_OUT_OF_SERVICE = true ∧ out.idfortUp = true
      ∧ ready.conn 0 = 2 ∧ ready.idfortUp = true ∧ ready.on Reg.GLB_STATUS_RELAY_READY = true
      ∧ (∀ b < 8, ready.on (Reg.OPT_BYP_STATUS_LISTEN_OK b) = true ∧ (ready.byp b).listener = some (4, 0)) ∧ 4 + (ready.now - 0) + 3 ≤ 7
      ∧ (secIn 1 2).on Reg.GLB_STATUS_RELAY_READY = false ∧ roll.idfortUp = true ∧ roll.runningImage = some ⟨7, 0⟩ ∧ roll.sec.rollForward = true
      ∧ roll.fw.since + dayTicks ≤ roll.now ∧ roll.get Reg.SEC_FW_STATUS_SVN_MIN < 7 := by decide +kernel
theorem witness_DebugSessions :
    let x (l : Nat) : DebugSession := { level := l, serial := 1, fuses := [4] }
    let op := secIn 1 2
    let open_ := op.modSec fun y => { y with session := some (x 1) }
    let dbg := idle0.modSec fun y => { y with session := some (x 1), halted := [2] }
    let stop := dbg.modCore 0 fun k => { k with halted := true }
    let sealed := setAll dbg [(Reg.SEC_WKEY_SLOT_VALID 2, 1), (Reg.SEC_WKEY_SLOT_CONTEXT 2, 0)]
    let own := setAll sealed [(Reg.CORE_ACC_OWNER_VALID 0, 1), (Reg.CORE_ACC_OWNER_CONTEXT 0, 0)]
    let vend (st : Nat) : State := (secIn st 2).modSec fun y => { y with session := some (x 2) }
    let used := ctx0.modSec fun y => { y with session := some (x 2) }
    let tok : VendorToken := { valid := true, fuses := [] }
    op.idfortUp = true ∧ op.conn 0 = 2 ∧ op.sec.session = none ∧ op.sec.vendorWaits = none ∧ tok.valid = true ∧ { tok with valid := false }.valid = false
      ∧ 2 ≤ op.powerNow ∧ (∀ c < 64, op.active c = true → op.holdsKey c = false) ∧ op.unsealed = true ∧ open_.idfortUp = true ∧ open_.conn 0 = 2
      ∧ open_.sec.session.isSome = true ∧ op.invasive = false ∧ op.debugLevel ≠ 2 ∧ dbg.invasive = true ∧ stop.invasive = true
      ∧ (stop.core 0).halted = true ∧ dbg.sec.halted.contains 2 = true ∧ (dbg.debugRange (.memory 0 4)).2 = false ∧ (dbg.debugRange (.tile 0 0)).2 = false
      ∧ own.invasive = true ∧ own.sec.session = some (x 1) ∧ (own.debugRange (.scratchpad 0 0 4)).2 = true
      ∧ (vend 1).debugLevel = 2 ∧ 2 ≤ (vend 1).powerNow ∧ (∀ c < 64, (vend 1).active c = false) ∧ used.debugLevel = 2 ∧ used.active 0 = true
      ∧ (vend 1).sec.session = some (x 2) ∧ (4#16).toNat ∈ (x 2).fuses ∧ (5#16).toNat ∉ (x 2).fuses ∧ (vend 3).secState = 3 ∧ (vend 3).debugLevel = 2
      ∧ (vend 1).secState ≠ 3 := by decide +kernel

/-! ### Witnesses: power, pins, firmware, registers -/

def pins (s : State) (f : PinSt → PinSt) : State := { s with pins := f s.pins }
theorem witness_PowerAndPins :
    let r := State.reset
    let passed (n : Nat) : State := setTime (at_ r n) fun x => { x with base := n - 1, top := n }
    let sec := (passed 244141).modPow fun x => { x with nSec := 3 }
    let under := pins r fun x => { x with under := some 0 }
    let exits := setAll (pins r fun x => { x with enableTick := true }) [(Reg.GLB_STATUS_RELAY, 1), (Reg.SWT_CTRL_ENABLE, 1)]
    sec.atMultiple 244141 = true ∧ sec.pow.secLast ≠ sec.now ∧ sec.pow.nSec ≠ 0 ∧ (passed 256).atMultiple 256 = true
      ∧ (passed 256).pow.dutyLast ≠ (passed 256).now ∧ (passed 256).time.pos ≤ 6 ∧ 2 ≤ (passed 256).powerNow ∧ r.atMultiple 256 = false
      ∧ 115 ≤ (115 : Byte).toNat ∧ (114 : Byte).toNat < 115 ∧ 2 ≤ r.powerNow
      ∧ (pins r fun x => { x with v48 := false }).pins.v48 = false ∧ 46000 ≤ (46000 : BitVec 16).toNat ∧ (57000 : BitVec 16).toNat ≤ 57000
      ∧ (45999 : BitVec 16).toNat < 46000 ∧ 57000 < (57001 : BitVec 16).toNat ∧ r.pins.v48 = true ∧ (39999 : BitVec 16).toNat < 40000
      ∧ under.pins.v48 = true ∧ 44000 ≤ (44000 : BitVec 16).toNat ∧ under.pins.under.isSome = true
      ∧ (pins r fun x => { x with v12 := false }).pins.v12 = false ∧ r.pins.v12 = true ∧ r.pins.body = true
      ∧ (pins r fun x => { x with body := false }).pins.body = false ∧ (pins r fun x => { x with mated := false }).pins.body = true
      ∧ (pins r fun x => { x with mated := false }).pins.mated = false ∧ r.pins.resetLow = false ∧ (pins r fun x => { x with resetLow := true }).pins.resetLow = true
      ∧ r.pins.pcieUp = true ∧ (r.put Reg.GLB_STATUS_PWR_OK 1).on Reg.GLB_STATUS_PWR_OK = true ∧ r.pins.dawn = true
      ∧ exits.on Reg.GLB_STATUS_RELAY = true ∧ exits.on Reg.SWT_CTRL_ENABLE = true ∧ exits.pins.enableTick = true ∧ r.idfortUp = true := by decide +kernel
theorem witness_FirmwareAndRegisters :
    let r := State.reset
    let v (n : Nat) : Word := BitVec.ofNat 32 n
    let len := r.put Reg.GLB_FW_LEN_BYTES 64
    let ready := setAll r [(fwVerified 0, 1), (fwVerified 1, 1)]
    let runs := setAll ready [(Reg.SEC_STATUS_FW_STARTED, 1), (Reg.GLB_FW_SWAP_LO_FRAME, 2)]
    let late := runs.put Reg.GLB_FW_SWAP_LO_FRAME 1
    let load := r.modFw fun x => { x with load := some (0, 0, 64) }
    let good : ImageCheck := { readError := false, malformed := false, key := 0, sigOk := true, svn := 1, digest := 0 }
    let swap := runs.modFw fun x => { x with swap := some 0 }
    let gap := r.put (Reg.OPT_PORT_STATUS_GAP 0) 1
    let cal (n : Nat) : State := ((portRings 0).foldl (fun t k => t.modTuner k fun y => { y with st := n }) r).modOpt fun o => { o with cal := some (0, 0, 0) }
    r.canon = true ∧ (v 2).getLsbD 1 = true ∧ (v 2).getLsbD 2 = false ∧ (v 2).getLsbD 3 = false ∧ len.canon = true
      ∧ (r.put Reg.GLB_FW_CTRL_HALF 2).loadRefused 0 = true ∧ (len.put Reg.GLB_FW_CTRL_HALF 2).loadRefused 0 = false
      ∧ (v 4).getLsbD 1 = false ∧ (v 4).getLsbD 2 = true ∧ (v 4).getLsbD 3 = false ∧ (runs.put Reg.GLB_FW_CTRL_HALF 4).fwRuns = true
      ∧ (r.put Reg.GLB_FW_CTRL_HALF 4).on (fwVerified 0) = false ∧ (ready.put Reg.GLB_FW_CTRL_HALF 4).fwRuns = false
      ∧ (ready.put Reg.GLB_FW_CTRL_HALF 4).on (fwVerified 0) = true ∧ ready.canon = true ∧ runs.canon = true
      ∧ (v 8).getLsbD 1 = false ∧ (v 8).getLsbD 2 = false ∧ (v 8).getLsbD 3 = true
      ∧ runs.on (fwVerified (1 - runs.get Reg.SEC_STATUS_FW_HALF)) = true ∧ runs.on Reg.SEC_STATUS_FW_STARTED = true
      ∧ runs.frame + 2 ≤ runs.get64 Reg.GLB_FW_SWAP_LO_FRAME Reg.GLB_FW_SWAP_HI_FRAME ∧ runs.fw.swap = none
      ∧ late.get64 Reg.GLB_FW_SWAP_LO_FRAME Reg.GLB_FW_SWAP_HI_FRAME < late.frame + 2 ∧ r.on (fwVerified (1 - r.get Reg.SEC_STATUS_FW_HALF)) = false
      ∧ swap.fw.swap = some 0 ∧ swap.on Reg.SEC_STATUS_FW_STARTED = true
      ∧ load.fw.load = some (0, 0, 64) ∧ { good with readError := true }.readError = true ∧ good.readError = false ∧ load.secState ≠ 3 ∧ load.canon = true
      ∧ { good with sigOk := false }.readError = false ∧ load.verifyImage { good with sigOk := false } 0 (load.get Reg.SEC_FW_STATUS_SVN_MIN) = 2
      ∧ (setAll (at_ r 244141) [(Reg.SEC_STATUS_FW_STARTED, 1)]).fw.since + 244141 ≤ (at_ r 244141).now
      ∧ r.on Reg.GLB_CAL_CTRL_BUSY = false ∧ (v 64).getLsbD 6 = true ∧ bitsOf 64 1 5 < 16 ∧ (v 64).getLsbD 0 = false ∧ (v 65).getLsbD 0 = true
      ∧ r.on (Reg.OPT_PORT_STATUS_GAP 0) = false ∧ gap.on (Reg.OPT_PORT_STATUS_GAP 0) = true ∧ gap.canon = true
      ∧ (r.put (Reg.OPT_LC_STATUS_WARN 0) 1).on (Reg.OPT_LC_STATUS_WARN 0) = true
      ∧ (∀ n ∈ [4, 6], (cal n).opt.cal = some (0, 0, 0) ∧ (cal n).canon = true ∧ ∀ k ∈ portRings 0, ((cal n).tuner k).st = n ∧ ((cal n).tuner k).attempt = 0)
      ∧ Reg.rowAt (r.regKey 0xFFFFFC) = none ∧ (Reg.rowAt (r.regKey Reg.SYN_CTRL)).isSome = true := by decide +kernel
theorem witness_FirmwareAndRegisters_rows :
    ((Reg.rowAt Reg.SYN_CTRL).map fun r => r.fields.any writable && (r.fields.all fun f => !writable f || f.fw) && !(writeOps.map (·.1)).contains r.base) = some true := by
  decide +kernel
theorem witness_FirmwareAndRegisters_image (i : ImageCheck) (h : i.sigOk = true) (hm : i.malformed = false) (k : Nat) :
    (State.reset.modFw fun x => { x with load := some (0, 0, 64) }).verifyImage i k 0 = 1 ∧ State.reset.get Reg.SEC_FW_STATUS_SVN_MIN = 0
      ∧ State.reset.sec.idfortMin = 0 ∧ State.reset.verifyImage i k 0 = 1 := by
  refine ⟨?_, by decide +kernel, by decide +kernel, ?_⟩ <;>
    simp [State.verifyImage, State.keyRevoked, State.modFw, State.reset, sget, bitOn, h, hm]
theorem witness_FirmwareAndRegisters_halted :
    let s := State.reset.modSec fun x => { x with halted := [2] }
    s.sec.halted.contains (2 : Fin 8).val = true ∧ sget (fun _ => 0) s.sec.cpSteps 2 = 0 ∧ s.canon = true := by decide +kernel
theorem witness_LatchingReads : (State.reset.obj (State.reset.get Reg.SYN_OBJ_SEL_INDEX)).barrier = false
    ∧ ((State.reset.setObj 0 { barrier := true }).obj ((State.reset.setObj 0 { barrier := true }).get Reg.SYN_OBJ_SEL_INDEX)).barrier = true := by decide +kernel
theorem witness_FunctionSpecialValues : (1 : Nat) ≠ 0 := by decide

/-! ### Results of the manual's own examples -/

/-- R4's example: logical core 95 is physical core 103, and with CL5 of CD2 fenced, cores 84–87 are 104–107. -/
theorem test_core_placement : State.reset.physCore 95 = 103 ∧ (State.reset.physCore 84 = 92)
    ∧ [84, 85, 86, 87].map (State.reset.put (cmapFld 2 5) 8).physCore = [104, 105, 106, 107] := by decide +kernel
/-- R57's example: the moment group with A = 0.75 has scale 0x16DC and codes 0x7E and 0xCC. -/
theorem test_moment_group :
    let r := momentEncode (num32 0x3F400000 :: num32 0xBC23D70A :: List.replicate 126 (.zero false))
    r.2.1 = 0x16DC ∧ r.1.take 3 = [0x7E, 0xCC, 0] ∧ r.2.2 = false := by decide +kernel
/-- R68's example: 0x3F816000 to BF16 under SR rounds up from 0xA000 on. -/
theorem test_stochastic_rounding :
    (Fmt.bf16.encode (.sr 0x9FFF) false true (num32 0x3F816000)).1 = 0x3F81 ∧ (Fmt.bf16.encode (.sr 0xA000) false true (num32 0x3F816000)).1 = 0x3F82 := by
  decide +kernel
/-- R76's example: the MXFP4 block of 7.0, −0.3, 1.25 under both scale rules. -/
theorem test_block_encoding :
    let vs := ([0x40E00000, 0xBE99999A, 0x3FA00000] ++ List.replicate 29 0).map fun w => ((Fmt.fp32.decode w, Rm.rne) : Val × Rm)
    (let r := Fmt.e2m1.encodeBlock false false vs; r.1 = 0x80 ∧ r.2.1.take 3 = [6, 8, 1] ∧ r.2.2 = 0)
      ∧ (let r := Fmt.e2m1.encodeBlock true false vs; r.1 = 0x7F ∧ r.2.1.take 3 = [7, 9, 2] ∧ r.2.2 = 4) := by decide +kernel
/-- R126's example: the adder tree keeps 16 of the 17 ones beside 2²⁴. -/
theorem test_row_sum : code32 (rowSum .rne false (num32 0x4B800000 :: List.replicate 17 .one)).1 = 0x4B800008 := by decide +kernel
/-- The operands of R99's example: A at 0 with its scales at 64, B at 32 with its scales at 65. -/
def mxRun : State :=
  run0.modCore 0 fun k => { k with sp := [(0, 0x78), (4, 0x18), (8, 0xF8), (32, 0x78), (36, 0x18), (40, 0x78), (64, 0x83), (65, 0x83)] }
def mxMma (exact : Bool) : MmaArgs :=
  { tile := 0, acc := false, exact := exact, anchor := none, m := 1, n := 1, k := 12, aAddr := 0, aFmt := .e4m3, aScale := some 64
    bAddr := 32, bFmt := .e4m3, bScale := some 65, trans := false, keep := false }
/-- R99's example: three products cancel in the ordered regime, and read 1.0 in the exact one. -/
theorem test_mma_ordered_and_exact :
    mxRun.canon = true ∧ (mxMma false).operandsOk = true ∧ code32 ((mxRun.mmaRun 0 (mxMma false) launch4).tileValue 0 0 0 0).num = 0
      ∧ code32 ((mxRun.mmaRun 0 (mxMma true) launch4).tileValue 0 0 0 0).num = 0x3F800000 := by decide +kernel
/-- Vectors 13 and 14 of the standard that R301 names: AES-256-GCM under the all-zero key and IV, of no text and of 16 zeros. -/
theorem test_gcm_vectors :
    let k := List.replicate 32 0
    let iv := List.replicate 12 0
    let c := Gcm.crypt k iv (List.replicate 16 0)
    Gcm.beNat (Gcm.tagOf k iv [] []) = 0x530F8AFBC74536B9A963B4F1C4CB738B ∧ Gcm.beNat c = 0xCEA7403D4D606B6E074EC5D3BAF39D18
      ∧ Gcm.beNat (Gcm.tagOf k iv [] c) = 0xD0D1C8A799996BF0265B98B5D48AB919 := by decide +kernel

end Sys2Proof.Tests
end

section
/-! ## The reset state, and what a write to a register field leaves -/
namespace Sys2Proof.Machine

/-- Settles O2: reset lists no register, byte or core, and an empty map is canonical. -/
theorem resetIsCanonical : Obligations.ResetIsCanonical :=
  State.canon_iff.2 ⟨swf_nil, swf_nil, swf_nil, scratchOk_nil⟩

/-- A field that does not meet the one written keeps its value. -/
theorem State.get_put_disjoint {s : State} (h : s.canon = true) {f g : Reg.Fld} (v : Nat) (hf : f.lo + f.w ≤ 32)
    (hg : g.reg ≠ f.reg ∨ g.lo + g.w ≤ f.lo ∨ f.lo + f.w ≤ g.lo) : (s.put f v).get g = s.get g := by
  by_cases hr : g.reg = f.reg
  · rcases hg.resolve_left (absurd hr) with hbelow | habove
    · exact State.get_put_below h v hf hr hbelow
    · exact State.get_put_above h v hf hr habove
  · exact State.get_put_ne h v hr

/-- Settles O6, by the laws of what a register, a field and a byte read after a write to a field. -/
theorem fieldWriteReadsBack : Obligations.FieldWriteReadsBack := by
  intro s f v h hf
  exact ⟨State.get_put_same h v hf, fun _ hg => State.get_put_disjoint h v hf hg,
    fun _ ha => State.reg_put_ne h v ha, State.byteAt_put f v⟩

end Sys2Proof.Machine
end

section
/-! ## Every command keeps the canonical form

Each proof follows its command's definition: `.ite` at an `if`, `split` at a `match`, and at each answer the laws of the
canonical form (Laws/Canon*.lean) of the updates that lead to it, from the last one inwards. A short proof
stands in its command's case of `exec_canon`, a longer one is a lemma of its own. -/
namespace Sys2Proof.Machine

/-- The state that a command answers, where it answers one, is in canonical form. -/
def NextCanon : Host.Outcome State Fault Refusal → Prop
  | .next t => t.canon = true
  | _ => True

theorem nextCanon_iff {o : Host.Outcome State Fault Refusal} : NextCanon o ↔ ∀ t, o = .next t → t.canon = true := by
  cases o <;> simp [NextCanon]

/-- A command that chooses between two answers, most often between doing nothing and its effect. -/
theorem NextCanon.ite {c : Prop} [Decidable c] {a b : Host.Outcome State Fault Refusal} (ha : NextCanon a)
    (hb : NextCanon b) : NextCanon (if c then a else b) := by
  split
  · exact ha
  · exact hb

variable {s : State}

/-- A choice between two states of the form. -/
theorem ite_canon {c : Prop} [Decidable c] {a b : State} (ha : a.canon = true) (hb : b.canon = true) :
    (if c then a else b).canon = true :=
  canon_ite (fun _ => ha) fun _ => hb

/-- An update of a core that leaves its scratchpad. -/
theorem State.modCore_keeps (h : s.canon = true) {c : Nat} {f : Core → Core}
    (hf : ∀ k, (f k).sp = k.sp := by intro; rfl) : (s.modCore c f).canon = true := by
  refine State.modCore_canon h c f ?_
  rw [hf]
  exact State.canon_sp h c

/-- An update done under a condition, for an update that keeps the form of every state. -/
theorem State.when_keeps (h : s.canon = true) {b : Bool} {f : State → State}
    (hf : ∀ t, t.canon = true → (f t).canon = true) : (s.when b f).canon = true :=
  State.when_canon h b f fun _ => hf s h

/-- A request of the operator that is done. -/
theorem some_canon (h : s.canon = true) : ∀ t, some s = some t → t.canon = true := by
  rintro _ ⟨⟩
  exact h

/-- A request of the operator that is refused under a condition. -/
theorem none_or_canon {c : Prop} [Decidable c] {o : Option State} (ho : ∀ t, o = some t → t.canon = true) :
    ∀ t, (if c then none else o) = some t → t.canon = true := by
  intro t ht
  split at ht
  · cases ht
  · exact ho t ht

section Commands
open State
variable (h : s.canon = true)
include h

/-! ### The commands of Machine/Sync.lean -/

theorem execSyncAck_canon {m} : NextCanon (execSyncAck m s) := by
  unfold execSyncAck
  split
  · exact retrySync_canon h
  · exact retrySync_canon (ackSignal_canon h _)

theorem execSyncNack_canon {m} : NextCanon (execSyncNack m s) := by
  dsimp only [execSyncNack]
  split
  · exact h
  · exact retrySync_canon (failSignal_canon h ..)

theorem execRemoteSignalTimeout_canon {tag} : NextCanon (execRemoteSignalTimeout tag s) := by
  unfold execRemoteSignalTimeout
  split
  · exact h
  · exact .ite h <| retrySync_canon (failSignal_canon h ..)

theorem execSyncWatchdog_canon {w} : NextCanon (execSyncWatchdog w s) := by
  cases w with
  | replay c =>
    dsimp only [execSyncWatchdog]
    split
    · exact h
    · exact .ite h <| retrySync_canon (breakObj_canon (turn_canon h _) ..)
  | desc r i =>
    dsimp only [execSyncWatchdog]
    split
    · exact h
    split
    · exact h
    · exact .ite h <|
        .ite (retrySync_canon (breakObj_canon (turn_canon h _) ..)) <|
        faultOp_canon (mark_canon (bump_canon (turn_canon h _) ..) _) ..
  | core c =>
    dsimp only [execSyncWatchdog]
    split
    · exact h
    refine .ite h <| .ite ?_ <| stopLaunch_canon (mark_canon (bump_canon (turn_canon h _) ..) _) ..
    split
    · exact h
    · exact retrySync_canon (breakObj_canon (turn_canon h _) ..)

/-! ### The commands of Machine/Optics.lean -/

theorem execRingLock_canon {r} : NextCanon (execRingLock r s) := by
  dsimp only [execRingLock]
  refine .ite h <| .ite (modTuner_canon h ..) ?_
  split
  · exact .ite (attemptFails_canon h ..) h
  · exact h

theorem execToneCheckEnd_canon {r tones} : NextCanon (execToneCheckEnd r tones s) := by
  unfold execToneCheckEnd
  extract_lets p lam k x s1 s2 s3 s4 s5
  have h1 : s1.canon = true := modTuner_canon h ..
  have h2 : s2.canon = true := modTuner_canon h1 ..
  have h4 : s4.canon = true := goAfter_canon (ite_canon (resumeBus_canon h2 ..) h2) ..
  split
  · exact h
  refine .ite h <| .ite (refreshPort_canon (ite_canon h4 ?_) _) <|
    attemptFails_canon (wrongLambda_canon h1 ..) ..
  exact foldl_canon h4 _ _ fun _ _ ht => ite_canon (quietOff_canon ht ..) ht

theorem execRingSweepEnd_canon {r extremum} : NextCanon (execRingSweepEnd r extremum s) := by
  dsimp only [execRingSweepEnd]
  split
  · exact h
  refine .ite h ?_
  split
  · exact attemptFails_canon h ..
  · exact modTuner_canon h ..

theorem execLaneAlarm_canon {port} : NextCanon (execLaneAlarm port s) := by
  dsimp only [execLaneAlarm]
  split
  · exact h
  · exact .ite (modPort_canon h ..) <|
      each_canon (mark_canon (bump_canon (modPort_canon h ..) ..) _) _ _ fun _ _ ht => sendTo_canon
        (shortCheck_canon ht _) ..

theorem execLaneMoveSwitch_canon {port} : NextCanon (execLaneMoveSwitch port s) := by
  unfold execLaneMoveSwitch
  extract_lets p
  split
  · exact h
  refine .ite h ?_
  extract_lets s1 s2 s3 s4
  have h1 : s1.canon = true := modPort_canon (put_canon h ..) ..
  have h2 : s2.canon = true :=
    ite_canon h1 (quietOff_canon (quietOff_canon (quietOff_canon h1 ..) ..) ..)
  have h3 : s3.canon = true := refreshPort_canon h2 _
  have h4 : s4.canon = true := by
    unfold s4
    split
    · exact ite_canon (startMove_canon h3 ..) h3
    · exact h3
  exact sendBeacon_canon h4 _

theorem execSpareLockTimeout_canon {lam} : NextCanon (execSpareLockTimeout lam s) := by
  unfold execSpareLockTimeout
  split
  · exact h
  · exact .ite h <| nextSpare_canon (setLc_canon h ..) _

theorem execSpareMatched_canon {lam} : NextCanon (execSpareMatched lam s) := by
  unfold execSpareMatched
  split
  · exact h
  · exact .ite h <| sendBeacons_canon (modSwap_canon (setLc_canon h ..) ..)

theorem execLaserSourceSwitch_canon {lam} : NextCanon (execLaserSourceSwitch lam s) := by
  unfold execLaserSourceSwitch
  split
  · exact h
  extract_lets s1 s2 s3
  have h1 : s1.canon = true := setLc_canon (put_canon h ..) ..
  have h3 : s3.canon = true := modOpt_canon (modSwap_canon (mark_canon h1 _) ..) _
  exact .ite h <| sendBeacons_canon (park_canon h3)

theorem execOldSourceDark_canon {lam pc} : NextCanon (execOldSourceDark lam pc s) := by
  unfold execOldSourceDark
  split
  · exact h
  extract_lets k s1 s2
  have h1 : s1.canon = true := dropSwap_canon h _
  have h2 : s2.canon = true := modOpt_canon (put_canon h1 ..) _
  refine .ite h <| .ite ?_ <| .ite (beginSwap_canon h2 _) <| handBack_canon (retire_canon h1 _) _
  exact each_canon h1 _ _ fun _ _ ht => ite_canon (startMove_canon (quietOff_canon ht ..) ..) (quietOff_canon ht ..)

theorem execLaserFail_canon {cart} : NextCanon (execLaserFail cart s) := by
  unfold execLaserFail
  extract_lets n lam s1
  split
  · exact h
  refine .ite h ?_
  extract_lets s2 k s3
  have h2 : s2.canon = true := mark_canon (bump_canon (logRec_canon (modOpt_canon h _) _) ..) _
  have h3 : s3.canon = true := setLc_canon h2 ..
  clear_value k
  cases k with
  | some k => exact park_canon (loseLaser_canon h3 ..)
  | none =>
    dsimp only
    split
    · exact park_canon (nextSpare_canon h3 _)
    · exact park_canon h3

theorem execCartridgeInsert_canon {cart pc} : NextCanon (execCartridgeInsert cart pc s) := by
  unfold execCartridgeInsert
  extract_lets n s1 s2 s3
  have h1 : s1.canon = true := put_canon (put_canon (put_canon (mark_canon h _) ..) ..) ..
  have h3 : s3.canon = true := setLc_canon (modOpt_canon (put_canon h1 ..) _) ..
  exact .ite (ite_canon (setLc_canon h3 ..) (handBack_canon h3 _)) <| park_canon h3

/-! ### The commands of Machine/Ports.lean -/

theorem execServiceMessageReceive_canon {port bytes route} :
    NextCanon (execServiceMessageReceive port bytes route s) := by
  unfold execServiceMessageReceive
  extract_lets p hdr recv body way s1 s2 ahead
  have h2 : s2.canon = true := when_keeps (modPort_canon h ..) fun _ ht => svcResend_canon ht ..
  exact .ite h <|
    .ite (invertSvc_canon (svcIdle_canon h ..) ..) <|
    .ite (ite_canon h2 (svcIdle_canon h2 ..)) <|
    .ite (svcIdle_canon (routeSvc_canon (modPort_canon h2 ..) ..) ..) <|
    .ite h2 <| svcIdle_canon h2 ..

theorem execPortTrainingDone_canon {port} : NextCanon (execPortTrainingDone port s) := by
  dsimp only [execPortTrainingDone]
  split
  · exact h
  · exact .ite h <| refreshPort_canon (modPort_canon h ..) _

theorem execDelayMeasureDone_canon {port} : NextCanon (execDelayMeasureDone port s) := by
  dsimp only [execDelayMeasureDone]
  split
  · exact h
  · exact .ite h <| modPort_canon (put_canon (mark_canon (put_canon (fresh_canon h) ..) _) ..) ..

theorem execPortGapEnd_canon {port} : NextCanon (execPortGapEnd port s) := by
  dsimp only [execPortGapEnd]
  split
  · exact h
  · exact .ite h <| refreshPort_canon (modPort_canon (put_canon h ..) ..) _

theorem execBypassMotionStart_canon {b} : NextCanon (execBypassMotionStart b s) :=
  .ite h <|
    .ite (closeBypass_canon h _) <|
    .ite h <|
    .ite (put_canon h ..) <|
    .ite (move_canon (put_canon (put_canon h ..) ..) ..) <|
    .ite h <|
    mark_canon (mark_canon h _) _

theorem execBypassMotionEnd_canon {b} : NextCanon (execBypassMotionEnd b s) :=
  .ite (foldl_canon (put_canon h ..) _ _ fun _ _ ht => sendBeacon_canon ht _) <| .ite (put_canon h ..) h

/-! ### The commands of Machine/Submit.lean -/

theorem execDescriptorFetch_canon {ring slot e} : NextCanon (execDescriptorFetch ring slot e s) := by
  dsimp only [execDescriptorFetch]
  split
  · exact h
  split
  · exact mark_canon h _
  split
  next t ht => exact seqFail_canon (slotOf_error_canon ht h) ..
  next t d ht =>
    have h1 : t.canon = true := slotOf_ok_canon ht h
    exact .ite (retryPosts_canon (accept_canon h1 ..)) <| seqFail_canon h1 ..

theorem execSignal_canon {ring} : NextCanon (execSignal ring s) := by
  dsimp only [execSignal]
  split
  · exact h
  refine .ite h ?_
  refine .ite ?_ <|
    .ite (signalSelf_canon (issue_canon h ..) ..) <|
    .ite h <|
    sendSignal_canon (issue_canon h ..) ..
  split
  · exact rejectXt_canon h ..
  · exact signal_canon (fillXt_canon (finish_canon (issue_canon h ..) ..) ..) ..

theorem execWait_canon {ring} : NextCanon (execWait ring s) := by
  dsimp only [execWait]
  split
  · exact h
  refine .ite h <| .ite (mark_canon h _) ?_
  split
  · exact rejectXt_canon h ..
  · exact .ite (finish_canon (fillXt_canon (issue_canon h ..) ..) ..) <|
      modOp_canon (fillXt_canon (issue_canon h ..) ..) ..

theorem execBarrier_canon {ring} : NextCanon (execBarrier ring s) := by
  dsimp only [execBarrier]
  split
  · exact h
  refine .ite h <| .ite (mark_canon h _) ?_
  split
  · exact rejectXt_canon h ..
  · exact .ite h <| .ite (reject_canon (raise_canon h _) ..) <| issueArrival_canon h ..

theorem execFence_canon {ring} : NextCanon (execFence ring s) := by
  dsimp only [execFence]
  split
  · refine .ite (finish_canon h ..) ?_
    split
    · exact ite_canon (finish_canon (issue_canon h ..) ..) (issue_canon h ..)
    · exact h
  split
  · exact ite_canon (finish_canon (issue_canon h ..) ..) (issue_canon h ..)
  · exact h

theorem execFrameOverrun_canon {ring idx} : NextCanon (execFrameOverrun ring idx s) := by
  dsimp only [execFrameOverrun]
  split
  · exact h
  · exact .ite h <| faultOp_canon (turn_canon h _) ..

theorem execDescriptorComplete_canon {ring idx e} : NextCanon (execDescriptorComplete ring idx e s) := by
  unfold execDescriptorComplete
  split
  · split
    · exact h
    · exact sigAfter_canon (by simpa using h) _
  split
  · exact h
  · exact .ite h <|
      .ite (ite_canon (reject_canon h ..) h) <|
      flushBreaks_canon (sigAfter_canon (recordOp_canon h ..) _)

theorem execMbxRx_canon {who ch} : NextCanon (execMbxRx who ch s) := by
  dsimp only [execMbxRx]
  split
  · split
    · exact answer_canon (setChan_canon h ..) _
    · exact answer_canon (setChan_canon h ..) _
  refine .ite ?_ <| answer_canon h _
  split
  · exact answer_canon (setChan_canon h ..) _
  · exact answer_canon (setChan_canon h ..) _

/-! ### The commands of Machine/Fabric.lean -/

theorem execSchedLoadDone_canon : NextCanon (execSchedLoadDone s) := by
  unfold execSchedLoadDone
  split
  · exact h
  extract_lets s1
  have h1 : s1.canon = true := modFab_canon (put_canon (put_canon h ..) ..) _
  refine .ite (loadFails_canon h1 ..) ?_
  split
  · exact loadFails_canon h1 ..
  · exact modFab_canon (mark_canon h1 _) _

theorem execPhase_canon {ring} : NextCanon (execPhase ring s) := by
  dsimp only [execPhase]
  split
  · exact h
  · exact .ite (finish_canon (issue_canon h ..) ..) <|
      .ite (reject_canon (raise_canon h _) ..) <|
      modFab_canon (put64_canon (mark_canon (issue_canon h ..) _) ..) _

theorem execScheduleSwap_canon : NextCanon (execScheduleSwap s) := by
  unfold execScheduleSwap
  split
  · exact h
  refine .ite h ?_
  extract_lets s1 s2
  have h1 : s1.canon = true := put_canon (put_canon (put_canon (turn_canon h _) ..) ..) ..
  have h2 : s2.canon = true := moveFlows_canon (modFab_canon (mark_canon h1 _) _) _
  split
  · exact finish_canon h2 ..
  · exact h2

theorem execCellLaunch_canon {slot port term} : NextCanon (execCellLaunch slot port term s) := by
  dsimp only [execCellLaunch]
  refine .ite h <| .ite (idleSlot_canon h ..) ?_
  split
  · exact idleSlot_canon h ..
  refine .ite (idleSlot_canon h ..) ?_
  split
  · exact launchCell_canon h ..
  · exact idleSlot_canon (relaunchFails_canon h ..) ..

theorem execCellInflightTimeout_canon {port term lseq} : NextCanon (execCellInflightTimeout port term lseq s) := by
  unfold execCellInflightTimeout
  split
  · exact h
  · exact .ite (refuseCell_canon h ..) h

theorem execDelivered_canon {m} : NextCanon (execDelivered m s) := by
  unfold execDelivered
  split
  · exact h
  · exact .ite (dropDead_canon (staleReport_canon h) _) <|
      .ite (dropDead_canon h _) <|
      checkXfers_canon (countUnits_canon (modFab_canon h _) _) _

theorem execCellRefusal_canon {m} : NextCanon (execCellRefusal m s) := by
  dsimp only [execCellRefusal]
  split
  · exact h
  refine .ite (dropDead_canon (staleReport_canon h) _) <|
    .ite (dropDead_canon h _) <|
    .ite (engineFails_canon (refusalOf_canon h ..) ..) ?_
  split
  · exact h
  · exact faultOp_canon (refusalOf_canon h ..) ..

theorem execDeliveryTimeout_canon {xfer} : NextCanon (execDeliveryTimeout xfer s) := by
  dsimp only [execDeliveryTimeout]
  split
  · exact h
  refine .ite h <| .ite (engineFails_canon h ..) ?_
  split
  · exact h
  · exact faultOp_canon h ..

theorem execCellReceive_canon {slot port c e} : NextCanon (execCellReceive slot port c e s) := by
  unfold execCellReceive
  extract_lets p w express fixed origin s0 idle s1
  have h0 : s0.canon = true := noteLanes_canon h ..
  have h1 : s1.canon = true := ite_canon (mark_canon (bump_canon h0 ..) _) h0
  exact .ite h <| .ite (emit_canon h _) <| .ite (emit_canon h _) <| .ite h <| .ite h0 <| terminate_canon h1 ..

theorem execRouteEntryEffect_canon {index} : NextCanon (execRouteEntryEffect index s) := by
  unfold execRouteEntryEffect
  extract_lets m due v s1 s2 mine engines s3 answers s4
  have h1 : s1.canon = true := modFab_canon h _
  have h2 : s2.canon = true := each_canon h1 _ _ fun _ _ ht => ite_canon (routeLost_canon ht ..) ht
  have h3 : s3.canon = true := each_canon h2 _ _ fun _ _ ht => engineFails_canon (missCells_canon ht _) ..
  have h4 : s4.canon = true := modFab_canon (missCells_canon h3 _) _
  exact .ite h <| .ite h1 <| each_canon h4 _ _ fun _ _ ht => bufferLost_canon ht _

theorem execReroute_canon {port} : NextCanon (execReroute port s) := by
  dsimp only [execReroute]
  refine .ite (.ite (modPort_canon h ..) h) ?_
  split
  · exact h
  · exact .ite h <| mark_canon (modFab_canon (modPort_canon h ..) _) _

theorem execKeySwitch_canon : NextCanon (execKeySwitch s) := by
  dsimp only [execKeySwitch]
  split
  · exact h
  · exact .ite h <| modFab_canon (put_canon h ..) _

theorem execOldKeyErase_canon : NextCanon (execOldKeyErase s) := by
  unfold execOldKeyErase
  split
  · exact h
  · exact .ite h <| dropLinkKey_canon (modFab_canon (put_canon h ..) _) _

/-! ### The commands of Machine/Training.lean -/

theorem execStepOpen_canon {ctx} : NextCanon (execStepOpen ctx s) := by
  dsimp only [execStepOpen]
  refine .ite h ?_
  split
  · exact .ite h <| openReplay_canon (turn_canon h _) ..
  · exact .ite h <|
      .ite (openMissed_canon h _) <|
      .ite h <|
      openAttempt_canon (applyFence_canon (turn_canon h _)) ..

theorem execNoon_canon {ring} : NextCanon (execNoon ring s) := by
  unfold execNoon
  split
  · exact h
  extract_lets c vid same s1 s2 vote
  refine .ite (modCtx_canon h ..) <| .ite h <| .ite (mark_canon h _) ?_
  split
  · exact rejectXt_canon h ..
  extract_lets b s3
  have h1 : s1.canon = true := ite_canon h (clearVote_canon h ..)
  have h2 : s2.canon = true := ite_canon h1 (clearVote_canon h1 ..)
  exact .ite h <| .ite (reject_canon (raise_canon h _) ..) <| issueArrival_canon (modCtx_canon h2 ..) ..

theorem execClose_canon {ring} : NextCanon (execClose ring s) := by
  unfold execClose
  split
  · exact h
  · exact .ite (reject_canon (raise_canon h _) ..) <| issue_canon h ..

theorem execCloseReady_canon {ctx} : NextCanon (execCloseReady ctx s) := by
  unfold execCloseReady
  split
  · exact h
  · exact .ite h <| mark_canon h _

theorem execCloseDeadline_canon {ctx} : NextCanon (execCloseDeadline ctx s) := by
  dsimp only [execCloseDeadline]
  split
  · exact h
  · exact .ite h <|
      retrySync_canon (modCtx_canon (faultOp_canon (when_keeps h fun _ ht => breakOpen_canon ht _) ..) ..)

theorem execVotedTimeout_canon {ctx} : NextCanon (execVotedTimeout ctx s) :=
  .ite h <| retrySync_canon (breakObj_canon (modCtx_canon (discardNext_canon (mark_canon h _) _) ..) ..)

theorem execAttemptDiscard_canon {ctx} : NextCanon (execAttemptDiscard ctx s) := by
  unfold execAttemptDiscard
  extract_lets c
  split
  · exact h
  refine .ite h ?_
  extract_lets s1
  have h1 : s1.canon = true := modCtx_canon (turn_canon h _) ..
  exact .ite (ite_canon (retrySync_canon (discardAttempt_canon h1 ..)) h1) <|
    ite_canon (discardClosed_canon h1 ..) h1

theorem execReplayOpen_canon {m} : NextCanon (execReplayOpen m s) :=
  announce_canon h _ _ _ (fun _ _ ht => when_keeps ht fun _ hu => mark_canon hu _)
    fun _ _ ht => when_keeps ht fun _ hu => modCtx_canon (mark_canon hu _) ..

theorem execArriveAnnounce_canon {m} : NextCanon (execArriveAnnounce m s) := by
  unfold execArriveAnnounce
  split
  · exact h
  · exact clearHold_canon h _

/-! ### The commands of Machine/Launch.lean -/

theorem execLaunch_canon {ring} : NextCanon (execLaunch ring s) := by
  dsimp only [execLaunch]
  split
  · exact h
  split
  · exact accConflict_canon h ..
  · exact .ite h <|
      .ite (mark_canon h _) <|
      each_canon (modOp_canon (issue_canon h ..) ..) _ _ fun _ _ ht => startCore_canon ht ..

theorem execLaunchCoreCompletion_canon {core} : NextCanon (execLaunchCoreCompletion core s) :=
  seqInstr_canon h _ _ fun _ _ ht => launchCheck_canon (modOp_canon (modCore_keeps (endSeqs_canon ht _)) ..) ..

/-! ### The commands of Machine/Dma.lean -/

theorem execDma_canon {ring e part} : NextCanon (execDma ring e part s) := by
  unfold execDma
  split
  · exact engineOff_canon (fillTlb_canon (dmaOn_canon (engineOn_canon h) ..) ..)
  split
  · exact h
  · exact .ite h <|
      .ite (mark_canon h _) <|
      engineOff_canon (fillTlb_canon (dmaIssue_canon (engineOn_canon h) ..) ..)

theorem execReadReqServe_canon {src xfer e} : NextCanon (execReadReqServe src xfer e s) := by
  unfold execReadReqServe
  split
  · exact h
  extract_lets s0 vas work
  have h0 : s0.canon = true := modFab_canon h _
  refine .ite (routeMiss_canon h0 ..) (withEngine_canon h0 _ _ _ fun u hu => ?_)
  dsimp only [work]
  split
  · exact refuseRead_canon (accessRec_canon hu ..) ..
  refine ite_canon (refuseRead_canon (sealCount_canon hu) ..) ?_
  generalize hx : State.readFails _ _ _ _ _ _ = x
  cases x with
  | none => exact readAnswer_canon (meetErrs_canon (spWaits_canon hu _) ..) ..
  | some v => exact readFails_canon hx (meetErrs_canon (spWaits_canon hu _) ..)

/-! ### The commands of Machine/Coll.lean -/

theorem execColl_canon {ring e} : NextCanon (execColl ring e s) := by
  unfold execColl
  split
  · exact engineOff_canon (fillTlb_canon (collStep_canon (engineOn_canon h) ..) ..)
  split
  · exact h
  · exact .ite h <| engineOff_canon (fillTlb_canon (collIssue_canon (engineOn_canon h) ..) ..)

/-! ### The commands of Machine/Update.lean -/

theorem execUpdate_canon {ring e part} : NextCanon (execUpdate ring e part s) := by
  dsimp only [execUpdate]
  split
  · exact engineOff_canon (fillTlb_canon (updGo_canon (engineOn_canon h) ..) ..)
  split
  · exact h
  · exact .ite h <| updStart_canon h ..

theorem execDigest_canon {ring e part} : NextCanon (execDigest ring e part s) := by
  unfold execDigest
  split
  · exact digestGo_canon h ..
  split
  · exact h
  · exact .ite h <| digestGo_canon (issue_canon h ..) ..

/-! ### The commands of Machine/Restore.lean -/

theorem execDiscardDrainEnd_canon {ctx} : NextCanon (execDiscardDrainEnd ctx s) := by
  unfold execDiscardDrainEnd
  extract_lets c t
  split
  · exact h
  refine .ite h ?_
  have ht : t.canon = true := each_canon (put_canon h ..) _ _ fun _ _ hu => restoreBase_canon hu _
  show State.canon _ = true
  split
  · exact engineUe_canon ht ..
  · exact readPages_canon ht ..

theorem execRestoreComplete_canon {ctx} : NextCanon (execRestoreComplete ctx s) := by
  dsimp only [execRestoreComplete]
  split
  · exact h
  split
  · exact engineUe_canon h ..
  split
  next t ht => exact restoreDone_canon (restorePages_canon (touchPages_canon ht h) _) _
  · exact restoreFails_canon h ..
  · exact waitShadow_canon h ..

theorem execDaybreakDone_canon : NextCanon (execDaybreakDone s) := by
  unfold execDaybreakDone
  extract_lets c inPlace s1 s2
  have h1 : s1.canon = true := mark_canon (put_canon (put_canon h ..) ..) _
  have h2 : s2.canon = true := when_keeps h1 fun _ ht => by simpa using mirrorStale_canon ht
  exact .ite h <| restoreDone_canon h2 _

/-! ### The commands of Machine/Checkpoint.lean -/

theorem execStepCommit_canon {ctx} : NextCanon (execStepCommit ctx s) := by
  dsimp only [execStepCommit]
  split
  · exact h
  · exact .ite h <| cutAtCommit_canon (commitStep_canon (turn_canon h _) ..) ..

theorem execCkptPageCopy_canon {e fail} : NextCanon (execCkptPageCopy e fail s) := by
  unfold execCkptPageCopy
  refine .ite h ?_
  split
  · exact targetFails_canon h _
  split
  · exact ckptUe_canon h _
  split
  · exact modCkp_canon (sendRecord_canon h ..) _
  split
  · exact h
  · exact copyOne_canon h ..

theorem execCkptDone_canon {fail} : NextCanon (execCkptDone fail s) := by
  dsimp only [execCkptDone]
  refine .ite h ?_
  split
  · exact targetFails_canon h _
  split
  · exact ckptUe_canon h _
  · exact ite_canon (modCkp_canon (sendRecord_canon h ..) _) (ckptComplete_canon (sendRecord_canon h ..))

theorem execRestoreRecord_canon {rec page} : NextCanon (execRestoreRecord rec page s) := by
  dsimp only [execRestoreRecord]
  refine .ite h ?_
  split
  · exact chainFails_canon (consumeUe_canon h ..) ..
  · exact tgtSend_canon (tgtWrite_canon (modCkp_canon (chainRec_canon h ..) _) ..)

theorem execCkptRestoreDone_canon : NextCanon (execCkptRestoreDone s) := by
  unfold execCkptRestoreDone
  refine .ite h ?_
  split
  · exact chainFails_canon (consumeUe_canon h ..) ..
  extract_lets c x n hs last q1 q2 q3 s1 s2 b0 b1 s3 s4
  have h1 : s1.canon = true := foldl_canon h _ _ fun _ _ ht => rebuildPage_canon ht ..
  have h3 : s3.canon = true := zeroMem_canon (zeroMem_canon (storeAt_canon h1 ..) ..) ..
  have h4 : s4.canon = true := put_canon (put_canon h3 ..) ..
  exact .ite (chainFails_canon (mixedFree_canon h _) ..) <|
    .ite (chainFails_canon (mixedFree_canon h _) ..) <|
    .ite (chainFails_canon (mixedFree_canon h _) ..) <|
    .ite (chainFails_canon h ..) <| put_canon (mark_canon (setCkpt_canon (mark_canon h4 _) _) _) ..

/-! ### The commands of Machine/Memory.lean -/

theorem execRepairStart_canon : NextCanon (execRepairStart s) := by
  dsimp only [execRepairStart]
  split
  · exact h
  · exact .ite h <|
      .ite (modMem_canon (put_canon (mark_canon (mark_canon h _) _) ..) _) <|
      modMem_canon (put_canon (mark_canon (mark_canon h _) _) ..) _

theorem execRepairDone_canon {stalls} : NextCanon (execRepairDone stalls s) := by
  unfold execRepairDone
  split
  · exact h
  extract_lets s1 s2
  have h1 : s1.canon = true := put_canon (put_canon (put_canon h ..) ..) ..
  have h2 : s2.canon = true := put_canon (mark_canon (mark_canon h1 _) _) ..
  exact .ite h <| modMem_canon (setSpares_canon h2 ..) _

theorem execScrubRead_canon {granule result} : NextCanon (execScrubRead granule result s) := by
  dsimp only [execScrubRead]
  refine .ite h ?_
  split
  · exact h
  · exact correctedErr_canon h ..
  · exact markUe_canon h ..

/-! ### The commands of Machine/Integrity.lean -/

theorem execDupCheckRun_canon {pcore q run} : NextCanon (execDupCheckRun pcore q run s) := by
  dsimp only [execDupCheckRun]
  split
  · exact h
  · exact .ite h <|
      .ite (arrayOn_canon (modInt_canon h _) _) <|
      dupMismatch_canon (arrayOn_canon (modInt_canon h _) _) ..

theorem execDupLimitExpire_canon {ctx} : NextCanon (execDupLimitExpire ctx s) := by
  dsimp only [execDupLimitExpire]
  split
  · exact h
  · exact .ite h <| skipDups_canon h _

theorem execTestPackPush_canon {port pack} : NextCanon (execTestPackPush port pack s) := by
  refine byOperator_canon h _ _ fun t ht => ?_
  dsimp only at ht
  split at ht
  · exact some_canon (mark_canon h _) t ht
  · exact some_canon (modInt_canon h _) t ht

theorem execTestItemStart_canon {core pack item temp} : NextCanon (execTestItemStart core pack item temp s) := by
  unfold execTestItemStart
  extract_lets c s1
  split
  · exact h
  refine .ite h ?_
  have hz : ((s.each (List.range 32) fun t k => t.plainTile c k).zeroSp c).canon = true :=
    zeroSp_canon (each_canon h _ _ fun _ _ ht => plainTile_canon ht ..) _
  have h1 : s1.canon = true := arrayOn_canon (modCore_keeps hz) _
  exact modInt_canon (bump_canon h1 ..) _

theorem execTestItemEnd_canon {core hash temp sp} : NextCanon (execTestItemEnd core hash temp sp s) := by
  unfold execTestItemEnd
  extract_lets c
  split
  · exact h
  extract_lets s1
  have h1 : s1.canon = true := store_canon (modInt_canon h _) _
  split
  · exact h1
  · exact .ite (ite_canon (itemPassed_canon h1 _) h1) <|
      when_keeps (testFails_canon h1 ..) fun _ ht => admitFails_canon ht

theorem execAdmissionLimitExpire_canon : NextCanon (execAdmissionLimitExpire s) := by
  unfold execAdmissionLimitExpire
  split
  · exact h
  · exact .ite h <| admitFails_canon (mark_canon h _)

/-! ### The commands of Machine/Hang.lean -/

theorem execDumpBlockTimeout_canon {block section_ why} :
    NextCanon (execDumpBlockTimeout block section_ why s) := by
  dsimp only [execDumpBlockTimeout]
  split
  · exact h
  · exact modHrc_canon (bump_canon h ..) _

theorem execDumpEnd_canon : NextCanon (execDumpEnd s) := by
  unfold execDumpEnd
  split
  · exact h
  extract_lets x s1 s2 s3 s4 s5
  have h2 : s2.canon = true := put_canon (put_canon (mark_canon (put_canon h ..) _) ..) ..
  have h3 : s3.canon = true := modHrc_canon h2 _
  have h4 : s4.canon = true := ite_canon h3 (startReset_canon h3 _)
  split
  · exact h4
  extract_lets r
  have h5 : s5.canon = true := modHrc_canon (put_canon h4 ..) _
  have hr : r.1.canon = true := askDump_canon h5 _
  exact ite_canon hr (startReset_canon hr _)

theorem execHeartbeatCheck_canon {held} : NextCanon (execHeartbeatCheck held s) :=
  .ite h <| modHrc_canon (each_canon (turn_canon h _) _ _ fun _ _ ht =>
    ite_canon (heartbeat_canon ht ..) (modCore_keeps ht)) _

theorem execStopTimeout_canon {u} : NextCanon (execStopTimeout u s) := by
  unfold execStopTimeout
  split
  · exact h
  · exact hang_canon h ..

theorem execCoreResetDone_canon {core ok rtc} : NextCanon (execCoreResetDone core ok rtc s) := by
  unfold execCoreResetDone
  extract_lets c s1 s2 n s3 seq d s4
  have h1 : s1.canon = true := mark_canon (bump_canon (put_canon h ..) ..) _
  have h2 : s2.canon = true := when_keeps (noteReset_canon (releaseDrain_canon h1 _) ..) fun _ ht =>
    modHrc_canon (chargeNoted_canon ht ..) _
  have h3 : s3.canon = true := when_keeps h2 fun _ ht => askFence_canon ht _
  have h4 : s4.canon = true := logRec_canon (mark_canon (bump_canon (hangDetail_canon h3 ..) ..) _) _
  exact .ite h <| .ite h3 <| resetFor_canon h4 ..

theorem execClusterResetDone_canon {cluster ok rtc} : NextCanon (execClusterResetDone cluster ok rtc s) := by
  unfold execClusterResetDone
  extract_lets k s1 s2 n s3
  have h1 : s1.canon = true := mark_canon (bump_canon (put_canon h ..) ..) _
  have h2 : s2.canon = true := chargeNoted_canon (noteReset_canon
    (foldl_canon (releaseDrain_canon h1 _) _ _ fun _ _ ht => releaseDrain_canon ht _) ..) ..
  have h3 : s3.canon = true := when_keeps h2 fun _ ht => askFence_canon ht _
  exact .ite h <| ite_canon h3 (decideRecovery_canon h3 _)

/-! ### The commands of Machine/Dusk.lean -/

theorem execDusk_canon {ctx} : NextCanon (execDusk ctx s) := by
  dsimp only [execDusk]
  split
  · exact h
  · exact .ite h <| .ite (modCtx_canon h ..) <| dusk_canon (turn_canon h _) _

theorem execDuskDrainDone_canon {ctx} : NextCanon (execDuskDrainDone ctx s) := by
  dsimp only [execDuskDrainDone]
  split
  · exact h
  · exact .ite h <| openWaiting_canon (mark_canon (freeContext_canon h _) _)

theorem execZeroingDone_canon : NextCanon (execZeroingDone s) :=
  have hzero := foldl_canon h _ _ fun _ _ ht => zeroMem_canon ht ..
  openWaiting_canon (put_canon (each_canon hzero _ _ fun _ _ ht =>
    ite_canon ht (modCtx_canon ht ..)) ..)

theorem execModuleRecovery_canon : NextCanon (execModuleRecovery s) := by
  unfold execModuleRecovery
  extract_lets s1 s2 s3
  have h1 : s1.canon = true := endContexts_canon (decideRecovery_canon h _)
  have h2 : s2.canon = true := emit_canon (each_canon h1 _ _ fun _ _ ht => svcOut_canon ht ..) _
  have h3 : s3.canon = true := put_canon (resetDomain_canon (stopFirmware_canon (closeAll_canon h2))) ..
  exact .ite h <| modHrc_canon h3 _

theorem execModuleRecoveryDone_canon {r rtc} : NextCanon (execModuleRecoveryDone r rtc s) := by
  unfold execModuleRecoveryDone
  extract_lets s1 s2 n s3
  have h1 : s1.canon = true := modHrc_canon (put_canon h ..) _
  have h2 : s2.canon = true := chargeNoted_canon (noteReset_canon h1 ..) ..
  have h3 : s3.canon = true := mark_canon (relight_canon (trainBoard_canon (trainNear_canon h2))) _
  refine .ite h <| .ite (outOfService_canon h2) ?_
  split
  · exact runFirmware_canon h3 _
  · exact refreshPower_canon h3

/-! ### The commands of Machine/Security.lean -/

theorem execGetMeasurements_canon {net index} : NextCanon (execGetMeasurements net index s) := by
  unfold execGetMeasurements
  split
  · exact respond_canon h ..
  · exact ite_canon (respond_canon h ..) (respond_canon h ..)

theorem execFinish_canon {net sess macOk} : NextCanon (execFinish net sess macOk s) :=
  .ite h <|
    .ite (respond_canon h ..) <|
    ite_canon (respond_canon (modSec_canon (dropSpdm_canon h ..) _) ..) (respond_canon (dropSpdm_canon h ..) ..)

theorem execKeyRequest_canon {net sess r} : NextCanon (execKeyRequest net sess r s) := by
  dsimp only [execKeyRequest]
  refine .ite h <| .ite (respond_canon h ..) ?_
  split
  · exact respond_canon (modSec_canon (fresh_canon (fresh_canon h)) _) ..
  · exact respond_canon h ..

theorem execKeyWrap_canon {net sess m} : NextCanon (execKeyWrap net sess m s) := by
  dsimp only [execKeyWrap]
  split
  · exact h
  split
  · exact respond_canon h ..
  refine .ite (respond_canon h ..) ?_
  show State.canon _ = true
  split
  · exact respond_canon (installKey_canon (modSec_canon h _) ..) ..
  · exact respond_canon (modSec_canon h _) ..

theorem execMgmtConnect_canon {port cert} : NextCanon (execMgmtConnect port cert s) :=
  .ite h <|
    .ite (handshake_canon (setConn_canon h ..) ..) <|
    .ite (handshake_canon (setConn_canon h ..) ..) <|
    handshake_canon (setConn_canon h ..) ..

theorem execOperatorEnrolment_canon {port ca} : NextCanon (execOperatorEnrolment port ca s) :=
  .ite (emit_canon (setSec_canon (modSec_canon h _) _) _) <|
    byOperator_canon h _ _ <| none_or_canon <| some_canon <| modSec_canon h _

theorem execDecommission_canon {port} : NextCanon (execDecommission port s) :=
  have hstop := put_canon (stopFirmware_canon (endContexts_canon (closeSession_canon h))) Reg.SWT_CTRL_ENABLE 0
  have herase := each_canon (mark_canon hstop Reg.GLB_STATUS_RELAY) [0, 1] _ fun _ _ ht => eraseLink_canon ht _
  byOperator_canon h _ _ <| none_or_canon <| some_canon <| refreshPower_canon (setSec_canon (modSec_canon herase _) _)

theorem execFwSvnRollForward_canon : NextCanon (execFwSvnRollForward s) := by
  unfold execFwSvnRollForward
  extract_lets s1
  have h1 : s1.canon = true := rollPacks_canon (rollIdfort_canon h)
  refine .ite h ?_
  split
  · exact h1
  · exact .ite h1 <| put_canon h1 ..

theorem execThermTripClear_canon {port} : NextCanon (execThermTripClear port s) :=
  byOperator_canon h _ _ <| some_canon <|
    ite_canon (tryDawn_canon (emit_canon (modPins_canon h _) _)) h

theorem execBypassOpenRequest_canon {port frame} : NextCanon (execBypassOpenRequest port frame s) :=
  byOperator_canon h _ _ <| none_or_canon <| some_canon <| each_canon h _ _ fun _ _ ht =>
    mark_canon (put_canon (put_canon ht ..) ..) _

theorem execVendorSessionOpen_canon {port t} : NextCanon (execVendorSessionOpen port t s) :=
  .ite h <|
    .ite (emit_canon h _) <|
    emit_canon (openWaiting_canon (each_canon (modSec_canon h _) _ _ fun _ _ ht => modCtx_canon ht ..)) _

theorem execCoreHalt_canon {t} : NextCanon (execCoreHalt t s) := by
  unfold execCoreHalt
  refine .ite (emit_canon h _) ?_
  split
  · exact emit_canon (modCore_keeps h) _
  · exact emit_canon (modSec_canon h _) _

theorem execCoreSingleStep_canon {t} : NextCanon (execCoreSingleStep t s) := by
  unfold execCoreSingleStep
  refine .ite (emit_canon h _) ?_
  split
  · exact ite_canon (emit_canon (modCore_keeps h) _) (emit_canon h _)
  · exact ite_canon (emit_canon (modSec_canon h _) _) (emit_canon h _)

theorem execDebugMemoryRead_canon {t} : NextCanon (execDebugMemoryRead t s) := by
  dsimp only [execDebugMemoryRead]
  split
  · exact emit_canon h _
  · exact .ite (emit_canon h _) <| .ite (emit_canon (modSec_canon h _) _) <| emit_canon h _

theorem execDebugMemoryWrite_canon {t bytes} : NextCanon (execDebugMemoryWrite t bytes s) := by
  dsimp only [execDebugMemoryWrite]
  refine .ite (emit_canon h _) <| .ite (emit_canon (sealCount_canon h) _) ?_
  split
  · exact emit_canon (setTileData_canon h ..) _
  split
  next u hu => exact emit_canon (store_canon (touchPages_canon hu h) _) _
  · exact emit_canon h _
  · exact emit_canon h _

theorem execFuseWrite_canon {word v} : NextCanon (execFuseWrite word v s) := by
  unfold execFuseWrite
  split
  · exact emit_canon h _
  · exact .ite (emit_canon h _) <| emit_canon (modSec_canon h _) _

theorem execIntakeDone_canon {ch blob e} : NextCanon (execIntakeDone ch blob e s) := by
  unfold execIntakeDone
  split
  · exact h
  extract_lets drop chunks r vas t
  have hdrop : ∀ u, u.canon = true → (drop u).canon = true := fun _ hu => modSec_canon hu _
  have ht : t.canon = true :=
    engineOff_canon (fillTlb_canon (intakeChunks_canon (engineOn_canon (meetErrs_canon h ..)) ..) ..)
  refine .ite (intakeReply_canon (hdrop s h) ..) ?_
  split
  · exact modSec_canon ht _
  · exact intakeReply_canon (hdrop t ht) ..

/-! ### The commands of Machine/Power.lean -/

theorem execDutyUpdate_canon {temps} : NextCanon (execDutyUpdate temps s) :=
  .ite h <|
    applyDuty_canon (modPow_canon (each_canon (powerStep_canon (setReg_canon (turn_canon h _) ..)) _ _ fun _ _ ht =>
      tempStep_canon ht ..) _)

theorem execSnap_canon {ring} : NextCanon (execSnap ring s) := by
  dsimp only [execSnap]
  split
  · exact h
  refine .ite (reject_canon (raise_canon h _) ..) ?_
  split
  · exact reject_canon (raise_canon (captureConflict_canon h) _) ..
  next t ht => exact when_keeps (issue_canon (armCapture_canon ht h) ..) fun _ hu => announceCapture_canon hu _

theorem execMidnightCapture_canon {reading} : NextCanon (execMidnightCapture reading s) := by
  unfold execMidnightCapture
  split
  · exact h
  extract_lets idle snp s0 s1 ops missed s2 s3
  have hidle : idle.canon = true := put_canon (turn_canon h _) ..
  have h0 : s0.canon = true := by simpa [s0] using hidle
  have h1 : s1.canon = true := when_keeps h0 fun _ ht => emit_canon ht _
  have h2 : s2.canon = true := mark_canon (mark_canon (bump_canon h1 ..) _) _
  have h3 : s3.canon = true := put64_canon (put_canon h2 ..) ..
  exact .ite h <|
    .ite (each_canon (mark_canon (bump_canon h1 ..) _) _ _ fun _ _ ht => faultOp_canon ht ..) <|
    each_canon (by simpa using h3) _ _ fun _ _ ht => finish_canon ht ..

theorem execTrigInEdge_canon {short} : NextCanon (execTrigInEdge short s) := by
  unfold execTrigInEdge
  extract_lets s0 s1 f
  have h0 : s0.canon = true := when_keeps h fun _ ht => mark_canon ht _
  have h1 : s1.canon = true := modPins_canon h0 _
  refine .ite (mark_canon (bump_canon h0 ..) _) <| .ite h0 <| .ite h1 <| .ite ?_ (askCapture_canon h1 ..)
  split
  next t ht => exact announceCapture_canon (armCapture_canon ht h1) _
  · exact captureConflict_canon h1

/-! ### The commands of Machine/Dawn.lean -/

theorem execMain48vApply_canon {mv} : NextCanon (execMain48vApply mv s) :=
  .ite (.ite (tryDawn_canon (modPins_canon h _)) h) <|
    .ite (lose48_canon h) <|
    .ite (applyDuty_canon (modPins_canon h _)) h

theorem execThermalTrip_canon {die temp} : NextCanon (execThermalTrip die temp s) :=
  .ite h <| applyDuty_canon (emit_canon (modPins_canon (powerDown_canon (cper_canon (put_canon h ..) ..) _) _) _)

theorem execModResetNAssert_canon : NextCanon (execModResetNAssert s) :=
  .ite h <| refreshPower_canon (modPins_canon (ite_canon (powerDown_canon h _) (closeAll_canon h)) _)

theorem execRelayReady_canon : NextCanon (execRelayReady s) :=
  .ite h <| modPins_canon (mark_canon (verifyRings_canon (lightService_canon (trainMemory_canon h)) _) _) _

theorem execFwLoadDone_canon {i} : NextCanon (execFwLoadDone i s) := by
  unfold execFwLoadDone
  split
  · exact h
  extract_lets s1 s2 r f
  have h1 : s1.canon = true := modFw_canon (put_canon (put_canon h ..) ..) _
  have h2 : s2.canon = true := setImage_canon (mark_canon h1 _) ..
  exact .ite (put_canon h1 ..) <|
    .ite (put_canon (rejectImage_canon (fresh_canon h2) _) ..) <|
    .ite (put_canon (put_canon (mark_canon h2 _) ..) ..) <|
    put_canon (rejectImage_canon h2 _) ..

theorem execFwHandover_canon : NextCanon (execFwHandover s) := by
  dsimp only [execFwHandover]
  split
  · exact h
  · exact .ite h <| mark_canon (runFirmware_canon (modFw_canon (put_canon (put_canon h ..) ..) _) _) _

theorem execCalDone_canon : NextCanon (execCalDone s) := by
  dsimp only [execCalDone]
  split
  · exact h
  · exact .ite (calEnd_canon (storeCal_canon h _) _) <| .ite (calEnd_canon (restoreCal_canon h) _) h
  · exact .ite h <| calEnd_canon h _

/-! ### The commands of Machine/Time.lean -/

theorem execTimeMessageReceive_canon {port m arrival} : NextCanon (execTimeMessageReceive port m arrival s) := by
  unfold execTimeMessageReceive
  extract_lets p s1 r
  have h1 : s1.canon = true := relayTimes_canon (learnMaster_canon (setNbr_canon h ..) _) h _
  exact .ite h <| .ite h1 <| put_canon (fresh_canon h1) ..

theorem execTimeLock_canon : NextCanon (execTimeLock s) :=
  .ite h <| .ite (modTime_canon (put_canon (put_canon (mark_canon h _) ..) ..) _) <| mark_canon h _

theorem execTimeLoss_canon : NextCanon (execTimeLoss s) :=
  .ite h <|
    each_canon (mark_canon (mark_canon (mark_canon (logRec_canon h _) _) _) _) _ _ fun _ _ ht => cause_canon ht ..

theorem execTimeStep_canon {parentFrame} : NextCanon (execTimeStep parentFrame s) := by
  unfold execTimeStep
  split
  · exact h
  extract_lets s1 s1' s2
  have h1 : s1'.canon = true := modTime_canon (setFrame_canon (turn_canon h _) _) _
  have h2 : s2.canon = true := mark_canon (mark_canon (bump_canon h1 ..) _) _
  exact .ite h <| put_canon (put_canon h2 ..) ..

theorem execCounterLoad_canon : NextCanon (execCounterLoad s) :=
  .ite h <|
    .ite (modTime_canon h _) <|
    .ite h <|
    when_keeps (mark_canon (modTime_canon (setFrame_canon h _) _) _) fun _ ht => sendTimes_canon ht _

theorem execPpsInEdge_canon {short cycles} : NextCanon (execPpsInEdge short cycles s) :=
  .ite (mark_canon (bump_canon h ..) _) <|
    modTime_canon (when_keeps (modPins_canon h _) fun _ ht => mark_canon ht _) _

/-! ### The commands of Machine/Tick.lean -/

theorem execFrameTick_canon {e} : NextCanon (execFrameTick e s) :=
  .ite (modTime_canon h _) <|
    beginFrame_canon (recoverySteps_canon (firmwareTick_canon (applyRefresh_canon (timeTick_canon (advance_canon
      (endFrame_canon h _)))))) _

/-! ### Every command -/

theorem exec_canon {i : Instr} : NextCanon (exec i s) := by
  cases i with
  | frameTick => exact execFrameTick_canon h
  | ftbFrameLoRead => exact answer_canon (setLatch_canon (setLatch_canon h ..) ..) _
  | timeMessageReceive => exact execTimeMessageReceive_canon h
  | timeLock => exact execTimeLock_canon h
  | timeUnlock => exact .ite h <| put_canon h ..
  | deputyPromotion => exact .ite h <| sendTimes_canon (becomeMaster_canon h) _
  | timeLoss => exact execTimeLoss_canon h
  | timeStep => exact execTimeStep_canon h
  | ftbLoadHiWrite => exact byCp_canon h _ _ fun _ ht => writeLoadHi_canon ht _
  | counterLoad => exact execCounterLoad_canon h
  | frameOverrun => exact execFrameOverrun_canon h
  | registerWrite => exact byCp_canon h _ _ fun _ ht => writeRegister_canon ht ..
  | acwWrite => exact seqInstr_canon h _ _ fun _ _ ht => setReg_canon ht ..
  | aswClear => exact seqInstr_canon h _ _ fun _ _ ht => setReg_canon ht ..
  | mma => exact seqInstr_canon h _ _ fun _ _ ht => mma_canon ht ..
  | ard => exact seqInstr_canon h _ _ fun _ _ ht => ard_canon ht ..
  | add => exact vecElem_canon h ..
  | sub => exact vecElem_canon h ..
  | mul => exact vecElem_canon h ..
  | fma => exact vecElem_canon h ..
  | max => exact vecElem_canon h ..
  | min => exact vecElem_canon h ..
  | abs => exact vecElem_canon h ..
  | neg => exact vecElem_canon h ..
  | cvt => exact vecElem_canon h ..
  | cmp => exact vecElem_canon h ..
  | sel => exact vecElem_canon h ..
  | div => exact vecFn_canon h ..
  | sqrt => exact vecFn_canon h ..
  | rcp => exact vecFn_canon h ..
  | rsqrt => exact vecFn_canon h ..
  | exp => exact vecFn_canon h ..
  | exp2 => exact vecFn_canon h ..
  | subexp => exact vecMap_canon h ..
  | log => exact vecFn_canon h ..
  | log2 => exact vecFn_canon h ..
  | sigmoid => exact vecFn_canon h ..
  | tanh => exact vecFn_canon h ..
  | erf => exact vecFn_canon h ..
  | gelu => exact vecFn_canon h ..
  | silu => exact vecFn_canon h ..
  | sin => exact vecFn_canon h ..
  | cos => exact vecFn_canon h ..
  | dsigmoid => exact vecFn_canon h ..
  | dtanh => exact vecFn_canon h ..
  | dexp => exact vecElem_canon h ..
  | drelu => exact vecElem_canon h ..
  | dgelu => exact vecFn_canon h ..
  | dsilu => exact vecFn_canon h ..
  | derf => exact vecFn_canon h ..
  | rsum => exact vecSum_canon h ..
  | rdot => exact vecSum_canon h ..
  | rsumsq => exact vecSum_canon h ..
  | rmax => exact vecWinner_canon h ..
  | rmin => exact vecWinner_canon h ..
  | rand => exact vecMap_canon h ..
  | drop => exact vecMap_canon h ..
  | sample => exact vecRows_canon h ..
  | ssig => exact issueSsig_canon h ..
  | swait => exact issueSwait_canon h ..
  | sbar => exact when_keeps h fun _ ht => retrySync_canon (issueSbar_canon ht ..)
  | commit => exact seqInstr_canon h _ _ fun _ _ ht => modOp_canon ht ..
  | post => exact issuePost_canon h ..
  | gclaim => exact issueClaim_canon h ..
  | kickWrite => exact .ite (modRing_canon (acceptPi_canon h ..) ..) h
  | ringEnable => exact byCp_canon h _ _ fun _ ht => retryPosts_canon (writeRingCfg_canon ht ..)
  | ringDisable => exact byCp_canon h _ _ fun _ ht => writeRingCfg_canon ht ..
  | descriptorFetch => exact execDescriptorFetch_canon h
  | ringStall => exact .ite h <| raise_canon (bump_canon (mark_canon (mark_canon h _) _) ..) _
  | launch => exact execLaunch_canon h
  | dma => exact execDma_canon h
  | coll => exact execColl_canon h
  | signal => exact execSignal_canon h
  | wait => exact execWait_canon h
  | barrier => exact execBarrier_canon h
  | update => exact execUpdate_canon h
  | digest => exact execDigest_canon h
  | phase => exact execPhase_canon h
  | snap => exact execSnap_canon h
  | fence => exact execFence_canon h
  | noon => exact execNoon_canon h
  | close => exact execClose_canon h
  | descriptorComplete => exact execDescriptorComplete_canon h
  | contextActivate => exact fwOnly_canon h _ _ fun _ ht => writeCtxCtrl_canon ht ..
  | subProgData0Read => exact answer_canon (each_canon h _ _ fun _ _ ht => setLatch_canon ht ..) _
  | mbxTx => exact mbxTx_canon h ..
  | mbxRx => exact execMbxRx_canon h
  | signalMessage => exact ite_canon (signalIn_canon h ..) (holdSync_canon h _)
  | syncAck => exact execSyncAck_canon h
  | syncNack => exact execSyncNack_canon h
  | remoteSignalTimeout => exact execRemoteSignalTimeout_canon h
  | barrierArrive => exact ite_canon (retrySync_canon (arriveIn_canon h ..)) (holdSync_canon h _)
  | barrierRelease => exact ite_canon (retrySync_canon (releaseIn_canon h ..)) (holdSync_canon h _)
  | barrierBreak => exact ite_canon (retrySync_canon (breakIn_canon h _)) (holdSync_canon h _)
  | syncWatchdog => exact execSyncWatchdog_canon h
  | synObjValLoRead => exact answer_canon (setLatch_canon (setLatch_canon h ..) ..) _
  | synObjValHiWrite => exact fwOnly_canon h _ _ fun _ ht => writeObjHi_canon ht _
  | synBarRearm => exact fwOnly_canon h _ _ fun _ ht => writeRearm_canon ht _
  | synXlatInval => exact fwOnly_canon h _ _ fun _ ht => writeSynXlat_canon ht _
  | synXlatDone => exact State.canon_congr (put_canon h ..) rfl rfl rfl rfl
  | coreMxPassLoRead => exact answer_canon (setLatch_canon h ..) _
  | coreVxElemLoRead => exact answer_canon (setLatch_canon h ..) _
  | intDupSampledLoRead => exact answer_canon (setLatch_canon h ..) _
  | memXlatInval => exact fwOnly_canon h _ _ fun _ ht => writeXlatInval_canon ht _
  | memXlatDone => exact modMem_canon (put_canon (put_canon h ..) ..) _
  | memRepairGo => exact fwOnly_canon h _ _ fun _ ht => writeRepairCtrl_canon ht _
  | repairStart => exact execRepairStart_canon h
  | repairDone => exact execRepairDone_canon h
  | memTempSample => exact modMem_canon (put_canon h ..) _
  | scrubRead => exact execScrubRead_canon h
  | ceWindowExpire => exact .ite h <| modMem_canon h _
  | ringLock => exact execRingLock_canon h
  | toneCheckEnd => exact execToneCheckEnd_canon h
  | ringSweepEnd => exact execRingSweepEnd_canon h
  | laneAlarm => exact execLaneAlarm_canon h
  | laneAlarmMessage => exact heardOn_canon h _ _ fun _ ht => shortCheck_canon (quietOn_canon ht ..) _
  | laneMove => exact heardOn_canon h _ _ fun _ ht => modPort_canon ht ..
  | laneMoveRequest => exact heardOn_canon h _ _ fun _ ht => moveAsked_canon ht _
  | laneMoveRefusal => exact heardOn_canon h _ _ fun _ ht => ite_canon ht (mark_canon ht _)
  | laneMoveSwitch => exact execLaneMoveSwitch_canon h
  | spareLocked => exact modSwap_canon h ..
  | spareLockTimeout => exact execSpareLockTimeout_canon h
  | spareMatched => exact execSpareMatched_canon h
  | laserSourceSwitch => exact execLaserSourceSwitch_canon h
  | oldSourceDark => exact execOldSourceDark_canon h
  | laserFail => exact execLaserFail_canon h
  | cartridgeRelease => exact fwOnly_canon h _ _ fun _ ht => writeLcCtrl_canon ht ..
  | leverOpen => exact releaseLc_canon (mark_canon h _) _
  | cartridgePull => exact .ite (modOpt_canon (put_canon h ..) _) <| park_canon (setLc_canon (put_canon h ..) ..)
  | cartridgeInsert => exact execCartridgeInsert_canon h
  | cellLaunch => exact execCellLaunch_canon h
  | cellReceive => exact execCellReceive_canon h
  | readReqServe => exact execReadReqServe_canon h
  | linkAck => exact heardOn_canon h _ _ fun _ ht => each_canon ht _ _ fun _ _ ht1 => cellAcked_canon ht1 _
  | linkNak => exact heardOn_canon h _ _ fun _ ht => refuseNamed_canon ht ..
  | holdRefusal => exact heardOn_canon h _ _ fun _ ht => refuseNamed_canon (modPort_canon ht ..) ..
  | resume => exact heardOn_canon h _ _ fun _ ht => modPort_canon ht ..
  | credit => exact heardOn_canon h _ _ fun _ ht => modPort_canon ht ..
  | delivered => exact execDelivered_canon h
  | cellRefusal => exact execCellRefusal_canon h
  | cellInflightTimeout => exact execCellInflightTimeout_canon h
  | deliveryTimeout => exact execDeliveryTimeout_canon h
  | quietLimitExpire => exact .ite h <| linkDown_canon h ..
  | serviceMessageReceive => exact execServiceMessageReceive_canon h
  | beaconSend => exact .ite (sendBeacon_canon h _) h
  | beaconReceive => exact heardOn_canon h _ _ fun _ ht => beaconIn_canon ht ..
  | portTrainingDone => exact execPortTrainingDone_canon h
  | delayMeasureDone => exact execDelayMeasureDone_canon h
  | peerSilent => exact .ite h <| modPort_canon (sendTo_canon (mark_canon h _) ..) ..
  | portGapStart => exact .ite h <| refreshPort_canon (modPort_canon (mark_canon h _) ..) _
  | portGapEnd => exact execPortGapEnd_canon h
  | bypassArm => exact fwOnly_canon h _ _ fun _ ht => writeBypCtrl_canon ht ..
  | bypassCloseCommand => exact .ite (closeBypass_canon h _) <| fwOnly_canon h _ _ fun _ ht => closeBypass_canon ht _
  | bypassMotionStart => exact execBypassMotionStart_canon h
  | bypassMotionEnd => exact execBypassMotionEnd_canon h
  | listenerMessage => exact .ite h <| modByp_canon (mark_canon h _) ..
  | schedLoad => exact fwOnly_canon h _ _ fun _ ht => writeSchedLoad_canon ht _
  | schedLoadDone => exact execSchedLoadDone_canon h
  | scheduleSwap => exact execScheduleSwap_canon h
  | routeDataWrite => exact fwOnly_canon h _ _ fun _ ht => writeRoute_canon ht _
  | routeEntryEffect => exact execRouteEntryEffect_canon h
  | reroute => exact execReroute_canon h
  | keySwitchArm => exact fwOnly_canon h _ _ fun _ ht => writeKeySwitch_canon ht _
  | keySwitch => exact execKeySwitch_canon h
  | oldKeyErase => exact execOldKeyErase_canon h
  | stepTrackingEnable => exact fwOnly_canon h _ _ fun _ ht => writeStepCtrl_canon ht ..
  | stepArm => exact fwOnly_canon h _ _ fun _ ht => writeStepCtrl_canon ht ..
  | stepCancel => exact fwOnly_canon h _ _ fun _ ht => writeStepCtrl_canon ht ..
  | stepOpen => exact execStepOpen_canon h
  | closeReady => exact execCloseReady_canon h
  | stepCommit => exact execStepCommit_canon h
  | closeDeadline => exact execCloseDeadline_canon h
  | votedTimeout => exact execVotedTimeout_canon h
  | attemptDiscard => exact execAttemptDiscard_canon h
  | discardDrainEnd => exact execDiscardDrainEnd_canon h
  | restoreComplete => exact execRestoreComplete_canon h
  | replayDiscardWrite => exact fwOnly_canon h _ _ fun _ ht => writeReplayCtrl_canon ht ..
  | replayArriveWrite => exact fwOnly_canon h _ _ fun _ ht => writeReplayCtrl_canon ht ..
  | replayOpen => exact execReplayOpen_canon h
  | discardAnnounce => exact announce_canon h _ _ _ (fun _ _ ht => ht) fun _ _ ht => modCtx_canon ht ..
  | arriveAnnounce => exact execArriveAnnounce_canon h
  | duskAnnounce => exact announce_canon h _ _ _ (fun _ _ ht => ht) fun _ _ ht => modCtx_canon ht ..
  | identityRequest => exact .ite (emit_canon h _) h
  | setOpen => exact fwOnly_canon h _ _ fun _ ht => writeSetCtrl_canon ht _
  | setSeal => exact fwOnly_canon h _ _ fun _ ht => writeSetCtrl_canon ht _
  | setSealed => exact .ite (when_keeps (put_canon (by simpa using h) ..) fun _ ht => put_canon ht ..) h
  | clusterFence => exact fwOnly_canon h _ _ fun _ ht => writeFence_canon ht _
  | daybreakLoad => exact fwOnly_canon h _ _ fun _ ht => writeDaybreak_canon ht ..
  | daybreakDone => exact execDaybreakDone_canon h
  | ckptArm => exact fwOnly_canon h _ _ fun _ ht => writeCkptCtrl_canon ht _
  | ckptCancel => exact fwOnly_canon h _ _ fun _ ht => writeCkptCtrl_canon ht _
  | ckptPageCopy => exact execCkptPageCopy_canon h
  | ckptDone => exact execCkptDone_canon h
  | ckptTargetStall => exact .ite h <| ckptFailsFree_canon h
  | ckptTgtEnable => exact fwOnly_canon h _ _ fun _ ht => writeTgtCfg_canon ht _
  | ckptRestore => exact fwOnly_canon h _ _ fun _ ht => writeCkptCtrl_canon ht _
  | restoreRecord => exact execRestoreRecord_canon h
  | ckptRestoreDone => exact execCkptRestoreDone_canon h
  | dupCheckRun => exact execDupCheckRun_canon h
  | dupLimitExpire => exact execDupLimitExpire_canon h
  | digestFaultRaise => exact fwOnly_canon h _ _ fun _ ht => writeDigestFault_canon ht ..
  | healthScoreWrite => exact fwOnly_canon h _ _ fun _ ht => writeScore_canon ht _
  | tempBandCheck => exact .ite h <| modInt_canon h _
  | bandEntryExpire => exact modInt_canon h _
  | healthRecovery => exact .ite h <| cper_canon (modInt_canon (setScore_canon h ..) _) ..
  | testItemStart => exact execTestItemStart_canon h
  | testItemEnd => exact execTestItemEnd_canon h
  | testPackPush => exact execTestPackPush_canon h
  | heartbeatCheck => exact execHeartbeatCheck_canon h
  | stopTimeout => exact execStopTimeout_canon h
  | internalLinkStall => exact .ite h <| decideRecovery_canon (logRec_canon (mark_canon h _) _) _
  | hrcFwKick => exact fwOnly_canon h _ _ fun _ ht => fwKick_canon ht _
  | fwWatchdogExpire => exact .ite h <| hang_canon (mark_canon h _) ..
  | dumpRequest => exact byCp_canon h _ _ fun _ ht => writeDumpCtrl_canon ht _
  | dumpAck => exact byCp_canon h _ _ fun _ ht => writeDumpCtrl_canon ht _
  | dumpBlockTimeout => exact execDumpBlockTimeout_canon h
  | dumpEnd => exact execDumpEnd_canon h
  | coreResetRequest => exact fwOnly_canon h _ _ fun _ ht => writeResetCtrl_canon ht _
  | clusterResetRequest => exact fwOnly_canon h _ _ fun _ ht => writeResetCtrl_canon ht _
  | moduleRecoveryRequest => exact fwOnly_canon h _ _ fun _ ht => writeResetCtrl_canon ht _
  | coreResetDone => exact execCoreResetDone_canon h
  | clusterResetDone => exact execClusterResetDone_canon h
  | moduleRecovery => exact execModuleRecovery_canon h
  | moduleRecoveryDone => exact execModuleRecoveryDone_canon h
  | flogEnable => exact byCp_canon h _ _ fun _ ht => writeFlogCfg_canon ht _
  | duskRequest => exact fwOnly_canon h _ _ fun _ ht => writeCtxCtrl_canon ht ..
  | dusk => exact execDusk_canon h
  | duskDrainDone => exact execDuskDrainDone_canon h
  | zeroingDone => exact execZeroingDone_canon h
  | getVersion => exact respond_canon h ..
  | getCapabilities => exact respond_canon h ..
  | negotiateAlgorithms => exact ite_canon (respond_canon h ..) (respond_canon h ..)
  | getDigests => exact respond_canon h ..
  | getCertificate => exact ite_canon (respond_canon h ..) (respond_canon h ..)
  | challenge => exact .ite (respond_canon (fresh_canon h) ..) <| respond_canon h ..
  | getMeasurements => exact execGetMeasurements_canon h
  | keyExchange => exact .ite h <| respond_canon (modSec_canon (dropSpdm_canon h ..) _) ..
  | finish => exact execFinish_canon h
  | endSession => exact .ite h <| .ite (respond_canon (dropSpdm_canon h ..) ..) <| respond_canon h ..
  | keyRequest => exact execKeyRequest_canon h
  | keyWrap => exact execKeyWrap_canon h
  | mgmtConnect => exact execMgmtConnect_canon h
  | operatorEnrolment => exact execOperatorEnrolment_canon h
  | decommission => exact execDecommission_canon h
  | hostViewSet => exact byOperator_canon h _ _ <| some_canon <| modSec_canon h _
  | rollForwardEnable => exact byOperator_canon h _ _ <| some_canon <| modSec_canon h _
  | fwSvnRollForward => exact execFwSvnRollForward_canon h
  | invasiveSessionOpen => exact byOperator_canon h _ _ <| none_or_canon <| some_canon <| openSession_canon h ..
  | vendorSessionOpen => exact execVendorSessionOpen_canon h
  | debugSessionClose => exact .ite h <| .ite (emit_canon (closeSession_canon h) _) <| emit_canon h _
  | coreHalt => exact execCoreHalt_canon h
  | coreSingleStep => exact execCoreSingleStep_canon h
  | debugMemoryRead => exact execDebugMemoryRead_canon h
  | debugMemoryWrite => exact execDebugMemoryWrite_canon h
  | scanRequest => exact .ite (emit_canon h _) <| emit_canon (fresh_canon h) _
  | fuseRead => exact .ite (emit_canon h _) <| emit_canon h _
  | fuseWrite => exact execFuseWrite_canon h
  | refurbishToBlank => exact .ite (emit_canon h _) <| emit_canon (setSec_canon (modSec_canon h _) _) _
  | bypassOpenRequest => exact execBypassOpenRequest_canon h
  | thermTripClear => exact execThermTripClear_canon h
  | returnToService => exact byOperator_canon h _ _ <| some_canon <| when_keeps (put_canon h ..) fun _ ht => emit_canon ht _
  | intakeRequest => exact .ite h <| .ite (intakeReply_canon h ..) <| .ite (intakeReply_canon h ..) <| modSec_canon h _
  | intakeDone => exact execIntakeDone_canon h
  | dutyUpdate => exact execDutyUpdate_canon h
  | overcurrent => exact applyDuty_canon (mark_canon (modPow_canon h _) _)
  | thermalTrip => exact execThermalTrip_canon h
  | powerAvgUpdate => exact .ite h <| modPow_canon h _
  | snpArmWrite => exact writeSnpArm_canon h _
  | captureAnnounce => exact .ite (mark_canon (mark_canon h _) _) <| askCapture_canon h ..
  | midnightCapture => exact execMidnightCapture_canon h
  | trigInEdge => exact execTrigInEdge_canon h
  | trigInStuck => exact mark_canon (mark_canon h _) _
  | ppsInEdge => exact execPpsInEdge_canon h
  | ppsValidTimeout => exact modPins_canon (put_canon h ..) _
  | timeRefLoss => exact refLost_canon h
  | timeRefFreqFault => exact refLost_canon h
  | timeRefRecover => exact .ite h <| modPins_canon (mark_canon h _) _
  | main48vApply => exact execMain48vApply_canon h
  | main48vLoss => exact lose48_canon h
  | undervolt => exact .ite h <| applyDuty_canon (mark_canon (modPins_canon h _) _)
  | standby12vApply => exact .ite h <| tryDawn_canon (modSec_canon (modPins_canon h _) _)
  | standby12vLoss => exact .ite h <| refreshPower_canon (modPins_canon (ite_canon (turnOff_canon h) h) _)
  | bodyInsert => exact .ite h <| refreshPower_canon (modSec_canon (modPins_canon h _) _)
  | bodyRemove => exact .ite h <| refreshPower_canon (modPins_canon (ite_canon (turnOff_canon h) h) _)
  | modResetNAssert => exact execModResetNAssert_canon h
  | modResetNRelease => exact .ite h <| tryDawn_canon (modPins_canon h _)
  | relayReady => exact execRelayReady_canon h
  | relayExit => exact .ite h <| each_canon (put_canon h ..) _ _ fun _ _ ht => refreshPort_canon (put_canon ht ..) _
  | i3cPrivateRead => exact .ite (emit_canon h _) h
  | entdaa => exact i3cAddress_canon h _
  | setdasa => exact i3cAddress_canon h _
  | fwLoad => exact byCp_canon h _ _ fun _ ht => writeFwCtrl_canon ht ..
  | fwLoadDone => exact execFwLoadDone_canon h
  | fwStart => exact byCp_canon h _ _ fun _ ht => writeFwCtrl_canon ht ..
  | fwSwap => exact byCp_canon h _ _ fun _ ht => writeFwCtrl_canon ht ..
  | fwHandover => exact execFwHandover_canon h
  | fwGood => exact .ite h <| put_canon (mark_canon h _) ..
  | calPortRings => exact fwOnly_canon h _ _ fun _ ht => writeCalCtrl_canon ht _
  | calCartridge => exact fwOnly_canon h _ _ fun _ ht => writeCalCtrl_canon ht _
  | calDone => exact execCalDone_canon h
  | launchCoreCompletion => exact execLaunchCoreCompletion_canon h
  | admissionLimitExpire => exact execAdmissionLimitExpire_canon h
  | presenceMated => exact .ite h <| tryDawn_canon (modPins_canon h _)
  | pcieConfigReady => exact .ite (modPins_canon h _) h
  | cperAcknowledge => exact modInt_canon h _
  | testKeyEnrol => exact byOperator_canon h _ _ <| none_or_canon <| some_canon <| modInt_canon h _
  | idfortFwUpdate => exact .ite h <| .ite (rejectImage_canon h _) <| modSec_canon h _
end Commands

/-- Settles O4: on an empty queue the state stays, and every command keeps the form. -/
theorem stepKeepsCanonicalForm : Obligations.StepKeepsCanonicalForm := by
  intro s t h hs
  unfold step at hs
  split at hs
  · obtain rfl := Host.Outcome.next.inj hs
    exact h
  · exact nextCanon_iff.1 (exec_canon (by simpa using h)) t hs

end Sys2Proof.Machine
end

section
/-! ## The queue, and the instructions of a core that runs no LAUNCH -/
namespace Sys2Proof.Machine

/-- Settles O1, by the definition of a step on a queue that is not empty. -/
theorem stepRunsFrontCommand : Obligations.StepRunsFrontCommand := by
  intro c rest s hqueue
  simp only [step, hqueue]

theorem step_idle {s : State} (h : s.pending = []) : step s = .next s := by
  simp only [step, h]

namespace State
variable {s : State} {c : Nat} (hs : s.running c = none)
include hs

theorem hold_idle (x : Stall) : s.hold c x = s := by
  simp [hold, hs]

theorem issueSsig_idle {vid mod v} : s.issueSsig c vid mod v = s := by
  unfold issueSsig
  split
  · exact hold_idle hs _
  · exact seqInstr_idle hs _

theorem issueSwait_idle {vid thr wdog} : s.issueSwait c vid thr wdog = s := by
  unfold issueSwait
  split
  · exact hold_idle hs _
  · exact seqInstr_idle hs _

/-- Every vector instruction of elements goes through `vecMap`, and one of rows through `vecRows`. -/
theorem vecMap_idle {ins d mask dr e cls bad f} : s.vecMap c ins d mask dr e cls bad f = s := by
  unfold vecMap vector
  exact seqInstr_idle hs _

theorem vecRows_idle {rdims ins outs a d e cls strict f} : s.vecRows c rdims ins outs a d e cls strict f = s := by
  unfold vecRows vector
  exact seqInstr_idle hs _

theorem vecSum_idle {rdims ins a d dr e term} : s.vecSum c rdims ins a d dr e term = s := by
  unfold vecSum
  exact vecRows_idle hs

theorem vecWinner_idle {rdims isMax ib a d d2 dr e} : s.vecWinner c rdims isMax ib a d d2 dr e = s := by
  unfold vecWinner
  exact vecRows_idle hs

end State

/-- Each instruction of a core acts through one of the operations above, on the core that `seqCore` names. -/
theorem exec_idle {i : Instr} {c : Nat} {s : State} (hc : seqCore i = some c) (hs : s.running c = none) :
    exec i s = .next s := by
  cases i with
  | acwWrite | aswClear | mma | ard | commit | post | gclaim | launchCoreCompletion =>
    obtain rfl := Option.some.inj hc
    exact congrArg Host.Outcome.next (State.seqInstr_idle hs _)
  | ssig =>
    obtain rfl := Option.some.inj hc
    exact congrArg Host.Outcome.next (State.issueSsig_idle hs)
  | swait =>
    obtain rfl := Option.some.inj hc
    exact congrArg Host.Outcome.next (State.issueSwait_idle hs)
  | sbar =>
    obtain rfl := Option.some.inj hc
    exact congrArg Host.Outcome.next (if_neg (by simp [hs]))
  | add | sub | mul | max | min | dexp | drelu | fma | sel | abs | neg | cvt | cmp | div | dsigmoid | dtanh | dgelu
  | dsilu | derf | subexp | sqrt | rcp | rsqrt | exp | exp2 | log | log2 | sigmoid | tanh | erf | gelu | silu | sin
  | cos | rand | drop =>
    simp only [seqCore, vecCall, mapCall, Option.map_some, Option.some.injEq] at hc
    subst hc
    exact congrArg Host.Outcome.next (State.vecMap_idle hs)
  | rsum | rsumsq | rdot =>
    simp only [seqCore, vecCall, rowCall, Option.map_some, Option.some.injEq] at hc
    subst hc
    exact congrArg Host.Outcome.next (State.vecSum_idle hs)
  | rmax | rmin =>
    simp only [seqCore, vecCall, rowCall, Option.map_some, Option.some.injEq] at hc
    subst hc
    exact congrArg Host.Outcome.next (State.vecWinner_idle hs)
  | sample =>
    simp only [seqCore, vecCall, rowCall, Option.map_some, Option.some.injEq] at hc
    subst hc
    exact congrArg Host.Outcome.next (State.vecRows_idle hs)
  | _ => cases hc

/-- Settles O11, by the two laws of idling. -/
theorem nothingToRun : Obligations.NothingToRun :=
  ⟨fun _ => step_idle, fun _ _ _ => exec_idle⟩

end Sys2Proof.Machine
end

section
/-! ## Every command answers a next state -/
namespace Sys2Proof.Machine

/-- A command answered a next state. -/
def IsNext (o : Host.Outcome State Fault Refusal) : Prop := ∃ t, o = .next t

section
variable {a b : Host.Outcome State Fault Refusal}

theorem IsNext.next (t : State) : IsNext (.next t) := ⟨t, rfl⟩

/-- A command that chooses between two answers. -/
theorem IsNext.ite {c : Prop} [Decidable c] (ha : IsNext a) (hb : IsNext b) : IsNext (if c then a else b) := by
  split
  · exact ha
  · exact hb
end

/-- Each case follows the shape of its command's definition: `.ite` at an `if` and `split` at a `match`, which `whnf` or
`dsimp` bring to the front. Commands of one shape share a case; the last case is that of every command without a choice. -/
theorem exec_isNext (i : Instr) (s : State) : IsNext (exec i s) := by
  cases i with
  | frameTick | timeUnlock | deputyPromotion | timeLoss | kickWrite | ringStall | ceWindowExpire
  | cartridgePull | cartridgeInsert | quietLimitExpire | beaconSend | peerSilent | portGapStart
  | bypassCloseCommand | listenerMessage | votedTimeout | identityRequest | setSealed | daybreakDone
  | ckptTargetStall | tempBandCheck | healthRecovery | heartbeatCheck | internalLinkStall | fwWatchdogExpire
  | clusterResetDone | moduleRecovery | challenge | keyExchange | operatorEnrolment | scanRequest | fuseRead
  | refurbishToBlank | dutyUpdate | thermalTrip | powerAvgUpdate | captureAnnounce | ppsInEdge | timeRefRecover
  | undervolt | standby12vApply | standby12vLoss | bodyInsert | bodyRemove | modResetNAssert | modResetNRelease
  | relayReady | relayExit | i3cPrivateRead | fwGood | presenceMated | pcieConfigReady =>
    exact .ite (.next _) (.next _)
  | syncAck | syncNack | arriveAnnounce | stopTimeout | dumpBlockTimeout | getMeasurements =>
    conv => arg 1; whnf
    split <;> exact .next _
  | timeMessageReceive | timeLock | bypassMotionEnd | routeEntryEffect | coreResetDone | finish | endSession
  | vendorSessionOpen | debugSessionClose | idfortFwUpdate => exact .ite (.next _) <| .ite (.next _) (.next _)
  | restoreRecord | coreHalt | coreSingleStep =>
    refine .ite (.next _) ?_
    split <;> exact .next _
  | timeStep | frameOverrun | close | remoteSignalTimeout | repairDone | laneAlarm | laneMoveSwitch
  | spareLockTimeout | spareMatched | laserSourceSwitch | readReqServe | cellInflightTimeout | portTrainingDone
  | delayMeasureDone | portGapEnd | keySwitch | oldKeyErase | closeReady | stepCommit | closeDeadline
  | discardDrainEnd | dupLimitExpire | testItemStart | duskDrainDone | fuseWrite | fwHandover
  | admissionLimitExpire =>
    conv => arg 1; whnf
    split
    · exact .next _
    · exact .ite (.next _) (.next _)
  | counterLoad | mgmtConnect | intakeRequest =>
    exact .ite (.next _) <| .ite (.next _) <| .ite (.next _) (.next _)
  | scrubRead =>
    refine .ite (.next _) ?_
    split <;> exact .next _
  | dumpEnd =>
    dsimp only [exec, execDumpEnd]
    split
    · exact .next _
    · split <;> exact .next _
  | keyRequest =>
    refine .ite (.next _) <| .ite (.next _) ?_
    split <;> exact .next _
  | moduleRecoveryDone =>
    refine .ite (.next _) <| .ite (.next _) ?_
    dsimp only
    split <;> exact .next _
  | keyWrap | fwSvnRollForward =>
    refine .ite (.next _) ?_
    split
    · exact .next _
    · exact .ite (.next _) (.next _)
  | phase | repairStart | toneCheckEnd | delivered | attemptDiscard | dupCheckRun | dusk | debugMemoryRead
  | midnightCapture =>
    conv => arg 1; whnf
    split
    · exact .next _
    · exact .ite (.next _) <| .ite (.next _) (.next _)
  | main48vApply => exact .ite (.ite (.next _) (.next _)) <| .ite (.next _) <| .ite (.next _) (.next _)
  | ckptDone =>
    refine .ite (.next _) ?_
    split
    · exact .next _
    · split <;> exact .next _
  | snap | ringSweepEnd | schedLoadDone =>
    conv => arg 1; whnf
    split
    · exact .next _
    · refine .ite (.next _) ?_
      split <;> exact .next _
  | scheduleSwap | intakeDone =>
    dsimp only [exec, execScheduleSwap, execIntakeDone]
    split
    · exact .next _
    · refine .ite (.next _) ?_
      split <;> exact .next _
  | coll | update | digest | testItemEnd =>
    conv => arg 1; whnf
    split
    · exact .next _
    · split
      · exact .next _
      · exact .ite (.next _) (.next _)
  | reroute =>
    refine .ite (.ite (.next _) (.next _)) ?_
    split
    · exact .next _
    · exact .ite (.next _) (.next _)
  | ringLock =>
    refine .ite (.next _) <| .ite (.next _) ?_
    split
    · exact .ite (.next _) (.next _)
    · exact .next _
  | descriptorFetch =>
    refine .ite (.next _) <| .ite (.next _) ?_
    split
    · exact .next _
    · exact .ite (.next _) (.next _)
  | oldSourceDark | fwLoadDone =>
    conv => arg 1; whnf
    split
    · exact .next _
    · exact .ite (.next _) <| .ite (.next _) <| .ite (.next _) (.next _)
  | cellReceive | serviceMessageReceive =>
    exact .ite (.next _) <| .ite (.next _) <| .ite (.next _) <| .ite (.next _) <| .ite (.next _) (.next _)
  | restoreComplete =>
    refine .ite (.next _) ?_
    split
    · exact .next _
    · split <;> exact .next _
  | calDone =>
    dsimp only [exec, execCalDone]
    split
    · exact .next _
    · exact .ite (.next _) <| .ite (.next _) (.next _)
    · exact .ite (.next _) (.next _)
  | mbxRx =>
    refine .ite ?_ ?_
    · split
      · exact .next _
      · exact .next _
    · refine .ite ?_ (.next _)
      split <;> exact .next _
  | deliveryTimeout =>
    dsimp only [exec, execDeliveryTimeout]
    split
    · exact .next _
    · refine .ite (.next _) <| .ite (.next _) ?_
      split <;> exact .next _
  | launch | dma =>
    conv => arg 1; whnf
    split
    · exact .next _
    · split
      · exact .next _
      · exact .ite (.next _) <| .ite (.next _) (.next _)
  | trigInEdge =>
    refine .ite (.next _) <| .ite (.next _) <| .ite (.next _) <| .ite ?_ (.next _)
    dsimp only
    split <;> exact .next _
  | bypassMotionStart =>
    exact .ite (.next _) <| .ite (.next _) <| .ite (.next _) <| .ite (.next _) <| .ite (.next _) <|
      .ite (.next _) (.next _)
  | debugMemoryWrite =>
    refine .ite (.next _) <| .ite (.next _) ?_
    split
    · exact .next _
    · dsimp only
      split <;> exact .next _
  | fence =>
    dsimp only [exec, execFence]
    split
    · refine .ite (.next _) ?_
      split
      · exact .next _
      · exact .next _
    · split <;> exact .next _
  | laserFail =>
    dsimp only [exec, execLaserFail]
    split
    · exact .next _
    · refine .ite (.next _) ?_
      split
      · exact .next _
      · split <;> exact .next _
  | cellLaunch =>
    refine .ite (.next _) <| .ite (.next _) ?_
    split
    · exact .next _
    · refine .ite (.next _) ?_
      split <;> exact .next _
  | cellRefusal =>
    dsimp only [exec, execCellRefusal]
    split
    · exact .next _
    · refine .ite (.next _) <| .ite (.next _) <| .ite (.next _) ?_
      split <;> exact .next _
  | wait =>
    dsimp only [exec, execWait]
    split
    · exact .next _
    · refine .ite (.next _) <| .ite (.next _) ?_
      split
      · exact .next _
      · exact .ite (.next _) (.next _)
  | stepOpen =>
    refine .ite (.next _) ?_
    split
    · exact .ite (.next _) (.next _)
    · exact .ite (.next _) <| .ite (.next _) <| .ite (.next _) (.next _)
  | ckptRestoreDone =>
    refine .ite (.next _) ?_
    split
    · exact .next _
    · exact .ite (.next _) <| .ite (.next _) <| .ite (.next _) <| .ite (.next _) (.next _)
  | descriptorComplete =>
    dsimp only [exec, execDescriptorComplete]
    split
    · split
      · exact .next _
      · exact .next _
    · split
      · exact .next _
      · exact .ite (.next _) <| .ite (.next _) (.next _)
  | signal =>
    dsimp only [exec, execSignal]
    split
    · exact .next _
    · refine .ite (.next _) <| .ite ?_ <| .ite (.next _) <| .ite (.next _) (.next _)
      split <;> exact .next _
  | barrier =>
    dsimp only [exec, execBarrier]
    split
    · exact .next _
    · refine .ite (.next _) <| .ite (.next _) ?_
      split
      · exact .next _
      · exact .ite (.next _) <| .ite (.next _) (.next _)
  | ckptPageCopy =>
    refine .ite (.next _) ?_
    split
    · exact .next _
    · split
      · exact .next _
      · split
        · exact .next _
        · split <;> exact .next _
  | noon =>
    dsimp only [exec, execNoon]
    split
    · exact .next _
    · refine .ite (.next _) <| .ite (.next _) <| .ite (.next _) ?_
      split
      · exact .next _
      · exact .ite (.next _) <| .ite (.next _) (.next _)
  | syncWatchdog =>
    dsimp only [exec, execSyncWatchdog]
    split
    · split
      · exact .next _
      · exact .ite (.next _) (.next _)
    · split
      · exact .next _
      · split
        · exact .next _
        · exact .ite (.next _) <| .ite (.next _) (.next _)
    · split
      · exact .next _
      · refine .ite (.next _) <| .ite ?_ (.next _)
        split <;> exact .next _
  | _ => exact .next _

/-- Settles O5, by the split over the commands: one whose condition does not hold changes nothing, which is the model's
choice (log entries 8 and 120), and no branch of any command ends in a fault or a refusal. -/
theorem everyCommandAnswersNext : Obligations.EveryCommandAnswersNext := exec_isNext

end Sys2Proof.Machine
end

section
/-! ## A stalled ring, and an operation beyond its budget of frames -/
namespace Sys2Proof.Machine

theorem execRingStall_of_due {r : Fin 256} {s : State} (hfails : 16 ≤ (s.ring r).fails)
    (hstall : s.on (Reg.SUB_RING_STATUS_STALL r) = false) :
    execRingStall r s = .next
      ((((s.mark (Reg.SUB_RING_STATUS_STALL r)).mark Reg.SUB_EVENT_RING_STALL).bump
        (Reg.SUB_RING_STALL_CNT_COUNT r)).raise
        { code := fRingStall, notice := true, unitKind := 6
          p1 := some ⟨s.ringCtx r, s.gen (s.ringCtx r), s.vcid (s.ringCtx r), r, 0⟩
          detail := [(1, r), (4, s.get (Reg.SUB_RING_CI_CI r)),
            (8, (s.seqBase r + s.get (Reg.SUB_RING_CI_CI r)) % 2 ^ 64), (8, (s.ring r).found)] }) :=
  if_neg (by simp [hstall, Nat.not_lt.2 hfails])

theorem execRingStall_of_not_due {r : Fin 256} {s : State}
    (h : (s.ring r).fails < 16 ∨ s.on (Reg.SUB_RING_STATUS_STALL r) = true) : execRingStall r s = .next s :=
  if_pos (by simpa using h)

section
variable {r : Fin 256} {idx : Word} {o : Op} {s : State} (hop : s.op? r idx.toNat = some o)
include hop

theorem execFrameOverrun_of_late (hissued : o.issued = true) (hfin : o.fin = none) (hbudget : o.budget ≤ o.frames)
    (hwdog : o.wdogExpired = false) (hpos : s.time.pos ≤ 4) :
    execFrameOverrun r idx s = .next ((s.turn 4).faultOp o fFrameOverrun (Op.unit s o).1 (Op.unit s o).2
      [(4, o.budget), (4, o.frames), (8, o.units), (4, o.substep), (1, o.opc)]) := by
  simp [execFrameOverrun, hop, hissued, hfin, hwdog, Nat.not_lt.2 hbudget, Nat.not_lt.2 hpos]

theorem execFrameOverrun_of_early (hbudget : o.frames < o.budget) : execFrameOverrun r idx s = .next s := by
  simp [execFrameOverrun, hop, hbudget]
end

/-- Settles O31, by the guards of the two commands. -/
theorem ringStallAndFrameOverrun : Obligations.RingStallAndFrameOverrun :=
  ⟨fun _ _ => ⟨execRingStall_of_due, execRingStall_of_not_due⟩,
    fun _ _ _ _ hop => ⟨execFrameOverrun_of_late hop, execFrameOverrun_of_early hop⟩⟩

end Sys2Proof.Machine
end

section
/-! ## Barrier messages, and the watchdog of a waiting descriptor -/
namespace Sys2Proof.Machine

/-- A message that reaches no barrier is counted as of no permission or of a stale epoch (R227). -/
theorem State.eq_countRefusal_of_barrierTarget_error {s t : State} {m : SyncMsg} (h : s.barrierTarget m = .error t) :
    t = s.countRefusal fPermission ∨ t = s.countRefusal fStaleContext := by
  unfold barrierTarget at h
  split at h
  · exact .inl (Except.error.inj h).symm
  split at h
  · exact .inl (Except.error.inj h).symm
  split at h
  · exact .inr (Except.error.inj h).symm
  · cases h

theorem State.parentRelease_of_current {s : State} {port : Nat} {m : SyncMsg} {obj : Nat}
    (hroot : (s.obj obj).root = false) (hport : port = (s.obj obj).parentPort)
    (hsense : m.sense = (s.obj obj).sense) (hbroken : (s.obj obj).broken = false) :
    s.parentRelease port m obj = (s.release obj m.value.toNat).barrierCheck 2 obj := by
  simp [parentRelease, hroot, hport, hsense, hbroken]

theorem State.parentRelease_of_foreign {s : State} {port : Nat} {m : SyncMsg} {obj : Nat}
    (h : (s.obj obj).root = true ∨ port ≠ (s.obj obj).parentPort ∨ m.sense ≠ (s.obj obj).sense) :
    s.parentRelease port m obj = s.dropForeign :=
  if_pos (by simpa [or_assoc] using h)

section
variable {r : Fin 256} {i : Word} {o : Op} {q : WaitRec} {s : State} (hop : s.op? r i.toNat = some o)
  (hwait : o.wait = some q) (hwdog : o.wdogExpired = true) (hpos : s.time.pos ≤ 4)
include hop hwait hwdog hpos

theorem execSyncWatchdog_desc_of_barrier (hb : q.barrier = true) :
    execSyncWatchdog (.desc r i) s = .next ((s.turn 4).breakObj q.obj o.ctx q.vid none false).retrySync := by
  simp [execSyncWatchdog, hop, hwait, hwdog, Nat.not_lt.2 hpos, hb]

theorem execSyncWatchdog_desc_of_wait (hb : q.barrier = false) :
    execSyncWatchdog (.desc r i) s = .next
      ((((s.turn 4).bump Reg.SYN_WDOG_CNT_COUNT).mark Reg.SYN_EVENT_WATCHDOG).faultOp o fSyncWatchdog 7 0
        (waitDetail q.vid (s.obj q.obj).value q.thr)) := by
  simp [execSyncWatchdog, hop, hwait, hwdog, Nat.not_lt.2 hpos, hb]
end

/-- Settles O36: the target of a message decides what arrives, and the kind of wait what an expired watchdog does. -/
theorem barrierMessages : Obligations.BarrierMessages := by
  intro port m s
  refine ⟨?reached, ?held, ?dropped, fun obj => State.parentRelease_of_current,
    fun obj => State.parentRelease_of_foreign,
    fun r i o q hop hwait hwdog hpos =>
      ⟨execSyncWatchdog_desc_of_barrier hop hwait hwdog hpos, execSyncWatchdog_desc_of_wait hop hwait hwdog hpos⟩⟩
  case reached =>
    intro c obj hon htarget
    change execBarrierArrive port m s = _ ∧ execBarrierRelease port m s = _ ∧ execBarrierBreak port m s = _
    simp only [execBarrierArrive, execBarrierRelease, execBarrierBreak, hon, if_true, State.arriveIn, State.releaseIn,
      State.breakIn, htarget, and_self]
  case held =>
    intro hoff
    change execBarrierArrive port m s = _ ∧ execBarrierRelease port m s = _ ∧ execBarrierBreak port m s = _
    simp only [execBarrierArrive, execBarrierRelease, execBarrierBreak, hoff, Bool.false_eq_true, if_false, and_self]
  case dropped =>
    intro t hon htarget
    refine ⟨State.eq_countRefusal_of_barrierTarget_error htarget, ?_⟩
    change execBarrierArrive port m s = _ ∧ execBarrierRelease port m s = _ ∧ execBarrierBreak port m s = _
    simp only [execBarrierArrive, execBarrierRelease, execBarrierBreak, hon, if_true, State.arriveIn, State.releaseIn,
      State.breakIn, htarget, and_self]

end Sys2Proof.Machine
end

section
/-! ## The end of a step: its commit, its deadline and its time limit -/
namespace Sys2Proof.Machine

theorem stepStatus_ne_stepEvent (c : Nat) : Reg.RPL_STEP_STATUS c ≠ Reg.RPL_STEP_EVENT :=
  Nat.ne_of_gt (Nat.lt_add_right _ (by decide))

/-- The word of RPL_STEP_STATUS after a commit: STATE, DIRTY and CLOSE_READY are 0 (R330). -/
theorem bitsOf_committed_state (w : Word) :
    bitsOf (BitVec.ofNat 32 (setBits (setBits (setBits w.toNat 0 2 0) 2 1 0) 4 1 0)).toNat 0 2 = 0 := by
  have hword : setBits (setBits (setBits w.toNat 0 2 0) 2 1 0) 4 1 0 < 2 ^ 32 :=
    setBits_lt (setBits_lt (setBits_lt w.isLt (by decide)) (by decide)) (by decide)
  rw [BitVec.toNat_ofNat, Nat.mod_eq_of_lt hword, bitsOf_setBits_below (by decide), bitsOf_setBits_below (by decide),
    bitsOf_setBits_same, Nat.zero_mod]

theorem freeSets_suffix (t r : Nat) (l : List InSet) : freeSets t r l <:+ l := by
  induction l with
  | nil => exact List.suffix_rfl
  | cons x l ih =>
    unfold freeSets
    split
    · exact ih.trans (List.suffix_cons x l)
    · exact List.suffix_rfl

namespace State

theorem commitStep_sets (s : State) (c : Nat) (o : Op) (retention : Nat) :
    (s.commitStep c o retention).rpl.sets <:+ s.rpl.sets := freeSets_suffix ..

section
variable {s : State} (h : s.canon = true) (c : Nat) (o : Op) (retention : Nat)
include h

theorem commitStep_stepState : (s.commitStep c o retention).stepState c = 0 := by
  have hfin : (s.finish o stDone 0).canon = true := finish_canon h o stDone 0
  have hstatus : (s.commitStep c o retention).reg (Reg.RPL_STEP_STATUS c) =
      BitVec.ofNat 32 (setBits (setBits (setBits (s.reg (Reg.RPL_STEP_STATUS c)).toNat 0 2 0) 2 1 0) 4 1 0) :=
    (reg_put_ne (f := Reg.RPL_STEP_EVENT_CLOSED) (setReg_canon hfin _ _) 1 (stepStatus_ne_stepEvent c)).trans
      (reg_setReg_same hfin _ _)
  calc (s.commitStep c o retention).stepState c
      = bitsOf ((s.commitStep c o retention).reg (Reg.RPL_STEP_STATUS c)).toNat 0 2 := rfl
    _ = 0 := by rw [hstatus, bitsOf_committed_state]

theorem commitStep_closed : (s.commitStep c o retention).get Reg.RPL_STEP_EVENT_CLOSED = 1 :=
  get_mark_same (setReg_canon (finish_canon h o stDone 0) _ _) (by decide) rfl
end
end State

section
variable {ctx : Fin 64} {o : Op} {retention : Nat} {s : State}

theorem execVotedTimeout_of_expired (hstate : s.stepState ctx = 2) (hclose : (s.ctx ctx).closeOp = none)
    (hdiscard : s.discardSet ctx = false)
    (hwdog : (s.ctx ctx).votedTick + s.get (Reg.SYN_CTX_WDOG_FRAMES ctx) ≤ s.now) :
    execVotedTimeout ctx s = .next
      ((((s.mark Reg.RPL_STEP_EVENT_BREAK_SENT).discardNext ctx).modCtx ctx fun y =>
        { y with mismatch := true, broke := true }).breakObj
          (s.ctx ctx).noonObj ctx (s.ctx ctx).noonVid none true).retrySync :=
  if_neg (by simp [hstate, hclose, hdiscard, Nat.not_lt.2 hwdog])

variable (hclose : s.closeOf ctx = some (o, retention))
include hclose

theorem execCloseReady_of_last (hearlier : s.earlierOpen o = false) (hopen : s.stepOpen ctx = true) :
    execCloseReady ctx s = .next (s.mark (Reg.RPL_STEP_STATUS_CLOSE_READY ctx)) := by
  simp [execCloseReady, hclose, hearlier, hopen]

theorem execCloseReady_of_waiting (hwait : s.earlierOpen o = true ∨ s.stepOpen ctx = false) :
    execCloseReady ctx s = .next s := by
  simp [execCloseReady, hclose, hwait]

theorem execStepCommit_of_due (hready : s.on (Reg.RPL_STEP_STATUS_CLOSE_READY ctx) = true)
    (hstate : s.stepState ctx = 2) (hdiscard : s.discardNow ctx = false)
    (hframe : s.closeFrame ctx ≤ s.frame) (hpos : s.time.pos ≤ 7) :
    execStepCommit ctx s = .next (((s.turn 7).commitStep ctx o retention).cutAtCommit ctx (s.stepNum ctx)) := by
  simp [execStepCommit, hclose, hready, hstate, hdiscard, Nat.not_lt.2 hframe, Nat.not_lt.2 hpos]

theorem execCloseDeadline_of_missed (hready : s.on (Reg.RPL_STEP_STATUS_CLOSE_READY ctx) = false)
    (hframe : s.closeFrame ctx ≤ s.frame + 3) :
    execCloseDeadline ctx s = .next
      ((((if s.stepState ctx = 1 then s.breakOpen ctx else s).faultOp o fFrameOverrun 6 0
        [(4, o.budget), (4, o.frames), (8, 0), (4, 0), (1, 13)]).modCtx ctx fun x =>
          { x with closeOp := none }).retrySync) := by
  simp [execCloseDeadline, hclose, hready, Nat.not_lt.2 hframe, State.when]
end

/-- Settles O39, by the guards of the four commands and what a commit leaves. -/
theorem stepCloses : Obligations.StepCloses := by
  intro ctx o retention s
  exact ⟨execCloseReady_of_last, execCloseReady_of_waiting, execStepCommit_of_due, execCloseDeadline_of_missed,
    execVotedTimeout_of_expired, fun h => ⟨State.commitStep_stepState h .., State.commitStep_closed h ..,
      fun _ hx => (State.commitStep_sets ..).subset hx⟩⟩

end Sys2Proof.Machine
end

section
/-! ## The time base -/
namespace Sys2Proof.Machine

theorem State.each_time {α : Type} (s : State) (l : List α) {f : State → α → State}
    (hf : ∀ t a, (f t a).time = t.time) : (s.each l f).time = s.time := by
  unfold each
  induction l generalizing s with
  | nil => rfl
  | cons a l ih => rw [List.foldl_cons, ih, hf]

theorem State.advance_time (s : State) : s.advance.time =
    { s.time with ticks := s.time.ticks + 1, frame := s.time.frame + 1, base := s.time.top
                  top := Nat.max s.time.top (s.time.frame + 1).toNat, pos := 0 } :=
  State.each_time _ _ fun _ _ => rfl

theorem State.byCp_of_acts {s : State} {p : Party} (h : s.acts p) (f : State → State) : s.byCp p f = f s := by
  cases p with
  | cp k => simp only [byCp, h k rfl, Bool.not_false, if_true]
  | _ => rfl

theorem State.mayLoad_put_loadHi {s : State} (h : s.canon = true) (v : Nat) :
    (s.put Reg.FTB_LOAD_HI_LOAD_HI v).mayLoad = s.mayLoad := by
  simp only [mayLoad, on, get_put_ne h v (show Reg.FTB_CTRL_ROLE.reg ≠ Reg.FTB_LOAD_HI_LOAD_HI.reg by decide),
    get_put_ne h v (show Reg.FTB_STATUS_VALID.reg ≠ Reg.FTB_LOAD_HI_LOAD_HI.reg by decide)]

section
variable {s : State}

theorem State.mayLoad_of_role (hrole : s.get Reg.FTB_CTRL_ROLE ≠ 0) (hvalid : s.on Reg.FTB_STATUS_VALID = false) :
    s.mayLoad = true := by
  simp [mayLoad, hrole, hvalid]

theorem execFrameTick_of_running {e : TickEnv} (hpower : 2 ≤ s.powerNow) (hreset : s.pins.resetLow = false) :
    execFrameTick e s =
      .next (((((((s.endFrame e).advance).timeTick).applyRefresh).firmwareTick).recoverySteps).beginFrame e) :=
  if_neg (by simp [hreset, Nat.not_lt.2 hpower])

theorem execFrameTick_of_stopped {e : TickEnv} (h : s.powerNow < 2 ∨ s.pins.resetLow = true) :
    execFrameTick e s = .next (s.modTime fun t => { t with ticks := t.ticks + 1 }) :=
  if_pos (by simpa using h)

/-- What a message heard on a port leaves, before a follower takes the offset to its parent. -/
def State.heardTime (s : State) (port : Fin 16) (m : TimeMsg) (arrival : Nat) : State :=
  ((s.setNbr port (s.heard port m arrival)).learnMaster m).relayTimes s arrival

/-- A follower whose parent is the neighbour of a port. -/
def State.hasParentAt (s : State) (port : Fin 16) : Prop :=
  s.isMaster = false ∧ s.time.hasParent = true ∧ s.get Reg.FTB_STATUS_PARENT = port

section
variable {port : Fin 16} {m : TimeMsg} {arrival : BitVec 64} (hon : s.on Reg.FTB_CTRL_ENABLE = true)
  (hup : s.serviceUp port = true)
include hon hup

theorem execTimeMessageReceive_of_other
    (h : ¬ (s.heardTime port m arrival.toNat).hasParentAt port) :
    execTimeMessageReceive port m arrival s = .next (s.heardTime port m arrival.toNat) :=
  (if_neg (by simp [hon, hup])).trans <| if_pos <| by
    simp only [Bool.or_eq_true, Bool.not_eq_true', bne_iff_ne]
    by_contra hne
    simp only [not_or, Bool.not_eq_true, Bool.not_eq_false, not_not] at hne
    obtain ⟨⟨hmaster, hparent⟩, hport⟩ := hne
    exact h ⟨hmaster, hparent, hport⟩

theorem execTimeMessageReceive_of_parent
    (h : (s.heardTime port m arrival.toNat).hasParentAt port) :
    execTimeMessageReceive port m arrival s =
      let t := s.heardTime port m arrival.toNat
      .next (t.fresh.2.put Reg.FTB_OFFSET_OFFSET
        (toField 32 (((t.nbr port).off2 + (t.fresh.1 % 2 : Nat)) / 2))) :=
  (if_neg (by simp [hon, hup])).trans <| if_neg <| by
    obtain ⟨hmaster, hparent, hport⟩ := h
    simp only [State.heardTime] at hmaster hparent hport
    simp [hmaster, hparent, hport]
end

theorem execTimeLock_of_good (hmaster : s.isMaster = false) (hgood : 16 ≤ s.time.good) (hsync : s.time.resync = false) :
    execTimeLock s = .next (s.mark Reg.FTB_STATUS_LOCKED) := by
  simp [execTimeLock, hmaster, Nat.not_lt.2 hgood, hsync]

theorem execTimeLock_of_resync (hmaster : s.isMaster = false) (hgood : 16 ≤ s.time.good) (hsync : s.time.resync = true) :
    execTimeLock s = .next
      ((((s.mark Reg.FTB_STATUS_LOCKED).put Reg.FTB_STATUS_TIME_LOSS 0).put Reg.FTB_STATUS_TERM_ONLY 0).modTime fun t =>
        { t with resync := false }) := by
  simp [execTimeLock, hmaster, Nat.not_lt.2 hgood, hsync]

theorem execTimeUnlock_of_bad (hmaster : s.isMaster = false) (hbad : 4 ≤ s.time.bad) :
    execTimeUnlock s = .next (s.put Reg.FTB_STATUS_LOCKED 0) := by
  simp [execTimeUnlock, hmaster, Nat.not_lt.2 hbad]

theorem execDeputyPromotion_of_due (hdue : s.time.promoteDue = true) (hdeputy : s.on Reg.FTB_CTRL_DEPUTY = true)
    (hmaster : s.isMaster = false) :
    execDeputyPromotion s = .next (s.becomeMaster.sendTimes (stampOf s.frame)) := by
  simp [execDeputyPromotion, hdue, hdeputy, hmaster]

theorem State.becomeMaster_hiEpoch : s.becomeMaster.time.hiEpoch = (s.time.hiEpoch + 1) % 65536 := rfl

theorem execTimeLoss_of_limit (hmaster : s.isMaster = false) (hhold : s.on Reg.FTB_STATUS_HOLDOVER = true)
    (hlimit : s.get Reg.FTB_HOLD_HOLD_LIMIT ≤ s.get Reg.FTB_HOLD_HOLD_CNT) (hvalid : s.on Reg.FTB_STATUS_VALID = true)
    (hloss : s.on Reg.FTB_STATUS_TIME_LOSS = false) :
    execTimeLoss s = .next
      (let t := (((s.logRec { code := fTimeLoss, unitKind := 11, unit := 0, detail :=
          [(2, s.get Reg.FTB_HOLD_HOLD_CNT), (1, s.get Reg.FTB_STATUS_PARENT), (2, s.get Reg.FTB_MASTER_MASTER_ID),
            (2, s.get Reg.FTB_MASTER_EPOCH)] }).mark Reg.FTB_STATUS_TIME_LOSS).mark Reg.FTB_STATUS_TERM_ONLY).mark
              Reg.FTB_EVENT_TIME_LOSS
       t.each ((List.range 64).filter t.stepOpen) fun u c => u.cause c 3) :=
  if_neg (by simp [hmaster, hhold, Nat.not_lt.2 hlimit, hvalid, hloss])

theorem execTimeStep_of_due {pf : BitVec 64} {t0 : Nat} (hdue : s.time.stepDue = some t0) (hnow : t0 ≤ s.now)
    (hpos : s.time.pos ≤ 1) :
    execTimeStep pf s = .next
      ((((((((s.turn 1).setFrame pf).modTime fun t =>
        { t with stepDue := none, good := 0, bad := 0, resync := true }).bump
        Reg.FTB_STEP_CNT_STEPS).mark Reg.FTB_EVENT_STEP).mark Reg.FTB_STATUS_VALID).put Reg.FTB_STATUS_HOLDOVER 0).put
          Reg.FTB_STATUS_LOCKED 0) := by
  simp [execTimeStep, hdue, Nat.not_lt.2 hnow, Nat.not_lt.2 hpos]

theorem State.setFrame_frame (pf : BitVec 64) : (s.setFrame pf).time.frame = pf := by
  unfold setFrame modTime
  dsimp only
  split <;> rfl

theorem execFtbLoadHiWrite_of_mayLoad {p : Party} {v : Word} (hp : s.acts p) (h : s.canon = true)
    (hload : s.mayLoad = true) :
    execFtbLoadHiWrite p v s = .next ((s.put Reg.FTB_LOAD_HI_LOAD_HI v.toNat).modTime fun t =>
      { t with loadArmed := true, loadTick := s.now + 1, loadPps := false }) := by
  simp only [execFtbLoadHiWrite, State.byCp_of_acts hp, State.writeLoadHi, State.mayLoad_put_loadHi h, hload, if_true]

/-- The state after a load of the counter, before a master sends its time messages. -/
def State.loaded (s : State) : State :=
  ((s.setFrame (BitVec.ofNat 64 (s.get64 Reg.FTB_LOAD_LO_LOAD_LO Reg.FTB_LOAD_HI_LOAD_HI))).modTime fun t =>
    { t with loadArmed := false }).mark Reg.FTB_STATUS_VALID

theorem execCounterLoad_of_due (harmed : s.time.loadArmed = true) (hload : s.mayLoad = true)
    (hdue : s.get Reg.FTB_CTRL_ROLE = 2 ∧ s.time.loadPps = true
      ∨ s.get Reg.FTB_CTRL_ROLE ≠ 2 ∧ s.time.loadTick ≤ s.now ∧ s.time.pos ≤ 1) :
    execCounterLoad s = .next (s.loaded.when (s.loaded.isMaster && !s.loaded.time.sentNow) fun t =>
      t.sendTimes (stampOf t.frame)) := by
  rcases hdue with ⟨hrole, hpps⟩ | ⟨hrole, htick, hpos⟩
  · simp [execCounterLoad, harmed, hload, hrole, hpps, State.loaded]
  · simp [execCounterLoad, harmed, hload, hrole, htick, hpos, State.loaded]

end

/-- Settles O40, command by command. -/
theorem timeBase : Obligations.TimeBase := by
  intro e port m arrival pf p v s
  refine ⟨?tick, execFrameTick_of_stopped, ?message, execTimeLock_of_good, execTimeLock_of_resync, execTimeUnlock_of_bad,
    ?deputy, execTimeLoss_of_limit, State.setFrame_frame pf, fun t0 => execTimeStep_of_due, ?arm, ?load⟩
  case tick =>
    refine fun hpower hreset => ⟨execFrameTick_of_running hpower hreset, ?_, ?_⟩
    · rw [State.advance_time]
    · rw [State.advance_time]
  case message =>
    exact fun hon hup => ⟨execTimeMessageReceive_of_other hon hup, execTimeMessageReceive_of_parent hon hup⟩
  case deputy =>
    exact fun hdue hdeputy hmaster => ⟨execDeputyPromotion_of_due hdue hdeputy hmaster, State.becomeMaster_hiEpoch⟩
  case arm => exact fun hp hrole h hvalid => execFtbLoadHiWrite_of_mayLoad hp h (State.mayLoad_of_role hrole hvalid)
  case load =>
    intro harmed hrole hvalid hdue
    have hload := execCounterLoad_of_due harmed (State.mayLoad_of_role hrole hvalid) hdue
    exact ⟨fun hsend => hload.trans (congrArg Host.Outcome.next (if_pos (by simpa [State.loaded] using hsend))),
      fun hsend => hload.trans (congrArg Host.Outcome.next (if_neg (by simpa [State.loaded] using hsend)))⟩

end Sys2Proof.Machine
end

section
/-! ## Time references on the pins, and captures -/
namespace Sys2Proof.Machine

variable {s : State}

/-! ### The pins -/

section
variable {cycles : Nat} (hlast : s.pins.ppsAt.isSome = true)
include hlast

theorem State.ppsAccepts_of_last : s.ppsAccepts cycles = (decide (9999998 ≤ cycles) && decide (cycles ≤ 10000002)) := by
  obtain ⟨t, ht⟩ := Option.isSome_iff_exists.1 hlast
  simp only [ppsAccepts, ht]

theorem execPpsInEdge_of_second (hlo : 9999998 ≤ cycles) (hhi : cycles ≤ 10000002) (hrun : 1 ≤ s.pins.ppsRun) :
    execPpsInEdge false cycles s = .next
      (((s.modPins fun x => { x with ppsAt := some s.now, ppsRun := 2 }).mark Reg.GLB_STATUS_PPS_VALID).modTime
        fun t => { t with loadPps := t.loadPps || t.loadArmed }) := by
  have hrun2 : min 2 (s.pins.ppsRun + 1) = 2 := by omega
  simp [execPpsInEdge, State.ppsAccepts_of_last hlast, hlo, hhi, hrun2, State.when]

theorem execPpsInEdge_of_off (hoff : cycles < 9999998 ∨ 10000002 < cycles) :
    execPpsInEdge false cycles s = .next ((s.bump Reg.GLB_PPS_BAD_CNT_COUNT).mark Reg.GLB_EVENT_PPS_BAD) :=
  if_pos (by
    rw [State.ppsAccepts_of_last hlast]
    simp
    omega)
end

theorem State.refLost_off (h : s.canon = true) : s.refLost.on Reg.GLB_STATUS_REF_VALID = false := by
  unfold refLost
  split
  · have hput := put_canon h Reg.GLB_STATUS_REF_VALID 0
    unfold on mark
    rw [get_put_ne hput 1 (by decide), get_put_same h 0 (by decide)]
    rfl
  · next hoff => simpa using hoff

theorem execTimeRefRecover_of_lost (hlost : s.on Reg.GLB_STATUS_REF_VALID = false) :
    execTimeRefRecover s = .next ((s.mark Reg.GLB_STATUS_REF_VALID).modPins fun x =>
      { x with ppsAt := none, ppsRun := 0 }) :=
  if_neg (by simp [hlost])

/-! ### Arming -/

theorem State.armCapture_of_idle (hidle : s.snp.armed = none) (frame src : Nat) (snap : Option Nat) :
    s.armCapture frame src snap = some { s.mark Reg.SNP_STATUS_ARMED with
      snp := { s.snp with armed := some { frame := frame, src := src, snaps := snap.toList } } } := by
  simp only [armCapture, hidle]

theorem State.askCapture_of_idle (hidle : s.snp.armed = none) (frame src : Nat) :
    s.askCapture frame src = { s.mark Reg.SNP_STATUS_ARMED with
      snp := { s.snp with armed := some { frame := frame, src := src, snaps := [] } } } := by
  simp only [askCapture, armCapture_of_idle hidle, Option.getD_some, Option.toList_none]

section
variable {a : Capture} (harmed : s.snp.armed = some a)
include harmed

theorem State.askCapture_of_other {frame : Nat} (hframe : a.frame ≠ frame) (src : Nat) :
    s.askCapture frame src = s.captureConflict := by
  simp only [askCapture, armCapture, harmed, if_neg hframe, Option.getD_none]

/-- A request for the frame of the armed capture merges with it. -/
theorem State.askCapture_of_same (src : Nat) : s.askCapture a.frame src = s := by
  have hsnp : { s.snp with armed := some a } = s.snp := by rw [← harmed]
  simp only [askCapture, armCapture, harmed, if_true, Option.getD_some, Option.toList_none, List.append_nil, hsnp]

end

theorem State.writeSnpArm_of_future {v : Nat}
    (hframe : s.frame < (s.put Reg.SNP_ARM_HI_FRAME_HI v).get64 Reg.SNP_ARM_LO_FRAME_LO Reg.SNP_ARM_HI_FRAME_HI) :
    s.writeSnpArm v = (s.put Reg.SNP_ARM_HI_FRAME_HI v).askCapture
      ((s.put Reg.SNP_ARM_HI_FRAME_HI v).get64 Reg.SNP_ARM_LO_FRAME_LO Reg.SNP_ARM_HI_FRAME_HI) 1 :=
  if_neg (Nat.not_le.2 hframe)

theorem execCaptureAnnounce_of_past {frame : BitVec 64} (h : frame.toNat ≤ s.frame) :
    execCaptureAnnounce frame s = .next ((s.mark Reg.SNP_EVENT_LATE).mark Reg.SWT_EVENT_LATE_ANNOUNCE) :=
  if_pos h

theorem execCaptureAnnounce_of_future {frame : BitVec 64} (h : s.frame < frame.toNat) :
    execCaptureAnnounce frame s = .next (s.askCapture frame.toNat 3) :=
  if_neg (Nat.not_le.2 h)

/-! ### The capture -/

/-- The capture tick's turn: the capture is no longer armed, and TRIG_OUT pulses where it is enabled. -/
def State.captureTurn (s : State) : State :=
  let idle : State := { (s.turn 2).put Reg.SNP_STATUS_ARMED 0 with snp := { s.snp with armed := none } }
  if s.on Reg.SNP_CTRL_TRIG_OUT_EN = true then idle.emit .trigOut else idle

section
variable {a : Capture} (harmed : s.snp.armed = some a)
include harmed

section
variable (hframe : a.frame ≤ s.frame) (hpos : s.time.pos ≤ 2)
include hframe hpos

theorem execMidnightCapture_of_taken {reading : Bool} (hread : reading = false ∨ s.hrc.running = none) :
    let t := s.captureTurn
    let taken := ((((t.bump Reg.SNP_CAPTURE_CNT_COUNT).mark Reg.SNP_EVENT_CAPTURED).mark Reg.SNP_STATUS_VALID).put
      Reg.SNP_STATUS_LAST_SRC a.src).put64 Reg.SNP_LAST_LO_FRAME Reg.SNP_LAST_HI_FRAME a.frame
    execMidnightCapture reading s = .next
      (({ taken with snp := taken.capture } : State).each (a.snaps.filterMap t.opNo?) fun u o => u.finish o stDone 0) := by
  have hmiss : ¬ (reading && s.hrc.running.isSome) = true := by
    rcases hread with rfl | hrun
    · simp
    · simp [hrun]
  simp only [execMidnightCapture, harmed, hmiss, State.captureTurn, State.when]
  rw [if_neg (by simp [Nat.not_lt.2 hframe, Nat.not_lt.2 hpos])]
  rfl

theorem execMidnightCapture_of_missed (hread : s.hrc.running.isSome = true) :
    execMidnightCapture true s = .next
      (((s.captureTurn.bump Reg.SNP_MISSED_CNT_COUNT).mark Reg.SNP_EVENT_MISSED).each
        (a.snaps.filterMap s.captureTurn.opNo?) fun u o =>
          u.faultOp o fFrameOverrun 6 0 [(4, o.budget), (4, o.frames), (8, o.units), (4, o.substep), (1, 10)]) := by
  simp only [execMidnightCapture, harmed, hread, State.captureTurn, State.when]
  rw [if_neg (by simp [Nat.not_lt.2 hframe, Nat.not_lt.2 hpos])]
  rfl
end

theorem execMidnightCapture_of_early {reading : Bool} (hframe : s.frame < a.frame) :
    execMidnightCapture reading s = .next s := by
  simp [execMidnightCapture, harmed, hframe]
end

theorem State.mem_capture_invalid {b : Nat} : b ∈ s.capture.invalid ↔ b ∈ snapBlocks ∧ s.blockSilent b ≠ none := by
  simp [capture, Option.isSome_iff_ne_none]

/-- A sparse map after its keys of a list took the values that a function gives them. -/
theorem sget_foldl_sset {β : Type} [DecidableEq β] {d : Nat → β} (g : Nat → β) (l : List Nat) {m : Sparse β}
    (hm : swf d m = true) (k : Nat) :
    sget d (l.foldl (fun m b => sset d m b (g b)) m) k = if k ∈ l then g k else sget d m k := by
  induction l generalizing m with
  | nil => simp
  | cons b l ih =>
    rw [List.foldl_cons, ih (swf_sset hm)]
    by_cases hl : k ∈ l
    · simp [hl]
    · by_cases hb : k = b
      · subst hb
        simp [hl, sget_sset_same hm]
      · simp [hl, hb, sget_sset_ne hm hb]

theorem State.capture_set (hsets : s.snp.sets = []) {b : Nat} (hb : b ∈ snapBlocks) :
    sget (fun _ => []) s.capture.sets b = if s.blockSilent b = none then s.liveSet b else [] := by
  simp only [capture, hsets]
  rw [sget_foldl_sset _ _ swf_nil]
  simp [hb, sget]

theorem State.liveSet_core {c : Nat} (hc : c < 144) :
    (s.liveSet (4096 + c)).head? = some (s.reg (Reg.CORE_ASW c)).toNat := by
  have hkind : (4096 + c) / 4096 = 1 := by omega
  have hunit : (4096 + c) % 4096 = c := by omega
  simp [liveSet, hkind, hunit]

/-! ### TRIG_IN -/

theorem execTrigInEdge_of_close {t : Nat} (hlast : s.pins.trigAt = some t) (hclose : s.now < t + 4) :
    execTrigInEdge false s = .next
      (((s.mark Reg.GLB_STATUS_TRIG_IN).bump Reg.GLB_TRIG_IGN_CNT_COUNT).mark Reg.GLB_EVENT_TRIG_IGNORED) :=
  if_pos (by simp [hlast, hclose])

theorem execTrigInEdge_short :
    execTrigInEdge true s = .next ((s.bump Reg.GLB_TRIG_IGN_CNT_COUNT).mark Reg.GLB_EVENT_TRIG_IGNORED) := rfl

/-- The state after an accepted edge, before it arms a capture. -/
def State.trigTaken (s : State) : State :=
  (s.mark Reg.GLB_STATUS_TRIG_IN).modPins fun x => { x with trigAt := some s.now }

section
variable (hlast : s.pins.trigAt = none) (hstuck : s.on Reg.GLB_STATUS_TRIG_STUCK = false)
include hlast hstuck

theorem execTrigInEdge_of_disabled (hen : s.on Reg.SNP_CTRL_TRIG_IN_EN = false) :
    execTrigInEdge false s = .next s.trigTaken := by
  simp [execTrigInEdge, hlast, hstuck, hen, State.when, State.trigTaken]

variable (hen : s.on Reg.SNP_CTRL_TRIG_IN_EN = true)
include hen

theorem execTrigInEdge_of_module (hslice : s.on Reg.SNP_CTRL_TRIG_SLICE = false) :
    execTrigInEdge false s = .next (s.trigTaken.askCapture (s.frame + 2) 2) := by
  simp [execTrigInEdge, hlast, hstuck, hen, hslice, State.when, State.trigTaken]

theorem execTrigInEdge_of_slice (hslice : s.on Reg.SNP_CTRL_TRIG_SLICE = true) {t : State}
    (harm : s.trigTaken.armCapture (s.frame + s.snpLead) 2 none = some t) :
    execTrigInEdge false s = .next (t.announceCapture (s.frame + s.snpLead)) := by
  unfold State.trigTaken at harm
  simp [execTrigInEdge, hlast, hstuck, hen, hslice, State.when, harm]
end

/-- Settles O41, command by command; the edges of TRIG_IN arm through the laws of arming. -/
theorem referencesAndCaptures : Obligations.ReferencesAndCaptures := by
  intro cycles v frame s
  refine ⟨execPpsInEdge_of_second, rfl, execPpsInEdge_of_off, rfl, rfl, rfl, State.refLost_off,
    execTimeRefRecover_of_lost, ⟨?armIdle, ?armOther, ?armLate⟩, execCaptureAnnounce_of_past, ?announceIdle,
    ?announceSame, ?turn,
    fun a harmed => execMidnightCapture_of_early harmed, ⟨fun t => execTrigInEdge_of_close, ?edge⟩,
    fun b => State.mem_capture_invalid, fun hsets b => State.capture_set hsets, fun c => State.liveSet_core, rfl, rfl⟩
  case armIdle =>
    exact fun hidle hframe => congrArg Host.Outcome.next <|
      (State.writeSnpArm_of_future hframe).trans (State.askCapture_of_idle (s := s.put ..) hidle ..)
  case armOther =>
    exact fun a harmed hframe hne => congrArg Host.Outcome.next <|
      (State.writeSnpArm_of_future hframe).trans (State.askCapture_of_other (s := s.put ..) harmed hne _)
  case armLate => exact fun hframe => congrArg Host.Outcome.next (if_pos hframe)
  case announceIdle =>
    exact fun hidle hframe => (execCaptureAnnounce_of_future hframe).trans <|
      congrArg Host.Outcome.next (State.askCapture_of_idle hidle ..)
  case announceSame =>
    exact fun a harmed hframe hsame => (execCaptureAnnounce_of_future hframe).trans <|
      congrArg Host.Outcome.next (hsame ▸ State.askCapture_of_same harmed _)
  case turn =>
    exact fun a harmed hframe hpos => ⟨fun reading => execMidnightCapture_of_taken harmed hframe hpos,
      execMidnightCapture_of_missed harmed hframe hpos⟩
  case edge =>
    refine fun _ hlast hstuck => ⟨execTrigInEdge_of_disabled hlast hstuck, fun hen hidle => ⟨?_, ?_⟩⟩
    · exact fun hslice => (execTrigInEdge_of_module hlast hstuck hen hslice).trans <|
        congrArg Host.Outcome.next (State.askCapture_of_idle (s := s.trigTaken) hidle ..)
    · exact fun hslice => execTrigInEdge_of_slice hlast hstuck hen hslice
        (State.armCapture_of_idle (s := s.trigTaken) hidle ..)

end Sys2Proof.Machine
end

section
/-! ## The cores of a state, and their registers -/
namespace Sys2Proof.Machine

/-- Registers of one core at different offsets. -/
theorem coreReg_ne {a b : Nat} (h : a ≠ b) (c : Nat) : a + 0x10000 * c ≠ b + 0x10000 * c :=
  fun heq => h (Nat.add_right_cancel heq)

namespace State
variable {s : State}

theorem core_modCore_same (h : s.canon = true) (c : Nat) (f : Core → Core) : (s.modCore c f).core c = f (s.core c) :=
  sget_sset_same (canon_coreMap h)

theorem core_modCore_ne (h : s.canon = true) {c d : Nat} (hd : d ≠ c) (f : Core → Core) :
    (s.modCore c f).core d = s.core d :=
  sget_sset_ne (canon_coreMap h) hd

end State
end Sys2Proof.Machine
end

section
/-! ## A core's control words, and its COMMIT points -/
namespace Sys2Proof.Machine

theorem b2n_beq (a b : Nat) : b2n (a == b) = if a = b then 1 else 0 := by
  simp [b2n]

/-- Settles O12, by the law of an instruction of a core that runs a LAUNCH. -/
theorem coreControlWords : Obligations.CoreControlWords := by
  intro core v o s hrun
  refine ⟨congrArg Host.Outcome.next (State.seqInstr_running hrun _),
    congrArg Host.Outcome.next (State.seqInstr_running hrun _), ?_⟩
  change execCommit core s = _
  simp only [execCommit, State.seqInstr_running hrun, b2n_beq]

end Sys2Proof.Machine
end

section
/-! ## Exact results of the elementary operations -/
namespace Sys2Proof

section
variable (rdn : Bool) (a b c : Val) (l : List Val)

theorem VElem.eval_max_x : (VElem.max.eval rdn [a, b]).x =
    if a.num.isNan || b.num.isNan then .nan else if Num.cmp a.num b.num ≥ 0 then a.num else b.num := rfl

theorem VElem.eval_min_x : (VElem.min.eval rdn [a, b]).x =
    if a.num.isNan || b.num.isNan then .nan else if Num.cmp a.num b.num ≤ 0 then a.num else b.num := rfl

theorem VElem.eval_sel_x : (VElem.sel.eval rdn [a, b, c]).x = if c.num.isZero then b.num else a.num := rfl

theorem VElem.eval_drelu_x : (VElem.drelu.eval rdn [a, b]).x =
    if a.num.isNan then .nan else if Num.cmp a.num (.zero false) > 0 then b.num else .zero false := rfl

theorem VElem.eval_cmp_x (r : Rel) :
    ((VElem.cmp r).eval rdn [a, b]).x = if relHolds r a.num b.num then Num.one else .zero false := rfl

/-- Every elementary operation joins INVALID for a signalling input to its own flags. -/
theorem VElem.exists_eval_fl (op : VElem) : ∃ f, (op.eval rdn l).fl = f ||| sigFlags l := ⟨_, rfl⟩
end

theorem sigFlags_cons_of_snan {a : Val} (ha : a.snan = true) (l : List Val) : sigFlags (a :: l) = flInvalid := by
  simp [sigFlags, flIf, ha]

theorem or_flInvalid_and_flInvalid (f : Nat) : (f ||| flInvalid) &&& flInvalid = flInvalid :=
  Nat.eq_of_testBit_eq fun i => by simp +contextual

/-- A comparison with a NaN holds for NE only (R121). -/
theorem relHolds_of_nan {x y : Num} (h : x.isNan = true ∨ y.isNan = true) (r : Rel) :
    relHolds r x y = decide (r = .ne) := by
  have hnan : (x.isNan || y.isNan) = true := by simpa using h
  cases r <;> simp [relHolds, hnan]

end Sys2Proof

namespace Sys2Proof.Machine

/-- Settles O20, operation by operation. -/
theorem elementaryResults : Obligations.ElementaryResults := by
  intro a b c rdn
  refine ⟨rfl, rfl, rfl, rfl, ?nan, ?above, ?below, rfl, rfl, rfl, ?zero, ?nonzero, ?dnan, ?dpos, ?dneg,
    ⟨?cmpNan, ?cmp⟩, ?invalid⟩
  case nan =>
    intro h
    simp [VElem.eval_max_x, VElem.eval_min_x, h]
  case above =>
    intro ha hb h
    simp [VElem.eval_max_x, VElem.eval_min_x, ha, hb, Int.le_of_lt h, Int.not_le.2 h]
  case below =>
    intro ha hb h
    simp [VElem.eval_max_x, VElem.eval_min_x, ha, hb, Int.le_of_lt h, Int.not_le.2 h]
  case zero => exact fun h => if_pos h
  case nonzero => exact fun h => if_neg (by simp [h])
  case dnan => exact fun h => if_pos h
  case dpos =>
    intro ha h
    rw [VElem.eval_drelu_x, ha, if_neg Bool.false_ne_true, if_pos h]
  case dneg =>
    intro ha h
    rw [VElem.eval_drelu_x, ha, if_neg Bool.false_ne_true, if_neg (Int.not_lt.2 h)]
  case cmpNan =>
    intro h r
    simp +contextual [VElem.eval_cmp_x, relHolds_of_nan h]
  case cmp =>
    intro ha hb
    simp +contextual [VElem.eval_cmp_x, relHolds, ha, hb]
  case invalid =>
    intro op ha
    obtain ⟨f, hf⟩ := VElem.exists_eval_fl rdn [a, b] op
    rw [hf, sigFlags_cons_of_snan ha, or_flInvalid_and_flInvalid]

end Sys2Proof.Machine
end

section
/-! ## Reads of an instruction that meet no error -/
namespace Sys2Proof.Machine

/-- Reads that meet no error only clear the mark of those met by the read before. -/
theorem State.meetErrs_of_none {e : MemErr} (hce : e.ce = []) (hue : e.ue = []) (s : State) (ctx : Option Nat)
    (inRead : Nat → Bool) : s.meetErrs ctx inRead e = { s with memx := { s.memx with newUe := [] } } := by
  unfold meetErrs
  rw [hce, hue]
  rfl

/-- The state of an instruction of a core after the cycles that it is held and reads that meet no error (R118, R145). -/
def State.readClean (t : State) (c : Nat) : State :=
  { t.holdCycles c with memx := { (t.holdCycles c).memx with newUe := [] } }

theorem State.meetErrs_holdCycles {e : MemErr} (hce : e.ce = []) (hue : e.ue = []) (t : State) (c : Nat)
    (ctx : Option Nat) (inRead : Nat → Bool) : (t.holdCycles c).meetErrs ctx inRead e = t.readClean c :=
  meetErrs_of_none hce hue ..

end Sys2Proof.Machine
end

section
/-! ## MMA at issue -/
namespace Sys2Proof.Machine

theorem State.tileErrs_of_corrected {x : TileErr} (h : x.ue = false) (s : State) (o : Op) (c : Nat)
    (f : State → State) : s.tileErrs o c x f = f (s.bump (Reg.CORE_SP_CE_CNT_COUNT c) x.ce) :=
  if_pos (by simp [h])

namespace State
variable {t : State} {o : Op} {c : Nat} {a : MmaArgs} {e : MemErr} {x : TileErr}

/-- The tile identifiers that an MMA works on: four where its tile is exact (R81, R102). -/
def mmaIds (t : State) (c : Nat) (a : MmaArgs) : List Nat :=
  if a.exact || t.inExact c a.tile.toNat then quad a.tile.toNat else [a.tile.toNat]

theorem mma_of_bad
    (hbad : a.operandsOk = false ∨ (a.exact = true ∧ a.acc = true ∧ t.inExact c a.tile.toNat = false)) :
    t.mma o c a e x = t.stopPerm c 10 0 :=
  if_pos (by simpa [and_assoc] using hbad)

section
variable (hok : ¬ (a.operandsOk = false ∨ (a.exact = true ∧ a.acc = true ∧ t.inExact c a.tile.toNat = false)))
include hok

theorem mma_operands_pass : ¬ (!a.operandsOk || (a.exact && a.acc && !t.inExact c a.tile.toNat)) = true := by
  simpa [and_assoc] using hok

theorem mma_of_masked (hmask : inMask o (t.mmaIds c a) = false) : t.mma o c a e x = t.stopPerm c 4 a.tile.toNat := by
  unfold mmaIds at hmask
  simp only [mma, if_neg (mma_operands_pass hok), hmask, Bool.not_false, if_true]

variable (hmask : inMask o (t.mmaIds c a) = true) (hce : e.ce = []) (hue : e.ue = [])
include hmask hce hue

theorem mma_of_poison {b : Nat}
    (hb : (mmaReads a (!t.keepApplies c a)).find? (fun b => (t.readClean c).poisoned (spBase + c * 0x400000 + b)) = some b) :
    t.mma o c a e x = (t.readClean c).ueOp o 1 c (spBase + c * 0x400000 + b) := by
  unfold mmaIds at hmask
  simp only [mma, if_neg (mma_operands_pass hok), hmask, Bool.not_true, Bool.false_eq_true, if_false,
    meetErrs_holdCycles hce hue, hb]

theorem mma_of_clean
    (hclean : ∀ b ∈ mmaReads a (!t.keepApplies c a), (t.readClean c).poisoned (spBase + c * 0x400000 + b) = false) :
    t.mma o c a e x =
      if a.acc then (t.readClean c).tileErrs o c x fun u => u.mmaRun c a o else (t.readClean c).mmaRun c a o := by
  unfold mmaIds at hmask
  have hfind : (mmaReads a (!t.keepApplies c a)).find? (fun b => (t.readClean c).poisoned (spBase + c * 0x400000 + b)) = none :=
    List.find?_eq_none.2 (by simpa using hclean)
  simp only [mma, if_neg (mma_operands_pass hok), hmask, Bool.not_true, Bool.false_eq_true, if_false,
    meetErrs_holdCycles hce hue, hfind]
end
end State

/-- Settles O25: the checks of an MMA in their order, then its reads. -/
theorem mmaRuns : Obligations.MmaRuns := by
  intro core a e x o s hrun hce hue
  have hexec : exec (.mma core a e x) s = .next ((s.stepped core).mma o core a e x) :=
    congrArg Host.Outcome.next (State.seqInstr_running hrun _)
  rw [hexec]
  refine ⟨fun hbad => congrArg _ (State.mma_of_bad hbad), fun hok hmask => congrArg _ (State.mma_of_masked hok hmask),
    fun hok hmask b hb => congrArg _ (State.mma_of_poison hok hmask hce hue hb), fun hok hmask hclean => ?_⟩
  have hread := State.mma_of_clean (x := x) hok hmask hce hue hclean
  constructor
  · intro hacc
    rw [hread, hacc]
    rfl
  · intro hacc hx
    rw [hread, hacc, if_pos rfl, State.tileErrs_of_corrected hx]
    rfl

end Sys2Proof.Machine
end

section
/-! ## The issue of a LAUNCH -/
namespace Sys2Proof.Machine

theorem State.find_overlaps_of_nil {s : State} {o : Op} (h : s.overlaps o = []) (p : Nat × Op → Bool) :
    (s.overlaps o).find? p = none := by
  rw [h, List.find?_nil]

section
variable {r : Fin 256} {o : Op} {s : State} (hready : s.ready r 1 = some o)
include hready

theorem execLaunch_of_conflict {c : Nat} {q : Op}
    (h : ((s.overlaps o).find? fun e => e.2.ring != o.ring) = some (c, q)) :
    execLaunch r s = .next (s.accConflict o c q) := by
  simp only [execLaunch, hready, h]

section
variable (hover : s.overlaps o = [])
include hover

theorem execLaunch_of_held (hfree : (s.launchCores o).all s.coreFree = false) : execLaunch r s = .next s := by
  simp only [execLaunch, hready, State.find_overlaps_of_nil hover, hfree, Bool.not_false, if_true]

variable (hfree : (s.launchCores o).all s.coreFree = true)
include hfree

theorem execLaunch_of_full (hfull : s.dieFull (diesOf (s.launchCores o)) = true) :
    execLaunch r s = .next (s.mark Reg.SUB_EVENT_INFLIGHT_FULL) := by
  simp only [execLaunch, hready, State.find_overlaps_of_nil hover, hfree, hfull, Bool.not_true, Bool.false_eq_true,
    if_false, if_true]

theorem execLaunch_of_room (hroom : s.dieFull (diesOf (s.launchCores o)) = false) :
    execLaunch r s = .next
      (((s.issue o (diesOf (s.launchCores o))).modOp o.ring o.idx fun x =>
        { x with cores := s.launchCores o, coresLeft := s.launchCores o }).each (s.launchCores o) fun t c =>
          t.startCore o c) := by
  simp only [execLaunch, hready, State.find_overlaps_of_nil hover, hfree, hroom, Bool.not_true, Bool.false_eq_true,
    if_false]
end
end

namespace State
variable {s : State}

/-- The state in which a LAUNCH finds its core once its tiles and its scratchpad are those of its owner (R104, R147). -/
def ownedCore (s : State) (o : Op) (c : Nat) : State :=
  let same := s.on (Reg.CORE_ACC_OWNER_VALID c) && s.get (Reg.CORE_ACC_OWNER_CONTEXT c) == o.ctx
    && s.get (Reg.CORE_ACC_OWNER_GENERATION c) == o.gen && !(s.core c).foreign
  let other := (s.core c).foreign || !s.on (Reg.CORE_ACC_OWNER_VALID c) || s.get (Reg.CORE_ACC_OWNER_CONTEXT c) != o.ctx
  (if same then s else s.each (List.range 32) fun t k => t.plainTile c k).when other fun t => t.zeroSp c

theorem ownedCore_canon (h : s.canon = true) (o : Op) (c : Nat) : (s.ownedCore o c).canon = true := by
  have htiles := each_canon h (List.range 32) (fun t k => t.plainTile c k) fun _ _ ht => plainTile_canon ht ..
  have hplain (p : Prop) [Decidable p] := canon_ite (c := p) (fun _ => h) fun _ => htiles
  exact when_canon (hplain _) _ _ fun _ => zeroSp_canon (hplain _) c

/-- The registers of a core at the start of a LAUNCH (R62, R112). -/
def startRegs (s : State) (o : Op) (c : Nat) : State :=
  ((((s.setReg (Reg.CORE_ACW c) 0).setReg (Reg.CORE_ASW c) 0).put (Reg.CORE_ACC_OWNER_CONTEXT c) o.ctx).put
    (Reg.CORE_ACC_OWNER_VALID c) 1).put (Reg.CORE_ACC_OWNER_GENERATION c) o.gen

theorem startRegs_acw (h : s.canon = true) (o : Op) (c : Nat) : (s.startRegs o c).reg (Reg.CORE_ACW c) = 0 := by
  have hne : Reg.CORE_ACW c ≠ Reg.CORE_ACC_OWNER c := coreReg_ne (by decide) c
  have hne' : Reg.CORE_ACW c ≠ Reg.CORE_ASW c := coreReg_ne (by decide) c
  have h1 := setReg_canon h (Reg.CORE_ACW c) 0
  have h2 := setReg_canon h1 (Reg.CORE_ASW c) 0
  unfold startRegs
  rw [reg_put_ne (put_canon (put_canon h2 ..) ..) _ hne, reg_put_ne (put_canon h2 ..) _ hne, reg_put_ne h2 _ hne,
    reg_setReg_ne h1 _ hne', reg_setReg_same h]

theorem startRegs_asw (h : s.canon = true) (o : Op) (c : Nat) : (s.startRegs o c).reg (Reg.CORE_ASW c) = 0 := by
  have hne : Reg.CORE_ASW c ≠ Reg.CORE_ACC_OWNER c := coreReg_ne (by decide) c
  have h1 := setReg_canon h (Reg.CORE_ACW c) 0
  have h2 := setReg_canon h1 (Reg.CORE_ASW c) 0
  unfold startRegs
  rw [reg_put_ne (put_canon (put_canon h2 ..) ..) _ hne, reg_put_ne (put_canon h2 ..) _ hne, reg_put_ne h2 _ hne,
    reg_setReg_same h1]

theorem startRegs_canon (h : s.canon = true) (o : Op) (c : Nat) : (s.startRegs o c).canon = true :=
  put_canon (put_canon (put_canon (setReg_canon (setReg_canon h ..) ..) ..) ..) ..

/-- A LAUNCH starts on a core as the core's own, with its program and its arguments, over the registers and the tiles
and scratchpad that it finds. -/
theorem startCore_eq (s : State) (o : Op) (c : Nat) : ∃ f : Core → Core,
    (∀ k, (f k).launch = some (o.ring, o.idx) ∧ (f k).program = descBytes o.desc 32 8 ∧ (f k).args = descBytes o.desc 40 8)
      ∧ s.startCore o c = ((s.ownedCore o c).startRegs o c).modCore c f := by
  unfold startCore
  exact ⟨_, fun k => ⟨rfl, rfl, rfl⟩, rfl⟩
end State

/-- Settles O32, by the guards of the command and what the start on a core leaves. -/
theorem launchIsIssued : Obligations.LaunchIsIssued := by
  intro r o s hready
  refine ⟨execLaunch_of_room hready, execLaunch_of_held hready, execLaunch_of_full hready,
    fun c q => execLaunch_of_conflict hready, fun t c h => ?_⟩
  have howned := State.ownedCore_canon h o c
  obtain ⟨f, hf, hstart⟩ := State.startCore_eq t o c
  rw [hstart, State.core_modCore_same (State.startRegs_canon howned o c)]
  exact ⟨State.startRegs_acw howned o c, State.startRegs_asw howned o c, hf _⟩

end Sys2Proof.Machine
end

section
/-! ## Bytes of memory and scratchpad -/
namespace Sys2Proof.Machine

theorem checkedBlock_of_sp {a : Nat} (h : spBase ≤ a) : checkedBlock a = none := by
  simp only [spBase] at h
  have hnear : ¬ a < nearEnd := by simp only [nearEnd]; omega
  have hboard : ¬ (0xBFF0000000 ≤ a ∧ a < boardEnd) := by simp only [boardEnd]; omega
  simp [checkedBlock, checkedPage, hnear, hboard]

/-- The pages with check words lie below the scratchpads. -/
theorem checkedPage_lt {a p : Nat} (h : checkedPage a = some p) : p + 65536 ≤ spBase := by
  simp only [checkedPage] at h
  split at h
  · next hnear =>
    obtain ⟨hk, hp⟩ := Option.ite_none_left_eq_some.1 h
    obtain rfl := Option.some.inj hp
    simp only [nearEnd, spBase, Bool.or_eq_true, decide_eq_true_eq] at *
    omega
  · obtain ⟨-, hpage⟩ := Option.ite_none_right_eq_some.1 h
    obtain ⟨hlt, hp⟩ := Option.ite_none_right_eq_some.1 hpage
    obtain rfl := Option.some.inj hp
    simp only [boardBase, spBase] at *
    omega

theorem checkedBlock_lt {a b : Nat} (h : checkedBlock a = some b) : b < spBase := by
  obtain ⟨p, hp, rfl⟩ := Option.map_eq_some_iff.1 h
  have := checkedPage_lt hp
  omega

namespace State
variable {s : State}

theorem setPa_of_sp {a : Nat} (h : spBase ≤ a) (s : State) (v : Byte) : s.setPa a v = s.setByte a v := by
  simp only [setPa, checkedBlock_of_sp h]

theorem byteAt_of_sp {a : Nat} (h : (spBase ≤ a && a < spEnd) = true) :
    s.byteAt a = sget memZero (s.core ((a - spBase) / 0x400000)).sp ((a - spBase) % 0x400000) := if_pos h

theorem byteAt_of_mem {a : Nat} (h : ¬ (spBase ≤ a && a < spEnd) = true) : s.byteAt a = sget memZero s.mem a := if_neg h

theorem setByte_of_sp {a : Nat} (h : (spBase ≤ a && a < spEnd) = true) (v : Byte) :
    s.setByte a v = s.modCore ((a - spBase) / 0x400000) fun c =>
      { c with sp := sset memZero c.sp ((a - spBase) % 0x400000) v } := if_pos h

theorem setByte_of_mem {a : Nat} (h : ¬ (spBase ≤ a && a < spEnd) = true) (v : Byte) :
    s.setByte a v = { s with mem := sset memZero s.mem a v } := if_neg h

/-- A byte stored changes no other byte. -/
theorem byteAt_setByte_ne (h : s.canon = true) {a b : Nat} (hb : b ≠ a) (v : Byte) :
    (s.setByte a v).byteAt b = s.byteAt b := by
  by_cases ha : (spBase ≤ a && a < spEnd) = true
  · rw [setByte_of_sp ha]
    by_cases hsp : (spBase ≤ b && b < spEnd) = true
    · rw [byteAt_of_sp hsp, byteAt_of_sp hsp]
      by_cases hc : (b - spBase) / 0x400000 = (a - spBase) / 0x400000
      · have hoff : (b - spBase) % 0x400000 ≠ (a - spBase) % 0x400000 := by
          simp only [Bool.and_eq_true, decide_eq_true_eq] at ha hsp
          omega
        rw [hc, core_modCore_same h]
        exact sget_sset_ne (canon_sp h _) hoff
      · rw [core_modCore_ne h hc]
    · rw [byteAt_of_mem hsp, byteAt_of_mem hsp, modCore_mem]
  · rw [setByte_of_mem ha]
    by_cases hsp : (spBase ≤ b && b < spEnd) = true
    · rw [byteAt_of_sp hsp, byteAt_of_sp hsp]
      rfl
    · rw [byteAt_of_mem hsp, byteAt_of_mem hsp]
      exact sget_sset_ne (canon_mem h) hb

/-- A byte stored changes of the cores their scratchpads only. -/
theorem core_setByte (h : s.canon = true) (a : Nat) (v : Byte) (c : Nat) :
    { (s.setByte a v).core c with sp := [] } = { s.core c with sp := [] } := by
  by_cases ha : (spBase ≤ a && a < spEnd) = true
  · rw [setByte_of_sp ha]
    by_cases hc : c = (a - spBase) / 0x400000
    · rw [hc, core_modCore_same h]
    · rw [core_modCore_ne h hc]
  · rw [setByte_of_mem ha]
    rfl

/-- Cells stored one after another, without regard to poison. -/
def setBytes (s : State) (w : List Host.Cell) : State := w.foldl (fun t c => t.setByte c.1 c.2) s

theorem setBytes_canon (h : s.canon = true) (w : List Host.Cell) : (s.setBytes w).canon = true :=
  foldl_canon h w _ fun _ _ ht => setByte_canon ht ..

theorem setByte_frame (s : State) (a : Nat) (v : Byte) :
    s.setByte a v = { s with mem := (s.setByte a v).mem, cores := (s.setByte a v).cores } := by
  unfold setByte
  split <;> rfl

theorem setBytes_frame (s : State) (w : List Host.Cell) :
    s.setBytes w = { s with mem := (s.setBytes w).mem, cores := (s.setBytes w).cores } := by
  induction w generalizing s with
  | nil => rfl
  | cons c w ih =>
    change (s.setByte c.1 c.2).setBytes w = { s with
      mem := ((s.setByte c.1 c.2).setBytes w).mem, cores := ((s.setByte c.1 c.2).setBytes w).cores }
    rw [ih, setByte_frame]

theorem byteAt_setBytes_ne (h : s.canon = true) {w : List Host.Cell} {b : Nat} (hb : ∀ c ∈ w, b ≠ c.1) :
    (s.setBytes w).byteAt b = s.byteAt b := by
  induction w generalizing s with
  | nil => rfl
  | cons c w ih =>
    obtain ⟨hc, hw⟩ := List.forall_mem_cons.1 hb
    exact (ih (setByte_canon h ..) hw).trans (byteAt_setByte_ne h hc c.2)

theorem core_setBytes (h : s.canon = true) (w : List Host.Cell) (c : Nat) :
    { (s.setBytes w).core c with sp := [] } = { s.core c with sp := [] } := by
  induction w generalizing s with
  | nil => rfl
  | cons e w ih => exact (ih (setByte_canon h ..)).trans (core_setByte h ..)

/-! ### Cells that meet no poison -/

/-- A store to scratchpad, and to nothing that a block's check word covers, that meets no poisoned unit. -/
structure CleanSp (s : State) (w : List Host.Cell) : Prop where
  sp : ∀ c ∈ w, spBase ≤ c.1
  clean : ∀ c ∈ w, s.poisoned c.1 = false

theorem CleanSp.not_mem_poison {w : List Host.Cell} (h : s.CleanSp w) {g : Nat} (hg : g ∈ s.poison) :
    w.any (fun c => (poisonUnit c.1).1 == g) = false := by
  rw [List.any_eq_false]
  intro c hc heq
  have hclean := h.clean c hc
  rw [poisoned, beq_iff_eq.1 heq, List.contains_iff_mem.2 hg] at hclean
  cases hclean

theorem CleanSp.partialPoison {w : List Host.Cell} (h : s.CleanSp w) : s.partialPoison w = [] := by
  rw [State.partialPoison, List.filter_eq_nil_iff]
  intro g hg
  simp [h.not_mem_poison hg]

theorem CleanSp.coversBlock {w : List Host.Cell} (h : s.CleanSp w) {b : Nat} (hb : b < spBase) :
    coversBlock w b = false := by
  rw [Machine.coversBlock, List.all_eq_false]
  refine ⟨0, List.mem_range.2 (by omega), ?_⟩
  simp only [List.any_eq_true, beq_iff_eq, not_exists, not_and]
  intro c hc
  have := h.sp c hc
  omega

theorem foldl_setPa_of_sp {w : List Host.Cell} (h : ∀ c ∈ w, spBase ≤ c.1) (t : State) :
    w.foldl (fun t c => t.setPa c.1 c.2) t = t.setBytes w :=
  List.foldl_ext _ _ _ fun u c hc => setPa_of_sp (h c hc) u c.2

/-- A store to scratchpad that meets no poison stores all its cells. -/
theorem CleanSp.store {w : List Host.Cell} (h : s.CleanSp w) : s.store w =
    { s.setBytes w with memx := { s.memx with badCheck := s.memx.badCheck.filter fun g => !Machine.coversBlock w g } } := by
  have hmem : (s.setBytes w).mem.filter (fun e => !((checkedBlock e.1).any (Machine.coversBlock w))) = (s.setBytes w).mem := by
    rw [List.filter_eq_self]
    intro e _
    cases hb : checkedBlock e.1 with
    | none => rfl
    | some b => simp [h.coversBlock (checkedBlock_lt hb)]
  have hpoison : s.poison.filter (fun g => !(w.any fun c => (poisonUnit c.1).1 == g)) = s.poison := by
    rw [List.filter_eq_self]
    intro g hg
    rw [h.not_mem_poison hg, Bool.not_false]
  have hframe := setBytes_frame s w
  simp only [State.store, h.partialPoison, List.contains_nil, Bool.false_eq_true, if_false, Bool.false_or,
    foldl_setPa_of_sp h.sp, hmem]
  rw [hframe, hpoison]

end State
end Sys2Proof.Machine
end

section
/-! ## What a vector instruction writes to its scratchpad -/
namespace Sys2Proof

theorem mem_cellsAt {a : Nat} {bs : List Byte} {e : Host.Cell} :
    e ∈ Machine.cellsAt a bs ↔ ∃ k, ∃ h : k < bs.length, e = (a + k, bs[k]) := by
  simp [Machine.cellsAt, List.mem_mapIdx, eq_comm]

theorem cellsAt_cons (a : Nat) (b : Byte) (bs : List Byte) :
    Machine.cellsAt a (b :: bs) = (a, b) :: Machine.cellsAt (a + 1) bs := by
  simp [Machine.cellsAt, Nat.add_assoc, Nat.add_comm 1]

theorem length_leBytes (n v : Nat) : (leBytes n v).length = n := by
  induction n generalizing v with
  | zero => rfl
  | succ n ih => simp [leBytes, ih]

theorem leNat_leBytes (n v : Nat) : leNat (leBytes n v) = v % 256 ^ n := by
  induction n generalizing v with
  | zero => simp [leBytes, leNat, Nat.mod_one]
  | succ n ih =>
    calc leNat (leBytes (n + 1) v) = v % 256 + 256 * (v / 256 % 256 ^ n) := by rw [leBytes, leNat, ih, BitVec.toNat_ofNat]
      _ = v % 256 ^ (n + 1) := by rw [← Nat.mod_mul, ← Nat.pow_succ']

theorem mem_elemBytes {st : Stream} {o : Int} {b : Nat} : b ∈ elemBytes st o ↔
    (∃ k < (st.place o).2.2, b = (st.place o).1.toNat + k) ∨ (st.block = true ∧ b = (st.scaleAt o).toNat) := by
  unfold elemBytes
  cases st.block <;> simp [eq_comm]

theorem length_encodeBlock (f : Fmt) (mxrule sat : Bool) (vs : List (Val × Rm)) :
    (f.encodeBlock mxrule sat vs).2.1.length = vs.length := by
  unfold Fmt.encodeBlock
  dsimp only
  split
  · exact List.length_map _
  · rw [List.length_map, List.length_map]

/-! ### Where the bytes go -/

namespace SpWork

/-- Every byte written lies in a list. -/
def Within (w : SpWork) (B : List Nat) : Prop := ∀ c ∈ w.wrote, c.1 ∈ B

/-- The open output block of the first or of the second output stream. -/
def buf (w : SpWork) (second : Bool) : List (Val × Rm) := if second then w.buf2 else w.buf1

variable {w : SpWork} {B : List Nat} {st : Stream} {o : Int}

theorem Within.byte (h : w.Within B) {a : Nat} (ha : a ∈ B) (b : Byte) : (w.byte a b).Within B :=
  List.forall_mem_cons.2 ⟨ha, h⟩

theorem Within.flag (h : w.Within B) (f : Nat) : (w.flag f).Within B := h

theorem Within.bytes (h : w.Within B) {a : Nat} {bs : List Byte} (ha : ∀ k < bs.length, a + k ∈ B) :
    (w.bytes a bs).Within B := by
  refine List.foldlRecOn (motive := fun t : SpWork => t.Within B) _ _ h fun t ht c hc => ?_
  obtain ⟨k, hk, rfl⟩ := mem_cellsAt.1 hc
  exact ht.byte (ha k hk) _

theorem Within.code (h : w.Within B) (ho : ∀ b ∈ elemBytes st o, b ∈ B) (c : Nat) : (w.code st o c).Within B := by
  refine h.bytes fun k hk => ho _ ?_
  rw [length_leBytes] at hk
  exact mem_elemBytes.2 (.inl ⟨k, hk, rfl⟩)

theorem Within.blockOut (h : w.Within B) (hblock : st.block = true) {vs : List (Val × Rm)} (hvs : vs.length = 32)
    (ho : ∀ k : Nat, k < 32 → ∀ b ∈ elemBytes st (o - 31 + k), b ∈ B) (mxrule sat : Bool) :
    (w.blockOut st o mxrule sat vs).Within B := by
  refine Within.flag (Within.byte ?codes ?scale _) _
  case scale => exact ho 0 (by decide) _ (mem_elemBytes.2 (.inr ⟨hblock, by simp⟩))
  case codes =>
    refine List.foldlRecOn (motive := fun t : SpWork => t.Within B) _ _ h fun t ht q hq => ?_
    obtain ⟨k, hk, rfl⟩ := List.mem_mapIdx.1 hq
    rw [length_encodeBlock, hvs] at hk
    exact ht.code (ho k hk) _

/-! ### The open blocks -/

/-- The open block of an output stream replaced. -/
def setBuf (w : SpWork) (second : Bool) (vs : List (Val × Rm)) : SpWork :=
  if second then { w with buf2 := vs } else { w with buf1 := vs }

/-- A block is written when it is complete. -/
def closeBlock (w : SpWork) (st : Stream) (o : Int) (a : Acw) (vs : List (Val × Rm)) : SpWork :=
  if vs.length = 32 then w.blockOut st o a.mxrule a.sat vs else w

theorem buf_setBuf_same (w : SpWork) (second : Bool) (vs : List (Val × Rm)) : (w.setBuf second vs).buf second = vs := by
  cases second <;> rfl

theorem buf_setBuf_other (w : SpWork) (second : Bool) (vs : List (Val × Rm)) :
    (w.setBuf second vs).buf (!second) = w.buf (!second) := by
  cases second <;> rfl

theorem wrote_setBuf (w : SpWork) (second : Bool) (vs : List (Val × Rm)) : (w.setBuf second vs).wrote = w.wrote := by
  cases second <;> rfl

theorem buf_bytes (w : SpWork) (a : Nat) (bs : List Byte) (second : Bool) : (w.bytes a bs).buf second = w.buf second :=
  List.foldlRecOn (motive := fun t : SpWork => t.buf second = w.buf second) _ _ rfl fun _ ht _ _ => ht

theorem buf_closeBlock (w : SpWork) (st : Stream) (o : Int) (a : Acw) (vs : List (Val × Rm)) (second : Bool) :
    (w.closeBlock st o a vs).buf second = w.buf second := by
  unfold closeBlock
  split
  · exact List.foldlRecOn (motive := fun t : SpWork => t.buf second = w.buf second) _ _ rfl
      fun t ht _ _ => (buf_bytes t _ _ second).trans ht
  · rfl

section
variable (a : Acw) (strict : Bool) (rm : Rm) (r : VRes) (second : Bool)

theorem out_plain (hblock : st.block = false) : w.out st o a strict rm r second =
    (w.code st o (encodeRes st.fmt rm a.sat strict r).1).flag (encodeRes st.fmt rm a.sat strict r).2 :=
  if_neg (by simp [hblock])

/-- A result for a block output joins the open block of its stream. -/
theorem out_block (hblock : st.block = true) : ∃ (v : Val × Rm) (f : Nat), w.out st o a strict rm r second =
    ((w.flag f).closeBlock st o a (w.buf second ++ [v])).setBuf second
      (if (w.buf second ++ [v]).length = 32 then [] else w.buf second ++ [v]) :=
  ⟨_, _, if_pos hblock⟩

theorem buf_out_other (w : SpWork) (st : Stream) (o : Int) :
    (w.out st o a strict rm r second).buf (!second) = w.buf (!second) := by
  cases hblock : st.block with
  | false =>
    rw [out_plain a strict rm r second hblock]
    exact buf_bytes w _ _ _
  | true =>
    obtain ⟨v, f, hout⟩ := out_block (w := w) (o := o) a strict rm r second hblock
    rw [hout, buf_setBuf_other]
    exact buf_closeBlock ..

/-- The open block of an output grows by one element, and is empty again after 32. -/
theorem length_buf_out (hblock : st.block = true) {i : Nat} (hi : (w.buf second).length = i % 32) :
    ((w.out st o a strict rm r second).buf second).length = (i + 1) % 32 := by
  obtain ⟨v, f, hout⟩ := out_block (w := w) (o := o) a strict rm r second hblock
  rw [hout, buf_setBuf_same, List.length_append, List.length_singleton, hi]
  split
  · rw [List.length_nil]
    omega
  · rw [List.length_append, List.length_singleton, hi]
    omega

/-- The result of an element goes to the bytes of the element, or to those of the block that it completes. -/
theorem Within.out (h : w.Within B) (ho : ∀ b ∈ elemBytes st o, b ∈ B)
    (hfull : st.block = true → (w.buf second).length = 31 → ∀ k : Nat, k < 32 → ∀ b ∈ elemBytes st (o - 31 + k), b ∈ B) :
    (w.out st o a strict rm r second).Within B := by
  cases hblock : st.block with
  | false =>
    rw [out_plain a strict rm r second hblock]
    exact (h.code ho _).flag _
  | true =>
    obtain ⟨v, f, hout⟩ := out_block (w := w) (o := o) a strict rm r second hblock
    have hclose : ((w.flag f).closeBlock st o a (w.buf second ++ [v])).Within B := by
      unfold closeBlock
      split
      · next hlen =>
        have hbuf : (w.buf second).length = 31 := by simpa using hlen
        exact (h.flag f).blockOut hblock hlen (hfull hblock hbuf) _ _
      · exact h.flag f
    rw [hout]
    unfold Within
    rwa [wrote_setBuf]
end

end SpWork
end Sys2Proof
end

section
/-! ## The elements of a stream, and the instructions that walk them -/
namespace Sys2Proof

open Machine

theorem cons_mem_coords {n i : Nat} {ns r : List Nat} : i :: r ∈ coords (n :: ns) ↔ r ∈ coords ns ∧ i < n := by
  simp [coords]

/-- What every element of a row leads on to, and the end of a row back to its start, holds after all elements. -/
theorem foldl_coords {α : Type} {P : Nat → α → Prop} {n : Nat} {ns : List Nat} {f : α → List Nat → α}
    (hstep : ∀ r ∈ coords ns, ∀ i < n, ∀ w, P i w → P (i + 1) (f w (i :: r))) (hrow : ∀ w, P n w → P 0 w) {w : α}
    (h : P 0 w) : P 0 ((coords (n :: ns)).foldl f w) := by
  have hrun (r) (hr : r ∈ coords ns) (m : Nat) (hm : m ≤ n) (w) (hw : P 0 w) :
      P m (((List.range m).map fun i => i :: r).foldl f w) := by
    induction m with
    | zero => exact hw
    | succ m ih =>
      rw [List.range_succ, List.map_append, List.foldl_append]
      exact hstep r hr m hm _ (ih (by omega))
  rw [coords, List.foldl_flatMap]
  exact List.foldlRecOn (motive := P 0) _ _ h fun w hw r hr => hrow _ (hrun r hr n le_rfl w hw)

theorem mem_streamBytes {st : Stream} {ix : List Nat} (hix : ix ∈ coords st.counts) {b : Nat}
    (hb : b ∈ elemBytes st (st.offset ix)) : b ∈ streamBytes st := List.mem_flatMap.2 ⟨ix, hix, hb⟩

namespace Stream

/-- A block-scaled stream that passes its checks runs element by element along its rows (R116). -/
theorem t0_of_genOk {st : Stream} (hgen : st.genOk = true) (hblock : st.block = true) : st.t0.toInt = 1 := by
  simp only [genOk, hblock, Bool.not_true, Bool.false_or, Bool.and_eq_true, beq_iff_eq] at hgen
  exact hgen.2.1

/-- An output whose elements come in whole blocks, where it is block-scaled (R116). -/
def RowsOfBlocks (st : Stream) : Prop := st.block = true → st.t0.toInt = 1 ∧ st.n0.toNat % 32 = 0

theorem elemBytes_block {st : Stream} (hst : st.RowsOfBlocks) (hblock : st.block = true) {i : Nat} {r : List Nat}
    (hix : i :: r ∈ coords st.counts) (hi : i % 32 = 31) {k : Nat} (hk : k < 32) {b : Nat}
    (hb : b ∈ elemBytes st (st.offset (i :: r) - 31 + k)) : b ∈ streamBytes st := by
  obtain ⟨ht, hn⟩ := hst hblock
  obtain ⟨hr, hin⟩ := cons_mem_coords.1 hix
  have hn1 : st.n0.toNat ≠ 1 := by omega
  have hoff (j : Nat) : st.offset (j :: r) = j + sumStrides st.counts.tail st.strides.tail r := by
    simp [offset, counts, strides, sumStrides, ht, hn1]
  have hj : st.offset (i :: r) - 31 + k = st.offset ((i - 31 + k) :: r) := by
    rw [hoff, hoff]
    omega
  rw [hj] at hb
  exact mem_streamBytes (cons_mem_coords.2 ⟨hr, by omega⟩) hb

end Stream

namespace SpWork
variable {w : SpWork} {B : List Nat} {st : Stream} {second : Bool} {i : Nat}

/-- An instruction at element `i` of a row has written bytes of a list only, and in its open output block stand the
elements of the row since the last whole block. -/
structure Walks (w : SpWork) (B : List Nat) (st : Stream) (second : Bool) (i : Nat) : Prop where
  within : w.Within B
  openBlock : st.block = true → (w.buf second).length = i % 32

theorem Walks.nextRow (h : w.Walks B st second st.n0.toNat) (hst : st.RowsOfBlocks) : w.Walks B st second 0 := by
  refine ⟨h.within, fun hblock => ?_⟩
  rw [h.openBlock hblock, (hst hblock).2]

variable (a : Acw) (strict : Bool) (rm : Rm) (x : VRes)

theorem Walks.out (h : w.Walks B st second i) (hst : st.RowsOfBlocks) (hB : ∀ b ∈ streamBytes st, b ∈ B) {r : List Nat}
    (hix : i :: r ∈ coords st.counts) : (w.out st (st.offset (i :: r)) a strict rm x second).Walks B st second (i + 1) := by
  refine ⟨h.within.out _ _ _ _ _ (fun b hb => hB b (mem_streamBytes hix hb)) fun hblock hlen k hk b hb => ?_,
    fun hblock => length_buf_out _ _ _ _ _ hblock (h.openBlock hblock)⟩
  exact hB b (st.elemBytes_block hst hblock hix ((h.openBlock hblock).symm.trans hlen) hk hb)

/-- The result of one output stream leaves the open block of the other. -/
theorem Walks.out_other {q : Stream} (h : w.Walks B q (!second) i) {o : Int}
    (hout : (w.out st o a strict rm x second).Within B) : (w.out st o a strict rm x second).Walks B q (!second) i :=
  ⟨hout, fun hblock => (congrArg List.length (buf_out_other ..)).trans (h.openBlock hblock)⟩

theorem walks_start (sp : Sparse Byte) (B : List Nat) (st : Stream) (second : Bool) :
    ({ sp := sp } : SpWork).Walks B st second 0 := by
  refine ⟨by simp [Within], fun _ => ?_⟩
  cases second <;> rfl

/-- An instruction with one output stream writes bytes of the stream. -/
theorem within_foldl_out {d : Stream} (hd : d.RowsOfBlocks) (hB : ∀ b ∈ streamBytes d, b ∈ B)
    {f : SpWork → List Nat → SpWork}
    (hf : ∀ w ix, ∃ a strict rm x, f w ix = w.out d (d.offset ix) a strict rm x false) (sp : Sparse Byte) :
    ((coords d.counts).foldl f { sp := sp }).Within B := by
  refine (foldl_coords (P := fun i (w : SpWork) => w.Walks B d false i) (fun r hr i hi w hw => ?_)
    (fun w hw => hw.nextRow hd) (walks_start sp B d false)).within
  obtain ⟨a, strict, rm, x, hout⟩ := hf w (i :: r)
  rw [hout]
  exact hw.out a strict rm x hd hB (cons_mem_coords.2 ⟨hr, hi⟩)

/-- An instruction with a second output stream of the same counts writes bytes of the two streams. -/
theorem within_foldl_out_out {d q : Stream} (hd : d.RowsOfBlocks) (hq : q.RowsOfBlocks) (hcounts : q.counts = d.counts)
    (hdB : ∀ b ∈ streamBytes d, b ∈ B) (hqB : ∀ b ∈ streamBytes q, b ∈ B) {f : SpWork → List Nat → SpWork}
    (hf : ∀ w ix, ∃ a strict rm x a' strict' rm' x', f w ix =
      (w.out d (d.offset ix) a strict rm x false).out q (q.offset ix) a' strict' rm' x' true) (sp : Sparse Byte) :
    ((coords d.counts).foldl f { sp := sp }).Within B := by
  have hn : q.n0.toNat = d.n0.toNat := (List.cons.inj hcounts).1
  refine (foldl_coords (P := fun i (w : SpWork) => w.Walks B d false i ∧ w.Walks B q true i) (fun r hr i hi w hw => ?_)
    (fun w hw => ⟨hw.1.nextRow hd, (hn ▸ hw.2).nextRow hq⟩) ⟨walks_start sp B d false, walks_start sp B q true⟩).1.within
  obtain ⟨a, strict, rm, x, a', strict', rm', x', hout⟩ := hf w (i :: r)
  have hix : i :: r ∈ coords d.counts := cons_mem_coords.2 ⟨hr, hi⟩
  have hfirst := hw.1.out a strict rm x hd hdB hix
  have hsecond := (hw.2.out_other (second := false) a strict rm x hfirst.within).out a' strict' rm' x' hq hqB (hcounts ▸ hix)
  rw [hout]
  exact ⟨hfirst.out_other (second := true) a' strict' rm' x' hsecond.within, hsecond⟩

end SpWork

namespace Machine

theorem VArgs.reason_eq_none {v : VArgs} (h : v.reason = none) : v.badOperand = false
    ∧ (∀ st ∈ v.ins ++ v.outs, st.genOk = true)
    ∧ ∀ st ∈ v.outs, st.block = true → v.rows = false ∧ st.n0.toNat % 32 = 0 := by
  unfold reason at h
  split at h
  · cases h
  · next hoperand =>
    split at h
    · cases h
    · next hstream =>
      simp only [Bool.or_eq_true, Bool.not_eq_true', not_or, Bool.not_eq_true, Bool.not_eq_false, List.all_eq_true,
        List.any_eq_false, Bool.and_eq_true, not_and, bne_iff_ne, ne_eq, not_not] at hoperand hstream
      exact ⟨hoperand.1, hstream.1.1, hstream.2⟩

/-- A vector instruction that has run as `vector`, with work that writes bytes of its outputs only. -/
def State.VecRun (s t : State) (q : VecCall) : Prop :=
  ∃ (strict : Bool) (f : Op → SpWork → SpWork), t = s.vector q.core q.args q.errs q.cls q.elems strict f
    ∧ (q.args.reason = none → ∀ o sp, (f o { sp := sp }).Within q.outBytes)

theorem State.vecMap_run (s : State) (c : Fin 144) (ins : List Stream) (d : Stream) (mask : Option Stream) (dr : Draw)
    (e : MemErr) (cls : Nat) (bad : Bool) (f : Acw → Nat → Int → List Val → VRes) :
    s.VecRun (s.vecMap c ins d mask dr e cls bad f) (mapCall c ins d e cls bad mask) := by
  unfold State.VecRun State.vecMap
  dsimp only [mapCall]
  refine ⟨_, _, rfl, fun hreason o sp => ?_⟩
  obtain ⟨hbad, hgen, hblocks⟩ := VArgs.reason_eq_none hreason
  have hrows (st) (hst : st ∈ d :: mask.toList) : st.RowsOfBlocks := fun hblock =>
    ⟨st.t0_of_genOk (hgen st (List.mem_append_right _ hst)) hblock, (hblocks st hst hblock).2⟩
  have hbytes (st) (hst : st ∈ d :: mask.toList) : ∀ b ∈ streamBytes st, b ∈ (d :: mask.toList).flatMap streamBytes :=
    fun b hb => List.mem_flatMap.2 ⟨st, hst, hb⟩
  cases mask with
  | none =>
    exact SpWork.within_foldl_out (hrows d (List.mem_cons_self ..)) (hbytes d (List.mem_cons_self ..))
      (fun w ix => ⟨_, _, _, _, rfl⟩) sp
  | some m =>
    have hm : m ∈ d :: (some m).toList := List.mem_cons_of_mem _ (List.mem_cons_self ..)
    have hcounts : m.counts = d.counts := by simpa using (Bool.or_eq_false_iff.1 hbad).2
    exact SpWork.within_foldl_out_out (hrows d (List.mem_cons_self ..)) (hrows m hm) hcounts
      (hbytes d (List.mem_cons_self ..)) (hbytes m hm) (fun w ix => ⟨_, _, _, _, _, _, _, _, rfl⟩) sp

/-- A row reduction whose work of a row writes bytes of the row's elements of its outputs. -/
theorem State.vecRows_run (s : State) (c : Fin 144) (rdims : Byte) (ins outs : List Stream) (a d : Stream) (e : MemErr)
    (cls : Nat) (strict : Bool) (f : Op → List Nat → List (List Val × Int) → SpWork → SpWork)
    (hf : ∀ o ix row w B, w.Within B → (∀ st ∈ outs, st.block = false) →
      (∀ st ∈ outs, ∀ b ∈ elemBytes st (st.offset ix), b ∈ B) → (f o ix row w).Within B) :
    s.VecRun (s.vecRows c rdims.toNat ins outs a d e cls strict f) (rowCall c rdims ins outs a d e cls) := by
  unfold State.VecRun State.vecRows
  dsimp only [rowCall]
  refine ⟨_, _, rfl, fun hreason o sp => ?_⟩
  obtain ⟨hbad, -, hblocks⟩ := VArgs.reason_eq_none hreason
  have hplain (st) (hst : st ∈ outs) : st.block = false :=
    Bool.eq_false_iff.2 fun hblock => Bool.noConfusion (hblocks st hst hblock).1
  have hcounts (st) (hst : st ∈ outs) : st.counts = d.counts := by
    simp only [Bool.or_eq_false_iff, Bool.not_eq_false', List.all_eq_true, Bool.and_eq_true, beq_iff_eq] at hbad
    exact (hbad.2 st hst).2
  refine List.foldlRecOn (motive := fun w : SpWork => w.Within (outs.flatMap streamBytes)) _ _ (by simp [SpWork.Within])
    fun w hw ix hix => ?_
  refine hf _ _ _ _ _ hw hplain fun st hst b hb => List.mem_flatMap.2 ⟨st, hst, mem_streamBytes ?_ hb⟩
  exact (hcounts st hst).symm ▸ hix

/-- The result of a row goes to one element of a plain output. -/
theorem within_row_out {w : SpWork} {B : List Nat} {st : Stream} {o : Int} (h : w.Within B) (hplain : st.block = false)
    (ho : ∀ b ∈ elemBytes st o, b ∈ B) (a : Acw) (strict : Bool) (rm : Rm) (x : VRes) (second : Bool) :
    (w.out st o a strict rm x second).Within B :=
  h.out a strict rm x second ho fun hblock => absurd hplain (by simp [hblock])

theorem State.vecSum_run (s : State) (c : Fin 144) (rdims : Byte) (ins : List Stream) (a d : Stream) (dr : Draw)
    (e : MemErr) (term : List Val → Num × Nat) :
    s.VecRun (s.vecSum c rdims.toNat ins a d dr e term) (rowCall c rdims ins [d] a d e clsRed) := by
  unfold State.vecSum
  refine s.vecRows_run c rdims ins [d] a d e clsRed _ _ fun _ _ _ _ _ hw hplain ho => ?_
  exact within_row_out hw (hplain d (List.mem_cons_self ..)) (ho d (List.mem_cons_self ..)) _ _ _ _ _

theorem State.vecWinner_run (s : State) (c : Fin 144) (rdims : Byte) (isMax : Bool) (ib : Word) (a d d2 : Stream)
    (dr : Draw) (e : MemErr) :
    s.VecRun (s.vecWinner c rdims.toNat isMax ib a d d2 dr e) (rowCall c rdims [a] [d, d2.words] a d e clsRed) := by
  unfold State.vecWinner
  refine s.vecRows_run c rdims [a] [d, d2.words] a d e clsRed _ _ fun _ _ _ _ _ hw hplain ho => ?_
  exact (within_row_out hw (hplain d (List.mem_cons_self ..)) (ho d (List.mem_cons_self ..)) _ _ _ _ _).code
    (ho d2.words (List.mem_cons_of_mem _ (List.mem_cons_self ..))) _

theorem exec_vecRun {i : Instr} {q : VecCall} (hq : vecCall i = some q) (s : State) :
    ∃ t, exec i s = .next t ∧ s.VecRun t q := by
  cases i with
  | add | sub | mul | max | min | dexp | drelu | fma | sel | abs | neg | cvt | div | dsigmoid | dtanh | dgelu
  | dsilu | derf | subexp | sqrt | rcp | rsqrt | exp | exp2 | log | log2 | sigmoid | tanh | erf | gelu | silu | sin
  | cos | rand | drop =>
    obtain rfl := Option.some.inj hq
    exact ⟨_, rfl, s.vecMap_run ..⟩
  | cmp c r a b d dr e =>
    obtain rfl := Option.some.inj hq
    have hr : (VElem.cmp r == .cmp .unknown) = (r == .unknown) := by cases r <;> rfl
    exact ⟨_, rfl, hr ▸ s.vecMap_run ..⟩
  | rsum | rsumsq | rdot =>
    obtain rfl := Option.some.inj hq
    exact ⟨_, rfl, s.vecSum_run ..⟩
  | rmax | rmin =>
    obtain rfl := Option.some.inj hq
    exact ⟨_, rfl, s.vecWinner_run ..⟩
  | sample =>
    obtain rfl := Option.some.inj hq
    refine ⟨_, rfl, s.vecRows_run _ _ _ _ _ _ _ _ _ _ fun _ _ _ _ _ hw _ ho => ?_⟩
    exact (hw.flag _).code (ho _ (List.mem_cons_self ..)) _
  | _ => cases hq

end Machine
end Sys2Proof
end

section
/-! ## The end of a vector instruction that nothing stops -/
namespace Sys2Proof.Machine

theorem reported_le (strict : Bool) : reported strict ≤ 31 := by
  cases strict <;> decide

namespace State
variable {s : State}

/-! ### The registers that it leaves -/

/-- A field keeps its value where its register does. -/
theorem get_congr {t : State} {f : Reg.Fld} (h : t.reg f.reg = s.reg f.reg) : t.get f = s.get f := by
  rw [get, get, h]

theorem get64_put64 (h : s.canon = true) {lo hi : Reg.Fld} {v : Nat} (hlo : lo.lo + lo.w ≤ 32) (hhi : hi.lo + hi.w ≤ 32)
    (hne : lo.reg ≠ hi.reg) (hv : v < 2 ^ (lo.w + hi.w)) : (s.put64 lo hi v).get64 lo hi = v := by
  have hdiv : v / 2 ^ lo.w < 2 ^ hi.w := by
    rw [Nat.div_lt_iff_lt_mul (Nat.two_pow_pos _), ← Nat.pow_add, Nat.add_comm]
    exact hv
  have hput := put_canon h lo v
  rw [get64, put64, get_put_ne hput _ hne, get_put_same h _ hlo, get_put_same hput _ hhi, Nat.mod_eq_of_lt hdiv]
  have := Nat.mod_add_div v (2 ^ lo.w)
  rw [Nat.mul_comm] at this
  exact this

theorem reg_put64_ne (h : s.canon = true) {lo hi : Reg.Fld} {a : Nat} (v : Nat) (hlo : a ≠ lo.reg) (hhi : a ≠ hi.reg) :
    (s.put64 lo hi v).reg a = s.reg a :=
  (reg_put_ne (put_canon h ..) _ hhi).trans (reg_put_ne h _ hlo)

theorem reg_when_bump_ne (h : s.canon = true) {f : Reg.Fld} {a : Nat} (b : Bool) (ha : a ≠ f.reg) :
    (s.when b fun t => t.bump f).reg a = s.reg a := by
  cases b with
  | false => rfl
  | true => exact reg_put_ne h _ ha

theorem reg_bumpFree_ne (h : s.canon = true) {f : Reg.Fld} {a : Nat} (ha : a ≠ f.reg) : (s.bumpFree f).reg a = s.reg a :=
  reg_put_ne (fresh_canon h) _ ha

/-- The registers at the end of an instruction of core `c` with flags `fl` and elements `n` (R63, R132). -/
def vecRegs (s : State) (c fl n cls : Nat) (serial : Bool) : State :=
  let t := s.orAsw c fl
  let total := (t.get64 (Reg.CORE_VX_ELEM_LO_ELEM_LO c) (Reg.CORE_VX_ELEM_HI_ELEM_HI c) + n) % 2 ^ 64
  ((t.put64 (Reg.CORE_VX_ELEM_LO_ELEM_LO c) (Reg.CORE_VX_ELEM_HI_ELEM_HI c) total).put
    (Reg.CORE_VX_STATUS_CLASS c) cls).when serial fun t => t.bump (Reg.CORE_VX_SERIAL_CNT_COUNT c)

section
variable (h : s.canon = true) (c fl n cls : Nat) (serial : Bool)
include h

/-- A register but CLASS's and the count of serial instructions. -/
theorem reg_vecRegs {a : Nat} (hstatus : a ≠ Reg.CORE_VX_STATUS c) (hserial : a ≠ Reg.CORE_VX_SERIAL_CNT c) :
    (s.vecRegs c fl n cls serial).reg a =
      ((s.orAsw c fl).put64 (Reg.CORE_VX_ELEM_LO_ELEM_LO c) (Reg.CORE_VX_ELEM_HI_ELEM_HI c)
        (((s.orAsw c fl).get64 (Reg.CORE_VX_ELEM_LO_ELEM_LO c) (Reg.CORE_VX_ELEM_HI_ELEM_HI c) + n) % 2 ^ 64)).reg a :=
  have hput := put64_canon (orAsw_canon h c fl) ..
  (reg_when_bump_ne (put_canon hput ..) serial hserial).trans (reg_put_ne hput _ hstatus)

theorem reg_vecRegs_ne {a : Nat} (hasw : a ≠ Reg.CORE_ASW c) (hlo : a ≠ Reg.CORE_VX_ELEM_LO c) (hhi : a ≠ Reg.CORE_VX_ELEM_HI c)
    (hstatus : a ≠ Reg.CORE_VX_STATUS c) (hserial : a ≠ Reg.CORE_VX_SERIAL_CNT c) :
    (s.vecRegs c fl n cls serial).reg a = s.reg a := by
  rw [reg_vecRegs h c fl n cls serial hstatus hserial, reg_put64_ne (orAsw_canon h c fl) _ hlo hhi]
  exact reg_setReg_ne h _ hasw

theorem reg_vecRegs_asw : (s.vecRegs c fl n cls serial).reg (Reg.CORE_ASW c) = s.reg (Reg.CORE_ASW c) ||| BitVec.ofNat 32 fl := by
  rw [reg_vecRegs h c fl n cls serial (coreReg_ne (by decide) c) (coreReg_ne (by decide) c),
    reg_put64_ne (orAsw_canon h c fl) _ (coreReg_ne (by decide) c) (coreReg_ne (by decide) c)]
  exact reg_setReg_same h _ _

theorem get_vecRegs_class (hcls : cls < 4) : (s.vecRegs c fl n cls serial).get (Reg.CORE_VX_STATUS_CLASS c) = cls := by
  have hput := put64_canon (orAsw_canon h c fl) (Reg.CORE_VX_ELEM_LO_ELEM_LO c) (Reg.CORE_VX_ELEM_HI_ELEM_HI c)
    (((s.orAsw c fl).get64 (Reg.CORE_VX_ELEM_LO_ELEM_LO c) (Reg.CORE_VX_ELEM_HI_ELEM_HI c) + n) % 2 ^ 64)
  have hreg : Reg.CORE_VX_STATUS c ≠ Reg.CORE_VX_SERIAL_CNT c := coreReg_ne (by decide) c
  have hfld : (Reg.CORE_VX_STATUS_CLASS c).lo + (Reg.CORE_VX_STATUS_CLASS c).w ≤ 32 := show 4 + 2 ≤ 32 by decide
  calc (s.vecRegs c fl n cls serial).get (Reg.CORE_VX_STATUS_CLASS c)
      = cls % 2 ^ 2 := (get_congr (reg_when_bump_ne (put_canon hput ..) serial hreg)).trans (get_put_same hput cls hfld)
    _ = cls := Nat.mod_eq_of_lt hcls

theorem get64_vecRegs : (s.vecRegs c fl n cls serial).get64 (Reg.CORE_VX_ELEM_LO_ELEM_LO c) (Reg.CORE_VX_ELEM_HI_ELEM_HI c)
    = (s.get64 (Reg.CORE_VX_ELEM_LO_ELEM_LO c) (Reg.CORE_VX_ELEM_HI_ELEM_HI c) + n) % 2 ^ 64 := by
  have hlo : (s.vecRegs c fl n cls serial).get (Reg.CORE_VX_ELEM_LO_ELEM_LO c) = _ := get_congr
    (reg_vecRegs h c fl n cls serial (coreReg_ne (by decide) c) (coreReg_ne (by decide) c))
  have hhi : (s.vecRegs c fl n cls serial).get (Reg.CORE_VX_ELEM_HI_ELEM_HI c) = _ := get_congr
    (reg_vecRegs h c fl n cls serial (coreReg_ne (by decide) c) (coreReg_ne (by decide) c))
  have hold : (s.orAsw c fl).get64 (Reg.CORE_VX_ELEM_LO_ELEM_LO c) (Reg.CORE_VX_ELEM_HI_ELEM_HI c) =
      s.get64 (Reg.CORE_VX_ELEM_LO_ELEM_LO c) (Reg.CORE_VX_ELEM_HI_ELEM_HI c) :=
    congrArg₂ (fun x y => x + y * 2 ^ 32) (get_congr (reg_setReg_ne h _ (coreReg_ne (by decide) c)))
      (get_congr (reg_setReg_ne h _ (coreReg_ne (by decide) c)))
  have hsum : (s.get64 (Reg.CORE_VX_ELEM_LO_ELEM_LO c) (Reg.CORE_VX_ELEM_HI_ELEM_HI c) + n) % 2 ^ 64 < 2 ^ (32 + 32) :=
    Nat.mod_lt _ (by decide)
  rw [get64, hlo, hhi, hold]
  exact get64_put64 (orAsw_canon h c fl) (le_refl 32) (le_refl 32) (coreReg_ne (by decide) c) hsum
end

/-! ### Its reads -/

theorem readClean_canon (h : s.canon = true) (c : Nat) : (s.readClean c).canon = true :=
  canon_congr (holdCycles_canon h c) rfl rfl rfl rfl

theorem reg_readClean (h : s.canon = true) {a c : Nat} (hhazard : a ≠ Reg.CORE_VX_HAZARD_CNT c)
    (hstall : a ≠ Reg.CORE_SP_STALL_CNT c) : (s.readClean c).reg a = s.reg a :=
  (reg_bumpFree_ne (bumpFree_canon h _) hstall).trans (reg_bumpFree_ne h hhazard)

theorem stepped_canon (h : s.canon = true) (c : Nat) : (s.stepped c).canon = true := modCore_canon h c _ (canon_sp h c)

theorem core_stepped_sp (h : s.canon = true) (c d : Nat) : ((s.stepped c).core d).sp = (s.core d).sp := by
  by_cases hd : d = c
  · subst hd
    rw [stepped, core_modCore_same h]
  · rw [stepped, core_modCore_ne h hd]

theorem byteAt_stepped (h : s.canon = true) (c a : Nat) : (s.stepped c).byteAt a = s.byteAt a := by
  unfold byteAt
  rw [core_stepped_sp h]
  rfl

theorem byteAt_vecRegs (s : State) (c fl n cls : Nat) (serial : Bool) (a : Nat) :
    (s.vecRegs c fl n cls serial).byteAt a = s.byteAt a := by
  cases serial <;> rfl

theorem core_vecRegs (s : State) (c fl n cls : Nat) (serial : Bool) (d : Nat) :
    (s.vecRegs c fl n cls serial).core d = s.core d := by
  cases serial <;> rfl

theorem vecRegs_frame (s : State) (c fl n cls : Nat) (serial : Bool) :
    s.vecRegs c fl n cls serial = { s with regs := (s.vecRegs c fl n cls serial).regs } := by
  cases serial <;> rfl

/-! ### Its stores -/

/-- The cells that an instruction of core `c` has written, at their PAs. -/
def vecCells (c : Nat) (w : SpWork) : List Host.Cell := w.wrote.reverse.map fun e => (spBase + c * 0x400000 + e.1, e.2)

theorem reg_store {w : List Host.Cell} (h : s.CleanSp w) (a : Nat) : (s.store w).reg a = s.reg a := by
  rw [h.store, setBytes_frame]
  rfl

theorem byteAt_store {w : List Host.Cell} (h : s.CleanSp w) (a : Nat) : (s.store w).byteAt a = (s.setBytes w).byteAt a := by
  rw [h.store]
  rfl

theorem core_store {w : List Host.Cell} (h : s.CleanSp w) (c : Nat) : (s.store w).core c = (s.setBytes w).core c := by
  rw [h.store]
  rfl

theorem store_frame {w : List Host.Cell} (h : s.CleanSp w) :
    s.store w = { s with mem := (s.store w).mem, memx := (s.store w).memx, cores := (s.store w).cores } := by
  rw [h.store, setBytes_frame]

theorem vecEnd_of_clean {c : Nat} {w : SpWork} (h : s.CleanSp (vecCells c w)) (o : Op) (cls elems : Nat) (serial strict : Bool) :
    s.vecEnd c o w cls elems serial strict = (s.store (vecCells c w)).vecRegs c (w.flags &&& reported strict) elems cls serial := by
  have hpart : s.partialPoison (w.wrote.reverse.map fun e => (spBase + c * 0x400000 + e.1, e.2)) = [] := h.partialPoison
  simp only [vecEnd, hpart]
  rfl

/-! ### The whole instruction -/

section
variable {q : VecCall} {o : Op}

/-- A vector instruction that nothing stops reads, works and ends. -/
theorem vector_of_ready (h : s.vecReady q o) (strict : Bool) (f : Op → SpWork → SpWork) :
    s.vector q.core q.args q.errs q.cls q.elems strict f = ((s.stepped q.core).readClean q.core).vecEnd q.core o
      (f o { sp := (((s.stepped q.core).readClean q.core).core q.core).sp }) q.cls q.elems
      (serialMode q.args.ins q.args.outs) strict := by
  obtain ⟨hrun, hreason, hce, hue, hclean⟩ := h
  have hreads : (q.args.ins.flatMap streamBytes).find?
      (fun a => ((s.stepped q.core).readClean q.core).poisoned (spBase + q.core * 0x400000 + a)) = none :=
    List.find?_eq_none.2 fun a ha => by
      rw [Bool.not_eq_true]
      exact hclean a (List.mem_append_left _ ha)
  simp only [vector, seqInstr_running hrun, hreason, meetErrs_holdCycles hce hue, hreads]

/-- The cells of bytes of the outputs of an instruction that nothing stops meet no poison. -/
theorem cleanSp_of_ready (h : s.vecReady q o) {w : SpWork} (hw : w.Within q.outBytes) :
    ((s.stepped q.core).readClean q.core).CleanSp (vecCells q.core w) := by
  have hcell (c) (hc : c ∈ vecCells q.core w) : ∃ b ∈ q.outBytes, c.1 = q.pa b := by
    obtain ⟨e, he, rfl⟩ := List.mem_map.1 hc
    exact ⟨e.1, hw e (List.mem_reverse.1 he), rfl⟩
  constructor
  · intro c hc
    obtain ⟨b, -, hb⟩ := hcell c hc
    rw [hb, VecCall.pa]
    omega
  · intro c hc
    obtain ⟨b, hmem, hb⟩ := hcell c hc
    obtain ⟨-, -, -, -, hclean⟩ := h
    rw [hb]
    exact hclean b (List.mem_append_right _ hmem)

/-- What a vector instruction that nothing stops leaves, for any work that writes bytes of its outputs only. -/
theorem vecDone_of_ready (hs : s.canon = true) (h : s.vecReady q o) (hcls : q.cls < 4) {strict : Bool}
    {f : Op → SpWork → SpWork} (hf : ∀ sp, (f o { sp := sp }).Within q.outBytes) :
    s.vecDone (s.vector q.core q.args q.errs q.cls q.elems strict f) q := by
  rw [vector_of_ready h]
  have hu := readClean_canon (stepped_canon hs q.core) q.core
  have hbyte (a) : ((s.stepped q.core).readClean q.core).byteAt a = s.byteAt a := byteAt_stepped hs q.core a
  have hcore (c) : ((s.stepped q.core).readClean q.core).core c = (s.stepped q.core).core c := rfl
  have hreg (a) (hhazard : a ≠ Reg.CORE_VX_HAZARD_CNT q.core) (hstall : a ≠ Reg.CORE_SP_STALL_CNT q.core) :
      ((s.stepped q.core).readClean q.core).reg a = s.reg a :=
    reg_readClean (stepped_canon hs q.core) hhazard hstall
  have hframe : (s.stepped q.core).readClean q.core = { s with
      regs := ((s.stepped q.core).readClean q.core).regs, memx := ((s.stepped q.core).readClean q.core).memx,
      cores := ((s.stepped q.core).readClean q.core).cores, freeCtr := ((s.stepped q.core).readClean q.core).freeCtr } := rfl
  have hwork := hf (((s.stepped q.core).readClean q.core).core q.core).sp
  have hclean := cleanSp_of_ready h hwork
  generalize f o _ = w at *
  generalize (s.stepped q.core).readClean q.core = u at *
  rw [vecEnd_of_clean hclean]
  have hst := store_canon hu (vecCells q.core w)
  have hget {f : Reg.Fld} (hhazard : f.reg ≠ Reg.CORE_VX_HAZARD_CNT q.core) (hstall : f.reg ≠ Reg.CORE_SP_STALL_CNT q.core) :
      (u.store (vecCells q.core w)).get f = s.get f := get_congr ((reg_store hclean _).trans (hreg _ hhazard hstall))
  refine ⟨?frame, get_vecRegs_class hst _ _ _ _ _ hcls, ?count, ⟨w.flags &&& reported strict, ?asw, ?flags⟩, ?regs, ?bytes,
    ?cores⟩
  case frame => rw [vecRegs_frame, store_frame hclean, hframe]
  case count =>
    rw [get64_vecRegs hst, get64, get64, hget (coreReg_ne (by decide) _) (coreReg_ne (by decide) _),
      hget (coreReg_ne (by decide) _) (coreReg_ne (by decide) _)]
  case asw =>
    rw [reg_vecRegs_asw hst, reg_store hclean, hreg _ (coreReg_ne (by decide) _) (coreReg_ne (by decide) _)]
  case flags => exact Nat.lt_succ_of_le (Nat.and_le_right.trans (reported_le strict))
  case regs =>
    intro a hasw hlo hhi hstatus hserial hhazard hstall
    rw [reg_vecRegs_ne hst _ _ _ _ _ hasw hlo hhi hstatus hserial, reg_store hclean, hreg _ hhazard hstall]
  case bytes =>
    intro a ha
    have hne (c) (hc : c ∈ vecCells q.core w) : a ≠ c.1 := by
      obtain ⟨e, he, rfl⟩ := List.mem_map.1 hc
      exact ha e.1 (hwork e (List.mem_reverse.1 he))
    rw [byteAt_vecRegs, byteAt_store hclean, byteAt_setBytes_ne hu hne, hbyte]
  case cores =>
    intro c
    rw [core_vecRegs, core_store hclean, core_setBytes hu, hcore]
    split
    · next hc => rw [hc]
    · next hc => rw [stepped, core_modCore_ne hs hc]

end
end State

theorem vecCall_cls_lt {i : Instr} {q : VecCall} (h : vecCall i = some q) : q.cls < 4 := by
  cases i with
  | add | sub | mul | max | min | dexp | drelu | fma | sel | abs | neg | cvt | cmp =>
    obtain rfl := Option.some.inj h
    exact show clsElem < 4 by decide
  | div | dsigmoid | dtanh | dgelu | dsilu | derf | subexp | sqrt | rcp | rsqrt | exp | exp2 | log | log2 | sigmoid
  | tanh | erf | gelu | silu | sin | cos =>
    obtain rfl := Option.some.inj h
    exact show clsFn < 4 by decide
  | rsum | rsumsq | rdot | rmax | rmin =>
    obtain rfl := Option.some.inj h
    exact show clsRed < 4 by decide
  | rand | drop | sample =>
    obtain rfl := Option.some.inj h
    exact show clsRand < 4 by decide
  | _ => cases h

/-- Every vector instruction that nothing stops completes. -/
theorem exec_vecDone {i : Instr} {q : VecCall} {o : Op} {s : State} (hs : s.canon = true) (hq : vecCall i = some q)
    (hready : s.vecReady q o) : ∃ t, exec i s = .next t ∧ s.vecDone t q := by
  obtain ⟨t, hexec, strict, f, rfl, hf⟩ := exec_vecRun hq s
  obtain ⟨-, hreason, -⟩ := id hready
  exact ⟨_, hexec, State.vecDone_of_ready hs hready (vecCall_cls_lt hq) (hf hreason o)⟩

/-- Settles O18: the work of each instruction writes bytes of its outputs only, and each instruction that follows by name is
one of the vector instructions. -/
theorem vectorInstructionsComplete : Obligations.VectorInstructionsComplete := by
  refine ⟨fun _ _ _ _ hs => exec_vecDone hs, ?rows, ?elements⟩
  case rows =>
    intro core rdims ib k tau thr a b d d2 m dr e o s hs
    have run {i q} (hready : s.vecReady q o) (hq : vecCall i = some q) := exec_vecDone hs hq hready
    exact ⟨fun h => ⟨run h rfl, run h rfl⟩, fun h => run h rfl, fun h => ⟨run h rfl, run h rfl⟩, fun h => run h rfl,
      fun h => run h rfl, fun h => run h rfl⟩
  case elements =>
    intro core a b x d dr e o s hs
    have run {i q} (hready : s.vecReady q o) (hq : vecCall i = some q) := exec_vecDone hs hq hready
    refine ⟨fun h => ?_, fun h => ?_, fun h => ?_, fun h => ?_, fun h => ⟨run h rfl, run h rfl⟩, fun r hr h => ?_⟩
    · exact ⟨run h rfl, run h rfl, run h rfl, run h rfl, run h rfl, run h rfl, run h rfl⟩
    · exact ⟨run h rfl, run h rfl, run h rfl, run h rfl, run h rfl, run h rfl, run h rfl⟩
    · exact ⟨run h rfl, run h rfl, run h rfl⟩
    · exact ⟨run h rfl, run h rfl, run h rfl, run h rfl, run h rfl, run h rfl, run h rfl, run h rfl, run h rfl,
        run h rfl, run h rfl, run h rfl, run h rfl, run h rfl⟩
    · have hknown : (r == Rel.unknown) = false := beq_eq_false_iff_ne.2 hr
      exact run h (by rw [vecCall, hknown])

end Sys2Proof.Machine
end

section
/-! ## The result of one element -/
namespace Sys2Proof

open Machine

/-! ### The contents of the scratchpad -/

namespace SpWork
variable {w : SpWork}

/-- The contents of an instruction's scratchpad are those that it found, with the cells that it wrote. -/
def Replays (w : SpWork) (sp : Sparse Byte) : Prop := w.sp = w.wrote.foldr (fun c m => sset memZero m c.1 c.2) sp

theorem Replays.byte {sp : Sparse Byte} (h : w.Replays sp) (a : Nat) (b : Byte) : (w.byte a b).Replays sp :=
  congrArg (fun m => sset memZero m a b) h

theorem Replays.bytes {sp : Sparse Byte} (h : w.Replays sp) (a : Nat) (bs : List Byte) : (w.bytes a bs).Replays sp :=
  List.foldlRecOn (motive := fun t : SpWork => t.Replays sp) _ _ h fun _ ht c _ => ht.byte c.1 c.2

theorem flags_bytes (w : SpWork) (a : Nat) (bs : List Byte) : (w.bytes a bs).flags = w.flags :=
  List.foldlRecOn (motive := fun t : SpWork => t.flags = w.flags) _ _ rfl fun _ ht _ _ => ht

theorem swf_sp_byte (h : swf memZero w.sp = true) (a : Nat) (b : Byte) : swf memZero (w.byte a b).sp = true := swf_sset h

theorem bytes_cons (w : SpWork) (a : Nat) (b : Byte) (bs : List Byte) :
    w.bytes a (b :: bs) = (w.byte a b).bytes (a + 1) bs := by
  rw [bytes, cellsAt_cons]
  rfl

theorem sget_sp_bytes_below (h : swf memZero w.sp = true) {a k : Nat} (hk : k < a) (bs : List Byte) :
    sget memZero (w.bytes a bs).sp k = sget memZero w.sp k := by
  induction bs generalizing w a with
  | nil => rfl
  | cons b bs ih =>
    rw [bytes_cons, ih (swf_sp_byte h a b) (by omega)]
    exact sget_sset_ne h (by omega)
end SpWork

theorem spNat_succ (sp : Sparse Byte) (a n : Nat) : spNat sp a (n + 1) = (sget memZero sp a).toNat + 256 * spNat sp (a + 1) n := by
  simp [spNat, List.range_succ_eq_map, leNat, Function.comp_def, Nat.add_assoc, Nat.add_comm 1]

theorem spNat_lt (sp : Sparse Byte) (a n : Nat) : spNat sp a n < 2 ^ (8 * n) := by
  induction n generalizing a with
  | zero => exact Nat.one_pos
  | succ n ih =>
    have hbyte := (sget memZero sp a).isLt
    have hrest := ih (a + 1)
    rw [spNat_succ, Nat.mul_succ, Nat.pow_add]
    omega

/-- Bytes written read back as their number. -/
theorem spNat_bytes {w : SpWork} (h : swf memZero w.sp = true) (a : Nat) (bs : List Byte) :
    spNat (w.bytes a bs).sp a bs.length = leNat bs := by
  induction bs generalizing w a with
  | nil => rfl
  | cons b bs ih =>
    have hb := SpWork.swf_sp_byte h a b
    have hfirst : sget memZero ((w.byte a b).bytes (a + 1) bs).sp a = b :=
      (SpWork.sget_sp_bytes_below hb (Nat.lt_succ_self a) bs).trans (sget_sset_same h)
    rw [SpWork.bytes_cons, List.length_cons, spNat_succ, hfirst, ih hb]
    rfl

/-- The code of an element written stands in its place, the other bits of its bytes as they were (R50). -/
theorem spNat_code {w : SpWork} (h : swf memZero w.sp = true) (st : Stream) (o : Int) (c : Nat) :
    let p := st.place o
    spNat (w.code st o c).sp p.1.toNat p.2.2 = setBits (spNat w.sp p.1.toNat p.2.2) p.2.1 st.fmt.bits c := by
  intro p
  have hfit : p.2.1 + st.fmt.bits ≤ 8 * p.2.2 := by
    change p.2.1 + st.fmt.bits ≤ 8 * ((p.2.1 + st.fmt.bits + 7) / 8)
    omega
  have hlt := setBits_lt (v := c) (spNat_lt w.sp p.1.toNat p.2.2) hfit
  have hbytes := spNat_bytes h p.1.toNat (leBytes p.2.2 (setBits (spNat w.sp p.1.toNat p.2.2) p.2.1 st.fmt.bits c))
  rw [length_leBytes, leNat_leBytes, show 256 = 2 ^ 8 by rfl, ← Nat.pow_mul, Nat.mod_eq_of_lt hlt] at hbytes
  exact hbytes

end Sys2Proof

namespace Sys2Proof.Machine
namespace State
variable {s : State}

theorem core_setByte_sp (h : s.canon = true) {c a : Nat} (hc : c < 144) (ha : a < 0x400000) (v : Byte) :
    ((s.setByte (spBase + c * 0x400000 + a) v).core c).sp = sset memZero (s.core c).sp a v := by
  have hin : (spBase ≤ spBase + c * 0x400000 + a && spBase + c * 0x400000 + a < spEnd) = true := by
    rw [Bool.and_eq_true, decide_eq_true_iff, decide_eq_true_iff]
    unfold spBase spEnd
    omega
  have hcore : (spBase + c * 0x400000 + a - spBase) / 0x400000 = c := by omega
  have hoff : (spBase + c * 0x400000 + a - spBase) % 0x400000 = a := by omega
  rw [setByte_of_sp hin, hcore, hoff, core_modCore_same h]

/-- The scratchpad of a core after an instruction of the core has stored what it wrote. -/
theorem core_setBytes_vecCells (h : s.canon = true) {c : Nat} (hc : c < 144) {w : SpWork}
    (hw : ∀ e ∈ w.wrote, e.1 < 0x400000) (hsp : w.Replays (s.core c).sp) :
    ((s.setBytes (vecCells c w)).core c).sp = w.sp := by
  rw [hsp, vecCells]
  generalize w.wrote = l at hw
  induction l with
  | nil => rfl
  | cons e l ih =>
    obtain ⟨he, hl⟩ := List.forall_mem_cons.1 hw
    rw [List.reverse_cons, List.map_append, setBytes, List.foldl_append, List.foldr_cons, ← ih hl, List.map_singleton,
      List.foldl_cons, List.foldl_nil]
    exact core_setByte_sp (setBytes_canon h _) hc he e.2

end State
end Sys2Proof.Machine

/-! ### One element -/

namespace Sys2Proof

open Machine

theorem coords_ones : coords [1, 1, 1, 1] = [[0, 0, 0, 0]] := by decide

namespace Stream

theorem offset_origin (st : Stream) : st.offset [0, 0, 0, 0] = 0 := by
  simp [offset, counts, strides, sumStrides]

/-- The bytes of the one element of a stream lie in the scratchpad (R116). -/
theorem elemBytes_lt {st : Stream} (hgen : st.genOk = true) (hcounts : st.counts = [1, 1, 1, 1]) (hblock : st.block = false)
    {b : Nat} (hb : b ∈ elemBytes st 0) : b < 0x400000 := by
  have hlow : st.lowest = 0 := by simp [lowest, hcounts, strides]
  have hhigh : st.highest = 0 := by simp [highest, hcounts, strides]
  simp only [genOk, ranges, hlow, hhigh, hblock, Bool.false_eq_true, if_false, List.all_cons, List.all_nil, Bool.and_eq_true,
    decide_eq_true_eq] at hgen
  obtain ⟨⟨-, ⟨hfirst, hlast⟩, -⟩, -⟩ := hgen
  rcases mem_elemBytes.1 hb with ⟨k, hk, rfl⟩ | ⟨hscale, -⟩
  · omega
  · rw [hblock] at hscale
    cases hscale

end Stream

namespace SpWork

/-- What an elementwise instruction of one element has written: a code, with its flags. -/
def single (sp : Sparse Byte) (d : Stream) (r : Nat × Nat) : SpWork := (({ sp := sp } : SpWork).code d 0 r.1).flag r.2

theorem single_flags (sp : Sparse Byte) (d : Stream) (r : Nat × Nat) : (single sp d r).flags = r.2 := by
  rw [single, flag, code, flags_bytes, Nat.zero_or]

theorem single_within (sp : Sparse Byte) (d : Stream) (r : Nat × Nat) : (single sp d r).Within (elemBytes d 0) :=
  have hstart : ({ sp := sp } : SpWork).Within (elemBytes d 0) := by simp [Within]
  (hstart.code (fun _ hb => hb) r.1).flag r.2

theorem single_replays (sp : Sparse Byte) (d : Stream) (r : Nat × Nat) : (single sp d r).Replays sp :=
  have hstart : ({ sp := sp } : SpWork).Replays sp := rfl
  hstart.bytes _ _

end SpWork

namespace Machine
namespace State
variable {s : State}

/-- An instruction whose work is one element writes its code, and its flags join ASW. -/
theorem vector_single (hs : s.canon = true) {q : VecCall} {o : Op} (hready : s.vecReady q o) (hc : q.core < 144) {d : Stream}
    (houts : q.args.outs = [d]) (hblock : d.block = false) (hcounts : d.counts = [1, 1, 1, 1]) {strict : Bool}
    {f : Op → SpWork → SpWork} {r : Nat × Nat} (hf : f o { sp := (s.core q.core).sp } = .single (s.core q.core).sp d r) :
    let t := s.vector q.core q.args q.errs q.cls q.elems strict f
    s.wroteCode t q.core d r.1
      ∧ t.reg (Reg.CORE_ASW q.core) = s.reg (Reg.CORE_ASW q.core) ||| BitVec.ofNat 32 (r.2 &&& reported strict) := by
  have hu := readClean_canon (stepped_canon hs q.core) q.core
  have hsp : (((s.stepped q.core).readClean q.core).core q.core).sp = (s.core q.core).sp := core_stepped_sp hs ..
  have hreg : ((s.stepped q.core).readClean q.core).reg (Reg.CORE_ASW q.core) = s.reg (Reg.CORE_ASW q.core) :=
    reg_readClean (stepped_canon hs q.core) (coreReg_ne (by decide) _) (coreReg_ne (by decide) _)
  obtain ⟨-, hreason, -⟩ := id hready
  obtain ⟨-, hgen, -⟩ := VArgs.reason_eq_none hreason
  have hd : d ∈ q.args.outs := houts ▸ List.mem_cons_self ..
  have helem := SpWork.single_within (s.core q.core).sp d r
  have hreplays := SpWork.single_replays (s.core q.core).sp d r
  have hflags := SpWork.single_flags (s.core q.core).sp d r
  have hcode := spNat_code (w := { sp := (s.core q.core).sp }) (canon_sp hs q.core) d 0 r.1
  change spNat (SpWork.single (s.core q.core).sp d r).sp _ _ = _ at hcode
  generalize SpWork.single (s.core q.core).sp d r = w at *
  have hout : w.Within q.outBytes := fun e he => by
    have horigin : [0, 0, 0, 0] ∈ coords d.counts := by simp [hcounts, coords_ones]
    exact List.mem_flatMap.2 ⟨d, hd, mem_streamBytes horigin (d.offset_origin.symm ▸ helem e he)⟩
  have hbound : ∀ e ∈ w.wrote, e.1 < 0x400000 := fun e he =>
    d.elemBytes_lt (hgen d (List.mem_append_right _ hd)) hcounts hblock (helem e he)
  have hclean := cleanSp_of_ready hready hout
  rw [vector_of_ready hready, hsp, hf, vecEnd_of_clean hclean, hflags]
  generalize (s.stepped q.core).readClean q.core = u at *
  constructor
  · unfold wroteCode
    rw [core_vecRegs, core_store hclean, core_setBytes_vecCells hu hc hbound (hsp ▸ hreplays)]
    exact hcode
  · rw [reg_vecRegs_asw (store_canon hu _), reg_store hclean, hreg]

end State
end Machine
end Sys2Proof

/-! ### The elementwise instructions -/

namespace Sys2Proof.Machine

/-- An elementwise instruction that has run as `vecMap` with the result of its elements, its output plain. -/
def State.ElemRun (s t : State) (q : VecCall) (dr : Draw) (f : Acw → Stream → List Val → VRes) : Prop :=
  ∀ d, q.args.outs = [d] → d.block = false → ∃ (c : Fin 144) (ins : List Stream) (e : MemErr) (cls : Nat) (bad : Bool),
    q = mapCall c ins d e cls bad ∧ (cls == clsRand) = false ∧ t = s.vecMap c ins d none dr e cls bad fun a _ _ vs => f a d vs

namespace State
variable (s : State) (c : Fin 144) (ins : List Stream) (d : Stream) (dr : Draw) (e : MemErr)

theorem vecElem_elemRun {op : VElem} {bad : Bool} (hbad : (op == .cmp .unknown) = bad) :
    s.ElemRun (s.vecElem c op ins d dr e) (mapCall c ins d e clsElem bad) dr fun a _ vs => op.eval (a.rmode == 3) vs := by
  intro d' houts hblock
  obtain rfl : d = d' := (List.cons.inj houts).1
  refine ⟨c, ins, e, clsElem, bad, rfl, rfl, ?_⟩
  simp only [vecElem, hbad, hblock, Bool.not_false, Bool.and_true]

theorem vecFn_elemRun (fn : VFn) :
    s.ElemRun (s.vecFn c fn ins d dr e) (mapCall c ins d e clsFn) dr fun a d vs => fn.result (strictOut a d) vs := by
  intro d' houts _
  obtain rfl : d = d' := (List.cons.inj houts).1
  exact ⟨c, ins, e, clsFn, false, rfl, rfl, rfl⟩

/-- An elementwise instruction of one element. -/
theorem ElemRun.single {s t : State} {q : VecCall} {dr : Draw} {f : Acw → Stream → List Val → VRes} (hrun : s.ElemRun t q dr f)
    (hs : s.canon = true) {o : Op} (hready : s.vecReady q o) {d : Stream} (houts : q.args.outs = [d])
    (hblock : d.block = false) (hcounts : d.counts = [1, 1, 1, 1]) :
    let a := s.acw q.core
    let r := encodeRes d.fmt (elemMode a dr (s.seedOf o) false 0) a.sat (strictOut a d)
      (f a d (q.args.ins.map fun st => st.read (s.core q.core).sp 0))
    s.wroteCode t q.core d r.1
      ∧ t.reg (Reg.CORE_ASW q.core) = s.reg (Reg.CORE_ASW q.core) ||| BitVec.ofNat 32 (r.2 &&& reported (strictOut a d)) := by
  obtain ⟨c, ins, e, cls, bad, rfl, hcls, rfl⟩ := hrun d houts hblock
  unfold vecMap
  refine vector_single hs hready c.isLt rfl hblock hcounts ?_
  simp only [hcounts, coords_ones, List.foldl_cons, List.foldl_nil, Stream.offset_origin, hcls, SpWork.out_plain _ _ _ _ _ hblock]
  rfl

end State

/-- Each elementary instruction, function and derivative runs element by element. -/
theorem exec_elemRun {i : Instr} {q : VecCall} {dr : Draw} {f : Acw → Stream → List Val → VRes} (hq : vecCall i = some q)
    (hf : elemResult i = some (dr, f)) (s : State) : ∃ t, exec i s = .next t ∧ s.ElemRun t q dr f := by
  cases i with
  | add | sub | mul | max | min | dexp | drelu | fma | sel | abs | neg | cvt =>
    obtain rfl := Option.some.inj hq
    obtain ⟨rfl, rfl⟩ := Prod.mk.inj (Option.some.inj hf)
    exact ⟨_, rfl, s.vecElem_elemRun _ _ _ _ _ rfl⟩
  | cmp c r =>
    obtain rfl := Option.some.inj hq
    obtain ⟨rfl, rfl⟩ := Prod.mk.inj (Option.some.inj hf)
    have hr : (VElem.cmp r == .cmp .unknown) = (r == .unknown) := by cases r <;> rfl
    exact ⟨_, rfl, s.vecElem_elemRun _ _ _ _ _ hr⟩
  | div | dsigmoid | dtanh | dgelu | dsilu | derf | sqrt | rcp | rsqrt | exp | exp2 | log | log2 | sigmoid | tanh | erf
  | gelu | silu | sin | cos =>
    obtain rfl := Option.some.inj hq
    obtain ⟨rfl, rfl⟩ := Prod.mk.inj (Option.some.inj hf)
    exact ⟨_, rfl, s.vecFn_elemRun _ _ _ _ _ _⟩
  | subexp c a b d dr e =>
    obtain rfl := Option.some.inj hq
    obtain ⟨rfl, rfl⟩ := Prod.mk.inj (Option.some.inj hf)
    refine ⟨_, rfl, fun d' houts _ => ?_⟩
    obtain rfl : d = d' := (List.cons.inj houts).1
    exact ⟨c, [a, b], e, clsFn, false, rfl, rfl, rfl⟩
  | _ => cases hf

/-- Settles O22: an instruction of one element is one code written to its place. -/
theorem elementWritesItsResult : Obligations.ElementWritesItsResult := by
  intro i q dr f d o s hs hq hf hready houts hblock hcounts
  obtain ⟨t, hexec, hrun⟩ := exec_elemRun hq hf s
  exact ⟨t, hexec, hrun.single hs hready houts hblock hcounts⟩

end Sys2Proof.Machine
end

section
/-! ## The accumulator memory of the cores -/
namespace Sys2Proof.Machine

/-- The accumulator memory of a core (R100, R101): its tiles, its exact tiles and the marks of both. -/
def Core.accMem (k : Core) : Sparse (Sparse Nat) × Sparse ExactTile × Sparse Nat := (k.tiles, k.exact, k.marks)

namespace State
variable {s : State}

theorem accMem_modCore (h : s.canon = true) (c d : Nat) {f : Core → Core} (hf : ∀ k, (f k).accMem = k.accMem) :
    ((s.modCore c f).core d).accMem = (s.core d).accMem := by
  by_cases hd : d = c
  · rw [hd, core_modCore_same h, hf]
  · rw [core_modCore_ne h hd]

theorem accMem_setByte (h : s.canon = true) (a : Nat) (v : Byte) (d : Nat) :
    ((s.setByte a v).core d).accMem = (s.core d).accMem :=
  (congrArg Core.accMem (core_setByte h a v d) :)

/-- What every byte stored keeps, a store keeps until it settles poison and check words. -/
theorem foldl_setPa_ind {P : State → Prop} (hset : ∀ t a v, P t → P (t.setByte a v)) (p : Host.Cell → Bool)
    (w : List Host.Cell) (h : P s) : P (w.foldl (fun t c => if p c then t else t.setPa c.1 c.2) s) := by
  refine List.foldlRecOn w _ h fun t ht c _ => ?_
  split
  · exact ht
  · unfold setPa
    split
    · exact hset _ _ _ ht
    · exact hset _ _ _ ht

theorem accMem_store (h : s.canon = true) (w : List Host.Cell) (d : Nat) :
    ((s.store w).core d).accMem = (s.core d).accMem := by
  have hkeeps (t : State) (a : Nat) (v : Byte) (ht : t.canon = true ∧ (t.core d).accMem = (s.core d).accMem) :
      (t.setByte a v).canon = true ∧ ((t.setByte a v).core d).accMem = (s.core d).accMem :=
    ⟨setByte_canon ht.1 a v, (accMem_setByte ht.1 a v d).trans ht.2⟩
  obtain ⟨-, hmem⟩ := foldl_setPa_ind hkeeps (fun c => (s.partialPoison w).contains (poisonUnit c.1).1) w ⟨h, rfl⟩
  exact hmem

theorem regs_store (s : State) (w : List Host.Cell) : (s.store w).regs = s.regs := by
  have hkeeps (t : State) (a : Nat) (v : Byte) (ht : t.regs = s.regs) : (t.setByte a v).regs = s.regs := by
    rw [setByte_frame, ← ht]
  exact foldl_setPa_ind hkeeps (fun c => (s.partialPoison w).contains (poisonUnit c.1).1) w rfl

/-! ### Tile sequences (R345–R347) -/

/-- A tile sequence is open no more. -/
def closeSeq (s : State) (p tile : Nat) : State :=
  s.modCore p fun k => { k with openSeqs := k.openSeqs.filter fun x => x.tile != tile }

/-- The ways in which a tile sequence ends: none is open; it is not sampled; or it is, and the queue of its die has no room
for it or takes it. -/
theorem endSeq_cases (s : State) (p tile : Nat) :
    s.endSeq p tile = s ∨ s.endSeq p tile = s.closeSeq p tile
      ∨ (∃ q ∈ (s.core p).openSeqs, q.tile = tile ∧ q.sampled = true)
        ∧ (s.endSeq p tile = ((s.closeSeq p tile).bump Reg.INT_DUP_SKIP_CNT_COUNT).mark Reg.INT_EVENT_DUP_SKIP
          ∨ ∃ f d n, s.endSeq p tile = ((s.closeSeq p tile).modInt f).teeOut d n) := by
  unfold endSeq
  split
  · exact .inl rfl
  · next q hq =>
    have htile : q.tile = tile := by simpa using List.find?_some hq
    cases hsampled : q.sampled with
    | false => exact .inr (.inl rfl)
    | true =>
      refine .inr (.inr ⟨⟨q, List.mem_of_find?_eq_some hq, htile, hsampled⟩, ?_⟩)
      simp only [Bool.not_true, Bool.false_eq_true, if_false]
      split
      · exact .inl rfl
      · exact .inr ⟨_, _, _, rfl⟩

theorem closeSeq_canon (h : s.canon = true) (p tile : Nat) : (s.closeSeq p tile).canon = true := modCore_keeps h

theorem accMem_endSeq (h : s.canon = true) (p tile d : Nat) :
    ((s.endSeq p tile).core d).accMem = (s.core d).accMem := by
  have hclose : ((s.closeSeq p tile).core d).accMem = (s.core d).accMem := accMem_modCore h p d fun _ => rfl
  rcases endSeq_cases s p tile with heq | heq | ⟨-, heq | ⟨f, die, n, heq⟩⟩
  · rw [heq]
  · rw [heq, hclose]
  · rw [heq]
    exact hclose
  · rw [heq]
    exact (accMem_store (fresh_canon (fresh_canon (modInt_canon (closeSeq_canon h p tile) f))) _ d).trans hclose

end State
end Sys2Proof.Machine
end

section
/-! ## ARD -/
namespace Sys2Proof.Machine

namespace State
variable {t : State} {o : Op} {c : Nat} {a : ArdArgs} {x : TileErr}

/-- The tile that holds the marks of the one that an ARD names: the head of an exact tile (R81, R102). -/
def ardHead (t : State) (c : Nat) (a : ArdArgs) : Nat :=
  if t.inExact c a.tile.toNat then a.tile.toNat / 4 * 4 else a.tile.toNat

/-- The tile identifiers that an ARD reads: four where its tile is exact (R81, R109). -/
def ardIds (t : State) (c : Nat) (a : ArdArgs) : List Nat :=
  if t.inExact c a.tile.toNat then quad (t.ardHead c a) else [t.ardHead c a]

theorem ard_of_bad (hbad : a.operandsOk = false) : t.ard o c a x = t.stopPerm c 10 0 :=
  if_pos (by simp [hbad])

section
variable (hok : a.operandsOk = true)
include hok

theorem ard_of_masked (hmask : inMask o (t.ardIds c a) = false) : t.ard o c a x = t.stopPerm c 4 a.tile.toNat := by
  unfold ardIds ardHead at hmask
  simp only [ard, hok, hmask, Bool.not_true, Bool.false_eq_true, if_false, Bool.not_false, if_true]

theorem ard_of_read (hmask : inMask o (t.ardIds c a) = true) (hue : x.ue = false) :
    t.ard o c a x = ((t.holdCycles c).bump (Reg.CORE_SP_CE_CNT_COUNT c) x.ce).ardRun o c a
      (t.inExact c a.tile.toNat) (t.ardHead c a) := by
  unfold ardIds ardHead at hmask
  simp only [ard, hok, hmask, Bool.not_true, Bool.false_eq_true, if_false, tileErrs_of_corrected hue]
  rfl
end

/-- Without poison a readout stores what it wrote and its flags, and without reduction ends its tile sequence (R345). -/
theorem ardRun_of_unpoisoned (hpoison : t.poison = []) (o : Op) (c : Nat) (a : ArdArgs) (inEx : Bool) (head : Nat) :
    ∃ cells fl, t.ardRun o c a inEx head =
      if a.red = .none then ((t.store cells).orAsw c fl).endSeq c head else (t.store cells).orAsw c fl := by
  have hpart (cells : List Host.Cell) : t.partialPoison cells = [] := by rw [partialPoison, hpoison, List.filter_nil]
  simp only [ardRun, hpart]
  exact ⟨_, _, rfl⟩

/-- A readout keeps the accumulator memory (R105, R106, R108). -/
theorem accMem_ardRun (h : t.canon = true) (hpoison : t.poison = []) (o : Op) (c : Nat) (a : ArdArgs) (inEx : Bool)
    (head d : Nat) : ((t.ardRun o c a inEx head).core d).accMem = (t.core d).accMem := by
  obtain ⟨cells, fl, hrun⟩ := ardRun_of_unpoisoned hpoison o c a inEx head
  have hstore : (((t.store cells).orAsw c fl).core d).accMem = (t.core d).accMem := accMem_store h cells d
  rw [hrun]
  split
  · exact (accMem_endSeq (orAsw_canon (store_canon h cells) c fl) c head d).trans hstore
  · exact hstore

end State

/-- Settles O27: the checks of an ARD in their order, and what its stores and the end of its tile sequence keep. -/
theorem ardReadsOut : Obligations.ArdReadsOut := by
  intro core a x o s hrun
  have hexec : exec (.ard core a x) s = .next ((s.stepped core).ard o core a x) :=
    congrArg Host.Outcome.next (State.seqInstr_running hrun _)
  rw [hexec]
  refine ⟨fun hbad => congrArg _ (State.ard_of_bad hbad), fun hok hmask => congrArg _ (State.ard_of_masked hok hmask),
    fun hok hmask hue => congrArg _ (State.ard_of_read hok hmask hue), fun u b h hu hpoison => ?_⟩
  obtain ⟨htiles, hrest⟩ := Prod.mk.inj (State.accMem_ardRun hu hpoison o core a b h core)
  obtain ⟨hexact, hmarks⟩ := Prod.mk.inj hrest
  exact ⟨htiles, hexact, hmarks⟩

end Sys2Proof.Machine
end

section
/-! ## The tile sequences of an opening MMA -/
namespace Sys2Proof.Machine
namespace State
variable {s : State}

/-! ### What a tile sequence keeps at its end, its beginning and each MMA -/

/-- The end of a tile sequence keeps every register of the cores: the counters and events of INT lie below them. -/
theorem reg_endSeq (h : s.canon = true) {a : Nat} (ha : 0x1000000 ≤ a) (p tile : Nat) :
    (s.endSeq p tile).reg a = s.reg a := by
  have hskip : a ≠ Reg.INT_DUP_SKIP_CNT := by unfold Reg.INT_DUP_SKIP_CNT; omega
  have hevent : a ≠ Reg.INT_EVENT := by unfold Reg.INT_EVENT; omega
  have hclose := closeSeq_canon h p tile
  rcases endSeq_cases s p tile with heq | heq | ⟨-, heq | ⟨f, die, n, heq⟩⟩
  · rw [heq]
  · rw [heq]
    rfl
  · rw [heq]
    exact (reg_put_ne (bump_canon hclose _ _) _ hevent).trans (reg_put_ne hclose _ hskip)
  · rw [heq, reg, teeOut, regs_store]
    rfl

theorem byteAt_modCore (h : s.canon = true) (c a : Nat) {f : Core → Core} (hf : (f (s.core c)).sp = (s.core c).sp) :
    (s.modCore c f).byteAt a = s.byteAt a := by
  have hsp (d : Nat) : ((s.modCore c f).core d).sp = (s.core d).sp := by
    by_cases hd : d = c
    · rw [hd, core_modCore_same h, hf]
    · rw [core_modCore_ne h hd]
  unfold byteAt
  rw [hsp]
  rfl

/-- The end of sequences that are not sampled changes no byte. -/
theorem byteAt_endSeq (h : s.canon = true) {p tile : Nat}
    (hplain : ∀ q ∈ (s.core p).openSeqs, q.tile = tile → q.sampled = false) (a : Nat) :
    (s.endSeq p tile).byteAt a = s.byteAt a := by
  rcases endSeq_cases s p tile with heq | heq | ⟨⟨q, hq, htile, hsampled⟩, -⟩
  · rw [heq]
  · rw [heq]
    exact byteAt_modCore h p a rfl
  · rw [hplain q hq htile] at hsampled
    cases hsampled

/-- A tile sequence that begins joins those of its core, and where it is sampled the counter (R345, R346). -/
theorem beginSeq_cases (s : State) (p tile : Nat) (o : Op) :
    s.beginSeq p tile o = s ∨ ∃ f : Core → Core, (∀ k, (f k).sp = k.sp ∧ (f k).accMem = k.accMem)
      ∧ (s.beginSeq p tile o = s.modCore p f ∨ ∃ v, s.beginSeq p tile o =
        (s.modCore p f).put64 Reg.INT_DUP_SAMPLED_LO_COUNT_LO Reg.INT_DUP_SAMPLED_HI_COUNT_HI v) := by
  unfold beginSeq
  dsimp only
  split
  · exact .inl rfl
  · split
    · refine .inr ⟨_, ?_, .inr ⟨_, rfl⟩⟩
      exact fun _ => ⟨rfl, rfl⟩
    · refine .inr ⟨_, ?_, .inl rfl⟩
      exact fun _ => ⟨rfl, rfl⟩

theorem reg_beginSeq (h : s.canon = true) {a : Nat} (ha : 0x1000000 ≤ a) (p tile : Nat) (o : Op) :
    (s.beginSeq p tile o).reg a = s.reg a := by
  have hlo : a ≠ Reg.INT_DUP_SAMPLED_LO := by unfold Reg.INT_DUP_SAMPLED_LO; omega
  have hhi : a ≠ Reg.INT_DUP_SAMPLED_HI := by unfold Reg.INT_DUP_SAMPLED_HI; omega
  rcases beginSeq_cases s p tile o with heq | ⟨f, hf, heq | ⟨v, heq⟩⟩
  · rw [heq]
  · rw [heq]
    rfl
  · rw [heq]
    exact reg_put64_ne (modCore_keeps h fun k => (hf k).1) v hlo hhi

theorem accMem_beginSeq (h : s.canon = true) (p tile d : Nat) (o : Op) :
    ((s.beginSeq p tile o).core d).accMem = (s.core d).accMem := by
  rcases beginSeq_cases s p tile o with heq | ⟨f, hf, heq | ⟨v, heq⟩⟩
  · rw [heq]
  · rw [heq]
    exact accMem_modCore h p d fun k => (hf k).2
  · rw [heq]
    exact accMem_modCore h p d fun k => (hf k).2

theorem byteAt_beginSeq (h : s.canon = true) (p tile a : Nat) (o : Op) :
    (s.beginSeq p tile o).byteAt a = s.byteAt a := by
  rcases beginSeq_cases s p tile o with heq | ⟨f, hf, heq | ⟨v, heq⟩⟩
  · rw [heq]
  · rw [heq]
    exact byteAt_modCore h p a (hf _).1
  · rw [heq]
    exact byteAt_modCore h p a (hf _).1

/-! ### What an opening MMA makes of them -/

section
variable {x : MmaArgs} (hexact : x.exact = false) (hacc : x.acc = false) {c : Nat} (hplain : s.inExact c x.tile.toNat = false)
include hexact hacc hplain

/-- An opening MMA on a plain tile ends the sequence of the tile, begins one and joins it (R345, R347). -/
theorem mmaSeqs_opening (o : Op) : ∃ job n, s.mmaSeqs c x o =
    ((s.endSeq c x.tile.toNat).beginSeq c x.tile.toNat o).teeSeq c [x.tile.toNat] job n := by
  simp only [mmaSeqs, MmaArgs.head, hexact, hacc, hplain, Bool.false_eq_true, if_false, Bool.not_false, Bool.and_false,
    Bool.or_false, List.foldl_cons, List.foldl_nil]
  exact ⟨_, _, rfl⟩

variable (h : s.canon = true) (o : Op)
include h

theorem reg_mmaSeqs_opening {a : Nat} (ha : 0x1000000 ≤ a) : (s.mmaSeqs c x o).reg a = s.reg a := by
  obtain ⟨job, n, heq⟩ := mmaSeqs_opening hexact hacc hplain o
  rw [heq]
  exact (reg_beginSeq (endSeq_canon h ..) ha ..).trans (reg_endSeq h ha ..)

theorem accMem_mmaSeqs_opening (d : Nat) : ((s.mmaSeqs c x o).core d).accMem = (s.core d).accMem := by
  obtain ⟨job, n, heq⟩ := mmaSeqs_opening hexact hacc hplain o
  have hend := endSeq_canon h c x.tile.toNat
  calc ((s.mmaSeqs c x o).core d).accMem
      = (((s.endSeq c x.tile.toNat).beginSeq c x.tile.toNat o).core d).accMem := by
        rw [heq]
        exact accMem_modCore (beginSeq_canon hend ..) c d fun _ => rfl
    _ = ((s.endSeq c x.tile.toNat).core d).accMem := accMem_beginSeq hend ..
    _ = (s.core d).accMem := accMem_endSeq h ..

theorem byteAt_mmaSeqs_opening (hunsampled : ∀ q ∈ (s.core c).openSeqs, q.tile = x.tile.toNat → q.sampled = false) (a : Nat) :
    (s.mmaSeqs c x o).byteAt a = s.byteAt a := by
  obtain ⟨job, n, heq⟩ := mmaSeqs_opening hexact hacc hplain o
  have hend := endSeq_canon h c x.tile.toNat
  calc (s.mmaSeqs c x o).byteAt a
      = ((s.endSeq c x.tile.toNat).beginSeq c x.tile.toNat o).byteAt a := by
        rw [heq]
        exact byteAt_modCore (beginSeq_canon hend ..) c a rfl
    _ = (s.endSeq c x.tile.toNat).byteAt a := byteAt_beginSeq hend ..
    _ = s.byteAt a := byteAt_endSeq h hunsampled a
end

end State
end Sys2Proof.Machine
end

section
/-! ## The result of an opening MMA in fast mode -/
namespace Sys2Proof.Machine

/-! ### The elements -/

/-- Where the elements of an M × N region sit in a tile (R100). -/
def regionKeys (m n : Nat) : List Nat := (region m n).map fun q => 128 * q.1 + q.2

theorem mem_regionKeys {m n i j : Nat} (hn : n ≤ 128) (hj : j < 128) : 128 * i + j ∈ regionKeys m n ↔ i < m ∧ j < n := by
  simp only [regionKeys, region, List.mem_map, List.mem_flatMap, List.mem_range, Prod.exists]
  constructor
  · rintro ⟨i', j', ⟨_, hi, _, hj', heq⟩, hkey⟩
    obtain ⟨rfl, rfl⟩ := Prod.mk.inj heq
    omega
  · rintro ⟨hi, hjn⟩
    exact ⟨i, j, ⟨i, hi, j, hjn, rfl⟩, rfl⟩

section
variable {x : MmaArgs} (hacc : x.acc = false)
include hacc

/-- An opening MMA writes each element of its region to its place, summed from −0 (R88). -/
theorem accumulate_data (hn : x.n.toNat ≤ 128) (g : TileImg) (elem : Nat → Nat → Num → Num × Nat) :
    (g.accumulate x elem).data = (regionKeys x.m.toNat x.n.toNat).foldl
      (fun d k => sset (fun _ => 0) d k (code32 (elem (k / 128) (k % 128) (.zero true)).1)) g.data := by
  have hstep : (g.accumulate x elem).data = (region x.m.toNat x.n.toNat).foldl
      (fun d q => sset (fun _ => 0) d (128 * q.1 + q.2) (code32 (elem q.1 q.2 (.zero true)).1)) g.data := by
    refine (List.foldl_hom TileImg.data fun g q => ?_).symm
    rw [hacc]
    rfl
  rw [hstep, regionKeys, List.foldl_map]
  refine List.foldl_ext _ _ _ fun d q hq => ?_
  obtain ⟨i, -, hq⟩ := List.mem_flatMap.1 hq
  obtain ⟨j, hj, rfl⟩ := List.mem_map.1 hq
  have hlt := List.mem_range.1 hj
  have hrow : (128 * i + j) / 128 = i := by omega
  have hcol : (128 * i + j) % 128 = j := by omega
  rw [hrow, hcol]

theorem sget_accumulate (hn : x.n.toNat ≤ 128) {g : TileImg} (hg : swf (fun _ => 0) g.data = true)
    (elem : Nat → Nat → Num → Num × Nat) {i j : Nat} (hj : j < 128) :
    sget (fun _ => 0) (g.accumulate x elem).data (128 * i + j) =
      if i < x.m.toNat ∧ j < x.n.toNat then code32 (elem i j (.zero true)).1 else sget (fun _ => 0) g.data (128 * i + j) := by
  have hrow : (128 * i + j) / 128 = i := by omega
  have hcol : (128 * i + j) % 128 = j := by omega
  rw [accumulate_data hacc hn, sget_foldl_sset _ _ hg, hrow, hcol]
  simp only [mem_regionKeys hn hj]
end

/-- Only the weights that KEEP names matter (R83). -/
theorem weightsOf_kept (x : MmaArgs) (sp : List Host.Cell) (w : Option WeightTile) :
    weightsOf x sp (if x.keep then w else none) = weightsOf x sp w := by
  cases hkeep : x.keep with
  | true => rfl
  | false => simp [weightsOf, keeps, hkeep]

namespace MmaJob
variable {m : MmaJob}

/-- Outside strict mode every class accumulates in order (R74, R87). -/
theorem elem_of_fast (hstrict : m.strict = false) (i j : Nat) (start : Num) : m.elem i j start = m.ordered i j start := by
  simp [elem, hstrict]

theorem run_opening (hexact : m.args.exact = false) (hacc : m.args.acc = false) (g : TileImg) :
    m.run g = (TileImg.accumulate { (if g.state = 0 then g else {}) with mark := 0 } m.args m.elem, none) := by
  simp [run, hexact, hacc]

end MmaJob

/-! ### The registers -/

theorem core_le_accState (c t : Nat) : 0x1000000 ≤ (accState c t).reg := by
  unfold accState Reg.CORE_ACC_STATE_LO Reg.CORE_ACC_STATE_HI
  dsimp only
  split <;> omega

theorem ne_accState {a c : Nat} (hlo : a ≠ Reg.CORE_ACC_STATE_LO c) (hhi : a ≠ Reg.CORE_ACC_STATE_HI c) (t : Nat) :
    a ≠ (accState c t).reg := by
  unfold accState
  dsimp only
  split
  · exact hlo
  · exact hhi

theorem productClass_lt (a b : Fmt) : productClass a b < 4 := by
  have hclass : a.widthClass < 4 := by cases a <;> decide
  exact lt_of_le_of_lt (min_le_left _ _) hclass

namespace State
variable {s : State}

section
variable (h : s.canon = true) (c t passes : Nat) (x : MmaArgs)
include h

theorem get_mmaStatus_class : (s.mmaStatus c t passes x).get (Reg.CORE_MX_STATUS_CLASS c) = x.cls := by
  have htile := put_canon (put64_canon h (Reg.CORE_MX_PASS_LO_PASSES_LO c) (Reg.CORE_MX_PASS_HI_PASSES_HI c)
    ((s.get64 (Reg.CORE_MX_PASS_LO_PASSES_LO c) (Reg.CORE_MX_PASS_HI_PASSES_HI c) + passes) % 2 ^ 64))
    (Reg.CORE_MX_STATUS_TILE c) t
  rw [mmaStatus, get_put_above (f := Reg.CORE_MX_STATUS_TRANS c) (g := Reg.CORE_MX_STATUS_CLASS c) (put_canon htile ..) _
    (show 3 + 1 ≤ 32 by decide) rfl (show 3 + 1 ≤ 9 by decide), get_put_same htile _ (show 9 + 2 ≤ 32 by decide)]
  exact Nat.mod_eq_of_lt (productClass_lt x.aFmt x.bFmt)

theorem get_mmaStatus_trans : (s.mmaStatus c t passes x).get (Reg.CORE_MX_STATUS_TRANS c) = b2n x.trans := by
  rw [mmaStatus, get_put_same (put_canon (put_canon (put64_canon h ..) ..) ..) _ (show 3 + 1 ≤ 32 by decide)]
  cases x.trans <;> rfl

/-- CORE_MX_STATUS apart, only the passes change. -/
theorem get_mmaStatus_ne {f : Reg.Fld} (hf : f.reg ≠ Reg.CORE_MX_STATUS c) : (s.mmaStatus c t passes x).get f =
    (s.put64 (Reg.CORE_MX_PASS_LO_PASSES_LO c) (Reg.CORE_MX_PASS_HI_PASSES_HI c)
      ((s.get64 (Reg.CORE_MX_PASS_LO_PASSES_LO c) (Reg.CORE_MX_PASS_HI_PASSES_HI c) + passes) % 2 ^ 64)).get f := by
  have hpass := put64_canon h (Reg.CORE_MX_PASS_LO_PASSES_LO c) (Reg.CORE_MX_PASS_HI_PASSES_HI c)
    ((s.get64 (Reg.CORE_MX_PASS_LO_PASSES_LO c) (Reg.CORE_MX_PASS_HI_PASSES_HI c) + passes) % 2 ^ 64)
  rw [mmaStatus, get_put_ne (put_canon (put_canon hpass ..) ..) _ hf, get_put_ne (put_canon hpass ..) _ hf,
    get_put_ne hpass _ hf]

theorem get64_mmaStatus_pass :
    (s.mmaStatus c t passes x).get64 (Reg.CORE_MX_PASS_LO_PASSES_LO c) (Reg.CORE_MX_PASS_HI_PASSES_HI c)
      = (s.get64 (Reg.CORE_MX_PASS_LO_PASSES_LO c) (Reg.CORE_MX_PASS_HI_PASSES_HI c) + passes) % 2 ^ 64 := by
  rw [get64, get_mmaStatus_ne h c t passes x (coreReg_ne (by decide) c),
    get_mmaStatus_ne h c t passes x (coreReg_ne (by decide) c)]
  exact get64_put64 h (le_refl 32) (le_refl 32) (coreReg_ne (by decide) c) (Nat.mod_lt _ (by decide))
end

theorem core_mmaStatus (s : State) (c t passes : Nat) (x : MmaArgs) (d : Nat) : (s.mmaStatus c t passes x).core d = s.core d :=
  rfl

theorem byteAt_mmaStatus (s : State) (c t passes : Nat) (x : MmaArgs) (b : Nat) :
    (s.mmaStatus c t passes x).byteAt b = s.byteAt b := by
  simp only [mmaStatus, put64, byteAt_put]

theorem byteAt_arrayOn (s : State) (c b : Nat) : (s.arrayOn c).byteAt b = s.byteAt b := rfl

/-! ### The state of the tile -/

section
variable (h : s.canon = true) (c t : Nat) (g : TileImg)
include h

theorem tiles_setTileImg : ((s.setTileImg c t g).core c).tiles = sset (fun _ => []) (s.core c).tiles t g.data := by
  rw [setTileImg, core_modCore_same (put_canon h ..)]
  rfl

theorem byteAt_setTileImg (b : Nat) : (s.setTileImg c t g).byteAt b = s.byteAt b :=
  byteAt_modCore (put_canon h ..) c b rfl

theorem reg_setTileImg {a : Nat} (hlo : a ≠ Reg.CORE_ACC_STATE_LO c) (hhi : a ≠ Reg.CORE_ACC_STATE_HI c) :
    (s.setTileImg c t g).reg a = s.reg a :=
  reg_put_ne h _ (ne_accState hlo hhi t)
end

/-! ### The whole instruction -/

/-- The tile as an opening MMA finds it: plain, with cleared marks (R101, R102). -/
def openingTile (s : State) (c : Nat) (x : MmaArgs) : TileImg :=
  { (if (s.tileImg c x.tile.toNat).state = 0 then s.tileImg c x.tile.toNat else {}) with mark := 0 }

/-- The tile as an opening MMA leaves it (R88). -/
def openedTile (s : State) (c : Nat) (x : MmaArgs) : TileImg :=
  (s.openingTile c x).accumulate x (s.mmaJob c x (s.core c).sp).elem

theorem openingTile_data {c : Nat} (htiles : (s.core c).tiles = []) (x : MmaArgs) : (s.openingTile c x).data = [] := by
  unfold openingTile tileImg
  rw [htiles]
  dsimp only
  split <;> rfl

section
variable {x : MmaArgs} (hexact : x.exact = false) (hacc : x.acc = false) {c : Nat} (hplain : s.inExact c x.tile.toNat = false)
  (h : s.canon = true)
include hexact hacc hplain h

/-- The tile is still plain once its sequences are in order. -/
theorem inExact_mmaSeqs_opening (o : Op) : (s.mmaSeqs c x o).inExact c x.tile.toNat = false := by
  rw [← hplain, inExact, inExact, get_congr (reg_mmaSeqs_opening hexact hacc hplain h o (core_le_accState ..))]

/-- An opening MMA on a plain tile: its tile sequences, its tile, the busy array and the weights in it, its registers. -/
theorem mmaRun_opening (o : Op) : ∃ f : Core → Core, (∀ k, (f k).sp = k.sp ∧ (f k).accMem = k.accMem) ∧
    s.mmaRun c x o = ((((s.mmaSeqs c x o).setTileImg c x.tile.toNat (s.openedTile c x)).arrayOn c).modCore c f).mmaStatus c
      x.tile.toNat (ceilDiv x.k.toNat (passLen x.cls)) x := by
  have hrun := MmaJob.run_opening (m := s.mmaJob c x (s.core c).sp) hexact hacc (s.tileImg c x.tile.toNat)
  simp only [mmaRun, MmaArgs.head, hexact, Bool.false_eq_true, if_false, inExact_mmaSeqs_opening hexact hacc hplain h, hrun]
  refine ⟨_, ?_, rfl⟩
  intro k
  split
  · exact ⟨rfl, rfl⟩
  · exact ⟨rfl, rfl⟩

variable (o : Op)

theorem get64_pass_opening (g : TileImg) : ((s.mmaSeqs c x o).setTileImg c x.tile.toNat g).get64
    (Reg.CORE_MX_PASS_LO_PASSES_LO c) (Reg.CORE_MX_PASS_HI_PASSES_HI c)
      = s.get64 (Reg.CORE_MX_PASS_LO_PASSES_LO c) (Reg.CORE_MX_PASS_HI_PASSES_HI c) := by
  have hreg {a : Nat} (ha : 0x1000000 ≤ a) (hlo : a ≠ Reg.CORE_ACC_STATE_LO c) (hhi : a ≠ Reg.CORE_ACC_STATE_HI c) :
      ((s.mmaSeqs c x o).setTileImg c x.tile.toNat g).reg a = s.reg a :=
    (reg_setTileImg (mmaSeqs_canon h ..) c _ g hlo hhi).trans (reg_mmaSeqs_opening hexact hacc hplain h o ha)
  have hlo : 0x1000000 ≤ Reg.CORE_MX_PASS_LO c := by unfold Reg.CORE_MX_PASS_LO; omega
  have hhi : 0x1000000 ≤ Reg.CORE_MX_PASS_HI c := by unfold Reg.CORE_MX_PASS_HI; omega
  exact congrArg₂ (fun lo hi => lo + hi * 2 ^ 32)
    (get_congr (hreg hlo (coreReg_ne (by decide) c) (coreReg_ne (by decide) c)))
    (get_congr (hreg hhi (coreReg_ne (by decide) c) (coreReg_ne (by decide) c)))

theorem tile_mmaRun_opening (htiles : (s.core c).tiles = []) :
    ((s.mmaRun c x o).core c).tile x.tile.toNat = (s.openedTile c x).data := by
  obtain ⟨f, hf, hrun⟩ := mmaRun_opening hexact hacc hplain h o
  have hseqs := mmaSeqs_canon h c x o
  have htile := setTileImg_canon hseqs c x.tile.toNat (s.openedTile c x)
  have hbefore : ((s.mmaSeqs c x o).core c).tiles = [] :=
    (congrArg Prod.fst (accMem_mmaSeqs_opening hexact hacc hplain h o c)).trans htiles
  have hafter : ((s.mmaRun c x o).core c).tiles = (((s.mmaSeqs c x o).setTileImg c x.tile.toNat (s.openedTile c x)).core c).tiles := by
    rw [hrun, core_mmaStatus]
    exact congrArg Prod.fst (accMem_modCore (arrayOn_canon htile c) c c fun k => (hf k).2)
  rw [Core.tile, hafter, tiles_setTileImg hseqs, hbefore, sget_sset_same swf_nil]

theorem byteAt_mmaRun_opening (hunsampled : ∀ q ∈ (s.core c).openSeqs, q.tile = x.tile.toNat → q.sampled = false) (b : Nat) :
    (s.mmaRun c x o).byteAt b = s.byteAt b := by
  obtain ⟨f, hf, hrun⟩ := mmaRun_opening hexact hacc hplain h o
  have hseqs := mmaSeqs_canon h c x o
  have htile := setTileImg_canon hseqs c x.tile.toNat (s.openedTile c x)
  calc (s.mmaRun c x o).byteAt b
      = ((s.mmaSeqs c x o).setTileImg c x.tile.toNat (s.openedTile c x)).byteAt b := by
        rw [hrun, byteAt_mmaStatus, byteAt_modCore (arrayOn_canon htile c) c b (hf _).1, byteAt_arrayOn]
    _ = (s.mmaSeqs c x o).byteAt b := byteAt_setTileImg hseqs ..
    _ = s.byteAt b := byteAt_mmaSeqs_opening hexact hacc hplain h o hunsampled b
end

/-- The elements of a tile of a cleared core after an opening MMA in fast mode: the ordered sums of its region (R88), and
+0 (R104). -/
theorem sget_openedTile {x : MmaArgs} {c : Nat} (hacc : x.acc = false) (htiles : (s.core c).tiles = [])
    (hfast : (s.acw c).strict = false) (hn : x.n.toNat ≤ 128) {i j : Nat} (hj : j < 128) :
    sget (fun _ => 0) (s.openedTile c x).data (128 * i + j) = if i < x.m.toNat ∧ j < x.n.toNat then
      code32 (orderedElem x.cls x.k.toNat (fun k => product x.aFmt x.bFmt (Sys2Proof.elemCode x.aArr (s.core c).sp (x.aOff i k))
        (s.mmaWeights c x k j)) (.zero true)).1 else 0 := by
  have hweights : (s.mmaJob c x (s.core c).sp).weights = s.mmaWeights c x := weightsOf_kept x _ _
  have helem : (s.mmaJob c x (s.core c).sp).elem i j (.zero true) = orderedElem x.cls x.k.toNat
      (fun k => product x.aFmt x.bFmt (Sys2Proof.elemCode x.aArr (s.core c).sp (x.aOff i k)) (s.mmaWeights c x k j)) (.zero true) := by
    rw [MmaJob.elem_of_fast hfast, ← hweights]
    rfl
  have hdata := openingTile_data htiles x
  rw [openedTile, sget_accumulate hacc hn (hdata ▸ swf_nil) _ hj, helem, hdata]
  rfl

end State

/-- Settles O26: the ordered sums enter the tile, the tile sequences keep what they do not sample, and the registers show
the passes. -/
theorem mmaResult : Obligations.MmaResult := by
  intro core a o s hs htiles hexact hacc hplain hfast hn
  have htile := State.tile_mmaRun_opening hexact hacc hplain hs o htiles
  obtain ⟨f, hf, hrun⟩ := State.mmaRun_opening hexact hacc hplain hs o
  have hbefore := State.modCore_keeps (c := core) (State.arrayOn_canon (State.setTileImg_canon (State.mmaSeqs_canon hs core a o)
    core a.tile.toNat (s.openedTile core a)) core) fun k => (hf k).1
  refine ⟨fun i j hi hj => ?region, fun i j hj hout => ?rest,
    fun hunsampled => State.byteAt_mmaRun_opening hexact hacc hplain hs o hunsampled, ?cls, ?trans, ?passes⟩
  case region =>
    rw [htile, State.sget_openedTile hacc htiles hfast hn (hj.trans_le hn), if_pos ⟨hi, hj⟩]
  case rest =>
    rw [htile, State.sget_openedTile hacc htiles hfast hn hj, if_neg (by omega)]
  case cls => exact hrun ▸ State.get_mmaStatus_class hbefore ..
  case trans => exact hrun ▸ State.get_mmaStatus_trans hbefore ..
  case passes =>
    have hpass := State.get64_pass_opening hexact hacc hplain hs o (s.openedTile core a)
    rw [hrun, State.get64_mmaStatus_pass hbefore]
    exact congrArg (fun n => (n + _) % 2 ^ 64) hpass

end Sys2Proof.Machine
end

section
/-! ## Where a vector instruction stops its LAUNCH -/
namespace Sys2Proof.Machine

/-- The checks at issue know two REASONs (R503). -/
theorem VArgs.reason_eq_some {v : VArgs} {r : Nat} (h : v.reason = some r) : r = 10 ∨ r = 5 := by
  unfold reason at h
  split at h
  · exact .inl (Option.some.inj h).symm
  · split at h
    · exact .inr (Option.some.inj h).symm
    · cases h

namespace State
variable {s : State} {q : VecCall} {o : Op} (hrun : s.running q.core = some o)
include hrun

theorem vector_of_reason {r : Nat} (hreason : q.args.reason = some r) (strict : Bool) (f : Op → SpWork → SpWork) :
    s.vector q.core q.args q.errs q.cls q.elems strict f = (s.stepped q.core).stopPerm q.core r 0 := by
  simp only [vector, seqInstr_running hrun, hreason]

/-- The first poisoned byte of the inputs ends the LAUNCH in place of the work (R157). -/
theorem vector_of_poison {a : Nat} (hreason : q.args.reason = none) (hce : q.errs.ce = []) (hue : q.errs.ue = [])
    (ha : (q.args.ins.flatMap streamBytes).find? (fun b => s.poisoned (q.pa b)) = some a) (strict : Bool)
    (f : Op → SpWork → SpWork) : s.vector q.core q.args q.errs q.cls q.elems strict f =
      ((s.stepped q.core).readClean q.core).ueOp o 1 q.core (q.pa a) := by
  have hread : (q.args.ins.flatMap streamBytes).find?
      (fun b => ((s.stepped q.core).readClean q.core).poisoned (spBase + q.core * 0x400000 + b)) = some a := ha
  simp only [vector, seqInstr_running hrun, hreason, meetErrs_holdCycles hce hue, hread]
  rfl

end State

/-- Settles O19: every vector instruction runs as `vector`, whose checks and reads come before its work. That a poisoned
input leaves every output unwritten, and ADDR 0 of the PERMISSION, are the model's choices (log entries 31, 33). -/
theorem vectorInstructionsStop : Obligations.VectorInstructionsStop := by
  intro i q o s hq hrun
  obtain ⟨t, hexec, strict, f, rfl, -⟩ := exec_vecRun hq s
  rw [hexec]
  refine ⟨fun r hreason => ⟨VArgs.reason_eq_some hreason, ?_⟩, fun a hreason hce hue ha => ?_⟩
  · rw [State.vector_of_reason hrun hreason]
  · rw [State.vector_of_poison hrun hreason hce hue ha]
    rfl

end Sys2Proof.Machine
end

section
/-! ## One element of one or two outputs -/
namespace Sys2Proof

open Machine

/-- The code of a result is that of its value: flags and the exact value only bear on the flags. -/
theorem encodeRes_code (f : Fmt) (rm : Rm) (sat strict : Bool) (r : VRes) :
    (encodeRes f rm sat strict r).1 = (f.encode rm sat strict r.x).1 := by
  unfold encodeRes
  exact (apply_ite Prod.fst ..).trans (ite_self _)

namespace SpWork
variable {w v : SpWork}

/-! ### What is stored, whatever the flags -/

/-- Two pieces of work that store the same bytes. -/
def SameStores (w v : SpWork) : Prop := w.sp = v.sp ∧ w.wrote = v.wrote

theorem SameStores.refl (w : SpWork) : w.SameStores w := ⟨rfl, rfl⟩

theorem SameStores.within (h : w.SameStores v) {B : List Nat} (hv : v.Within B) : w.Within B := fun c hc => hv c (h.2 ▸ hc)

theorem SameStores.replays (h : w.SameStores v) {sp : Sparse Byte} (hv : v.Replays sp) : w.Replays sp := by
  rw [Replays, h.1, h.2]
  exact hv

theorem SameStores.flag (h : w.SameStores v) (f : Nat) : (w.flag f).SameStores v := h

theorem SameStores.byte (h : w.SameStores v) (a : Nat) (b : Byte) : (w.byte a b).SameStores (v.byte a b) :=
  ⟨congrArg (fun m => sset memZero m a b) h.1, congrArg (List.cons (a, b)) h.2⟩

theorem SameStores.bytes (h : w.SameStores v) (a : Nat) (bs : List Byte) : (w.bytes a bs).SameStores (v.bytes a bs) := by
  induction bs generalizing w v a with
  | nil => exact h
  | cons b bs ih =>
    rw [bytes_cons, bytes_cons]
    exact ih (h.byte a b) (a + 1)

theorem SameStores.code (h : w.SameStores v) (st : Stream) (o : Int) (c : Nat) :
    (w.code st o c).SameStores (v.code st o c) := by
  unfold SpWork.code
  rw [h.1]
  exact h.bytes _ _

/-- A result for a plain output stores its code. -/
theorem SameStores.out (h : w.SameStores v) {st : Stream} (hblock : st.block = false) (o : Int) (a : Acw) (strict : Bool)
    (rm : Rm) (r : VRes) (second : Bool) :
    (w.out st o a strict rm r second).SameStores (v.code st o (st.fmt.encode rm a.sat strict r.x).1) := by
  rw [out_plain a strict rm r second hblock, encodeRes_code]
  exact (h.code st o _).flag _

/-! ### The elements stored -/

/-- The code of element 0 of an output. -/
def one (sp : Sparse Byte) (d : Stream) (c : Nat) : SpWork := ({ sp := sp } : SpWork).code d 0 c

/-- The codes of element 0 of two outputs, one after the other. -/
def pair (sp : Sparse Byte) (d : Stream) (c : Nat) (p : Stream) (c' : Nat) : SpWork := (one sp d c).code p 0 c'

theorem one_within (sp : Sparse Byte) (d : Stream) (c : Nat) : (one sp d c).Within (elemBytes d 0) :=
  single_within sp d (c, 0)

theorem one_replays (sp : Sparse Byte) (d : Stream) (c : Nat) : (one sp d c).Replays sp := single_replays sp d (c, 0)

theorem pair_replays (sp : Sparse Byte) (d : Stream) (c : Nat) (p : Stream) (c' : Nat) : (pair sp d c p c').Replays sp :=
  (one_replays sp d c).bytes _ _

theorem swf_sp_one {sp : Sparse Byte} (h : swf memZero sp = true) (d : Stream) (c : Nat) : swf memZero (one sp d c).sp = true :=
  List.foldlRecOn (motive := fun t : SpWork => swf memZero t.sp = true) _ _ h fun _ ht e _ => swf_sp_byte ht e.1 e.2

theorem sget_sp_bytes_apart (h : swf memZero w.sp = true) {a k : Nat} {bs : List Byte} (hk : ∀ i < bs.length, k ≠ a + i) :
    sget memZero (w.bytes a bs).sp k = sget memZero w.sp k := by
  refine (List.foldlRecOn (motive := fun t : SpWork => swf memZero t.sp = true ∧ sget memZero t.sp k = sget memZero w.sp k)
    _ _ ⟨h, rfl⟩ fun t ht c hc => ?_).2
  obtain ⟨i, hi, rfl⟩ := mem_cellsAt.1 hc
  exact ⟨swf_sp_byte ht.1 .., (sget_sset_ne ht.1 (hk i hi)).trans ht.2⟩

/-- An element written leaves the elements that share no byte with it. -/
theorem spNat_code_apart (h : swf memZero w.sp = true) {st q : Stream} {o o' : Int}
    (hapart : ∀ b ∈ elemBytes q o', b ∉ elemBytes st o) (c : Nat) :
    spNat (w.code st o c).sp (q.place o').1.toNat (q.place o').2.2 = spNat w.sp (q.place o').1.toNat (q.place o').2.2 := by
  refine congrArg leNat (List.map_congr_left fun k hk => sget_sp_bytes_apart h fun i hi heq => ?_)
  rw [length_leBytes] at hi
  exact hapart _ (mem_elemBytes.2 (.inl ⟨k, List.mem_range.1 hk, rfl⟩)) (mem_elemBytes.2 (.inl ⟨i, hi, heq⟩))

end SpWork

/-- A field that is the whole number. -/
theorem setBits_whole {n k : Nat} (hn : n < 2 ^ k) (v : Nat) : setBits n 0 k v = v % 2 ^ k := by
  simp [setBits_eq, Nat.mod_one, Nat.div_eq_of_lt hn]

/-- The word of an index stream fills its bytes (R124). -/
theorem setBits_words (sp : Sparse Byte) (d : Stream) (v : Nat) :
    setBits (spNat sp (d.words.place 0).1.toNat (d.words.place 0).2.2) (d.words.place 0).2.1 d.words.fmt.bits v
      = v % 2 ^ 32 := by
  have hbits : d.words.fmt.bits = 32 := rfl
  have hplace : d.words.place 0 = ((d.base.toNat : Int), 0, 4) := by
    rw [Stream.place, hbits]
    simp [Stream.words]
  rw [hplace, hbits]
  exact setBits_whole (spNat_lt sp _ 4) v

namespace Stream

/-- The bytes of a stream of one element. -/
theorem streamBytes_ones {st : Stream} (hcounts : st.counts = [1, 1, 1, 1]) : streamBytes st = elemBytes st 0 := by
  rw [streamBytes, hcounts, coords_ones, List.flatMap_singleton, offset_origin]
  rfl

end Stream

namespace Machine
namespace State
variable {s : State} {q : VecCall} {o : Op}

theorem elemBytes_subset_outBytes {d : Stream} (hd : d ∈ q.args.outs) (hcounts : d.counts = [1, 1, 1, 1]) :
    ∀ b ∈ elemBytes d 0, b ∈ q.outBytes :=
  fun _ hb => List.mem_flatMap.2 ⟨d, hd, (Stream.streamBytes_ones hcounts).symm ▸ hb⟩

/-- The bytes of outputs of one plain element each lie in the scratchpad (R116). -/
theorem outBytes_lt (hready : s.vecReady q o) (houts : ∀ d ∈ q.args.outs, d.block = false ∧ d.counts = [1, 1, 1, 1]) {b : Nat}
    (hb : b ∈ q.outBytes) : b < 0x400000 := by
  obtain ⟨-, hreason, -⟩ := hready
  obtain ⟨-, hgen, -⟩ := VArgs.reason_eq_none hreason
  obtain ⟨d, hd, hbd⟩ := List.mem_flatMap.1 hb
  obtain ⟨hblock, hcounts⟩ := houts d hd
  rw [Stream.streamBytes_ones hcounts] at hbd
  exact d.elemBytes_lt (hgen d (List.mem_append_right _ hd)) hcounts hblock hbd

section
variable (hs : s.canon = true) (hready : s.vecReady q o) (hc : q.core < 144) {strict : Bool} {f : Op → SpWork → SpWork}
include hs hready hc

/-- The scratchpad of a core after an instruction whose outputs are of one plain element each is what its work left. -/
theorem core_vector_sp (houts : ∀ d ∈ q.args.outs, d.block = false ∧ d.counts = [1, 1, 1, 1]) {w : SpWork}
    (hf : (f o { sp := (s.core q.core).sp }).SameStores w) (hw : w.Within q.outBytes) (hsp : w.Replays (s.core q.core).sp) :
    ((s.vector q.core q.args q.errs q.cls q.elems strict f).core q.core).sp = w.sp := by
  have hu := readClean_canon (stepped_canon hs q.core) q.core
  have hfound : (((s.stepped q.core).readClean q.core).core q.core).sp = (s.core q.core).sp := core_stepped_sp hs ..
  have hwithin := hf.within hw
  have hclean := cleanSp_of_ready hready hwithin
  rw [vector_of_ready hready, hfound, vecEnd_of_clean hclean, core_vecRegs, core_store hclean, ← hf.1]
  exact core_setBytes_vecCells hu hc (fun e he => outBytes_lt hready houts (hwithin e he)) (hfound.symm ▸ hf.replays hsp)

/-- An instruction whose work is one element writes its code. -/
theorem vector_one {d : Stream} (houts : q.args.outs = [d]) (hblock : d.block = false) (hcounts : d.counts = [1, 1, 1, 1])
    {c : Nat} (hf : (f o { sp := (s.core q.core).sp }).SameStores (.one (s.core q.core).sp d c)) :
    s.wroteCode (s.vector q.core q.args q.errs q.cls q.elems strict f) q.core d c := by
  have hall : ∀ d ∈ q.args.outs, d.block = false ∧ d.counts = [1, 1, 1, 1] := by simp [houts, hblock, hcounts]
  have hwithin : (SpWork.one (s.core q.core).sp d c).Within q.outBytes := fun e he =>
    elemBytes_subset_outBytes (by simp [houts]) hcounts _ (SpWork.one_within _ d c e he)
  unfold wroteCode
  rw [core_vector_sp hs hready hc hall hf hwithin (SpWork.one_replays ..)]
  exact spNat_code (w := { sp := (s.core q.core).sp }) (canon_sp hs q.core) d 0 c

section
variable {d p : Stream} (houts : q.args.outs = [d, p]) (hd : d.block = false ∧ d.counts = [1, 1, 1, 1])
  (hp : p.block = false ∧ p.counts = [1, 1, 1, 1]) {c c' : Nat}
  (hf : (f o { sp := (s.core q.core).sp }).SameStores (.pair (s.core q.core).sp d c p c'))
include houts hd hp hf

/-- The scratchpad after an instruction whose work is one element of each of two outputs. -/
theorem core_vector_pair : ((s.vector q.core q.args q.errs q.cls q.elems strict f).core q.core).sp
    = (SpWork.pair (s.core q.core).sp d c p c').sp := by
  have hall : ∀ d ∈ q.args.outs, d.block = false ∧ d.counts = [1, 1, 1, 1] := by simp [houts, hd, hp]
  have hwithin : (SpWork.pair (s.core q.core).sp d c p c').Within q.outBytes := SpWork.Within.code
    (fun e he => elemBytes_subset_outBytes (by simp [houts]) hd.2 _ (SpWork.one_within _ d c e he))
    (elemBytes_subset_outBytes (by simp [houts]) hp.2) c'
  exact core_vector_sp hs hready hc hall hf hwithin (SpWork.pair_replays ..)

/-- An instruction whose two outputs share no byte writes the code of each. -/
theorem vector_apart (hapart : ∀ b ∈ elemBytes p 0, b ∉ elemBytes d 0) :
    let t := s.vector q.core q.args q.errs q.cls q.elems strict f
    s.wroteCode t q.core d c ∧ s.wroteCode t q.core p c' := by
  have hsp := canon_sp hs q.core
  have hone := SpWork.swf_sp_one hsp d c
  have hfirst := spNat_code (w := { sp := (s.core q.core).sp }) hsp d 0 c
  have hsecond := spNat_code hone p 0 c'
  unfold wroteCode
  dsimp only at hsecond ⊢
  rw [core_vector_pair hs hready hc houts hd hp hf, SpWork.pair, hsecond]
  constructor
  · exact (SpWork.spNat_code_apart hone (fun b hb hbp => hapart b hbp hb) c').trans hfirst
  · exact congrArg (fun n => setBits n _ _ c') (SpWork.spNat_code_apart (w := { sp := (s.core q.core).sp }) hsp hapart c)

end

/-- An instruction with a second output of words writes its word there, whatever the two outputs share. -/
theorem vector_word {d p : Stream} (houts : q.args.outs = [d, p.words]) (hd : d.block = false ∧ d.counts = [1, 1, 1, 1])
    (hp : p.words.counts = [1, 1, 1, 1]) {c' : Nat}
    (hf : ∃ c, (f o { sp := (s.core q.core).sp }).SameStores (.pair (s.core q.core).sp d c p.words c')) :
    s.wroteCode (s.vector q.core q.args q.errs q.cls q.elems strict f) q.core p.words c' := by
  obtain ⟨c, hf⟩ := hf
  unfold wroteCode
  dsimp only
  rw [core_vector_pair hs hready hc houts hd ⟨rfl, hp⟩ hf]
  exact (spNat_code (SpWork.swf_sp_one (canon_sp hs q.core) d c) p.words 0 c').trans
    ((setBits_words ..).trans (setBits_words ..).symm)

end
end State
end Machine
end Sys2Proof
end

section
/-! ## The result of one row -/
namespace Sys2Proof

theorem length_of_mem_coords {ns r : List Nat} (h : r ∈ coords ns) : r.length = ns.length := by
  induction ns generalizing r with
  | nil => rw [List.mem_singleton.1 h]
  | cons n ns ih =>
    obtain ⟨r', hr', hr⟩ := List.mem_flatMap.1 h
    obtain ⟨i, -, rfl⟩ := List.mem_map.1 hr
    rw [List.length_cons, ih hr', List.length_cons]

namespace Machine

theorem addIx_origin : ∀ {r : List Nat}, r.length = 4 → addIx [0, 0, 0, 0] r = r
  | [_, _, _, _], _ => by simp [addIx]

/-- A row that begins with a NaN has its first element as winner (R124). -/
theorem rowWinner_cons_nan (isMax : Bool) (xs : List Num) : rowWinner isMax (.nan :: xs) = 0 := rfl

/-- The elements of the one row that a row reduction reads, with their offsets in input A. -/
def rowInputs (sp : Sparse Byte) (rdims : Nat) (ins : List Stream) (a d : Stream) : List (List Val × Int) :=
  (coords (rowShape rdims a d).2).map fun ix => (ins.map fun st => st.read sp (st.offset ix), a.offset ix)

theorem rowInputs_eq (sp : Sparse Byte) (rdims : Nat) (ins : List Stream) (a d : Stream) :
    ((coords (rowShape rdims a d).2).map fun r => (ins.map fun st => st.read sp (st.offset (addIx [0, 0, 0, 0] r)),
      a.offset (addIx [0, 0, 0, 0] r))) = rowInputs sp rdims ins a d := by
  refine List.map_congr_left fun r hr => ?_
  have hlen : r.length = 4 := by
    rw [length_of_mem_coords hr, rowShape]
    dsimp only
    split <;> rfl
  rw [addIx_origin hlen]

namespace State
variable {s : State} {c : Fin 144} {rdims : Byte} {a d : Stream} {e : MemErr} {o : Op}

theorem oneRow_eq (s : State) (c : Fin 144) (rdims : Byte) (ins : List Stream) (a d : Stream) :
    s.oneRow c rdims ins a d = (rowInputs (s.core c).sp rdims.toNat ins a d).map (·.1) := by
  rw [rowInputs, List.map_map]
  rfl

/-- The numbers of a row of one input. -/
theorem flatMap_rowInputs (s : State) (c : Fin 144) (rdims : Byte) (a d : Stream) :
    ((rowInputs (s.core c).sp rdims.toNat [a] a d).flatMap (·.1)).map (·.num)
      = (s.oneRow c rdims [a] a d).map fun v => numAt v 0 := by
  simp [oneRow, rowInputs, numAt, List.flatMap_map, ← List.map_eq_flatMap]

/-- A row reduction of one row does its work once. -/
theorem vecRows_oneRow (hcounts : d.counts = [1, 1, 1, 1]) (s : State) (ins outs : List Stream) (cls : Nat) (strict : Bool)
    (f : Op → List Nat → List (List Val × Int) → SpWork → SpWork) :
    let q := rowCall c rdims ins outs a d e cls
    s.vecRows c rdims.toNat ins outs a d e cls strict f = s.vector q.core q.args q.errs q.cls q.elems strict
      fun o w => f o [0, 0, 0, 0] (rowInputs w.sp rdims.toNat ins a d) w := by
  simp only [vecRows, hcounts, coords_ones, List.foldl_cons, List.foldl_nil, rowInputs_eq, rowCall]

section
variable (hs : s.canon = true)
include hs

/-- The sum of one row is written as one code (R123). -/
theorem vecSum_wroteCode {ins : List Stream} (hready : s.vecReady (rowCall c rdims ins [d] a d e clsRed) o)
    (hblock : d.block = false) (hcounts : d.counts = [1, 1, 1, 1]) (dr : Draw) (term : List Val → Num × Nat) :
    let w := s.acw c
    let st := strictOut w d
    let inner := if st && w.rmode != 5 then Rm.ofCode w.rmode 0 else Rm.rne
    s.wroteCode (s.vecSum c rdims.toNat ins a d dr e term) c d
      (d.fmt.encode (elemMode w dr (s.seedOf o) false 0) w.sat st
        (rowSum inner st ((s.oneRow c rdims ins a d).map fun v => (term v).1)).1).1 := by
  intro w st inner
  unfold vecSum
  rw [vecRows_oneRow hcounts, oneRow_eq, List.map_map]
  refine vector_one hs hready c.isLt rfl hblock hcounts ?_
  simp only [Stream.offset_origin, List.map_map]
  exact (SpWork.SameStores.refl _).out hblock ..

/-- The winner of one row is written as a word, after the value (R124). -/
theorem vecWinner_wroteCode {d2 : Stream} (hready : s.vecReady (rowCall c rdims [a] [d, d2.words] a d e clsRed) o)
    (hblock : d.block = false) (hcounts : d.counts = [1, 1, 1, 1]) (isMax : Bool) (ib : Word) (dr : Draw) :
    s.wroteCode (s.vecWinner c rdims.toNat isMax ib a d d2 dr e) c d2.words
      ((ib.toNat + rowWinner isMax ((s.oneRow c rdims [a] a d).map fun v => numAt v 0)) % 2 ^ 32) := by
  obtain ⟨-, hreason, -⟩ := id hready
  obtain ⟨hbad, -⟩ := VArgs.reason_eq_none hreason
  have hwords : d2.words.counts = [1, 1, 1, 1] := by
    simp only [rowCall, Bool.or_eq_false_iff, Bool.not_eq_false', List.all_eq_true, Bool.and_eq_true, beq_iff_eq] at hbad
    exact (hbad.2 d2.words (by simp)).2.trans hcounts
  unfold vecWinner
  rw [vecRows_oneRow hcounts, ← flatMap_rowInputs]
  refine vector_word hs hready c.isLt rfl ⟨hblock, hcounts⟩ hwords ?_
  simp only [Stream.offset_origin]
  exact ⟨_, ((SpWork.SameStores.refl _).out hblock ..).code ..⟩

end
end State

/-- Settles O23: one row is one sum, or one word after the winner's value. -/
theorem rowReductionResult : Obligations.RowReductionResult := by
  intro core rdims ib a b d d2 dr e o s hs hblock hcounts w st inner code row1 row2 xs
  have hinner : inner = if st && w.rmode != 5 then Rm.ofCode w.rmode 0 else Rm.rne := by
    simp only [inner, Bool.and_eq_true, bne_iff_ne]
  have hcode (x : Num) : code x = (d.fmt.encode (elemMode w dr (s.seedOf o) false 0) w.sat st x).1 := encodeRes_code ..
  simp only [hcode, hinner, xs, List.map_map]
  refine ⟨fun h => ⟨⟨_, rfl, ?sum⟩, ⟨_, rfl, ?squares⟩⟩, fun h => ⟨_, rfl, ?products⟩,
    fun h => ⟨⟨_, rfl, ?max⟩, ⟨_, rfl, ?min⟩⟩, fun m => rowWinner_cons_nan m _⟩
  case sum => exact State.vecSum_wroteCode hs h hblock hcounts dr _
  case squares => exact State.vecSum_wroteCode hs h hblock hcounts dr _
  case products => exact State.vecSum_wroteCode hs h hblock hcounts dr _
  case max => exact State.vecWinner_wroteCode hs h hblock hcounts true ib dr
  case min => exact State.vecWinner_wroteCode hs h hblock hcounts false ib dr

end Machine
end Sys2Proof
end

section
/-! ## The result of one random element -/
namespace Sys2Proof.Machine

theorem ofBool_decide (p : Prop) [Decidable p] : ofBool (decide p) = if p then .one else .zero false := by
  simp only [ofBool, decide_eq_true_eq]

namespace State
variable {s : State} {c : Fin 144} {ins : List Stream} {d : Stream} {e : MemErr} {cls : Nat} {bad : Bool} {o : Op}
  (hs : s.canon = true)
include hs

/-- An instruction of one element writes the code of its result. -/
theorem vecMap_wroteCode (hready : s.vecReady (mapCall c ins d e cls bad) o) (hblock : d.block = false)
    (hcounts : d.counts = [1, 1, 1, 1]) (dr : Draw) {f : Acw → Nat → Int → List Val → VRes} {x : Num}
    (hx : (f (s.acw c) (s.seedOf o) 0 (ins.map fun st => st.read (s.core c).sp 0)).x = x) :
    s.wroteCode (s.vecMap c ins d none dr e cls bad f) c d
      (d.fmt.encode (elemMode (s.acw c) dr (s.seedOf o) (cls == clsRand) 0) (s.acw c).sat (strictOut (s.acw c) d) x).1 := by
  subst hx
  unfold vecMap
  refine vector_one hs hready c.isLt rfl hblock hcounts ?_
  simp only [hcounts, coords_ones, List.foldl_cons, List.foldl_nil, Stream.offset_origin]
  exact (SpWork.SameStores.refl _).out hblock ..

/-- An instruction of one element with a mask that shares no byte with its output writes both. -/
theorem vecMap_mask_wroteCode {q : Stream} (hready : s.vecReady (mapCall c ins d e cls bad (some q)) o)
    (hblock : d.block = false) (hcounts : d.counts = [1, 1, 1, 1]) (hq : q.block = false)
    (hapart : ∀ b ∈ streamBytes q, b ∉ streamBytes d) (dr : Draw) {f : Acw → Nat → Int → List Val → VRes} {x y : Num}
    (hx : (f (s.acw c) (s.seedOf o) 0 (ins.map fun st => st.read (s.core c).sp 0)).x = x)
    (hy : ofBool (f (s.acw c) (s.seedOf o) 0 (ins.map fun st => st.read (s.core c).sp 0)).keep = y) :
    let t := s.vecMap c ins d (some q) dr e cls bad f
    let mode := elemMode (s.acw c) dr (s.seedOf o) (cls == clsRand) 0
    s.wroteCode t c d (d.fmt.encode mode (s.acw c).sat (strictOut (s.acw c) d) x).1
      ∧ s.wroteCode t c q (q.fmt.encode mode (s.acw c).sat false y).1 := by
  subst hx hy
  obtain ⟨-, hreason, -⟩ := id hready
  obtain ⟨hbad, -⟩ := VArgs.reason_eq_none hreason
  have hsame : q.counts = d.counts := by simpa using (Bool.or_eq_false_iff.1 hbad).2
  have hones := hsame.trans hcounts
  rw [Stream.streamBytes_ones hones, Stream.streamBytes_ones hcounts] at hapart
  unfold vecMap
  refine vector_apart hs hready c.isLt rfl ⟨hblock, hcounts⟩ ⟨hq, hones⟩ ?_ hapart
  simp only [hcounts, coords_ones, List.foldl_cons, List.foldl_nil, Stream.offset_origin]
  exact ((SpWork.SameStores.refl _).out hblock ..).out hq ..

/-- The candidates of SAMPLE of one row decide its word (R131). -/
theorem execSample_wroteCode {rdims : Byte} {a : Stream}
    (hready : s.vecReady (rowCall c rdims [a] [d.words] a d.words e clsRand) o) (hcounts : d.counts = [1, 1, 1, 1])
    (tau ib : Word) (dr : Draw) : ∃ t, execSample c rdims tau ib a d dr e s = .next t ∧ s.wroteCode t c d.words
      ((ib.toNat + rowWinner true ((coords (rowShape rdims.toNat a d.words).2).map fun ix =>
        (round32 .rne false (Num.fma (numAt [a.read (s.core c).sp (a.offset ix)] 0) (num32 tau.toNat)
          (gumbel (drawWords (elemIndex dr (a.offset ix)) dr.draw.toNat (s.seedOf o) dr.tensor.toNat).2.2.1)).1).1)) % 2 ^ 32) := by
  refine ⟨_, rfl, ?_⟩
  rw [vecRows_oneRow (d := d.words) hcounts]
  refine vector_one hs hready c.isLt rfl rfl hcounts ?_
  simp only [Stream.offset_origin, List.map_map, rowInputs]
  exact ((SpWork.SameStores.refl _).flag _).code ..

end State

/-- Settles O24: RAND and DROP are one element, DROP with a mask two that share no byte, and SAMPLE one word. DROP's one
rounding and the precision of SAMPLE's logarithms are the model's choices (log entries 22, 26). -/
theorem randomResult : Obligations.RandomResult := by
  intro core thr k ib tau rdims a d dr e o s hs hblock hcounts w drawn u code x kept cands
  have hcode (st : Stream) (strict : Bool) (y : Num) :
      code st strict y = (st.fmt.encode (elemMode w dr (s.seedOf o) true 0) w.sat strict y).1 := encodeRes_code ..
  simp only [hcode]
  refine ⟨fun h => ⟨_, rfl, ?rand⟩, fun h => ⟨_, rfl, ?drop⟩, fun q hq hapart h => ⟨_, rfl, ?mask⟩,
    fun h => State.execSample_wroteCode hs h hcounts tau ib dr⟩
  case rand => exact State.vecMap_wroteCode hs h hblock hcounts dr rfl
  case drop => exact State.vecMap_wroteCode hs h hblock hcounts dr (apply_ite Prod.fst ..)
  case mask => exact State.vecMap_mask_wroteCode hs h hblock hcounts hq hapart dr (apply_ite Prod.fst ..) (ofBool_decide _)

end Sys2Proof.Machine
end

section
/-! ## What a store leaves in memory -/
namespace Sys2Proof

/-- A map cut down by keys holds what it held at a key that stays, and the default elsewhere. -/
theorem sget_filter_key {β : Type} [DecidableEq β] {d : Nat → β} {m : Sparse β} {lo : Nat} (h : swfFrom d lo m = true)
    (p : Nat → Bool) (k : Nat) : sget d (m.filter fun e => p e.1) k = if p k then sget d m k else d k := by
  induction m generalizing lo with
  | nil => exact (ite_self _).symm
  | cons e m ih =>
    obtain ⟨a, v⟩ := e
    simp only [swfFrom, Bool.and_eq_true] at h
    obtain ⟨-, hm⟩ := h
    have hbelow (hk : k ≤ a) : sget d m k = d k := sget_below hm (by omega)
    cases hp : p a with
    | true =>
      simp only [List.filter_cons, hp, if_true, sget, ih hm]
      by_cases hka : k = a
      · simp [hka, hp]
      · by_cases hlt : k < a <;> simp [hka, hlt]
    | false =>
      simp only [List.filter_cons, hp, Bool.false_eq_true, if_false, sget, ih hm]
      by_cases hka : k = a
      · simp [hka, hp]
      · by_cases hlt : k < a
        · simp [hka, hlt, hbelow hlt.le]
        · simp [hka, hlt]

theorem leNat_eq_zero {l : List Byte} (h : ∀ x ∈ l, x = 0) : leNat l = 0 := by
  induction l with
  | nil => rfl
  | cons x l ih => 
    obtain ⟨hx, hl⟩ := List.forall_mem_cons.1 h
    simp [leNat, hx, ih hl]

namespace Machine

/-- A check word lies outside the block that it checks. -/
theorem checkedBlock_apart {a b k : Nat} (h : checkedBlock a = some b) (hk : k < 4096) : b / 4096 * 4096 + k ≠ a := by
  obtain ⟨p, hp, rfl⟩ := Option.map_eq_some_iff.1 h
  simp only [checkedPage] at hp
  split at hp
  · next hnear =>
    obtain ⟨hk, hp⟩ := Option.ite_none_left_eq_some.1 hp
    obtain rfl := Option.some.inj hp
    simp only [nearEnd, Bool.or_eq_true, decide_eq_true_eq] at *
    omega
  · obtain ⟨hboard, hpage⟩ := Option.ite_none_right_eq_some.1 hp
    obtain ⟨hlt, hp⟩ := Option.ite_none_right_eq_some.1 hpage
    obtain rfl := Option.some.inj hp
    simp only [boardBase, Bool.and_eq_true, decide_eq_true_eq] at *
    omega

theorem coversBlock_singleton (c : Host.Cell) (b : Nat) : coversBlock [c] b = false := by
  by_contra hcovers
  have hall := List.all_eq_true.1 (Bool.eq_true_of_not_eq_false hcovers)
  have hfirst := hall 0 (by simp)
  have hsecond := hall 1 (by simp)
  simp only [List.any_cons, List.any_nil, Bool.or_false, beq_iff_eq] at hfirst hsecond
  omega

namespace State
variable {s : State}

theorem byteAt_setByte_same (h : s.canon = true) (a : Nat) (v : Byte) : (s.setByte a v).byteAt a = v := by
  by_cases ha : (spBase ≤ a && a < spEnd) = true
  · rw [setByte_of_sp ha, byteAt_of_sp ha, core_modCore_same h]
    exact sget_sset_same (canon_sp h _)
  · rw [setByte_of_mem ha, byteAt_of_mem ha]
    exact sget_sset_same (canon_mem h)

/-- What a store of the byte `v` keeps at `a`: in a check region the difference from the right check word (R339;
log entry 75). -/
def heldByte (s : State) (a : Nat) (v : Byte) : Byte :=
  match checkedBlock a with
  | some b => v ^^^ BitVec.ofNat 8 (s.blockCrc b / 256 ^ (a % 4))
  | none => v

theorem setPa_eq (s : State) (a : Nat) (v : Byte) : s.setPa a v = s.setByte a (s.heldByte a v) := by
  cases h : checkedBlock a <;> simp only [setPa, heldByte, h]

/-- The cells of a store outside the units `bad`, stored one after another. -/
def setCells (s : State) (bad : List Nat) (w : List Host.Cell) : State :=
  w.foldl (fun t c => if bad.contains (poisonUnit c.1).1 then t else t.setPa c.1 c.2) s

theorem setCells_canon (h : s.canon = true) (bad : List Nat) (w : List Host.Cell) : (s.setCells bad w).canon = true :=
  foldl_setPa_ind (P := fun t => t.canon = true) (fun _ _ _ ht => setByte_canon ht ..) _ w h

theorem setCells_poison (s : State) (bad : List Nat) (w : List Host.Cell) : (s.setCells bad w).poison = s.poison :=
  foldl_setPa_ind (P := fun t => t.poison = s.poison) (fun t a v ht => by rw [setByte_frame, ← ht]) _ w rfl

/-- A byte that no cell reaches but in a unit of `bad` keeps its value. -/
theorem byteAt_setCells_of_skipped (h : s.canon = true) {bad : List Nat} {w : List Host.Cell} {a : Nat}
    (hskip : ∀ c ∈ w, c.1 = a → (poisonUnit a).1 ∈ bad) : (s.setCells bad w).byteAt a = s.byteAt a := by
  induction w generalizing s with
  | nil => rfl
  | cons c w ih =>
    obtain ⟨hc, hw⟩ := List.forall_mem_cons.1 hskip
    simp only [setCells, List.foldl_cons]
    split
    · exact ih h hw
    · next hgood =>
      have hne : a ≠ c.1 := fun heq => hgood (by simpa [heq] using hc heq.symm)
      exact (ih (setPa_canon h ..) hw).trans (by rw [setPa_eq, byteAt_setByte_ne h hne])

/-- A byte outside the units of `bad` holds the last cell stored to it. -/
theorem byteAt_setCells_of_last (h : s.canon = true) {bad : List Nat} {pre post : List Host.Cell} {a : Nat} {b : Byte}
    (hlast : ∀ c ∈ post, c.1 ≠ a) (hgood : (poisonUnit a).1 ∉ bad) :
    (s.setCells bad (pre ++ (a, b) :: post)).byteAt a = (s.setCells bad pre).heldByte a b := by
  have hcanon := setCells_canon h bad pre
  have hpost : (((s.setCells bad pre).setPa a b).setCells bad post).byteAt a = ((s.setCells bad pre).setPa a b).byteAt a :=
    byteAt_setCells_of_skipped (setPa_canon hcanon ..) fun c hc heq => absurd heq (hlast c hc)
  rw [setPa_eq, byteAt_setByte_same hcanon, ← setPa_eq] at hpost
  simpa [setCells, hgood] using hpost

/-! ### The whole store -/

/-- A store keeps the right check words of the blocks that it covers, and is elsewhere the cells that meet no partly covered
poison. -/
theorem byteAt_store_eq (h : s.canon = true) (w : List Host.Cell) (a : Nat) : (s.store w).byteAt a =
    if (checkedBlock a).any (coversBlock w) then 0 else (s.setCells (s.partialPoison w) w).byteAt a := by
  by_cases ha : (spBase ≤ a && a < spEnd) = true
  · have hlow : spBase ≤ a := of_decide_eq_true (Bool.and_eq_true_iff.1 ha).1
    simp only [checkedBlock_of_sp hlow, Option.any_none, Bool.false_eq_true, if_false]
    rw [byteAt_of_sp ha, byteAt_of_sp ha]
    rfl
  · have hmem := canon_mem (setCells_canon h (s.partialPoison w) w)
    rw [byteAt_of_mem ha, byteAt_of_mem ha]
    refine (sget_filter_key hmem (fun k => !(checkedBlock k).any (coversBlock w)) a).trans ?_
    cases (checkedBlock a).any (coversBlock w) <;> rfl

theorem byteAt_store_of_uncovered (h : s.canon = true) {w : List Host.Cell} {a : Nat}
    (hblock : ∀ b, checkedBlock a = some b → coversBlock w b = false) :
    (s.store w).byteAt a = (s.setCells (s.partialPoison w) w).byteAt a := by
  have hany : (checkedBlock a).any (coversBlock w) = false := by
    cases hb : checkedBlock a with
    | none => rfl
    | some b => rw [Option.any_some, hblock b hb]
  rw [byteAt_store_eq h, hany]
  rfl

/-- A byte that no cell reaches but in a partly covered poisoned unit keeps its value. -/
theorem byteAt_store_of_skipped (h : s.canon = true) {w : List Host.Cell} {a : Nat}
    (hskip : ∀ c ∈ w, c.1 = a → (poisonUnit a).1 ∈ s.partialPoison w)
    (hblock : ∀ b, checkedBlock a = some b → coversBlock w b = false) : (s.store w).byteAt a = s.byteAt a :=
  (byteAt_store_of_uncovered h hblock).trans (byteAt_setCells_of_skipped h hskip)

/-- A partly covered poisoned unit keeps its poison (R157). -/
theorem poisoned_store_of_partial {w : List Host.Cell} {a : Nat} (ha : (poisonUnit a).1 ∈ s.partialPoison w) :
    (s.store w).poisoned a = true := by
  have hold : (poisonUnit a).1 ∈ (s.setCells (s.partialPoison w) w).poison := by
    rw [setCells_poison]
    exact List.mem_of_mem_filter ha
  have hnew : (poisonUnit a).1 ∈ (s.store w).poison := List.mem_filter.2 ⟨hold, by simp [ha]⟩
  simp [poisoned, hnew]

/-- The check word of a block follows the block's bytes, which one cell in the check regions leaves. -/
theorem blockCrc_store_singleton (h : s.canon = true) {a b : Nat} (hb : checkedBlock a = some b) (v : Byte) :
    (s.store [(a, v)]).blockCrc b = s.blockCrc b := by
  have hbyte (k : Nat) (hk : k < 4096) : (s.store [(a, v)]).byteAt (b / 4096 * 4096 + k) = s.byteAt (b / 4096 * 4096 + k) :=
    byteAt_store_of_skipped h
      (fun c hc heq => absurd (heq.symm.trans (by rw [List.mem_singleton.1 hc])) (checkedBlock_apart hb hk))
      fun b' _ => coversBlock_singleton ..
  exact congrArg crc32c (List.map_congr_left fun k hk => hbyte k (List.mem_range.1 hk))

/-- A byte stored to a check region reads as stored (R339). -/
theorem paByte_store_singleton (h : s.canon = true) {a b : Nat} (hb : checkedBlock a = some b) {v : Byte}
    (hgood : (poisonUnit a).1 ∉ s.partialPoison [(a, v)]) : (s.store [(a, v)]).paByte a = v := by
  have hbyte : (s.store [(a, v)]).byteAt a = s.heldByte a v :=
    (byteAt_store_of_uncovered h fun b' _ => coversBlock_singleton ..).trans
      (byteAt_setCells_of_last (pre := []) (post := []) h (by simp) hgood)
  simp only [paByte, hb, hbyte, heldByte, blockCrc_store_singleton h hb, BitVec.xor_assoc, BitVec.xor_self, BitVec.xor_zero]

/-- A store of a whole block leaves its check word right (R340). -/
theorem checkBad_store (h : s.canon = true) {w : List Host.Cell} {b : Nat} (hcovers : coversBlock w b = true)
    (hword : ∀ k < 4, checkedBlock (checkAt b + k) = some b) : (s.store w).checkBad b = false := by
  have hzero : (s.store w).natAt (checkAt b) 4 = 0 := by
    refine leNat_eq_zero fun x hx => ?_
    obtain ⟨k, hk, rfl⟩ := List.mem_map.1 hx
    simp [byteAt_store_eq h, hword k (List.mem_range.1 hk), hcovers]
  simp [checkBad, hzero]

end State

/-- Settles O7: a store is its cells outside the partly covered poisoned units, and right check words for the blocks that it
covers. -/
theorem storeObeysPoison : Obligations.StoreObeysPoison := by
  intro s w h
  refine ⟨fun a hcells => State.byteAt_store_of_skipped h fun c hc heq => absurd heq (hcells c hc), ?last,
    fun a ha => ⟨State.poisoned_store_of_partial ha, State.byteAt_store_of_skipped h fun _ _ _ => ha⟩, ?check,
    fun b => State.checkBad_store h⟩
  case last =>
    rintro pre a b post rfl hlast hgood hnone
    rw [State.byteAt_store_of_uncovered h (by simp [hnone]), State.byteAt_setCells_of_last h hlast hgood, State.heldByte, hnone]
  case check =>
    intro a v hsome hgood
    obtain ⟨b, hb⟩ := Option.ne_none_iff_exists'.1 hsome
    exact State.paByte_store_singleton h hb hgood

end Machine
end Sys2Proof
end

section
/-! ## Runs of virtual addresses -/
namespace Sys2Proof.Machine
namespace State

/-- The translation of the run of `n` offsets from `k` on: the first address that fails, or every physical address. -/
def xlateFrom (s : State) (c va : Nat) (wr : Bool) (k n : Nat) : Except Nat (List Nat) :=
  (List.range' k n).foldr (fun k acc =>
    match s.xlate c (va + k) wr, acc with
    | some pa, .ok l => .ok (pa :: l)
    | none, _ => .error (va + k)
    | _, .error e => .error e) (.ok [])

variable {s : State} {c va k n : Nat} {wr : Bool}

theorem xlateFrom_succ_of_none (h : s.xlate c (va + k) wr = none) : s.xlateFrom c va wr k (n + 1) = .error (va + k) := by
  simp only [xlateFrom, List.range'_succ, List.foldr_cons, h]

theorem xlateFrom_succ_of_some {pa : Nat} (h : s.xlate c (va + k) wr = some pa) :
    s.xlateFrom c va wr k (n + 1) = (s.xlateFrom c va wr (k + 1) n).map (pa :: ·) := by
  simp only [xlateFrom, List.range'_succ, List.foldr_cons, h]
  split <;> simp_all [Except.map]

theorem xlateRun_eq_xlateFrom (s : State) (c va n : Nat) (wr : Bool) : s.xlateRun c va n wr = s.xlateFrom c va wr 0 n := by
  rw [xlateRun, List.range_eq_range']
  rfl

/-- A run that fails names its first address that does not translate. -/
theorem xlateFrom_error {e : Nat} (h : s.xlateFrom c va wr k n = .error e) :
    ∃ j < n, e = va + (k + j) ∧ s.xlate c e wr = none ∧ ∀ i < j, (s.xlate c (va + (k + i)) wr).isSome := by
  induction n generalizing k with
  | zero => simp [xlateFrom] at h
  | succ n ih =>
    cases hx : s.xlate c (va + k) wr with
    | none =>
      obtain rfl := Except.error.inj ((xlateFrom_succ_of_none hx).symm.trans h)
      exact ⟨0, n.succ_pos, rfl, hx, by simp⟩
    | some pa =>
      rw [xlateFrom_succ_of_some hx] at h
      cases hrest : s.xlateFrom c va wr (k + 1) n with
      | ok l => simp [hrest, Except.map] at h
      | error e' =>
        obtain rfl : e' = e := by simpa [hrest, Except.map] using h
        obtain ⟨j, hj, he, hnone, hsome⟩ := ih hrest
        refine ⟨j + 1, by omega, by omega, hnone, fun i hi => ?_⟩
        cases i with
        | zero => simp [hx]
        | succ i => simpa only [Nat.add_assoc, Nat.add_comm 1] using hsome i (by omega)

/-- A run that translates answers the physical address of each of its addresses. -/
theorem xlateFrom_ok {pas : List Nat} (h : s.xlateFrom c va wr k n = .ok pas) :
    pas.length = n ∧ ∀ j < n, s.xlate c (va + (k + j)) wr = pas[j]? := by
  induction n generalizing k pas with
  | zero =>
    obtain rfl : [] = pas := by simpa [xlateFrom] using h
    simp
  | succ n ih =>
    cases hx : s.xlate c (va + k) wr with
    | none => simp [xlateFrom_succ_of_none hx] at h
    | some pa =>
      rw [xlateFrom_succ_of_some hx] at h
      cases hrest : s.xlateFrom c va wr (k + 1) n with
      | error e => simp [hrest, Except.map] at h
      | ok l =>
        obtain rfl : pa :: l = pas := by simpa [hrest, Except.map] using h
        obtain ⟨hlen, hpas⟩ := ih hrest
        refine ⟨by simp [hlen], fun j hj => ?_⟩
        cases j with
        | zero => simpa using hx
        | succ j => simpa only [Nat.add_assoc, Nat.add_comm 1, List.getElem?_cons_succ] using hpas j (by omega)

end State

/-- Settles O8: the write's run is translated as a whole before it stores. That it names the first address that fails and
stores nothing is the model's choice (log entry 33). -/
theorem virtualWriteTranslates : Obligations.VirtualWriteTranslates := by
  intro s c va bs
  have hrun := State.xlateRun_eq_xlateFrom s c va bs.length true
  cases hx : s.xlateFrom c va true 0 bs.length with
  | error e =>
    have hwrite : s.writeVa c va bs = .error e := by rw [State.writeVa, hrun, hx]; rfl
    obtain ⟨k, hk⟩ := State.xlateFrom_error hx
    simp only [Nat.zero_add] at hk
    refine ⟨fun e' he' => ?_, fun t ht => ?_⟩
    · obtain rfl := Except.error.inj (hwrite.symm.trans he')
      exact ⟨k, hk⟩
    · cases hwrite.symm.trans ht
  | ok pas =>
    have hwrite : s.writeVa c va bs = .ok (s.store (pas.zip bs)) := by rw [State.writeVa, hrun, hx]; rfl
    obtain ⟨hlen, hpas⟩ := State.xlateFrom_ok hx
    simp only [Nat.zero_add] at hpas
    refine ⟨fun e he => ?_, fun t ht => ?_⟩
    · cases hwrite.symm.trans he
    · exact ⟨pas, hlen, hpas, (Except.ok.inj (hwrite.symm.trans ht)).symm⟩

end Sys2Proof.Machine
end

section
/-! ## SSIG -/
namespace Sys2Proof.Machine
namespace State
variable {s t : State} {o : Op} {c vid : Nat}

theorem hold_running (h : s.running c = some o) (x : Stall) : s.hold c x = s.modCore c fun k => { k with stall := some x } := by
  simp [hold, h]

theorem issueSsig_of_off (hrun : s.running c = some o) (hon : s.synOn = false) (m : Option (BitVec 13)) (v : SigVal) :
    s.issueSsig c vid m v = s.modCore c fun k => { k with stall := some (.ssig vid m v) } := by
  simp [issueSsig, hon, hold_running hrun]

theorem issueSsig_of_on (hrun : s.running c = some o) (hon : s.synOn = true) (m : Option (BitVec 13)) (v : SigVal) :
    s.issueSsig c vid m v = s.ssig (s.stepped c) o c vid m v := by
  simp only [issueSsig, hon, Bool.not_true, Bool.false_eq_true, if_false, seqInstr_running hrun]

/-- A signal that comes alone is the whole of its hub cycle (R211). -/
theorem applySignals_singleton (t : State) (x : Sig) : t.applySignals [x] = t.sumSignals x.obj [x] := by
  simp [applySignals, each, List.eraseDups_cons]

/-! ### The value -/

/-- The PAs of the 64-bit word of a core's scratchpad that holds a value. -/
def sigPas (c : Nat) (a : BitVec 22) : List Nat := (List.range 8).map fun k => spAddr c (a.toNat + k)

theorem ssig_of_poison {a : BitVec 22} {pa : Nat} (h : (sigPas c a).find? t.poisoned = some pa) (m : Option (BitVec 13)) :
    s.ssig t o c vid m (.sp a) = t.ueOp o 1 c pa := by
  simp only [sigPas] at h
  simp only [ssig, h]

/-- A value in scratchpad without poison acts as the same value written in the instruction. -/
theorem ssig_sp_local {a : BitVec 22} (h : ∀ pa ∈ sigPas c a, t.poisoned pa = false) {obj : Nat}
    (hobj : t.xtObj o.ctx vid false = some obj) :
    s.ssig t o c vid none (.sp a) = (t.fillXt o.ctx vid).signal obj (leNat ((sigPas c a).map t.byteAt)) o.party 1 c vid := by
  have hfind : (sigPas c a).find? t.poisoned = none := List.find?_eq_none.2 fun pa hpa => by simp [h pa hpa]
  simp only [sigPas] at hfind
  simp only [ssig, hfind, hobj, sigPas]

/-! ### The object -/

variable (d : BitVec 64)

theorem ssig_imm_local {obj : Nat} (hobj : t.xtObj o.ctx vid false = some obj) :
    s.ssig t o c vid none (.imm d) = (t.fillXt o.ctx vid).signal obj d.toNat o.party 1 c vid := by
  simp only [ssig, List.find?_nil, hobj]

theorem ssig_imm_unmapped (hobj : t.xtObj o.ctx vid false = none) :
    s.ssig t o c vid none (.imm d) = t.stopXt o c vid := by
  simp only [ssig, List.find?_nil, hobj]

theorem ssig_imm_sent {dest : BitVec 13} (hdest : dest.toNat ≠ t.moduleId) (hfree : t.remoteFree = true) :
    s.ssig t o c vid (some dest) (.imm d) = t.sendSignal o (some c) dest.toNat vid d.toNat := by
  simp [ssig, hdest, hfree]

theorem ssig_imm_held {dest : BitVec 13} (hdest : dest.toNat ≠ t.moduleId) (hfree : t.remoteFree = false) :
    s.ssig t o c vid (some dest) (.imm d) = s.hold c (.ssig vid (some dest) (.imm d)) := by
  simp [ssig, hdest, hfree]

theorem ssig_imm_by_number {dest : BitVec 13} (hdest : dest.toNat = t.moduleId) {e obj : Nat}
    (hcheck : t.remoteCheck o.vcid (t.get (Reg.SYN_CTX_EPOCH_EPOCH o.ctx)) vid = .ok (e, obj)) :
    s.ssig t o c vid (some dest) (.imm d) =
      (t.fillXt e vid).sumSignals obj [⟨obj, d.toNat, t.ctxParty e, 7, 0, vid, true⟩] := by
  simp only [ssig, List.find?_nil, hdest, beq_self_eq_true, if_true, remoteApply, remoteSig, hcheck, applySignals_singleton]

end State

/-- Settles O13: while ENABLE is 0 the core holds the instruction; else its value is read, and its object found here or sent. -/
theorem signalFromACore : Obligations.SignalFromACore := by
  intro core vid d a dest m v o s hrun t pas
  refine ⟨fun hoff => congrArg Host.Outcome.next (State.issueSsig_of_off hrun hoff m v), fun hon => ?_⟩
  have hissue (m : Option (BitVec 13)) (v : SigVal) : exec (.ssig core vid m v) s = .next (s.ssig t o core vid.toNat m v) :=
    congrArg Host.Outcome.next (State.issueSsig_of_on hrun hon m v)
  simp only [hissue, Host.Outcome.next.injEq]
  refine ⟨fun obj hobj => ⟨State.ssig_imm_local d hobj, fun hclean => State.ssig_sp_local hclean hobj⟩,
    fun pa hpa => State.ssig_of_poison hpa m, fun hobj => State.ssig_imm_unmapped d hobj,
    State.ssig_imm_sent d, fun hdest hfree => ?held, fun c obj hdest => State.ssig_imm_by_number d hdest⟩
  case held => exact (State.ssig_imm_held d hdest hfree).trans (State.hold_running hrun _)

end Sys2Proof.Machine
end

section
/-! ## GCLAIM -/
namespace Sys2Proof.Machine
namespace State

/-! ### A region's entry (R313) -/

/-- Where the entry of a region lies. -/
def claimAt (t : State) (o : Op) (region : Nat) : Nat :=
  t.get (Reg.RPL_GRAD_BASE_LO_PA_LO o.ctx) * 2 ^ 18 + t.get (Reg.RPL_GRAD_BASE_HI_PA_HI o.ctx) * 2 ^ 32 + 32 * region

def claimPas (t : State) (o : Op) (region : Nat) : List Nat := (List.range 32).map fun k => t.claimAt o region + k

/-- The state in which the read of a region's entry has met its errors. -/
def claimRead (t : State) (o : Op) (region : Nat) (e : MemErr) : State :=
  t.meetErrs (some o.ctx) (t.claimPas o region).contains e

/-- What stops the read of a region's entry. -/
def claimErr (t : State) (o : Op) (region : Nat) (e : MemErr) : ReadErr :=
  (t.claimRead o region e).readErr o.ctx (t.claimPas o region) e

/-- A region lies in the table of its context. -/
def InClaims (t : State) (o : Op) (region : Nat) : Prop :=
  t.on (Reg.RPL_GRAD_BASE_LO_VALID o.ctx) = true ∧ region < t.get (Reg.RPL_GRAD_BASE_HI_COUNT o.ctx)

/-- A region is claimed in the open attempt (R314), with its entry at `a`. -/
def Claimed (m : State) (o : Op) (a region : Nat) : Prop :=
  (m.ctx o.ctx).claims.contains region = true ∧ m.natAt (a + 16) 8 = m.stepNum o.ctx
    ∧ m.natAt (a + 24) 4 = m.get (Reg.RPL_STEP_ATTEMPT_ATTEMPT o.ctx)

/-- What a new claim writes from byte 12 of its entry on. -/
def claimEntry (m : State) (o : Op) (tag : Nat) : List Byte :=
  leBytes 2 tag ++ leBytes 1 o.ring ++ leBytes 1 0 ++ leBytes 8 (m.stepNum o.ctx)
    ++ leBytes 4 (m.get (Reg.RPL_STEP_ATTEMPT_ATTEMPT o.ctx)) ++ leBytes 4 o.seq

/-- The record of a claim in conflict (R314): the claimant, and from the entry the holder. -/
def conflictRec (m : State) (o : Op) (core a region tag : Nat) : FaultRec :=
  { code := fGradAlias, unitKind := 1, unit := core, p1 := some o.party
    p2 := some ⟨o.ctx, m.gen o.ctx, m.vcid o.ctx, m.natAt (a + 14) 1, m.natAt (a + 28) 4⟩
    detail := [(2, region), (2, tag), (2, m.natAt (a + 12) 2)] }

/-- A claim goes by its entry, which has been read without error. -/
def claimEntered (s m : State) (o : Op) (core a region tag : Nat) (e : MemErr) : State :=
  if !bitOn (m.natAt a 8) 0 then m.stopPerm core 10 region
  else if !(m.ctx o.ctx).claims.contains region || m.natAt (a + 16) 8 != m.stepNum o.ctx
      || m.natAt (a + 24) 4 != m.get (Reg.RPL_STEP_ATTEMPT_ATTEMPT o.ctx) then
    s.writeClaim m o core a region tag (m.claimEntry o tag) e
  else if m.natAt (a + 12) 2 == tag then m
  else (((m.bump Reg.RPL_GRAD_ALIAS_CNT_COUNT).mark Reg.RPL_STEP_EVENT_GRAD_ALIAS).raise
    (m.conflictRec o core a region tag)).endOp o stFaulted fGradAlias

/-! ### The instruction -/

section
variable {s : State} {o : Op} {core region tag : Nat} {e : MemErr} (hrun : s.running core = some o)
include hrun

theorem issueClaim_of_untracked (hoff : ¬ (s.stepped core).on (Reg.RPL_STEP_CTRL_ENABLE o.ctx) = true) :
    s.issueClaim core region tag e = s.stepped core := by
  simp [issueClaim, seqInstr_running hrun, hoff]

variable (hon : (s.stepped core).on (Reg.RPL_STEP_CTRL_ENABLE o.ctx) = true)
include hon

theorem issueClaim_of_outside (hout : ¬ (s.stepped core).InClaims o region) :
    s.issueClaim core region tag e = (s.stepped core).stopPerm core 10 region := by
  have hguard : (!(s.stepped core).on (Reg.RPL_GRAD_BASE_LO_VALID o.ctx)
      || decide (region ≥ (s.stepped core).get (Reg.RPL_GRAD_BASE_HI_COUNT o.ctx))) = true := by
    by_contra hno
    exact hout (by simpa [InClaims] using hno)
  simp only [issueClaim, seqInstr_running hrun, hon, Bool.not_true, Bool.false_eq_true, if_false, hguard, if_true]

variable (hin : (s.stepped core).InClaims o region)
include hin

/-- An error that the read of the entry meets ends the LAUNCH. -/
theorem issueClaim_of_error {x : ReadErr} (herr : (s.stepped core).claimErr o region e = x) (hx : x ≠ .none) :
    s.issueClaim core region tag e = ((s.stepped core).claimRead o region e).readStop o (1, core) 1 x := by
  obtain ⟨hvalid, hcount⟩ := hin
  simp only [claimErr, claimRead, claimPas, claimAt] at herr
  simp only [issueClaim, seqInstr_running hrun, hon, hvalid, Nat.not_le.2 hcount, decide_false, Bool.not_true, Bool.or_self,
    Bool.false_eq_true, if_false, herr]
  cases x with
  | none => exact absurd rfl hx
  | ue | parity | chk => rfl

theorem issueClaim_of_entry (herr : (s.stepped core).claimErr o region e = .none) :
    s.issueClaim core region tag e =
      s.claimEntered ((s.stepped core).claimRead o region e) o core ((s.stepped core).claimAt o region) region tag e := by
  obtain ⟨hvalid, hcount⟩ := hin
  simp only [claimErr, claimRead, claimPas, claimAt] at herr
  simp only [issueClaim, seqInstr_running hrun, hon, hvalid, Nat.not_le.2 hcount, decide_false, Bool.not_true, Bool.or_self,
    Bool.false_eq_true, if_false, herr]
  rfl
end

/-! ### By the entry -/

section
variable {s m : State} {o : Op} {core a region tag : Nat} {e : MemErr}

theorem claimEntered_of_invalid (h : bitOn (m.natAt a 8) 0 = false) :
    s.claimEntered m o core a region tag e = m.stopPerm core 10 region := by
  simp [claimEntered, h]

variable (hvalid : bitOn (m.natAt a 8) 0 = true)
include hvalid

theorem claimEntered_of_new (hnew : ¬ m.Claimed o a region) :
    s.claimEntered m o core a region tag e = s.writeClaim m o core a region tag (m.claimEntry o tag) e := by
  have hguard : (!(m.ctx o.ctx).claims.contains region || m.natAt (a + 16) 8 != m.stepNum o.ctx
      || m.natAt (a + 24) 4 != m.get (Reg.RPL_STEP_ATTEMPT_ATTEMPT o.ctx)) = true := by
    by_contra hno
    exact hnew (by simpa [Claimed, and_assoc] using hno)
  simp only [claimEntered, hvalid, Bool.not_true, Bool.false_eq_true, if_false, hguard, if_true]

variable (hclaimed : m.Claimed o a region)
include hclaimed

theorem claimEntered_of_same (htag : m.natAt (a + 12) 2 = tag) : s.claimEntered m o core a region tag e = m := by
  obtain ⟨hlist, hstep, hatt⟩ := hclaimed
  simp only [claimEntered, hvalid, hlist, hstep, hatt, htag, bne_self_eq_false, beq_self_eq_true, Bool.not_true, Bool.or_self,
    Bool.false_eq_true, if_false, if_true]

theorem claimEntered_of_conflict (htag : m.natAt (a + 12) 2 ≠ tag) : s.claimEntered m o core a region tag e =
    (((m.bump Reg.RPL_GRAD_ALIAS_CNT_COUNT).mark Reg.RPL_STEP_EVENT_GRAD_ALIAS).raise
      (m.conflictRec o core a region tag)).endOp o stFaulted fGradAlias := by
  obtain ⟨hlist, hstep, hatt⟩ := hclaimed
  simp only [claimEntered, hvalid, hlist, hstep, hatt, beq_false_of_ne htag, bne_self_eq_false, Bool.not_true, Bool.or_self,
    Bool.false_eq_true, if_false]
end

/-! ### The write of a new claim -/

section
variable {s0 t u : State} {o : Op} {core a region tag : Nat} {bs : List Byte} {e : MemErr}

theorem writeClaim_of_ok (h : t.storeFor (.core core) o 1 core a (cellsAt (a + 12) bs) e = .ok u) :
    s0.writeClaim t o core a region tag bs e = u.modCtx o.ctx fun x => { x with
      claims := if x.claims.contains region then x.claims else region :: x.claims } := by
  simp only [writeClaim, h]

theorem writeClaim_of_stop (h : t.storeFor (.core core) o 1 core a (cellsAt (a + 12) bs) e = .stop u) :
    s0.writeClaim t o core a region tag bs e = u := by
  simp only [writeClaim, h]

theorem writeClaim_of_wait (h : t.storeFor (.core core) o 1 core a (cellsAt (a + 12) bs) e = .wait) :
    s0.writeClaim t o core a region tag bs e = (s0.waitShadow (.core core)).hold core (.claim region tag) := by
  simp only [writeClaim, h]
end

end State

/-- Settles O17: tracking, the region's table, the read of its entry and then the entry itself decide, each in its turn. -/
theorem gradientClaim : Obligations.GradientClaim := by
  intro core region tag e o s hrun t c a pas m tracked inRange inTable step att claimed entry store claim
  have hclaim {u : State} (h : s.issueClaim core region.toNat tag.toNat e = u) : claim = .next u := congrArg Host.Outcome.next h
  have hentry {u : State} (hon : tracked) (hin : inRange) (herr : m.readErr c pas e = .none)
      (h : s.claimEntered m o core a region.toNat tag.toNat e = u) : claim = .next u :=
    hclaim ((State.issueClaim_of_entry hrun hon hin herr).trans h)
  have herror {x : ReadErr} (hon : tracked) (hin : inRange) (herr : m.readErr c pas e = x) (hx : x ≠ .none) :
      claim = .next (m.readStop o (1, core) 1 x) := hclaim (State.issueClaim_of_error hrun hon hin herr hx)
  refine ⟨fun hoff => hclaim (State.issueClaim_of_untracked hrun hoff),
    fun hon hout => hclaim (State.issueClaim_of_outside hrun hon hout),
    fun hon hin _ herr => herror hon hin herr nofun, fun hon hin _ herr => herror hon hin herr nofun,
    fun hon hin _ herr => herror hon hin herr nofun,
    fun hon hin herr hinvalid => hentry hon hin herr (State.claimEntered_of_invalid hinvalid), ?new, ?same, ?conflict⟩
  case new =>
    intro hon ⟨hin, herr, hvalid⟩ hnew
    have hwrite {u : State} (h : s.writeClaim m o core a region.toNat tag.toNat entry e = u) : claim = .next u :=
      hentry hon hin herr ((State.claimEntered_of_new hvalid hnew).trans h)
    exact ⟨fun u h => hwrite (State.writeClaim_of_ok h), fun u h => hwrite (State.writeClaim_of_stop h),
      fun h => hwrite (State.writeClaim_of_wait h)⟩
  case same =>
    exact fun hon ⟨hin, herr, hvalid⟩ hclaimed htag => hentry hon hin herr (State.claimEntered_of_same hvalid hclaimed htag)
  case conflict =>
    exact fun hon ⟨hin, herr, hvalid⟩ hclaimed htag => ⟨m.conflictRec o core a region.toNat tag.toNat, rfl, rfl, rfl, rfl,
      rfl, rfl, hentry hon hin herr (State.claimEntered_of_conflict hvalid hclaimed htag)⟩

end Sys2Proof.Machine
end

section
/-! ## The descriptors of the engines -/
namespace Sys2Proof.Machine

/-! ### DMA (R148–R150, R185, R423) -/

section
variable {r : Fin 256} {e : MemErr} {part : Option Word} {o : Op} {s : State}

/-- The operation with which the engine of a ring goes on at a command over parts. -/
theorem inWork_filter_of_part {opc : Nat} (hpart : part ≠ some 0) (hwork : s.inWork r opc = some o) :
    (s.inWork r opc).filter (fun _ => somePart part) = some o := by
  simpa [hwork, somePart] using hpart

/-- Without work in hand, or with a number of 0, the engine issues. -/
theorem inWork_filter_of_fresh {opc : Nat} (hfresh : s.inWork r opc = none ∨ part = some 0) :
    (s.inWork r opc).filter (fun _ => somePart part) = none := by
  rcases hfresh with hnone | hpart
  · rw [hnone, Option.filter_none]
  · simp [somePart, hpart]

theorem execDma_of_work (hpart : part ≠ some 0) (hwork : s.inWork r 2 = some o) : execDma r e part s =
    .next ((s.engineOn.dmaOn o (o.work.getD {}) e part).fillTlb o.ctx (s.dmaVas o)).engineOff := by
  simp only [execDma, inWork_filter_of_part hpart hwork]

section
variable (hfresh : s.inWork r 2 = none ∨ part = some 0) (hready : s.ready r 2 = some o) (hheld : s.engineHeld o = false)
include hfresh hready hheld

theorem execDma_of_full (hfull : s.dieFull (dmaDies o) = true) :
    execDma r e part s = .next (s.mark Reg.SUB_EVENT_INFLIGHT_FULL) := by
  simp only [execDma, inWork_filter_of_fresh hfresh, hready, hheld, hfull, Bool.false_eq_true, if_false, if_true]

theorem execDma_of_room (hroom : s.dieFull (dmaDies o) = false) : execDma r e part s =
    .next ((s.engineOn.dmaIssue o e part).fillTlb o.ctx (s.dmaVas o)).engineOff := by
  simp only [execDma, inWork_filter_of_fresh hfresh, hready, hheld, hroom, Bool.false_eq_true, if_false]
end
end

/-- A run whose first part reaches the limit is that part. -/
theorem runParts_of_first {f : State → Nat → Nat → Stored} {next : Nat → Nat} {lim : Nat} {s u : State} (hlim : 0 < lim)
    (hnext : lim ≤ next 0) (h : f s 0 lim = .ok u) : runParts f next lim (1 + 1) s 0 = .go u lim := by
  simp only [runParts, Nat.not_le.2 hlim, min_eq_left hnext, h, le_refl, if_false, if_true]

theorem dmaUnits_of_block {n : Nat} (hpos : 0 < n) (hblock : n ≤ 4096) : dmaUnits n = 1 := by
  simp only [dmaUnits, ceilDiv]
  omega

namespace State
variable {s : State} {o : Op} {e : MemErr}

section
variable {shape : Option (List Byte)} (hpoison : s.shapePoison o = none) (hshape : s.shapeOf o = .ok shape)
  (part : Option Word)
include hpoison hshape

theorem dmaIssue_of_length (hlen : (s.dmaEnds o shape).1.bytes.length ≠ (s.dmaEnds o shape).2.bytes.length) :
    s.dmaIssue o e part = s.rejectRule o 2 (descBytes o.desc 40 8) := by
  simp only [dmaIssue, hpoison, hshape, bne_iff_ne.2 hlen, if_true]

variable (hlen : (s.dmaEnds o shape).1.bytes.length = (s.dmaEnds o shape).2.bytes.length)
include hlen

theorem dmaIssue_of_overlap (hover : s.endsOverlap o.ctx (s.dmaEnds o shape).1 (s.dmaEnds o shape).2 = true) :
    s.dmaIssue o e part = s.rejectRule o 10 (descBytes o.desc 32 8) := by
  simp only [dmaIssue, hpoison, hshape, hlen, bne_self_eq_false, hover, Bool.false_eq_true, if_false, if_true]

theorem dmaIssue_of_local (hover : s.endsOverlap o.ctx (s.dmaEnds o shape).1 (s.dmaEnds o shape).2 = false)
    (hsrc : (s.dmaEnds o shape).1.kind ≠ 2) (hdst : (s.dmaEnds o shape).2.kind ≠ 2)
    (hseal : s.sealBreach o.ctx (s.dmaEnds o shape).1 (s.dmaEnds o shape).2 = false) :
    s.dmaIssue o e part = (s.issue o (dmaDies o)).dmaRun o shape (s.dmaEnds o shape).1 (s.dmaEnds o shape).2 e part := by
  simp only [dmaIssue, hpoison, hshape, hlen, bne_self_eq_false, hover, beq_false_of_ne hsrc, beq_false_of_ne hdst, hseal,
    Bool.or_self, Bool.false_and, Bool.false_eq_true, if_false]
end

/-! #### A transfer of one block -/

section
variable {src dst : DmaEnd} {pas : List Nat} {u : State}

/-- A part that covers a local transfer to virtual addresses, and meets no error, is the read and the write of all its
bytes. -/
theorem dmaMove_whole (hdst : dst.kind = 0) {n : Nat} (hsrcLen : src.bytes.length ≤ n) (hdstLen : dst.bytes.length ≤ n)
    (hpas : s.endPas o.ctx src false = .ok pas) (hread : (s.meetRead o pas e).2 = .none)
    (hwrite : (s.meetRead o pas e).1.engineWrite o (dst.bytes.zip (pas.map (s.meetRead o pas e).1.paByte)) e = .ok u)
    (whole : Bool) : s.dmaMove o src dst whole 0 n e = .ok u := by
  have hengine : s.engineRead o pas e = .ok (pas.map (s.meetRead o pas e).1.paByte, (s.meetRead o pas e).1) := by
    simp only [engineRead, hread]
  simp only [dmaMove, List.drop_zero, List.take_of_length_le hsrcLen, List.take_of_length_le hdstLen, hpas, hengine, hdst,
    Nat.zero_ne_one, if_false, hwrite]

/-- A local transfer of at most one block of 4 KiB has one part. -/
theorem dmaLocal_of_block (hdst : dst.kind = 0) (hwork : o.work = none) (hlen : src.bytes.length = dst.bytes.length)
    (hpos : 0 < dst.bytes.length) (hblock : dst.bytes.length ≤ 4096) (hpas : s.endPas o.ctx src false = .ok pas)
    (hread : (s.meetRead o pas e).2 = .none)
    (hwrite : (s.meetRead o pas e).1.engineWrite { o with units := 0 }
      (dst.bytes.zip (pas.map (s.meetRead o pas e).1.paByte)) e = .ok u) (shape : Option (List Byte)) :
    s.dmaLocal o shape src dst e none =
      (u.modOp o.ring o.idx fun x => { x with units := 1, work := none }).finish o stDone 0 := by
  have hgranules : 0 < ceilDiv dst.bytes.length 64 ∧ ceilDiv dst.bytes.length 64 ≤ (0 / 64 + 1) * 64
      ∧ dst.bytes.length ≤ 64 * ceilDiv dst.bytes.length 64 := by
    simp only [ceilDiv]
    omega
  obtain ⟨hlim, hstep, hall⟩ := hgranules
  have hmove (whole : Bool) : s.dmaMove { o with units := 0 } src dst whole 0 (64 * ceilDiv dst.bytes.length 64) e = .ok u :=
    dmaMove_whole (o := { o with units := 0 }) hdst (hlen.trans_le hall) hall hpas hread hwrite whole
  have hrun (whole : Bool) := runParts_of_first (next := fun k => (k / 64 + 1) * 64)
    (f := fun t k j => t.dmaMove { o with units := k / 64 } src dst whole (64 * k) (64 * (j - k)) e) hlim hstep (hmove whole)
  have hstart : (o.work.getD {}).done = 0 := by rw [hwork]; rfl
  simp only [dmaLocal, hstart, partLimit, dmaUnits_of_block hpos hblock, hrun, if_true]

theorem dmaRun_of_local (hsrc : src.kind ≠ 2) (hdst : dst.kind ≠ 2) (shape : Option (List Byte)) (part : Option Word) :
    s.dmaRun o shape src dst e part = s.dmaLocal o shape src dst e part := by
  simp only [dmaRun, hsrc, hdst, if_false]
end

end State

/-! ### COLL (R287, R292–R300) -/

section
variable {r : Fin 256} {e : MemErr} {o : Op} {s : State}

theorem execColl_of_due {q : CollRun} (hdue : s.collDue r = some (o, q)) : execColl r e s =
    .next ((s.engineOn.collStep o q e).fillTlb o.ctx q.outVas).engineOff := by
  simp only [execColl, hdue]

section
variable (hdue : s.collDue r = none) (hready : s.ready r 3 = some o)
include hdue hready

theorem execColl_of_full (hfull : 32 ≤ s.collRunning) : execColl r e s = .next s := by
  simp only [execColl, hdue, hready, ge_iff_le, hfull, decide_true, Bool.true_or, if_true]

theorem execColl_of_room (hroom : s.collRunning < 32) (hheld : s.engineHeld o = false) : execColl r e s =
    .next ((s.engineOn.collIssue o e).fillTlb o.ctx (collVas o (s.group (descBytes o.desc 20 4)))).engineOff := by
  simp only [execColl, hdue, hready, ge_iff_le, Nat.not_le.2 hroom, decide_false, hheld, Bool.or_self, Bool.false_eq_true,
    if_false]
end

theorem State.collIssue_of_sound (hpoison : s.groupPoison (descBytes o.desc 20 4) (s.group (descBytes o.desc 20 4)) = none)
    (hgroup : s.groupOk (s.group (descBytes o.desc 20 4)) o.vcid = true)
    (hroutes : ∀ m ∈ s.collModules (s.group (descBytes o.desc 20 4)) (descBytes o.desc 16 1), routeValid (s.route m) = true)
    (hsealed : s.collSealed o (s.group (descBytes o.desc 20 4)) = false) :
    s.collIssue o e = (s.issue o 0).collStart o (s.group (descBytes o.desc 20 4)) e := by
  have hfind : (s.collModules (s.group (descBytes o.desc 20 4)) (descBytes o.desc 16 1)).find?
      (fun m => !routeValid (s.route m)) = none := List.find?_eq_none.2 fun m hm => by simp [hroutes m hm]
  simp only [collIssue, hpoison, hgroup, hfind, hsealed, Bool.not_true, Bool.false_and, Bool.false_eq_true, if_false]
end

/-! ### UPDATE (R320–R328) -/

/-- Work of a single part is that part. -/
theorem runWork_one {f : State → EngWork → Worked} {s t : State} {w v : EngWork} (h : f s w = .go t v) :
    runWork f 1 s w = .go t v := by
  simp only [runWork, h]

/-- A command without a number covers the one part of work that has one. -/
theorem partLimit_one {w : EngWork} (hstart : w.done = 0) : partLimit 1 w.done none - w.done = 1 := by
  rw [hstart]
  rfl

section
variable {r : Fin 256} {e : MemErr} {part : Option Word} {o : Op} {s : State}

theorem execUpdate_of_work (hpart : part ≠ some 0) (hwork : s.inWork r 7 = some o) : execUpdate r e part s =
    .next ((s.engineOn.updGo o e part (o.work.getD {})).fillTlb o.ctx (updVas o (updBlock (o.work.getD {}).block))).engineOff := by
  simp only [execUpdate, inWork_filter_of_part hpart hwork]

theorem execUpdate_of_ready (hfresh : s.inWork r 7 = none ∨ part = some 0) (hready : s.ready r 7 = some o)
    (hheld : s.engineHeld o = false) : execUpdate r e part s = .next (s.updStart o e part) := by
  simp only [execUpdate, inWork_filter_of_fresh hfresh, hready, hheld, Bool.false_eq_true, if_false]

namespace State

theorem get_issue (s : State) (o : Op) (dies : Nat) (f : Reg.Fld) : (s.issue o dies).get f = s.get f := rfl

theorem on_issue (s : State) (o : Op) (dies : Nat) (f : Reg.Fld) : (s.issue o dies).on f = s.on f := rfl

theorem updIssue_of_fresh {w : EngWork} (hmirror : ¬ (o.target = 1 ∧ (s.issue o 0).on Reg.RPL_MIR_CLIENT_VALID = true
      ∧ (s.issue o 0).get Reg.RPL_MIR_CLIENT_STATE = 2)) :
    s.updIssue o e part w = ((s.issue o 0).engineOn.updGo o e part w).engineOff :=
  if_neg (by simpa [and_assoc, get_issue, on_issue] using hmirror)

/-- An UPDATE whose block is aligned and well formed, by a rule that the block names no formula for, is issued with it. -/
theorem updStart_of_block {bs : List Byte} {t : State} (hread : s.updRead o (descBytes o.desc 40 8) 128 e = .ok (bs, t))
    (haligned : updAligned o (updBlock bs) = true) (hblock : updBlockOk o (updBlock bs) = true) (hrule : o.rule ≠ 4) :
    s.updStart o e part = t.updIssue o e part { block := bs } := by
  simp only [updStart, hread, haligned, hblock, bne_iff_ne.2 hrule, Bool.not_true, Bool.false_eq_true, if_false, if_true]

/-- An UPDATE of 128 elements is done after its one group. -/
theorem updGo_of_group {t : State} {w v : EngWork} (hcount : updCount o = 128) (hstart : w.done = 0) (hend : v.done = 1)
    (hgroup : s.updGroup o (updBlock w.block) e w = .go t v) :
    s.updGo o e none w = t.updDone o (updBlock w.block) e v := by
  have hrun := runWork_one (f := fun t v => t.updGroup o (updBlock w.block) e v) hgroup
  simp only [updGo, hcount, Nat.reduceDiv, partLimit_one hstart, hrun, hend, if_true]

theorem updDone_of_no_result {b : UpdBlock} {v : EngWork} (hend : v.done = 1) (hresult : b.result = 0) :
    s.updDone o b e v =
      (s.modOp o.ring o.idx fun q => { q with units := 1, work := none }).finish { o with units := 1 } stDone 0 := by
  simp only [updDone, hresult, hend, if_true]

end State

/-! ### DIGEST (R353, R354) -/

theorem execDigest_of_work (hpart : part ≠ some 0) (hwork : s.inWork r 8 = some o) :
    execDigest r e part s = .next (s.digestGo o e part (o.work.getD {})) := by
  simp only [execDigest, inWork_filter_of_part hpart hwork]

theorem execDigest_of_ready (hfresh : s.inWork r 8 = none ∨ part = some 0) (hready : s.ready r 8 = some o)
    (hheld : s.engineHeld o = false) : execDigest r e part s = .next ((s.issue o 0).digestGo o e part {}) := by
  simp only [execDigest, inWork_filter_of_fresh hfresh, hready, hheld, Bool.false_eq_true, if_false]

namespace State

/-- What a DIGEST of one page writes: the digest of the page's hash. -/
def digestOut (o : Op) (v : EngWork) : List (Nat × Byte) :=
  (digestBytes (digestOf v.hashes)).mapIdx fun k b => (descBytes o.desc 40 8 + k, b)

theorem digestEnd_of_written {u : State} {v : EngWork} (hend : v.done = 1)
    (hwrite : (s.modOp o.ring o.idx fun q => { q with units := 1, work := none }).engineWrite { o with units := 1 }
      (digestOut o v) e = .ok u) : s.digestEnd o e v = u.finish { o with units := 1 } stDone 0 := by
  simp only [digestOut] at hwrite
  simp only [digestEnd, hend, hwrite]

/-- A DIGEST of one page writes its digest after that page. -/
theorem digestGo_of_page {t : State} {w v : EngWork} (hcount : descBytes o.desc 32 8 = 1) (hstart : w.done = 0)
    (hend : v.done = 1) (hpage : s.digestPage o e w = .go t v) : s.digestGo o e none w = t.digestEnd o e v := by
  have hrun := runWork_one (f := fun t v => t.digestPage o e v) hpage
  simp only [digestGo, hcount, partLimit_one hstart, hrun, hend, if_true]

end State
end

/-- Settles O37, engine by engine. The work done in one command, the REASON and the overlap of a DMA and COLL's unstated points
are the model's choices (log entries 41 to 43); the block of an UPDATE is checked as deduced (log entry 44). -/
theorem engineDescriptors : Obligations.EngineDescriptors := by
  intro r e part o s x fresh dma coll
  refine ⟨execDma_of_work, fun hfresh hready hheld => ⟨execDma_of_full hfresh hready hheld, execDma_of_room hfresh hready hheld⟩,
    fun shape hpoison hshape => ⟨State.dmaIssue_of_length hpoison hshape part, State.dmaIssue_of_overlap hpoison hshape part,
      fun hlen hover hsrc hdst hseal => State.dmaIssue_of_local hpoison hshape part hlen hover hsrc hdst hseal⟩,
    ?move, fun hdue hready => ⟨execColl_of_full hdue hready, execColl_of_room hdue hready⟩, State.collIssue_of_sound,
    fun q => execColl_of_due, ?update, execUpdate_of_work,
    fun y t w v hcount hstart hend hgroup => ⟨State.updGo_of_group hcount hstart hend hgroup, State.updDone_of_no_result hend⟩,
    execDigest_of_ready, execDigest_of_work, ?digest⟩
  case move =>
    intro y u shape src dst pas hsrc hdst hwork hlen hpos hblock hpas z hread hwrite
    have hlocal : dst.kind ≠ 2 := by omega
    exact (State.dmaRun_of_local hsrc hlocal shape none).trans
      (State.dmaLocal_of_block hdst hwork hlen hpos hblock hpas hread hwrite shape)
  case update =>
    intro bs s1 hfresh hready hheld hread haligned hblock hrule hmirror
    exact (execUpdate_of_ready hfresh hready hheld).trans (congrArg Host.Outcome.next
      ((State.updStart_of_block hread haligned hblock hrule).trans (State.updIssue_of_fresh hmirror)))
  case digest =>
    intro y t u w v hcount hstart hend hpage out hwrite
    exact (State.digestGo_of_page hcount hstart hend hpage).trans (State.digestEnd_of_written hend hwrite)

end Sys2Proof.Machine
end

section
/-! ## The upkeep of the memories -/
namespace Sys2Proof

theorem bitOn_toNat {n : Nat} (v : BitVec n) (i : Nat) : bitOn v.toNat i = v.getLsbD i := by
  rw [bitOn, BitVec.getLsbD, Nat.testBit_eq_decide_div_mod_eq, beq_eq_decide]

namespace Machine

/-! ### Row repair (R159–R161) -/

section
variable {s : State} {t0 : Nat}

section
variable (hgo : s.memx.repairGo = some t0) (htick : t0 < s.now)
include hgo htick

theorem execRepairStart_of_no_spare (hspare : s.spares (memOf s.repairChunk) = 0) : execRepairStart s = .next
    ((((s.mark Reg.MEM_REPAIR_STATUS_NO_SPARE).mark Reg.MEM_EVENT_REPAIR_FAIL).put Reg.MEM_REPAIR_CTRL_GO 0).modMem fun x =>
      { x with repairGo := none, retireDue := insertSorted (s.repairChunk / 65536 * 65536) x.retireDue }) := by
  simp only [execRepairStart, hgo, Nat.not_le.2 htick, hspare, if_false, if_true]

theorem execRepairStart_of_spare (hspare : s.spares (memOf s.repairChunk) ≠ 0) : execRepairStart s = .next
    ((((s.mark Reg.MEM_REPAIR_STATUS_BUSY).mark Reg.MEM_STATUS_REPAIR_BUSY).put Reg.MEM_REPAIR_STATUS_STALL 0).modMem
      fun x => { x with repairGo := none, repair := some (s.repairChunk, s.now) }) := by
  simp only [execRepairStart, hgo, Nat.not_le.2 htick, hspare, if_false]
end

theorem execRepairDone_of_due {a : Nat} (hrepair : s.memx.repair = some (a, t0)) (htick : t0 + 3 ≤ s.now) (stalls : BitVec 16) :
    execRepairDone stalls s = .next
      (((((((s.put Reg.MEM_REPAIR_STATUS_BUSY 0).put Reg.MEM_STATUS_REPAIR_BUSY 0).put Reg.MEM_REPAIR_CTRL_GO 0).mark
        Reg.MEM_REPAIR_STATUS_DONE).mark Reg.MEM_EVENT_REPAIR_DONE).put Reg.MEM_REPAIR_STATUS_STALL stalls.toNat).setSpares
          (memOf a) (s.spares (memOf a) - 1) |>.modMem fun x => { x with repair := none, repaired := x.repaired ++ [a] }) := by
  simp only [execRepairDone, hrepair, Nat.not_lt.2 htick, if_false]
end

namespace State
variable {s : State}

theorem get_modMem (s : State) (m : MemSt → MemSt) (f : Reg.Fld) : (s.modMem m).get f = s.get f := rfl

theorem fwOnly_firmware (s : State) (f : State → State) : s.fwOnly .firmware f = f s := rfl

/-- A write of MEM_REPAIR_CTRL names a chunk (R164). -/
def repairNamed (s : State) (v : Nat) : State :=
  (s.put Reg.MEM_REPAIR_CTRL_PAGE (bitsOf v 0 24)).put Reg.MEM_REPAIR_CTRL_CHUNK (bitsOf v 24 6)

/-- GO clears the outcome of the repair before it (R159). -/
def repairCleared (s : State) : State := (s.put Reg.MEM_REPAIR_STATUS_DONE 0).put Reg.MEM_REPAIR_STATUS_NO_SPARE 0

theorem writeRepairCtrl_of_go {v : Nat} (hv : bitOn v 31 = true) (hbusy : s.on Reg.MEM_REPAIR_STATUS_BUSY = false)
    (hidle : s.memx.repairGo = none) : s.writeRepairCtrl v =
      ((s.repairNamed v).repairCleared.mark Reg.MEM_REPAIR_CTRL_GO).modMem fun x => { x with repairGo := some s.now } := by
  simp only [writeRepairCtrl, hv, hbusy, hidle, Option.isNone_none, Bool.not_false, Bool.and_self, if_true]
  rfl

theorem repairCleared_canon (h : s.canon = true) : s.repairCleared.canon = true := put_canon (put_canon h ..) ..

theorem get_repairCleared_of_ctrl (h : s.canon = true) {f : Reg.Fld} (hreg : f.reg = Reg.MEM_REPAIR_CTRL) :
    s.repairCleared.get f = s.get f := by
  have hne : f.reg ≠ Reg.MEM_REPAIR_STATUS := by rw [hreg]; decide
  exact (get_put_ne (put_canon h ..) 0 hne).trans (get_put_ne h 0 hne)

section
variable (h : s.canon = true) (v : Nat)
include h

theorem repairNamed_canon : (s.repairNamed v).canon = true := put_canon (put_canon h ..) ..

theorem repairNamed_page : (s.repairNamed v).get Reg.MEM_REPAIR_CTRL_PAGE = v % 2 ^ 24 := by
  have hpage : (s.repairNamed v).get Reg.MEM_REPAIR_CTRL_PAGE =
      (s.put Reg.MEM_REPAIR_CTRL_PAGE (bitsOf v 0 24)).get Reg.MEM_REPAIR_CTRL_PAGE :=
    get_put_below (put_canon h ..) _ (by decide) rfl (by decide)
  rw [hpage, get_put_same h _ (by decide), bitsOf_zero_lo]
  exact Nat.mod_mod ..

theorem repairNamed_chunk : (s.repairNamed v).get Reg.MEM_REPAIR_CTRL_CHUNK = v / 2 ^ 24 % 64 := by
  rw [repairNamed, get_put_same (put_canon h ..) _ (by decide)]
  exact Nat.mod_mod ..

theorem get_repairAsked_go : ((s.repairNamed v).repairCleared.mark Reg.MEM_REPAIR_CTRL_GO).get Reg.MEM_REPAIR_CTRL_GO = 1 :=
  get_mark_same (repairCleared_canon (repairNamed_canon h v)) (by decide) rfl

/-- GO lies above the name of the chunk, which it leaves. -/
theorem get_repairAsked_of_below {f : Reg.Fld} (hreg : f.reg = Reg.MEM_REPAIR_CTRL) (hbelow : f.lo + f.w ≤ 31) :
    ((s.repairNamed v).repairCleared.mark Reg.MEM_REPAIR_CTRL_GO).get f = (s.repairNamed v).get f :=
  (get_put_below (repairCleared_canon (repairNamed_canon h v)) 1 (by decide) hreg hbelow).trans
    (get_repairCleared_of_ctrl (repairNamed_canon h v) hreg)
end

/-! ### Translation invalidation (R142) -/

theorem writeXlatInval_of_go {v : Nat} (hv : bitOn v 7 = true) (hbusy : s.on Reg.MEM_XLAT_INVAL_BUSY = false) :
    s.writeXlatInval v = ((s.mark Reg.MEM_XLAT_INVAL_BUSY).mark Reg.MEM_STATUS_XLAT_BUSY).modMem fun x =>
      { x with inval := some (if bitOn v 6 then none else some (bitsOf v 0 6)) } := by
  simp only [writeXlatInval, hv, hbusy, Bool.not_false, Bool.and_self, if_true]
end State

/-- What the end of an invalidation leaves of the translations and of the pages to retire. -/
def MemSt.invalidated (x : MemSt) : MemSt :=
  { x with
    tlb := match x.inval with
      | some (some c) => x.tlb.filter fun e => e.ctx != c
      | some none => []
      | none => x.tlb
    inval := none
    retired := x.retireDue.foldl (fun l p => insertSorted p l) x.retired
    retireDue := [] }

theorem execMemXlatDone_eq (s : State) : execMemXlatDone s =
    .next (((s.put Reg.MEM_XLAT_INVAL_BUSY 0).put Reg.MEM_STATUS_XLAT_BUSY 0).modMem MemSt.invalidated) := rfl

theorem MemSt.invalidated_of_context {x : MemSt} {c : Nat} (h : x.inval = some (some c)) :
    x.invalidated.tlb = x.tlb.filter fun e => e.ctx != c := by
  simp only [invalidated, h]

theorem MemSt.invalidated_of_all {x : MemSt} (h : x.inval = some none) : x.invalidated.tlb = [] := by
  simp only [invalidated, h]

/-! ### Refresh (R153) -/

theorem refreshNext_thresholds (θ : Nat) : (85 < θ → θ ≤ 95 → refreshNext 0 θ = 1) ∧ (95 < θ → refreshNext 0 θ = 2)
    ∧ (θ ≤ 85 → refreshNext 0 θ = 0) ∧ (θ < 82 → refreshNext 1 θ = 0) ∧ (92 ≤ θ → refreshNext 2 θ = 2) := by
  refine ⟨fun hlo hhi => ?_, fun hlo => if_pos hlo, fun hhi => ?_, fun hhi => ?_, fun hlo => if_pos hlo⟩
  · exact (if_neg (by omega)).trans (if_pos hlo)
  · exact (if_neg (by omega)).trans (if_neg (by omega))
  · exact (if_neg (by omega)).trans (if_neg (by omega))

/-! ### Scrub and the counts of corrected errors (R156, R158) -/

/-- What a scrub read makes of its result. -/
def State.scrubbed (s : State) (pa : Nat) : ReadResult → State
  | .clean => s
  | .corrected => s.correctedErr pa none
  | .uncorrectable => s.markUe pa none

theorem execScrubRead_of_read {s : State} {g : BitVec 34} (hen : s.on Reg.MEM_CTRL_SCRUB_EN = true)
    (hexists : paExists (g.toNat * 64) = true) (hmem : memOf (g.toNat * 64) ≠ 9) (result : ReadResult) :
    execScrubRead g result s = .next (s.scrubbed (g.toNat * 64) result) := by
  simp only [execScrubRead, hen, hexists, hmem, Bool.not_true, decide_false, Bool.or_self, Bool.false_eq_true, if_false]
  cases result <;> rfl

theorem execCeWindowExpire_of_due {s : State} {g : BitVec 34}
    (hcount : (sget (fun _ => (0, 0)) s.memx.ceCount (chunkOf (g.toNat * 64))).1 ≠ 0)
    (hday : (sget (fun _ => (0, 0)) s.memx.ceCount (chunkOf (g.toNat * 64))).2 + dayTicks ≤ s.now) :
    execCeWindowExpire g s = .next (s.modMem fun x =>
      { x with ceCount := sset (fun _ => (0, 0)) x.ceCount (chunkOf (g.toNat * 64)) (0, 0) }) := by
  simp only [execCeWindowExpire, hcount, Nat.not_lt.2 hday, decide_false, Bool.or_self, Bool.false_eq_true, if_false]

/-- Settles O42, command by command. That a failed repair's page is retired at the end of an invalidation is the model's choice
(log entry 129). -/
theorem memoryUpkeep : Obligations.MemoryUpkeep := by
  intro v stalls mem temp g s pa
  refine ⟨fun _ => execRepairStart_of_no_spare, fun _ => execRepairStart_of_spare,
    fun _ _ hrepair htick => execRepairDone_of_due hrepair htick stalls, rfl, refreshNext_thresholds,
    fun hen hexists hmem => ⟨execScrubRead_of_read hen hexists hmem .clean, execScrubRead_of_read hen hexists hmem .corrected,
      execScrubRead_of_read hen hexists hmem .uncorrectable⟩, execCeWindowExpire_of_due, ?inval, ?go,
    MemSt.invalidated, execMemXlatDone_eq s, fun c => MemSt.invalidated_of_context, MemSt.invalidated_of_all, rfl, rfl, rfl⟩
  case inval =>
    intro hgo hbusy
    have hwrite := State.writeXlatInval_of_go ((bitOn_toNat v 7).trans hgo) hbusy
    rw [bitOn_toNat, bitsOf_zero_lo] at hwrite
    exact congrArg Host.Outcome.next ((State.fwOnly_firmware s _).trans hwrite)
  case go =>
    intro hgo hbusy h hidle
    have hwrite := State.writeRepairCtrl_of_go ((bitOn_toNat v 31).trans hgo) hbusy hidle
    refine ⟨_, congrArg Host.Outcome.next ((State.fwOnly_firmware s _).trans hwrite), ?_, rfl, ?_, ?_⟩ <;> rw [State.get_modMem]
    · exact State.get_repairAsked_go h _
    · rw [State.get_repairAsked_of_below h _ rfl (by decide), State.repairNamed_page h]
    · rw [State.get_repairAsked_of_below h _ rfl (by decide), State.repairNamed_chunk h]

end Machine
end Sys2Proof
end

section
/-! ## What reset leaves -/
namespace Sys2Proof.Machine
namespace State

theorem get_reset (f : Reg.Fld) : reset.get f = bitsOf (Reg.resetOf f.reg).toNat f.lo f.w := rfl

/-- No byte is listed at reset, in memory or in a core's scratchpad. -/
theorem byteAt_reset (a : Nat) : reset.byteAt a = 0 := by
  unfold byteAt
  split <;> rfl

end State

/-- A range taken sixteen by sixteen. -/
theorem forall_lt_256 {P : Nat → Prop} (h : ∀ i < 16, ∀ j < 16, P (16 * i + j)) : ∀ r < 256, P r := fun r hr =>
  Nat.div_add_mod r 16 ▸ h (r / 16) (by omega) (r % 16) (by omega)

/-- Settles O3: a register reads its reset value, which its row in the register tables gives. -/
theorem resetValues : Obligations.ResetValues := by
  refine ⟨by decide, by decide, by decide, ?duty, ?ctx, ?ring, State.byteAt_reset, rfl, rfl⟩
  case duty => decide
  case ctx => decide
  case ring => exact forall_lt_256 (by decide)

end Sys2Proof.Machine
end

section
/-! ## The parties of a command -/
namespace Sys2Proof.Machine

theorem State.fwOnly_denied {p : Party} (h : p.fw = false) (s : State) (f : State → State) :
    s.fwOnly p f = s.mark Reg.SUB_EVENT_HOST_DENIED := by
  simp only [fwOnly, h, Bool.false_eq_true, if_false]

/-- A control processor that a debug session has halted makes no access without a single step (R464). -/
theorem State.byCp_of_halted {s : State} {k : Fin 8} (hhalted : s.sec.halted.contains k.val = true)
    (hsteps : sget (fun _ => 0) s.sec.cpSteps k.val = 0) (f : State → State) : s.byCp (.cp k) f = s := by
  simp only [byCp, hhalted, hsteps, Bool.not_true, Bool.false_eq_true, if_false, if_true]

/-- Settles O48: each of the commands is a write for firmware only. -/
theorem otherPartiesAreDenied : Obligations.OtherPartiesAreDenied := by
  intro p c b cart v ans st s hp i hi
  have hdenied (f : State → State) : Host.Outcome.next (s.fwOnly p f) = .next (s.mark Reg.SUB_EVENT_HOST_DENIED) :=
    (congrArg Host.Outcome.next (State.fwOnly_denied hp s f) : (_ : Host.Outcome State Fault Refusal) = _)
  simp only [List.mem_cons, List.not_mem_nil, or_false] at hi
  rcases hi with rfl | rfl | rfl | rfl | rfl | rfl | rfl | rfl | rfl | rfl | rfl | rfl | rfl | rfl | rfl | rfl | rfl | rfl
    | rfl | rfl | rfl | rfl | rfl | rfl | rfl | rfl | rfl | rfl | rfl | rfl | rfl | rfl | rfl <;> exact hdenied _

end Sys2Proof.Machine
end

section
/-! ## Mailboxes -/
namespace Sys2Proof.Machine

section
variable {q : List (Nat × Nat)} (w : Nat × Nat)

theorem pushWord_of_room (h : q.length < 8) : pushWord q w = (q ++ [w], false) := if_neg (Nat.not_le.2 h)

theorem pushWord_of_full (h : q.length = 8) : pushWord q w = (q.dropLast ++ [w], true) := by
  rw [List.dropLast_eq_take, h]
  exact if_pos h.ge
end

namespace State
variable {s : State} {n : Nat} (w : Nat)

section
variable {who : Nat} (hwho : who = s.get (Reg.MBX_CH_CFG_E0 n))
include hwho

theorem mbxTx_e0_of_room (hroom : (s.chan n).to1.length < 8) : s.mbxTx who n w =
    (s.setChan n { s.chan n with to1 := (s.chan n).to1 ++ [(w, who)], collCnt := min 65535 (s.chan n).collCnt }).mbxWake n
      (s.get (Reg.MBX_CH_CFG_E1 n)) := by
  simp [mbxTx, hwho, pushWord_of_room _ hroom, satAdd, b2n]

theorem mbxTx_e0_of_full (hfull : (s.chan n).to1.length = 8) : s.mbxTx who n w =
    (s.setChan n { s.chan n with
      to1 := (s.chan n).to1.dropLast ++ [(w, who)], coll1 := true, collCnt := min 65535 ((s.chan n).collCnt + 1) }).mbxWake n
      (s.get (Reg.MBX_CH_CFG_E1 n)) := by
  simp [mbxTx, hwho, pushWord_of_full _ hfull, satAdd, b2n]
end

section
variable {who : Nat} (hne : who ≠ s.get (Reg.MBX_CH_CFG_E0 n))
include hne

section
variable (hwho : who = s.get (Reg.MBX_CH_CFG_E1 n))
include hwho

theorem mbxTx_e1_of_room (hroom : (s.chan n).to0.length < 8) : s.mbxTx who n w =
    (s.setChan n { s.chan n with to0 := (s.chan n).to0 ++ [(w, who)], collCnt := min 65535 (s.chan n).collCnt }).mbxWake n
      (s.get (Reg.MBX_CH_CFG_E0 n)) := by
  simp [mbxTx, beq_false_of_ne hne, beq_iff_eq.2 hwho, pushWord_of_room _ hroom, satAdd, b2n]

theorem mbxTx_e1_of_full (hfull : (s.chan n).to0.length = 8) : s.mbxTx who n w =
    (s.setChan n { s.chan n with
      to0 := (s.chan n).to0.dropLast ++ [(w, who)], coll0 := true, collCnt := min 65535 ((s.chan n).collCnt + 1) }).mbxWake n
      (s.get (Reg.MBX_CH_CFG_E0 n)) := by
  simp [mbxTx, beq_false_of_ne hne, beq_iff_eq.2 hwho, pushWord_of_full _ hfull, satAdd, b2n]
end

theorem mbxTx_foreign (hne1 : who ≠ s.get (Reg.MBX_CH_CFG_E1 n)) :
    s.mbxTx who n w = (s.mark Reg.MBX_EVENT_FOREIGN).bump Reg.MBX_FOREIGN_CNT_COUNT := by
  simp only [mbxTx, beq_false_of_ne hne, beq_false_of_ne hne1, Bool.false_eq_true, if_false]
end

/-! ### The wake (R204) -/

theorem mbxWake_host_of_due (hen : s.on (Reg.MBX_CH_WAKE_IRQ_EN n) = true) (hsent : (s.chan n).irqSent = false) :
    s.mbxWake n 0x1000 = (s.emit (.msix (256 + n))).setChan n { s.chan n with irqSent := true } := by
  simp only [mbxWake, hen, hsent, beq_self_eq_true, Bool.not_false, Bool.and_self, if_true]
  rfl

theorem mbxWake_host_of_quiet (h : s.on (Reg.MBX_CH_WAKE_IRQ_EN n) = false ∨ (s.chan n).irqSent = true) :
    s.mbxWake n 0x1000 = s := by
  rcases h with h | h <;> simp [mbxWake, h]

theorem mbxWake_other {e : Nat} (he : e ≠ 0x1000) : s.mbxWake n e = s.emit (.wake e) := by
  simp only [mbxWake, beq_false_of_ne he, Bool.false_eq_true, if_false]

end State

/-! ### RX (R203) -/

section
variable {who : BitVec 16} {ch : Fin 32} {s : State}

section
variable (hwho : who.toNat = s.get (Reg.MBX_CH_CFG_E0 ch))
include hwho

theorem execMbxRx_e0_of_word {w sender : Nat} {rest : List (Nat × Nat)} (hq : (s.chan ch).to0 = (w, sender) :: rest) :
    execMbxRx who ch s = .next ((s.setChan ch { s.chan ch with to0 := rest, stamp0 := sender }).answer (BitVec.ofNat 32 w)) := by
  simp only [execMbxRx, beq_iff_eq.2 hwho, if_true, hq]

theorem execMbxRx_e0_of_empty (hq : (s.chan ch).to0 = []) :
    execMbxRx who ch s = .next ((s.setChan ch { s.chan ch with stamp0 := 0 }).answer 0) := by
  simp only [execMbxRx, beq_iff_eq.2 hwho, if_true, hq]
end

section
variable (hne : who.toNat ≠ s.get (Reg.MBX_CH_CFG_E0 ch))
include hne

section
variable (hwho : who.toNat = s.get (Reg.MBX_CH_CFG_E1 ch))
include hwho

theorem execMbxRx_e1_of_word {w sender : Nat} {rest : List (Nat × Nat)} (hq : (s.chan ch).to1 = (w, sender) :: rest) :
    execMbxRx who ch s = .next ((s.setChan ch { s.chan ch with to1 := rest, stamp1 := sender }).answer (BitVec.ofNat 32 w)) := by
  simp only [execMbxRx, beq_false_of_ne hne, beq_iff_eq.2 hwho, Bool.false_eq_true, if_false, if_true, hq]

theorem execMbxRx_e1_of_empty (hq : (s.chan ch).to1 = []) :
    execMbxRx who ch s = .next ((s.setChan ch { s.chan ch with stamp1 := 0 }).answer 0) := by
  simp only [execMbxRx, beq_false_of_ne hne, beq_iff_eq.2 hwho, Bool.false_eq_true, if_false, if_true, hq]
end

theorem execMbxRx_foreign (hne1 : who.toNat ≠ s.get (Reg.MBX_CH_CFG_E1 ch)) : execMbxRx who ch s = .next (s.answer 0) := by
  simp only [execMbxRx, beq_false_of_ne hne, beq_false_of_ne hne1, Bool.false_eq_true, if_false]
end
end

/-- Settles O10: which endpoint writes or reads decides the queue, and its length what becomes of a word. -/
theorem mailboxes : Obligations.Mailboxes := by
  refine ⟨?tx, fun who ch s => ⟨fun w sender rest hwho => execMbxRx_e0_of_word hwho,
    execMbxRx_e0_of_empty, fun w sender rest hwho hne => execMbxRx_e1_of_word hne hwho,
    fun hwho hne => execMbxRx_e1_of_empty hne hwho, execMbxRx_foreign⟩⟩
  case tx =>
    intro who ch w s x e0 e1
    have htx {t : State} (h : s.mbxTx who.toNat ch w.toNat = t) : exec (.mbxTx who ch w) s = .next t :=
      congrArg Host.Outcome.next h
    have hother (h1 : who.toNat = e1) (hne : e0 ≠ e1) : who.toNat ≠ e0 := h1 ▸ hne.symm
    exact ⟨fun hwho hroom => htx (State.mbxTx_e0_of_room _ hwho hroom), fun hwho hfull => htx (State.mbxTx_e0_of_full _ hwho hfull),
      fun hwho hne hroom => htx (State.mbxTx_e1_of_room _ (hother hwho hne) hwho hroom),
      fun hwho hne hfull => htx (State.mbxTx_e1_of_full _ (hother hwho hne) hwho hfull),
      fun hne hne1 => htx (State.mbxTx_foreign _ hne hne1),
      fun n t => State.mbxWake_host_of_due, fun n t => State.mbxWake_host_of_quiet, fun n e t => State.mbxWake_other⟩

end Sys2Proof.Machine
end

section
/-! ## Reads after a write where no canonical form is known -/
namespace Sys2Proof

section
variable {β : Type} [DecidableEq β] {d : Nat → β} {m : Sparse β} {k j : Nat} {v : β}

/-- A write leaves what a key above the one written holds, whatever the form of the map. -/
theorem sget_sset_above (hj : k < j) : sget d (sset d m k v) j = sget d m j := by
  have hne : j ≠ k := hj.ne'
  have hnlt : ¬ j < k := hj.not_gt
  induction m with
  | nil =>
    unfold sset
    split
    · rfl
    · simp only [sget, hne, hnlt, if_false]
  | cons e m ih =>
    obtain ⟨a, w⟩ := e
    unfold sset
    split
    · split
      · rfl
      · simp only [sget, hne, hnlt, if_false]
    · split
      · next heq =>
        subst heq
        split <;> simp only [sget, hne, hnlt, if_false]
      · simp only [sget, ih]

/-- A write of another value than the default leaves what every other key holds, whatever the form of the map. -/
theorem sget_sset_of_ne_default (hv : v ≠ d k) (hj : j ≠ k) : sget d (sset d m k v) j = sget d m j := by
  rcases Nat.lt_or_gt_of_ne hj with hlt | hgt
  · induction m with
    | nil => simp only [sset, hv, sget, hj, hlt, if_false, if_true]
    | cons e m ih =>
      obtain ⟨a, w⟩ := e
      unfold sset
      split
      · next hka => simp only [sget, hj, hlt, (hlt.trans hka).ne, hlt.trans hka, if_false, if_true]
      · split
        · next heq =>
          subst heq
          simp only [sget, hj, hlt, if_false, if_true]
        · simp only [sget, ih]
  · exact sget_sset_above hgt

/-- A listed key hides what lies behind it: a write to a key above it leaves what every key below it holds. -/
theorem sget_sset_behind {a : Nat} (hlisted : sget d m a ≠ d a) (hak : a < k) (hja : j < a) :
    sget d (sset d m k v) j = sget d m j := by
  induction m with
  | nil => exact absurd rfl hlisted
  | cons e m ih =>
    obtain ⟨b, w⟩ := e
    by_cases hba : b ≤ a
    · have hkb : ¬ k < b := by omega
      have hkeq : k ≠ b := by omega
      simp only [sset, hkb, hkeq, if_false, sget]
      split
      · rfl
      split
      · rfl
      · have htail : sget d m a ≠ d a := by
          have hane : a ≠ b := by omega
          simpa only [sget, hane, Nat.not_lt.2 hba, if_false] using hlisted
        exact ih htail
    · have hane : a ≠ b := by omega
      have halt : a < b := by omega
      simp [sget, hane, halt] at hlisted
end

theorem word_put_ne_zero (old : Word) {f : Reg.Fld} {v lo w : Nat} (hf : f.lo + f.w ≤ 32)
    (hv : bitsOf (setBits old.toNat f.lo f.w v) lo w ≠ 0) : BitVec.ofNat 32 (setBits old.toNat f.lo f.w v) ≠ 0 := by
  intro hzero
  apply hv
  rw [← Machine.setBits_word old hf v, hzero]
  simp [bitsOf]

namespace Machine
namespace State
variable {s : State} {f g : Reg.Fld} {v : Nat}

theorem get_put_of_above (h : f.reg < g.reg) : (s.put f v).get g = s.get g := by
  simp only [get, reg, put, setReg, sget_sset_above h]

theorem get_put_of_word (hv : BitVec.ofNat 32 (setBits (s.reg f.reg).toNat f.lo f.w v) ≠ Reg.resetOf f.reg)
    (hne : g.reg ≠ f.reg) : (s.put f v).get g = s.get g := by
  simp only [get, reg, put, setReg] at hv ⊢
  rw [sget_sset_of_ne_default hv hne]

theorem get_put_behind {a : Nat} (hlisted : s.reg a ≠ Reg.resetOf a) (hf : a < f.reg) (hg : g.reg < a) :
    (s.put f v).get g = s.get g := by
  simp only [get, reg, put, setReg] at hlisted ⊢
  rw [sget_sset_behind hlisted hf hg]

end State
end Machine
end Sys2Proof
end

section
/-! ## The end of a LAUNCH -/
namespace Sys2Proof.Machine
namespace State
variable {t : State} {q : Op} (hop : t.op? q.ring q.idx = some q)
include hop

theorem launchCheck_of_over (hopc : q.opc = 1) (hissued : q.issued = true) (hfin : q.fin = none) (hcores : q.coresLeft = [])
    (hremote : q.remote = 0) : t.launchCheck q.ring q.idx =
      t.finish q (if q.noticed then stNotice else stDone) (if q.noticed then fExactRange else 0) := by
  simp [launchCheck, hop, hopc, hissued, hfin, hcores, hremote]

theorem launchCheck_of_running (h : q.coresLeft ≠ [] ∨ q.remote ≠ 0) : t.launchCheck q.ring q.idx = t := by
  rcases h with h | h <;> simp [launchCheck, hop, h]

end State

/-- Settles O16, by the law of an instruction of a core that runs a LAUNCH. -/
theorem launchEndsOnACore : Obligations.LaunchEndsOnACore := fun _ _ _ hrun =>
  ⟨congrArg Host.Outcome.next (State.seqInstr_running hrun _), fun _ _ => State.launchCheck_of_over,
    fun _ _ => State.launchCheck_of_running⟩

end Sys2Proof.Machine
end

section
/-! ## Descriptors that are rejected -/
namespace Sys2Proof.Machine
namespace State
variable {s : State} {r : Nat} {d : Descriptor}

theorem rejectReason_of_opcode (h : descBytes d 0 1 = 0 ∨ 13 < descBytes d 0 1) : s.rejectReason r d = some (2, 0) :=
  if_pos (by rcases h with h | h <;> simp [h])

theorem rejectReason_of_flags (h : flagsOk d = false) : s.rejectReason r d = some (2, 0) := if_pos (by simp [h])

theorem rejectReason_of_reserved {q : Nat × Nat} (hq : q ∈ reservedBytes (descBytes d 0 1)) (h : descBytes d q.1 q.2 ≠ 0) :
    s.rejectReason r d = some (2, 0) := by
  have hall : ((reservedBytes (descBytes d 0 1)).all fun q => dZero d q.1 q.2) = false :=
    List.all_eq_false.2 ⟨q, hq, by simpa [dZero] using h⟩
  exact if_pos (by simp [hall])

theorem rejectReason_of_fields (h : fieldsOk d = false) : s.rejectReason r d = some (2, 0) := if_pos (by simp [h])

/-- A descriptor whose form breaks no rule and whose VCID is not its ring's is rejected for that. -/
theorem rejectReason_of_vcid {q : Nat × Nat} (hq : s.rejectReason r d = some q) (hform : q.1 ≠ 2)
    (hvcid : descBytes d 2 2 ≠ s.get (Reg.SUB_RING_CTX_VCID r)) : q = (3, 0) := by
  simp only [rejectReason, bne_iff_ne.2 hvcid, if_true] at hq
  split at hq
  · exact absurd (congrArg Prod.fst (Option.some.inj hq)) hform.symm
  · exact (Option.some.inj hq).symm

end State

/-- Settles O30, rule by rule in the order of their check. -/
theorem badDescriptorsAreRejected : Obligations.BadDescriptorsAreRejected := fun _ _ _ =>
  ⟨State.rejectReason_of_opcode, State.rejectReason_of_flags, fun _ => State.rejectReason_of_reserved,
    State.rejectReason_of_fields, fun _ => State.rejectReason_of_vcid⟩

end Sys2Proof.Machine
end

section
/-! ## The fetch of a descriptor -/
namespace Sys2Proof.Machine
namespace State

/-- A ring has a published index to fetch, and nothing blocks it (R176). -/
def fetchReady (s : State) (r : Nat) : Prop :=
  s.ringActive r = true ∧ s.get (Reg.SUB_RING_CI_CI r) ≠ (s.ring r).piOld ∧ (s.ring r).blocked = false

/-- A ring whose descriptor is accepted: CI advances, and a stall with its count ends (R176). -/
def advanceCi (s : State) (r : Nat) : State :=
  ((s.put (Reg.SUB_RING_CI_CI r) ((s.get (Reg.SUB_RING_CI_CI r) + 1) % 2 ^ 32)).put (Reg.SUB_RING_STATUS_STALL r) 0).modRing r
    fun x => { x with fails := 0, changed := true }

/-- An accepted descriptor's operation joins those in flight (R195). The progress memory holds the present operations again,
which is the model's choice (log entry 152). -/
def joinOp (s : State) (o : Op) : State :=
  { s with sub := { s.sub with ops := s.sub.ops ++ [o], accepted := s.sub.accepted + 1, progMem := [] } }

/-- The registers of a ring lie below those of the replay of a context. -/
theorem discarding_joinOp (s : State) {r : Nat} (hr : r < 256) (o : Op) (c : Nat) :
    ((s.advanceCi r).joinOp o).discarding c = s.discarding c := by
  have hget : ((s.advanceCi r).joinOp o).get (Reg.RPL_REPLAY_STATUS_STATE c) = s.get (Reg.RPL_REPLAY_STATUS_STATE c) := by
    have hstall : (Reg.SUB_RING_STATUS_STALL r).reg < (Reg.RPL_REPLAY_STATUS_STATE c).reg := by
      change 0x201028 + 0x40 * r < 0x100000100 + 0x1000 * c
      omega
    have hci : (Reg.SUB_RING_CI_CI r).reg < (Reg.RPL_REPLAY_STATUS_STATE c).reg := by
      change 0x20102c + 0x40 * r < 0x100000100 + 0x1000 * c
      omega
    exact (get_put_of_above hstall).trans (get_put_of_above hci)
  simp only [discarding, hget]

theorem accept_of_sound {s : State} {r : Nat} (hr : r < 256) {d : Descriptor} (hrule : s.rejectReason r d = none)
    (hdiscard : s.discarding (s.ringCtx r) = false ∨ discardEnds (s.newOp r d) = false) (hopc : descBytes d 0 1 ≠ 13) :
    s.accept r d = (s.advanceCi r).joinOp (s.newOp r d) := by
  have hgo : (((s.advanceCi r).joinOp (s.newOp r d)).discarding (s.ringCtx r) && discardEnds (s.newOp r d)) = false := by
    rw [discarding_joinOp s hr]
    rcases hdiscard with h | h <;> simp [h]
  have hclose : ((s.newOp r d).opc == 13) = false := beq_false_of_ne hopc
  unfold accept
  rw [hrule]
  exact (if_neg (ne_true_of_eq_false hgo)).trans (if_neg (ne_true_of_eq_false hclose))

end State

section
variable {r : Fin 256} {slot d : Descriptor} {e : MemErr} {s u : State}

theorem execDescriptorFetch_of_idle (h : ¬ s.fetchReady r) : execDescriptorFetch r slot e s = .next s :=
  if_pos (by
    by_contra hno
    exact h (by simpa [State.fetchReady, and_assoc] using hno))

variable (hready : s.fetchReady r)
include hready

theorem execDescriptorFetch_of_full (hfull : s.inflightFull r = true) :
    execDescriptorFetch r slot e s = .next (s.mark Reg.SUB_EVENT_INFLIGHT_FULL) := by
  obtain ⟨hactive, hci, hblocked⟩ := hready
  simp only [execDescriptorFetch, hactive, beq_false_of_ne hci, hblocked, hfull, Bool.not_true, Bool.or_self,
    Bool.false_eq_true, if_false, if_true]

variable (hfull : s.inflightFull r = false)
include hfull

theorem execDescriptorFetch_of_unreadable (hslot : s.slotOf r slot e = .error u) :
    execDescriptorFetch r slot e s = .next (u.seqFail r 0) := by
  obtain ⟨hactive, hci, hblocked⟩ := hready
  simp only [execDescriptorFetch, hactive, beq_false_of_ne hci, hblocked, hfull, hslot, Bool.not_true, Bool.or_self,
    Bool.false_eq_true, if_false]

variable (hslot : s.slotOf r slot e = .ok (u, d))
include hslot

theorem execDescriptorFetch_of_match
    (hseq : descBytes d 8 8 = (u.seqBase r + s.get (Reg.SUB_RING_CI_CI r)) % 2 ^ 64) :
    execDescriptorFetch r slot e s = .next (u.accept r d).retryPosts := by
  obtain ⟨hactive, hci, hblocked⟩ := hready
  simp only [execDescriptorFetch, hactive, beq_false_of_ne hci, hblocked, hfull, hslot, beq_iff_eq.2 hseq, Bool.not_true,
    Bool.or_self, Bool.false_eq_true, if_false, if_true]

theorem execDescriptorFetch_of_mismatch
    (hseq : descBytes d 8 8 ≠ (u.seqBase r + s.get (Reg.SUB_RING_CI_CI r)) % 2 ^ 64) :
    execDescriptorFetch r slot e s = .next (u.seqFail r (descBytes d 8 8)) := by
  obtain ⟨hactive, hci, hblocked⟩ := hready
  simp only [execDescriptorFetch, hactive, beq_false_of_ne hci, hblocked, hfull, hslot, beq_false_of_ne hseq, Bool.not_true,
    Bool.or_self, Bool.false_eq_true, if_false]
end

/-- Settles O29: the guards of the fetch in their order, and an acceptance that no rule and no discard stops. That it empties the
progress memory of what the last reset found is the model's choice (log entry 152). -/
theorem fetchAcceptsTheSequence : Obligations.FetchAcceptsTheSequence := fun r _ _ _ _ =>
  ⟨fun _ hready => execDescriptorFetch_of_match hready, fun _ hready => execDescriptorFetch_of_mismatch hready,
    fun _ hready => execDescriptorFetch_of_unreadable hready, fun hready => execDescriptorFetch_of_full hready,
    execDescriptorFetch_of_idle, State.accept_of_sound r.isLt⟩

end Sys2Proof.Machine
end

section
/-! ## The enabling and the kick of a ring -/
namespace Sys2Proof.Machine

/-- A module whose ring 0 is active and empty: the dispatcher runs, the ring is enabled, and its context 0 is ACTIVE. -/
def activeRing : State :=
  ((State.reset.put Reg.SUB_CTRL_DISPATCH_EN 1).put (Reg.SUB_RING_CFG_ENABLE 0) 1).put (Reg.SUB_CTX_CTRL_STATE 0) 1

theorem ringActive_activeRing : activeRing.ringActive 0 = true := by decide

/-- A kick of a ring without a published index has it examined once more in the frame, which the ring remembers (R176). -/
theorem execKickWrite_of_empty {r : Fin 256} {pi : Word} {s : State} (hactive : s.ringActive r = true)
    (hempty : (s.ring r).piOld = s.get (Reg.SUB_RING_CI_CI r)) : exec (.kickWrite r pi) s =
      .next ((s.acceptPi r pi.toNat).modRing r fun x => { x with kicked := true, blocked := false }) := by
  change execKickWrite r pi s = _
  simp only [execKickWrite, hactive, beq_iff_eq.2 hempty, Bool.or_true, if_true]

/-- Refutes O28: a kick with index 0 of an active ring that is empty at index 0 lies in both windows, and marks in the ring
that what fails now is no failing tick (R176), where the statement leaves every field but the producer index and the block. -/
theorem not_ringControl : ¬ Obligations.RingControl := by
  intro h
  obtain ⟨hkick, -⟩ := h.2 0 0 activeRing
  have heq := (execKickWrite_of_empty ringActive_activeRing (by decide)).symm.trans
    (hkick ringActive_activeRing (by decide))
  have hkicked := congrArg (fun t => (t.ring 0).kicked) (Host.Outcome.next.inj heq)
  exact absurd hkicked (by decide)

end Sys2Proof.Machine
end

section
/-! ## Completion records and completion signals -/
namespace Sys2Proof.Machine
namespace State
variable {s : State} {o : Op}

/-- A write after which the mirror's client has a state leaves its register listed, and with it what every other one holds. -/
theorem synOn_put_client {t : State} {f : Reg.Fld} {v : Nat} (hreg : f.reg = Reg.RPL_MIR_CLIENT) (hf : f.lo + f.w ≤ 32)
    (hstate : bitsOf (setBits (t.reg f.reg).toNat f.lo f.w v) 14 2 ≠ 0) : (t.put f v).synOn = t.synOn := by
  have hreset : Reg.resetOf f.reg = 0 := by rw [hreg]; decide
  have hne : Reg.SYN_CTRL_ENABLE.reg ≠ f.reg := by rw [hreg]; decide
  simp only [synOn, on, get_put_of_word (hreset ▸ word_put_ne_zero _ hf hstate) hne]

/-- The mirror's registers are no part of the synchronisation. -/
theorem synOn_mirrorDone (s : State) (o : Op) : (s.mirrorDone o).synOn = s.synOn := by
  unfold mirrorDone
  split
  · next hupdate =>
    have hclient : s.on Reg.RPL_MIR_CLIENT_VALID = true := by
      simp only [Bool.and_eq_true] at hupdate
      exact hupdate.1.2
    have hlisted : s.reg Reg.RPL_MIR_CLIENT ≠ Reg.resetOf Reg.RPL_MIR_CLIENT := by
      intro hreset
      have hreg : s.reg Reg.RPL_MIR_CLIENT_VALID.reg = 0 := hreset.trans (by decide)
      rw [on, get, hreg] at hclient
      exact absurd hclient (by decide)
    have hlast (v : Nat) : (s.put Reg.RPL_MIR_LAST_LAST_STEP v).synOn = s.synOn := by
      simp only [synOn, on, get_put_behind (v := v) (f := Reg.RPL_MIR_LAST_LAST_STEP) (g := Reg.SYN_CTRL_ENABLE) hlisted
        (by decide) (by decide)]
    refine (synOn_put_client rfl (by decide) ?_).trans (hlast _)
    exact (bitsOf_setBits_same _ 14 2 1).trans_ne (by decide)
  split
  · next hdigest =>
    have hcurrent : s.get Reg.RPL_MIR_CLIENT_STATE = 1 := by
      simp only [Bool.and_eq_true, beq_iff_eq] at hdigest
      exact hdigest.1.1.1.2
    refine synOn_put_client rfl (by decide) ?_
    have hkeep := bitsOf_setBits_below (n := (s.reg Reg.RPL_MIR_CLIENT).toNat) (lo := 16) (w := 1) (v := s.fresh.1 % 2)
      (lo' := 14) (w' := 2) (by decide)
    exact (hkeep.trans hcurrent).trans_ne (by decide)
  · rfl

/-! ### The signal that follows a record (R187) -/

theorem sigAfter_of_failed {st code : Nat} (hfin : o.fin = some (st, code)) (hdone : st ≠ stDone) (hnotice : st ≠ stNotice) :
    s.sigAfter o = s := by
  simp [sigAfter, hfin, hdone, hnotice, when]

section
variable {code : Nat} (hfin : o.fin = some (stDone, code))
include hfin

theorem sigAfter_of_no_signal (hflag : o.flag 0 = false) : s.sigAfter o = s.mirrorDone o := by
  simp [sigAfter, hfin, hflag, when]

variable (hflag : o.flag 0 = true) {obj : Nat}
  (hobj : (s.mirrorDone o).xtObj o.ctx (descBytes o.desc 56 2) false = some obj)
include hflag hobj

theorem sigAfter_of_on (hon : s.synOn = true) : s.sigAfter o =
    ((s.mirrorDone o).fillXt o.ctx (descBytes o.desc 56 2)).signal obj (descBytes o.desc 60 4) o.party (Op.unit s o).1
      (Op.unit s o).2 (descBytes o.desc 56 2) := by
  simp [sigAfter, hfin, hflag, when, hobj, synOn_mirrorDone, hon]

theorem sigAfter_of_off (hoff : s.synOn = false) : s.sigAfter o =
    (s.mirrorDone o).holdSync (.completion obj (descBytes o.desc 60 4) o.party (Op.unit s o).1 (Op.unit s o).2
      (descBytes o.desc 56 2)) := by
  simp [sigAfter, hfin, hflag, when, hobj, synOn_mirrorDone, hoff]
end
end State

/-! ### DESCRIPTOR_COMPLETE (R187–R191) -/

section
variable {r : Fin 256} {idx : Word} {e : MemErr} {o : Op} {s : State}

theorem execDescriptorComplete_of_owed (hop : s.op? r idx.toNat = none) (hsig : s.sigOf r idx.toNat = some o) :
    execDescriptorComplete r idx e s = .next
      ({ s with sub := { s.sub with sigDue := s.sub.sigDue.filter fun q => !(q.ring == o.ring && q.idx == o.idx) } }.sigAfter o) := by
  simp only [execDescriptorComplete, hop, hsig]

section
variable (hop : s.op? r idx.toNat = some o)
include hop

theorem execDescriptorComplete_of_waiting (h : o.fin = none ∨ s.nextFin r ≠ some o) :
    execDescriptorComplete r idx e s = .next s := by
  cases hfin : o.fin with
  | none => simp only [execDescriptorComplete, hop, hfin]
  | some f =>
    have hnext : s.nextFin r ≠ some o := h.resolve_left (by simp [hfin])
    simp only [execDescriptorComplete, hop, hfin, bne_iff_ne.2 hnext, if_true]

variable (hnext : s.nextFin r = some o)
include hnext

theorem execDescriptorComplete_of_finished {st code : Nat} (hfin : o.fin = some (st, code)) (hst : st ≠ stRejected) :
    execDescriptorComplete r idx e s = .next ((s.recordOp o st code e).sigAfter o).flushBreaks := by
  simp only [execDescriptorComplete, hop, hfin, hnext, bne_self_eq_false, beq_false_of_ne hst, Bool.false_eq_true, if_false]

theorem execDescriptorComplete_of_rejected {code : Nat} (hfin : o.fin = some (stRejected, code)) :
    execDescriptorComplete r idx e s = .next (if s.cqFree o.ring then s.reject o code else s) := by
  simp only [execDescriptorComplete, hop, hfin, hnext, bne_self_eq_false, beq_self_eq_true, Bool.false_eq_true, if_false, if_true]
end
end

/-- Settles O33: whether the operation is the first of its ring to have finished, its status and its signal decide. That a signal
may be owed by a record written earlier is the model's choice (log entry 128), as is that a DONE record is written by this
command, and every other with the event that ends the operation (log entry 40). -/
theorem completionRecordAndSignal : Obligations.CompletionRecordAndSignal :=
  ⟨fun _ _ _ _ _ hop hnext => ⟨fun _ _ => execDescriptorComplete_of_finished hop hnext,
      fun _ => execDescriptorComplete_of_rejected hop hnext⟩,
    fun _ _ _ _ _ => execDescriptorComplete_of_waiting,
    fun _ _ _ _ _ => execDescriptorComplete_of_owed,
    fun _ _ => ⟨fun _ => State.sigAfter_of_no_signal, fun _ _ => State.sigAfter_of_failed,
      fun _ _ hfin hflag hobj => ⟨State.sigAfter_of_on hfin hflag hobj, State.sigAfter_of_off hfin hflag hobj⟩⟩⟩

end Sys2Proof.Machine
end

section
/-! ## SIGNAL, WAIT, BARRIER and FENCE descriptors -/
namespace Sys2Proof.Machine

theorem bitOn_of_lt {n i : Nat} (h : n < 2 ^ i) : bitOn n i = false := by
  simp [bitOn, Nat.div_eq_of_lt h]

theorem State.wdogOf_eq (s : State) (c named : Nat) :
    s.wdogOf c named = if named = 0 then s.get (Reg.SYN_CTX_WDOG_FRAMES c) else named := by
  by_cases h : named = 0 <;> simp [wdogOf, h]

section
variable {r : Fin 256} {o : Op} {s : State}

/-- While ENABLE is 0 no descriptor of synchronisation is issued (R230). -/
theorem execSync_of_off (hoff : s.synOn = false) :
    execSignal r s = .next s ∧ execWait r s = .next s ∧ execBarrier r s = .next s := by
  refine ⟨?signal, ?wait, ?barrier⟩
  case signal => cases h : s.ready r 4 <;> simp [execSignal, h, hoff]
  case wait => cases h : s.ready r 5 <;> simp [execWait, h, hoff]
  case barrier => cases h : s.ready r 6 <;> simp [execBarrier, h, hoff]

/-! ### SIGNAL (R211, R218) -/

section
variable (hready : s.ready r 4 = some o) (hon : s.synOn = true)
include hready hon

theorem execSignal_of_local (hm : descBytes o.desc 18 2 < 0x8000) {obj : Nat}
    (hobj : s.xtObj o.ctx (descBytes o.desc 16 2) false = some obj) :
    execSignal r s = .next ((((s.issue o 0).finish o stDone 0).fillXt o.ctx (descBytes o.desc 16 2)).signal obj
      (descBytes o.desc 24 8) o.party 7 0 (descBytes o.desc 16 2)) := by
  have hbit : bitOn (descBytes o.desc 18 2) 15 = false := bitOn_of_lt hm
  simp only [execSignal, hready, hon, hbit, hobj, Bool.not_true, Bool.not_false, Bool.false_eq_true, if_false, if_true]

variable (hbit : bitOn (descBytes o.desc 18 2) 15 = true)
include hbit

theorem execSignal_of_self (hm : descBytes o.desc 18 2 % 8192 = s.moduleId) : execSignal r s = .next
    ((s.issue o 0).signalSelf o (descBytes o.desc 16 2) (descBytes o.desc 24 8)) := by
  simp only [execSignal, hready, hon, hbit, beq_iff_eq.2 hm, Bool.not_true, Bool.false_eq_true, if_false, if_true]

variable (hm : descBytes o.desc 18 2 % 8192 ≠ s.moduleId)
include hm

theorem execSignal_of_remote (hfree : s.remoteFree = true) : execSignal r s = .next
    ((s.issue o 0).sendSignal o none (descBytes o.desc 18 2 % 8192) (descBytes o.desc 16 2) (descBytes o.desc 24 8)) := by
  simp only [execSignal, hready, hon, hbit, beq_false_of_ne hm, hfree, Bool.not_true, Bool.false_eq_true, if_false]

theorem execSignal_of_remote_full (hfree : s.remoteFree = false) : execSignal r s = .next s := by
  simp only [execSignal, hready, hon, hbit, beq_false_of_ne hm, hfree, Bool.not_true, Bool.not_false, Bool.false_eq_true,
    if_false, if_true]
end

/-! ### WAIT (R213, R214, R216) -/

section
variable (hready : s.ready r 5 = some o) (hon : s.synOn = true)
include hready hon

theorem execWait_of_full (hfull : 4096 ≤ s.waitersUsed) : execWait r s = .next (s.mark Reg.SYN_EVENT_WAITERS_FULL) := by
  simp only [execWait, hready, hon, State.noWaiter, hfull, decide_true, Bool.not_true, Bool.false_eq_true, if_false, if_true]

variable (hroom : s.waitersUsed < 4096) {obj : Nat} (hobj : s.xtObj o.ctx (descBytes o.desc 16 2) false = some obj)
include hroom hobj

theorem execWait_of_reached (hv : descBytes o.desc 24 8 ≤ (s.obj obj).value) : execWait r s = .next
    (((s.issue o 0).fillXt o.ctx (descBytes o.desc 16 2)).finish o stDone 0) := by
  simp only [execWait, hready, hon, State.noWaiter, Nat.not_le.2 hroom, hobj, hv, decide_false, Bool.not_true,
    Bool.false_eq_true, if_false, if_true]

theorem execWait_of_short (hv : (s.obj obj).value < descBytes o.desc 24 8) : execWait r s = .next
    (((s.issue o 0).fillXt o.ctx (descBytes o.desc 16 2)).modOp o.ring o.idx fun x => { x with
      wait := some { obj := obj, vid := descBytes o.desc 16 2, thr := descBytes o.desc 24 8
                     wdog := s.wdogOf o.ctx (descBytes o.desc 32 4) } }) := by
  simp only [execWait, hready, hon, State.noWaiter, Nat.not_le.2 hroom, hobj, Nat.not_le.2 hv, decide_false, Bool.not_true,
    Bool.false_eq_true, if_false]
end

/-! ### BARRIER (R224–R228) -/

section
variable (hready : s.ready r 6 = some o) (hon : s.synOn = true)
include hready hon

theorem execBarrier_of_full (hfull : 4096 ≤ s.waitersUsed) :
    execBarrier r s = .next (s.mark Reg.SYN_EVENT_WAITERS_FULL) := by
  simp only [execBarrier, hready, hon, State.noWaiter, hfull, decide_true, Bool.not_true, Bool.false_eq_true, if_false, if_true]

theorem execBarrier_of_arrival (hroom : s.waitersUsed < 4096) {obj : Nat}
    (hobj : s.xtObj o.ctx (descBytes o.desc 16 2) true = some obj) (hbroken : (s.obj obj).broken = false)
    (hslot : (s.obj obj).slot.isSome = true) (hfits : (s.obj obj).fits (descBytes o.desc 18 1) = true) :
    execBarrier r s = .next ((((s.issue o 0).fillXt o.ctx (descBytes o.desc 16 2)).modOp o.ring o.idx fun x => { x with
      wait := some { obj := obj, vid := descBytes o.desc 16 2, barrier := true
                     wdog := s.wdogOf o.ctx (descBytes o.desc 32 4) } }).arrive obj o.ctx (descBytes o.desc 16 2)
        (.desc (Fin.ofNat 256 o.ring) (BitVec.ofNat 32 o.idx)) (descBytes o.desc 18 1) (descBytes o.desc 24 8)).retrySync := by
  have hsome : (s.obj obj).slot.isNone = false := by simpa using hslot
  simp only [execBarrier, hready, hon, State.noWaiter, Nat.not_le.2 hroom, hobj, hbroken, hsome, hfits, State.issueArrival,
    decide_false, Bool.not_true, Bool.not_false, Bool.and_false, Bool.false_eq_true, if_false]
end

/-! ### FENCE (R186) -/

theorem execFence_of_running (hfence : s.fenceOf r = some o) (hclear : s.fenceClear o = true) :
    execFence r s = .next (s.finish o stDone 0) := by
  simp only [execFence, hfence, hclear, if_true]

section
variable (hfence : s.fenceOf r = none) (hready : s.ready r 11 = some o)
include hfence hready

theorem execFence_of_clear (hclear : (s.issue o 0).fenceClear o = true) :
    execFence r s = .next ((s.issue o 0).finish o stDone 0) := by
  simp only [execFence, hfence, hready, hclear, if_true]

theorem execFence_of_open (hclear : (s.issue o 0).fenceClear o = false) : execFence r s = .next (s.issue o 0) := by
  simp only [execFence, hfence, hready, hclear, Bool.false_eq_true, if_false]
end
end

/-- Settles O34, descriptor by descriptor. -/
theorem syncDescriptors : Obligations.SyncDescriptors := by
  intro r o s vid v m named frames
  have hframes : s.wdogOf o.ctx named = frames := State.wdogOf_eq ..
  refine ⟨fun obj hready hon hm => execSignal_of_local hready hon hm,
    fun hready hon hbit => execSignal_of_remote hready hon hbit, fun hready hon hbit => execSignal_of_self hready hon hbit,
    fun hready hon hbit => execSignal_of_remote_full hready hon hbit, execSync_of_off,
    fun obj hready hon hroom => execWait_of_reached hready hon hroom, ?short,
    fun hready hon => execWait_of_full hready hon, fun hready hon => execBarrier_of_full hready hon, ?arrival,
    fun hfence hready => execFence_of_clear hfence hready, fun hfence hready => execFence_of_open hfence hready,
    execFence_of_running⟩
  case short => exact hframes ▸ fun obj hready hon hroom => execWait_of_short hready hon hroom
  case arrival => exact hframes ▸ fun obj hready hon hroom => execBarrier_of_arrival hready hon hroom

end Sys2Proof.Machine
end

section
/-! ## POST -/
namespace Sys2Proof.Machine

theorem resetOf_spCeCnt : ∀ n < 256, Reg.resetOf (Reg.CORE_SP_CE_CNT n) = 0 := forall_lt_256 (by decide)

/-- The core of a byte in the scratchpad aperture. -/
theorem spAddr_core (c a : Nat) : (spAddr c a - spBase) / 0x400000 = c := by
  simp only [spAddr]
  omega

theorem memOf_spAddr (c a : Nat) : memOf (spAddr c a) = 9 := by
  have hnear : ¬ spAddr c a < nearEnd := by simp only [spAddr, spBase, nearEnd]; omega
  have hsp : ¬ spAddr c a < spBase := by simp only [spAddr]; omega
  simp only [memOf, hnear, hsp, if_false]

namespace State

/-! ### Errors met in a scratchpad (R156) -/

theorem get_each {α : Type} {g : Reg.Fld} {l : List α} {f : State → α → State}
    (hf : ∀ t, ∀ x ∈ l, (f t x).get g = t.get g) (s : State) : (s.each l f).get g = s.get g := by
  induction l generalizing s with
  | nil => rfl
  | cons x l ih =>
    exact (ih (fun t y hy => hf t y (List.mem_cons_of_mem x hy)) (f s x)).trans (hf s x List.mem_cons_self)

/-- A counter that has counted is listed, and every other field keeps its value, whatever the form of the map. -/
theorem get_bump_spCe (s : State) {n : Nat} (hn : n < 256) {g : Reg.Fld} (hne : g.reg ≠ Reg.CORE_SP_CE_CNT n) :
    (s.bump (Reg.CORE_SP_CE_CNT_COUNT n)).get g = s.get g := by
  refine get_put_of_word ?_ hne
  rw [show (Reg.CORE_SP_CE_CNT_COUNT n).reg = Reg.CORE_SP_CE_CNT n from rfl, resetOf_spCeCnt n hn]
  refine word_put_ne_zero _ (f := Reg.CORE_SP_CE_CNT_COUNT n) (lo := 0) (w := 32) (Nat.le_refl 32) ?_
  rw [show (Reg.CORE_SP_CE_CNT_COUNT n).lo = 0 from rfl, show (Reg.CORE_SP_CE_CNT_COUNT n).w = 32 from rfl,
    bitsOf_setBits_same]
  unfold satAdd
  omega

/-- Reads of one core's scratchpad change no register but its count of corrected errors. -/
theorem get_meetErrs_of_sp (s : State) {c : Nat} (hc : c < 256) {g : Reg.Fld} (hne : g.reg ≠ Reg.CORE_SP_CE_CNT c)
    {inRead : Nat → Bool} (hsp : ∀ pa, inRead pa = true → ∃ a, pa = spAddr c a) (ctx : Option Nat) (e : MemErr) :
    (s.meetErrs ctx inRead e).get g = s.get g := by
  have hcorrected (t : State) (pa : Nat) (hpa : pa ∈ e.ce.filter inRead) : (t.correctedErr pa ctx).get g = t.get g := by
    obtain ⟨a, rfl⟩ := hsp pa (List.mem_filter.1 hpa).2
    simp only [correctedErr, memOf_spAddr, if_true, spAddr_core]
    exact get_bump_spCe t hc hne
  exact (get_each (f := poisonAt) (fun _ _ _ => rfl) _).trans (get_each hcorrected s)

/-! ### The descriptor (R198) -/

/-- The scratchpad bytes that a POST copies. -/
def postPas (c src : Nat) : List Nat := (List.range 64).map fun k => spAddr c (src + k)

/-- The state in which the read of a POST has met its errors. -/
def postRead (t : State) (o : Op) (c src : Nat) (e : MemErr) : State :=
  t.meetErrs (some o.ctx) (postPas c src).contains e

/-- A device-resident ring of the LAUNCH's own context. -/
def PostOpen (t : State) (o : Op) (r : Nat) : Prop := t.ringCtx r = o.ctx ∧ t.on (Reg.SUB_RING_CFG_LOC r) = true

/-- An enabled ring with a free slot, for which no POST that arrived before number `no` is held (R199). -/
def PostRoom (s t : State) (r no : Nat) : Prop :=
  t.on (Reg.SUB_RING_CFG_ENABLE r) = true ∧ sub32 (t.ring r).piOld (t.get (Reg.SUB_RING_CI_CI r)) < t.ringSize r
    ∧ ∀ q ∈ s.heldPosts r, no ≤ q.1

/-- Where the slot of a ring's producer index lies. -/
def postSlot (m : State) (r pi : Nat) : Nat := m.ringBase r + pi % m.ringSize r * 64

/-- The bytes that the slot takes: bytes 8–15 are the sequence number that it must carry. -/
def postBytes (m : State) (c r src pi : Nat) : List Byte :=
  ((postPas c src).map m.byteAt).take 8 ++ leBytes 8 (m.seqBase r + pi) ++ ((postPas c src).map m.byteAt).drop 16

/-- The producer index of a ring advances, and the ring is examined as for a kick (R198). -/
def posted (m u : State) (r : Nat) : State :=
  u.modRing r fun y => { y with
    piOld := mod32 (y.piOld + 1), kicked := y.blocked || y.piOld == m.get (Reg.SUB_RING_CI_CI r), blocked := false }

/-- The write of a POST whose bytes have been read in `m`; where it waits, its core holds the POST in `s`. -/
def postWrite (s m : State) (o : Op) (c r src no pi : Nat) (e : MemErr) : State :=
  match m.xlateRun o.ctx (m.postSlot r pi) 64 true with
  | .error a => m.xlateFault o 1 c a
  | .ok dst => match m.storeFor (.core c) o 1 c (m.postSlot r pi) (dst.zip (m.postBytes c r src pi)) e with
    | .wait => (s.waitShadow (.core c)).holdPost c r src no
    | .stop u => u
    | .ok u => m.posted u r

/-- The end of a POST whose read has met its errors in `m`. -/
def postEnd (s m : State) (o : Op) (c r src no pi : Nat) (e : MemErr) : State :=
  match m.readErr o.ctx (postPas c src) e with
  | .ue pa => m.ueOp o 1 c pa
  | .parity pa => m.parityOp o 1 c pa
  | _ => s.postWrite m o c r src no pi e

section
variable {s t : State} {o : Op} {c r src no : Nat} {e : MemErr}

theorem get_postRead (hc : c < 144) :
    (t.postRead o c src e).get (Reg.SUB_RING_CI_CI r) = t.get (Reg.SUB_RING_CI_CI r) := by
  have hne : (Reg.SUB_RING_CI_CI r).reg ≠ Reg.CORE_SP_CE_CNT c := by
    change 0x20102c + 0x40 * r ≠ 0x10000c4 + 0x10000 * c
    omega
  refine get_meetErrs_of_sp t (by omega) hne (fun pa hpa => ?_) _ _
  obtain ⟨k, -, rfl⟩ := List.mem_map.1 (List.contains_iff_mem.1 hpa)
  exact ⟨src + k, rfl⟩

theorem postDesc_of_closed (hopen : ¬ t.PostOpen o r) : s.postDesc t o c r src no e = t.stopPerm c 9 r :=
  if_pos (by
    by_contra hno
    exact hopen (by simpa [PostOpen] using hno))

variable (hopen : t.PostOpen o r)
include hopen

theorem postDesc_of_no_room (hroom : ¬ s.PostRoom t r no) : s.postDesc t o c r src no e = s.holdPost c r src no := by
  obtain ⟨hctx, hloc⟩ := hopen
  refine (if_neg (by simp [hctx, hloc])).trans (if_pos ?_)
  by_contra hno
  exact hroom (by simpa [PostRoom, and_assoc] using hno)

variable (hroom : s.PostRoom t r no)
include hroom

/-- With room the read of the 64 bytes decides. -/
theorem postDesc_of_room (hc : c < 144) : s.postDesc t o c r src no e =
    s.postEnd (t.postRead o c src e) o c r src no (t.ring r).piOld e := by
  obtain ⟨hctx, hloc⟩ := hopen
  obtain ⟨hen, hfree, hfirst⟩ := hroom
  have hheld : ((s.heldPosts r).any fun q => q.1 < no) = false := by
    simpa using hfirst
  simp only [postEnd, postWrite, posted, get_postRead hc]
  refine (if_neg (by simp [hctx, hloc])).trans ((if_neg ?_).trans ?_)
  · simp [hen, hfree, hheld]
  · rfl
end

section
variable {s m u : State} {o : Op} {c r src no pi : Nat} {e : MemErr}

theorem postEnd_of_ue {pa : Nat} (h : m.readErr o.ctx (postPas c src) e = .ue pa) :
    s.postEnd m o c r src no pi e = m.ueOp o 1 c pa := by
  simp only [postEnd, h]

theorem postEnd_of_parity {pa : Nat} (h : m.readErr o.ctx (postPas c src) e = .parity pa) :
    s.postEnd m o c r src no pi e = m.parityOp o 1 c pa := by
  simp only [postEnd, h]

/-- No block check is made of a scratchpad: a read that meets neither poison nor a wrong parity goes on to its write. -/
theorem postEnd_of_clean (h : ∀ pa, m.readErr o.ctx (postPas c src) e ≠ .ue pa
    ∧ m.readErr o.ctx (postPas c src) e ≠ .parity pa) :
    s.postEnd m o c r src no pi e = s.postWrite m o c r src no pi e := by
  unfold postEnd
  split
  · next pa herr => exact absurd herr (h pa).1
  · next pa herr => exact absurd herr (h pa).2
  · rfl

theorem postWrite_of_miss {a : Nat} (h : m.xlateRun o.ctx (m.postSlot r pi) 64 true = .error a) :
    s.postWrite m o c r src no pi e = m.xlateFault o 1 c a := by
  simp only [postWrite, h]

variable {dst : List Nat} (hdst : m.xlateRun o.ctx (m.postSlot r pi) 64 true = .ok dst)
include hdst

theorem postWrite_of_ok
    (h : m.storeFor (.core c) o 1 c (m.postSlot r pi) (dst.zip (m.postBytes c r src pi)) e = .ok u) :
    s.postWrite m o c r src no pi e = m.posted u r := by
  simp only [postWrite, hdst, h]

theorem postWrite_of_stop
    (h : m.storeFor (.core c) o 1 c (m.postSlot r pi) (dst.zip (m.postBytes c r src pi)) e = .stop u) :
    s.postWrite m o c r src no pi e = u := by
  simp only [postWrite, hdst, h]

theorem postWrite_of_wait
    (h : m.storeFor (.core c) o 1 c (m.postSlot r pi) (dst.zip (m.postBytes c r src pi)) e = .wait) :
    s.postWrite m o c r src no pi e = (s.waitShadow (.core c)).holdPost c r src no := by
  simp only [postWrite, hdst, h]
end
end State

/-- Settles O15: the ring, its room, the read of the 64 bytes and then the store decide, each in its turn. -/
theorem postADescriptor : Obligations.PostADescriptor := by
  intro core ring src e o s hrun t x pas m bs slot desc open_ room post
  have hpost {u : State} (h : s.postDesc t o core ring src.toNat s.sub.postCnt e = u) : post = .next u :=
    congrArg Host.Outcome.next ((State.seqInstr_running hrun _).trans h)
  have hend (ho : open_) (hr : room) {u : State} (h : s.postEnd m o core ring src.toNat s.sub.postCnt x.piOld e = u) :
      post = .next u := hpost ((State.postDesc_of_room ho hr core.isLt).trans h)
  refine ⟨fun ho hr hclean => ?write, fun ho hr pa herr => hend ho hr (State.postEnd_of_ue herr),
    fun ho hr pa herr => hend ho hr (State.postEnd_of_parity herr), fun ho hr => hpost (State.postDesc_of_no_room ho hr),
    fun ho => hpost (State.postDesc_of_closed ho)⟩
  case write =>
    have hwrite {u : State} (h : s.postWrite m o core ring src.toNat s.sub.postCnt x.piOld e = u) : post = .next u :=
      hend ho hr ((State.postEnd_of_clean hclean).trans h)
    exact ⟨fun a h => hwrite (State.postWrite_of_miss h), fun dst hdst => ⟨fun u h => hwrite (State.postWrite_of_ok hdst h),
      fun u h => hwrite (State.postWrite_of_stop hdst h), fun h => hwrite (State.postWrite_of_wait hdst h)⟩⟩

end Sys2Proof.Machine
end

section
/-! ## Fields of a register after writes of other fields -/
namespace Sys2Proof.Machine.State
variable {s : State} {f g : Reg.Fld}

/-- Two fields that do not meet. -/
abbrev Apart (g f : Reg.Fld) : Prop := g.reg ≠ f.reg ∨ g.lo + g.w ≤ f.lo ∨ f.lo + f.w ≤ g.lo

theorem on_put_apart (h : s.canon = true) (v : Nat) (hf : f.lo + f.w ≤ 32) (hg : Apart g f) : (s.put f v).on g = s.on g := by
  rw [on, get_put_disjoint h v hf hg, on]

theorem on_put_zero (h : s.canon = true) (hf : f.lo + f.w ≤ 32) : (s.put f 0).on f = false := by
  rw [on, get_put_same h 0 hf, Nat.zero_mod, beq_false_of_ne Nat.zero_ne_one]

theorem on_mark (h : s.canon = true) (hf : f.lo + f.w ≤ 32) (hw : f.w = 1) : (s.mark f).on f = true := by
  rw [on, get_mark_same h hf hw, beq_self_eq_true]

/-- Clearing fields leaves a field that meets none of them. -/
theorem on_clear (h : s.canon = true) (fs : List Reg.Fld)
    (hfs : ∀ f ∈ fs, f.lo + f.w ≤ 32 ∧ Apart g f) :
    (s.each fs fun t f => t.put f 0).on g = s.on g := by
  unfold each
  induction fs generalizing s with
  | nil => rfl
  | cons f fs ih =>
    obtain ⟨hfits, happart⟩ := hfs f List.mem_cons_self
    rw [List.foldl_cons, ih (put_canon h f 0) fun x hx => hfs x (List.mem_cons_of_mem _ hx), on_put_apart h 0 hfits happart]

theorem on_clear_of_mem (h : s.canon = true) {fs : List Reg.Fld} (hfits : ∀ f ∈ fs, f.lo + f.w ≤ 32) (hapart : fs.Pairwise Apart)
    (hg : g ∈ fs) : (s.each fs fun t f => t.put f 0).on g = false := by
  unfold each
  induction fs generalizing s with
  | nil => cases hg
  | cons f fs ih =>
    obtain ⟨hhead, htail⟩ := List.pairwise_cons.1 hapart
    have hrest : ∀ x ∈ fs, x.lo + x.w ≤ 32 := fun x hx => hfits x (List.mem_cons_of_mem _ hx)
    rcases List.mem_cons.1 hg with rfl | hg
    · exact (on_clear (put_canon h g 0) fs fun x hx => ⟨hrest x hx, hhead x hx⟩).trans (on_put_zero h (hfits g List.mem_cons_self))
    · exact ih (put_canon h f 0) hrest htail hg

theorem get_put_word (h : s.canon = true) {n : Nat} (hlo : f.lo = 0) (hw : f.w = 32) (hn : n < 2 ^ 32) : (s.put f n).get f = n := by
  rw [get_put_same h n (by omega), hw, Nat.mod_eq_of_lt hn]

end Sys2Proof.Machine.State
end

section
/-! ## Firmware's writes -/
namespace Sys2Proof.Machine
namespace State
variable {s : State} {c v : Nat}

theorem writeCtxCtrl_of_activate (hfree : s.get (Reg.SUB_CTX_CTRL_STATE c) = 0) (hv : bitOn v 2 = true) : s.writeCtxCtrl c v =
    ((s.put (Reg.SUB_CTX_CTRL_VCID c) (bitsOf v 16 16)).put (Reg.SUB_CTX_CTRL_STATE c) 1).refreshPower := by
  simp only [writeCtxCtrl, hfree, hv, if_true]

/-- A teardown announced for a later frame gives way to firmware's own, at the next tick (R441). -/
theorem writeCtxCtrl_of_dusk (hactive : s.get (Reg.SUB_CTX_CTRL_STATE c) = 1) (hv : bitOn v 3 = true)
    (hlater : (s.ctx c).duskReq = none ∨ ∃ d f, (s.ctx c).duskReq = some d ∧ d.frame = some f ∧ f ≠ s.frame + 1) :
    s.writeCtxCtrl c v = s.modCtx c fun x => { x with duskReq := some { tick := s.now + 1 } } := by
  have hgone : ((s.ctx c).duskReq.filter fun d => d.frame.isNone || d.frame == some (s.frame + 1)) = none := by
    rcases hlater with hnone | ⟨d, f, hd, hf, hne⟩
    · rw [hnone, Option.filter_none]
    · simp [hd, hf, hne]
  simp only [writeCtxCtrl, hactive, hv, modCtx, hgone]
  rfl

theorem writeObjHi_of_counter (h : s.canon = true) (hkind : (s.obj (s.get Reg.SYN_OBJ_SEL_INDEX)).barrier = false) : s.writeObjHi v =
    (s.put Reg.SYN_OBJ_VAL_HI_VAL_HI v).setCounter (s.get Reg.SYN_OBJ_SEL_INDEX) (s.get Reg.SYN_OBJ_VAL_LO_VAL_LO + v * 2 ^ 32) := by
  have hobj (o : Nat) : (s.put Reg.SYN_OBJ_VAL_HI_VAL_HI v).obj o = s.obj o := rfl
  simp only [writeObjHi, hobj, hkind, Bool.false_eq_true, if_false, get_put_ne h (f := Reg.SYN_OBJ_VAL_HI_VAL_HI)
    (g := Reg.SYN_OBJ_VAL_LO_VAL_LO) v (by decide)]

theorem writeRearm_of_barrier (hkind : (s.obj (s.get Reg.SYN_OBJ_SEL_INDEX)).barrier = true) (hv : bitOn v 0 = true) :
    s.writeRearm v = (s.rearm (s.get Reg.SYN_OBJ_SEL_INDEX) false).retrySync := by
  simp only [writeRearm, hkind, hv, Bool.and_self, if_true]

theorem writeSynXlat_of_go (hv : bitOn v 7 = true) (hbusy : s.on Reg.SYN_XLAT_INVAL_BUSY = false) : s.writeSynXlat v =
    { s.mark Reg.SYN_XLAT_INVAL_BUSY with
      syn := { s.syn with inval := some (if bitOn v 6 then none else some (bitsOf v 0 6)) } } := by
  simp only [writeSynXlat, hv, hbusy, Bool.not_false, Bool.and_self, if_true]

theorem writeKeySwitch_eq (h : s.canon = true) (hv : v < 2 ^ 32) : s.writeKeySwitch v =
    (s.put Reg.SWT_KEY_SWITCH_HI_FRAME_HI v).modFab fun x =>
      { x with keyArm := if s.get Reg.SWT_KEY_SWITCH_LO_FRAME_LO + v * 2 ^ 32 ≤ s.frame then none
                         else some (s.get Reg.SWT_KEY_SWITCH_LO_FRAME_LO + v * 2 ^ 32) } := by
  simp only [writeKeySwitch, get64, get_put_word h (f := Reg.SWT_KEY_SWITCH_HI_FRAME_HI) rfl rfl hv,
    get_put_ne h (f := Reg.SWT_KEY_SWITCH_HI_FRAME_HI) (g := Reg.SWT_KEY_SWITCH_LO_FRAME_LO) v (by decide)]
  rfl

theorem writeBypCtrl_of_arm {b : Nat} (hv : bitOn v 1 = true) : s.writeBypCtrl b v =
    (s.put (Reg.OPT_BYP_CTRL_TARGET b) (bitsOf v 0 1)).mark (Reg.OPT_BYP_CTRL_ARM b) := by
  simp only [writeBypCtrl, when, hv, if_true]

/-! ### The load of a schedule image (R277) -/

theorem writeSchedLoad_of_busy (hbusy : s.on Reg.SWT_SCHED_LOAD_CTRL_BUSY = true) :
    s.writeSchedLoad v = s.put Reg.SWT_SCHED_LOAD_CTRL_BANK (bitsOf v 0 1) := by
  simp only [writeSchedLoad, hbusy, if_true]

/-- The fields of SWT_SCHED_LOAD_CTRL that tell of a load's failure. -/
def loadErrorFlds : List Reg.Fld :=
  [Reg.SWT_SCHED_LOAD_CTRL_ERROR, Reg.SWT_SCHED_LOAD_CTRL_REASON, Reg.SWT_SCHED_LOAD_CTRL_ERR_SLOT, Reg.SWT_SCHED_LOAD_CTRL_ERR_PORT]

/-- The registers of a load of bank b that has begun. -/
def schedLoading (s : State) (b : Nat) : State :=
  ((((s.put Reg.SWT_SCHED_LOAD_CTRL_BANK b).put (loadedFld b) 0).mark Reg.SWT_SCHED_LOAD_CTRL_GO).mark Reg.SWT_SCHED_LOAD_CTRL_BUSY).each
    loadErrorFlds fun t f => t.put f 0

theorem writeSchedLoad_of_go (hbusy : s.on Reg.SWT_SCHED_LOAD_CTRL_BUSY = false) (hv : bitOn v 1 = true) :
    ∃ refused, s.writeSchedLoad v = (s.schedLoading (bitsOf v 0 1)).modFab fun f => { f with load := some (bitsOf v 0 1, refused) } := by
  simp only [writeSchedLoad, hbusy, hv, Bool.not_true, Bool.false_eq_true, if_false]
  exact ⟨_, rfl⟩

theorem schedLoading_on (h : s.canon = true) (b : Nat) : (s.schedLoading b).on Reg.SWT_SCHED_LOAD_CTRL_BUSY = true
    ∧ (s.schedLoading b).on (loadedFld b) = false ∧ (s.schedLoading b).on Reg.SWT_SCHED_LOAD_CTRL_GO = true := by
  obtain ⟨hreg, hfits⟩ : (loadedFld b).reg = Reg.SWT_SCHED_BANK ∧ (loadedFld b).lo + (loadedFld b).w ≤ 32 := by
    unfold loadedFld
    split <;> decide
  have hother {f : Reg.Fld} (hf : f.reg = Reg.SWT_SCHED_LOAD_CTRL) : (loadedFld b).reg ≠ f.reg := by rw [hreg, hf]; decide
  have hbank := put_canon h Reg.SWT_SCHED_LOAD_CTRL_BANK b
  have hload := put_canon hbank (loadedFld b) 0
  have hgo := mark_canon hload Reg.SWT_SCHED_LOAD_CTRL_GO
  have hbusy := mark_canon hgo Reg.SWT_SCHED_LOAD_CTRL_BUSY
  refine ⟨?busy, ?loaded, ?go⟩ <;> unfold schedLoading
  case busy => rw [on_clear hbusy loadErrorFlds (by decide), on_mark hgo (by decide) rfl]
  case loaded =>
    have hfields : ∀ f ∈ loadErrorFlds, f.lo + f.w ≤ 32 ∧ f.reg = Reg.SWT_SCHED_LOAD_CTRL := by decide
    rw [on_clear hbusy loadErrorFlds fun f hf => (hfields f hf).imp_right fun hf => .inl (hother hf),
      mark, on_put_apart hgo 1 (by decide) (.inl (hother rfl)), mark, on_put_apart hload 1 (by decide) (.inl (hother rfl)), on_put_zero hbank hfits]
  case go =>
    rw [on_clear hbusy loadErrorFlds (by decide), mark, on_put_apart hgo 1 (by decide) (by decide), on_mark hload (by decide) rfl]

end State

/-- Settles O49: each command is its register's write where its party acts. That a kick of firmware restarts every watchdog is the
model's choice (log entry 77), and so is GO, which stays 1 until the load of an image ends (log entry 131). -/
theorem firmwareWrites : Obligations.FirmwareWrites := by
  intro c b v s obj
  have hnext {t u : State} (h : t = u) : (Host.Outcome.next t : Host.Outcome State Fault Refusal) = .next u := congrArg _ h
  have hbit {i : Nat} (hv : v.getLsbD i = true) : bitOn v.toNat i = true := (bitOn_toNat v i).trans hv
  refine ⟨fun hfree hv => hnext (State.writeCtxCtrl_of_activate hfree (hbit hv)),
    fun hactive hv hlater => hnext (State.writeCtxCtrl_of_dusk hactive (hbit hv) hlater),
    fun hkind h => hnext (State.writeObjHi_of_counter h hkind), fun hkind hv => hnext (State.writeRearm_of_barrier hkind (hbit hv)),
    ?inval, ?invalDone, ?load, ?loadBusy, hnext rfl, fun h => hnext (State.writeKeySwitch_eq h v.isLt), hnext rfl,
    fun k hk => hnext (State.byCp_of_acts hk fun t => t.fwKick (.cp k)), ?bypass⟩
  case inval =>
    intro hv hbusy
    refine hnext ((State.writeSynXlat_of_go (hbit hv) hbusy).trans ?_)
    rw [bitOn_toNat, show bitsOf v.toNat 0 6 = v.toNat % 64 from bitsOf_zero_lo ..]
  case invalDone =>
    refine ⟨_, rfl, rfl, rfl, rfl, fun k hk => ?one, fun hk => ?all⟩ <;> simp only [hk]
  case load =>
    intro hbusy hv h
    obtain ⟨refused, hwrite⟩ := State.writeSchedLoad_of_go hbusy (hbit hv)
    rw [bitsOf_zero_lo, pow_one] at hwrite
    obtain ⟨hbusyOn, hloaded, hgo⟩ := State.schedLoading_on h (v.toNat % 2)
    exact ⟨_, hnext hwrite, hbusyOn, hloaded, hgo, rfl, rfl⟩
  case loadBusy =>
    intro hbusy
    refine hnext ((State.writeSchedLoad_of_busy hbusy).trans ?_)
    rw [bitsOf_zero_lo, pow_one]
  case bypass =>
    intro hv
    refine hnext ((State.writeBypCtrl_of_arm (hbit hv)).trans ?_)
    rw [bitsOf_zero_lo, pow_one]

end Sys2Proof.Machine
end

section
/-! ## Firmware images (R454, R493–R497) -/
namespace Sys2Proof.Machine
namespace State
variable {s : State} {p : Party} {v h : Nat}

section
variable (hload : bitOn v 1 = true) (hstart : bitOn v 2 = false) (hswap : bitOn v 3 = false)
include hload hstart hswap

theorem writeFwCtrl_of_load : s.writeFwCtrl p v = (s.put Reg.GLB_FW_CTRL_HALF v).loadFw (v % 2) := by
  simp only [writeFwCtrl, when, hload, hstart, hswap, if_true, Bool.false_eq_true, if_false]
end

section
variable (hload : bitOn v 1 = false) (hstart : bitOn v 2 = true) (hswap : bitOn v 3 = false)
include hload hstart hswap

theorem writeFwCtrl_of_start : s.writeFwCtrl p v = (s.put Reg.GLB_FW_CTRL_HALF v).startFw (v % 2) := by
  simp only [writeFwCtrl, when, hload, hstart, hswap, if_true, Bool.false_eq_true, if_false]
end

section
variable (hload : bitOn v 1 = false) (hstart : bitOn v 2 = false) (hswap : bitOn v 3 = true)
include hload hstart hswap

theorem writeFwCtrl_of_swap : s.writeFwCtrl p v = if p.fw then (s.put Reg.GLB_FW_CTRL_HALF v).swapFw
    else (s.put Reg.GLB_FW_CTRL_HALF v).mark Reg.SUB_EVENT_HOST_DENIED := by
  simp only [writeFwCtrl, when, hload, hstart, hswap, if_true, Bool.false_eq_true, if_false]
end

/-! ### LOAD -/

/-- The marks of a half. -/
def fwMarks (h : Nat) : List Reg.Fld := [fwLoaded h, fwVerified h, fwGood h]

theorem fwMarks_fit (h : Nat) : ∀ f ∈ fwMarks h, f.lo + f.w ≤ 32 ∧ f.reg = Reg.GLB_FW_STATUS ∧ Apart f Reg.GLB_FW_STATUS_BUSY := by
  unfold fwMarks fwLoaded fwVerified fwGood
  split <;> decide

theorem fwMarks_apart (h : Nat) : (fwMarks h).Pairwise Apart := by
  unfold fwMarks fwLoaded fwVerified fwGood
  split <;> decide

theorem loadFw_of_refused (hrefused : s.loadRefused h = true) : s.loadFw h = s.put Reg.GLB_FW_STATUS_RESULT 6 := by
  simp only [loadFw, hrefused, if_true]

theorem loadFw_of_accepted (haccepted : s.loadRefused h = false) : s.loadFw h =
    ((((s.each (fwMarks h) fun t f => t.put f 0).setImage h none).mark Reg.GLB_FW_CTRL_LOAD).mark Reg.GLB_FW_STATUS_BUSY).modFw
      fun f => { f with load := some (h, s.get Reg.GLB_FW_SRC_LO_ADDR_LO * 4096 + s.get Reg.GLB_FW_SRC_HI_ADDR_HI * 2 ^ 32,
                                      s.get Reg.GLB_FW_LEN_BYTES) } := by
  simp only [loadFw, haccepted, Bool.false_eq_true, if_false]
  rfl

theorem on_modFw (f : FwSt → FwSt) (g : Reg.Fld) : (s.modFw f).on g = s.on g := rfl

theorem on_setImage (i : Option FwImage) (g : Reg.Fld) : (s.setImage h i).on g = s.on g := rfl

theorem loadFw_on (hcanon : s.canon = true) (haccepted : s.loadRefused h = false) :
    (∀ f ∈ fwMarks h, (s.loadFw h).on f = false) ∧ (s.loadFw h).on Reg.GLB_FW_STATUS_BUSY = true := by
  have hclear : ((s.each (fwMarks h) fun t f => t.put f 0).setImage h none).canon = true :=
    setImage_canon (each_canon hcanon _ _ fun t f ht => put_canon ht f 0) h none
  have hload := mark_canon hclear Reg.GLB_FW_CTRL_LOAD
  rw [loadFw_of_accepted haccepted]
  refine ⟨fun f hf => ?_, (on_modFw ..).trans (on_mark hload (by decide) rfl)⟩
  obtain ⟨-, hreg, hbusy⟩ := fwMarks_fit h f hf
  have hctrl : f.reg ≠ Reg.GLB_FW_CTRL := by rw [hreg]; decide
  rw [on_modFw, mark, on_put_apart hload 1 (by decide) hbusy, mark, on_put_apart hclear 1 (by decide) (.inl hctrl), on_setImage,
    on_clear_of_mem hcanon (fun f hf => (fwMarks_fit h f hf).1) (fwMarks_apart h) hf]

/-! ### START and SWAP -/

theorem startFw_of_refused (hrefused : s.fwRuns = true ∨ s.on (fwVerified h) = false) :
    s.startFw h = s.put Reg.GLB_FW_STATUS_RESULT 6 := by
  rcases hrefused with hruns | hunverified
  · simp only [startFw, hruns, Bool.true_or, if_true]
  · simp only [startFw, hunverified, Bool.not_false, Bool.or_true, if_true]

theorem startFw_of_verified (hstopped : s.fwRuns = false) (hverified : s.on (fwVerified h) = true) :
    s.startFw h = s.modFw fun f => { f with start := some (h, s.now + 1) } := by
  simp only [startFw, hstopped, hverified, Bool.not_true, Bool.or_self, Bool.false_eq_true, if_false]

theorem swapFw_of_armed (hstarted : s.on Reg.SEC_STATUS_FW_STARTED = true)
    (hverified : s.on (fwVerified (1 - s.get Reg.SEC_STATUS_FW_HALF)) = true)
    (hahead : s.frame + 2 ≤ s.get64 Reg.GLB_FW_SWAP_LO_FRAME Reg.GLB_FW_SWAP_HI_FRAME) (hnone : s.fw.swap = none) :
    s.swapFw = ((s.mark Reg.GLB_FW_CTRL_SWAP).mark Reg.GLB_FW_STATUS_SWAP_PENDING).modFw fun x =>
      { x with swap := some (s.get64 Reg.GLB_FW_SWAP_LO_FRAME Reg.GLB_FW_SWAP_HI_FRAME) } := by
  simp [swapFw, hstarted, hverified, Nat.not_lt.2 hahead, hnone]

theorem swapFw_of_refused (hrefused : s.on (fwVerified (1 - s.get Reg.SEC_STATUS_FW_HALF)) = false
    ∨ s.get64 Reg.GLB_FW_SWAP_LO_FRAME Reg.GLB_FW_SWAP_HI_FRAME < s.frame + 2 ∨ s.fw.swap.isSome = true) : s.swapFw = s := by
  rcases hrefused with hunverified | hlate | hpending
  · simp [swapFw, hunverified]
  · simp [swapFw, hlate]
  · simp [swapFw, hpending]

end State

/-! ### The copy's end -/

section
variable {s : State}

/-- The state where the copy of an image has ended. -/
def State.fwCopyEnded (s : State) : State :=
  ((s.put Reg.GLB_FW_STATUS_BUSY 0).put Reg.GLB_FW_CTRL_LOAD 0).modFw fun f => { f with load := none }

/-- The state where an image has been copied to a half. -/
def State.fwCopied (s : State) (half : Nat) (i : ImageCheck) : State :=
  (s.fwCopyEnded.mark (fwLoaded half)).setImage half (some ⟨i.svn.toNat, i.digest.toNat⟩)

/-- The copy leaves every register but GLB_FW_STATUS and GLB_FW_CTRL. -/
theorem State.get_fwCopied (h : s.canon = true) (half : Nat) (i : ImageCheck) {g : Reg.Fld} (hstatus : g.reg ≠ Reg.GLB_FW_STATUS)
    (hctrl : g.reg ≠ Reg.GLB_FW_CTRL) : (s.fwCopied half i).get g = s.get g := by
  have hbusy := State.put_canon h Reg.GLB_FW_STATUS_BUSY 0
  have hended : s.fwCopyEnded.canon = true := State.modFw_canon (State.put_canon hbusy Reg.GLB_FW_CTRL_LOAD 0) _
  have hmark : (fwLoaded half).reg = Reg.GLB_FW_STATUS := (State.fwMarks_fit half _ List.mem_cons_self).2.1
  calc (s.fwCopied half i).get g = s.fwCopyEnded.get g := State.get_put_ne hended 1 (hmark ▸ hstatus)
    _ = (s.put Reg.GLB_FW_STATUS_BUSY 0).get g := State.get_put_ne hbusy 0 hctrl
    _ = s.get g := State.get_put_ne h 0 hstatus

variable {i : ImageCheck} {half src n : Nat} (hload : s.fw.load = some (half, src, n))
include hload

theorem execFwLoadDone_of_readError (hread : i.readError = true) :
    execFwLoadDone i s = .next (s.fwCopyEnded.put Reg.GLB_FW_STATUS_RESULT 7) := by
  simp only [execFwLoadDone, hload, hread, if_true]
  rfl

variable (h : s.canon = true) (hread : i.readError = false)
include h hread

/-- A copied image is verified by what Idfort held before the copy. -/
theorem execFwLoadDone_of_verified (hsec : s.secState ≠ 3)
    (hresult : s.verifyImage i i.key.val (s.get Reg.SEC_FW_STATUS_SVN_MIN) = 1) : execFwLoadDone i s = .next
      ((((s.fwCopied half i).mark (fwVerified half)).put Reg.SEC_FW_STATUS_RESULT 1).put Reg.GLB_FW_STATUS_RESULT 1) := by
  have hmin : (s.fwCopied half i).get Reg.SEC_FW_STATUS_SVN_MIN = s.get Reg.SEC_FW_STATUS_SVN_MIN :=
    State.get_fwCopied h half i (by decide) (by decide)
  have hstate : (s.fwCopied half i).secState ≠ 3 :=
    fun h3 => hsec ((State.get_fwCopied h half i (by decide) (by decide)).symm.trans h3)
  have hverify : (s.fwCopied half i).verifyImage i i.key.val ((s.fwCopied half i).get Reg.SEC_FW_STATUS_SVN_MIN) = 1 := hmin ▸ hresult
  unfold State.fwCopied State.fwCopyEnded at hstate hverify ⊢
  simp only [execFwLoadDone, hload, hread, hverify, beq_false_of_ne hstate, Bool.false_eq_true, decide_true, Bool.and_false, if_false, if_true]

theorem execFwLoadDone_of_rejected {r : Nat} (hr : r ≠ 1)
    (hresult : s.verifyImage i i.key.val (s.get Reg.SEC_FW_STATUS_SVN_MIN) = r) : execFwLoadDone i s = .next
      ((((s.fwCopied half i).mark Reg.SEC_EVENT_FW_REJECT).put Reg.SEC_FW_STATUS_RESULT r).put Reg.GLB_FW_STATUS_RESULT r) := by
  have hmin : (s.fwCopied half i).get Reg.SEC_FW_STATUS_SVN_MIN = s.get Reg.SEC_FW_STATUS_SVN_MIN :=
    State.get_fwCopied h half i (by decide) (by decide)
  have hverify : (s.fwCopied half i).verifyImage i i.key.val ((s.fwCopied half i).get Reg.SEC_FW_STATUS_SVN_MIN) = r := hmin ▸ hresult
  unfold State.fwCopied State.fwCopyEnded at hverify ⊢
  simp only [execFwLoadDone, hload, hread, hverify, hr, State.rejectImage, Bool.false_eq_true, decide_false, Bool.false_and, if_false]
end

/-! ### Hand-over, GOOD and Idfort's own image -/

theorem execFwHandover_of_due {s : State} {f : Nat} (hswap : s.fw.swap = some f) (hdue : f ≤ s.frame)
    (hstarted : s.on Reg.SEC_STATUS_FW_STARTED = true) : execFwHandover s = .next
      (((((s.put Reg.GLB_FW_CTRL_SWAP 0).put Reg.GLB_FW_STATUS_SWAP_PENDING 0).modFw fun x => { x with swap := none }).runFirmware
        (1 - s.get Reg.SEC_STATUS_FW_HALF)).mark Reg.GLB_EVENT_FW_SWAP_DONE) := by
  simp [execFwHandover, hswap, Nat.not_lt.2 hdue, hstarted]

theorem execFwGood_of_due {s : State} (hstarted : s.on Reg.SEC_STATUS_FW_STARTED = true) (hdue : s.fw.since + 244141 ≤ s.now) :
    execFwGood s = .next ((s.mark (fwGood (s.get Reg.SEC_STATUS_FW_HALF))).put (fwGood (1 - s.get Reg.SEC_STATUS_FW_HALF)) 0) := by
  simp [execFwGood, hstarted, Nat.not_lt.2 hdue]

theorem execIdfortFwUpdate_of_verified {s : State} {i : ImageCheck} (hup : s.idfortUp = true) (hread : i.readError = false)
    (hresult : s.verifyImage i (4 + i.key.val) s.sec.idfortMin = 1) : execIdfortFwUpdate i s = .next (s.modSec fun x =>
      { x with idfortSvn := i.svn.toNat, idfortDigest := i.digest.toNat, idfortSince := s.now, spdm := [], conns := [], offers := [] }) := by
  simp [execIdfortFwUpdate, hup, hread, hresult]

end Sys2Proof.Machine
end

section
/-! ## Calibration (R498) -/
namespace Sys2Proof.Machine
namespace State
variable {s : State} {v n : Nat}

/-- The state where a calibration of KIND and INDEX has begun. -/
def calStarted (s : State) (v : Nat) : State :=
  ((((s.put Reg.GLB_CAL_CTRL_KIND v).put Reg.GLB_CAL_CTRL_INDEX (bitsOf v 1 5)).mark Reg.GLB_CAL_CTRL_BUSY).put
    Reg.GLB_CAL_CTRL_DONE 0).put Reg.GLB_CAL_CTRL_FAIL 0

theorem on_calStarted (h : s.canon = true) (v : Nat) {g : Reg.Fld} (hg : g.reg ≠ Reg.GLB_CAL_CTRL) :
    (s.calStarted v).on g = s.on g := by
  have hkind := put_canon h Reg.GLB_CAL_CTRL_KIND v
  have hindex := put_canon hkind Reg.GLB_CAL_CTRL_INDEX (bitsOf v 1 5)
  have hbusy := mark_canon hindex Reg.GLB_CAL_CTRL_BUSY
  have hdone := put_canon hbusy Reg.GLB_CAL_CTRL_DONE 0
  rw [calStarted, on_put_apart hdone 0 (by decide) (.inl hg), on_put_apart hbusy 0 (by decide) (.inl hg), mark,
    on_put_apart hindex 1 (by decide) (.inl hg), on_put_apart hkind _ (by decide) (.inl hg), on_put_apart h v (by decide) (.inl hg)]

section
variable (hbusy : s.on Reg.GLB_CAL_CTRL_BUSY = false) (hgo : bitOn v 6 = true)
include hbusy hgo

theorem writeCalCtrl_of_rings (hkind : bitOn v 0 = false) : s.writeCalCtrl v = (s.calStarted v).calRings (bitsOf v 1 5) := by
  simp only [writeCalCtrl, hbusy, hgo, hkind, Bool.not_true, Bool.or_self, Bool.false_eq_true, if_false, calStarted]

theorem writeCalCtrl_of_laser (hkind : bitOn v 0 = true) : s.writeCalCtrl v = (s.calStarted v).calLaser (bitsOf v 1 5) := by
  simp only [writeCalCtrl, hbusy, hgo, hkind, Bool.not_true, Bool.or_self, Bool.false_eq_true, if_false, if_true, calStarted]
end

theorem calRings_without_gap (hgap : s.on (Reg.OPT_PORT_STATUS_GAP n) = false) : s.calRings n = s.calEnd false := by
  simp only [calRings, hgap, Bool.not_false, Bool.or_true, if_true]

theorem calRings_in_gap (hn : n < 16) (hgap : s.on (Reg.OPT_PORT_STATUS_GAP n) = true) : s.calRings n =
    (s.modOpt fun o => { o with cal := some (0, n, s.now), calOld := (portRings n).map fun k => (k, (s.tuner k).hcal) }).each
      (portRings n) fun t k => t.startSweep k 1 := by
  simp only [calRings, hgap, Nat.not_le.2 hn, decide_false, Bool.not_true, Bool.or_self, Bool.false_eq_true, if_false]

theorem calLaser_of_warn (hwarn : s.on (Reg.OPT_LC_STATUS_WARN n) = true) : s.calLaser n = s.calEnd false := by
  simp only [calLaser, hwarn, Bool.or_true, Bool.true_or, if_true]

end State

section
variable {s : State} {n g : Nat} (hcal : s.opt.cal = some (0, n, g))
include hcal

theorem execCalDone_of_verified (hrings : ∀ k ∈ portRings n, (s.tuner k).st = 4 ∧ (s.tuner k).attempt = 0) :
    execCalDone s = .next ((s.storeCal n).calEnd true) := by
  have hall : (((portRings n).map s.tuner).all fun r => r.st == 4 && r.attempt == 0) = true := by
    simpa using hrings
  simp only [execCalDone, hcal, hall, if_true]

/-- One failed ring fails the port. -/
theorem execCalDone_of_failed {k : Nat} (hk : k ∈ portRings n) (hst : (s.tuner k).st = 6) :
    execCalDone s = .next (s.restoreCal.calEnd false) := by
  have hall : (((portRings n).map s.tuner).all fun r => r.st == 4 && r.attempt == 0) = false := by
    simp only [List.all_map, List.all_eq_false]
    exact ⟨_, hk, by simp [hst]⟩
  have hany : (((portRings n).map s.tuner).any fun r => r.st == 6 || r.attempt ≥ 2) = true := by
    simp only [List.any_map, List.any_eq_true]
    exact ⟨_, hk, by simp [hst]⟩
  simp only [execCalDone, hcal, hall, hany, Bool.false_eq_true, if_false, if_true]
end

end Sys2Proof.Machine
end

section
/-! ## Register writes (R166, R499) -/
namespace Sys2Proof.Machine
namespace State
variable {s : State} {p : Party} {addr v : Nat}

theorem writeRegister_of_none (hrow : Reg.rowAt (s.regKey addr) = none) : s.writeRegister p addr v = s := by
  simp only [writeRegister, hrow]

variable {r : Reg.Row} (hrow : Reg.rowAt (s.regKey addr) = some r) (hwritable : r.fields.any writable = true)
include hrow hwritable

theorem writeRegister_of_denied (hfw : ∀ f ∈ r.fields, writable f = true → f.fw = true) :
    s.writeRegister .host addr v = s.mark Reg.SUB_EVENT_HOST_DENIED := by
  have hall : (r.fields.filter writable).all (·.fw) = true := by
    exact List.all_eq_true.2 fun f hf => hfw f (List.mem_filter.1 hf).1 (List.mem_filter.1 hf).2
  simp [writeRegister, hostWrite, hrow, hwritable, hall]

/-- A register whose write is no operation takes the admitted value by its fields' access codes. -/
theorem writeRegister_of_firmware (hplain : r.base ∉ writeOps.map (·.1)) : s.writeRegister .firmware addr v =
    s.afterWrite r.base (s.setReg (s.regKey addr) (BitVec.ofNat 32 (writeFields r.fields
      (s.admitted r.base (r.index (s.regKey addr)) (s.reg (s.regKey addr)).toNat v) (s.reg (s.regKey addr)).toNat))) := by
  have hfind : (writeOps.find? fun e => e.1 == r.base) = none :=
    List.find?_eq_none.2 fun e he hbase => hplain (List.mem_map.2 ⟨e, he, beq_iff_eq.1 hbase⟩)
  simp only [writeRegister, hrow, hwritable, applyWrite, hfind]
  rfl

end State
end Sys2Proof.Machine
end

section
/-! ## Firmware, calibration and the register window -/
namespace Sys2Proof.Machine

theorem Party.byCp_of_not_fw {p : Party} (hp : p.fw = false) (s : State) (f : State → State) : s.byCp p f = f s := by
  cases p with
  | cp k => cases hp
  | _ => rfl

/-- Settles O60: each command by the law of what its party, its registers and its image decide. That a LOAD clears the marks of its
half is the model's choice (log entry 116), and so is what a verified Idfort image drops (log entry 117). -/
theorem firmwareAndRegisters : Obligations.FirmwareAndRegisters := by
  intro p v addr i s hcanon h t
  have hnext {t u : State} (h : t = u) : (Host.Outcome.next t : Host.Outcome State Fault Refusal) = .next u := congrArg _ h
  have hbit {j : Nat} {b : Bool} (hv : v.getLsbD j = b) : bitOn v.toNat j = b := (bitOn_toNat v j).trans hv
  have hwrite (ha : s.acts p) : s.byCp p (fun t => t.writeFwCtrl p v.toNat) = s.writeFwCtrl p v.toNat := State.byCp_of_acts ha _
  have ht : t.canon = true := State.put_canon hcanon ..
  refine ⟨fun hload hstart hswap => ⟨fun ha hrefused => ?refused, fun ha haccepted => ?load⟩,
    fun hload hstart hswap => ⟨fun ha hrefused => ?startRefused, fun ha hstopped hverified => ?start⟩,
    fun hload hstart hswap => ⟨fun hfw ha => ?swap, fun hfw => ?swapDenied⟩, ?halted,
    ⟨State.swapFw_of_armed, State.swapFw_of_refused⟩,
    fun half src n hload => ⟨execFwLoadDone_of_readError hload, execFwLoadDone_of_verified hload hcanon,
      fun r hread => execFwLoadDone_of_rejected hload hcanon hread⟩,
    fun f => execFwHandover_of_due, execFwGood_of_due, execIdfortFwUpdate_of_verified, ?cal,
    fun n g hcal => ⟨execCalDone_of_verified hcal, fun k => execCalDone_of_failed hcal⟩, ?none, ?host, ?firmware⟩
  case refused =>
    exact hnext ((hwrite ha).trans ((State.writeFwCtrl_of_load (hbit hload) (hbit hstart) (hbit hswap)).trans
      (State.loadFw_of_refused hrefused)))
  case load =>
    obtain ⟨hmarks, hbusy⟩ := State.loadFw_on ht haccepted
    have hsrc {g : Reg.Fld} (hg : g.reg ≠ Reg.GLB_FW_CTRL) : t.get g = s.get g := State.get_put_ne hcanon _ hg
    refine ⟨_, hnext ((hwrite ha).trans (State.writeFwCtrl_of_load (hbit hload) (hbit hstart) (hbit hswap))),
      hmarks _ (by simp [State.fwMarks]), hmarks _ (by simp [State.fwMarks]), hmarks _ (by simp [State.fwMarks]), hbusy, ?_⟩
    rw [State.loadFw_of_accepted haccepted, hsrc (g := Reg.GLB_FW_SRC_LO_ADDR_LO) (by decide),
      hsrc (g := Reg.GLB_FW_SRC_HI_ADDR_HI) (by decide), hsrc (g := Reg.GLB_FW_LEN_BYTES) (by decide)]
    exact ⟨rfl, rfl, rfl, rfl⟩
  case startRefused =>
    exact hnext ((hwrite ha).trans ((State.writeFwCtrl_of_start (hbit hload) (hbit hstart) (hbit hswap)).trans
      (State.startFw_of_refused hrefused)))
  case start =>
    exact hnext ((hwrite ha).trans ((State.writeFwCtrl_of_start (hbit hload) (hbit hstart) (hbit hswap)).trans
      (State.startFw_of_verified hstopped hverified)))
  case swap =>
    exact hnext ((hwrite ha).trans ((State.writeFwCtrl_of_swap (hbit hload) (hbit hstart) (hbit hswap)).trans (if_pos hfw)))
  case swapDenied =>
    exact hnext ((Party.byCp_of_not_fw hfw s _).trans ((State.writeFwCtrl_of_swap (hbit hload) (hbit hstart) (hbit hswap)).trans
      (if_neg (Bool.eq_false_iff.1 hfw))))
  case halted =>
    intro k hp hhalted hsteps x hx
    subst hp
    simp only [List.mem_cons, List.not_mem_nil, or_false] at hx
    rcases hx with rfl | rfl | rfl | rfl <;> exact hnext (State.byCp_of_halted hhalted hsteps _)
  case cal =>
    intro hbusy hgo hn
    have hgap : (Reg.OPT_PORT_STATUS_GAP (bitsOf v.toNat 1 5)).reg ≠ Reg.GLB_CAL_CTRL := by
      simp only [Reg.OPT_PORT_STATUS_GAP, Reg.OPT_PORT_STATUS, Reg.GLB_CAL_CTRL]
      omega
    have hwarn : (Reg.OPT_LC_STATUS_WARN (bitsOf v.toNat 1 5)).reg ≠ Reg.GLB_CAL_CTRL := by
      simp only [Reg.OPT_LC_STATUS_WARN, Reg.OPT_LC_STATUS, Reg.GLB_CAL_CTRL]
      omega
    exact ⟨fun hkind hoff => hnext ((State.writeCalCtrl_of_rings hbusy (hbit hgo) (hbit hkind)).trans
        (State.calRings_without_gap ((State.on_calStarted hcanon _ hgap).trans hoff))),
      fun hkind hon => hnext ((State.writeCalCtrl_of_rings hbusy (hbit hgo) (hbit hkind)).trans
        (State.calRings_in_gap hn ((State.on_calStarted hcanon _ hgap).trans hon))),
      fun hkind hon => hnext ((State.writeCalCtrl_of_laser hbusy (hbit hgo) (hbit hkind)).trans
        (State.calLaser_of_warn ((State.on_calStarted hcanon _ hwarn).trans hon)))⟩
  case none => exact fun ha hrow => hnext ((State.byCp_of_acts ha _).trans (State.writeRegister_of_none hrow))
  case host => exact fun r hrow hwritable hfw => hnext (State.writeRegister_of_denied hrow hwritable hfw)
  case firmware => exact fun r hrow hwritable hplain => hnext (State.writeRegister_of_firmware hrow hwritable hplain)

end Sys2Proof.Machine
end

section
/-! ## SWAIT and SBAR -/
namespace Sys2Proof.Machine
namespace State
variable {s t : State} {o : Op} {vid thr op payload res wdog obj : Nat}

/-! ### SWAIT (R213, R215, R216, R503) -/

section
variable {c : Nat}

theorem issueSwait_of_off (hrun : s.running c = some o) (hoff : s.synOn = false) :
    s.issueSwait c vid thr wdog = s.modCore c fun k => { k with stall := some (.swait vid thr wdog) } := by
  simp [issueSwait, hoff, hold_running hrun]

theorem issueSwait_of_on (hrun : s.running c = some o) (hon : s.synOn = true) :
    s.issueSwait c vid thr wdog = (s.stepped c).swait o c vid thr wdog := by
  simp only [issueSwait, hon, Bool.not_true, Bool.false_eq_true, if_false, seqInstr_running hrun]

theorem swait_of_large (hthr : counterMax < thr) : t.swait o c vid thr wdog = t.stopPerm c 10 vid := if_pos hthr

variable (hobj : t.xtObj o.ctx vid false = some obj) (hthr : thr ≤ counterMax)
include hobj hthr

theorem swait_of_reached (hv : thr ≤ (t.obj obj).value) : t.swait o c vid thr wdog = t.fillXt o.ctx vid := by
  simp only [swait, gt_iff_lt, Nat.not_lt.2 hthr, hobj, hv, if_false, if_true]

theorem swait_of_short (hv : (t.obj obj).value < thr) : t.swait o c vid thr wdog =
    (t.fillXt o.ctx vid).modCore c fun k => { k with
      wait := some { obj := obj, vid := vid, thr := thr, wdog := t.wdogOf o.ctx wdog } } := by
  simp only [swait, gt_iff_lt, Nat.not_lt.2 hthr, hobj, Nat.not_le.2 hv, if_false]
end

/-! ### SBAR (R224–R228, R504) -/

section
variable {core : Fin 144}

theorem issueSbar_of_off (hrun : s.running core = some o) (hoff : s.synOn = false) :
    s.issueSbar core vid op payload res wdog = s.modCore core fun k => { k with
      stall := some (.sbar vid op payload res wdog) } := by
  simp [issueSbar, hoff, hold_running hrun]

theorem issueSbar_of_on (hrun : s.running core = some o) (hon : s.synOn = true) :
    s.issueSbar core vid op payload res wdog = s.sbar (s.stepped core) o core vid op payload res wdog := by
  simp only [issueSbar, hon, Bool.not_true, Bool.false_eq_true, if_false, seqInstr_running hrun]

variable (hobj : t.xtObj o.ctx vid true = some obj) (hop : op ≤ 2)
include hobj hop

theorem sbar_of_broken (hbroken : (t.obj obj).broken = true) : s.sbar t o core vid op payload res wdog =
    ((t.bump Reg.SYN_WDOG_CNT_COUNT).mark Reg.SYN_EVENT_WATCHDOG).stopLaunch core fSyncWatchdog
      (breakRecord (t.obj obj) vid none (.core core) o.party).detail := by
  simp only [sbar, gt_iff_lt, Nat.not_lt.2 hop, hobj, hbroken, if_false, if_true]

variable (hbroken : (t.obj obj).broken = false)
include hbroken

theorem sbar_of_full (hslot : (t.obj obj).slot = none) :
    s.sbar t o core vid op payload res wdog = s.hold core (.sbar vid op payload res wdog) := by
  simp only [sbar, gt_iff_lt, Nat.not_lt.2 hop, hobj, hbroken, hslot, Option.isNone_none, Bool.false_eq_true, if_false, if_true]

variable (hslot : (t.obj obj).slot.isSome = true)
include hslot

theorem sbar_of_misfit (hfits : (t.obj obj).fits op = false) :
    s.sbar t o core vid op payload res wdog = t.stopPerm core 10 vid := by
  have hroom : (t.obj obj).slot.isNone = false := by simpa using hslot
  simp only [sbar, gt_iff_lt, Nat.not_lt.2 hop, hobj, hbroken, hroom, hfits, Bool.not_false, Bool.false_eq_true, if_false, if_true]

theorem sbar_of_arrival (hfits : (t.obj obj).fits op = true) : s.sbar t o core vid op payload res wdog =
    ((t.fillXt o.ctx vid).modCore core fun k => { k with
      wait := some { obj := obj, vid := vid, barrier := true, wdog := t.wdogOf o.ctx wdog, res := res } }).arrive
        obj o.ctx vid (.core core) op payload := by
  have hroom : (t.obj obj).slot.isNone = false := by simpa using hslot
  simp only [sbar, gt_iff_lt, Nat.not_lt.2 hop, hobj, hbroken, hroom, hfits, Bool.not_true, Bool.false_eq_true, if_false]
end
end State

/-- A core that runs a LAUNCH issues its SBAR, and the cores that hold an instruction try again (R504). -/
theorem execSbar_running {core : Fin 144} {o : Op} {s : State} (hrun : s.running core = some o) (vid : BitVec 16) (op : Byte)
    (payload : BitVec 64) (res : BitVec 22) (wdog : Word) : execSbar core vid op payload res wdog s =
      .next (s.issueSbar core vid.toNat op.toNat payload.toNat res.toNat wdog.toNat).retrySync := by
  simp only [execSbar, hrun, Option.isSome_some, State.when, if_true]

/-- Settles O14: while ENABLE is 0 the core holds either instruction; else the threshold and the counter decide what SWAIT does,
and the barrier's episodes and payload operation what SBAR does. -/
theorem coreWaits : Obligations.CoreWaits := by
  intro core vid thr payload op res wdog o s obj hrun t b u frames held
  have hframes : t.wdogOf o.ctx wdog.toNat = frames := State.wdogOf_eq ..
  have hsbar {x : State} (h : s.issueSbar core vid.toNat op.toNat payload.toNat res.toNat wdog.toNat = x) :
      exec (.sbar core vid op payload res wdog) s = .next x.retrySync := h ▸ execSbar_running hrun ..
  refine ⟨fun hoff => ⟨congrArg Host.Outcome.next (State.issueSwait_of_off hrun hoff),
    hsbar (State.issueSbar_of_off hrun hoff)⟩, fun hon => ?_⟩
  have hswait {x : State} (h : t.swait o core vid.toNat thr.toNat wdog.toNat = x) :
      exec (.swait core vid thr wdog) s = .next x :=
    congrArg Host.Outcome.next ((State.issueSwait_of_on hrun hon).trans h)
  have hissue {x : State} (h : s.sbar t o core vid.toNat op.toNat payload.toNat res.toNat wdog.toNat = x) :
      exec (.sbar core vid op payload res wdog) s = .next x.retrySync := hsbar ((State.issueSbar_of_on hrun hon).trans h)
  refine ⟨fun hobj hv hthr => hswait (State.swait_of_reached hobj hthr hv), fun hobj hv hthr => ?short,
    fun hthr => hswait (State.swait_of_large hthr), fun hobj hop => ⟨fun hbroken hslot hfits => ?arrival,
      fun hbroken hslot => hissue ((State.sbar_of_full hobj hop hbroken hslot).trans (State.hold_running hrun _)),
      fun hbroken hslot hfits => hissue (State.sbar_of_misfit hobj hop hbroken hslot hfits),
      fun hbroken => ⟨_, hissue (State.sbar_of_broken hobj hop hbroken)⟩⟩⟩
  case short => exact hswait (hframes ▸ State.swait_of_short hobj hthr hv)
  case arrival => exact hissue (hframes ▸ State.sbar_of_arrival hobj hop hbroken hslot hfits)

end Sys2Proof.Machine
end

section
/-! ## What leaves the synchronisation as it is -/
namespace Sys2Proof.Machine
namespace State
variable {s t : State}

theorem each_syn {α : Type} (s : State) (l : List α) {f : State → α → State} (hf : ∀ t a, (f t a).syn = t.syn) :
    (s.each l f).syn = s.syn := by
  unfold each
  induction l generalizing s with
  | nil => rfl
  | cons a l ih => rw [List.foldl_cons, ih, hf]

theorem when_syn (s : State) (b : Bool) {f : State → State} (hf : ∀ t, (f t).syn = t.syn) : (s.when b f).syn = s.syn := by
  cases b with
  | false => rfl
  | true => exact hf s

/-! ### Records of health -/

@[simp] theorem writeCper_syn (s : State) (c : Cper) : (s.writeCper c).syn = s.syn := by
  rw [writeCper, emit_syn, when_syn, modInt_syn]
  exact fun _ => rfl

@[simp] theorem cper_syn (s : State) (c : Cper) (temp : Option Int) (ctx : Option Nat) : (s.cper c temp ctx).syn = s.syn := by
  simp [cper]

@[simp] theorem setScore_syn (s : State) (kind index v : Nat) : (s.setScore kind index v).syn = s.syn := by
  rw [setScore, when_syn, when_syn, modInt_syn]
  · exact fun _ => rfl
  · exact fun _ => cper_syn ..

@[simp] theorem charge_syn (s : State) (kind index n : Nat) : (s.charge kind index n).syn = s.syn := by simp [charge]

/-! ### Memory -/

@[simp] theorem setByte_syn (s : State) (a : Nat) (v : Byte) : (s.setByte a v).syn = s.syn := by
  unfold setByte
  split <;> rfl

@[simp] theorem setPa_syn (s : State) (a : Nat) (v : Byte) : (s.setPa a v).syn = s.syn := by
  unfold setPa
  split <;> exact setByte_syn ..

@[simp] theorem store_syn (s : State) (w : List Host.Cell) : (s.store w).syn = s.syn :=
  each_syn s w fun t c => by
    split
    · rfl
    · exact setPa_syn ..

@[simp] theorem hostStore_syn (s : State) (a : Nat) (bs : List Byte) : (s.hostStore a bs).syn = s.syn := rfl

@[simp] theorem copyPage_syn (s : State) (src dst : Nat) : (s.copyPage src dst).syn = s.syn := rfl

@[simp] theorem latchErr_syn (s : State) (kind pa : Nat) (ctx : Option Nat) : (s.latchErr kind pa ctx).syn = s.syn := by
  unfold latchErr
  split
  · rfl
  · cases ctx <;> rfl

@[simp] theorem countUe_syn (s : State) (pa : Nat) (ctx : Option Nat) : (s.countUe pa ctx).syn = s.syn := by
  unfold countUe
  split <;> simp

@[simp] theorem noteUePage_syn (s : State) (c pa : Nat) : (s.noteUePage c pa).syn = s.syn := by
  unfold noteUePage
  split
  · rfl
  · split <;> rfl

@[simp] theorem ueMemory_syn (s : State) (pa : Nat) : (s.ueMemory pa).2.syn = s.syn := by
  unfold ueMemory
  split <;> rfl

@[simp] theorem consumeUe_syn (s : State) (pa : Nat) (ctx : Option Nat) : (s.consumeUe pa ctx).2.syn = s.syn := by
  cases ctx <;> simp [consumeUe, chargeNoted]

/-! ### Fault records and dirt (R311, R425–R428) -/

@[simp] theorem flogWrite_syn (s : State) (r : FaultRec) : (s.flogWrite r).syn = s.syn := by
  unfold flogWrite
  split
  · rfl
  split
  · rfl
  · extract_lets s1 s2
    have hwritten : s2.syn = s.syn := by simp [s2, s1]
    split <;> simp [msix, hwritten]

@[simp] theorem logRec_syn (s : State) (r : FaultRec) : (s.logRec r).syn = s.syn := by
  unfold logRec
  dsimp only
  split
  · rfl
  · exact flogWrite_syn ..

@[simp] theorem dirty_syn (s : State) (c b : Nat) : (s.dirty c b).syn = s.syn := by
  unfold dirty
  split
  · rfl
  split
  · rfl
  split <;> rfl

@[simp] theorem ueRecord_syn (s : State) (p : PartyRec) (unitKind unit pa : Nat) : (s.ueRecord p unitKind unit pa).syn = s.syn := by
  simp [ueRecord]

@[simp] theorem countCheck_syn (s : State) (loc unitKind unit offset : Nat) (ctx : Option Nat) (opc : Nat) :
    (s.countCheck loc unitKind unit offset ctx opc).syn = s.syn := by
  rw [countCheck, cper_syn, charge_syn, when_syn, mark_syn, bump_syn]
  exact fun _ => rfl

@[simp] theorem hubFault_syn (s : State) (p : PartyRec) (kind code : Nat) (detail : List (Nat × Nat)) :
    (s.hubFault p kind code detail).syn = s.syn := by
  simp [hubFault]

/-! ### Writes of the hub's units (R397, R402) -/

@[simp] theorem setDirtyBit_syn (s : State) (g : Nat) : (s.setDirtyBit g).syn = s.syn := by
  unfold setDirtyBit
  dsimp only
  split
  · exact ueRecord_syn ..
  · exact setByte_syn ..

theorem preImage_syn {w : Writer} {pa va : Nat} {ckpt pre : Option Nat} (h : s.preImage w pa va ckpt pre = .go t) :
    t.syn = s.syn := by
  unfold preImage at h
  split at h
  · cases h
  split at h
  · cases h
  · cases h
    rw [when_syn, modCkp_syn, copyPage_syn]
    exact fun _ => rfl

theorem touchPage_syn {w : Writer} {pa : Nat} (h : s.touchPage w pa = .go t) : t.syn = s.syn := by
  unfold touchPage at h
  split at h
  · cases h
    rfl
  split at h
  · cases h
    exact setDirtyBit_syn ..
  split at h
  · next hpre =>
    cases h
    exact (setDirtyBit_syn ..).trans (preImage_syn hpre)
  · next hpre => exact absurd h (hpre t)

theorem touchPages_syn {w : Writer} {l : List Nat} (h : s.touchPages w l = .go t) : t.syn = s.syn := by
  induction l generalizing s with
  | nil =>
    cases h
    rfl
  | cons pa l ih =>
    unfold touchPages at h
    split at h
    · next hpa => exact (ih h).trans (touchPage_syn hpa)
    · next hpa => exact absurd h (hpa t)

@[simp] theorem hubStore_syn (s : State) (h : HeldWrite) (e : MemErr) : (s.hubStore h e).1.syn = s.syn := by
  unfold hubStore
  dsimp only
  split
  · simp
  split
  · simp
  split
  · simp
  · rfl
  · next htouch =>
    have hsyn := touchPages_syn htouch
    split <;> simp [hsyn]

@[simp] theorem hubWrite_syn (s : State) (h : HeldWrite) (e : MemErr) : (s.hubWrite h e).syn = s.syn := by
  have hstore := hubStore_syn s h e
  unfold hubWrite
  dsimp only
  split
  · rfl
  split
  · next hdone => rwa [hdone] at hstore
  · next hheld =>
    rw [hheld] at hstore
    exact hstore

@[simp] theorem ringWrite_syn (s : State) (r addr : Nat) (bs : List Byte) (e : MemErr) : (s.ringWrite r addr bs e).syn = s.syn := by
  unfold ringWrite
  split
  · dsimp only
    split
    · split <;> simp
    · exact hubWrite_syn ..
  · rfl

/-! ### Completion records, and what an ending operation stops (R190, R423) -/

@[simp] theorem writeCb_syn (s : State) (r : Nat) (e : MemErr) : (s.writeCb r e).syn = s.syn := by simp [writeCb]

@[simp] theorem recordOp_syn (s : State) (o : Op) (status code : Nat) (e : MemErr) : (s.recordOp o status code e).syn = s.syn := by
  unfold recordOp
  extract_lets x n phase s1 fresh s2 s3
  have hdone : s2.syn = s.syn := by simp [s2, s1]
  split
  · have hcb : s3.syn = s.syn := by simp [s3, hdone]
    split <;> simp [msix, hcb]
  · exact hdone

@[simp] theorem flushFin_syn (n : Nat) (s : State) (r : Nat) : (flushFin n s r).syn = s.syn := by
  induction n generalizing s with
  | zero => rfl
  | succ n ih =>
    unfold flushFin
    split
    · rfl
    split
    · rfl
    split
    · rfl
    · exact (ih _).trans (recordOp_syn ..)

@[simp] theorem endSeq_syn (s : State) (p tile : Nat) : (s.endSeq p tile).syn = s.syn := by
  unfold endSeq
  split
  · rfl
  dsimp only
  split
  · rfl
  split
  · rfl
  · simp [teeOut]

@[simp] theorem endSeqs_syn (s : State) (p : Nat) : (s.endSeqs p).syn = s.syn := each_syn _ _ fun _ _ => endSeq_syn ..

@[simp] theorem dropCells_syn (s : State) (o : Op) : (s.dropCells o).syn = s.syn := rfl

@[simp] theorem mirrorStale_syn (s : State) : s.mirrorStale.syn = s.syn := by
  unfold mirrorStale
  split <;> rfl

@[simp] theorem svcOut_syn (s : State) (p : Nat) (m : SvcBody) (hops : Nat) : (s.svcOut p m hops).syn = s.syn := by
  simp only [svcOut, modPort_syn]
  split <;> rfl

end State
end Sys2Proof.Machine
end

section
/-! ## Values of counters never fall where barriers break -/
namespace Sys2Proof

/-- A write that keeps a measure of what its key holds lowers it nowhere, whatever the form of the map, where an unlisted key
measures 0: at most it uncovers an entry. -/
theorem le_sget_sset {β : Type} [DecidableEq β] {d : Nat → β} {f : β → Nat} (hd : ∀ k, f (d k) = 0) {m : Sparse β} {k : Nat}
    {v : β} (hv : f v = f (sget d m k)) (j : Nat) : f (sget d m j) ≤ f (sget d (sset d m k v) j) := by
  induction m with
  | nil => simp [sget, hd]
  | cons e m ih =>
    obtain ⟨a, w⟩ := e
    rcases Nat.lt_trichotomy k a with hlt | rfl | hgt
    · simp only [sget, hlt.ne, hlt, if_false, if_true] at hv
      simp only [sset, hlt, if_true]
      split
      · exact Nat.le_refl _
      · simp only [sget]
        grind
    · simp only [sget, if_true] at hv
      simp only [sset, Nat.lt_irrefl, if_false, if_true]
      split <;> simp only [sget] <;> grind
    · simp only [sget, hgt.ne', hgt.not_gt, if_false] at hv
      simp only [sset, hgt.ne', hgt.not_gt, if_false, sget]
      split
      · exact Nat.le_refl _
      split
      · exact Nat.le_refl _
      · exact ih hv

namespace Machine
namespace State
variable {s t : State}

/-- No counter holds less than before. -/
structure NoneFell (s t : State) : Prop where
  value_le (j : Nat) : (s.obj j).value ≤ (t.obj j).value

theorem NoneFell.refl (s : State) : s.NoneFell s := ⟨fun _ => Nat.le_refl _⟩

theorem NoneFell.trans {u : State} (h : s.NoneFell t) (h' : t.NoneFell u) : s.NoneFell u :=
  ⟨fun j => (h.value_le j).trans (h'.value_le j)⟩

theorem noneFell_of_objs (h : t.syn.objs = s.syn.objs) : s.NoneFell t := ⟨fun j => by rw [obj, obj, h]⟩

theorem noneFell_of_syn (h : t.syn = s.syn) : s.NoneFell t := noneFell_of_objs (congrArg SynSt.objs h)

theorem noneFell_each {α : Type} (s : State) (l : List α) {f : State → α → State} (hf : ∀ (t : State) a, t.NoneFell (f t a)) :
    s.NoneFell (s.each l f) := by
  unfold each
  induction l generalizing s with
  | nil => exact .refl s
  | cons a l ih => exact (hf s a).trans (ih _)

theorem noneFell_setObj {obj : Nat} {b : SyncObj} (hb : b.value = (s.obj obj).value) : s.NoneFell (s.setObj obj b) :=
  ⟨le_sget_sset (f := SyncObj.value) (fun _ => rfl) hb⟩

theorem noneFell_dropWaiter (s : State) (obj : Nat) (w : Waiter) : s.NoneFell (s.dropWaiter obj w) := noneFell_setObj rfl

theorem noneFell_dropCoreWait (s : State) (c : Nat) : s.NoneFell (s.dropCoreWait c) := by
  unfold dropCoreWait
  split
  · split
    · exact noneFell_dropWaiter ..
    · exact .refl s
  · exact .refl s

theorem noneFell_stopCores (s : State) (o : Op) : s.NoneFell (s.stopCores o) := by
  have hcore (t : State) (c : Nat) : t.NoneFell ((t.endSeqs c).dropCoreWait c) :=
    (noneFell_of_syn (endSeqs_syn t c)).trans (noneFell_dropCoreWait _ c)
  exact (noneFell_each s _ fun t c => (hcore t c).trans (noneFell_of_syn (modCore_syn ..))).trans
    (noneFell_of_syn (modHrc_syn ..))

theorem noneFell_endQuiet (s : State) (o : Op) (status code : Nat) : s.NoneFell (s.endQuiet o status code) := by
  unfold endQuiet
  extract_lets s1 syn s2 s3 s4 s5
  have h3 : s1.NoneFell s3 := noneFell_of_objs (by simp [s3, s2, syn])
  have h4 : s4.syn = s3.syn := when_syn _ _ fun _ => bump_syn ..
  have h5 : s5.syn = s4.syn := when_syn _ _ mirrorStale_syn
  have h6 := when_syn s5 (status != stAborted) fun t => dirty_syn t o.ctx 1
  exact ((noneFell_stopCores s o).trans h3).trans (noneFell_of_syn ((h6.trans h5).trans h4))

theorem noneFell_failArrival (s : State) (o : Op) : s.NoneFell (s.failArrival o) := by
  unfold failArrival
  split
  · exact .refl s
  · exact (noneFell_endQuiet ..).trans (noneFell_of_syn (when_syn _ _ fun _ => modCtx_syn ..))

theorem noneFell_barSend (s : State) (p : Nat) (m : SyncMsg) : s.NoneFell (s.barSend p m) := by
  unfold barSend
  split
  · exact noneFell_of_syn (svcOut_syn ..)
  · exact noneFell_of_objs rfl

theorem noneFell_breakOnly (s : State) (obj c vid : Nat) (origin : Option Nat) (past : Bool) :
    s.NoneFell (s.breakOnly obj c vid origin past) := by
  unfold breakOnly
  extract_lets b failed _ _ s1 s2 s3 s4
  have h1 : s.NoneFell s1 := (noneFell_setObj (by rfl)).trans (noneFell_of_syn (mark_syn ..))
  have h2 : s1.NoneFell s2 := noneFell_each _ _ fun _ _ => noneFell_barSend ..
  have h3 : s3.syn = s2.syn := when_syn _ _ fun _ => mark_syn ..
  have h4 : s4.syn = s3.syn := each_syn _ _ fun _ _ => logRec_syn ..
  exact (h1.trans h2).trans ((noneFell_of_syn (h4.trans h3)).trans (noneFell_each _ _ noneFell_failArrival))

theorem noneFell_sendBreaks (n : Nat) (s : State) : s.NoneFell (sendBreaks n s) := by
  induction n generalizing s with
  | zero => exact .refl s
  | succ n ih =>
    unfold sendBreaks
    split
    · exact .refl s
    · extract_lets c s1
      have h1 : s1.syn = s.syn := by simp [s1]
      exact (noneFell_of_syn h1).trans ((noneFell_breakOnly ..).trans (ih _))

theorem noneFell_cause (s : State) (c b : Nat) : s.NoneFell (s.cause c b) :=
  (noneFell_of_syn (dirty_syn s c b)).trans (noneFell_sendBreaks 64 _)

/-- A fault record and the dirt that it brings lower no counter. -/
theorem noneFell_raise (s : State) (r : FaultRec) : s.NoneFell (s.raise r) :=
  (noneFell_of_syn (logRec_syn s r)).trans
    (noneFell_each _ _ fun t c => noneFell_each t (causeBits r.code) fun u => noneFell_cause u c)

end State
end Machine
end Sys2Proof
end

section
/-! ## Remote signals -/
namespace Sys2Proof.Machine
namespace State
variable {s : State}

/-! ### A hub cycle with one signal (R211) -/

/-- The overflow of a counter counted and reported in the name of the signal that brings it. -/
def overflowed (s : State) (x : Sig) : State :=
  ((s.mark Reg.SYN_EVENT_OVERFLOW).bump Reg.SYN_OVERFLOW_CNT_COUNT).raise
    { code := fSyncOverflow, unitKind := x.kind, unit := x.unit, p1 := some x.party, detail := [(2, x.vid), (8, x.d)] }

/-- The record of an overflow may break barriers, but lowers no counter. -/
theorem noneFell_overflowed (s : State) (x : Sig) : s.NoneFell (s.overflowed x) :=
  (noneFell_of_syn ((bump_syn ..).trans (mark_syn ..))).trans (noneFell_raise ..)

/-- Beyond 2^63 − 1 a counter saturates, whatever the sum. -/
theorem setCounter_saturates {obj v w : Nat} (hv : counterMax ≤ v) (hw : counterMax ≤ w) :
    s.setCounter obj v = s.setCounter obj w := by
  rw [setCounter, setCounter, Nat.min_eq_right hv, Nat.min_eq_right hw]

section
variable {obj : Nat} {x : Sig}

theorem sumSignals_zero (hd : x.d = 0) : s.sumSignals obj [x] = s := by
  have hreal : [x].filter (fun y => y.d != 0) = [] := by simp [hd]
  rw [sumSignals, hreal]
  rfl

variable (hd : x.d ≠ 0)
include hd

/-- A signal of a value is the sum of its hub cycle, and its first source. -/
theorem sumSignals_singleton : s.sumSignals obj [x] =
    let s1 := s.when (decide ((s.obj obj).value + x.d > counterMax)) fun t => t.overflowed x
    s1.setCounter obj ((s1.obj obj).value + x.d) := by
  have hreal : [x].filter (fun y => y.d != 0) = [x] := by simp [hd]
  have hsum : ([x].map (·.d)).foldl (· + ·) 0 = x.d := by simp
  rw [sumSignals, hreal]
  simp only [hsum, sortOn, insertOn, List.foldr, overflowed]

theorem sumSignals_within (hle : (s.obj obj).value + x.d ≤ counterMax) :
    s.sumSignals obj [x] = s.setCounter obj ((s.obj obj).value + x.d) := by
  rw [sumSignals_singleton hd]
  simp only [gt_iff_lt, Nat.not_lt.2 hle, decide_false, when, Bool.false_eq_true, if_false]

theorem sumSignals_overflow (hlt : counterMax < (s.obj obj).value + x.d) :
    s.sumSignals obj [x] = (s.overflowed x).setCounter obj ((s.obj obj).value + x.d) := by
  have hkept := (noneFell_overflowed s x).value_le obj
  rw [sumSignals_singleton hd]
  simp only [gt_iff_lt, hlt, decide_true, when, if_true]
  exact setCounter_saturates (hlt.le.trans (Nat.add_le_add_right hkept x.d)) hlt.le
end

/-! ### A signal that arrives (R218, R220, R222, R286) -/

section
variable {port : Nat} {m : SyncMsg}

theorem signalIn_of_foreign (hslice : m.slice.toNat ≠ s.get Reg.SWT_SLICE_TAG) :
    s.signalIn port m = s.routeMiss port 1 m.src.toNat m.dest.toNat m.slice.toNat := by
  simp only [signalIn, signalSig, bne_iff_ne.2 hslice, if_true, Option.toList_none, applySignals, List.map_nil]
  rfl

variable (hslice : m.slice.toNat = s.get Reg.SWT_SLICE_TAG)
include hslice

theorem signalIn_of_accepted {c obj : Nat} (hcheck : s.remoteCheck m.vcid.toNat m.epoch.toNat m.object.toNat = .ok (c, obj)) :
    s.signalIn port m =
      let t := s.fillXt c m.object.toNat
      (t.sendTo t.moduleId m.src.toNat (.sync { m with kind := 2, dest := m.src, src := m.dest, value := 0 })).sumSignals obj
        [⟨obj, m.value.toNat, s.ctxParty c, 7, 0, m.object.toNat, true⟩] := by
  simp only [signalIn, signalSig, hslice, bne_self_eq_false, Bool.false_eq_true, if_false, remoteSig, hcheck,
    Option.isSome_none, Option.getD_none, Except.toOption, Option.toList_some, applySignals_singleton]
  rfl

theorem signalIn_of_refused {code : Nat} (hcheck : s.remoteCheck m.vcid.toNat m.epoch.toNat m.object.toNat = .error code) :
    s.signalIn port m =
      let t := (s.countRefusal code).when (code == fMemUe) fun u => u.xtUe m.vcid.toNat m.object.toNat
      t.sendTo t.moduleId m.src.toNat (.sync { m with kind := 3, dest := m.src, src := m.dest, value := BitVec.ofNat 64 code }) := by
  simp only [signalIn, signalSig, hslice, bne_self_eq_false, Bool.false_eq_true, if_false, remoteSig, hcheck,
    Option.isSome_some, if_true, Option.getD_some, Except.toOption, Option.toList_none, applySignals, List.map_nil]
  rfl
end
end State

section
variable {s : State}

theorem execSignalMessage_of_off {port : Fin 16} {m : SyncMsg} (hoff : s.synOn = false) :
    execSignalMessage port m s = .next (s.holdSync (.signal port m)) := by
  simp only [execSignalMessage, hoff, Bool.false_eq_true, if_false]

theorem execSignalMessage_of_on {port : Fin 16} {m : SyncMsg} (hon : s.synOn = true) :
    execSignalMessage port m s = .next (s.signalIn port m) := by
  simp only [execSignalMessage, hon, if_true]

/-! ### The answer to a signal, or none (R219–R222) -/

section
variable {m : SyncMsg} {x : RemoteSig} (hx : s.remoteOf m.tag.toNat = some x)
include hx

theorem execSyncAck_of_held : execSyncAck m s = .next (s.ackSignal x).retrySync := by
  simp only [execSyncAck, hx]

theorem execSyncNack_of_held : execSyncNack m s = .next (s.failSignal x (m.value.toNat % 256)
    (refusalDetail (m.value.toNat % 256) m.src.toNat
      (((s.op? x.ring x.idx).map fun o => s.get (Reg.SYN_CTX_EPOCH_EPOCH o.ctx)).getD 0) m.epoch.toNat m.object.toNat 1)).retrySync := by
  simp only [execSyncNack, hx]
end

theorem execSyncAck_of_unknown {m : SyncMsg} (h : s.remoteOf m.tag.toNat = none) : execSyncAck m s = .next s.retrySync := by
  simp only [execSyncAck, h]

theorem execSyncNack_of_unknown {m : SyncMsg} (h : s.remoteOf m.tag.toNat = none) : execSyncNack m s = .next s := by
  simp only [execSyncNack, h]

section
variable {tag : BitVec 16} {x : RemoteSig} (hx : s.remoteOf tag.toNat = some x)
include hx

theorem execRemoteSignalTimeout_of_due (hdue : x.sentTick + 16 ≤ s.now) : execRemoteSignalTimeout tag s =
    .next (s.failSignal x fLinkDown [(1, 0), (1, 4), (2, x.dest)]).retrySync := by
  simp only [execRemoteSignalTimeout, hx, Nat.not_lt.2 hdue, if_false]

theorem execRemoteSignalTimeout_of_early (hearly : s.now < x.sentTick + 16) : execRemoteSignalTimeout tag s = .next s := by
  simp only [execRemoteSignalTimeout, hx, hearly, if_true]
end
end

/-- Settles O35: a signal by what its checks say, a sum by where it lies, an answer by the signal held under its tag. -/
theorem remoteSignals : Obligations.RemoteSignals := by
  intro port m tag s
  have hin {t : State} (hon : s.synOn = true) (h : s.signalIn port m = t) : exec (.signalMessage port m) s = .next t :=
    h ▸ execSignalMessage_of_on hon
  exact ⟨execSignalMessage_of_off, fun hon hslice => hin hon (State.signalIn_of_foreign hslice),
    fun c obj hon hslice hcheck => hin hon (State.signalIn_of_accepted hslice hcheck),
    fun code hon hslice hcheck => hin hon (State.signalIn_of_refused hslice hcheck),
    fun x => execSyncAck_of_held, fun x hx => ⟨_, execSyncNack_of_held hx⟩,
    fun x => execRemoteSignalTimeout_of_due, fun x => execRemoteSignalTimeout_of_early,
    fun obj x => State.sumSignals_within, fun obj x => State.sumSignals_overflow, fun obj x => State.sumSignals_zero,
    fun h => ⟨execSyncAck_of_unknown h, execSyncNack_of_unknown h⟩⟩

end Sys2Proof.Machine
end

section
/-! ## Ring loops: lock, sweep and tone check (R243–R249) -/
namespace Sys2Proof.Machine

/-- The key of the loop of a ring. -/
abbrev loopKey (r : RingName) : Nat := ringKey r.port.val r.rx r.lam.val

section
variable {r : RingName} {s : State}

/-! ### The lock (R244, R249) -/

section
variable (hst : (s.tuner (loopKey r)).st = 2)
include hst

theorem execRingLock_of_held (hgood : 16 ≤ (s.tuner (loopKey r)).good) : execRingLock r s =
    .next (s.modTuner (loopKey r) fun y => { y with st := 3, acquire := none, check := some (s.now, 512) }) := by
  simp only [execRingLock, hst, bne_self_eq_false, Bool.false_eq_true, if_false, ge_iff_le, hgood, if_true]

variable (hgood : (s.tuner (loopKey r)).good < 16)
include hgood

theorem execRingLock_of_slow {t0 : Nat} (hacq : (s.tuner (loopKey r)).acquire = some t0)
    (hattempt : 0 < (s.tuner (loopKey r)).attempt) (hdue : t0 + 16 ≤ s.now) :
    execRingLock r s = .next (s.attemptFails r.port.val r.rx r.lam.val) := by
  simp only [execRingLock, hst, bne_self_eq_false, Bool.false_eq_true, if_false, ge_iff_le, Nat.not_le.2 hgood, hacq,
    gt_iff_lt, hattempt, hdue, decide_true, Bool.and_self, if_true]

theorem execRingLock_of_acquiring (hwait : (s.tuner (loopKey r)).acquire = none ∨ (s.tuner (loopKey r)).attempt = 0
      ∨ ∃ t0, (s.tuner (loopKey r)).acquire = some t0 ∧ s.now < t0 + 16) : execRingLock r s = .next s := by
  simp only [execRingLock, hst, bne_self_eq_false, Bool.false_eq_true, if_false, ge_iff_le, Nat.not_le.2 hgood]
  rcases hwait with hnone | hzero | ⟨t0, hacq, hearly⟩
  · simp only [hnone]
  · split
    · simp only [hzero, gt_iff_lt, Nat.lt_irrefl, decide_false, Bool.false_and, Bool.false_eq_true, if_false]
    · rfl
  · simp only [hacq, Nat.not_le.2 hearly, decide_false, Bool.and_false, Bool.false_eq_true, if_false]
end

theorem execRingLock_of_untuned (hst : (s.tuner (loopKey r)).st ≠ 2) : execRingLock r s = .next s :=
  if_pos (bne_iff_ne.2 hst)

/-! ### The sweep (R249) -/

/-- The calibration that runs is that of a port (R498). -/
abbrev State.Calibrates (s : State) (p : Nat) : Prop := ∃ c, s.opt.cal = some c ∧ c.1 = 0 ∧ c.2.1 = p

theorem State.calibrates_iff {p : Nat} : ((s.opt.cal.map fun c => c.1 == 0 && c.2.1 == p) == some true) = true ↔ s.Calibrates p := by
  rcases hcal : s.opt.cal with _ | ⟨kind, q, n⟩ <;> simp [hcal]

section
variable {t0 : Nat} (hsweep : (s.tuner (loopKey r)).sweep = some t0) (hst : (s.tuner (loopKey r)).st = 1) (hdue : t0 + 250 ≤ s.now)
include hsweep hst hdue

theorem execRingSweepEnd_of_none : execRingSweepEnd r none s = .next (s.attemptFails r.port.val r.rx r.lam.val) := by
  simp only [execRingSweepEnd, hsweep, hst, bne_self_eq_false, Nat.not_lt.2 hdue, decide_false, Bool.or_self, Bool.false_eq_true, if_false]

theorem execRingSweepEnd_of_calibration {h : BitVec 16} (hcal : s.Calibrates r.port.val) : execRingSweepEnd r (some h) s =
    .next (s.modTuner (loopKey r) fun y => { y with
      st := 2, sweep := none, heater := h.toNat, good := 0, acquire := some s.now, hcal := some h.toNat }) := by
  simp only [execRingSweepEnd, hsweep, hst, bne_self_eq_false, Nat.not_lt.2 hdue, decide_false, Bool.or_self, Bool.false_eq_true, if_false,
    State.calibrates_iff, hcal, if_true]

theorem execRingSweepEnd_of_extremum {h : BitVec 16} (hcal : ¬ s.Calibrates r.port.val) : execRingSweepEnd r (some h) s =
    .next (s.modTuner (loopKey r) fun y => { y with
      st := 2, sweep := none, heater := h.toNat, good := 0, acquire := some s.now }) := by
  simp only [execRingSweepEnd, hsweep, hst, bne_self_eq_false, Nat.not_lt.2 hdue, decide_false, Bool.or_self, Bool.false_eq_true, if_false,
    State.calibrates_iff, hcal]
end

theorem execRingSweepEnd_of_waiting {ext : Option (BitVec 16)} (hwait : (s.tuner (loopKey r)).sweep = none ∨ (s.tuner (loopKey r)).st ≠ 1
      ∨ ∃ t0, (s.tuner (loopKey r)).sweep = some t0 ∧ s.now < t0 + 250) : execRingSweepEnd r ext s = .next s := by
  rcases hwait with hnone | hst | ⟨t0, hsweep, hearly⟩
  · simp only [execRingSweepEnd, hnone]
  · cases hsweep : (s.tuner (loopKey r)).sweep <;> simp [execRingSweepEnd, hsweep, hst]
  · simp [execRingSweepEnd, hsweep, hearly]

/-! ### The tone check (R244–R249) -/

/-- The loop after its tones are read. -/
abbrev State.toned (s : State) (r : RingName) (tones : List Tone) : State :=
  s.modTuner (loopKey r) fun y => { y with tone := strongest tones }

/-- The loop after a sound check: VERIFIED, and its bus goes on after an attempt. -/
abbrev State.toneVerified (s : State) (r : RingName) (tones : List Tone) : State :=
  let t := (s.toned r tones).modTuner (loopKey r) fun y => { y with st := 4, attempt := 0, check := some (s.now, 512) }
  (if 0 < (s.tuner (loopKey r)).attempt then t.resumeBus r.port.val r.rx r.lam.val else t).goAfter r.port.val r.rx r.lam.val

section
variable {tones : List Tone} {t0 n : Nat} (hcheck : (s.tuner (loopKey r)).check = some (t0, n)) (hon : s.on Reg.OPT_CTRL_TONE_EN = true)
  (hdue : t0 + n ≤ s.now) (hst : (s.tuner (loopKey r)).st = 3 ∨ (s.tuner (loopKey r)).st = 4)
include hcheck hon hdue hst

/-- A check that is due is decided by its tones. -/
theorem execToneCheckEnd_of_due : execToneCheckEnd r tones s = .next
    (if toneOk ((s.toned r tones).expected r.port.val r.rx r.lam.val) tones then
      (if r.rx then s.toneVerified r tones else (List.range 16).foldl (fun u j =>
        if laneWave (u.txSpare r.port.val) j = r.lam.val then u.quietOff r.port.val (32 + j) else u) (s.toneVerified r tones)).refreshPort r.port.val
    else ((s.toned r tones).wrongLambda r.port.val r.rx r.lam.val tones).attemptFails r.port.val r.rx r.lam.val) := by
  have hgo : (!s.on Reg.OPT_CTRL_TONE_EN || s.now < t0 + n || ((s.tuner (loopKey r)).st != 3 && (s.tuner (loopKey r)).st != 4)) = false := by
    rcases hst with hst | hst <;> simp [hon, hdue, hst]
  simp only [execToneCheckEnd, hcheck, hgo, Bool.false_eq_true, if_false]
  split <;> rfl

theorem execToneCheckEnd_of_failed (hok : toneOk ((s.toned r tones).expected r.port.val r.rx r.lam.val) tones = false) :
    execToneCheckEnd r tones s =
      .next (((s.toned r tones).wrongLambda r.port.val r.rx r.lam.val tones).attemptFails r.port.val r.rx r.lam.val) := by
  rw [execToneCheckEnd_of_due hcheck hon hdue hst, hok]
  rfl

variable (hok : toneOk ((s.toned r tones).expected r.port.val r.rx r.lam.val) tones = true)
include hok

theorem execToneCheckEnd_of_rx (hrx : r.rx = true) : execToneCheckEnd r tones s = .next ((s.toneVerified r tones).refreshPort r.port.val) := by
  rw [execToneCheckEnd_of_due hcheck hon hdue hst, if_pos hok, if_pos hrx]

theorem execToneCheckEnd_of_tx (hrx : r.rx = false) : execToneCheckEnd r tones s = .next (((List.range 16).foldl (fun u j =>
    if laneWave (u.txSpare r.port.val) j = r.lam.val then u.quietOff r.port.val (32 + j) else u) (s.toneVerified r tones)).refreshPort r.port.val) := by
  rw [execToneCheckEnd_of_due hcheck hon hdue hst, if_pos hok, if_neg (Bool.eq_false_iff.1 hrx)]
end

theorem execToneCheckEnd_of_waiting {tones : List Tone} (hwait : (s.tuner (loopKey r)).check = none ∨ s.on Reg.OPT_CTRL_TONE_EN = false
      ∨ ((s.tuner (loopKey r)).st ≠ 3 ∧ (s.tuner (loopKey r)).st ≠ 4)
      ∨ ∃ t0 n, (s.tuner (loopKey r)).check = some (t0, n) ∧ s.now < t0 + n) : execToneCheckEnd r tones s = .next s := by
  rcases hwait with hnone | hoff | hst | ⟨t0, n, hcheck, hearly⟩
  · simp only [execToneCheckEnd, hnone]
  · cases hcheck : (s.tuner (loopKey r)).check <;> simp [execToneCheckEnd, hcheck, hoff]
  · cases hcheck : (s.tuner (loopKey r)).check <;> simp [execToneCheckEnd, hcheck, hst]
  · simp [execToneCheckEnd, hcheck, hearly]

end
end Sys2Proof.Machine
end

section
/-! ## Lanes: alarms and moves (R246–R251, R261) -/
namespace Sys2Proof.Machine
variable {s : State} {port : Fin 16}

/-! ### Messages that a port hears (R248, R265) -/

theorem State.heardOn_up {p : Nat} (h : s.serviceUp p = true) (f : State → State) : s.heardOn p f = f s := if_pos h

theorem State.heardOn_down {p : Nat} (h : s.serviceUp p = false) (f : State → State) : s.heardOn p f = s :=
  if_neg (Bool.eq_false_iff.1 h)

/-! ### Alarms (R246) -/

theorem execLaneAlarm_of_none (h : (s.port port).alarm = []) : execLaneAlarm port s = .next s := by
  simp only [execLaneAlarm, h]

section
variable {w : Nat} {lanes : List Nat} {l : List (Nat × List Nat)} (h : (s.port port).alarm = (w, lanes) :: l)
include h

theorem execLaneAlarm_of_gap (hgap : s.on (Reg.OPT_PORT_STATUS_GAP port) = true) :
    execLaneAlarm port s = .next (s.modPort port fun y => { y with alarm := l }) := by
  simp only [execLaneAlarm, h, hgap, if_true]

theorem execLaneAlarm_of_due (hgap : s.on (Reg.OPT_PORT_STATUS_GAP port) = false) : execLaneAlarm port s = .next
    ((((s.modPort port fun y => { y with alarm := l }).bump (Reg.OPT_PORT_ALARM_CNT_COUNT port)).mark Reg.OPT_EVENT_LANE_ALARM).each lanes fun t j =>
      (t.shortCheck (ringKey port true (laneWave (t.sourceSpare port w) j))).sendTo t.moduleId w
        (.lane (t.linkMsg 1 0 w (t.farPort port w) j 0 0 0))) := by
  simp only [execLaneAlarm, h, hgap, Bool.false_eq_true, if_false]
end

namespace State

theorem resetOf_portStatus : ∀ p : Fin 16, Reg.resetOf (Reg.OPT_PORT_STATUS p) = 0 := by decide

/-- A bit that is 0 at reset stays listed once it is set, and with it what every other register holds. -/
theorem get_mark_of_ne {f g : Reg.Fld} (hreset : Reg.resetOf f.reg = 0) (hf : f.lo + f.w ≤ 32) (hw : f.w = 1)
    (hne : g.reg ≠ f.reg) : (s.mark f).get g = s.get g := by
  refine get_put_of_word (hreset ▸ word_put_ne_zero _ (lo := f.lo) (w := f.w) hf ?_) hne
  rw [bitsOf_setBits_same, hw]
  decide

/-- The quiet time of a port leaves its lanes where they are. -/
theorem txSpare_quietOn (p : Fin 16) (c : Nat) : (s.quietOn p c).txSpare p = s.txSpare p := by
  have hstatus : (Reg.OPT_PORT_LANE_TX_SPARE p).reg ≠ (Reg.OPT_PORT_STATUS_TX_QUIET p).reg := by
    change 0x500404 + 0x20 * _ ≠ 0x500400 + 0x20 * _
    omega
  have hevent : (Reg.OPT_PORT_LANE_TX_SPARE p).reg ≠ Reg.OPT_EVENT_PORT_QUIET.reg := by
    change 0x500404 + 0x20 * _ ≠ 0x500008
    omega
  have hquiet := get_mark_of_ne (s := s) (resetOf_portStatus p) (f := Reg.OPT_PORT_STATUS_TX_QUIET p) (Nat.le_of_ble_eq_true rfl) rfl hstatus
  unfold quietOn when
  split
  · exact (get_mark_of_ne (by decide) (by decide) rfl hevent).trans hquiet
  · exact hquiet

end State

theorem execLaneAlarmMessage_of_up {m : LinkMsg} (hup : s.serviceUp port = true) : execLaneAlarmMessage port m s =
    .next ((s.quietOn m.port.toNat (32 + m.count.toNat % 16)).shortCheck (ringKey m.port.toNat false
      (laneWave ((s.quietOn m.port.toNat (32 + m.count.toNat % 16)).txSpare m.port.toNat) (m.count.toNat % 16)))) := by
  rw [State.txSpare_quietOn ⟨m.port.toNat, m.port.isLt⟩, execLaneAlarmMessage, State.heardOn_up hup]

/-! ### Requests of a move (R250, R251) -/

namespace State
variable {m : LinkMsg}

/-- The lane that a message names travels on λ16 of its port, or moves. -/
abbrev MoveDone (s : State) (m : LinkMsg) : Prop := s.txSpare m.port.toNat = m.count.toNat % 16
  ∨ ∃ y, (s.port m.port.toNat).move = some y ∧ y.lane = m.count.toNat % 16

theorem moveDone_iff : (s.txSpare m.port.toNat = m.count.toNat % 16
    || ((s.port m.port.toNat).move.map (·.lane)) == some (m.count.toNat % 16)) = true ↔ s.MoveDone m := by
  simp only [MoveDone, Bool.or_eq_true, decide_eq_true_eq, beq_iff_eq, Option.map_eq_some_iff]

theorem moveAsked_of_done (hdone : s.MoveDone m) : s.moveAsked m = s := if_pos (moveDone_iff.2 hdone)

variable (hdone : ¬ s.MoveDone m)
include hdone

theorem moveAsked_of_free (hfree : s.spareFree m.port.toNat = true) (hauto : s.on Reg.OPT_CTRL_AUTO_SWAP = true) :
    s.moveAsked m = s.startMove m.port.toNat (m.count.toNat % 16) false :=
  (if_neg (mt moveDone_iff.1 hdone)).trans (if_pos (by rw [hfree, hauto]; rfl))

theorem moveAsked_of_refused (h : s.spareFree m.port.toNat = false ∨ s.on Reg.OPT_CTRL_AUTO_SWAP = false) : s.moveAsked m =
    s.sendTo s.moduleId m.src.toNat
      (.lane (s.linkMsg 4 0 m.src.toNat (s.farPort m.port.toNat m.src.toNat) (m.count.toNat % 16) 0 0 0)) :=
  (if_neg (mt moveDone_iff.1 hdone)).trans (if_neg (by rcases h with h | h <;> simp [h]))
end State

theorem execLaneMoveRefusal_of_up {m : LinkMsg} (hup : s.serviceUp port = true) : execLaneMoveRefusal port m s =
    .next (if (s.port m.port.toNat).hold.isEmpty then s else s.mark (Reg.OPT_PORT_STATUS_RX_HOLD m.port.toNat)) :=
  congrArg Host.Outcome.next (State.heardOn_up hup _)

/-! ### The end of a move (R250, R261) -/

/-- The lane of a port that travels on λ16 from now on, 31 for none; the move is over. -/
abbrev State.laneMoved (s : State) (p l : Nat) : State :=
  (s.put (Reg.OPT_PORT_LANE_TX_SPARE p) l).modPort p fun z => { z with move := none }

section
variable {y : LanePlan} (hmove : (s.port port).move = some y) (hdue : y.at_ + 18 ≤ s.now)
include hmove hdue

theorem execLaneMoveSwitch_of_out (hback : y.back = false) : execLaneMoveSwitch port s = .next
    ((((((s.laneMoved port y.lane).quietOff port y.lane).quietOff port (64 + y.lane)).quietOff port (32 + y.lane)).refreshPort port).sendBeacon port) := by
  simp only [execLaneMoveSwitch, hmove, Nat.not_lt.2 hdue, hback, Bool.false_and, Bool.false_eq_true, if_false]
  split <;> rfl

variable (hback : y.back = true)
include hback

theorem execLaneMoveSwitch_of_lost {l : Nat} (hlost : ((s.laneMoved port 31).refreshPort port).lostLane port = some l)
    (hauto : ((s.laneMoved port 31).refreshPort port).on Reg.OPT_CTRL_AUTO_SWAP = true) :
    execLaneMoveSwitch port s = .next ((((s.laneMoved port 31).refreshPort port).startMove port l false).sendBeacon port) := by
  simp only [execLaneMoveSwitch, hmove, Nat.not_lt.2 hdue, hback, Bool.true_and, if_false, if_true, hlost, hauto]

theorem execLaneMoveSwitch_of_back (hnone : ((s.laneMoved port 31).refreshPort port).lostLane port = none
      ∨ ((s.laneMoved port 31).refreshPort port).on Reg.OPT_CTRL_AUTO_SWAP = false) :
    execLaneMoveSwitch port s = .next (((s.laneMoved port 31).refreshPort port).sendBeacon port) := by
  simp only [execLaneMoveSwitch, hmove, Nat.not_lt.2 hdue, hback, Bool.true_and, if_false, if_true]
  rcases hnone with hlost | hauto
  · rw [hlost]
  · split
    · rw [hauto]; rfl
    · rfl
end

theorem execLaneMoveSwitch_of_waiting (hwait : (s.port port).move = none
    ∨ ∃ y, (s.port port).move = some y ∧ s.now < y.at_ + 18) : execLaneMoveSwitch port s = .next s := by
  rcases hwait with hnone | ⟨y, hmove, hearly⟩
  · simp only [execLaneMoveSwitch, hnone]
  · simp only [execLaneMoveSwitch, hmove, hearly, if_true]

/-- Settles O43: a ring's command is decided by the state of its loop, a lane's by the service lane and the move of its port. That a
request is refused where AUTO_SWAP is 0 is the model's choice (log entry 157). -/
theorem ringsAndLanes : Obligations.RingsAndLanes := by
  intro r ext tones port m s p lam k x lane q lock sweep check switch
  have hasked {t : State} (hup : s.serviceUp port = true) (h : s.moveAsked m = t) : exec (.laneMoveRequest port m) s = .next t :=
    congrArg Host.Outcome.next ((State.heardOn_up hup _).trans h)
  have hdeaf {f : State → State} (hup : s.serviceUp port = false) :
      (Host.Outcome.next (s.heardOn port f) : Host.Outcome State Fault Refusal) = .next s :=
    congrArg Host.Outcome.next (State.heardOn_down hup f)
  refine ⟨execRingLock_of_held, fun t0 hst hgood => execRingLock_of_slow hst hgood, ?lock, ?sweep, execRingSweepEnd_of_waiting,
    ?check, execToneCheckEnd_of_waiting, fun w lanes l h => ⟨execLaneAlarm_of_due h, execLaneAlarm_of_gap h⟩, execLaneAlarm_of_none, ?heard,
    fun hup => ⟨hdeaf hup, hdeaf hup, hdeaf hup, hdeaf hup⟩,
    fun y hmove hdue => ⟨execLaneMoveSwitch_of_out hmove hdue, fun hback =>
      ⟨fun l => execLaneMoveSwitch_of_lost hmove hdue hback, execLaneMoveSwitch_of_back hmove hdue hback⟩⟩,
    execLaneMoveSwitch_of_waiting⟩
  case lock =>
    rintro (hst | ⟨hgood, hwait⟩)
    · exact execRingLock_of_untuned hst
    · by_cases hst : x.st = 2
      · exact execRingLock_of_acquiring hst hgood hwait
      · exact execRingLock_of_untuned hst
  case sweep =>
    intro t0 hsweep hst hdue
    refine ⟨?none, ?some⟩
    case none =>
      rintro rfl
      exact execRingSweepEnd_of_none hsweep hst hdue
    case some =>
      rintro h rfl
      exact ⟨execRingSweepEnd_of_calibration hsweep hst hdue, execRingSweepEnd_of_extremum hsweep hst hdue⟩
  case check =>
    intro t0 n hcheck hon hdue hst
    exact ⟨execToneCheckEnd_of_failed hcheck hon hdue hst, fun hok =>
      ⟨execToneCheckEnd_of_rx hcheck hon hdue hst hok, execToneCheckEnd_of_tx hcheck hon hdue hst hok⟩⟩
  case heard =>
    intro hup
    refine ⟨execLaneAlarmMessage_of_up hup, congrArg Host.Outcome.next (State.heardOn_up hup _),
      ⟨fun hdone => hasked hup (State.moveAsked_of_done hdone), fun hdone hfree hauto => hasked hup (State.moveAsked_of_free hdone hfree hauto),
        fun hdone h => hasked hup (State.moveAsked_of_refused hdone h)⟩, fun hold => ?unheld, fun hold => ?held⟩
    case unheld => exact (execLaneMoveRefusal_of_up hup).trans (by rw [hold]; rfl)
    case held => exact (execLaneMoveRefusal_of_up hup).trans (by rw [if_neg (mt List.isEmpty_iff.1 hold)])

end Sys2Proof.Machine
end

section
/-! ## Light cartridges and their swaps (R238, R242, R258, R260) -/
namespace Sys2Proof.Machine
variable {s : State}

/-! ### The next spare (R258, R270) -/

namespace State

@[simp] theorem setLc_opt (n st lam : Nat) : (s.setLc n st lam).opt = s.opt := rfl

/-- A swap whose new cartridge does not come into service is given up, and a source already announced is taken back. -/
abbrev swapLost (s : State) (w : SwapSt) : State := (s.dropSwap w.lam).when w.switchAt.isSome sendBeacons

section
variable {w : SwapSt}

theorem nextSpare_of_report (hauto : (s.swapLost w).on Reg.OPT_CTRL_AUTO_SWAP = false) : s.nextSpare w = s.swapLost w := by
  simp only [nextSpare, hauto, Bool.not_false, if_true]

variable (hauto : (s.swapLost w).on Reg.OPT_CTRL_AUTO_SWAP = true)
include hauto

theorem nextSpare_of_spare {n : Nat} (hn : (s.swapLost w).pickSpare w.lam = some n) : s.nextSpare w =
    (s.swapLost w).beginSwap { w with new := n, start := s.now, locked := false, switchAt := none } := by
  simp only [nextSpare, hauto, hn, Bool.not_true, Bool.false_eq_true, if_false]

theorem nextSpare_of_none (hn : (s.swapLost w).pickSpare w.lam = none) :
    s.nextSpare w = (s.swapLost w).noSpare w.lam w.failed := by
  simp only [nextSpare, hauto, hn, Bool.not_true, Bool.false_eq_true, if_false]
end

theorem retire_of_fitted {w : SwapSt} (h : w.old < 22) : s.retire w =
    if w.cal = true ∨ (18 ≤ w.old ∧ w.new < 18) then (s.setLc w.old lcDark 31).park else s.setLc w.old lcReady 31 := by
  simp only [retire, Nat.not_le.2 h, if_false, Bool.or_eq_true, Bool.and_eq_true, decide_eq_true_eq]

end State

/-! ### The swap of a wavelength (R238, R258, R260) -/

section
variable {lam : Fin 18} {w : SwapSt} (hw : s.swapOf lam = some w)
include hw

theorem execSpareMatched_of_locked (hlocked : w.locked = true) (hswitch : w.switchAt = none) : execSpareMatched lam s = .next
    (((s.setLc w.new lcMatched lam).modSwap lam fun x => { x with switchAt := some (s.now + 2) }).sendBeacons) := by
  simp only [execSpareMatched, hw, hlocked, hswitch, Option.isSome_none, Bool.not_true, Bool.or_self, Bool.false_eq_true, if_false]

theorem execSpareLockTimeout_of_due (hlocked : w.locked = false) (hdue : w.start + 24414 ≤ s.now) :
    execSpareLockTimeout lam s = .next ((s.setLc w.new lcFailed 31).nextSpare w) := by
  simp only [execSpareLockTimeout, hw, hlocked, Nat.not_lt.2 hdue, decide_false, Bool.or_self, Bool.false_eq_true, if_false]

variable {n : Nat} (hswitch : w.switchAt = some n)
include hswitch

theorem execLaserSourceSwitch_of_due (hwaits : w.switched = false) (hdue : n ≤ s.now) : execLaserSourceSwitch lam s = .next
    ((((((s.put (Reg.OPT_WL_SRC_SOURCE lam) w.new).setLc w.new lcLit lam).mark Reg.OPT_EVENT_SWAP_DONE).modSwap lam fun x =>
        { x with switched := true }).modOpt
      fun o => { o with prevSrc := sset (fun _ => (31, 0)) o.prevSrc lam (w.old, s.now) }).park.sendBeacons) := by
  simp only [execLaserSourceSwitch, hw, hswitch, hwaits, hdue, Option.map_some, decide_true, bne_self_eq_false, Bool.or_self,
    Bool.false_eq_true, if_false]

variable {pc : BitVec 16} (hswitched : w.switched = true) (hdue : n + 16 ≤ s.now)
include hswitched hdue

theorem execOldSourceDark_of_failed (hfailed : w.failed = true) : execOldSourceDark lam pc s = .next
    ((s.dropSwap lam).each (List.range 16) fun t q =>
      let t1 := t.quietOff q (64 + lam)
      if lam.val < 16 && s.on Reg.OPT_CTRL_AUTO_SWAP && t1.txSpare q == lam.val && (t1.port q).move.isNone then t1.startMove q lam true
      else t1) := by
  simp only [execOldSourceDark, hw, hswitch, hswitched, hdue, hfailed, Option.map_some, decide_true, bne_self_eq_false, Bool.not_true,
    Bool.or_self, Bool.false_eq_true, if_false, if_true]

variable (hsound : w.failed = false)
include hsound

theorem execOldSourceDark_of_calibrated (hcal : w.cal = true ∧ w.old < 18) : execOldSourceDark lam pc s = .next
    ((((s.dropSwap lam).put (Reg.OPT_LC_COMM_P_C w.old) pc.toNat).modOpt fun o =>
      { o with pc := sset Config.laserCal o.pc w.old pc.toNat, calMeasured := true }).beginSwap
        { lam := lam, old := w.new, new := w.old, start := s.now, cal := true }) := by
  simp only [execOldSourceDark, hw, hswitch, hswitched, hdue, hsound, hcal, Option.map_some, decide_true, bne_self_eq_false, Bool.not_true,
    Bool.or_self, Bool.and_self, Bool.false_eq_true, if_false, if_true]

theorem execOldSourceDark_of_planned (hcal : ¬ (w.cal = true ∧ w.old < 18)) :
    execOldSourceDark lam pc s = .next (((s.dropSwap lam).retire w).handBack lam) := by
  simp only [execOldSourceDark, hw, hswitch, hswitched, hdue, hsound, Option.map_some, decide_true, bne_self_eq_false, Bool.not_true,
    Bool.or_self, Bool.false_eq_true, if_false, Bool.and_eq_true, decide_eq_true_eq, hcal]
end

/-! ### A laser that fails (R260) -/

section
variable {cart : Fin 22} {e : Nat × Nat × Nat}

/-- The failure of a cartridge is recorded, counted and raised. -/
abbrev State.failureNoted (s : State) (cart : Fin 22) (e : Nat × Nat × Nat) : State :=
  (((s.modOpt fun o => { o with failDue := o.failDue.filter fun x => x.1 != cart.val, hist := sset (fun _ => []) o.hist cart [] }).logRec
    { code := fLaserFail, unitKind := 10, unit := cart, detail := [(1, cart), (1, s.get (Reg.OPT_LC_STATUS_LAMBDA cart)), (1, e.2.1)] }).bump
      Reg.OPT_LASER_FAIL_CNT_COUNT).mark Reg.OPT_EVENT_LASER_FAIL

variable (he : (s.opt.failDue.find? fun x => x.1 == cart.val) = some e) (hdue : e.2.2 ≤ s.now)
include he hdue

theorem execLaserFail_of_feeding {n : Nat} (hfeeds : (s.failureNoted cart e).feeds cart = some n) :
    execLaserFail cart s = .next ((((s.failureNoted cart e).setLc cart lcFailed 31).loseLaser cart n).park) := by
  simp only [execLaserFail, he, Nat.not_lt.2 hdue, if_false, hfeeds]

variable (hfeeds : (s.failureNoted cart e).feeds cart = none)
include hfeeds

theorem execLaserFail_of_unused
    (hswap : ((s.failureNoted cart e).opt.swaps.find? fun w => w.new == cart.val && !w.switched) = none) :
    execLaserFail cart s = .next ((s.failureNoted cart e).setLc cart lcFailed 31).park := by
  simp only [execLaserFail, he, Nat.not_lt.2 hdue, if_false, hfeeds, State.setLc_opt, hswap]

theorem execLaserFail_of_tuning {w : SwapSt}
    (hswap : ((s.failureNoted cart e).opt.swaps.find? fun w => w.new == cart.val && !w.switched) = some w) :
    execLaserFail cart s = .next (((s.failureNoted cart e).setLc cart lcFailed 31).nextSpare w).park := by
  simp only [execLaserFail, he, Nat.not_lt.2 hdue, if_false, hfeeds, State.setLc_opt, hswap]
end

/-! ### Hands at a cartridge (R242) -/

section
variable {cart : Fin 22}

theorem execCartridgePull_of_lit (hlit : s.lit cart = true) : execCartridgePull cart s = .next ((s.put (Reg.OPT_LC_STATUS_PRESENT cart) 0).modOpt
    fun o => { o with failDue := (o.failDue.filter fun e => e.1 != cart.val) ++ [(cart.val, 2, s.now + 1)] }) := by
  simp only [execCartridgePull, hlit, if_true]

theorem execCartridgePull_of_dark (hlit : s.lit cart = false) :
    execCartridgePull cart s = .next ((s.put (Reg.OPT_LC_STATUS_PRESENT cart) 0).setLc cart lcDark 31).park := by
  simp only [execCartridgePull, hlit, Bool.false_eq_true, if_false]

variable {pc : BitVec 16}

/-- A cartridge that is inserted is present, measured and dark. -/
abbrev State.fitted (s : State) (cart : Fin 22) (pc : BitVec 16) : State :=
  (((((((s.mark (Reg.OPT_LC_STATUS_PRESENT cart)).put (Reg.OPT_LC_STATUS_LEVER_OPEN cart) 0).put (Reg.OPT_LC_STATUS_WARN cart) 0).put
    (Reg.OPT_LC_STATUS_SWAP cart) 0).put (Reg.OPT_LC_COMM_P_C cart) pc.toNat).modOpt fun o =>
      { o with pc := sset Config.laserCal o.pc cart pc.toNat, hist := sset (fun _ => []) o.hist cart [], litFor := sset (fun _ => 0) o.litFor cart 0 }).setLc
        cart lcDark 31)

/-- A fitted cartridge still feeds its own wavelength, and the bank gives light on it. -/
abbrev State.FeedsOwn (t : State) (n : Nat) : Prop :=
  t.get (Reg.OPT_WL_SRC_SOURCE n) = n ∧ t.bankOn n = true ∧ t.on Reg.GLB_STATUS_RELAY_READY = true

theorem execCartridgeInsert_of_spare (hspare : 18 ≤ cart.val) : execCartridgeInsert cart pc s = .next (s.fitted cart pc).park := by
  simp only [execCartridgeInsert, Nat.not_lt.2 hspare, if_false]

variable (hfixed : cart.val < 18)
include hfixed

theorem execCartridgeInsert_of_own (hown : (s.fitted cart pc).FeedsOwn cart) :
    execCartridgeInsert cart pc s = .next ((s.fitted cart pc).setLc cart lcLit cart) := by
  obtain ⟨hsource, hbank, hready⟩ := hown
  simp only [execCartridgeInsert, hfixed, hsource, hbank, hready, beq_self_eq_true, Bool.and_self, if_true]

theorem execCartridgeInsert_of_replaced (hown : ¬ (s.fitted cart pc).FeedsOwn cart) :
    execCartridgeInsert cart pc s = .next ((s.fitted cart pc).handBack cart) := by
  have hno : ((s.fitted cart pc).get (Reg.OPT_WL_SRC_SOURCE cart) == cart.val && (s.fitted cart pc).bankOn cart
      && (s.fitted cart pc).on Reg.GLB_STATUS_RELAY_READY) = false := by
    simpa only [State.FeedsOwn, Bool.eq_false_iff, ne_eq, Bool.and_eq_true, beq_iff_eq, and_assoc] using hown
  simp only [execCartridgeInsert, hfixed, if_true, hno, Bool.false_eq_true, if_false]
end

/-- A write to a register of firmware's by a party that acts. -/
theorem State.fwOnly_of_acts {p : Party} (hp : p.fw = true) (ha : s.acts p) (f : State → State) : s.fwOnly p f = f s := by
  rw [fwOnly, if_pos hp, byCp_of_acts ha]

/-- Settles O44: each command by the swap of its wavelength or the state of its cartridge. That SWAP_DONE is set at the switch, and that
a spare that hands its wavelength back is free again, is the model's choice (log entry 89), and so is what an inserted cartridge does
where no cartridge feeds its wavelength (log entry 157). -/
theorem cartridges : Obligations.Cartridges := by
  intro p lam cart v pc s
  have hwrite {f : State → State} {t : State} (h : s.fwOnly p f = t) :
      (Host.Outcome.next (s.fwOnly p f) : Host.Outcome State Fault Refusal) = .next t := congrArg _ h
  have htimeout {w : SwapSt} {t : State} (hw : s.swapOf lam = some w) (hlocked : w.locked = false) (hdue : w.start + 24414 ≤ s.now)
      (h : (s.setLc w.new lcFailed 31).nextSpare w = t) : exec (.spareLockTimeout lam) s = .next t :=
    h ▸ execSpareLockTimeout_of_due hw hlocked hdue
  exact ⟨fun w => execSpareMatched_of_locked, rfl,
    fun w hw hlocked hdue => ⟨fun hauto => htimeout hw hlocked hdue (State.nextSpare_of_report hauto),
      fun n hauto hn => htimeout hw hlocked hdue (State.nextSpare_of_spare hauto hn),
      fun hauto hn => htimeout hw hlocked hdue (State.nextSpare_of_none hauto hn)⟩,
    fun w n hw hwaits hswitch => execLaserSourceSwitch_of_due hw hswitch hwaits,
    fun w n hw hswitched hswitch hdue => ⟨execOldSourceDark_of_failed hw hswitch hswitched hdue,
      execOldSourceDark_of_calibrated hw hswitch hswitched hdue, execOldSourceDark_of_planned hw hswitch hswitched hdue⟩,
    fun w => State.retire_of_fitted,
    fun e he hdue => ⟨fun n => execLaserFail_of_feeding he hdue, execLaserFail_of_unused he hdue,
      fun w hfeeds => execLaserFail_of_tuning he hdue hfeeds⟩,
    fun hp ha => hwrite (State.fwOnly_of_acts hp ha _), fun hp => hwrite (State.fwOnly_denied hp s _), rfl,
    execCartridgePull_of_lit, execCartridgePull_of_dark,
    execCartridgeInsert_of_spare, execCartridgeInsert_of_own, execCartridgeInsert_of_replaced⟩

end Sys2Proof.Machine
end

section
/-! ## The launch of cells (R252, R253, R283, R284, R301) -/
namespace Sys2Proof.Machine
variable {s : State}

theorem State.readAgain_payload {q : QCell} {l c : Nat} (hl : q.lseq = some l) (hsrc : q.src ≠ [])
    (hc : s.ctxOf q.cell.vcid.toNat = some c) : (s.readAgain q).payload = q.src.map s.paByte := by
  obtain ⟨pa, pas, hpas⟩ := List.exists_cons_of_ne_nil hsrc
  simp only [readAgain, hl, hpas, hc, Option.isNone_some, Bool.false_eq_true, if_false]

section
variable {slot : Fin 64} {port : Fin 16} {term : BitVec 13}

/-- A slot in which a port gives light of its own. -/
abbrev State.Lights (s : State) (slot : Fin 64) (port : Fin 16) : Prop :=
  s.switchRelay = false ∧ s.bypOpen port = true ∧ s.on (Reg.OPT_PORT_STATUS_GAP port) = false ∧ s.outKind slot port ≠ 2

theorem State.dark_iff : (s.switchRelay || !s.bypOpen port || s.on (Reg.OPT_PORT_STATUS_GAP port) || s.outKind slot port = 2) = true
    ↔ ¬ s.Lights slot port := by
  rw [← not_iff_not, not_not]
  simp only [State.Lights, Bool.not_eq_true, Bool.or_eq_false_iff, Bool.not_eq_false', decide_eq_false_iff_not, and_assoc, ne_eq]

/-- A cell needs no key, or has one (R301, R302). -/
theorem State.sealable_of {q : QCell} (h : s.on Reg.SWT_SLICE_ENC = false ∨ q.mine = false ∨ s.on (keyFld s.keySlot) = true) :
    (s.on Reg.SWT_SLICE_ENC && q.mine && !s.on (keyFld s.keySlot)) = false := by
  rcases h with h | h | h <;> simp [h]

theorem execCellLaunch_of_dark (h : ¬ s.Lights slot port) : execCellLaunch slot port term s = .next s :=
  if_pos (State.dark_iff.2 h)

section
variable (hlights : s.Lights slot port)
include hlights

/-- In a lit slot the port and its queues decide. -/
theorem execCellLaunch_of_idle (h : s.canLaunch port = false ∨ s.sliceTag = 0 ∨ s.toLaunch slot port term.toNat = none) :
    execCellLaunch slot port term s = .next (s.idleSlot slot port) := by
  refine (if_neg (mt State.dark_iff.1 (not_not.2 hlights))).trans ?_
  rcases h with hoff | htag | hnone
  · exact if_pos (by simp [hoff])
  · exact if_pos (by simp [htag])
  · simp only [hnone, ite_self]

section
variable {q : QCell} {served : Option Nat} (hcan : s.canLaunch port = true) (htag : s.sliceTag ≠ 0)
  (hq : s.toLaunch slot port term.toNat = some (q, served))
include hcan htag hq

theorem execCellLaunch_of_keyless (henc : s.on Reg.SWT_SLICE_ENC = true) (hmine : q.mine = true) (hkey : s.on (keyFld s.keySlot) = false) :
    execCellLaunch slot port term s = .next (s.idleSlot slot port) := by
  refine (if_neg (mt State.dark_iff.1 (not_not.2 hlights))).trans ?_
  simp only [hcan, htag, hq, henc, hmine, hkey, Bool.not_true, Bool.not_false, Bool.and_self, decide_false, Bool.or_self, Bool.false_eq_true,
    if_false, if_true]

variable (hkey : s.on Reg.SWT_SLICE_ENC = false ∨ q.mine = false ∨ s.on (keyFld s.keySlot) = true)
include hkey

theorem execCellLaunch_of_cell (hread : s.relaunchErr q = .none) :
    execCellLaunch slot port term s = .next (s.launchCell slot port term.toNat q served) := by
  refine (if_neg (mt State.dark_iff.1 (not_not.2 hlights))).trans ?_
  simp only [hcan, htag, hq, State.sealable_of hkey, hread, Bool.not_true, decide_false, Bool.or_self, Bool.false_eq_true, if_false]

theorem execCellLaunch_of_lost (hread : s.relaunchErr q ≠ .none) :
    execCellLaunch slot port term s = .next ((s.relaunchFails q (s.relaunchErr q)).idleSlot slot port) := by
  refine (if_neg (mt State.dark_iff.1 (not_not.2 hlights))).trans ?_
  simp only [hcan, htag, hq, State.sealable_of hkey, Bool.not_true, decide_false, Bool.or_self, Bool.false_eq_true, if_false]
end
end
end

end Sys2Proof.Machine
end

section
/-! ## The receipt of cells (R248, R252, R267, R273, R280–R284, R490) -/
namespace Sys2Proof.Machine

/-- A slot decodes, and its cell is whole. -/
def slotOk (c : Cell) (e : RxEnv) : Bool := allDecode (wrongSymbols e) && c.crcOk

namespace State
variable {s : State}

theorem when_not (b : Bool) (f : State → State) : s.when (!b) f = if b then s else f s := by cases b <;> rfl

/-! ### A terminated slot -/

section
variable {p src : Nat} {fixed paid : Bool} {c : Cell} {e : RxEnv}

/-- The codewords of a slot are counted. -/
def decoded (s : State) (p : Nat) (c : Cell) (e : RxEnv) : State :=
  let t := s.bump (Reg.OPT_PORT_FEC_CORR_CNT_COUNT p) (correctedWords (wrongSymbols e))
  if slotOk c e then t else t.bump (Reg.OPT_PORT_FEC_UNCORR_CNT_COUNT p)

/-- A cell's place among those of its source. -/
def arrival (t : State) (p src : Nat) (c : Cell) : RxLink × Bool :=
  (sget (fun _ => {}) t.fab.rxLink (p * 8192 + src)).accept c.lseq.toNat

/-- A cell is refused, and the credit that its launch spent goes back. -/
def refused (t : State) (kind p src : Nat) (paid : Bool) (c : Cell) : State := (t.nak kind p src c.lseq.toNat).creditBack t p paid

/-- A cell that is accepted joins those of its source. -/
def accepted (t : State) (p src : Nat) (c : Cell) : State :=
  (t.modFab fun f => { f with rxLink := sset (fun _ => {}) f.rxLink (p * 8192 + src) (t.arrival p src c).1 }).modPort p
    fun x => { x with rxHeads := noteHead x.rxHeads c }

theorem terminate_eq : s.terminate p src fixed paid c e =
    let t := s.decoded p c e
    if slotOk c e && c.type = 0 then t
    else if t.on (Reg.OPT_PORT_STATUS_RX_HOLD p) then t.refused 3 p src paid c
    else if !slotOk c e then t.refused 2 p src paid c
    else if (t.arrival p src c).2 then t.creditBack t p paid
    else if t.bufCount p fixed ≥ 16 then t.refused 2 p src paid c
    else ((t.accepted p src c).cellIn p fixed paid c e.parityOk).creditBack (t.accepted p src c) p paid := by
  simp only [terminate, when_not]
  rfl

theorem terminate_of_idle (hok : slotOk c e = true) (htype : c.type = 0) : s.terminate p src fixed paid c e = s.decoded p c e := by
  rw [terminate_eq, hok, htype]
  rfl

theorem terminate_of_hold (hidle : ¬ (slotOk c e = true ∧ c.type = 0))
    (hhold : (s.decoded p c e).on (Reg.OPT_PORT_STATUS_RX_HOLD p) = true) :
    s.terminate p src fixed paid c e = (s.decoded p c e).refused 3 p src paid c := by
  simp only [terminate_eq, Bool.and_eq_true, decide_eq_true_eq, hidle, hhold, if_false, if_true]

section
variable (hhold : (s.decoded p c e).on (Reg.OPT_PORT_STATUS_RX_HOLD p) = false)
include hhold

theorem terminate_of_broken (hok : slotOk c e = false) :
    s.terminate p src fixed paid c e = (s.decoded p c e).refused 2 p src paid c := by
  simp only [terminate_eq, hhold, hok, Bool.false_and, Bool.not_false, Bool.false_eq_true, if_false, if_true]

variable (hok : slotOk c e = true) (htype : c.type ≠ 0)
include hok htype

theorem terminate_of_duplicate (hdup : ((s.decoded p c e).arrival p src c).2 = true) :
    s.terminate p src fixed paid c e = (s.decoded p c e).creditBack (s.decoded p c e) p paid := by
  simp only [terminate_eq, hok, htype, hhold, hdup, decide_false, Bool.and_false, Bool.not_true, Bool.false_eq_true, if_false, if_true]

variable (hnew : ((s.decoded p c e).arrival p src c).2 = false)
include hnew

theorem terminate_of_full (hfull : 16 ≤ (s.decoded p c e).bufCount p fixed) :
    s.terminate p src fixed paid c e = (s.decoded p c e).refused 2 p src paid c := by
  simp only [terminate_eq, hok, htype, hhold, hnew, ge_iff_le, hfull, decide_false, Bool.and_false, Bool.not_true, Bool.false_eq_true,
    if_false, if_true]

theorem terminate_of_room (hroom : ¬ 16 ≤ (s.decoded p c e).bufCount p fixed) : s.terminate p src fixed paid c e =
    (((s.decoded p c e).accepted p src c).cellIn p fixed paid c e.parityOk).creditBack ((s.decoded p c e).accepted p src c) p paid := by
  simp only [terminate_eq, hok, htype, hhold, hnew, ge_iff_le, hroom, decide_false, Bool.and_false, Bool.not_true, Bool.false_eq_true,
    if_false]
end
end
end State

/-! ### The light of a slot -/

section
variable {s : State} {slot : Fin 64} {port : Fin 16} {c : Cell} {e : RxEnv}

/-- The input word of a slot on a port. -/
abbrev State.inputWord (s : State) (slot : Fin 64) (port : Fin 16) : Nat := s.schedWord s.bank slot port 0

/-- The module that a slot's cells come from. -/
abbrev State.slotSource (s : State) (slot : Fin 64) (port : Fin 16) : Nat :=
  if wordKind (s.inputWord slot port) = 1 then wordOrigin (s.inputWord slot port) else s.peer port

/-- A degraded EXPRESS slot with traffic is counted (R284). -/
def State.degradeNoted (t : State) (w : Nat) (c : Cell) (e : RxEnv) : State :=
  if wordKind w = 2 ∧ ¬ (c.type = 0 ∧ slotOk c e = true) then (t.bump Reg.SWT_DEGRADE_CNT_COUNT).mark Reg.SWT_EVENT_DEGRADE else t

theorem State.degradeNoted_eq (t : State) (w : Nat) : t.degradeNoted w c e =
    if wordKind w == 2 && !(c.type = 0 && allDecode (wrongSymbols e) && c.crcOk) then (t.bump Reg.SWT_DEGRADE_CNT_COUNT).mark Reg.SWT_EVENT_DEGRADE
    else t := by
  simp only [degradeNoted, slotOk, Bool.and_eq_true, Bool.not_eq_true', Bool.eq_false_iff, ne_eq, beq_iff_eq, decide_eq_true_eq, and_assoc]

theorem State.stops_of (hstop : wordKind (s.inputWord slot port) ≠ 2 ∨ s.degraded port (wordPort (s.inputWord slot port)) = true) :
    (wordKind (s.inputWord slot port) == 2 && !s.degraded port (wordPort (s.inputWord slot port))) = false := by
  rcases hstop with h | h <;> simp [h]

theorem execCellReceive_of_closed (hopen : s.bypOpen port = false) : execCellReceive slot port c e s = .next s :=
  if_pos (by rw [hopen]; rfl)

section
variable (hopen : s.bypOpen port = true)
include hopen

theorem execCellReceive_of_relay (hrelay : s.switchRelay = true) :
    execCellReceive slot port c e s = .next (s.emit (.express slot port (pairPort port) c)) := by
  simp only [execCellReceive, hopen, hrelay, Bool.not_true, Bool.false_eq_true, if_false, if_true]

variable (hrelay : s.switchRelay = false)
include hrelay

theorem execCellReceive_of_express (hkind : wordKind (s.inputWord slot port) = 2)
    (hfast : s.degraded port (wordPort (s.inputWord slot port)) = false) :
    execCellReceive slot port c e s = .next (s.emit (.express slot port (wordPort (s.inputWord slot port)) c)) := by
  simp only [execCellReceive, hopen, hrelay, hkind, hfast, Bool.not_true, Bool.not_false, beq_self_eq_true, Bool.and_self, Bool.false_eq_true,
    if_false, if_true]

variable (hstop : wordKind (s.inputWord slot port) ≠ 2 ∨ s.degraded port (wordPort (s.inputWord slot port)) = true)
include hstop

theorem execCellReceive_of_gap (hgap : s.on (Reg.OPT_PORT_STATUS_GAP port) = true) : execCellReceive slot port c e s = .next s := by
  simp only [execCellReceive, hopen, hrelay, State.stops_of hstop, hgap, Bool.not_true, Bool.false_eq_true, if_false, if_true]

variable (hgap : s.on (Reg.OPT_PORT_STATUS_GAP port) = false)
include hgap

theorem execCellReceive_of_unready (hoff : s.on (Reg.OPT_PORT_STATUS_UP port) = false
      ∨ (s.canTerminate port = false ∧ s.on (Reg.OPT_PORT_STATUS_RX_HOLD port) = false)) :
    execCellReceive slot port c e s = .next (s.noteLanes port (s.slotSource slot port) e) := by
  have hno : (!s.on (Reg.OPT_PORT_STATUS_UP port) || !(s.canTerminate port || s.on (Reg.OPT_PORT_STATUS_RX_HOLD port))) = true := by
    rcases hoff with h | ⟨h, hhold⟩ <;> simp [*]
  simp only [execCellReceive, hopen, hrelay, State.stops_of hstop, hgap, hno, Bool.not_true, Bool.false_eq_true, if_false, if_true, beq_iff_eq]

theorem execCellReceive_of_ready (hup : s.on (Reg.OPT_PORT_STATUS_UP port) = true)
    (hready : s.canTerminate port = true ∨ s.on (Reg.OPT_PORT_STATUS_RX_HOLD port) = true) : execCellReceive slot port c e s = .next
      (((s.noteLanes port (s.slotSource slot port) e).degradeNoted (s.inputWord slot port) c e).terminate port (s.slotSource slot port)
        (wordKind (s.inputWord slot port) == 1) (wordKind (s.inputWord slot port) == 0) c e) := by
  have hno : (!s.on (Reg.OPT_PORT_STATUS_UP port) || !(s.canTerminate port || s.on (Reg.OPT_PORT_STATUS_RX_HOLD port))) = false := by
    rcases hready with h | h <;> simp [hup, h]
  rw [State.degradeNoted_eq]
  simp only [execCellReceive, hopen, hrelay, State.stops_of hstop, hgap, hno, Bool.not_true, Bool.false_eq_true, if_false, beq_iff_eq]
end
end
end Sys2Proof.Machine
end

section
/-! ## Answers to cells, and reports of transfers (R248, R252, R253, R271, R283, R287–R289) -/
namespace Sys2Proof.Machine
variable {s : State}

/-! ### A cell in flight -/

section
variable {port : Fin 16} {m : LinkMsg} {q : QCell}

theorem State.refuseNamed_of_answered (hq : s.answered m.port.toNat m.src.toNat m.lseq.toNat = some q) (counts : Bool) :
    s.refuseNamed m counts = s.refuseCell q counts := by
  simp only [refuseNamed, hq]

theorem execCellInflightTimeout_of_due {term : BitVec 13} {lseq : BitVec 16} {f : Nat × Nat × Nat}
    (hq : s.answered port term.toNat lseq.toNat = some q) (hflight : q.flight = some f) (hdue : f.2.2 + 16 ≤ s.now) :
    execCellInflightTimeout port term lseq s = .next (s.refuseCell q true) := by
  simp only [execCellInflightTimeout, hq, hflight, hdue, Option.map_some, decide_true, beq_self_eq_true, if_true]
end

/-! ### A transfer that a report names -/

section
variable {m : LinkMsg} {x : Xfer} (hx : s.xferOf m.xfer.toNat = some x)
include hx

theorem execDelivered_of_stale (hgen : m.gen.toNat ≠ s.gen x.owner.ctx) : execDelivered m s = .next (s.staleReport.dropDead x) := by
  simp only [execDelivered, hx, bne_iff_ne.2 hgen, if_true]

theorem execCellRefusal_of_stale (hgen : m.gen.toNat ≠ s.gen x.owner.ctx) : execCellRefusal m s = .next (s.staleReport.dropDead x) := by
  simp only [execCellRefusal, hx, bne_iff_ne.2 hgen, if_true]

variable (hgen : m.gen.toNat = s.gen x.owner.ctx)
include hgen

theorem execDelivered_of_dead (hdead : x.dead = true) :
    execDelivered m s = .next (s.modFab fun f => { f with xfers := f.xfers.filter (· != x) }) := by
  simp only [execDelivered, hx, hgen, bne_self_eq_false, hdead, State.dropDead, Bool.false_eq_true, if_false, if_true]

theorem execCellRefusal_of_dead (hdead : x.dead = true) :
    execCellRefusal m s = .next (s.modFab fun f => { f with xfers := f.xfers.filter (· != x) }) := by
  simp only [execCellRefusal, hx, hgen, bne_self_eq_false, hdead, State.dropDead, Bool.false_eq_true, if_false, if_true]

variable (hlive : x.dead = false)
include hlive

theorem execDelivered_of_live : execDelivered m s = .next
    (((s.modFab fun f => { f with xfers := f.xfers.map fun y => if y == x then
      { y with delivered := true, landed := List.range y.lens.length } else y }).countUnits x.owner).checkXfers x.owner) := by
  simp only [execDelivered, hx, hgen, bne_self_eq_false, hlive, Bool.false_eq_true, if_false]

/-- What a refusal brings to its source: the DETAIL, and the state with the free values of it taken. -/
abbrev State.refusalMet (s : State) (m : LinkMsg) (x : Xfer) : List (Nat × Nat) × State :=
  s.refusalOf m.code.toNat x.dest (s.get (Reg.SYN_CTX_EPOCH_EPOCH x.owner.ctx))

theorem execCellRefusal_of_engine (hengine : x.owner.engine = true) : execCellRefusal m s =
    .next ((s.refusalMet m x).2.engineFails x.owner m.code.toNat (s.refusalMet m x).1) := by
  simp only [execCellRefusal, hx, hgen, bne_self_eq_false, hlive, hengine, Bool.false_eq_true, if_false, if_true]

theorem execCellRefusal_of_op {o : Op} (hengine : x.owner.engine = false) (hop : s.op? x.owner.ring x.owner.idx = some o) :
    execCellRefusal m s =
      .next ((s.refusalMet m x).2.faultOp o m.code.toNat (Op.unit s o).1 (Op.unit s o).2 (s.refusalMet m x).1) := by
  simp only [execCellRefusal, hx, hgen, bne_self_eq_false, hlive, hengine, hop, Bool.false_eq_true, if_false]
end

section
variable {xfer : Word} {x : Xfer} {t : Nat} (hx : s.xferOf xfer.toNat = some x) (hlive : x.dead = false)
  (hopen : x.delivered = false) (hacked : x.unacked = 0) (hlast : x.lastAck = some t) (hdue : t + 16 ≤ s.now)
include hx hlive hopen hacked hlast hdue

theorem execDeliveryTimeout_of_op {o : Op} (hengine : x.owner.engine = false) (hop : s.op? x.owner.ring x.owner.idx = some o) :
    execDeliveryTimeout xfer s =
      .next (s.faultOp o fLinkDown (Op.unit s o).1 (Op.unit s o).2 [(1, routePort (s.route x.dest)), (1, 5), (2, x.dest)]) := by
  simp only [execDeliveryTimeout, hx, hlive, hopen, hacked, hlast, hdue, hengine, hop, Option.map_some, decide_true, bne_self_eq_false,
    Bool.or_self, Bool.false_eq_true, if_false]

theorem execDeliveryTimeout_of_engine (hengine : x.owner.engine = true) : execDeliveryTimeout xfer s =
    .next (s.engineFails x.owner fLinkDown [(1, routePort (s.route x.dest)), (1, engineCause x.owner 5), (2, x.dest)]) := by
  simp only [execDeliveryTimeout, hx, hlive, hopen, hacked, hlast, hdue, hengine, Option.map_some, decide_true, bne_self_eq_false,
    Bool.or_self, Bool.false_eq_true, if_false, if_true]
end

/-! ### An engine's failure (R394, R406, R414) -/

section
variable {ctx code : Nat} {d : List (Nat × Nat)}

theorem State.engineFails_ckpt_writing (h : s.ckptState = 1) : s.engineFails (ckptEngine ctx) code d = s.ckptFails code d := by
  simp only [engineFails, ckptEngine, OfNat.ofNat_ne_zero, OfNat.ofNat_ne_one, Nat.reduceEqDiff, h, if_false, if_true]

theorem State.engineFails_ckpt_restoring (h : s.ckptState = 4) :
    s.engineFails (ckptEngine ctx) code d = s.chainFails s.ckp.restore.lastSeq code d := by
  simp only [engineFails, ckptEngine, OfNat.ofNat_ne_zero, OfNat.ofNat_ne_one, Nat.reduceEqDiff, h, if_false, if_true]
end

/-! ### A READ_REQ (R271, R288) -/

/-- The engine takes a READ_REQ from those that wait. -/
abbrev State.readTaken (s : State) (src : BitVec 13) (xfer : Word) : State :=
  (s.modFab fun f => { f with reads := f.reads.filter fun q => !(q.src == src.toNat && q.xfer == xfer.toNat) }).engineOn

/-- The PAs of the bytes that a READ_REQ names. -/
abbrev State.readPas (t : State) (r : ReadReq) : List Nat := r.vas.filterMap fun a => t.xlate r.ctx a false

/-- The read of a READ_REQ's bytes has met its errors. -/
abbrev State.readMet (t : State) (r : ReadReq) (me : MemErr) : State :=
  (t.spWaits (t.readPas r)).meetErrs (some r.ctx)
    (fun pa => (t.readPas r).contains pa || (t.blockMode r.ctx && (blocksOf (t.readPas r)).contains (pa / 4096 * 4096))) me

theorem execReadReqServe_of_clean {src : BitVec 13} {xfer : Word} {me : MemErr} {r : ReadReq}
    (hr : (s.fab.reads.find? fun r => r.src == src.toNat && r.xfer == xfer.toNat) = some r) (hroute : routeValid (s.route r.src) = true)
    (hmaps : ∀ a ∈ r.vas, ((s.readTaken src xfer).xlate r.ctx a false).isSome = true)
    (hsealed : (s.readTaken src xfer).on Reg.SWT_SLICE_ENC = true ∨ ∀ a ∈ r.vas, (s.readTaken src xfer).sealedVa r.ctx a = false)
    (hclean : ((s.readTaken src xfer).readMet r me).readErr r.ctx ((s.readTaken src xfer).readPas r) me = .none) :
    execReadReqServe src xfer me s = .next (((((s.readTaken src xfer).readMet r me).readAnswer r ((s.readTaken src xfer).readPas r)).fillTlb
      r.ctx r.vas).engineOff) := by
  have hmapped : (r.vas.find? fun a => ((s.readTaken src xfer).xlate r.ctx a false).isNone) = none :=
    List.find?_eq_none.2 fun a ha => by rw [Option.isNone_eq_false_iff.2 (hmaps a ha)]; decide
  have hmay : (!(s.readTaken src xfer).on Reg.SWT_SLICE_ENC && r.vas.any ((s.readTaken src xfer).sealedVa r.ctx)) = false := by
    rcases hsealed with h | h
    · rw [h]; rfl
    · rw [List.any_eq_false.2 fun a ha => Bool.eq_false_iff.1 (h a ha), Bool.and_false]
  simp only [execReadReqServe, hr, hroute, State.withEngine, hmapped, hmay, hclean, State.readFails, Option.getD_none, Bool.not_true,
    Bool.false_eq_true, if_false]

/-- Settles O45: a slot by its word and the state of its port, an answer by the cell in flight that it names, a report by the transfer
of its number. The model's choices: the credit of a cell that is refused or discarded goes back, and the corrections of an idle
cell count (log entry 97); what is heard of a transfer whose descriptor has ended (entry 137); the 16 frames in which an
engine awaits data (entry 142). -/
theorem cellsAndAnswers : Obligations.CellsAndAnswers := by
  intro slot port term src lseq xfer m c e me s
  have hheard {f : State → State} {t : State} (hup : s.serviceUp port = true) (h : f s = t) :
      (Host.Outcome.next (s.heardOn port f) : Host.Outcome State Fault Refusal) = .next t :=
    congrArg Host.Outcome.next ((State.heardOn_up hup f).trans h)
  have hdeaf {f : State → State} (hup : s.serviceUp port = false) :
      (Host.Outcome.next (s.heardOn port f) : Host.Outcome State Fault Refusal) = .next s :=
    congrArg Host.Outcome.next (State.heardOn_down hup f)
  refine ⟨?launch, ?receive, fun hup => hheard hup rfl, fun q hup hq => hheard hup (State.refuseNamed_of_answered hq true),
    fun q hup hq => hheard hup (State.refuseNamed_of_answered hq false), fun hup => hheard hup rfl, fun hup => hheard hup rfl,
    fun hup => ⟨hdeaf hup, hdeaf hup, hdeaf hup, hdeaf hup, hdeaf hup⟩, fun q f => execCellInflightTimeout_of_due,
    fun x => execDelivered_of_live,
    fun x hx hgen hlive => ⟨fun o => execCellRefusal_of_op hx hgen hlive, execCellRefusal_of_engine hx hgen hlive⟩,
    fun x hx hgen hdead => ⟨execDelivered_of_dead hx hgen hdead, execCellRefusal_of_dead hx hgen hdead⟩,
    fun x hx hgen => ⟨execDelivered_of_stale hx hgen, execCellRefusal_of_stale hx hgen⟩,
    fun x t hx hlive hopen hacked hlast hdue => ⟨fun o => execDeliveryTimeout_of_op hx hlive hopen hacked hlast hdue,
      execDeliveryTimeout_of_engine hx hlive hopen hacked hlast hdue⟩,
    fun ctx code d => ⟨rfl, rfl, State.engineFails_ckpt_writing, State.engineFails_ckpt_restoring⟩,
    fun r hr => execReadReqServe_of_clean hr⟩
  case launch =>
    exact ⟨fun q served hlights hcan htag hq => execCellLaunch_of_cell hlights hcan htag hq,
      fun q served hlights hcan htag hq => execCellLaunch_of_lost hlights hcan htag hq, fun q l c => State.readAgain_payload,
      fun q served hlights hcan htag hq => execCellLaunch_of_keyless hlights hcan htag hq, execCellLaunch_of_idle, execCellLaunch_of_dark⟩
  case receive =>
    refine ⟨execCellReceive_of_closed, execCellReceive_of_relay, execCellReceive_of_express, fun hopen hrelay hstop => ?stopped,
      fun fixed paid => ?terminated⟩
    case stopped =>
      exact ⟨execCellReceive_of_gap hopen hrelay hstop, fun hgap =>
        ⟨execCellReceive_of_unready hopen hrelay hstop hgap, execCellReceive_of_ready hopen hrelay hstop hgap⟩⟩
    case terminated =>
      exact ⟨State.terminate_of_idle, fun hidle =>
        have htype (hok : slotOk c e = true) : c.type ≠ 0 := fun h => hidle ⟨hok, h⟩
        ⟨State.terminate_of_hold hidle, State.terminate_of_broken, fun hhold hok => State.terminate_of_duplicate hhold hok (htype hok),
          fun hhold hok => State.terminate_of_full hhold hok (htype hok), fun hhold hok => State.terminate_of_room hhold hok (htype hok)⟩⟩

end Sys2Proof.Machine
end

section
/-! ## Service messages (R255, R380) -/
namespace Sys2Proof.Machine
variable {s : State} {port : Fin 16} {bytes : List Byte} {route : Option (BitVec 13 × BitVec 13)}

/-- The origin and destination of a message: as its body gives them, else as they came with it. -/
abbrev svcWay (bytes : List Byte) (route : Option (BitVec 13 × BitVec 13)) : Option (Nat × Nat) :=
  (svcRoute (svcHeader bytes).cls (svcBodyOf bytes)).or (route.map fun r => (r.1.toNat, r.2.toNat))

/-- How far the sequence of a message lies ahead of the one received last. -/
abbrev State.svcAhead (s : State) (p : Nat) (bytes : List Byte) : Nat := ((svcHeader bytes).hseq + 4096 - (s.port p).hopRecv) % 4096

/-- A port has heard of its neighbour. -/
abbrev State.svcHeard (s : State) (p : Nat) : State := s.modPort p fun y => { y with silent := 0 }

theorem execServiceMessageReceive_of_deaf (hup : s.serviceUp port = false) : execServiceMessageReceive port bytes route s = .next s :=
  if_pos (by rw [hup]; rfl)

theorem execServiceMessageReceive_of_inverted (hinv : svcInverted bytes = true) : execServiceMessageReceive port bytes route s = .next s :=
  if_pos (by rw [hinv, Bool.or_true])

section
variable (hup : s.serviceUp port = true) (hinv : svcInverted bytes = false)
include hup hinv

theorem execServiceMessageReceive_of_broken (hok : svcOk bytes = false) : execServiceMessageReceive port bytes route s =
    .next ((s.svcIdle port true).invertSvc port (svcHeader bytes) (svcBodyOf bytes) (svcWay bytes route)) := by
  simp only [execServiceMessageReceive, hup, hinv, hok, Bool.not_true, Bool.not_false, Bool.or_self, Bool.false_eq_true, if_false, if_true]

variable (hok : svcOk bytes = true)
include hok

/-- A whole idle word that is not ahead of what was received has at most its NAK answered. -/
theorem execServiceMessageReceive_of_idle (hcls : (svcHeader bytes).cls = 0) (hahead : s.svcAhead port bytes = 0 ∨ 2048 ≤ s.svcAhead port bytes) :
    execServiceMessageReceive port bytes route s =
      .next ((s.svcHeard port).when (svcHeader bytes).nak fun t => t.svcResend port (svcHeader bytes).hack) := by
  have hbehind : (decide (s.svcAhead port bytes = 0) || decide (2048 ≤ s.svcAhead port bytes)) = true := by simpa using hahead
  simp only [execServiceMessageReceive, hup, hinv, hok, hcls, hbehind, Bool.not_true, Bool.or_self, Bool.false_eq_true, if_false, if_true]

variable (hnak : (svcHeader bytes).nak = false)
include hnak

theorem execServiceMessageReceive_of_gap (hne : s.svcAhead port bytes ≠ 0) (hlt : s.svcAhead port bytes < 2048)
    (hgap : (svcHeader bytes).cls = 0 ∨ s.svcAhead port bytes ≠ 1) :
    execServiceMessageReceive port bytes route s = .next ((s.svcHeard port).svcIdle port true) := by
  rcases hgap with hcls | hone
  · simp only [execServiceMessageReceive, hup, hinv, hok, hnak, hcls, hne, Nat.not_le.2 hlt, State.when, decide_false, Bool.not_true, Bool.or_self,
      Bool.false_eq_true, if_false, if_true]
  · simp only [execServiceMessageReceive, hup, hinv, hok, hnak, hone, hne, Nat.not_le.2 hlt, State.when, decide_false, Bool.not_true, Bool.or_self,
      Bool.false_eq_true, if_false, ite_self]

variable (hcls : (svcHeader bytes).cls ≠ 0)
include hcls

theorem execServiceMessageReceive_of_next (hahead : s.svcAhead port bytes = 1) : execServiceMessageReceive port bytes route s =
    .next ((((s.svcHeard port).modPort port fun y => { y with hopRecv := (svcHeader bytes).hseq }).routeSvc port (svcHeader bytes)
      (svcBodyOf bytes) (svcWay bytes route)).svcIdle port false) := by
  simp only [execServiceMessageReceive, hup, hinv, hok, hnak, hcls, hahead, State.when, Bool.not_true, Bool.or_self, Bool.false_eq_true,
    if_false, if_true]

theorem execServiceMessageReceive_of_duplicate (hahead : s.svcAhead port bytes = 0 ∨ 2048 ≤ s.svcAhead port bytes) :
    execServiceMessageReceive port bytes route s = .next (s.svcHeard port) := by
  have hbehind : (decide (s.svcAhead port bytes = 0) || decide (2048 ≤ s.svcAhead port bytes)) = true := by simpa using hahead
  have hne : s.svcAhead port bytes ≠ 1 := by omega
  simp only [execServiceMessageReceive, hup, hinv, hok, hnak, hcls, hne, hbehind, State.when, Bool.not_true, Bool.or_self, Bool.false_eq_true,
    if_false, if_true]
end

/-! ### Where a message goes -/

namespace State
variable {p : Nat} {h : SvcHeader} {body : List Byte}

theorem routeSvc_of_unknown (hunknown : unknownSvc h body = true) (way : Option (Nat × Nat)) :
    s.routeSvc p h body way = s.modFab fun f => { f with unknownClass := f.unknownClass + 1 } := if_pos hunknown

variable (hknown : unknownSvc h body = false)
include hknown

theorem routeSvc_of_own (a : Nat) : s.routeSvc p h body (some (a, s.moduleId)) = s := by
  simp only [routeSvc, hknown, beq_self_eq_true, Bool.false_eq_true, if_false, if_true]

theorem routeSvc_of_other {a d : Nat} (hd : d ≠ s.moduleId) :
    s.routeSvc p h body (some (a, d)) = s.forwardSvc p a d (.passed h.cls body) h.hops := by
  simp only [routeSvc, hknown, beq_false_of_ne hd, Bool.false_eq_true, if_false]
end State

theorem unknownSvc_of_class {h : SvcHeader} {body : List Byte} (hcls : 7 < h.cls) : unknownSvc h body = true := by
  simp only [unknownSvc, hcls, decide_true, Bool.true_or]

end Sys2Proof.Machine
end

section
/-! ## Beacons, training, silence and gaps (R254, R256, R267–R269, R274, R293, R389) -/
namespace Sys2Proof.Machine
variable {s : State} {port : Fin 16}

/-! ### Beacons (R256) -/

theorem execBeaconSend_of_due (hup : s.serviceUp port = true) (hdue : (s.port port).beaconAt + 64 ≤ s.now) :
    execBeaconSend port s = .next (s.sendBeacon port) := by
  simp only [execBeaconSend, hup, ge_iff_le, hdue, decide_true, Bool.and_self, if_true]

theorem execBeaconSend_of_waiting (h : s.now < (s.port port).beaconAt + 64 ∨ s.serviceUp port = false) : execBeaconSend port s = .next s := by
  refine if_neg ?_
  rcases h with h | h <;> simp [h]

/-- The beacon of the neighbour that is known already. -/
theorem State.beaconIn_of_peer {p : Nat} {b : Beacon} (hops : b.hops = 0) (hknown : (s.port p).fresh = false) (hpeer : s.peer p = b.src.toNat) :
    s.beaconIn p b =
      (let t := (s.mark (Reg.OPT_PORT_STATUS_PEER_VALID p)).modPort p fun y =>
         let z : SourceMap := { sget (fun _ => {}) y.sources b.src.toNat with
           txSpare := b.txSpare.toNat, sources := b.sources.map (·.toNat), port := b.port.toNat, slice := b.slice.toNat, bypassOpen := b.bypassOpen }
         { y with silent := 0, sources := sset (fun _ => {}) y.sources b.src.toNat z }
       (t.each ((t.port p).hold.filter fun lam => lam ≤ 16 && !(t.rxWaves p).contains lam) fun u lam => u.holdOff p lam).refreshPort p) := by
  simp only [beaconIn, hops, hknown, hpeer, bne_self_eq_false, Bool.or_self, Bool.false_eq_true, if_false]

/-! ### A new neighbour (R269, R274, R293) -/

theorem execPortTrainingDone_of_due {t0 : Nat} (ht : (s.port port).trainAt = some t0) (hdue : t0 + 16 ≤ s.now)
    (hvalid : s.on (Reg.OPT_PORT_STATUS_PEER_VALID port) = true) : execPortTrainingDone port s =
      .next ((s.modPort port fun y => { y with trained := true, trainAt := none }).refreshPort port) := by
  simp only [execPortTrainingDone, ht, Nat.not_lt.2 hdue, hvalid, decide_false, Bool.not_true, Bool.or_self, Bool.false_eq_true, if_false]

theorem execDelayMeasureDone_of_due {t0 : Nat} (ht : (s.port port).measureAt = some t0) (hdue : t0 + 16 ≤ s.now)
    (hmeasured : (s.nbr port).measured = true) : execDelayMeasureDone port s = .next
      (let r := s.fresh
       let d := (((s.nbr port).delay2 + (r.1 % 2 : Nat)) / 2).toNat % 2 ^ 24
       (((r.2.put (Reg.SWT_PORT_DELAY_DELAY port) d).mark (Reg.SWT_PORT_DELAY_VALID port)).put (Reg.SWT_PORT_DELAY_EXPRESS_OK port)
         (b2n (expressOk d))).modPort port fun y => { y with measureAt := none }) := by
  simp only [execDelayMeasureDone, ht, Nat.not_lt.2 hdue, hmeasured, decide_false, Bool.not_true, Bool.or_self, Bool.false_eq_true, if_false]

/-! ### Silence and the quiet limit (R254, R389) -/

theorem execPeerSilent_of_due (hwas : (s.port port).wasUp = true) (hsilent : (s.port port).silent = 64) : execPeerSilent port s = .next
    (((s.mark Reg.RPL_REPLAY_EVENT_PEER_SILENT).sendTo s.moduleId (Config.sliceManager % 8192) (.short .peerSilent [s.peer port])).modPort port
      fun y => { y with silent := 65 }) := by
  simp only [execPeerSilent, hwas, hsilent, bne_self_eq_false, Bool.not_true, Bool.or_self, Bool.false_eq_true, if_false]

theorem execPeerSilent_of_other (hsilent : (s.port port).silent ≠ 64) : execPeerSilent port s = .next s :=
  if_pos (by rw [bne_iff_ne.2 hsilent, Bool.or_true])

theorem execQuietLimitExpire_of_due (hquiet : (s.port port).quiet ≠ [] ∨ (s.port port).hold ≠ [])
    (hdue : s.get Reg.OPT_QUIET_LIMIT_FRAMES ≤ (s.port port).quietTicks) (hdown : s.on (Reg.OPT_PORT_STATUS_LINK_DOWN port) = false) :
    execQuietLimitExpire port s = .next (s.linkDown port 2) := by
  have hsome : ((s.port port).quiet.isEmpty && (s.port port).hold.isEmpty) = false := by
    rcases hquiet with h | h <;> simp [h]
  simp only [execQuietLimitExpire, hsome, Nat.not_lt.2 hdue, hdown, decide_false, Bool.or_self, Bool.false_eq_true, if_false]

/-! ### Gaps (R267) -/

/-- The first frame after the tick before whose low 32 bits are v lies within 2^32 frames: the tick has come to it, or not. -/
theorem State.atLow32_iff {v : Nat} (hv : v < 2 ^ 32) : s.atLow32 v = true ↔ ∃ f, s.time.base < f ∧ f ≤ s.time.top ∧ f % 2 ^ 32 = v := by
  simp only [atLow32, decide_eq_true_eq]
  constructor
  · exact fun h => ⟨_, by omega, h, by omega⟩
  · rintro ⟨f, hbase, htop, rfl⟩
    omega

section
variable (hlen : s.get (Reg.OPT_PORT_GAP_LEN_FRAMES port) ≠ 0) (hgap : s.on (Reg.OPT_PORT_STATUS_GAP port) = false)
include hlen hgap

theorem execPortGapStart_of_due (hdue : s.atLow32 (s.get (Reg.OPT_PORT_GAP_START_START port)) = true) : execPortGapStart port s = .next
    (((s.mark (Reg.OPT_PORT_STATUS_GAP port)).modPort port fun y =>
      { y with gapEnd := some (s.now + s.get (Reg.OPT_PORT_GAP_LEN_FRAMES port)) }).refreshPort port) := by
  simp only [execPortGapStart, hlen, hgap, hdue, decide_false, Bool.not_true, Bool.or_self, Bool.false_eq_true, if_false]
end

theorem execPortGapStart_of_early (h : s.atLow32 (s.get (Reg.OPT_PORT_GAP_START_START port)) = false) : execPortGapStart port s = .next s :=
  if_pos (by rw [h, Bool.not_false, Bool.or_true])

theorem execPortGapEnd_of_due {t : Nat} (ht : (s.port port).gapEnd = some t) (hdue : t ≤ s.now) : execPortGapEnd port s = .next
    (((s.put (Reg.OPT_PORT_STATUS_GAP port) 0).modPort port fun y => { y with gapEnd := none }).refreshPort port) := by
  simp only [execPortGapEnd, ht, Nat.not_lt.2 hdue, if_false]

/-! ### The listener of a bypass (R268) -/

theorem execListenerMessage_of_powered {k : Fin 8} {frame : BitVec 64} (h : s.pins.v12 = true) : execListenerMessage k frame s = .next
    ((s.mark (Reg.OPT_BYP_STATUS_LISTEN_OK k)).modByp k fun y => { y with listener := some (frame.toNat, s.now) }) := by
  simp only [execListenerMessage, h, Bool.not_true, Bool.false_eq_true, if_false]

/-- Settles O46: a message by its CRC, its class and its place in the hop's sequence, a port by its clocks. That an idle word answers a
message in order, and that a port whose service lane does not work hears nothing, is the model's choice (log entry 132). -/
theorem serviceLaneAndPorts : Obligations.ServiceLaneAndPorts := by
  intro port bytes route b k frame s x
  refine ⟨?message, execBeaconSend_of_due, execBeaconSend_of_waiting, fun hup => congrArg Host.Outcome.next (State.heardOn_down hup _),
    fun hup hops hknown hpeer => congrArg Host.Outcome.next ((State.heardOn_up hup _).trans (State.beaconIn_of_peer hops hknown hpeer)),
    fun t0 => execPortTrainingDone_of_due, fun t0 => execDelayMeasureDone_of_due, execPeerSilent_of_due, execPeerSilent_of_other,
    execQuietLimitExpire_of_due, fun hlen hgap => ⟨execPortGapStart_of_due hlen hgap, execPortGapStart_of_early⟩,
    fun v => State.atLow32_iff, fun t => execPortGapEnd_of_due, execListenerMessage_of_powered⟩
  case message =>
    intro h body way ahead u
    have hidle (hnak : h.nak = false) : (s.svcHeard port).when h.nak (fun t => t.svcResend port h.hack) = u := by rw [hnak]; rfl
    refine ⟨execServiceMessageReceive_of_deaf, execServiceMessageReceive_of_inverted, execServiceMessageReceive_of_broken,
      fun hup hinv hok hnak => ⟨fun hcls hahead => ?idle, execServiceMessageReceive_of_next hup hinv hok hnak,
        execServiceMessageReceive_of_duplicate hup hinv hok hnak, execServiceMessageReceive_of_gap hup hinv hok hnak⟩,
      fun hup hinv hok hnak hcls hahead => ?nak, fun a hknown => State.routeSvc_of_own hknown a,
      fun a d hknown => State.routeSvc_of_other hknown, fun hunknown => State.routeSvc_of_unknown hunknown way, unknownSvc_of_class⟩
    case idle => exact hidle hnak ▸ execServiceMessageReceive_of_idle hup hinv hok hcls hahead
    case nak =>
      have hresend := execServiceMessageReceive_of_idle (route := route) hup hinv hok hcls hahead
      rw [show (svcHeader bytes).nak = true from hnak] at hresend
      exact hresend

end Sys2Proof.Machine
end

section
/-! ## The bypass switches (R265–R268) -/
namespace Sys2Proof.Machine
variable {s : State} {k : Fin 8}

/-- Firmware's command to close is that of Idfort. -/
theorem execBypassCloseCommand_of_acts {p : Party} (hp : p.fw = true) (ha : s.acts p) : execBypassCloseCommand p k s = .next (s.closeBypass k) := by
  simp only [execBypassCloseCommand, State.fwOnly_of_acts hp ha, ite_self]

/-- The frame of an armed motion has come, by the frame counter or else by the listener's count (R267, R268). -/
abbrev State.MotionDue (s : State) (k : Fin 8) : Prop :=
  if s.on Reg.FTB_STATUS_VALID then s.atLow32 (s.get (Reg.OPT_BYP_FRAME_FRAME k)) = true
  else (s.motionClock k).map (· % 2 ^ 32) = some (s.get (Reg.OPT_BYP_FRAME_FRAME k))

theorem State.motionDue_iff : (if s.on Reg.FTB_STATUS_VALID then s.atLow32 (s.get (Reg.OPT_BYP_FRAME_FRAME k))
    else (s.motionClock k).map (· % 2 ^ 32) == some (s.get (Reg.OPT_BYP_FRAME_FRAME k))) = true ↔ s.MotionDue k := by
  unfold State.MotionDue
  split
  · rfl
  · exact beq_iff_eq

section
variable (harm : s.on (Reg.OPT_BYP_CTRL_ARM k) = true) (hdue : s.MotionDue k)
include harm hdue

theorem execBypassMotionStart_of_close (htarget : s.on (Reg.OPT_BYP_CTRL_TARGET k) = false) :
    execBypassMotionStart k s = .next (s.closeBypass k) := by
  simp only [execBypassMotionStart, harm, State.motionDue_iff.2 hdue, htarget, Bool.true_or, Bool.not_true, Bool.not_false, Bool.or_self,
    Bool.false_eq_true, if_false, if_true]

variable (htarget : s.on (Reg.OPT_BYP_CTRL_TARGET k) = true) (hheld : s.bypassHeld = true)
  (hopen : s.get (Reg.OPT_BYP_STATUS_POSITION k) ≠ bypIsOpen) (hopening : s.get (Reg.OPT_BYP_STATUS_POSITION k) ≠ bypOpening)
include htarget hheld hopen hopening

theorem execBypassMotionStart_of_open (hmay : s.mayOpen k = true) : execBypassMotionStart k s =
    .next (((s.put (Reg.OPT_BYP_CTRL_ARM k) 0).put (Reg.OPT_BYP_STATUS_DEFERRED k) 0).move k bypOpening) := by
  simp only [execBypassMotionStart, harm, State.motionDue_iff.2 hdue, htarget, hheld, hopen, hopening, hmay, decide_false, Bool.true_or,
    Bool.not_true, Bool.or_self, Bool.false_eq_true, if_false, if_true]

theorem execBypassMotionStart_of_deferred (hmay : s.mayOpen k = false) (hfirst : s.on (Reg.OPT_BYP_STATUS_DEFERRED k) = false) :
    execBypassMotionStart k s = .next ((s.mark (Reg.OPT_BYP_STATUS_DEFERRED k)).mark Reg.OPT_EVENT_BYPASS_DEFER) := by
  simp only [execBypassMotionStart, harm, State.motionDue_iff.2 hdue, htarget, hheld, hopen, hopening, hmay, hfirst, decide_false, Bool.true_or,
    Bool.not_true, Bool.or_self, Bool.false_eq_true, if_false]
end

theorem execBypassMotionEnd_of_opening (hpos : s.get (Reg.OPT_BYP_STATUS_POSITION k) = bypOpening) : execBypassMotionEnd k s = .next
    (let t := s.put (Reg.OPT_BYP_STATUS_POSITION k) bypIsOpen
     ([2 * k.val, 2 * k.val + 1].filter t.serviceUp).foldl State.sendBeacon t) := by
  simp only [execBypassMotionEnd, hpos, if_true]

theorem execBypassMotionEnd_of_closing (hpos : s.get (Reg.OPT_BYP_STATUS_POSITION k) = bypClosing) :
    execBypassMotionEnd k s = .next (s.put (Reg.OPT_BYP_STATUS_POSITION k) bypClosed) :=
  (if_neg (by rw [hpos]; decide)).trans (if_pos hpos)

end Sys2Proof.Machine
end

section
/-! ## Schedules, routes and link keys (R277–R279, R285–R290, R302) -/
namespace Sys2Proof.Machine
variable {s : State}

/-! ### The load of an image (R277) -/

/-- The load of a schedule image is over. -/
abbrev State.loadEnded (s : State) : State :=
  ((s.put Reg.SWT_SCHED_LOAD_CTRL_BUSY 0).put Reg.SWT_SCHED_LOAD_CTRL_GO 0).modFab fun f => { f with load := none }

section
variable {b : Nat}

theorem execSchedLoadDone_of_refused (h : s.fab.load = some (b, true)) : execSchedLoadDone s = .next (s.loadEnded.loadFails 1 0 0) := by
  simp only [execSchedLoadDone, h, if_true]

variable (h : s.fab.load = some (b, false))
include h

theorem execSchedLoadDone_of_error {q : Nat × Nat × Nat} (hq : s.loadEnded.imageError = some q) :
    execSchedLoadDone s = .next (s.loadEnded.loadFails q.1 q.2.1 q.2.2) := by
  simp only [execSchedLoadDone, h, hq, Bool.false_eq_true, if_false]

theorem execSchedLoadDone_of_good (hq : s.loadEnded.imageError = none) :
    execSchedLoadDone s = .next ((s.loadEnded.mark (loadedFld b)).modFab fun f =>
      let put (m : Sparse Nat) (n : Nat) : Sparse Nat :=
        sset (fun _ => 0) m (2048 * b + n) (s.loadEnded.natAt (s.loadEnded.imageBase + 4 * n) 4)
      { f with sched := (List.range 2048).foldl put f.sched }) := by
  simp only [execSchedLoadDone, h, hq, Bool.false_eq_true, if_false]
end

/-! ### The swap of the banks (R278, R279) -/

/-- The pending bank is active. -/
abbrev State.bankSwapped (s : State) (b : Nat) : State :=
  (((((((s.turn 5).put Reg.SWT_SCHED_BANK_ACTIVE b).put Reg.SWT_STATUS_ACTIVE_BANK b).put Reg.SWT_STATUS_SWAP_PENDING 0).mark
    Reg.SWT_EVENT_SWAP_DONE).modFab fun x => { x with swap := none }).moveFlows b)

section
variable {b f n : Nat} (h : s.fab.swap = some (b, f, n))
include h

theorem execScheduleSwap_of_early (hearly : s.frame < f) : execScheduleSwap s = .next s := by
  simp only [execScheduleSwap, h, hearly, decide_true, Bool.true_or, if_true]

variable (hdue : f ≤ s.frame) (hturn : s.time.pos ≤ 5)
include hdue hturn

theorem execScheduleSwap_of_phase {o : Op} (ho : (s.bankSwapped b).opNo? n = some o) :
    execScheduleSwap s = .next ((s.bankSwapped b).finish o stDone 0) := by
  simp only [execScheduleSwap, h, Nat.not_lt.2 hdue, Nat.not_lt.2 hturn, ho, decide_false, Bool.or_self, Bool.false_eq_true, if_false]

theorem execScheduleSwap_of_no_phase (ho : (s.bankSwapped b).opNo? n = none) : execScheduleSwap s = .next (s.bankSwapped b) := by
  simp only [execScheduleSwap, h, Nat.not_lt.2 hdue, Nat.not_lt.2 hturn, ho, decide_false, Bool.or_self, Bool.false_eq_true, if_false]
end

/-! ### Routes (R285–R287, R290) -/

theorem execRouteEntryEffect_of_valid {index : BitVec 13} (hset : sget (fun _ => 0) s.fab.routeDue index.toNat ≠ 0)
    (hdue : sget (fun _ => 0) s.fab.routeDue index.toNat ≤ s.now) (hvalid : routeValid (sget (fun _ => 0) s.fab.routeNew index.toNat) = true) :
    execRouteEntryEffect index s = .next (s.modFab fun f => { f with
      routes := sset (fun _ => 0) f.routes index.toNat (sget (fun _ => 0) s.fab.routeNew index.toNat)
      routeDue := sset (fun _ => 0) f.routeDue index.toNat 0 }) := by
  simp only [execRouteEntryEffect, hset, Nat.not_lt.2 hdue, hvalid, decide_false, Bool.or_self, Bool.false_eq_true, if_false, if_true]

/-- The alternative route of a waiting cell whose route leaves by a port. -/
def State.altRoute (s : State) (p : Nat) (q : QCell) : Option Nat :=
  let e := s.route q.cell.dest.toNat
  if q.flight.isNone && routePort e == p && routeAltOk e then some (routeAlt e) else none

/-- A waiting cell of a port moves to its alternative route. -/
def State.reroutedCell (s : State) (p : Nat) (q : QCell) : QCell :=
  match q.queue, s.altRoute p q with
  | .own p', some a => if p' == p then { q with queue := .own a } else q
  | .flow p' _, some a => if p' == p then { q with queue := .own a } else q
  | _, _ => q

theorem State.reroutedCell_of_own {p : Nat} {q : QCell} (hwaits : q.flight = none) (hqueue : q.queue = .own p)
    (hport : routePort (s.route q.cell.dest.toNat) = p) (halt : routeAltOk (s.route q.cell.dest.toNat) = true) :
    s.reroutedCell p q = { q with queue := .own (routeAlt (s.route q.cell.dest.toNat)) } := by
  have hroute : s.altRoute p q = some (routeAlt (s.route q.cell.dest.toNat)) := by
    simp only [altRoute, hwaits, hport, halt, Option.isNone_none, beq_self_eq_true, Bool.and_self, if_true]
  simp only [reroutedCell, hqueue, hroute, beq_self_eq_true, if_true]

theorem execReroute_of_down {port : Fin 16} {t : Nat} (hfirst : (s.port port).rerouted = false) (hdown : (s.port port).downAt = some t)
    (hdue : t < s.now) (hon : s.on Reg.SWT_CTRL_REROUTE = true) (hlink : s.on (Reg.OPT_PORT_STATUS_LINK_DOWN port) = true) :
    execReroute port s = .next (((s.modPort port fun y => { y with rerouted := true }).modFab fun f =>
      { f with cells := f.cells.map (s.reroutedCell port) }).mark Reg.SWT_EVENT_REROUTE) := by
  simp only [execReroute, hfirst, hdown, Nat.not_le.2 hdue, hon, hlink, decide_false, Bool.not_true, Bool.or_self, Bool.false_eq_true, if_false]
  rfl

/-! ### Link keys (R302) -/

theorem execKeySwitch_of_due {f : Nat} (h : s.fab.keyArm = some f) (hdue : f ≤ s.frame) : execKeySwitch s = .next
    ((s.put Reg.SWT_STATUS_KEY_SLOT (1 - s.keySlot)).modFab fun x => { x with keyArm := none, keyErase := some (s.keySlot, s.now + 64) }) := by
  simp only [execKeySwitch, h, Nat.not_lt.2 hdue, if_false]

theorem execOldKeyErase_of_due {j t : Nat} (h : s.fab.keyErase = some (j, t)) (hdue : t ≤ s.now) : execOldKeyErase s =
    .next (((s.put (keyFld j) 0).modFab fun x => { x with keyErase := none }).dropLinkKey j) := by
  simp only [execOldKeyErase, h, Nat.not_lt.2 hdue, if_false]

/-- Settles O47: each command by what is armed, pending or due. That GO clears at the end of a load is the model's choice (log entry 131),
and so is that the image's address is read then (log entry 153). -/
theorem switchingCommands : Obligations.SwitchingCommands := by
  intro k port v index s pos
  have hwrite {p : Party} {f : State → State} {t : State} (h : s.fwOnly p f = t) :
      (Host.Outcome.next (s.fwOnly p f) : Host.Outcome State Fault Refusal) = .next t := congrArg _ h
  refine ⟨rfl, rfl, fun p hp ha => ⟨hwrite (State.fwOnly_of_acts hp ha _), execBypassCloseCommand_of_acts hp ha⟩,
    fun p hp => hwrite (State.fwOnly_denied hp s _),
    fun harm hdue => ⟨execBypassMotionStart_of_close harm hdue,
      fun htarget hheld hopen hopening => execBypassMotionStart_of_open harm hdue htarget hheld hopen hopening,
      fun htarget hheld hopen hopening => execBypassMotionStart_of_deferred harm hdue htarget hheld hopen hopening⟩,
    execBypassMotionEnd_of_opening, execBypassMotionEnd_of_closing, fun b => execSchedLoadDone_of_refused,
    fun b h => ⟨fun q => execSchedLoadDone_of_error h, execSchedLoadDone_of_good h⟩,
    fun b f n h hdue hturn => ⟨fun o => execScheduleSwap_of_phase h hdue hturn, execScheduleSwap_of_no_phase h hdue hturn⟩,
    fun b f n => execScheduleSwap_of_early, execRouteEntryEffect_of_valid, ?reroute, fun f => execKeySwitch_of_due, fun j t => execOldKeyErase_of_due⟩
  case reroute =>
    intro t hfirst hdown hdue hon hlink
    refine ⟨_, execReroute_of_down hfirst hdown hdue hon hlink, rfl, List.length_map _, fun n q hq hwaits hqueue hport halt => ?_⟩
    rw [← State.reroutedCell_of_own hwaits hqueue hport halt]
    exact (List.getElem?_map ..).trans (congrArg (Option.map _) hq)

end Sys2Proof.Machine
end

section
/-! ## The descriptors of a step: NOON, CLOSE, PHASE and SNAP -/
namespace Sys2Proof.Machine

namespace State

/-- A NOON names the open step and attempt, and nothing has made them differ (R317). -/
abbrev NoonMatches (s : State) (o : Op) : Prop :=
  descBytes o.desc 24 8 = s.stepNum o.ctx ∧ descBytes o.desc 32 4 = s.get (Reg.RPL_STEP_ATTEMPT_ATTEMPT o.ctx)
    ∧ (s.ctx o.ctx).mismatch = false

/-- The vote at a NOON with MATCH cleared where step or attempt differ (R317). -/
abbrev noonMatched (s : State) (o : Op) : State := if s.NoonMatches o then s else s.clearVote o.ctx 5

/-- The vote at a NOON, with the input vote cleared where no sealed set of the step exists (R369). -/
abbrev noonChecked (s : State) (o : Op) : State :=
  if s.inputsOk o.ctx then s.noonMatched o else (s.noonMatched o).clearVote o.ctx 6

/-- The payload of a NOON: the vote in its low bits and ones above (R317, log entry 58). -/
abbrev noonPayload (s : State) (o : Op) : Nat := 2 ^ 64 - 128 + (s.noonChecked o).get (Reg.RPL_STEP_VOTE_OWN o.ctx) % 128

end State

section
variable {r : Fin 256} {o : Op} {s : State}

/-! ### NOON (R317–R319, R369) -/

section
variable (hready : s.ready r 12 = some o)
include hready

theorem execNoon_of_waiting (hwait : s.earlierOpen o = true ∨ s.dupPending o.ctx = true) :
    execNoon r s = .next (s.modCtx o.ctx fun x => { x with noonHeld := x.noonHeld.or (some s.now) }) := by
  have hheld : (s.earlierOpen o || s.dupPending o.ctx) = true := Bool.or_eq_true_iff.2 hwait
  simp only [execNoon, hready, hheld, if_true]

theorem execNoon_of_arrival (hearlier : s.earlierOpen o = false) (hdups : s.dupPending o.ctx = false) (hon : s.synOn = true)
    (hroom : s.noWaiter = false) {obj : Nat} (hobj : s.xtObj o.ctx (descBytes o.desc 16 2) true = some obj)
    (hbroken : (s.obj obj).broken = false) (hslot : (s.obj obj).slot.isSome = true) (hfits : (s.obj obj).fits 1 = true) :
    execNoon r s = .next (((s.noonChecked o).modCtx o.ctx fun x => { x with
      noonObj := obj, noonVid := descBytes o.desc 16 2, vote := s.noonPayload o, mismatch := false, noonHeld := none }).issueArrival
        o obj (descBytes o.desc 16 2) 1 (s.noonPayload o) 0) := by
  have hsome : (s.obj obj).slot.isNone = false := by simpa using hslot
  have hsame : (descBytes o.desc 24 8 == s.stepNum o.ctx && descBytes o.desc 32 4 == s.get (Reg.RPL_STEP_ATTEMPT_ATTEMPT o.ctx)
      && !(s.ctx o.ctx).mismatch) = true ↔ s.NoonMatches o := by
    simp only [Bool.and_eq_true, beq_iff_eq, Bool.not_eq_true', and_assoc]
  simp only [execNoon, hready, hearlier, hdups, hon, hroom, hobj, hbroken, hsome, hfits, hsame, Bool.or_self, Bool.not_true,
    Bool.and_false, Bool.false_eq_true, if_false]
end

/-! ### CLOSE (R309, R329) -/

section
variable (hready : s.ready r 13 = some o)
include hready

theorem execClose_of_open_step (hstep : descBytes o.desc 24 8 = s.stepNum o.ctx) : execClose r s = .next (s.issue o 0) := by
  simp only [execClose, hready, hstep, bne_self_eq_false, Bool.false_eq_true, if_false]

theorem execClose_of_other_step (hstep : descBytes o.desc 24 8 ≠ s.stepNum o.ctx) :
    execClose r s = .next ((s.raise (o.faultRec fPermission 6 0 [(1, 10), (8, 0)])).reject o fPermission) := by
  simp only [execClose, hready, bne_iff_ne.2 hstep, if_true]
end

/-! ### PHASE (R278) -/

section
variable (hready : s.ready r 9 = some o)
include hready

theorem execPhase_of_running (hbank : s.bank = descBytes o.desc 16 1 % 2) : execPhase r s = .next ((s.issue o 0).finish o stDone 0) := by
  simp only [execPhase, hready, hbank, if_true]

theorem execPhase_of_loaded (hbank : s.bank ≠ descBytes o.desc 16 1 % 2) (hswap : s.fab.swap = none)
    (hloaded : s.on (loadedFld (descBytes o.desc 16 1 % 2)) = true) :
    let f := descBytes o.desc 24 8
    let at_ := if f ≤ s.frame then s.frame + 1 else f
    execPhase r s = .next ((((s.issue o 0).mark Reg.SWT_STATUS_SWAP_PENDING).put64 Reg.SWT_SWAP_FRAME_LO_FRAME
      Reg.SWT_SWAP_FRAME_HI_FRAME at_).modFab fun x => { x with swap := some (descBytes o.desc 16 1 % 2, at_, o.order) }) := by
  simp only [execPhase, hready, hbank, hswap, hloaded, Option.isSome_none, Bool.not_true, Bool.or_self, Bool.false_eq_true, if_false]
end

/-! ### SNAP (R472) -/

theorem execSnap_of_module {t : State} (hready : s.ready r 10 = some o) (hframe : s.snapFrameOk o.desc = true)
    (hmodule : descBytes o.desc 16 1 = 0)
    (harm : s.armCapture (if descBytes o.desc 24 8 = 0 then s.frame + 2 else descBytes o.desc 24 8) 0 (some o.order) = some t) :
    execSnap r s = .next (t.issue o 0) := by
  have hslice : (descBytes o.desc 16 1 == 1) = false := by rw [hmodule]; rfl
  simp only [execSnap, hready, hframe, hslice, harm, State.when, Bool.not_true, Bool.false_eq_true, if_false]
end

/-- Settles O38, descriptor by descriptor. That a CLOSE's step is checked at its issue is the model's choice (log entry 136). -/
theorem stepDescriptors : Obligations.StepDescriptors := by
  intro r o s c vid f
  refine ⟨?arrival, execNoon_of_waiting, execClose_of_open_step, execClose_of_other_step, execPhase_of_running,
    execPhase_of_loaded, fun t => execSnap_of_module⟩
  case arrival =>
    intro obj hready hearlier hdups hon hroom hobj hbroken hslot hfits same s1 s2 hmatch hdiffer hsealed hmissing
    have hs1 : s1 = s.noonMatched o := by
      by_cases h : same
      · exact (hmatch h).trans (if_pos h).symm
      · exact (hdiffer h).trans (if_neg h).symm
    have hs2 : s2 = s.noonChecked o := by
      cases h : s.inputsOk c
      · exact (hmissing h).trans (by rw [hs1, State.noonChecked, h, if_neg Bool.false_ne_true])
      · exact (hsealed h).trans (by rw [hs1, State.noonChecked, h, if_pos rfl])
    subst hs2
    exact execNoon_of_arrival hready hearlier hdups hon hroom hobj hbroken hslot hfits

end Sys2Proof.Machine
end

section
/-! ## The replay's announcements, and the input sets (R304, R366–R371, R379, R380, R395) -/
namespace Sys2Proof.Machine
namespace State
variable {s : State} {m : Announce} {c : Nat}

/-! ### Firmware's writes (R371, R395) -/

section
variable {v : Nat}

theorem writeReplayCtrl_of_discard (hdiscard : bitOn v 0 = true) (harrive : bitOn v 1 = false) (hopen : s.stepOpen c = true) :
    s.writeReplayCtrl c v = s.discardNext c := by
  simp only [writeReplayCtrl, hdiscard, harrive, hopen, when, Bool.and_self, Bool.false_eq_true, if_true, if_false]

theorem writeReplayCtrl_of_arrive (hdiscard : bitOn v 0 = false) (harrive : bitOn v 1 = true) : s.writeReplayCtrl c v = s.clearHold c := by
  simp only [writeReplayCtrl, hdiscard, harrive, when, Bool.false_and, Bool.false_eq_true, if_true, if_false]

theorem writeSetCtrl_of_open (hopen : bitOn v 22 = true) (hseal : bitOn v 23 = false) :
    s.writeSetCtrl v = (s.put Reg.RPL_SET_CTRL_PAGES (v % 2 ^ 22)).openSet (v % 2 ^ 22) := by
  simp only [writeSetCtrl, hopen, hseal, when, bitsOf_zero_lo, Bool.false_eq_true, if_true, if_false]

theorem writeSetCtrl_of_seal (hopen : bitOn v 22 = false) (hseal : bitOn v 23 = true) :
    s.writeSetCtrl v = (s.put Reg.RPL_SET_CTRL_PAGES (v % 2 ^ 22)).sealSet := by
  simp only [writeSetCtrl, hopen, hseal, when, bitsOf_zero_lo, Bool.false_eq_true, if_true, if_false]
end

/-! ### Announcements (R304, R379, R380, R445) -/

section
variable {late act : State → Nat → State}

theorem announce_of_future (hctx : s.announced m = some c) (hframe : s.frame < m.frame.toNat) : s.announce m late act = act s c := by
  simp only [announce, hctx, Nat.not_le.2 hframe, if_false]

theorem announce_of_past (hctx : s.announced m = some c) (hframe : m.frame.toNat ≤ s.frame) :
    s.announce m late act = late (s.mark Reg.SWT_EVENT_LATE_ANNOUNCE) c := by
  simp only [announce, hctx, hframe, if_true]

theorem announce_of_past_none (hctx : s.announced m = none) (hframe : m.frame.toNat ≤ s.frame) :
    s.announce m late act = s.mark Reg.SWT_EVENT_LATE_ANNOUNCE := by
  simp only [announce, hctx, hframe, if_true]

/-- A late announcement that does nothing to its context only counts as late, whatever it names. -/
theorem announce_of_past_ignored (hframe : m.frame.toNat ≤ s.frame) :
    s.announce m (fun t _ => t) act = s.mark Reg.SWT_EVENT_LATE_ANNOUNCE := by
  cases hctx : s.announced m with
  | none => exact announce_of_past_none hctx hframe
  | some c => exact announce_of_past hctx hframe
end

/-- The event register of the fabric lies below the replay registers of every context. -/
theorem replayState_mark_lateAnnounce (s : State) (c : Nat) :
    (s.mark Reg.SWT_EVENT_LATE_ANNOUNCE).get (Reg.RPL_REPLAY_STATUS_STATE c) = s.get (Reg.RPL_REPLAY_STATUS_STATE c) := by
  refine get_put_of_above ?_
  change 0x600008 < 0x100000100 + 0x1000 * c
  omega

end State

section
variable {s : State} {m : Announce} {c : Nat} (hctx : s.announced m = some c)
include hctx

theorem execReplayOpen_of_future (hready : s.get (Reg.RPL_REPLAY_STATUS_STATE c) = 3) (hframe : s.frame < m.frame.toNat) :
    execReplayOpen m s = .next ((s.mark (Reg.RPL_STEP_STATUS_ARMED c)).modCtx c fun x =>
      { x with replayArm := some (m.step.toNat, m.attempt.toNat, m.frame.toNat) }) := by
  simp only [execReplayOpen, State.announce_of_future hctx hframe, hready, State.when, beq_self_eq_true, if_true]

theorem execReplayOpen_of_past_ready (hframe : m.frame.toNat ≤ s.frame) (hready : s.get (Reg.RPL_REPLAY_STATUS_STATE c) = 3) :
    execReplayOpen m s = .next ((s.mark Reg.SWT_EVENT_LATE_ANNOUNCE).mark Reg.RPL_REPLAY_EVENT_LATE) := by
  simp only [execReplayOpen, State.announce_of_past hctx hframe, State.replayState_mark_lateAnnounce, hready, State.when,
    beq_self_eq_true, if_true]

theorem execReplayOpen_of_past_unready (hframe : m.frame.toNat ≤ s.frame) (hready : s.get (Reg.RPL_REPLAY_STATUS_STATE c) ≠ 3) :
    execReplayOpen m s = .next (s.mark Reg.SWT_EVENT_LATE_ANNOUNCE) := by
  simp only [execReplayOpen, State.announce_of_past hctx hframe, State.replayState_mark_lateAnnounce, beq_false_of_ne hready,
    State.when, Bool.false_eq_true, if_false]

theorem execArriveAnnounce_of_named : execArriveAnnounce m s = .next (s.clearHold c) := by
  simp only [execArriveAnnounce, hctx]
end

/-! ### The sets of a ring (R367, R368) -/

section
variable {a b : Nat} {x : InSet} {l r : List InSet}

theorem markFirst_append_cons (hx : x.state = a) (hl : ∀ y ∈ l, y.state ≠ a) :
    markFirst a b (l ++ x :: r) = l ++ { x with state := b } :: r := by
  induction l with
  | nil => simp only [List.nil_append, markFirst, beq_iff_eq.2 hx, if_true]
  | cons y l ih =>
    obtain ⟨hy, hl⟩ := List.forall_mem_cons.1 hl
    simp only [List.cons_append, markFirst, beq_false_of_ne hy, ih hl, Bool.false_eq_true, if_false]

variable (hx : x.state = a) (hr : ∀ y ∈ r, y.state ≠ a)
include hx hr

theorem markNewest_append_cons : markNewest a b (l ++ x :: r) = l ++ { x with state := b } :: r := by
  have hrev : (l ++ x :: r).reverse = r.reverse ++ x :: l.reverse := by simp
  rw [markNewest, hrev, markFirst_append_cons hx fun y hy => hr y (List.mem_reverse.1 hy)]
  simp

theorem newest_append_cons : (l ++ x :: r).reverse.find? (fun t => t.state == a) = some x := by
  have hnone : r.reverse.find? (fun t => t.state == a) = none :=
    List.find?_eq_none.2 fun y hy => by simpa using hr y (List.mem_reverse.1 hy)
  simp [List.find?_append, hnone, hx]
end

namespace State
variable {s : State}

theorem openSet_of_room {n : Nat} (hsets : s.rpl.sets.length < 16) (hfree : n ≤ s.ringFree) : (s.openSet n).rpl.sets =
    s.rpl.sets ++ [{ step := s.get Reg.RPL_SET_STEP_STEP, first := s.ringTail, pages := n, state := 1 }] := by
  simp only [openSet, ge_iff_le, Nat.not_le.2 hsets, Nat.not_lt.2 hfree, decide_false, Bool.or_self, Bool.false_eq_true, if_false]

theorem openSet_of_full {n : Nat} (hfull : 16 ≤ s.rpl.sets.length ∨ s.ringFree < n) :
    s.openSet n = (s.mark Reg.RPL_SET_CTRL_REFUSED).mark Reg.RPL_REPLAY_EVENT_SET_REFUSED :=
  if_pos (by simpa only [Bool.or_eq_true, decide_eq_true_eq] using hfull)

/-! ### The seal, and the guest copy (R368, R385) -/

/-- While a set is SEALING, setting SEAL does nothing. -/
theorem sealSet_of_sealing (hseal : s.on Reg.RPL_SET_CTRL_SEAL = true) : s.sealSet = s := by
  unfold sealSet
  split
  · rfl
  · exact if_pos hseal

section
variable {l r : List InSet} {x : InSet} (hsets : s.rpl.sets = l ++ x :: r) (hx : x.state = 1) (hr : ∀ y ∈ r, y.state ≠ 1)
  (hseal : s.on Reg.RPL_SET_CTRL_SEAL = false)
include hsets hx hr hseal

theorem sealSet_of_no_guest (hguest : s.on Reg.RPL_RING_CFG_GUEST = false) :
    s.sealSet.rpl.sets = l ++ { x with state := 3 } :: r := by
  simp only [sealSet, hsets, newest_append_cons hx hr, markNewest_append_cons hx hr, hseal, hguest, Bool.not_false,
    Bool.false_eq_true, if_false, if_true]

/-- The newest set that is being filled is SEALING, and its guest copy begins. -/
theorem sealSet_of_guest (hguest : s.on Reg.RPL_RING_CFG_GUEST = true) :
    s.sealSet = ({ s.mark Reg.RPL_SET_CTRL_SEAL with
      rpl := { (s.mark Reg.RPL_SET_CTRL_SEAL).rpl with sets := l ++ { x with state := 2 } :: r } } : State).guestCopy x := by
  have hmark : (s.mark Reg.RPL_SET_CTRL_SEAL).rpl.sets = l ++ x :: r := hsets
  simp only [sealSet, hsets, hmark, newest_append_cons hx hr, markNewest_append_cons hx hr, hseal, hguest, Bool.not_true,
    Bool.false_eq_true, if_false]
end

theorem guestCopy_of_fresh {x : InSet} {ctx va : Nat} (hstale : s.on Reg.RPL_MIR_CLIENT_GUEST_STALE = false)
    (hctx : s.learnCtx = some ctx) (hva : s.ringVa ctx = some va)
    (hroute : routeValid (s.route (s.get Reg.RPL_MIR_PARTNER_MODULE)) = true) (hpages : s.setPages x ≠ []) :
    s.guestCopy x = ({ s with rpl := { s.rpl with slotDue := true, guestResend := false } } : State).withEngine ctx
      ((s.setPages x).map fun p => va + 65536 * p) fun y => y.copyPages (ringEngine ctx) va (s.setPages x) := by
  have hsome : (s.setPages x).isEmpty = false := by simpa using hpages
  simp only [guestCopy, hstale, hctx, hva, hroute, hsome, List.flatMap_nil, List.nil_append, Bool.not_true, Bool.false_eq_true, if_false]

theorem sendSlots_cells (w : Owner) : (s.sendSlots w).fab.cells = s.fab.cells ++
    [{ cell := s.newCell w.ctx 1 6 (s.get Reg.RPL_MIR_PARTNER_MODULE) s.fab.nextXfer 0 slotAddr 0
         ((s.rpl.sets.filter fun (t : InSet) => 2 ≤ t.state).flatMap InSet.slotBytes),
       queue := s.ownQueue (s.get Reg.RPL_MIR_PARTNER_MODULE), owner := some w, src := [] }] := rfl

/-- The SEALING set is SEALED, and SEAL is clear. -/
abbrev setsSealed (s : State) : State :=
  ({ s with rpl := { s.rpl with sets := s.rpl.sets.map fun (t : InSet) => if t.state == 2 then { t with state := 3 } else t } } : State).put
    Reg.RPL_SET_CTRL_SEAL 0

end State

section
variable {s : State}

theorem execSetSealed_of_copied (hset : (s.rpl.sets.any fun (t : InSet) => t.state == 2) = true) (hslots : s.rpl.slotDue = false)
    (hcopied : ∀ x ∈ s.fab.xfers, x.owner.engine = true → x.owner.idx ≠ 3) :
    execSetSealed s = .next (s.setsSealed.when s.rpl.guestResend fun t => t.put Reg.RPL_MIR_CLIENT_GUEST_STALE 0) := by
  have hxfers : (s.fab.xfers.all fun x => x.dead || !(x.owner.engine && x.owner.idx == 3)) = true := by
    refine List.all_eq_true.2 fun x hx => ?_
    cases hengine : x.owner.engine with
    | false => simp
    | true => simp [hcopied x hx hengine]
  exact if_pos (by simp only [hset, hslots, hxfers, Bool.not_false, Bool.and_self])

theorem execSetSealed_of_slots_due (hslots : s.rpl.slotDue = true) : execSetSealed s = .next s := by
  simp only [execSetSealed, hslots, Bool.not_true, Bool.and_false, Bool.false_and, Bool.false_eq_true, if_false]

theorem execIdentityRequest_of_own {src dest : BitVec 13} (hdest : dest.toNat = s.moduleId) (hpower : 2 ≤ s.powerNow)
    (hreset : s.pins.resetLow = false) : execIdentityRequest src dest s = .next
      (s.emit (.identity src.toNat [s.moduleId, 0x4816, s.get Reg.GLB_SERIAL_LO_SERIAL, s.get Reg.GLB_SERIAL_HI_SERIAL, s.score 2000])) := by
  simp only [execIdentityRequest, beq_iff_eq.2 hdest, ge_iff_le, hpower, hreset, decide_true, Bool.not_false, Bool.and_self, if_true]
end

/-- Settles O51: firmware's writes, the announcements, then the sets from their opening to their seal. The form and the address of the
slot data's cell, and that it follows the pages of the copy, are the model's choice (log entry 63). -/
theorem announcementsAndSets : Obligations.AnnouncementsAndSets := by
  intro m v src dest c s k
  have hnext {t u : State} (h : t = u) : (Host.Outcome.next t : Host.Outcome State Fault Refusal) = .next u := congrArg _ h
  have hbit {i : Nat} {b : Bool} (hv : v.getLsbD i = b) : bitOn v.toNat i = b := (bitOn_toNat v i).trans hv
  refine ⟨fun hdiscard harrive hopen => hnext (State.writeReplayCtrl_of_discard (hbit hdiscard) (hbit harrive) hopen),
    fun hdiscard harrive => hnext (State.writeReplayCtrl_of_arrive (hbit hdiscard) (hbit harrive)),
    execReplayOpen_of_future,
    fun hframe => ⟨fun hctx => execReplayOpen_of_past_ready hctx hframe, fun hctx => execReplayOpen_of_past_unready hctx hframe,
      fun hctx => hnext (State.announce_of_past_none hctx hframe), hnext (State.announce_of_past_ignored hframe),
      hnext (State.announce_of_past_ignored hframe)⟩,
    fun hctx hframe => hnext (State.announce_of_future hctx hframe), fun hctx hframe => hnext (State.announce_of_future hctx hframe),
    execArriveAnnounce_of_named,
    fun hopen hseal => hnext (State.writeSetCtrl_of_open (hbit hopen) (hbit hseal)),
    fun n => State.openSet_of_room, fun n => State.openSet_of_full,
    fun hopen hseal => hnext (State.writeSetCtrl_of_seal (hbit hopen) (hbit hseal)),
    fun l x r => State.sealSet_of_no_guest, State.sealSet_of_sealing, ?sealed, execSetSealed_of_slots_due, ?copied,
    State.sendSlots_cells, execIdentityRequest_of_own⟩
  case sealed =>
    intro hset hslots hcopied
    have hsealed := execSetSealed_of_copied hset hslots hcopied
    exact ⟨fun hagain => hsealed.trans (by rw [hagain]; rfl), fun hagain => hsealed.trans (by rw [hagain]; rfl)⟩
  case copied =>
    intro l x r ctx va hsets hx hr hseal hguest u t hstale hctx hva hroute hpages
    exact (State.sealSet_of_guest hsets hx hr hseal hguest).trans (State.guestCopy_of_fresh hstale hctx hva hroute hpages)

end Sys2Proof.Machine
end

section
/-! ## The control of a step: tracking, arm, open, discard and restore (R306–R310, R336, R371–R377) -/
namespace Sys2Proof.Machine

theorem stepStatus_ne_stepCtrl (c : Nat) : Reg.RPL_STEP_CTRL c ≠ Reg.RPL_STEP_STATUS c :=
  Nat.ne_of_lt (Nat.add_lt_add_right (by decide) _)

namespace State
variable {s : State} {c v : Nat}

/-! ### A write of RPL_STEP_CTRL (R336) -/

/-- The tracking of a context as a write of RPL_STEP_CTRL leaves it. -/
def trackingWritten (s : State) (c v : Nat) : State :=
  if s.stepOpen c then s
  else (s.put (Reg.RPL_STEP_CTRL_ENABLE c) (bitsOf v 0 1)).when (s.stepState c == 3 && !bitOn v 0)
    fun t => t.put (Reg.RPL_STEP_STATUS_STATE c) 0

/-- The owner of the phases and the limit of attempts, as a write of RPL_STEP_CTRL leaves them. -/
def limitsWritten (s : State) (c v : Nat) : State :=
  (s.put (Reg.RPL_STEP_CTRL_PHASE_OWNER c) (bitsOf v 1 1)).when (bitsOf v 8 4 != 0)
    fun t => t.put (Reg.RPL_STEP_CTRL_MAX_ATTEMPTS c) (bitsOf v 8 4)

/-- A context whose next open is armed. -/
def openArmed (s : State) (c : Nat) : State :=
  ((s.mark (Reg.RPL_STEP_CTRL_ARM c)).mark (Reg.RPL_STEP_STATUS_ARMED c)).modCtx c
    fun x => { x with armTick := s.now, armLate := s.openFrame c ≤ s.frame }

theorem writeStepCtrl_eq (s : State) (c v : Nat) : s.writeStepCtrl c v =
    (((s.trackingWritten c v).limitsWritten c v).when (bitOn v 2) fun t => t.openArmed c).when (bitOn v 3) fun t => t.disarm c := rfl

theorem trackingWritten_of_open (hopen : s.stepOpen c = true) : s.trackingWritten c v = s := if_pos hopen

theorem get_when {g : Reg.Fld} {b : Bool} {f : State → State} (hf : (f s).get g = s.get g) : (s.when b f).get g = s.get g := by
  cases b with
  | false => rfl
  | true => exact hf

section
variable (h : s.canon = true)
include h

theorem trackingWritten_canon : (s.trackingWritten c v).canon = true := by
  unfold trackingWritten
  exact canon_ite (fun _ => h) fun _ => when_canon (put_canon h ..) _ _ fun _ => put_canon (put_canon h ..) ..

theorem limitsWritten_canon : (s.limitsWritten c v).canon = true :=
  when_canon (put_canon h ..) _ _ fun _ => put_canon (put_canon h ..) ..

theorem openArmed_canon : (s.openArmed c).canon = true := modCtx_canon (mark_canon (mark_canon h _) _) ..

/-- ENABLE takes its bit while no step is open; the end of a stall changes another register. -/
theorem enable_trackingWritten_of_closed (hclosed : s.stepOpen c = false) :
    (s.trackingWritten c v).get (Reg.RPL_STEP_CTRL_ENABLE c) = v % 2 := by
  have hput := put_canon h (Reg.RPL_STEP_CTRL_ENABLE c) (bitsOf v 0 1)
  rw [trackingWritten, hclosed, if_neg Bool.false_ne_true, get_when (get_put_ne hput 0 (stepStatus_ne_stepCtrl c)),
    get_put_same h _ (Nat.le_of_ble_eq_true rfl), bitsOf_zero_lo]
  exact Nat.mod_mod ..

/-- A field of RPL_STEP_CTRL above ENABLE is written without it. -/
theorem enable_put_above {f : Reg.Fld} (hreg : f.reg = Reg.RPL_STEP_CTRL c) (hlo : 1 ≤ f.lo) (hfits : f.lo + f.w ≤ 32) (n : Nat) :
    (s.put f n).get (Reg.RPL_STEP_CTRL_ENABLE c) = s.get (Reg.RPL_STEP_CTRL_ENABLE c) :=
  get_put_below h n hfits hreg.symm hlo

theorem enable_limitsWritten : (s.limitsWritten c v).get (Reg.RPL_STEP_CTRL_ENABLE c) = s.get (Reg.RPL_STEP_CTRL_ENABLE c) := by
  have howner := enable_put_above (f := Reg.RPL_STEP_CTRL_PHASE_OWNER c) h rfl (Nat.le_of_ble_eq_true rfl)
    (Nat.le_of_ble_eq_true rfl) (bitsOf v 1 1)
  have hmax := enable_put_above (f := Reg.RPL_STEP_CTRL_MAX_ATTEMPTS c) (put_canon h (Reg.RPL_STEP_CTRL_PHASE_OWNER c) (bitsOf v 1 1)) rfl
    (Nat.le_of_ble_eq_true rfl) (Nat.le_of_ble_eq_true rfl) (bitsOf v 8 4)
  exact (get_when hmax).trans howner

/-- Writes to ARM and to ARMED of the step leave ENABLE, which lies below ARM. -/
theorem enable_put_arm (m n : Nat) : ((s.put (Reg.RPL_STEP_CTRL_ARM c) m).put (Reg.RPL_STEP_STATUS_ARMED c) n).get
    (Reg.RPL_STEP_CTRL_ENABLE c) = s.get (Reg.RPL_STEP_CTRL_ENABLE c) := by
  rw [get_put_ne (put_canon h ..) n (stepStatus_ne_stepCtrl c),
    enable_put_above h rfl (Nat.le_of_ble_eq_true rfl) (Nat.le_of_ble_eq_true rfl)]

theorem arm_put_arm (m n : Nat) : ((s.put (Reg.RPL_STEP_CTRL_ARM c) m).put (Reg.RPL_STEP_STATUS_ARMED c) n).get
    (Reg.RPL_STEP_CTRL_ARM c) = m % 2 := by
  rw [get_put_ne (put_canon h ..) n (stepStatus_ne_stepCtrl c), get_put_same h m (Nat.le_of_ble_eq_true rfl)]
  rfl

/-- Of a write of RPL_STEP_CTRL, what it does to the tracking alone decides ENABLE. -/
theorem enable_writeStepCtrl : (s.writeStepCtrl c v).get (Reg.RPL_STEP_CTRL_ENABLE c) =
    (s.trackingWritten c v).get (Reg.RPL_STEP_CTRL_ENABLE c) := by
  have htracking : (s.trackingWritten c v).canon = true := trackingWritten_canon h
  have hlimits : ((s.trackingWritten c v).limitsWritten c v).canon = true := limitsWritten_canon htracking
  have harmed : (((s.trackingWritten c v).limitsWritten c v).when (bitOn v 2) fun t => t.openArmed c).canon = true :=
    when_canon hlimits _ _ fun _ => openArmed_canon hlimits
  rw [writeStepCtrl_eq, get_when (enable_put_arm harmed 0 0), get_when (enable_put_arm hlimits 1 1), enable_limitsWritten htracking]

theorem arm_writeStepCtrl_of_cancel (hcancel : bitOn v 3 = true) : (s.writeStepCtrl c v).get (Reg.RPL_STEP_CTRL_ARM c) = 0 := by
  have hlimits : ((s.trackingWritten c v).limitsWritten c v).canon = true := limitsWritten_canon (trackingWritten_canon h)
  rw [writeStepCtrl_eq, hcancel]
  exact arm_put_arm (when_canon hlimits _ _ fun _ => openArmed_canon hlimits) 0 0

theorem arm_writeStepCtrl_of_arm (harm : bitOn v 2 = true) (hcancel : bitOn v 3 = false) :
    (s.writeStepCtrl c v).get (Reg.RPL_STEP_CTRL_ARM c) = 1 := by
  rw [writeStepCtrl_eq, harm, hcancel]
  exact arm_put_arm (limitsWritten_canon (trackingWritten_canon h)) 1 1
end

/-! ### The discard that is due (R371, R372, R380) -/

section
variable {d : DiscardReq}

theorem dueDiscard_of_owed (hdiscard : (s.ctx c).discard = some d) (hdue : s.discardDue d = true) :
    s.dueDiscard c = some (false, d) := by
  simp only [dueDiscard, hdiscard, Option.filter_some, hdue, if_true, Option.map_some, Option.some_or]

theorem dueDiscard_of_announced (hdiscard : (s.ctx c).discard = none) (hfind : (s.ctx c).announced.find? s.discardDue = some d) :
    s.dueDiscard c = some (true, d) := by
  simp only [dueDiscard, hdiscard, hfind, Option.filter_none, Option.map_none, Option.map_some, Option.none_or]

theorem dueDiscard_of_none_due (howed : ∀ d, (s.ctx c).discard = some d → s.discardDue d = false)
    (htold : ∀ d ∈ (s.ctx c).announced, s.discardDue d = false) : s.dueDiscard c = none := by
  have hfind : (s.ctx c).announced.find? s.discardDue = none := List.find?_eq_none.2 fun d hd => by simp [htold d hd]
  have hfilter : (s.ctx c).discard.filter s.discardDue = none := Option.filter_eq_none_iff.2 fun d hd => by simp [howed d hd]
  simp only [dueDiscard, hfind, hfilter, Option.map_none, Option.none_or]

theorem namesOpen_of_any (hwhich : d.which = none) : s.namesOpen c d = true := by
  simp only [namesOpen, hwhich, Option.isNone_none, Bool.true_or]

theorem namesOpen_of_open (hwhich : d.which = some (s.stepNum c, s.get (Reg.RPL_STEP_ATTEMPT_ATTEMPT c))) : s.namesOpen c d = true := by
  simp only [namesOpen, hwhich, beq_self_eq_true, Bool.or_true]

theorem namesOpen_of_other (hsome : d.which.isSome = true)
    (hwhich : d.which ≠ some (s.stepNum c, s.get (Reg.RPL_STEP_ATTEMPT_ATTEMPT c))) : s.namesOpen c d = false := by
  rw [namesOpen, ← Option.not_isSome, hsome, beq_false_of_ne hwhich]
  rfl
end

/-! ### The pages asked of the partner (R377) -/

theorem readPages_cells_of_route {w : Owner} {va : Nat} (hroute : routeValid (s.route (s.get Reg.RPL_MIR_PARTNER_MODULE)) = true) :
    ∃ body, (s.readPages w [va]).fab.cells = s.fab.cells ++
      [{ cell := s.newCell w.ctx 2 2 (s.get Reg.RPL_MIR_PARTNER_MODULE) s.fab.nextXfer 0 (va + s.mirOffset) 0 body,
         queue := s.ownQueue (s.get Reg.RPL_MIR_PARTNER_MODULE), owner := some w }] := by
  refine ⟨_, congrArg (fun t : State => t.fab.cells) (?_ : s.readPages w [va] = s.readPage w va)⟩
  rw [readPages, hroute, Bool.or_true, if_pos rfl]
  rfl

end State

section
variable {ctx : Fin 64} {s : State}

/-! ### Opening (R307, R308) -/

section
variable (hreplay : (s.ctx ctx.val).replayArm = none) (harm : s.on (Reg.RPL_STEP_CTRL_ARM ctx.val) = true)
  (htick : (s.ctx ctx.val).armTick < s.now) (hframe : s.openFrame ctx.val ≤ s.frame) (hpos : s.time.pos ≤ 7)
include hreplay harm htick hframe hpos

theorem execStepOpen_of_due (hlate : (s.ctx ctx.val).armLate = false) (hstate : s.stepState ctx.val = 0)
    (hrestore : s.restoreHolds ctx.val = false) (henable : s.on (Reg.RPL_STEP_CTRL_ENABLE ctx.val) = true) :
    execStepOpen ctx s = .next ((s.turn 7).applyFence.openAttempt ctx.val
      (s.get64 (Reg.RPL_STEP_NEXT_LO_STEP ctx.val) (Reg.RPL_STEP_NEXT_HI_STEP ctx.val)) 0 (s.openFrame ctx.val)) := by
  simp [execStepOpen, hreplay, harm, Nat.not_le.2 htick, Nat.not_lt.2 hframe, Nat.not_lt.2 hpos, hlate, hstate, hrestore, henable]

theorem execStepOpen_of_missed (hstate : s.stepState ctx.val ≠ 0) :
    execStepOpen ctx s = .next ((s.disarm ctx.val).mark Reg.RPL_STEP_EVENT_OPEN_MISSED) := by
  simp [execStepOpen, State.openMissed, hreplay, harm, Nat.not_le.2 htick, Nat.not_lt.2 hframe, Nat.not_lt.2 hpos, hstate]
end

/-! ### Discarding (R371, R372, R380) -/

/-- The discard that is due is taken from where it waited, and then acts on the open attempt if it names it, or on the closed step. -/
theorem execAttemptDiscard_of_due {told : Bool} {d : DiscardReq} (hdue : s.dueDiscard ctx.val = some (told, d)) (hpos : s.time.pos ≤ 7) :
    let t := (s.turn 7).modCtx ctx.val fun x => if told then { x with announced := x.announced.erase d } else { x with discard := none }
    execAttemptDiscard ctx s = if s.stepOpen ctx.val
      then .next (if s.namesOpen ctx.val d then (t.discardAttempt ctx.val d.hold).retrySync else t)
      else .next (if told then t.discardClosed ctx.val d.hold else t) := by
  simp only [execAttemptDiscard, hdue, Nat.not_lt.2 hpos, if_false]

theorem execAttemptDiscard_of_none_due (hdue : s.dueDiscard ctx.val = none) : execAttemptDiscard ctx s = .next s := by
  simp only [execAttemptDiscard, hdue]

theorem execAttemptDiscard_of_past (hpos : 7 < s.time.pos) : execAttemptDiscard ctx s = .next s := by
  cases hdue : s.dueDiscard ctx.val with
  | none => exact execAttemptDiscard_of_none_due hdue
  | some q => simp only [execAttemptDiscard, hdue, hpos, if_true]

/-! ### Restoring (R374, R377) -/

/-- What a restore reads of the protection ranges is not poisoned, or it reads nothing of them. -/
theorem protPoison_of_readable {set : List Nat} (h : set = [] ∨ s.protPoison = none) :
    (if set.isEmpty then none else s.protPoison) = none := by
  rcases h with rfl | h
  · rfl
  · rw [h, ite_self]

theorem execDiscardDrainEnd_of_drained {t0 : Nat} (hdrain : (s.ctx ctx.val).drainTick = some t0) (hover : t0 + 32 ≤ s.now)
    (hstate : s.get (Reg.RPL_REPLAY_STATUS_STATE ctx.val) = 1) (hread : s.restoreSet ctx.val = [] ∨ s.protPoison = none) :
    execDiscardDrainEnd ctx s = .next (((s.put (Reg.RPL_REPLAY_STATUS_STATE ctx.val) 2).each (s.ctx ctx.val).bases
      fun t b => t.restoreBase b).readPages (restoreEngine ctx.val) (s.mirrorSet ctx.val)) := by
  simp only [execDiscardDrainEnd, hdrain, Nat.not_lt.2 hover, hstate, bne_self_eq_false, protPoison_of_readable hread, decide_false,
    Bool.or_self, Bool.false_eq_true, if_false]

theorem execRestoreComplete_of_reading (hxfers : s.xfersOf (restoreEngine ctx.val) ≠ []) : execRestoreComplete ctx s = .next s := by
  refine if_pos ?_
  rw [List.isEmpty_eq_false_iff.2 hxfers, Bool.not_false, Bool.or_true]

theorem execRestoreComplete_of_read {t : State} (hstate : s.get (Reg.RPL_REPLAY_STATUS_STATE ctx.val) = 2)
    (hfail : s.on (Reg.RPL_REPLAY_STATUS_RESTORE_FAIL ctx.val) = false) (hrings : s.ringsDrained ctx.val = true)
    (hload : s.loading ctx.val = false) (hxfers : s.xfersOf (restoreEngine ctx.val) = [])
    (hshadow : s.shadowPoison ctx.val (s.restoreSet ctx.val) = none) (hread : s.restoreSet ctx.val = [] ∨ s.protPoison = none)
    (htouch : s.touchPages (.engine ctx.val)
      (((s.restoreSet ctx.val).filter fun va => s.sourceOf va != some 0).filterMap fun va => s.pageOf ctx.val va) = .go t) :
    execRestoreComplete ctx s = .next ((t.restorePages ctx.val).restoreDone ctx.val) := by
  simp only [execRestoreComplete, hstate, hfail, hrings, hload, hxfers, hshadow, protPoison_of_readable hread, htouch,
    bne_self_eq_false, List.isEmpty_nil, Bool.not_true, Bool.or_self, Option.or_none, Bool.false_eq_true, if_false]
end

/-- Settles O50: a write of RPL_STEP_CTRL by its stages, each command by what is armed, due, drained or read. That a page is asked of
the partner by one READ_REQ is the model's choice (log entry 142), and so is that a discard which the module owes comes before those
announced, and of these the first that came (log entry 61). -/
theorem stepControl : Obligations.StepControl := by
  intro ctx v s c k
  have hnext {t u : State} (h : t = u) : (Host.Outcome.next t : Host.Outcome State Fault Refusal) = .next u := congrArg _ h
  have hbit {i : Nat} {b : Bool} (hv : v.getLsbD i = b) : bitOn v.toNat i = b := (bitOn_toNat v i).trans hv
  refine ⟨⟨hnext rfl, hnext rfl, hnext rfl⟩,
    fun h hclosed => (State.enable_writeStepCtrl h).trans (State.enable_trackingWritten_of_closed h hclosed),
    fun h hopen => (State.enable_writeStepCtrl h).trans (by rw [State.trackingWritten_of_open hopen]),
    fun h hcancel => State.arm_writeStepCtrl_of_cancel h (hbit hcancel),
    fun h harm hcancel => State.arm_writeStepCtrl_of_arm h (hbit harm) (hbit hcancel),
    fun hreplay harm htick hframe hlate hpos => execStepOpen_of_due hreplay harm htick hframe hpos hlate,
    fun hreplay harm htick hframe => execStepOpen_of_missed hreplay harm htick hframe, ?owed, ?announced,
    fun howed htold => execAttemptDiscard_of_none_due (State.dueDiscard_of_none_due howed htold),
    fun hpos => ⟨if_pos hpos, execAttemptDiscard_of_past hpos⟩, fun t0 => execDiscardDrainEnd_of_drained,
    fun va => State.readPages_cells_of_route, fun t => execRestoreComplete_of_read, execRestoreComplete_of_reading⟩
  case owed =>
    intro d hdiscard hdue hopen hwhich hpos
    refine (execAttemptDiscard_of_due (State.dueDiscard_of_owed hdiscard hdue) hpos).trans ?_
    rw [if_pos hopen, if_pos (State.namesOpen_of_any hwhich)]
    rfl
  case announced =>
    intro d hdiscard hfind hpos t
    have hstep := execAttemptDiscard_of_due (State.dueDiscard_of_announced hdiscard hfind) hpos
    refine ⟨fun hopen hwhich => hstep.trans ?named, fun hopen hsome hwhich => hstep.trans ?other,
      fun hclosed hidle => hstep.trans ?closed⟩
    case named =>
      rw [if_pos hopen, if_pos (State.namesOpen_of_open hwhich)]
      rfl
    case other =>
      rw [if_pos hopen, State.namesOpen_of_other hsome hwhich]
      rfl
    case closed =>
      rw [hclosed]
      exact hnext (if_neg (Bool.not_eq_true _ ▸ hidle))

end Sys2Proof.Machine
end

section
/-! ## The reads that latch (R462, R502) -/
namespace Sys2Proof.Machine

/-- The register of the frame counter's phase holds the fine part above the cycle. -/
theorem execFtbFrameLoRead_eq (cycle : Fin 8192) (fine : Fin 64) (s : State) : execFtbFrameLoRead cycle fine s = .next
    (((s.setLatch Reg.FTB_FRAME_HI (BitVec.ofNat 32 (s.frame / 2 ^ 32))).setLatch Reg.FTB_PHASE
      (BitVec.ofNat 32 (cycle.val + 8192 * fine.val))).answer (BitVec.ofNat 32 s.frame)) := by
  rw [execFtbFrameLoRead, Nat.mul_comm fine.val]

/-- Settles O9: each read is its latches and its answer, as the command gives them. -/
theorem latchingReads : Obligations.LatchingReads := fun s =>
  ⟨fun cycle fine => execFtbFrameLoRead_eq cycle fine s, fun _ => rfl, fun _ => rfl, rfl, rfl, rfl⟩

end Sys2Proof.Machine
end

section
/-! ## Duplicates, health, test packs and records (R348–R351, R354–R363, R453) -/
namespace Sys2Proof.Machine
variable {s : State}

/-! ### Duplicates (R348–R350) -/

section
variable {core : Fin 144} {q : Word} {run : DupRun} {d : DupEntry}
  (hd : (s.integ.dups.find? fun d => d.pcore == core.val && d.q == q.toNat) = some d)
include hd

theorem execDupCheckRun_of_reset (hreset : s.coreInReset d.check = true) : execDupCheckRun core q run s = .next s := by
  simp only [execDupCheckRun, hd, hreset, if_true]

variable (hreset : s.coreInReset d.check = false)
include hreset

theorem execDupCheckRun_of_same (hsame : (dupRerun d).flip run = d.last) : execDupCheckRun core q run s = .next
    ((s.modInt fun x => { x with dups := x.dups.filter fun y => y != d }).arrayOn d.check) := by
  simp only [execDupCheckRun, hd, hreset, hsame, Bool.false_eq_true, if_false, if_true]

theorem execDupCheckRun_of_different (hdiffers : (dupRerun d).flip run ≠ d.last) : execDupCheckRun core q run s = .next
    (((s.modInt fun x => { x with dups := x.dups.filter fun y => y != d }).arrayOn d.check).dupMismatch d run ((dupRerun d).flip run)) := by
  simp only [execDupCheckRun, hd, hreset, hdiffers, Bool.false_eq_true, if_false]
end

theorem execDupCheckRun_of_none {core : Fin 144} {q : Word} {run : DupRun}
    (hnone : (s.integ.dups.find? fun d => d.pcore == core.val && d.q == q.toNat) = none) : execDupCheckRun core q run s = .next s := by
  simp only [execDupCheckRun, hnone]

section
variable {ctx : Fin 64} {t : Nat}

theorem execDupLimitExpire_of_due (hheld : (s.ctx ctx.val).noonHeld = some t) (hdue : t + s.get Reg.INT_DUP_CFG_LIMIT ≤ s.now) :
    execDupLimitExpire ctx s = .next (s.skipDups fun d =>
      d.party.ctx == ctx.val && d.step == s.stepNum ctx.val && d.attempt == s.get (Reg.RPL_STEP_ATTEMPT_ATTEMPT ctx.val)) := by
  simp only [execDupLimitExpire, hheld, Nat.not_lt.2 hdue, if_false]

theorem execDupLimitExpire_of_early (hheld : (s.ctx ctx.val).noonHeld = some t) (hearly : s.now < t + s.get Reg.INT_DUP_CFG_LIMIT) :
    execDupLimitExpire ctx s = .next s := by
  simp only [execDupLimitExpire, hheld, hearly, if_true]

theorem execDupLimitExpire_of_none (hheld : (s.ctx ctx.val).noonHeld = none) : execDupLimitExpire ctx s = .next s := by
  simp only [execDupLimitExpire, hheld]
end

/-! ### Digest mismatches (R356) -/

namespace State
variable (s : State) (v : Nat)

/-- The state where INT_DIGEST_FAULT has taken its fields. -/
def digestWritten : State :=
  ((s.put Reg.INT_DIGEST_FAULT_CONTEXT (v % 64)).put Reg.INT_DIGEST_FAULT_RELATION (v / 64 % 4)).put Reg.INT_DIGEST_FAULT_PEER (v / 256 % 8192)

/-- The state where the mismatch has raised its fault. -/
def digestRaised : State :=
  (((s.digestWritten v).bump Reg.INT_DIGEST_MISMATCH_CNT_COUNT).mark Reg.INT_EVENT_DIGEST_MISMATCH).raise
    { code := fDigestMismatch, unitKind := 14, p1 := some (s.ctxParty (v % 64)), detail := [(2, v / 256 % 8192), (1, v / 64 % 4)] }

/-- The record of a mismatch that charged n points, written in a state t that follows. -/
def digestRecorded (t : State) (n : Nat) : State := t.cper
  { event := 3, fault := fDigestMismatch, unitKind := 2, unit := 0, peer := v / 256 % 8192, frame := 0, module := 0
    score := (s.digestWritten v).score 2000 - n, scoreBefore := (s.digestWritten v).score 2000 }

variable {s v}

theorem writeDigestFault_of_idle (hgo : bitOn v 31 = false) (st : Standing) : s.writeDigestFault v st = s.digestWritten v := by
  simp only [writeDigestFault, hgo, bitsOf_zero_lo, Bool.not_false, if_true]
  rfl

section
variable (hgo : bitOn v 31 = true)
include hgo

theorem writeDigestFault_of_majority : s.writeDigestFault v .majority = s.digestRecorded v (s.digestRaised v) 0 := by
  simp only [writeDigestFault, hgo, bitsOf_zero_lo, Bool.not_true, Bool.false_eq_true, if_false]
  exact if_neg (by simp)

theorem writeDigestFault_of_noMajority :
    s.writeDigestFault v .noMajority = s.digestRecorded v ((s.digestRaised v).charge 2 0 100) 100 := by
  simp only [writeDigestFault, hgo, bitsOf_zero_lo, Bool.not_true, Bool.false_eq_true, if_false]
  exact if_neg (by simp)

/-- A copy of another module in the minority makes no mirror of this one stale. -/
theorem writeDigestFault_of_minority (hother : v / 64 % 4 ≠ 2) :
    s.writeDigestFault v .minority = s.digestRecorded v ((s.digestRaised v).charge 2 0 200) 200 := by
  simp only [writeDigestFault, hgo, bitsOf_zero_lo, Bool.not_true, Bool.false_eq_true, if_false]
  exact if_neg (by simp [show bitsOf v 6 2 ≠ 2 from hother])

theorem writeDigestFault_of_mirror (hmirror : v / 64 % 4 = 2) :
    s.writeDigestFault v .minority = (s.digestRecorded v ((s.digestRaised v).charge 2 0 200) 200).mirrorStale := by
  simp only [writeDigestFault, hgo, bitsOf_zero_lo, Bool.not_true, Bool.false_eq_true, if_false]
  exact if_pos (by simp [show bitsOf v 6 2 = 2 from hmirror])
end

end State

/-! ### Health (R357, R358) -/

theorem State.writeScore_of_unit (v : Nat) (hunit : healthUnit s.healthSel = true) : s.writeScore v =
    (s.setScore s.healthSel.1 s.healthSel.2 (min 1000 (v % 1024))).cper
      { event := 5, fault := 0, unitKind := s.healthSel.1, unit := s.healthSel.2, frame := 0, module := 0, score := min 1000 (v % 1024)
        scoreBefore := s.score (scoreKey s.healthSel.1 s.healthSel.2) } := by
  simp only [writeScore, hunit, bitsOf_zero_lo, Bool.not_true, Bool.false_eq_true, if_false]
  rfl

theorem State.writeScore_of_none (v : Nat) (hunit : healthUnit s.healthSel = false) : s.writeScore v = s := by
  simp only [writeScore, hunit, Bool.not_false, if_true]

/-- The kind and the index of a health unit. -/
def healthPlace : HealthUnit → Nat × Nat
  | .core c => (0, c.val)
  | .cluster j => (1, j.val)
  | .module => (2, 0)

/-- A unit below 1,000 has gone a day without a charge. -/
def State.recoveryDue (s : State) (u : HealthUnit) : Prop :=
  let key := scoreKey (healthPlace u).1 (healthPlace u).2
  sget (fun _ => 0) s.integ.charged key + dayTicks ≤ s.now ∧ s.score key < 1000

theorem execHealthRecovery_of_due {u : HealthUnit} (hdue : s.recoveryDue u) : execHealthRecovery u s = .next
    (let key := scoreKey (healthPlace u).1 (healthPlace u).2
     ((s.setScore (healthPlace u).1 (healthPlace u).2 (s.score key + 25)).modInt fun x => { x with charged := sset (fun _ => 0) x.charged key s.now }).cper
      { event := 5, fault := 0, unitKind := (healthPlace u).1, unit := (healthPlace u).2, frame := 0, module := 0, score := min 1000 (s.score key + 25)
        scoreBefore := s.score key }) := by
  obtain ⟨hday, hscore⟩ := hdue
  refine if_neg ?_
  rw [Bool.or_eq_true, decide_eq_true_eq, decide_eq_true_eq, not_or]
  cases u <;> exact ⟨Nat.not_lt.2 hday, Nat.not_le.2 hscore⟩

theorem execHealthRecovery_of_other {u : HealthUnit} (hdue : ¬ s.recoveryDue u) : execHealthRecovery u s = .next s := by
  refine if_pos ?_
  rw [Bool.or_eq_true, decide_eq_true_eq, decide_eq_true_eq]
  cases u <;> exact (not_and_or.1 hdue).imp Nat.not_le.1 Nat.not_lt.1

/-! ### Temperature bands (R351) -/

section
variable {core : Fin 144} {temp : Int}

theorem execTempBandCheck_of_off_beat (hbeat : s.atMultiple 256 = false) : execTempBandCheck core temp s = .next s := by
  simp only [execTempBandCheck, hbeat, Bool.not_false, if_true]

variable (hbeat : s.atMultiple 256 = true)
include hbeat

theorem execTempBandCheck_of_near (hon : s.on Reg.INT_CTRL_BAND_EN = true) (hnear : s.nearBand core.val temp = true) :
    execTempBandCheck core temp s = .next
      (s.modInt fun x => { x with inBand := insertSorted core.val (s.integ.inBand.filter (· != core.val)) }) := by
  simp only [execTempBandCheck, hbeat, hon, hnear, Bool.not_true, Bool.and_self, Bool.false_eq_true, if_false, if_true]

theorem execTempBandCheck_of_out (hout : s.on Reg.INT_CTRL_BAND_EN = false ∨ s.nearBand core.val temp = false) :
    execTempBandCheck core temp s = .next (s.modInt fun x => { x with inBand := s.integ.inBand.filter (· != core.val) }) := by
  have hno : (s.on Reg.INT_CTRL_BAND_EN && s.nearBand core.val temp) = false := Bool.and_eq_false_iff.2 hout
  simp only [execTempBandCheck, hbeat, hno, Bool.not_true, Bool.false_eq_true, if_false]
end

/-! ### The operator's connections (R452, R453) -/

namespace State
variable {p : Nat} {f : State → Option State}

theorem byOperator_of_down (hup : s.idfortUp = false) : s.byOperator p f = s := by
  simp only [byOperator, hup, Bool.not_false, if_true]

theorem byOperator_of_stranger (hup : s.idfortUp = true) (hconn : s.conn p ≠ 2) : s.byOperator p f = s.emit (.redfish false) := by
  simp [byOperator, hup, hconn]

section
variable (hup : s.idfortUp = true) (hconn : s.conn p = 2)
include hup hconn

theorem byOperator_of_done {t : State} (hf : f s = some t) : s.byOperator p f = t.emit (.redfish true) := by
  simp [byOperator, hup, hconn, hf]

theorem byOperator_of_refused (hf : f s = none) : s.byOperator p f = s.emit (.redfish false) := by
  simp [byOperator, hup, hconn, hf]
end

end State

/-! ### Test packs (R361–R363) -/

/-- The conditions under which Idfort accepts a pack. -/
theorem State.packOk_iff (s : State) (pp : PackPush) : s.packOk pp = true ↔
    (∃ k, pp.key = some k ∧ s.packKeyOk k = true) ∧ s.integ.packMin ≤ pp.svn.toNat ∧ 1 ≤ pp.items.length ∧ pp.items.length ≤ 4096
      ∧ (s.integ.packs.filter fun x => x.id != pp.id.toNat).length < 64
      ∧ ((s.integ.packs.filter fun x => x.id != pp.id.toNat).map (·.size)).foldl (· + ·) 0 + pp.size ≤ 16 * 2 ^ 20 := by
  have hkey : pp.key.any s.packKeyOk = true ↔ ∃ k, pp.key = some k ∧ s.packKeyOk k = true := by
    cases pp.key <;> simp
  simp only [packOk, Bool.and_eq_true, decide_eq_true_eq, hkey, and_assoc]

section
variable {port : Fin 2} {pp : PackPush}

/-- The pack that Idfort stores of a pushed one. -/
def State.packStored (s : State) (pp : PackPush) : Pack :=
  { id := pp.id.toNat, operatorMade := pp.operatorMade, admission := pp.admission, items := pp.items, svn := pp.svn.toNat, size := pp.size,
    since := s.now }

variable (hup : s.idfortUp = true) (hconn : s.conn port.val = 2)
include hup hconn

theorem execTestPackPush_of_ok (hok : s.packOk pp = true) : execTestPackPush port pp s = .next ((s.modInt fun x => { x with
      packs := (s.integ.packs.filter fun x => x.id != pp.id.toNat) ++ [s.packStored pp]
      passed := x.passed.filter fun y => y.2.1 != pp.id.toNat }).emit (.redfish true)) :=
  congrArg Host.Outcome.next (State.byOperator_of_done hup hconn (by simp only [hok, Bool.not_true, Bool.false_eq_true, if_false]; rfl))

theorem execTestPackPush_of_rejected (hok : s.packOk pp = false) : execTestPackPush port pp s = .next
    ((s.mark Reg.INT_EVENT_PACK_REJECT).emit (.redfish true)) :=
  congrArg Host.Outcome.next (State.byOperator_of_done hup hconn (by simp only [hok, Bool.not_false, if_true]))

theorem execTestKeyEnrol_of_room (hroom : s.integ.operatorKeys < 4) : execTestKeyEnrol port s = .next
    ((s.modInt fun x => { x with operatorKeys := x.operatorKeys + 1 }).emit (.redfish true)) :=
  congrArg Host.Outcome.next (State.byOperator_of_done hup hconn (if_neg (Nat.not_le.2 hroom)))

theorem execTestKeyEnrol_of_full (hfull : 4 ≤ s.integ.operatorKeys) : execTestKeyEnrol port s = .next (s.emit (.redfish false)) :=
  congrArg Host.Outcome.next (State.byOperator_of_refused hup hconn (if_pos hfull))
end

/-! ### Test items (R362, R363) -/

section
variable {core : Fin 144} {pack : Word} {item : BitVec 16} {temp : Int} {x : Pack} {i : TestItem}

/-- The item runs for the admission of the module. -/
def State.admitting (s : State) (x : Pack) : Prop := s.integ.admitRun.isSome = true ∧ x.admission = true

/-- The core is idle and inside the item's temperature window. -/
def State.itemFits (s : State) (core : Fin 144) (i : TestItem) (temp : Int) : Prop :=
  i.low ≤ temp ∧ temp ≤ i.high ∧ s.coreIdle core.val = true

/-- The state where an item has started on a core, which keeps the given ticks. -/
def State.itemStarted (s : State) (core : Fin 144) (x : Pack) (item : BitVec 16) (own : List Nat) : State :=
  (((((s.each (List.range 32) fun t k => t.plainTile core.val k).zeroSp core.val).modCore core.val fun k => { k with foreign := true }).arrayOn
    core.val).bump Reg.INT_TEST_RUN_CNT_COUNT).modInt fun y => { y with
      testing := y.testing ++ [(core.val, x.id, item.toNat)], testFrames := sset (fun _ => []) y.testFrames core.val own }

theorem execTestItemStart_of_no_item (hnone : ∀ x, s.pack pack.toNat = some x → x.items[item.toNat]? = none) :
    execTestItemStart core pack item temp s = .next s := by
  have hitem : ((s.pack pack.toNat).bind fun q => (q.items[item.toNat]?).map fun i => (q, i)) = none := by
    simpa using hnone
  simp only [execTestItemStart, hitem]

variable (hpack : s.pack pack.toNat = some x) (hitem : x.items[item.toNat]? = some i)
include hpack hitem

/-- A named item starts where the core fits and may run it; the frame counts under SHARE outside an admission. -/
theorem execTestItemStart_eq : execTestItemStart core pack item temp s = .next
    (let admits := s.integ.admitRun.isSome && x.admission
     if !(admits || (s.on Reg.INT_CTRL_TEST_EN && s.shareLeft core.val)) || temp < i.low || i.high < temp || !s.coreIdle core.val then s
     else s.itemStarted core x item
       (if admits || (s.testTicks core.val).contains s.now then s.testTicks core.val else s.testTicks core.val ++ [s.now])) := by
  simp only [execTestItemStart, hpack, hitem, Option.bind_some, Option.map_some]
  split <;> rfl

theorem execTestItemStart_of_unfit (hfits : ¬ s.itemFits core i temp) : execTestItemStart core pack item temp s = .next s := by
  rw [execTestItemStart_eq hpack hitem]
  refine congrArg Host.Outcome.next (if_pos ?_)
  simp only [State.itemFits, not_and_or, not_le, Bool.not_eq_true] at hfits
  rcases hfits with hlow | hhigh | hidle
  · simp [hlow]
  · simp [hhigh]
  · simp [hidle]

theorem execTestItemStart_of_unshared (hadmits : ¬ s.admitting x) (hno : s.on Reg.INT_CTRL_TEST_EN = false
      ∨ (s.now ∉ s.testTicks core.val ∧ s.get Reg.INT_TEST_CFG_SHARE ≤ (s.testTicks core.val).length)) :
    execTestItemStart core pack item temp s = .next s := by
  have hadmit : (s.integ.admitRun.isSome && x.admission) = false := by simpa [State.admitting] using hadmits
  rw [execTestItemStart_eq hpack hitem]
  refine congrArg Host.Outcome.next (if_pos ?_)
  rcases hno with hoff | ⟨hnow, hshare⟩
  · simp [hadmit, hoff]
  · simp [hadmit, State.shareLeft, hnow, Nat.not_lt.2 hshare]

variable (hfits : s.itemFits core i temp)
include hfits

/-- An item that fits and is allowed starts. -/
theorem execTestItemStart_of_allowed
    (hallowed : ((s.integ.admitRun.isSome && x.admission) || (s.on Reg.INT_CTRL_TEST_EN && s.shareLeft core.val)) = true) :
    execTestItemStart core pack item temp s = .next (s.itemStarted core x item
      (if (s.integ.admitRun.isSome && x.admission) || (s.testTicks core.val).contains s.now then s.testTicks core.val
       else s.testTicks core.val ++ [s.now])) := by
  obtain ⟨hlow, hhigh, hidle⟩ := hfits
  rw [execTestItemStart_eq hpack hitem]
  refine congrArg Host.Outcome.next (if_neg ?_)
  simp [hallowed, hidle, Int.not_lt.2 hlow, Int.not_lt.2 hhigh]

theorem execTestItemStart_of_admission (hadmits : s.admitting x) :
    execTestItemStart core pack item temp s = .next (s.itemStarted core x item (s.testTicks core.val)) := by
  obtain ⟨hrun, hadmission⟩ := hadmits
  refine (execTestItemStart_of_allowed hpack hitem hfits ?_).trans ?_ <;> simp [hrun, hadmission]

section
variable (hon : s.on Reg.INT_CTRL_TEST_EN = true)
include hon

theorem execTestItemStart_of_counted (hnow : s.now ∈ s.testTicks core.val) :
    execTestItemStart core pack item temp s = .next (s.itemStarted core x item (s.testTicks core.val)) := by
  refine (execTestItemStart_of_allowed hpack hitem hfits ?_).trans ?_ <;> simp [hon, State.shareLeft, hnow]

theorem execTestItemStart_of_share (hadmits : ¬ s.admitting x) (hnow : s.now ∉ s.testTicks core.val)
    (hshare : (s.testTicks core.val).length < s.get Reg.INT_TEST_CFG_SHARE) :
    execTestItemStart core pack item temp s = .next (s.itemStarted core x item (s.testTicks core.val ++ [s.now])) := by
  have hadmit : (s.integ.admitRun.isSome && x.admission) = false := by simpa [State.admitting] using hadmits
  refine (execTestItemStart_of_allowed hpack hitem hfits ?_).trans ?_ <;> simp [hadmit, hon, State.shareLeft, hnow, hshare]
end
end

section
variable {core : Fin 144} {hash : BitVec 128} {temp : Int} {sp : List (BitVec 22 × Byte)} {r : Nat × Nat × Nat}

theorem execTestItemEnd_of_none (hnone : (s.integ.testing.find? fun x => x.1 == core.val) = none) :
    execTestItemEnd core hash temp sp s = .next s := by
  simp only [execTestItemEnd, hnone]

/-- The state where the run on a core has ended and left its scratchpad. -/
def State.itemEnded (s : State) (core : Fin 144) (sp : List (BitVec 22 × Byte)) (r : Nat × Nat × Nat) : State :=
  (s.modInt fun x => { x with testing := x.testing.filter (· != r) }).store (sp.map fun e => (spAddr core.val e.1.toNat, e.2))

variable (hrun : (s.integ.testing.find? fun x => x.1 == core.val) = some r)
include hrun

theorem execTestItemEnd_of_replaced (hnone : ∀ x, s.pack r.2.1 = some x → x.items[r.2.2]? = none) :
    execTestItemEnd core hash temp sp s = .next (s.itemEnded core sp r) := by
  have hitem : ((s.pack r.2.1).bind fun q => (q.items[r.2.2]?).map fun i => (q, i)) = none := by
    simpa using hnone
  simp only [execTestItemEnd, hrun, hitem]
  rfl

variable {x : Pack} {i : TestItem} (hpack : s.pack r.2.1 = some x) (hitem : x.items[r.2.2]? = some i)
include hpack hitem

theorem execTestItemEnd_of_passed (hhash : hash = i.hash) : execTestItemEnd core hash temp sp s = .next
    (if x.admission then (s.itemEnded core sp r).itemPassed r else s.itemEnded core sp r) := by
  simp only [execTestItemEnd, hrun, hpack, hitem, hhash, Option.bind_some, Option.map_some, beq_self_eq_true, if_true]
  rfl

theorem execTestItemEnd_of_failed (hhash : hash ≠ i.hash) : execTestItemEnd core hash temp sp s = .next
    (((s.itemEnded core sp r).testFails core.val r.2.1 r.2.2 temp).when (x.admission && (s.itemEnded core sp r).integ.admitRun.isSome)
      State.admitFails) := by
  simp only [execTestItemEnd, hrun, hpack, hitem, beq_false_of_ne hhash, Option.bind_some, Option.map_some, Bool.false_eq_true, if_false]
  rfl

theorem execTestItemEnd_of_failed_alone (hhash : hash ≠ i.hash)
    (halone : x.admission = false ∨ (s.itemEnded core sp r).integ.admitRun = none) :
    execTestItemEnd core hash temp sp s = .next ((s.itemEnded core sp r).testFails core.val r.2.1 r.2.2 temp) := by
  refine (execTestItemEnd_of_failed hrun hpack hitem hhash).trans (congrArg Host.Outcome.next (if_neg ?_))
  rcases halone with h | h <;> simp [h]

theorem execTestItemEnd_of_failed_admission (hhash : hash ≠ i.hash) (hadmission : x.admission = true)
    (hadmit : (s.itemEnded core sp r).integ.admitRun ≠ none) :
    execTestItemEnd core hash temp sp s = .next ((s.itemEnded core sp r).testFails core.val r.2.1 r.2.2 temp).admitFails := by
  refine (execTestItemEnd_of_failed hrun hpack hitem hhash).trans (congrArg Host.Outcome.next (if_pos ?_))
  simp [hadmission, Option.isSome_iff_ne_none, hadmit]
end

section
variable {k : List (Nat × Nat × Nat)} {d : Nat} (hadmit : s.integ.admitRun = some (k, d))
include hadmit

theorem execAdmissionLimitExpire_of_due (hdue : d ≤ s.now) :
    execAdmissionLimitExpire s = .next ((s.mark Reg.INT_EVENT_TEST_FAIL).admitFails) := by
  simp only [execAdmissionLimitExpire, hadmit, Nat.not_lt.2 hdue, if_false]

theorem execAdmissionLimitExpire_of_early (hearly : s.now < d) : execAdmissionLimitExpire s = .next s := by
  simp only [execAdmissionLimitExpire, hadmit, hearly, if_true]
end

theorem execAdmissionLimitExpire_of_none (hadmit : s.integ.admitRun = none) : execAdmissionLimitExpire s = .next s := by
  simp only [execAdmissionLimitExpire, hadmit]

/-- Settles O53: each command by the entry, unit, pack or item that it names. That an INDEX beyond the units selects none and that SHARE
counts the last 1,024 frames are the model's choices (log entry 140), and so are the item of a replaced pack, which ends without a
verdict (log entry 156), and the hash and the scratchpad that an item's end brings (log entry 74). -/
theorem integrityCommands : Obligations.IntegrityCommands := by
  intro core ctx v q pack item temp n port pp st run p u hash sp s
  have hwrite {f : State → State} {t : State} (hp : p.fw = true) (ha : s.acts p) (h : f s = t) :
      (Host.Outcome.next (s.fwOnly p f) : Host.Outcome State Fault Refusal) = .next t :=
    congrArg _ ((State.fwOnly_of_acts hp ha f).trans h)
  have hdenied {f : State → State} (hp : p.fw = false) :
      (Host.Outcome.next (s.fwOnly p f) : Host.Outcome State Fault Refusal) = .next (s.mark Reg.SUB_EVENT_HOST_DENIED) :=
    congrArg _ (State.fwOnly_denied hp s f)
  have hgo {b : Bool} (h : v.getLsbD 31 = b) : bitOn v.toNat 31 = b := (bitOn_toNat v 31).trans h
  have hoperator {f : State → Option State} (hup : s.idfortUp = true) (hconn : s.conn port.val ≠ 2) :
      (Host.Outcome.next (s.byOperator port.val f) : Host.Outcome State Fault Refusal) = .next (s.emit (.redfish false)) :=
    congrArg _ (State.byOperator_of_stranger hup hconn)
  have hdown {f : State → Option State} (hup : s.idfortUp = false) :
      (Host.Outcome.next (s.byOperator port.val f) : Host.Outcome State Fault Refusal) = .next s :=
    congrArg _ (State.byOperator_of_down hup)
  refine ⟨fun d hd => ⟨execDupCheckRun_of_reset hd, execDupCheckRun_of_same hd, execDupCheckRun_of_different hd⟩, execDupCheckRun_of_none,
    fun t hheld => ⟨execDupLimitExpire_of_due hheld, execDupLimitExpire_of_early hheld⟩, execDupLimitExpire_of_none, ?digest,
    fun hp ha => ⟨fun hunit => hwrite hp ha (State.writeScore_of_unit _ hunit), fun hunit => hwrite hp ha (State.writeScore_of_none _ hunit)⟩,
    fun hp => ⟨hdenied hp, hdenied hp⟩, ⟨execTempBandCheck_of_near, execTempBandCheck_of_out, execTempBandCheck_of_off_beat⟩, rfl,
    ⟨execHealthRecovery_of_due (s := s) (u := u), execHealthRecovery_of_other (s := s) (u := u)⟩,
    ⟨s.packOk_iff pp, execTestPackPush_of_ok, execTestPackPush_of_rejected, hoperator, hdown⟩, ?start, execTestItemStart_of_no_item, ?ended,
    execTestItemEnd_of_none, fun k d hadmit => ⟨execAdmissionLimitExpire_of_due hadmit, execAdmissionLimitExpire_of_early hadmit⟩,
    execAdmissionLimitExpire_of_none, rfl, fun hup hconn => ⟨execTestKeyEnrol_of_room hup hconn, execTestKeyEnrol_of_full hup hconn⟩,
    hoperator, hdown⟩
  case digest =>
    intro s1 s3 record hp ha
    refine ⟨fun h => hwrite hp ha (State.writeDigestFault_of_idle (hgo h) st), ?_, ?_, ?_, ?_⟩ <;> rintro h rfl
    · exact hwrite hp ha (State.writeDigestFault_of_majority (hgo h))
    · exact hwrite hp ha (State.writeDigestFault_of_noMajority (hgo h))
    · exact fun hother => hwrite hp ha (State.writeDigestFault_of_minority (hgo h) hother)
    · exact fun hmirror => hwrite hp ha (State.writeDigestFault_of_mirror (hgo h) hmirror)
  case start =>
    intro x i hpack hitem admits fits t ticks
    exact ⟨execTestItemStart_of_admission hpack hitem, fun hfits _ => execTestItemStart_of_counted hpack hitem hfits,
      fun hfits hadmits hon => execTestItemStart_of_share hpack hitem hfits hon hadmits,
      fun _ => execTestItemStart_of_unshared hpack hitem, execTestItemStart_of_unfit hpack hitem⟩
  case ended =>
    intro r hrun t
    refine ⟨fun x i hpack hitem => ⟨fun hhash hadmission => ?_, fun hhash hadmission => ?_, execTestItemEnd_of_failed_alone hrun hpack hitem,
      execTestItemEnd_of_failed_admission hrun hpack hitem⟩, execTestItemEnd_of_replaced hrun⟩
    · exact (execTestItemEnd_of_passed hrun hpack hitem hhash).trans (by rw [if_pos hadmission]; rfl)
    · exact (execTestItemEnd_of_passed hrun hpack hitem hhash).trans (by rw [hadmission, if_neg Bool.false_ne_true]; rfl)

end Sys2Proof.Machine
end

section
/-! ## Hangs, dumps and resets (R419–R421, R424, R427, R430–R438) -/
namespace Sys2Proof.Machine
variable {s : State}

/-! ### Heartbeats (R419) -/

/-- The counter passes a multiple of n at this tick. -/
theorem State.atMultiple_iff (s : State) {n : Nat} (hn : 0 < n) :
    s.atMultiple n = true ↔ ∃ k, s.time.base < n * k ∧ n * k ≤ s.time.top := by
  rw [atMultiple, decide_eq_true_eq]
  constructor
  · exact fun h => ⟨s.time.top / n, Nat.mul_comm n _ ▸ (Nat.div_lt_iff_lt_mul hn).1 h, Nat.mul_div_le ..⟩
  · rintro ⟨k, hbase, htop⟩
    exact Nat.lt_of_lt_of_le ((Nat.div_lt_iff_lt_mul hn).2 (Nat.mul_comm n k ▸ hbase)) ((Nat.le_div_iff_mul_le hn).2 (Nat.mul_comm n k ▸ htop))

section
variable {held : List (Fin 144)}

theorem execHeartbeatCheck_of_other (hother : s.atMultiple 256 = false ∨ s.hrc.hbLast = s.now) : execHeartbeatCheck held s = .next s := by
  refine if_pos ?_
  rcases hother with h | h <;> simp [h]

section
variable (hbeat : s.atMultiple 256 = true) (hfirst : s.hrc.hbLast ≠ s.now) (hpos : s.time.pos ≤ 4)
include hbeat hfirst hpos

/-- Once at a beat, every core is examined, or begins its next interval unexamined. -/
theorem execHeartbeatCheck_of_due : execHeartbeatCheck held s = .next (((s.turn 4).each (s.cores.map (·.1)) fun t c =>
      if s.on Reg.HRC_CTRL_HB_EN then t.heartbeat held c
      else t.modCore c fun x => { x with retired := false, waitHb := x.declaredWait }).modHrc
    fun h => { h with hbLast := s.now, hbFrame := s.frame, hbGated := [] }) :=
  if_neg (by simp [hbeat, hfirst, Nat.not_lt.2 hpos])

theorem execHeartbeatCheck_of_enabled (hon : s.on Reg.HRC_CTRL_HB_EN = true) : execHeartbeatCheck held s = .next
    (((s.turn 4).each (s.cores.map (·.1)) fun t c => t.heartbeat held c).modHrc
      fun h => { h with hbLast := s.now, hbFrame := s.frame, hbGated := [] }) := by
  simpa only [hon, if_true] using execHeartbeatCheck_of_due (held := held) hbeat hfirst hpos

theorem execHeartbeatCheck_of_disabled (hoff : s.on Reg.HRC_CTRL_HB_EN = false) : execHeartbeatCheck held s = .next
    (((s.turn 4).each (s.cores.map (·.1)) fun t c => t.modCore c fun x => { x with retired := false, waitHb := x.declaredWait }).modHrc
      fun h => { h with hbLast := s.now, hbFrame := s.frame, hbGated := [] }) := by
  simpa only [hoff, Bool.false_eq_true, if_false] using execHeartbeatCheck_of_due (held := held) hbeat hfirst hpos
end
end

/-! ### Units that do not stop, links that stall, firmware that does not kick (R420, R421, R424) -/

theorem execStopTimeout_of_due {u : UnitRef} {x : StopReq} (hx : (s.hrc.stops.find? fun x => x.unit == u && x.tick + 16 ≤ s.now) = some x) :
    execStopTimeout u s = .next (s.hang u.kind.val u.unit.toNat 2 (some x.party)) := by
  simp only [execStopTimeout, hx]

theorem execInternalLinkStall_of_enabled {link : Fin 5} (hon : s.on Reg.HRC_CTRL_LINK_STALL_EN = true)
    (hwell : s.on Reg.HRC_STATUS_RECOVERING = false) : execInternalLinkStall link s = .next
      (((s.mark Reg.HRC_EVENT_LINK_STALL).logRec { code := fLinkDown, unitKind := 13, unit := link.val, detail := [(1, 0), (1, 6), (2, 0)] }).decideRecovery
        (some s.hrc.logseq)) := by
  simp only [execInternalLinkStall, hon, hwell, Bool.not_true, Bool.or_self, Bool.false_eq_true, if_false]

theorem execInternalLinkStall_of_other {link : Fin 5}
    (hother : s.on Reg.HRC_CTRL_LINK_STALL_EN = false ∨ s.on Reg.HRC_STATUS_RECOVERING = true) : execInternalLinkStall link s = .next s := by
  refine if_pos ?_
  rcases hother with h | h <;> simp [h]

section
variable {cp : Fin 8}

theorem execFwWatchdogExpire_of_due (hstarted : s.on Reg.SEC_STATUS_FW_STARTED = true)
    (hdue : s.get Reg.HRC_FW_WDOG_FRAMES ≤ sget (fun _ => 0) s.hrc.fwTicks cp.val) : execFwWatchdogExpire cp s = .next
      ((s.mark Reg.HRC_EVENT_FW_WDOG).hang 15 cp.val 4 none) :=
  if_neg (by simp [hstarted, Nat.not_lt.2 hdue])

theorem execFwWatchdogExpire_of_early (hearly : sget (fun _ => 0) s.hrc.fwTicks cp.val < s.get Reg.HRC_FW_WDOG_FRAMES) :
    execFwWatchdogExpire cp s = .next s :=
  if_pos (by simp [hearly])
end

/-! ### Dumps (R430–R432) -/

section
variable {d : Dump} (hrunning : s.hrc.running = some d)
include hrunning

theorem execDumpBlockTimeout_of_running {block : BitVec 16} {sec : Byte} {why : DumpMiss} : execDumpBlockTimeout block sec why s = .next
    ((s.bump Reg.HRC_UNREADABLE_CNT_COUNT).modHrc fun h => { h with
      running := some { d with unreadable := d.unreadable ++ [(block.toNat, sec.toNat, missReason why)] } }) := by
  simp only [execDumpBlockTimeout, hrunning]

/-- The state where a dump has ended: its slot holds it, and its record carries FLAGS.DUMP. -/
def State.dumpEnded (s : State) (d : Dump) : State :=
  ((((s.put (slotFld d.slot) (if d.scope = 2 then 3 else 2)).mark Reg.HRC_EVENT_DUMP_DONE).put Reg.HRC_DUMP_STATUS_BUSY 0).put
    Reg.HRC_STATUS_DUMP_BUSY 0).modHrc fun h => { h with
      running := none, dumps := h.dumps ++ [{ d with endFrame := some s.frame }]
      tail := h.tail.map fun (r : FaultRec) => if d.logseq == some r.logseq then { r with dump := true } else r }

theorem execDumpEnd_of_alone (hwaiting : s.hrc.waiting = none) (hreset : d.thenReset.1 = 0) : execDumpEnd s = .next (s.dumpEnded d) := by
  have hended : (s.dumpEnded d).hrc.waiting = none := hwaiting
  unfold State.dumpEnded at hended ⊢
  simp only [execDumpEnd, hrunning, hreset, decide_true, Bool.true_or, if_true, hended]
end

/-! ### Resets (R435–R438) -/

namespace State
variable {v : Nat} (s) (v) in
/-- The state where HRC_RESET_CTRL has taken its fields. -/
def resetWritten : State := (s.put Reg.HRC_RESET_CTRL_KIND (v % 4)).put Reg.HRC_RESET_CTRL_INDEX (v / 4 % 256)

variable {v : Nat}

/-- What a write of HRC_RESET_CTRL with GO does, by its KIND. -/
theorem writeResetCtrl_of_go (hgo : bitOn v 31 = true) : s.writeResetCtrl v =
    if v % 4 = 2 then (s.resetWritten v).decideRecovery none
    else if v % 4 = 3 || v / 4 % 256 ≥ (if v % 4 = 0 then 144 else 36) || s.unitInReset (v % 4 + 1, v / 4 % 256) then s.resetWritten v
    else ((s.resetWritten v).mark Reg.HRC_RESET_CTRL_GO).dumpThenReset (v % 4 + 1, v / 4 % 256) none := by
  simp only [writeResetCtrl, hgo, bitsOf_zero_lo, Bool.not_true, Bool.false_eq_true, if_false]
  rfl

theorem writeResetCtrl_of_core (hgo : bitOn v 31 = true) (hkind : v % 4 = 0) (hindex : v / 4 % 256 < 144)
    (hfree : s.unitInReset (1, v / 4 % 256) = false) :
    s.writeResetCtrl v = ((s.resetWritten v).mark Reg.HRC_RESET_CTRL_GO).dumpThenReset (1, v / 4 % 256) none := by
  rw [writeResetCtrl_of_go hgo, hkind, if_neg (by decide), if_neg (by simp [hfree, hindex])]

theorem writeResetCtrl_of_cluster (hgo : bitOn v 31 = true) (hkind : v % 4 = 1) (hindex : v / 4 % 256 < 36)
    (hfree : s.unitInReset (2, v / 4 % 256) = false) :
    s.writeResetCtrl v = ((s.resetWritten v).mark Reg.HRC_RESET_CTRL_GO).dumpThenReset (2, v / 4 % 256) none := by
  rw [writeResetCtrl_of_go hgo, hkind, if_neg (by decide), if_neg (by simp [hfree, hindex])]

theorem writeResetCtrl_of_module (hgo : bitOn v 31 = true) (hkind : v % 4 = 2) :
    s.writeResetCtrl v = (s.resetWritten v).decideRecovery none := by
  rw [writeResetCtrl_of_go hgo, if_pos hkind]

end State

section
variable {core : Fin 144} {rtc : Nat}

/-- The state where a core's reset has ended and is counted. -/
def State.coreReleased (s : State) (core : Fin 144) (rtc : Nat) : State :=
  ((((s.put (rstCore core.val) 0).bump Reg.HRC_CORE_RST_CNT_COUNT).mark Reg.HRC_EVENT_CORE_RESET).releaseDrain core.val).noteReset core.val rtc

theorem execCoreResetDone_of_counted (hreset : s.on (rstCore core.val) = true) (hfirm : core.val ∉ s.hrc.afterHang)
    (hcount : (s.coreReleased core rtc).get Reg.HRC_ESC_CORE_COUNT = 0) : execCoreResetDone core true rtc s = .next (s.coreReleased core rtc) := by
  have hhang : (((s.put (rstCore core.val) 0).bump Reg.HRC_CORE_RST_CNT_COUNT).mark Reg.HRC_EVENT_CORE_RESET).hrc.afterHang.contains core.val
      = false := by simpa using hfirm
  unfold State.coreReleased at hcount ⊢
  simp only [execCoreResetDone, State.when, hreset, hhang, hcount, bne_self_eq_false, Bool.false_and, Bool.not_true, Bool.true_or,
    Bool.false_eq_true, if_false, if_true]

theorem execCoreResetDone_of_idle {ok : Bool} (hidle : s.on (rstCore core.val) = false) : execCoreResetDone core ok rtc s = .next s :=
  if_pos (by rw [hidle]; rfl)
end

section
variable {cl : Fin 36} {rtc : Nat}

/-- The state where a cluster's reset has ended, is counted and has charged the cluster. -/
def State.clusterReleased (s : State) (cl : Fin 36) (rtc : Nat) : State :=
  (((dumpCores 1 cl.val).foldl (fun (t : State) c => t.releaseDrain c)
    ((((s.put (rstCl cl.val) 0).bump Reg.HRC_CLUSTER_RST_CNT_COUNT).mark Reg.HRC_EVENT_CLUSTER_RESET).releaseDrain (1000 + cl.val))).noteReset
      (1000 + cl.val) rtc).chargeNoted 1 cl.val 150 fCoreHang

theorem execClusterResetDone_of_counted (hreset : s.on (rstCl cl.val) = true)
    (hcount : (s.clusterReleased cl rtc).get Reg.HRC_ESC_CLUSTER_COUNT = 0) (ok : Bool) : execClusterResetDone cl ok rtc s = .next
      (if ok then s.clusterReleased cl rtc else (s.clusterReleased cl rtc).decideRecovery none) := by
  unfold State.clusterReleased at hcount ⊢
  simp only [execClusterResetDone, State.when, hreset, hcount, bne_self_eq_false, Bool.false_and, Bool.not_true, Bool.false_eq_true, if_false]
end

/-- Settles O54: each command by what is due, running or in reset. -/
theorem hangsDumpsResets : Obligations.HangsDumpsResets := by
  intro core cl cp link u waited p v block sec why rtc s
  have hby {f : State → State} (ha : s.acts p) : (Host.Outcome.next (s.byCp p f) : Host.Outcome State Fault Refusal) = .next (f s) :=
    congrArg _ (State.byCp_of_acts ha f)
  have hbit (h : v.getLsbD 31 = true) : bitOn v.toNat 31 = true := (bitOn_toNat v 31).trans h
  have hnext {t u : State} (h : t = u) : (Host.Outcome.next t : Host.Outcome State Fault Refusal) = .next u := congrArg _ h
  refine ⟨execHeartbeatCheck_of_enabled, execHeartbeatCheck_of_disabled, execHeartbeatCheck_of_other, s.atMultiple_iff (by decide),
    fun x => execStopTimeout_of_due, execInternalLinkStall_of_enabled, execFwWatchdogExpire_of_due, execFwWatchdogExpire_of_early,
    execInternalLinkStall_of_other, fun ha => ⟨hby ha, hby ha⟩, fun d hrunning => execDumpBlockTimeout_of_running hrunning, fun d => execDumpEnd_of_alone,
    ⟨fun hgo hkind hindex hfree => hnext (State.writeResetCtrl_of_core (hbit hgo) hkind hindex hfree),
      fun hgo hkind hindex hfree => hnext (State.writeResetCtrl_of_cluster (hbit hgo) hkind hindex hfree),
      fun hgo hkind => hnext (State.writeResetCtrl_of_module (hbit hgo) hkind)⟩,
    execCoreResetDone_of_counted, execCoreResetDone_of_idle,
    fun hreset hcount => ⟨execClusterResetDone_of_counted hreset hcount true, execClusterResetDone_of_counted hreset hcount false⟩, hby⟩

end Sys2Proof.Machine
end

section
/-! ## Dusk, module recovery and weight intake (R437, R440–R443, R458, R459, R461) -/
namespace Sys2Proof.Machine
variable {s : State}

/-! ### Dusk and the drain (R441, R443) -/

section
variable {ctx : Fin 64}

section
variable {d : DiscardReq} (hreq : (s.ctx ctx.val).duskReq = some d)
include hreq

theorem execDusk_of_active (hdue : s.discardDue d = true) (hpos : s.time.pos ≤ 4) (hactive : s.active ctx.val = true) :
    execDusk ctx s = .next ((s.turn 4).dusk ctx.val) := by
  simp [execDusk, hreq, hdue, Nat.not_lt.2 hpos, hactive]

theorem execDusk_of_inactive (hdue : s.discardDue d = true) (hpos : s.time.pos ≤ 4) (hactive : s.active ctx.val = false) :
    execDusk ctx s = .next (s.modCtx ctx.val fun x => { x with duskReq := none }) := by
  simp [execDusk, hreq, hdue, Nat.not_lt.2 hpos, hactive]

theorem execDusk_of_waiting (hwait : s.discardDue d = false ∨ 4 < s.time.pos) : execDusk ctx s = .next s := by
  simp only [execDusk, hreq]
  refine if_pos ?_
  rcases hwait with h | h <;> simp [h]
end

section
variable {t0 : Nat} (htick : (s.ctx ctx.val).duskTick = some t0)
include htick

theorem execDuskDrainDone_of_drained (hdue : t0 + 32 ≤ s.now) (hfree : (s.ctx ctx.val).drainHold = []) : execDuskDrainDone ctx s = .next
    ((s.freeContext ctx.val).mark Reg.HRC_EVENT_DRAIN_DONE).openWaiting := by
  simp [execDuskDrainDone, htick, Nat.not_lt.2 hdue, hfree]

theorem execDuskDrainDone_of_early (hearly : s.now < t0 + 32) : execDuskDrainDone ctx s = .next s := by
  simp [execDuskDrainDone, htick, hearly]
end
end

/-! ### The end of everything outside the always-on domain (R437)

What neither a register nor a message shows is left alone by every step of the reset but the first, which wipes. -/

namespace State
variable {β : Type} {f : State → β}

theorem each_keeps {α : Type} {g : State → α → State} (l : List α) (hg : ∀ t x, f (g t x) = f t) : f (s.each l g) = f s := by
  unfold each
  induction l generalizing s with
  | nil => rfl
  | cons x l ih => exact ih.trans (hg s x)

section
variable (hreg : ∀ t a v, f (State.setReg t a v) = f t)
include hreg

theorem refreshPower_keeps (hemit : ∀ t o, f (State.emit t o) = f t) : f s.refreshPower = f s := by
  unfold refreshPower when
  have hput (t : State) (g : Reg.Fld) (v : Nat) : f (t.put g v) = f t := hreg ..
  dsimp only
  split
  · exact hput ..
  · split
    · rw [hemit, hput, hput]
    · rw [hput, hput]

theorem resetDomain_keeps (hemit : ∀ t o, f (State.emit t o) = f t) : f s.resetDomain = f s.wipe := by
  have hput (t : State) (g : Reg.Fld) (v : Nat) : f (t.put g v) = f t := hreg ..
  have hfitted : f (s.wipe.each (List.range 22) fun t n => t.put (Reg.OPT_LC_STATUS_PRESENT n) (s.get (Reg.OPT_LC_STATUS_PRESENT n))) = f s.wipe :=
    each_keeps _ fun _ _ => hput ..
  rw [resetDomain, refreshPower_keeps hreg hemit, hreg, mark, hput, hput, hreg, hreg]
  refine (each_keeps (List.range 5) fun t k => hreg t (Reg.HRC_RST_CORE k) 0).trans ?_
  rw [hput, hput]
  exact hfitted
end

/-- The state of a module whose recovery has told every neighbour and the management network. -/
def recoveryTold (s : State) : State :=
  ((s.decideRecovery none).endContexts.each (List.range 16) fun t p => t.svcOut p (.short .recovering [t.moduleId])).emit
    (.notice .recovering [s.moduleId])

/-- The state in which a recovery leaves the module. -/
def recoveryBegun (s : State) : State :=
  ((s.recoveryTold.closeAll.stopFirmware.resetDomain).put Reg.GLB_RESET_CAUSE_CAUSE 3).modHrc fun h => { h with inRecovery := true }

theorem recoveryBegun_keeps (hreg : ∀ t a v, f (State.setReg t a v) = f t) (hemit : ∀ t o, f (State.emit t o) = f t)
    (hhrc : ∀ t h, f (State.modHrc t h) = f t) : f s.recoveryBegun = f s.recoveryTold.closeAll.stopFirmware.wipe := by
  rw [recoveryBegun, hhrc, put, hreg, resetDomain_keeps hreg hemit]

theorem recoveryBegun_mem : s.recoveryBegun.mem = [] := recoveryBegun_keeps (f := State.mem) (fun _ _ _ => rfl) (fun _ _ => rfl) fun _ _ => rfl
theorem recoveryBegun_cores : s.recoveryBegun.cores = [] :=
  recoveryBegun_keeps (f := State.cores) (fun _ _ _ => rfl) (fun _ _ => rfl) fun _ _ => rfl
theorem recoveryBegun_poison : s.recoveryBegun.poison = [] :=
  recoveryBegun_keeps (f := State.poison) (fun _ _ _ => rfl) (fun _ _ => rfl) fun _ _ => rfl
theorem recoveryBegun_snp : s.recoveryBegun.snp = {} := recoveryBegun_keeps (f := State.snp) (fun _ _ _ => rfl) (fun _ _ => rfl) fun _ _ => rfl

/-- The state where Idfort has counted and charged the end of a recovery. -/
def recoveryCounted (s : State) (rtc : Nat) : State :=
  (((s.put Reg.HRC_STATUS_RECOVERING 0).modHrc fun h => { h with inRecovery := false }).noteReset 2000 rtc).chargeNoted 2 0 200 0

/-- The state where memory and light are ready again. -/
def recoveryLit (s : State) (rtc : Nat) : State :=
  ((((s.recoveryCounted rtc).trainNear).trainBoard).relight).mark Reg.GLB_STATUS_RELAY_READY

end State

theorem execModuleRecovery_of_in_service (hidle : s.hrc.inRecovery = false) (hservice : s.on Reg.HRC_STATUS_OUT_OF_SERVICE = false) :
    execModuleRecovery s = .next s.recoveryBegun := by
  simp only [execModuleRecovery, hidle, hservice, Bool.or_self, Bool.false_eq_true, if_false]
  rfl

section
variable {rtc : Nat} (hrecovery : s.hrc.inRecovery = true)
include hrecovery

theorem execModuleRecoveryDone_of_untrained :
    execModuleRecoveryDone .trainingFailed rtc s = .next (s.recoveryCounted rtc).outOfService := by
  simp only [execModuleRecoveryDone, hrecovery, Bool.not_true, Bool.false_eq_true, if_false]
  exact if_pos rfl

variable (hcount : (s.recoveryCounted rtc).get Reg.HRC_ESC_MODULE_COUNT = 0)
include hcount

theorem execModuleRecoveryDone_of_good {h : Nat} (hgood : (s.recoveryLit rtc).goodHalf = some h) :
    execModuleRecoveryDone .done rtc s = .next ((s.recoveryLit rtc).runFirmware h) := by
  have hdone : (RecoveryEnd.done == .trainingFailed) = false := rfl
  unfold State.recoveryLit at hgood ⊢
  unfold State.recoveryCounted at hcount hgood ⊢
  simp only [execModuleRecoveryDone, hrecovery, hcount, hgood, hdone, bne_self_eq_false, Bool.false_and, Bool.or_self, Bool.not_true,
    Bool.false_eq_true, if_false]

theorem execModuleRecoveryDone_of_no_good (hgood : (s.recoveryLit rtc).goodHalf = none) :
    execModuleRecoveryDone .done rtc s = .next (s.recoveryLit rtc).refreshPower := by
  have hdone : (RecoveryEnd.done == .trainingFailed) = false := rfl
  unfold State.recoveryLit at hgood ⊢
  unfold State.recoveryCounted at hcount hgood ⊢
  simp only [execModuleRecoveryDone, hrecovery, hcount, hgood, hdone, bne_self_eq_false, Bool.false_and, Bool.or_self, Bool.not_true,
    Bool.false_eq_true, if_false]
end

/-! ### Requests for an intake (R458) -/

/-- The context and the slot that a request names. -/
def intakeCtx (words : List Word) : Nat := bitsOf (words.getD 0 0).toNat 8 6
def intakeSlot (words : List Word) : Nat := bitsOf (words.getD 0 0).toNat 14 4

/-- The intake that a request asks for. -/
def intakeAsked (n : Nat) (words : List Word) : Intake :=
  let w (k : Nat) : Nat := (words.getD k 0).toNat
  { chan := n, ctx := intakeCtx words, slot := intakeSlot words, host := w 1 + w 2 * 2 ^ 32, va := w 3 + w 4 * 2 ^ 32, count := w 5, tensor := w 6
    first := w 7 }

section
variable {ch : Fin 16} {words : List Word} (hstarted : s.on Reg.SEC_STATUS_FW_STARTED = true)
include hstarted

theorem execIntakeRequest_of_running (hrunning : (s.sec.intakes.any fun i => i.chan == ch.val) = true) :
    execIntakeRequest ch words s = .next (s.intakeReply ch.val 2 0) := by
  simp only [execIntakeRequest, hstarted, hrunning, Bool.not_true, Bool.true_or, Bool.false_eq_true, if_false, if_true]

variable (hfree : (s.sec.intakes.any fun i => i.chan == ch.val) = false) (hkind : bitsOf (words.getD 0 0).toNat 0 8 = 1)
  (hrest : bitsOf (words.getD 0 0).toNat 18 14 = 0) (hpage : (words.getD 3 0).toNat % 65536 = 0) (hactive : s.active (intakeCtx words) = true)
include hfree hkind hrest hpage hactive

/-- A request of the right form starts an intake where the slot holds a key of the context as it runs. -/
theorem execIntakeRequest_of_valid : execIntakeRequest ch words s = .next
    (if !(s.on (Reg.SEC_WKEY_SLOT_VALID (intakeSlot words)) && s.get (Reg.SEC_WKEY_SLOT_CONTEXT (intakeSlot words)) == intakeCtx words
        && s.get (Reg.SEC_WKEY_SLOT_GENERATION (intakeSlot words)) == s.gen (intakeCtx words)) then s.intakeReply ch.val 3 0
     else s.modSec fun y => { y with intakes := y.intakes ++ [intakeAsked ch.val words] }) := by
  unfold intakeCtx at hactive
  simp only [execIntakeRequest, hstarted, hfree, hkind, hrest, hpage, hactive, bne_self_eq_false, Bool.not_true, Bool.or_self,
    Bool.false_eq_true, if_false]
  exact (apply_ite _ _ _ _).symm

theorem execIntakeRequest_of_key (hvalid : s.on (Reg.SEC_WKEY_SLOT_VALID (intakeSlot words)) = true)
    (hctx : s.get (Reg.SEC_WKEY_SLOT_CONTEXT (intakeSlot words)) = intakeCtx words)
    (hgen : s.get (Reg.SEC_WKEY_SLOT_GENERATION (intakeSlot words)) = s.gen (intakeCtx words)) : execIntakeRequest ch words s = .next
      (s.modSec fun y => { y with intakes := y.intakes ++ [intakeAsked ch.val words] }) := by
  rw [execIntakeRequest_of_valid hstarted hfree hkind hrest hpage hactive, if_neg (by simp [hvalid, hctx, hgen])]

theorem execIntakeRequest_of_no_key (hvalid : s.on (Reg.SEC_WKEY_SLOT_VALID (intakeSlot words)) = false) :
    execIntakeRequest ch words s = .next (s.intakeReply ch.val 3 0) := by
  rw [execIntakeRequest_of_valid hstarted hfree hkind hrest hpage hactive, if_pos (by simp [hvalid])]
end

/-! ### The chunks of an intake (R459) -/

theorem chunkLenOk_iff {count n len : Nat} :
    chunkLenOk count n len = true ↔ len = 1048576 ∨ (n + 1 = count ∧ 0 < len ∧ len < 1048576 ∧ len % 64 = 0) := by
  simp only [chunkLenOk, Bool.or_eq_true, Bool.and_eq_true, beq_iff_eq, decide_eq_true_eq, and_assoc]

namespace State
variable {i : Intake} {me : MemErr} {m : Nat}

theorem intakeChunks_nil : intakeChunks i me s m [] = (s, m, some (if m < i.count then 2 else 0)) := id rfl

theorem intakeChunks_nil_of_all (hall : i.count ≤ m) : intakeChunks i me s m [] = (s, m, some 0) := by
  rw [intakeChunks_nil, if_neg (Nat.not_lt.2 hall)]

theorem intakeChunks_nil_of_few (hfew : m < i.count) : intakeChunks i me s m [] = (s, m, some 2) := by
  rw [intakeChunks_nil, if_pos hfew]

variable {b : List Byte × BitVec 128} {l : List (List Byte × BitVec 128)}

/-- A chunk by its length, its pages, its tag and its write, in this order. -/
theorem intakeChunks_cons : intakeChunks i me s m (b :: l) =
    if !chunkLenOk i.count m b.1.length then (s, m, some 2)
    else match s.intakeStop i.ctx (i.va + 1048576 * m) b.1.length with
    | some a => (s.intakePerm i.ctx a, m, some 4)
    | none =>
      if !s.chunkOk i m b then (s.sealCount.intakeRec i.ctx fSealViolation [(2, s.moduleId), (1, i.slot), (1, 1)], m, some 1)
      else match s.intakeWrite i ((s.chunkText i m b).mapIdx fun k x => (i.va + 1048576 * m + k, x)) me with
        | .wait => (s.waitShadow (.engine (128 + i.chan)), m, none)
        | .done t => intakeChunks i me t (m + 1) l
        | .stop t st => (t, m, some st) := id rfl

theorem intakeChunks_of_length (hlen : chunkLenOk i.count m b.1.length = false) : intakeChunks i me s m (b :: l) = (s, m, some 2) := by
  rw [intakeChunks_cons, hlen]
  rfl

section
variable (hlen : chunkLenOk i.count m b.1.length = true)
include hlen

theorem intakeChunks_of_stop {a : Nat} (hstop : s.intakeStop i.ctx (i.va + 1048576 * m) b.1.length = some a) :
    intakeChunks i me s m (b :: l) = (s.intakePerm i.ctx a, m, some 4) := by
  rw [intakeChunks_cons, hlen, hstop]
  rfl

variable (hgo : s.intakeStop i.ctx (i.va + 1048576 * m) b.1.length = none)
include hgo

theorem intakeChunks_of_forged (htag : s.chunkOk i m b = false) : intakeChunks i me s m (b :: l) =
    (s.sealCount.intakeRec i.ctx fSealViolation [(2, s.moduleId), (1, i.slot), (1, 1)], m, some 1) := by
  rw [intakeChunks_cons, hlen, hgo, htag]
  rfl

variable (htag : s.chunkOk i m b = true)
include htag

theorem intakeChunks_of_done {v : State}
    (hwrite : s.intakeWrite i ((s.chunkText i m b).mapIdx fun k x => (i.va + 1048576 * m + k, x)) me = .done v) :
    intakeChunks i me s m (b :: l) = intakeChunks i me v (m + 1) l := by
  rw [intakeChunks_cons, hlen, hgo, htag, hwrite]
  rfl

theorem intakeChunks_of_stopped {v : State} {st : Nat}
    (hwrite : s.intakeWrite i ((s.chunkText i m b).mapIdx fun k x => (i.va + 1048576 * m + k, x)) me = .stop v st) :
    intakeChunks i me s m (b :: l) = (v, m, some st) := by
  rw [intakeChunks_cons, hlen, hgo, htag, hwrite]
  rfl

theorem intakeChunks_of_wait (hwrite : s.intakeWrite i ((s.chunkText i m b).mapIdx fun k x => (i.va + 1048576 * m + k, x)) me = .wait) :
    intakeChunks i me s m (b :: l) = (s.waitShadow (.engine (128 + i.chan)), m, none) := by
  rw [intakeChunks_cons, hlen, hgo, htag, hwrite]
  rfl
end

/-- The state where the intake of a channel has ended. -/
def intakeDropped (s : State) (n : Nat) : State := s.modSec fun x => { x with intakes := x.intakes.filter fun j => j.chan != n }

end State

/-- The pages that the chunks of an intake cover. -/
def intakePages (i : Intake) (chunks : List (List Byte × BitVec 128)) : List Nat :=
  (chunks.mapIdx fun k b => (List.range (ceilDiv b.1.length 65536)).map fun j => i.va + 1048576 * k + 65536 * j).flatten

section
variable {ch : Fin 16} {blob : List (List Byte × BitVec 128)} {me : MemErr} {i : Intake}
  (hintake : (s.sec.intakes.find? fun i => i.chan == ch.val) = some i)
include hintake

theorem execIntakeDone_of_no_key
    (hkey : s.on (Reg.SEC_WKEY_SLOT_VALID i.slot) = false ∨ s.get (Reg.SEC_WKEY_SLOT_CONTEXT i.slot) ≠ i.ctx) :
    execIntakeDone ch blob me s = .next ((s.intakeDropped ch.val).intakeReply i.chan 3 0) := by
  simp only [execIntakeDone, hintake]
  refine if_pos ?_
  rcases hkey with h | h <;> simp [h]

variable (hvalid : s.on (Reg.SEC_WKEY_SLOT_VALID i.slot) = true) (hctx : s.get (Reg.SEC_WKEY_SLOT_CONTEXT i.slot) = i.ctx) {t : State} {m : Nat}
include hvalid hctx

theorem execIntakeDone_of_ended {st : Nat} (hchunks : State.intakeChunks i me (s.meetErrs (some i.ctx) (fun _ => true) me).engineOn i.written
      ((blob.take i.count).drop i.written) = (t, m, some st)) : execIntakeDone ch blob me s = .next
    ((((t.fillTlb i.ctx (intakePages i (blob.take i.count))).engineOff).intakeDropped ch.val).intakeReply i.chan st m) := by
  simp only [execIntakeDone, hintake, hvalid, hctx, hchunks, beq_self_eq_true, Bool.and_self, Bool.not_true, Bool.false_eq_true, if_false]
  rfl

theorem execIntakeDone_of_waiting (hchunks : State.intakeChunks i me (s.meetErrs (some i.ctx) (fun _ => true) me).engineOn i.written
      ((blob.take i.count).drop i.written) = (t, m, none)) : execIntakeDone ch blob me s = .next
    ((t.fillTlb i.ctx (intakePages i (blob.take i.count))).engineOff.modSec fun x => { x with
      intakes := x.intakes.map fun j => if j.chan == ch.val then { j with written := m } else j }) := by
  simp only [execIntakeDone, hintake, hvalid, hctx, hchunks, beq_self_eq_true, Bool.and_self, Bool.not_true, Bool.false_eq_true, if_false]
  rfl
end

/-- Settles O55: a Dusk by its request and its context, a recovery by the marks that Idfort keeps, an intake by its key and then chunk by
chunk. The form of the reply and its status 2 for chunks that are too few or of another length are the model's choices (log entries
119 and 159). -/
theorem duskRecoveryIntake : Obligations.DuskRecoveryIntake := by
  intro ctx ch words blob me rtc s c n
  refine ⟨fun d => execDusk_of_active, fun d => execDusk_of_inactive, fun d => execDusk_of_waiting, fun t0 => execDuskDrainDone_of_drained,
    fun t0 => execDuskDrainDone_of_early, rfl, ?recovery, ?done, ?request, ?intake, ?chunks⟩
  case recovery =>
    exact fun hidle hservice => ⟨execModuleRecovery_of_in_service hidle hservice, State.recoveryBegun_mem, State.recoveryBegun_cores,
      State.recoveryBegun_poison, State.recoveryBegun_snp, rfl⟩
  case done =>
    intro hrecovery back lit
    exact ⟨fun h hcount => execModuleRecoveryDone_of_good hrecovery hcount, execModuleRecoveryDone_of_no_good hrecovery,
      execModuleRecoveryDone_of_untrained hrecovery⟩
  case request =>
    intro w x k hstarted
    exact ⟨fun hfree hkind hrest hpage hactive => ⟨execIntakeRequest_of_key hstarted hfree hkind hrest hpage hactive,
      execIntakeRequest_of_no_key hstarted hfree hkind hrest hpage hactive⟩, execIntakeRequest_of_running hstarted⟩
  case intake =>
    intro i hintake drop chunks vas start
    exact ⟨execIntakeDone_of_no_key hintake, fun hvalid hctx =>
      ⟨fun t m st => execIntakeDone_of_ended hintake hvalid hctx, fun t m => execIntakeDone_of_waiting hintake hvalid hctx⟩⟩
  case chunks =>
    intro i u m b l va long
    have hlong : long ↔ chunkLenOk i.count m b.1.length = true := chunkLenOk_iff.symm
    exact ⟨State.intakeChunks_nil_of_all, State.intakeChunks_nil_of_few,
      fun h => State.intakeChunks_of_length (Bool.eq_false_iff.2 (mt hlong.2 h)), fun h a => State.intakeChunks_of_stop (hlong.1 h),
      fun h => State.intakeChunks_of_forged (hlong.1 h), fun h hgo htag =>
        ⟨fun v => State.intakeChunks_of_done (hlong.1 h) hgo htag, fun v st => State.intakeChunks_of_stopped (hlong.1 h) hgo htag,
          State.intakeChunks_of_wait (hlong.1 h) hgo htag⟩⟩

end Sys2Proof.Machine
end

section
/-! ## Actions over the management network (R440, R451–R455, R462, R470, R474, R492) -/
namespace Sys2Proof.Machine
variable {s : State} {port : Fin 2} {frame : BitVec 64}

/-! ### Connections and enrolment (R451–R453) -/

section
variable (hup : s.idfortUp = true)
include hup

theorem execMgmtConnect_of_open (hstate : s.secState = 0 ∨ s.secState = 3) (cert : ClientCert) : execMgmtConnect port cert s = .next
    ((s.setConn port.val 1).handshake port.val true) := by
  rcases hstate with h | h <;> simp [execMgmtConnect, hup, h]

section
variable (hstate : s.secState = 1 ∨ s.secState = 2)
include hstate

theorem execMgmtConnect_of_operator : execMgmtConnect port .verifies s = .next ((s.setConn port.val 2).handshake port.val true) := by
  rcases hstate with h | h <;> simp [execMgmtConnect, hup, h]

theorem execMgmtConnect_of_stranger {cert : ClientCert} (hcert : cert ≠ .verifies) : execMgmtConnect port cert s = .next
    ((s.setConn port.val 0).handshake port.val false) := by
  rcases hstate with h | h <;> simp [execMgmtConnect, hup, h, hcert]

theorem execOperatorEnrolment_of_operator (hconn : s.conn port.val = 2) (ca : BitVec 384) : execOperatorEnrolment port ca s = .next
    ((s.modSec fun x => { x with operator := some ca.toNat }).emit (.redfish true)) := by
  refine (if_neg (by simp [hconn])).trans (congrArg Host.Outcome.next (State.byOperator_of_done hup hconn (if_neg ?_)))
  rcases hstate with h | h <;> simp [h]
end

theorem execOperatorEnrolment_of_blank (hstate : s.secState = 0) (hconn : s.conn port.val = 1) (ca : BitVec 384) :
    execOperatorEnrolment port ca s = .next (((s.modSec fun x => { x with operator := some ca.toNat }).setSec 1).emit (.redfish true)) :=
  if_pos (by simp [hstate, hconn, hup])

/-- A Decommissioned module enrols nobody, on whatever connection. -/
theorem execOperatorEnrolment_of_decommissioned (hstate : s.secState = 3) (ca : BitVec 384) :
    execOperatorEnrolment port ca s = .next (s.emit (.redfish false)) := by
  refine (if_neg (by simp [hstate])).trans (congrArg Host.Outcome.next ?_)
  by_cases hconn : s.conn port.val = 2
  · exact State.byOperator_of_refused hup hconn (if_pos (by simp [hstate]))
  · exact State.byOperator_of_stranger hup hconn

/-! ### The operator's actions (R440, R451, R470, R474, R492) -/

variable (hconn : s.conn port.val = 2)
include hconn

theorem execDecommission_of_provisioned (hstate : s.secState = 1) : execDecommission port s = .next
    ((((((((s.closeSession.endContexts.stopFirmware.put Reg.SWT_CTRL_ENABLE 0).mark Reg.GLB_STATUS_RELAY).eraseLink 0).eraseLink 1).modSec
      fun x => { x with operator := none, conns := [], offers := [], rollForward := false, vendorWaits := none }).setSec 3).refreshPower).emit
        (.redfish true)) :=
  congrArg Host.Outcome.next (State.byOperator_of_done hup hconn (if_neg (by simp [hstate])))

theorem execDecommission_of_other (hstate : s.secState ≠ 1) : execDecommission port s = .next (s.emit (.redfish false)) :=
  congrArg Host.Outcome.next (State.byOperator_of_refused hup hconn (if_pos (by simp [hstate])))

theorem execThermTripClear_of_tripped (htripped : s.pins.tripped = true) : execThermTripClear port s = .next
    (((s.modPins fun x => { x with tripped := false }).emit .ibi).tryDawn.emit (.redfish true)) :=
  congrArg Host.Outcome.next (State.byOperator_of_done hup hconn (by rw [if_pos htripped]))

theorem execReturnToService_of_out (hout : s.on Reg.HRC_STATUS_OUT_OF_SERVICE = true) : execReturnToService port s = .next
    (((s.put Reg.HRC_STATUS_OUT_OF_SERVICE 0).emit .ibi).emit (.redfish true)) :=
  congrArg Host.Outcome.next (State.byOperator_of_done hup hconn (by rw [State.when, if_pos hout]))

theorem execBypassOpenRequest_of_ready (hready : s.on Reg.GLB_STATUS_RELAY_READY = true)
    (hlisten : ∀ b < 8, s.on (Reg.OPT_BYP_STATUS_LISTEN_OK b) = true
      ∧ ∃ f t, (s.byp b).listener = some (f, t) ∧ f + (s.now - t) + 3 ≤ frame.toNat) : execBypassOpenRequest port frame s = .next
        ((s.each (List.range 8) fun u b => ((u.put (Reg.OPT_BYP_CTRL_TARGET b) 1).put (Reg.OPT_BYP_FRAME_FRAME b)
          (frame.toNat % 2 ^ 32)).mark (Reg.OPT_BYP_CTRL_ARM b)).emit (.redfish true)) := by
  refine congrArg Host.Outcome.next (State.byOperator_of_done hup hconn (if_neg ?_))
  simp only [hready, Bool.not_true, Bool.false_or, Bool.not_eq_true', Bool.not_eq_false, List.all_eq_true, List.mem_range]
  intro b hb
  obtain ⟨hok, f, t, hlistener, hfar⟩ := hlisten b hb
  simp only [hok, hlistener, hfar, decide_true, Bool.and_self]

theorem execBypassOpenRequest_of_unready (hready : s.on Reg.GLB_STATUS_RELAY_READY = false) : execBypassOpenRequest port frame s = .next
    (s.emit (.redfish false)) :=
  congrArg Host.Outcome.next (State.byOperator_of_refused hup hconn (if_pos (by rw [hready]; rfl)))
end

/-! ### Roll-forward (R455) -/

namespace State

theorem rollIdfort_of_clean (hclean : max s.sec.idfortSince s.hrc.recoverAt + dayTicks ≤ s.now) :
    s.rollIdfort = s.modSec fun x => { x with idfortMin := max x.idfortMin x.idfortSvn } := if_neg (Nat.not_lt.2 hclean)

theorem rollIdfort_of_early (hearly : s.now < max s.sec.idfortSince s.hrc.recoverAt + dayTicks) : s.rollIdfort = s := if_pos hearly

/-- Idfort's own roll-forward leaves packs and clocks. -/
theorem rollPacks_rollIdfort_packMin : s.rollIdfort.rollPacks.integ.packMin = s.rollPacks.integ.packMin := by
  by_cases hearly : s.now < max s.sec.idfortSince s.hrc.recoverAt + dayTicks
  · rw [rollIdfort_of_early hearly]
  · rw [rollIdfort_of_clean (Nat.not_lt.1 hearly)]
    rfl

/-- The least SVN of packs becomes the largest among it and those of the packs that have run for a day. -/
theorem rollPacks_packMin : s.rollPacks.integ.packMin = max s.integ.packMin
    (((s.integ.packs.filter fun q => decide (max q.since s.hrc.recoverAt + dayTicks ≤ s.now)).map (·.svn)).max?.getD s.integ.packMin) := by
  rw [← List.foldl_max, List.foldl_map]
  rfl

theorem svn_le_rollPacks_packMin {q : Pack} (hq : q ∈ s.integ.packs) (hday : max q.since s.hrc.recoverAt + dayTicks ≤ s.now) :
    q.svn ≤ s.rollPacks.integ.packMin := by
  rw [rollPacks_packMin]
  exact le_max_of_le_right (List.le_max?_getD_of_mem (List.mem_map_of_mem (List.mem_filter.2 ⟨hq, decide_eq_true hday⟩)))

theorem le_rollPacks_packMin : s.integ.packMin ≤ s.rollPacks.integ.packMin := rollPacks_packMin ▸ le_max_left ..

end State

section
variable (hroll : s.sec.rollForward = true)
include hroll

theorem execFwSvnRollForward_of_no_image (himage : s.runningImage = none) : execFwSvnRollForward s = .next s.rollIdfort.rollPacks := by
  simp only [execFwSvnRollForward, hroll, himage, Bool.not_true, Bool.false_eq_true, if_false]

variable {i : FwImage} (himage : s.runningImage = some i)
include himage

theorem execFwSvnRollForward_of_day (hday : s.fw.since + dayTicks ≤ s.now) (hnewer : s.get Reg.SEC_FW_STATUS_SVN_MIN < i.svn) :
    execFwSvnRollForward s = .next (s.rollIdfort.rollPacks.put Reg.SEC_FW_STATUS_SVN_MIN i.svn) := by
  simp [execFwSvnRollForward, hroll, himage, Nat.not_lt.2 hday, Nat.not_le.2 hnewer]

theorem execFwSvnRollForward_of_early (hearly : s.now < s.fw.since + dayTicks ∨ i.svn ≤ s.get Reg.SEC_FW_STATUS_SVN_MIN) :
    execFwSvnRollForward s = .next s.rollIdfort.rollPacks := by
  rcases hearly with h | h <;> simp [execFwSvnRollForward, hroll, himage, h]
end

theorem execFwSvnRollForward_of_disabled (hroll : s.sec.rollForward = false) : execFwSvnRollForward s = .next s := by
  simp only [execFwSvnRollForward, hroll, Bool.not_false, if_true]

/-- Settles O57: a connection by its certificate and the security state, every action by the connection that asks for it. That packs count
their day from their storing is the model's choice (log entry 159), and that a decommissioning ends the roll-forward (log entry 105). -/
theorem operatorActions : Obligations.OperatorActions := by
  intro port ca tenant frame s hup p done refused tls
  have hdone {f : State → Option State} {t : State} (hconn : s.conn p = 2) (hf : f s = some t) :
      (Host.Outcome.next (s.byOperator p f) : Host.Outcome State Fault Refusal) = .next (done t) :=
    congrArg _ (State.byOperator_of_done hup hconn hf)
  refine ⟨execMgmtConnect_of_operator hup, fun cert hcert hstate => execMgmtConnect_of_stranger hup hstate hcert,
    fun cert hstate => execMgmtConnect_of_open hup hstate cert, fun hstate hconn => execOperatorEnrolment_of_blank hup hstate hconn ca,
    fun hstate hconn => execOperatorEnrolment_of_operator hup hstate hconn ca, fun hstate => execOperatorEnrolment_of_decommissioned hup hstate ca,
    ?stranger, execDecommission_of_provisioned hup, execDecommission_of_other hup, fun hconn => ⟨hdone hconn rfl, hdone hconn rfl⟩,
    execThermTripClear_of_tripped hup, execReturnToService_of_out hup, execBypassOpenRequest_of_ready hup,
    execBypassOpenRequest_of_unready hup, ?roll, execFwSvnRollForward_of_disabled⟩
  case stranger =>
    intro hconn
    have h (f : State → Option State) : (Host.Outcome.next (s.byOperator p f) : Host.Outcome State Fault Refusal) = .next refused :=
      congrArg _ (State.byOperator_of_stranger hup hconn)
    simp only [List.forall_mem_cons, List.not_mem_nil, false_implies, implies_true, and_true]
    exact ⟨h _, h _, h _, h _, h _, h _, h _⟩
  case roll =>
    intro hroll t
    refine ⟨fun i => execFwSvnRollForward_of_day hroll, fun i => execFwSvnRollForward_of_early hroll, execFwSvnRollForward_of_no_image hroll,
      fun hclean => ?clean, fun hearly => ?early, fun q hq hday => ?packs, ?mono⟩
    case clean => exact congrArg (fun u : State => u.rollPacks.sec.idfortMin) (State.rollIdfort_of_clean hclean)
    case early => exact congrArg (fun u : State => u.rollPacks.sec.idfortMin) (State.rollIdfort_of_early hearly)
    case packs => exact (State.svn_le_rollPacks_packMin hq hday).trans_eq State.rollPacks_rollIdfort_packMin.symm
    case mono => exact State.le_rollPacks_packMin.trans_eq State.rollPacks_rollIdfort_packMin.symm

end Sys2Proof.Machine
end

section
/-! ## Debug sessions (R464–R466, R474) -/
namespace Sys2Proof.Machine
variable {s : State} {port : Fin 2}

/-! ### A session opens and closes (R464, R466) -/

/-- The operator's connection may open and close sessions in every security state. -/
theorem State.sessionConn_of_operator (hconn : s.conn port.val = 2) :
    (if s.secState == 0 || s.secState == 3 then s.conn port.val != 0 else s.conn port.val == 2) = true := by
  rw [hconn]
  exact ite_self true

theorem execInvasiveSessionOpen_of_free (hup : s.idfortUp = true) (hconn : s.conn port.val = 2) (hsession : s.sec.session = none)
    (hwaits : s.sec.vendorWaits = none) : execInvasiveSessionOpen port s = .next ((s.openSession 1 []).emit (.redfish true)) :=
  congrArg Host.Outcome.next (State.byOperator_of_done hup hconn (if_neg (by simp [hsession, hwaits])))

theorem State.openWaiting_of_unsealed {l : List Nat} (hwaits : s.sec.vendorWaits = some l) (hunsealed : s.unsealed = true) :
    s.openWaiting = s.openSession 2 l := by
  simp only [openWaiting, hwaits, hunsealed, if_true]

section
variable {tok : VendorToken} (hup : s.idfortUp = true)
include hup

/-- Without a context to end, the session that waits opens in the same command. -/
theorem execVendorSessionOpen_of_unsealed (hconn : s.conn port.val = 2) (hvalid : tok.valid = true) (hpower : 2 ≤ s.powerNow)
    (hsession : s.sec.session = none) (hwaits : s.sec.vendorWaits = none) (hkeyless : ∀ c < 64, s.active c = true → s.holdsKey c = false)
    (hunsealed : s.unsealed = true) : execVendorSessionOpen port tok s = .next
      (((s.modSec fun x => { x with vendorWaits := some tok.fuses }).openSession 2 tok.fuses).emit (.redfish true)) := by
  have hmay := s.sessionConn_of_operator hconn
  have hnone : ((List.range 64).filter fun c => s.active c && s.holdsKey c) = [] :=
    List.filter_eq_nil_iff.2 fun c hc => by simpa using hkeyless c (List.mem_range.1 hc)
  have hwaiting : (s.modSec fun x => { x with vendorWaits := some tok.fuses }).openWaiting = _ := State.openWaiting_of_unsealed rfl hunsealed
  simp only [execVendorSessionOpen, hup, hmay, hvalid, Nat.not_lt.2 hpower, hsession, hwaits, Option.isSome_none, decide_false, Bool.not_true,
    Bool.or_self, Bool.false_eq_true, if_false]
  rw [← hwaiting]
  exact congrArg (fun l : List Nat => Host.Outcome.next (((s.modSec fun x => { x with vendorWaits := some tok.fuses }).each l fun u c =>
    u.modCtx c fun x => { x with duskReq := x.duskReq.or (some { tick := u.now + 1 }) }).openWaiting.emit (.redfish true))) hnone

theorem execVendorSessionOpen_of_invalid (hvalid : tok.valid = false) : execVendorSessionOpen port tok s = .next (s.emit (.redfish false)) := by
  simp [execVendorSessionOpen, hup, hvalid]

theorem execDebugSessionClose_of_open (hconn : s.conn port.val = 2) (hsession : s.sec.session.isSome = true) :
    execDebugSessionClose port s = .next (s.closeSession.emit (.redfish true)) := by
  have hmay := s.sessionConn_of_operator hconn
  simp only [execDebugSessionClose, hup, hmay, hsession, Bool.not_true, Bool.and_self, Bool.false_eq_true, if_false, if_true]

theorem execDebugSessionClose_of_none (hsession : s.sec.session = none) : execDebugSessionClose port s = .next (s.emit (.redfish false)) := by
  simp [execDebugSessionClose, hup, hsession]
end

/-! ### Outside an invasive session (R464, R465) -/

section
variable (hoff : s.invasive = false)
include hoff

theorem execCoreHalt_of_no_session (t : HaltTarget) : execCoreHalt t s = .next (s.emit (.redfish false)) := by
  simp only [execCoreHalt, hoff, Bool.not_false, if_true]

theorem execCoreSingleStep_of_no_session (t : HaltTarget) : execCoreSingleStep t s = .next (s.emit (.redfish false)) := by
  simp only [execCoreSingleStep, hoff, Bool.not_false, if_true]

theorem execDebugMemoryRead_of_no_session (t : DebugTarget) : execDebugMemoryRead t s = .next (s.emit (.redfish false)) := by
  cases hsession : s.sec.session <;> simp only [execDebugMemoryRead, hsession, hoff, Bool.not_false, if_true]

theorem execDebugMemoryWrite_of_no_session (t : DebugTarget) (bytes : List Byte) :
    execDebugMemoryWrite t bytes s = .next (s.emit (.redfish false)) := by
  simp only [execDebugMemoryWrite, hoff, Bool.not_false, if_true]
end

/-! ### Halting and stepping (R464) -/

section
variable (hon : s.invasive = true)
include hon

theorem execCoreHalt_of_core (c : Fin 144) : execCoreHalt (.core c) s = .next
    ((s.modCore c.val fun k => { k with halted := true, steps := 0 }).emit (.redfish true)) := by
  simp only [execCoreHalt, hon, Bool.not_true, Bool.false_eq_true, if_false]

theorem execCoreHalt_of_control (k : Fin 8) : execCoreHalt (.control k) s = .next ((s.modSec fun x => { x with
      halted := k.val :: x.halted.filter (· != k.val), cpSteps := sset (fun _ => 0) x.cpSteps k.val 0 }).emit (.redfish true)) := by
  simp only [execCoreHalt, hon, Bool.not_true, Bool.false_eq_true, if_false]

theorem execCoreSingleStep_of_core (c : Fin 144) : execCoreSingleStep (.core c) s = .next
    (if (s.core c.val).halted then (s.modCore c.val fun k => { k with steps := 1 }).emit (.redfish true) else s.emit (.redfish false)) := by
  simp only [execCoreSingleStep, hon, Bool.not_true, Bool.false_eq_true, if_false]

theorem execCoreSingleStep_of_control (k : Fin 8) : execCoreSingleStep (.control k) s = .next
    (if s.sec.halted.contains k.val then (s.modSec fun x => { x with cpSteps := sset (fun _ => 0) x.cpSteps k.val 1 }).emit (.redfish true)
     else s.emit (.redfish false)) := by
  simp only [execCoreSingleStep, hon, Bool.not_true, Bool.false_eq_true, if_false]

/-! ### Memory (R465) -/

variable {t : DebugTarget}

theorem State.session_of_invasive : ∃ x, s.sec.session = some x := by
  cases hsession : s.sec.session with
  | none => simp [invasive, debugLevel, hsession] at hon
  | some x => exact ⟨x, rfl⟩

theorem execDebugMemoryRead_of_plain (hplain : (s.debugRange t).2 = false) : execDebugMemoryRead t s = .next
    (s.emit (.debugData none (s.debugBytes t))) := by
  obtain ⟨x, hsession⟩ := State.session_of_invasive hon
  simp only [execDebugMemoryRead, hsession, hon, hplain, Bool.not_true, Bool.false_eq_true, if_false]

/-- Sealed data leaves in blocks under the session's dump key. -/
theorem execDebugMemoryRead_of_sealed {x : DebugSession} (hsession : s.sec.session = some x) (hsealed : (s.debugRange t).2 = true) :
    execDebugMemoryRead t s = .next ((s.modSec fun y => { y with session := some { x with
        blocks := x.blocks + ceilDiv (s.debugBytes t).length 4096 } }).emit (.debugData (some (x.serial, x.blocks, pointOf x.priv))
      (sealBlocks (x.dumpKey (((s.debugCtx t).map s.dumpKeyOf).getD 0)) x.serial (ceilDiv (s.debugBytes t).length 4096) x.blocks
        (s.debugBytes t)))) := by
  simp only [execDebugMemoryRead, hsession, hon, hsealed, Bool.not_true, Bool.false_eq_true, if_false, if_true]

variable {bytes : List Byte}

theorem execDebugMemoryWrite_of_sealed (hsealed : (s.debugRange t).2 = true) : execDebugMemoryWrite t bytes s = .next
    (s.sealCount.emit (.redfish false)) := by
  simp only [execDebugMemoryWrite, hon, hsealed, Bool.not_true, Bool.false_eq_true, if_false, if_true]

theorem execDebugMemoryWrite_of_tile {c : Fin 144} {i : Fin 32} (hplain : (s.debugRange (.tile c i)).2 = false) :
    execDebugMemoryWrite (.tile c i) bytes s = .next ((s.setTileData c.val i.val bytes).emit (.redfish true)) := by
  simp only [execDebugMemoryWrite, hon, hplain, Bool.not_true, Bool.false_eq_true, if_false]

section
variable (htile : ∀ c i, t ≠ .tile c i) (hplain : (s.debugRange t).2 = false)
include htile hplain

theorem execDebugMemoryWrite_of_go {u : State} (hgo : s.touchPages .debug (pagesOf (((s.debugRange t).1.zip bytes).map (·.1))) = .go u) :
    execDebugMemoryWrite t bytes s = .next ((u.store ((s.debugRange t).1.zip bytes)).emit (.redfish true)) := by
  cases t with
  | tile c i => exact absurd rfl (htile c i)
  | _ => simp only [execDebugMemoryWrite, hon, hplain, hgo, Bool.not_true, Bool.false_eq_true, if_false]

theorem execDebugMemoryWrite_of_full (hfull : s.touchPages .debug (pagesOf (((s.debugRange t).1.zip bytes).map (·.1))) = .full) :
    execDebugMemoryWrite t bytes s = .next (s.emit (.redfish false)) := by
  cases t with
  | tile c i => exact absurd rfl (htile c i)
  | _ => simp only [execDebugMemoryWrite, hon, hplain, hfull, Bool.not_true, Bool.false_eq_true, if_false]
end
end

/-! ### A vendor session (R466) -/

section
variable (hoff : s.debugLevel ≠ 2)
include hoff

theorem execScanRequest_of_no_session : execScanRequest s = .next (s.emit (.redfish false)) := if_pos (by simp [hoff])

theorem execFuseRead_of_no_session (word : BitVec 16) : execFuseRead word s = .next (s.emit (.redfish false)) := if_pos (by simp [hoff])

theorem execFuseWrite_of_no_session (word : BitVec 16) (v : Word) : execFuseWrite word v s = .next (s.emit (.redfish false)) := by
  cases hsession : s.sec.session with
  | none => simp only [execFuseWrite, hsession]
  | some x =>
    have hlevel : x.level ≠ 2 := by simpa [State.debugLevel, hsession] using hoff
    simp [execFuseWrite, hsession, hlevel]

theorem execRefurbishToBlank_of_no_session : execRefurbishToBlank s = .next (s.emit (.redfish false)) := if_pos (by simp [hoff])
end

theorem execScanRequest_of_active {c : Nat} (hc : c < 64) (hactive : s.active c = true) : execScanRequest s = .next (s.emit (.redfish false)) := by
  have hany : (List.range 64).any s.active = true := List.any_eq_true.2 ⟨c, List.mem_range.2 hc, hactive⟩
  exact if_pos (by rw [hany, Bool.or_true])

theorem execRefurbishToBlank_of_other (hstate : s.secState ≠ 3) : execRefurbishToBlank s = .next (s.emit (.redfish false)) :=
  if_pos (by simp [hstate])

section
variable (hon : s.debugLevel = 2)
include hon

theorem execScanRequest_of_idle (hpower : 2 ≤ s.powerNow) (hidle : ∀ c < 64, s.active c = false) :
    execScanRequest s = .next (s.fresh.2.emit (.vendorData [s.fresh.1])) := by
  have hnone : (List.range 64).any s.active = false :=
    List.any_eq_false.2 fun c hc => by simpa using hidle c (List.mem_range.1 hc)
  exact if_neg (by simp only [hon, hnone, Nat.not_lt.2 hpower]; decide)

theorem execFuseRead_of_session (word : BitVec 16) : execFuseRead word s = .next
    (s.emit (.vendorData [sget (fun _ => 0) s.sec.fuses word.toNat])) := if_neg (by simp [hon])

theorem execFuseWrite_of_session {x : DebugSession} (hsession : s.sec.session = some x) (word : BitVec 16) (v : Word) :
    execFuseWrite word v s = .next (if word.toNat ∈ x.fuses then (s.modSec fun y => { y with
        fuses := sset (fun _ => 0) y.fuses word.toNat (sget (fun _ => 0) y.fuses word.toNat ||| v.toNat) }).emit (.redfish true)
      else s.emit (.redfish false)) := by
  have hlevel : x.level = 2 := by simpa [State.debugLevel, hsession] using hon
  by_cases hmem : word.toNat ∈ x.fuses <;> simp [execFuseWrite, hsession, hlevel, hmem]

theorem execRefurbishToBlank_of_decommissioned (hstate : s.secState = 3) : execRefurbishToBlank s = .next
    (((s.modSec fun x => { x with operator := none }).setSec 0).emit (.redfish true)) := if_neg (by simp [hon, hstate])
end

/-- Settles O58: the sessions by what is open or waits, each access by its session and its target. That a fuse once set stays set is the
model's choice (log entry 108), and so are the form in which sealed data is read (log entry 138) and that a write is refused whose page
would have to wait for the shadow pool (log entry 159). -/
theorem debugSessions : Obligations.DebugSessions := by
  intro port core k tok t bytes word v s done refused
  refine ⟨fun hup hconn hsession hwaits => ⟨s.fresh.1, execInvasiveSessionOpen_of_free hup hconn hsession hwaits⟩,
    fun hup => execVendorSessionOpen_of_unsealed hup, fun hup => execVendorSessionOpen_of_invalid hup, execDebugSessionClose_of_open,
    execDebugSessionClose_of_none, ?outside, ?noVendor, ?invasive, ?vendor⟩
  case outside =>
    intro hoff
    simp only [List.forall_mem_cons, List.not_mem_nil, false_implies, implies_true, and_true]
    exact ⟨execCoreHalt_of_no_session hoff (.core core), execCoreHalt_of_no_session hoff (.control k),
      execCoreSingleStep_of_no_session hoff (.core core), execCoreSingleStep_of_no_session hoff (.control k), execDebugMemoryRead_of_no_session hoff t,
      execDebugMemoryWrite_of_no_session hoff t bytes⟩
  case noVendor =>
    intro hoff
    simp only [List.forall_mem_cons, List.not_mem_nil, false_implies, implies_true, and_true]
    exact ⟨execScanRequest_of_no_session hoff, execFuseRead_of_no_session hoff word, execFuseWrite_of_no_session hoff word v,
      execRefurbishToBlank_of_no_session hoff⟩
  case invasive =>
    intro hon
    have hcore := execCoreSingleStep_of_core hon core
    have hcontrol := execCoreSingleStep_of_control hon k
    refine ⟨execCoreHalt_of_core hon core, execCoreHalt_of_control hon k, fun h => hcore.trans (by rw [h]; rfl),
      fun h => hcontrol.trans (by rw [h]; rfl), fun h => hcore.trans (by rw [h]; rfl), fun h => hcontrol.trans (by rw [h]; rfl),
      execDebugMemoryRead_of_plain hon, fun x => execDebugMemoryRead_of_sealed hon, execDebugMemoryWrite_of_sealed hon, ?_, ?_,
      fun htile hplain => ⟨fun u => execDebugMemoryWrite_of_go hon htile hplain, execDebugMemoryWrite_of_full hon htile hplain⟩, ?_⟩
    · rintro pa n rfl
      rfl
    · rintro c a n rfl
      rfl
    · rintro c i rfl hplain
      exact execDebugMemoryWrite_of_tile hon hplain
  case vendor =>
    intro hon
    refine ⟨fun hpower hidle => ⟨_, _, execScanRequest_of_idle hon hpower hidle, rfl⟩, fun c => execScanRequest_of_active,
      execFuseRead_of_session hon word, fun x hsession => ⟨fun hmem => ?_, fun hmem => ?_⟩, execRefurbishToBlank_of_decommissioned hon,
      execRefurbishToBlank_of_other⟩
    · exact (execFuseWrite_of_session hon hsession word v).trans (by rw [if_pos hmem])
    · exact (execFuseWrite_of_session hon hsession word v).trans (by rw [if_neg hmem])

end Sys2Proof.Machine
end

section
/-! ## Power, duty and pins (R463, R467–R470, R477–R483, R487–R491) -/
namespace Sys2Proof.Machine
variable {s : State}

/-! ### Caps and duty (R463, R469, R470) -/

namespace State

theorem clampCap_zero (s : State) : s.clampCap 0 = s.get Reg.SEC_DUTY_CFG_MIN_DUTY := by
  unfold clampCap
  omega

theorem minDuty_le_clampCap (s : State) (n : Int) : s.get Reg.SEC_DUTY_CFG_MIN_DUTY ≤ s.clampCap n := by
  unfold clampCap
  omega

theorem clampCap_le {n : Int} (hmin : s.get Reg.SEC_DUTY_CFG_MIN_DUTY ≤ 64) : s.clampCap n ≤ 64 := by
  unfold clampCap
  omega

end State

theorem execOvercurrent_eq (s : State) : execOvercurrent s = .next (((s.modPow fun x => { x with
    curCap := s.get Reg.SEC_DUTY_CFG_MIN_DUTY, curDue := some s.now }).mark Reg.SEC_EVENT_OVERCURRENT).applyDuty) := by
  rw [execOvercurrent, State.clampCap_zero]

theorem execPowerAvgUpdate_of_due (hbeat : s.atMultiple 244141 = true) (hfirst : s.pow.secLast ≠ s.now) (hframes : s.pow.nSec ≠ 0) :
    execPowerAvgUpdate s = .next
      (s.modPow fun x => { x with second := round25 x.sumSec x.nSec, sumSec := 0, nSec := 0, secLast := s.now }) :=
  if_neg (by simp [hbeat, hfirst, hframes])

/-- The state where the power and the temperatures of an interval have moved their caps. -/
def State.capsStepped (s : State) (temps : Word) : State :=
  (((s.turn 6).setReg Reg.SEC_TEMP temps).powerStep).each (List.range 4) fun t d => t.tempStep d (bitsOf temps.toNat (8 * d) 8)

theorem execDutyUpdate_of_due {temps : Word} (hbeat : s.atMultiple 256 = true) (hfirst : s.pow.dutyLast ≠ s.now) (hpos : s.time.pos ≤ 6)
    (hpower : 2 ≤ s.powerNow) : execDutyUpdate temps s = .next (((s.capsStepped temps).modPow fun x => { x with
      curCap := if x.curDue.isSome then (s.capsStepped temps).clampCap x.curCap else (s.capsStepped temps).capUp x.curCap
      curDue := none, sum256 := 0, n256 := 0, dutyLast := s.now }).applyDuty) :=
  if_neg (by simp [hbeat, hfirst, Nat.not_lt.2 hpos, Nat.not_lt.2 hpower])

theorem execDutyUpdate_of_other {temps : Word} (hother : s.atMultiple 256 = false ∨ s.pow.dutyLast = s.now ∨ s.powerNow < 2) :
    execDutyUpdate temps s = .next s := by
  refine if_pos ?_
  rcases hother with h | h | h <;> simp [h]

section
variable {die : Fin 4} {temp : Byte}

theorem execThermalTrip_of_hot (hhot : 115 ≤ temp.toNat) (hpower : 2 ≤ s.powerNow) : execThermalTrip die temp s = .next
    ((((((s.put ⟨Reg.SEC_TEMP, 8 * die.val, 8⟩ temp.toNat).cper
      { event := 5, fault := 0, unitKind := 2, unit := 0, frame := 0, module := 0, duty := s.duty die.val, score := s.score 2000
        scoreBefore := s.score 2000 }).powerDown 4).modPins fun x => { x with tripped := true, loadsOff := true, under := none }).emit
          .ibi).applyDuty) :=
  if_neg (by simp [Nat.not_lt.2 hhot, Nat.not_lt.2 hpower])

theorem execThermalTrip_of_cool (hcool : temp.toNat < 115) : execThermalTrip die temp s = .next s := if_pos (by simp [hcool])
end

/-! ### The 48 V rail (R467, R478, R479) -/

section
variable {mv : BitVec 16}

section
variable (hlost : s.pins.v48 = false)
include hlost

theorem execMain48vApply_of_start (hlow : 46000 ≤ mv.toNat) (hhigh : mv.toNat ≤ 57000) : execMain48vApply mv s = .next
    (s.modPins fun x => { x with v48 := true, under := none }).tryDawn := by
  simp [execMain48vApply, hlost, hlow, hhigh]

theorem execMain48vApply_of_outside (hout : mv.toNat < 46000 ∨ 57000 < mv.toNat) : execMain48vApply mv s = .next s := by
  have hno : ¬ (46000 ≤ mv.toNat ∧ mv.toNat ≤ 57000) := by omega
  simp [execMain48vApply, hlost, hno]
end

section
variable (hrail : s.pins.v48 = true)
include hrail

theorem execMain48vApply_of_lost (hout : mv.toNat < 40000 ∨ 57000 < mv.toNat) : execMain48vApply mv s = .next s.lose48 := by
  have hlost : 57000 < mv.toNat ∨ mv.toNat < 40000 := hout.symm
  simp [execMain48vApply, hrail, hlost]

theorem execMain48vApply_of_back (hlow : 44000 ≤ mv.toNat) (hhigh : mv.toNat ≤ 57000) (hunder : s.pins.under.isSome = true) :
    execMain48vApply mv s = .next (s.modPins fun x => { x with under := none }).applyDuty := by
  have hkept : ¬ (57000 < mv.toNat ∨ mv.toNat < 40000) := by omega
  simp [execMain48vApply, hrail, hkept, hlow, hunder]

theorem State.lose48_of_powered (hpower : 2 ≤ s.powerNow) :
    s.lose48 = ((s.powerDown 2).modPins fun x => { x with v48 := false, under := none }).applyDuty := by
  simp only [lose48, hrail, ge_iff_le, hpower, Bool.not_true, Bool.false_eq_true, if_false, if_true]
end
end

theorem execUndervolt_of_powered (hpower : 2 ≤ s.powerNow) : execUndervolt s = .next
    ((s.modPins fun x => { x with under := x.under.or (some s.now) }).mark Reg.GLB_EVENT_UNDERVOLT).applyDuty := if_neg (Nat.not_lt.2 hpower)

/-! ### The 12 V rail, the body and the presence contact (R265, R467, R477, R479) -/

theorem execStandby12vApply_of_off (hoff : s.pins.v12 = false) : execStandby12vApply s = .next
    ((s.modPins fun x => { x with v12 := true }).modSec fun x => { x with idfortSince := s.now }).tryDawn := if_neg (by simp [hoff])

theorem execStandby12vLoss_of_body (hon : s.pins.v12 = true) (hbody : s.pins.body = true) : execStandby12vLoss s = .next
    (s.turnOff.modPins fun x => { x with v12 := false }).refreshPower := by
  simp only [execStandby12vLoss, hon, hbody, Bool.not_true, Bool.false_eq_true, if_false, if_true]

theorem execBodyInsert_of_empty (hempty : s.pins.body = false) : execBodyInsert s = .next
    ((s.modPins fun x => { x with body := true, mated := false }).modSec fun x => { x with idfortSince := s.now }).refreshPower :=
  if_neg (by simp [hempty])

theorem execBodyRemove_of_supplied (hbody : s.pins.body = true) (hon : s.pins.v12 = true) : execBodyRemove s = .next
    (s.turnOff.modPins fun x => { x with body := false, mated := false }).refreshPower := by
  simp only [execBodyRemove, hon, hbody, Bool.not_true, Bool.false_eq_true, if_false, if_true]

theorem execPresenceMated_of_open (hbody : s.pins.body = true) (hopen : s.pins.mated = false) : execPresenceMated s = .next
    (s.modPins fun x => { x with mated := true }).tryDawn := if_neg (by simp [hbody, hopen])

/-! ### MOD_RESET_N and the host port (R481, R487) -/

theorem execModResetNAssert_of_powered (hhigh : s.pins.resetLow = false) (hpower : 2 ≤ s.powerNow) : execModResetNAssert s = .next
    ((s.powerDown 1).modPins fun x => { x with resetLow := true, pcieUp := false, configReady := false, dawn := false }).refreshPower := by
  simp only [execModResetNAssert, hhigh, ge_iff_le, hpower, Bool.false_eq_true, if_false, if_true]

theorem execModResetNRelease_of_low (hlow : s.pins.resetLow = true) : execModResetNRelease s = .next
    (s.modPins fun x => { x with resetLow := false }).tryDawn := if_neg (by simp [hlow])

theorem execPcieConfigReady_of_up (hup : s.pins.pcieUp = true) (hhigh : s.pins.resetLow = false) (hpower : s.on Reg.GLB_STATUS_PWR_OK = true) :
    execPcieConfigReady s = .next (s.modPins fun x => { x with configReady := true }) := if_pos (by simp [hup, hhigh, hpower])

/-! ### The end of a Dawn, and the relay (R162, R489, R491) -/

namespace State

/-- What is trained is cleared: near memory that was not leaves no byte. -/
theorem trainNear_cleared (huntrained : s.get Reg.MEM_STATUS_NM_TRAINED ≠ 0xFF) : s.trainNear.mem = [] ∧ s.trainNear.poison = [] := by
  rw [trainNear, if_neg (by simpa using huntrained)]
  exact ⟨rfl, rfl⟩

theorem trainBoard_keeps_cleared (hmem : s.mem = []) (hpoison : s.poison = []) : s.trainBoard.mem = [] ∧ s.trainBoard.poison = [] := by
  unfold trainBoard
  split
  · exact ⟨hmem, hpoison⟩
  · exact ⟨rfl, rfl⟩

theorem trainMemory_cleared (h : s.canon = true) : s.trainMemory.mem = [] ∧ s.trainMemory.poison = [] := by
  have huntrained : ((s.put Reg.MEM_STATUS_NM_TRAINED 0).put Reg.MEM_STATUS_BC_TRAINED 0).get Reg.MEM_STATUS_NM_TRAINED ≠ 0xFF := by
    rw [get_put_disjoint (put_canon h _ _) 0 (by decide) (by decide), get_put_same h 0 (by decide)]
    decide
  obtain ⟨hmem, hpoison⟩ := trainNear_cleared huntrained
  exact trainBoard_keeps_cleared hmem hpoison

end State

theorem execRelayReady_of_dawn (hdawn : s.pins.dawn = true) (hpower : 2 ≤ s.powerNow) : execRelayReady s = .next
    ((((s.trainMemory.lightService).verifyRings [17]).mark Reg.GLB_STATUS_RELAY_READY).modPins fun x => { x with dawn := false }) :=
  if_neg (by simp [hdawn, Nat.not_lt.2 hpower])

theorem execRelayExit_of_enabled (hrelay : s.on Reg.GLB_STATUS_RELAY = true) (hon : s.on Reg.SWT_CTRL_ENABLE = true)
    (htick : s.pins.enableTick = true) : execRelayExit s = .next
      ((s.put Reg.GLB_STATUS_RELAY 0).each (List.range 16) fun t p => (t.put (Reg.OPT_PORT_STATUS_UP p) 0).refreshPort p) :=
  if_neg (by simp [hrelay, hon, htick])

/-! ### I3C (R483) -/

theorem State.i3cAddress_of_up (hup : s.idfortUp = true) (a : Nat) : s.i3cAddress a = s.modPins fun x => { x with i3c := some a } := if_pos hup

/-- Settles O59: each command by the rails, the pins and the power state that it finds. -/
theorem powerAndPins : Obligations.PowerAndPins := by
  intro temps die temp mv addr s
  refine ⟨execOvercurrent_eq s, execPowerAvgUpdate_of_due, execDutyUpdate_of_due, execDutyUpdate_of_other, execThermalTrip_of_hot,
    execThermalTrip_of_cool, execMain48vApply_of_start, execMain48vApply_of_outside, execMain48vApply_of_lost, execMain48vApply_of_back,
    fun hrail hpower => congrArg Host.Outcome.next (State.lose48_of_powered hrail hpower), execUndervolt_of_powered, execStandby12vApply_of_off,
    fun n _ => ⟨s.minDuty_le_clampCap n, State.clampCap_le⟩, execStandby12vLoss_of_body, execBodyInsert_of_empty, execBodyRemove_of_supplied,
    execPresenceMated_of_open, execModResetNAssert_of_powered, execModResetNRelease_of_low, execPcieConfigReady_of_up,
    fun hdawn hpower => ⟨execRelayReady_of_dawn hdawn hpower, State.trainMemory_cleared⟩, execRelayExit_of_enabled, fun hup =>
      ⟨if_pos hup, congrArg Host.Outcome.next (State.i3cAddress_of_up hup _), congrArg Host.Outcome.next (State.i3cAddress_of_up hup _)⟩⟩

end Sys2Proof.Machine
end

section
/-! ## The tag of AES-256-GCM fits its 128 bits (R457) -/
namespace Sys2Proof.Gcm

/-- A list of numbers that are bytes. -/
def AreBytes (l : List Nat) : Prop := ∀ b ∈ l, b < 256

section
variable {a b : List Nat}

theorem areBytes_beBytes {n v : Nat} : AreBytes (beBytes n v) :=
  List.forall_mem_map.2 fun _ _ => Nat.mod_lt _ (by decide)

theorem areBytes_map_sub : AreBytes (a.map sub) := List.forall_mem_map.2 fun _ _ => Nat.mod_lt _ (by decide)

theorem areBytes_xorBytes : ∀ {a b : List Nat}, AreBytes a → AreBytes b → AreBytes (xorBytes a b)
  | [], _, _, _ => List.forall_mem_nil _
  | _ :: _, [], _, _ => List.forall_mem_nil _
  | _ :: _, _ :: _, ha, hb =>
    List.forall_mem_cons.2 ⟨Nat.xor_lt_two_pow (n := 8) (ha _ List.mem_cons_self) (hb _ List.mem_cons_self),
      areBytes_xorBytes (List.forall_mem_cons.1 ha).2 (List.forall_mem_cons.1 hb).2⟩

/-- An entry of a table of byte strings, or the empty string beyond its end. -/
theorem areBytes_getD {ws : List (List Nat)} (h : ∀ w ∈ ws, AreBytes w) (k : Nat) : AreBytes (ws.getD k []) := by
  rcases lt_or_ge k ws.length with hk | hk
  · exact List.getD_eq_getElem _ _ hk ▸ h _ (List.getElem_mem hk)
  · exact List.getD_eq_default _ _ hk ▸ List.forall_mem_nil _

theorem xtime_lt_of_byte {x : Nat} (h : x < 256) : xtime x < 256 := by
  unfold xtime
  split
  · omega
  · next hx =>
    have hall : ∀ y : Fin 256, 128 ≤ y.val → (2 * y.val) ^^^ 0x11B < 256 := by decide +kernel
    exact hall ⟨x, h⟩ (Nat.le_of_not_lt hx)

theorem areBytes_nextWord {i rcon : Nat} (hr : rcon < 256) (ha : AreBytes a) (hb : AreBytes b) : AreBytes (nextWord i rcon a b) := by
  refine areBytes_xorBytes hb ?_
  split
  · exact areBytes_xorBytes areBytes_map_sub (by simpa [AreBytes] using hr)
  · split
    · exact areBytes_map_sub
    · exact ha

theorem areBytes_expand : ∀ {n i rcon : Nat} {ws : List (List Nat)}, rcon < 256 → (∀ w ∈ ws, AreBytes w) → ∀ w ∈ expand n i rcon ws, AreBytes w
  | 0, _, _, _, _, h => h
  | n + 1, i, rcon, ws, hr, h => by
    have hnext : (if i % 8 = 0 then xtime rcon else rcon) < 256 := by
      split
      · exact xtime_lt_of_byte hr
      · exact hr
    have hhead : AreBytes (ws.headD []) := by cases ws with
      | nil => exact List.forall_mem_nil _
      | cons w ws => exact h w List.mem_cons_self
    exact areBytes_expand (n := n) hnext (List.forall_mem_cons.2 ⟨areBytes_nextWord hr hhead (areBytes_getD h 7), h⟩)

theorem areBytes_of_mem_cut4 : ∀ {l : List Nat}, AreBytes l → ∀ w ∈ cut4 l, AreBytes w
  | _ :: _ :: _ :: _ :: _, h => by
    simp only [AreBytes, List.forall_mem_cons] at h
    obtain ⟨h0, h1, h2, h3, h4⟩ := h
    refine List.forall_mem_cons.2 ⟨?_, areBytes_of_mem_cut4 h4⟩
    simp only [AreBytes, List.forall_mem_cons]
    exact ⟨h0, h1, h2, h3, List.forall_mem_nil _⟩
  | [], _ | [_], _ | [_, _], _ | [_, _, _], _ => List.forall_mem_nil _

theorem areBytes_of_mem_roundKeys (ha : AreBytes a) : ∀ w ∈ roundKeys a, AreBytes w := by
  refine List.forall_mem_map.2 fun r _ x hx => ?_
  obtain ⟨w, hw, hxw⟩ := List.mem_flatten.1 hx
  have hmem : w ∈ expand 52 8 1 (cut4 a).reverse := List.mem_reverse.1 (List.mem_of_mem_drop (List.mem_of_mem_take hw))
  exact areBytes_expand (by decide) (fun w h => areBytes_of_mem_cut4 ha w (List.mem_reverse.1 h)) w hmem x hxw

theorem areBytes_shiftRows (ha : AreBytes a) : AreBytes (shiftRows a) := by
  refine List.forall_mem_map.2 fun k _ => ?_
  rcases lt_or_ge (5 * k % 16) a.length with hk | hk
  · exact List.getD_eq_getElem _ _ hk ▸ ha _ (List.getElem_mem hk)
  · exact List.getD_eq_default _ _ hk ▸ Nat.zero_lt_succ _

theorem areBytes_block {rks : List (List Nat)} (h : ∀ w ∈ rks, AreBytes w) : AreBytes (block rks b) :=
  areBytes_xorBytes (areBytes_shiftRows areBytes_map_sub) (areBytes_getD h 14)

theorem beNat_eq_ofDigits : beNat a = Nat.ofDigits 256 a.reverse := by
  rw [Nat.ofDigits_eq_foldr, List.foldr_reverse]
  simp only [beNat, Nat.cast_id, Nat.add_comm]

theorem beNat_lt_of_areBytes (ha : AreBytes a) : beNat a < 256 ^ a.length := by
  rw [beNat_eq_ofDigits, ← List.length_reverse]
  exact Nat.ofDigits_lt_base_pow_length (by decide) fun x hx => ha x (List.mem_reverse.1 hx)

theorem beNat_tagOf_lt {key iv aad ct : List Nat} (hkey : AreBytes key) : beNat (tagOf key iv aad ct) < 2 ^ 128 := by
  have hbytes : AreBytes (tagOf key iv aad ct) := areBytes_xorBytes areBytes_beBytes (areBytes_block (areBytes_of_mem_roundKeys hkey))
  have hlen : (tagOf key iv aad ct).length ≤ 16 := by simp [tagOf, xorBytes, beBytes]
  calc beNat (tagOf key iv aad ct) < 256 ^ (tagOf key iv aad ct).length := beNat_lt_of_areBytes hbytes
    _ ≤ 256 ^ 16 := Nat.pow_le_pow_right (by decide) hlen
    _ = 2 ^ 128 := by decide

end
end Sys2Proof.Gcm
end

section
/-! ## Tenant keys: a repeated slot in the list of dump keys (R457) -/
namespace Sys2Proof.Machine

/-- Every offer opens some message of its kind and slot: the one that carries the tag of its ciphertext. -/
theorem KeyOffer.exists_unwrap (o : KeyOffer) (kind slot : Byte) :
    ∃ w : KeyWrapMsg, w.kind = kind ∧ w.slot = slot ∧ ∃ key, o.unwrap w = some key := by
  have hlt := Gcm.beNat_tagOf_lt (key := o.kek 0) (iv := List.replicate 12 0) (aad := Gcm.beBytes 96 o.signed)
    (ct := Gcm.beBytes 32 (0 : BitVec 256).toNat) Gcm.areBytes_beBytes
  exact ⟨⟨kind, slot, 0, 0, BitVec.ofNat 128 _⟩, rfl, rfl, _, if_pos (by rw [beq_iff_eq, BitVec.toNat_ofNat, Nat.mod_eq_of_lt hlt])⟩

/-- The offer of a weight key for slot 0 with the dump key 0. -/
def zeroOffer : KeyOffer := { kind := 1, ctx := 0, gen := 0, vcid := 0, slot := 0, dump := 0, nonce := 0, priv := 0, signed := 0 }

/-- The reset state with that offer in force, a session of the management network open, and slot 0 listed twice among the
dump keys: the canonical form (State.canon) says nothing of that list. -/
def twiceListed : State :=
  State.reset.modSec fun x => { x with spdm := [(true, 0, true)], offers := [zeroOffer], dumpKeys := [(0, 1), (0, 1)] }

theorem twiceListed_canon : twiceListed.canon = true := resetIsCanonical

theorem State.setSec_sec {s : State} {v : Nat} : (s.setSec v).sec = s.sec := by unfold State.setSec; split <;> rfl

/-- What the key of an offer leaves in the list of dump keys. -/
theorem State.installKey_dumpKeys {s : State} {o : KeyOffer} {key : Nat} (hkind : o.kind = 1) :
    (s.installKey o key).sec.dumpKeys = sset (fun _ => 0) s.sec.dumpKeys o.slot o.dump := by
  rw [State.installKey, if_pos hkind, State.setSec_sec]
  rfl

/-- Refutes O56: State.canon leaves the lists of the security unit free, so a canonical state may list the dump key of slot 0 twice;
the wrap of a zero dump key takes only the first entry out, and the slot's dump key reads as the second. -/
theorem not_tenantKeys : ¬ Obligations.TenantKeys := by
  intro h
  obtain ⟨w, hkind, hslot, key, hkey⟩ := zeroOffer.exists_unwrap 1 0
  obtain ⟨-, -, -, -, -, -, -, -, -, -, -, -, -, -, -, -, -, -, hwrap, -⟩ :=
    h true 0 0 0 { kind := 0, vcid := 0, nonce := 0, dump := 0 } w twiceListed (by decide)
  have hfind : (twiceListed.sec.offers.find? fun o => o.kind == w.kind.toNat && o.slot == w.slot.toNat) = some zeroOffer := by
    rw [hkind, hslot]; decide
  obtain ⟨-, hinstalled⟩ := (hwrap zeroOffer hfind (by decide)).1 key hkey
  obtain ⟨-, -, -, hdump⟩ := hinstalled rfl (by decide) twiceListed_canon
  rw [State.installKey_dumpKeys rfl] at hdump
  exact absurd hdump (by decide)

end Sys2Proof.Machine
end

section
/-! ## Fault records and their dirt leave the input sets of a load as they are (R311, R391) -/
namespace Sys2Proof.Machine
namespace State
variable {s t : State}

@[simp] theorem modCtx_loadSets (s : State) (c : Nat) (f : CtxX → CtxX) : (s.modCtx c f).rpl.loadSets = s.rpl.loadSets := rfl

theorem when_preserves {β : Type} {f : State → β} {b : Bool} {g : State → State} (hg : ∀ t, f (g t) = f t) : f (s.when b g) = f s := by
  cases b with
  | false => rfl
  | true => exact hg s

theorem when_rpl {b : Bool} {f : State → State} (hf : ∀ t, (f t).rpl = t.rpl) : (s.when b f).rpl = s.rpl := when_preserves hf

theorem when_loadSets {b : Bool} {f : State → State} (hf : ∀ t, (f t).rpl.loadSets = t.rpl.loadSets) :
    (s.when b f).rpl.loadSets = s.rpl.loadSets := when_preserves (f := fun t => t.rpl.loadSets) hf

theorem each_loadSets {α : Type} {l : List α} {f : State → α → State} (hf : ∀ t x, (f t x).rpl.loadSets = t.rpl.loadSets) :
    (s.each l f).rpl.loadSets = s.rpl.loadSets := each_keeps (f := fun t => t.rpl.loadSets) l hf

/-! ### Records of health and memory errors -/

@[simp] theorem writeCper_rpl (s : State) (c : Cper) : (s.writeCper c).rpl = s.rpl := by
  rw [writeCper, emit_rpl, when_rpl fun _ => mark_rpl .., modInt_rpl]

@[simp] theorem cper_rpl (s : State) (c : Cper) (temp : Option Int) (ctx : Option Nat) : (s.cper c temp ctx).rpl = s.rpl := by simp [cper]

@[simp] theorem setScore_rpl (s : State) (kind index v : Nat) : (s.setScore kind index v).rpl = s.rpl := by
  rw [setScore, when_rpl fun _ => (cper_rpl ..).trans (mark_rpl ..), when_rpl fun _ => mark_rpl .., modInt_rpl]

@[simp] theorem charge_rpl (s : State) (kind index n : Nat) : (s.charge kind index n).rpl = s.rpl := by simp [charge]

@[simp] theorem countCheck_rpl (s : State) (loc unitKind unit offset : Nat) (ctx : Option Nat) (opc : Nat) :
    (s.countCheck loc unitKind unit offset ctx opc).rpl = s.rpl := by
  rw [countCheck, cper_rpl, charge_rpl, when_rpl fun _ => (mark_rpl ..).trans (bump_rpl ..), mark_rpl, bump_rpl]

@[simp] theorem setByte_rpl (s : State) (a : Nat) (v : Byte) : (s.setByte a v).rpl = s.rpl := by
  unfold setByte
  split <;> rfl

@[simp] theorem setPa_rpl (s : State) (a : Nat) (v : Byte) : (s.setPa a v).rpl = s.rpl := by
  unfold setPa
  split <;> exact setByte_rpl ..

@[simp] theorem store_rpl (s : State) (w : List Host.Cell) : (s.store w).rpl = s.rpl :=
  each_keeps (f := State.rpl) w fun t c => by
    split
    · rfl
    · exact setPa_rpl ..

@[simp] theorem latchErr_rpl (s : State) (kind pa : Nat) (ctx : Option Nat) : (s.latchErr kind pa ctx).rpl = s.rpl := by
  unfold latchErr
  split
  · rfl
  · cases ctx <;> rfl

@[simp] theorem countUe_rpl (s : State) (pa : Nat) (ctx : Option Nat) : (s.countUe pa ctx).rpl = s.rpl := by
  unfold countUe
  split <;> simp

@[simp] theorem ueMemory_rpl (s : State) (pa : Nat) : (s.ueMemory pa).2.rpl = s.rpl := by
  unfold ueMemory
  split <;> rfl

@[simp] theorem noteUePage_loadSets (s : State) (c pa : Nat) : (s.noteUePage c pa).rpl.loadSets = s.rpl.loadSets := by
  unfold noteUePage
  split
  · rfl
  · split <;> rfl

@[simp] theorem consumeUe_loadSets (s : State) (pa : Nat) (ctx : Option Nat) : (s.consumeUe pa ctx).2.rpl.loadSets = s.rpl.loadSets := by
  cases ctx <;> simp [consumeUe, chargeNoted]

/-! ### Fault records and dirt (R311, R425–R428) -/

@[simp] theorem flogWrite_rpl (s : State) (r : FaultRec) : (s.flogWrite r).rpl = s.rpl := by
  unfold flogWrite
  split
  · rfl
  split
  · rfl
  · extract_lets s1 s2
    have hwritten : s2.rpl = s.rpl := by simp [s2, s1, hostStore]
    split <;> simp [msix, hwritten]

@[simp] theorem logRec_rpl (s : State) (r : FaultRec) : (s.logRec r).rpl = s.rpl := by
  unfold logRec
  dsimp only
  split
  · rfl
  · exact flogWrite_rpl ..

@[simp] theorem dirty_loadSets (s : State) (c b : Nat) : (s.dirty c b).rpl.loadSets = s.rpl.loadSets := by
  unfold dirty
  split
  · rfl
  split
  · rfl
  split <;> rfl

@[simp] theorem ueRecord_loadSets (s : State) (p : PartyRec) (unitKind unit pa : Nat) :
    (s.ueRecord p unitKind unit pa).rpl.loadSets = s.rpl.loadSets := by simp [ueRecord]

@[simp] theorem hubFault_loadSets (s : State) (p : PartyRec) (kind code : Nat) (detail : List (Nat × Nat)) :
    (s.hubFault p kind code detail).rpl.loadSets = s.rpl.loadSets := by simp [hubFault]

/-! ### Writes of the hub's units (R397, R402) -/

@[simp] theorem setDirtyBit_loadSets (s : State) (g : Nat) : (s.setDirtyBit g).rpl.loadSets = s.rpl.loadSets := by
  unfold setDirtyBit
  dsimp only
  split
  · exact ueRecord_loadSets ..
  · rw [setByte_rpl]

theorem preImage_loadSets {w : Writer} {pa va : Nat} {ckpt pre : Option Nat} (h : s.preImage w pa va ckpt pre = .go t) :
    t.rpl.loadSets = s.rpl.loadSets := by
  unfold preImage at h
  split at h
  · cases h
  split at h
  · cases h
  · cases h
    exact when_loadSets fun _ => rfl

theorem touchPage_loadSets {w : Writer} {pa : Nat} (h : s.touchPage w pa = .go t) : t.rpl.loadSets = s.rpl.loadSets := by
  unfold touchPage at h
  split at h
  · cases h
    rfl
  split at h
  · cases h
    exact setDirtyBit_loadSets ..
  split at h
  · next hpre =>
    cases h
    exact (setDirtyBit_loadSets ..).trans (preImage_loadSets hpre)
  · next hpre => exact absurd h (hpre t)

theorem touchPages_loadSets {w : Writer} {l : List Nat} (h : s.touchPages w l = .go t) : t.rpl.loadSets = s.rpl.loadSets := by
  induction l generalizing s with
  | nil =>
    cases h
    rfl
  | cons pa l ih =>
    unfold touchPages at h
    split at h
    · next hpa => exact (ih h).trans (touchPage_loadSets hpa)
    · next hpa => exact absurd h (hpa t)

theorem hubStore_loadSets (s : State) (h : HeldWrite) (e : MemErr) : (s.hubStore h e).1.rpl.loadSets = s.rpl.loadSets := by
  unfold hubStore
  dsimp only
  split
  · simp
  split
  · simp
  split
  · simp
  · rfl
  · next htouch =>
    have hkept := touchPages_loadSets htouch
    split <;> simp [hkept]

@[simp] theorem hubWrite_loadSets (s : State) (h : HeldWrite) (e : MemErr) : (s.hubWrite h e).rpl.loadSets = s.rpl.loadSets := by
  have hstore := hubStore_loadSets s h e
  unfold hubWrite
  dsimp only
  split
  · rfl
  split
  · next hdone => rwa [hdone] at hstore
  · next hheld =>
    rw [hheld] at hstore
    exact hstore

@[simp] theorem ringWrite_loadSets (s : State) (r addr : Nat) (bs : List Byte) (e : MemErr) :
    (s.ringWrite r addr bs e).rpl.loadSets = s.rpl.loadSets := by
  unfold ringWrite
  split
  · dsimp only
    split
    · split <;> simp
    · exact hubWrite_loadSets ..
  · rfl

/-! ### Ends of operations (R190, R423) -/

@[simp] theorem recordOp_loadSets (s : State) (o : Op) (status code : Nat) (e : MemErr) :
    (s.recordOp o status code e).rpl.loadSets = s.rpl.loadSets := by
  unfold recordOp
  extract_lets x n phase s1 fresh s2 s3
  have hdone : s2.rpl.loadSets = s.rpl.loadSets := by simp [s2, s1]
  split
  · have hcb : s3.rpl.loadSets = s.rpl.loadSets := by simp [s3, writeCb, hdone]
    split <;> simp [msix, hcb]
  · exact hdone

theorem flushFin_loadSets (n : Nat) (s : State) (r : Nat) : (flushFin n s r).rpl.loadSets = s.rpl.loadSets := by
  induction n generalizing s with
  | zero => rfl
  | succ n ih =>
    unfold flushFin
    split
    · rfl
    split
    · rfl
    split
    · rfl
    · exact (ih _).trans (recordOp_loadSets ..)

theorem endSeq_rpl (s : State) (p tile : Nat) : (s.endSeq p tile).rpl = s.rpl := by
  unfold endSeq
  split
  · rfl
  dsimp only
  split
  · rfl
  split
  · rfl
  · simp [teeOut]

@[simp] theorem endSeqs_rpl (s : State) (p : Nat) : (s.endSeqs p).rpl = s.rpl := each_keeps (f := State.rpl) _ fun _ _ => endSeq_rpl ..

@[simp] theorem dropCoreWait_rpl (s : State) (c : Nat) : (s.dropCoreWait c).rpl = s.rpl := by
  unfold dropCoreWait
  split
  · split <;> rfl
  · rfl

theorem stopCores_rpl (s : State) (o : Op) : (s.stopCores o).rpl = s.rpl :=
  each_keeps (f := State.rpl) _ fun _ _ => by simp

theorem mirrorStale_rpl (s : State) : s.mirrorStale.rpl = s.rpl := by
  unfold mirrorStale
  split <;> rfl

@[simp] theorem endQuiet_loadSets (s : State) (o : Op) (status code : Nat) : (s.endQuiet o status code).rpl.loadSets = s.rpl.loadSets := by
  unfold endQuiet
  extract_lets s1 syn s2 s3 s4 s5
  have hstopped : s2.rpl = s.rpl := stopCores_rpl s o
  have hrecorded : s3.rpl.loadSets = s2.rpl.loadSets := (recordOp_loadSets ..).trans (flushFin_loadSets ..)
  have hcounted : s4.rpl.loadSets = s3.rpl.loadSets := when_loadSets fun _ => rfl
  have hstale : s5.rpl.loadSets = s4.rpl.loadSets := when_loadSets fun _ => by rw [mirrorStale_rpl]
  rw [when_loadSets fun t => dirty_loadSets t o.ctx 1, hstale, hcounted, hrecorded, hstopped]

/-! ### Broken barriers, and records with their dirt (R228, R311) -/

@[simp] theorem failArrival_loadSets (s : State) (o : Op) : (s.failArrival o).rpl.loadSets = s.rpl.loadSets := by
  unfold failArrival
  split
  · rfl
  · exact (when_loadSets (f := fun t => t.discardNext o.ctx) fun _ => rfl).trans (endQuiet_loadSets ..)

theorem svcOut_rpl (s : State) (p : Nat) (m : SvcBody) (hops : Nat) : (s.svcOut p m hops).rpl = s.rpl := by
  simp only [svcOut, modPort_rpl]
  split <;> rfl

theorem barSend_rpl (s : State) (p : Nat) (m : SyncMsg) : (s.barSend p m).rpl = s.rpl := by
  unfold barSend
  split
  · exact svcOut_rpl ..
  · rfl

theorem breakOnly_loadSets (s : State) (obj c vid : Nat) (origin : Option Nat) (past : Bool) :
    (s.breakOnly obj c vid origin past).rpl.loadSets = s.rpl.loadSets := by
  unfold breakOnly
  extract_lets b failed _ _ s1 s2 s3 s4
  have hsent : s2.rpl.loadSets = s1.rpl.loadSets := each_loadSets fun _ _ => by rw [barSend_rpl]
  have hmarked : s3.rpl.loadSets = s2.rpl.loadSets := when_loadSets fun _ => rfl
  have hlogged : s4.rpl.loadSets = s3.rpl.loadSets := each_loadSets fun _ _ => by rw [bump_rpl, logRec_rpl]
  exact (each_loadSets failArrival_loadSets).trans (hlogged.trans (hmarked.trans hsent))

theorem sendBreaks_loadSets (n : Nat) (s : State) : (sendBreaks n s).rpl.loadSets = s.rpl.loadSets := by
  induction n generalizing s with
  | zero => rfl
  | succ n ih =>
    unfold sendBreaks
    split
    · rfl
    · exact (ih _).trans (breakOnly_loadSets ..)

theorem cause_loadSets (s : State) (c b : Nat) : (s.cause c b).rpl.loadSets = s.rpl.loadSets :=
  (sendBreaks_loadSets 64 _).trans (dirty_loadSets ..)

@[simp] theorem raise_loadSets (s : State) (r : FaultRec) : (s.raise r).rpl.loadSets = s.rpl.loadSets :=
  (each_loadSets fun t c => each_loadSets (s := t) (l := causeBits r.code) fun u => cause_loadSets u c).trans
    (congrArg RplSt.loadSets (logRec_rpl ..))

/-! ### Failures of the engines (R394) -/

theorem restoreFails_loadSets (s : State) (c code : Nat) (detail : List (Nat × Nat)) :
    (s.restoreFails c code detail).rpl.loadSets = s.rpl.loadSets := raise_loadSets ..

theorem daybreakFails_loadSets (s : State) (c code : Nat) (detail : List (Nat × Nat)) :
    (s.daybreakFails c code detail).rpl.loadSets = s.rpl.loadSets := by
  unfold daybreakFails
  dsimp only
  split
  · exact restoreFails_loadSets ..
  · exact raise_loadSets ..

end State
end Sys2Proof.Machine
end

section
/-! ## The Daybreak load (R391–R393) -/
namespace Sys2Proof.Machine
namespace State
variable {s : State} {c : Nat}

/-! ### What the load engine has on its way -/

theorem xfersOf_dropEngine (w : Owner) : (s.dropEngine w).xfersOf w = [] := by
  refine List.filter_eq_nil_iff.2 (List.forall_mem_map.2 fun x _ => ?_)
  cases howner : x.owner == w <;> simp [howner]

theorem xfersDone_dropEngine (w : Owner) : (s.dropEngine w).xfersDone w = true := by
  rw [xfersDone, xfersOf_dropEngine, List.all_nil]

/-- A page just asked for has not been delivered. -/
theorem xfersDone_readPage (w : Owner) (va : Nat) : (s.readPage w va).xfersDone w = false := by
  refine List.all_eq_false.2 ?_
  refine ⟨_, List.mem_filter.2 ⟨List.mem_map.2 ⟨_, List.mem_append_right _ (List.mem_singleton_self _), rfl⟩, ?_⟩, ?_⟩ <;> simp

theorem readPages_nil (w : Owner) : s.readPages w [] = s := rfl

theorem readPages_of_route {w : Owner} {vas : List Nat} (hroute : routeValid (s.route (s.get Reg.RPL_MIR_PARTNER_MODULE)) = true) :
    s.readPages w vas = s.each vas fun t va => t.readPage w va := if_pos (by rw [hroute, Bool.or_true])

theorem readPages_loadSets (vas : List Nat) : (s.readPages (loadEngine c) vas).rpl.loadSets = s.rpl.loadSets := by
  unfold readPages
  split
  · exact each_loadSets fun _ _ => rfl
  · exact daybreakFails_loadSets ..

/-! ### The load engine's steps -/

theorem engineStep_load_rpl : (s.engineStep (loadEngine c)).rpl = s.rpl := by
  rw [engineStep, if_pos (show (loadEngine c).idx = 1 from rfl)]
  dsimp only
  split <;> rfl

section
variable (hc : s.canon = true) (hstate : s.get Reg.RPL_DAYBREAK_STATUS_STATE = 1)
include hc hstate

theorem engineStep_load_of_done (hdone : s.xfersDone (loadEngine c) = true) :
    (s.engineStep (loadEngine c)).get Reg.RPL_DAYBREAK_STATUS_STATE = 2 := by
  rw [engineStep, if_pos (show (loadEngine c).idx = 1 from rfl), hdone, hstate]
  exact get_put_same (canon_congr (put_canon hc _ _) rfl rfl rfl rfl) 2 (by decide)

theorem engineStep_load_of_open (hopen : s.xfersDone (loadEngine c) = false) :
    (s.engineStep (loadEngine c)).get Reg.RPL_DAYBREAK_STATUS_STATE = 1 := by
  rw [engineStep, if_pos (show (loadEngine c).idx = 1 from rfl), hopen]
  exact (get_put_disjoint hc _ (by decide) (by decide)).trans hstate
end

/-! ### A load that the partner's state admits (R391) -/

/-- The load in place of a restore, before it reads its first page. -/
def loadBegun (s : State) (a : PartnerState) : State :=
  let asked := ((({ s with rpl := { s.rpl with loadCtx := s.stepSel } } : State).mark Reg.RPL_CKPT_STATUS_FULL_NEXT).put
    Reg.RPL_DAYBREAK_STATUS_PAGES 0).emit (.query (s.get Reg.RPL_MIR_PARTNER_MODULE))
  let begun := ((asked.put Reg.RPL_DAYBREAK_STATUS_STATE 1).mark Reg.RPL_DAYBREAK_CTRL_LOAD).modInt fun x => { x with admitRun := none }
  { begun with rpl := { begun.rpl with loadSets := a.sets.map GuestSlot.inSet } }

/-- The engines that a load starts anew have nothing on their way. -/
def loadReady (s : State) (a : PartnerState) : State :=
  ((s.loadBegun a).dropEngine (restoreEngine s.stepSel)).dropEngine (loadEngine s.stepSel)

variable {a : PartnerState}

theorem loadReady_loadSets : (s.loadReady a).rpl.loadSets = a.sets.map GuestSlot.inSet := rfl

theorem loadReady_routes : (s.loadReady a).fab.routes = s.fab.routes := rfl

section
variable (hc : s.canon = true)
include hc

theorem loadReady_canon : (s.loadReady a).canon = true :=
  canon_congr (put_canon (put_canon (put_canon (put_canon hc _ _) _ _) _ _) _ _) rfl rfl rfl rfl

/-- A load begins in its own three registers. -/
theorem loadReady_get {f : Reg.Fld} (hckpt : f.reg ≠ Reg.RPL_CKPT_STATUS) (hstatus : f.reg ≠ Reg.RPL_DAYBREAK_STATUS)
    (hctrl : f.reg ≠ Reg.RPL_DAYBREAK_CTRL) : (s.loadReady a).get f = s.get f := by
  have hmarked := put_canon hc Reg.RPL_CKPT_STATUS_FULL_NEXT 1
  have hpages := put_canon hmarked Reg.RPL_DAYBREAK_STATUS_PAGES 0
  calc (s.loadReady a).get f
      = ((((s.mark Reg.RPL_CKPT_STATUS_FULL_NEXT).put Reg.RPL_DAYBREAK_STATUS_PAGES 0).put Reg.RPL_DAYBREAK_STATUS_STATE 1).mark
          Reg.RPL_DAYBREAK_CTRL_LOAD).get f := rfl
    _ = (((s.mark Reg.RPL_CKPT_STATUS_FULL_NEXT).put Reg.RPL_DAYBREAK_STATUS_PAGES 0).put Reg.RPL_DAYBREAK_STATUS_STATE 1).get f :=
        get_put_ne (put_canon hpages _ _) _ hctrl
    _ = ((s.mark Reg.RPL_CKPT_STATUS_FULL_NEXT).put Reg.RPL_DAYBREAK_STATUS_PAGES 0).get f := get_put_ne hpages _ hstatus
    _ = (s.mark Reg.RPL_CKPT_STATUS_FULL_NEXT).get f := get_put_ne hmarked _ hstatus
    _ = s.get f := get_put_ne hc _ hckpt

theorem loadReady_state : (s.loadReady a).get Reg.RPL_DAYBREAK_STATUS_STATE = 1 := by
  have hpages := put_canon (put_canon hc Reg.RPL_CKPT_STATUS_FULL_NEXT 1) Reg.RPL_DAYBREAK_STATUS_PAGES 0
  have hstate := get_put_same hpages (f := Reg.RPL_DAYBREAK_STATUS_STATE) 1 (by decide)
  exact (get_put_ne (f := Reg.RPL_DAYBREAK_CTRL_LOAD) (put_canon hpages _ _) 1 (by decide)).trans hstate

/-- The protection range table and its poison are as before. -/
theorem loadBegun_protPoison : (s.loadBegun a).protPoison = s.protPoison := by
  have hget (f : Reg.Fld) (h0 : f.reg ≠ Reg.RPL_CKPT_STATUS) (h1 : f.reg ≠ Reg.RPL_DAYBREAK_STATUS) (h2 : f.reg ≠ Reg.RPL_DAYBREAK_CTRL) :
      (s.loadBegun a).get f = s.get f := loadReady_get (a := a) hc h0 h1 h2
  have hpoison : (s.loadBegun a).poison = s.poison := rfl
  unfold protPoison on
  dsimp only
  rw [hpoison, hget _ (show Reg.RPL_PROT_BASE_LO_VALID.reg ≠ _ by decide) (by decide) (by decide),
    hget _ (show Reg.RPL_PROT_BASE_LO_PA_LO.reg ≠ _ by decide) (by decide) (by decide),
    hget _ (show Reg.RPL_PROT_BASE_HI_PA_HI.reg ≠ _ by decide) (by decide) (by decide),
    hget _ (show Reg.RPL_PROT_BASE_HI_COUNT.reg ≠ _ by decide) (by decide) (by decide)]

theorem writeDaybreak_of_admitted {v : Nat} (hv : bitOn v 0 = true)
    (hidle : s.get Reg.RPL_DAYBREAK_STATUS_STATE = 0 ∨ s.get Reg.RPL_DAYBREAK_STATUS_STATE = 4 ∨ s.get Reg.RPL_DAYBREAK_STATUS_STATE = 5)
    (hplace : s.get (Reg.RPL_REPLAY_STATUS_STATE s.stepSel) = 2) (hstep : a.lastStep.toNat = s.get Reg.RPL_SET_STEP_STEP)
    (hpartner : a.state = 1) (hclean : s.protPoison = none) :
    s.writeDaybreak v (some a) = ((s.loadReady a).readPages (loadEngine s.stepSel) s.mirrorPages).engineStep (loadEngine s.stepSel) := by
  have hidle' : (s.get Reg.RPL_DAYBREAK_STATUS_STATE == 0 || s.get Reg.RPL_DAYBREAK_STATUS_STATE == 4
      || s.get Reg.RPL_DAYBREAK_STATUS_STATE == 5) = true := by simpa only [Bool.or_eq_true, beq_iff_eq, or_assoc] using hidle
  have hclean' : (s.loadBegun a).protPoison = none := (loadBegun_protPoison hc).trans hclean
  simp only [writeDaybreak, hv, hidle', hplace, hstep, hpartner, bne_self_eq_false, beq_self_eq_true, Bool.true_or, Bool.not_true,
    Bool.or_self, Bool.false_eq_true, if_false, if_true]
  change (match (s.loadBegun a).protPoison with | some pa => _ | none => _) = _
  rw [hclean']
  rfl
end

theorem writeDaybreak_of_not_admitted {v : Nat} {ans : Option PartnerState} (hplace : s.get (Reg.RPL_REPLAY_STATUS_STATE s.stepSel) ≠ 2)
    (hmay : s.mayAdmit = false) : s.writeDaybreak v ans = s := by
  simp [writeDaybreak, hplace, hmay]

/-! ### The end of a load -/

theorem daybreakTail_of_read {u : State} (hstate : s.get Reg.RPL_DAYBREAK_STATUS_STATE = 2) (hclean : s.protPoison = none)
    (htouch : s.touchPages (.engine (64 + s.rpl.loadCtx))
      (((s.protRanges.filter fun x => x.source == 1).flatMap (·.vas)).filterMap fun va => s.pageOf s.rpl.loadCtx va) = .go u) :
    s.daybreakTail = (s.masterPages.foldl (fun (x : State) va => x.rebuildPage s.rpl.loadCtx va) u).readSets s.rpl.loadCtx := by
  simp only [daybreakTail, hstate, hclean, htouch, bne_self_eq_false, Bool.false_eq_true, if_false]

/-- Without a set to read the ring is empty, and the inputs count as read. -/
theorem readSets_of_none (hnone : s.rpl.loadSets = []) :
    s.readSets c = { s.put Reg.RPL_DAYBREAK_STATUS_STATE 3 with rpl := { s.rpl with sets := [], loadSets := [] } } := by
  simp only [readSets, hnone, List.flatMap_nil, List.map_nil, List.isEmpty_nil, if_true]
  split <;> rfl

end State

theorem execDaybreakDone_of_early {s : State} (hstate : s.get Reg.RPL_DAYBREAK_STATUS_STATE ≠ 3) : execDaybreakDone s = .next s := by
  simp [execDaybreakDone, hstate]

section
variable {s : State} (hstate : s.get Reg.RPL_DAYBREAK_STATUS_STATE = 3) (hitems : s.integ.admitRun = none)
  (hread : s.xfersOf (loadEngine s.rpl.loadCtx) = [])
include hstate hitems hread

theorem execDaybreakDone_in_place_of_drained (hplace : s.get (Reg.RPL_REPLAY_STATUS_STATE s.rpl.loadCtx) = 2)
    (hdrained : s.ringsDrained s.rpl.loadCtx = true) : execDaybreakDone s = .next ((((s.put Reg.RPL_DAYBREAK_STATUS_STATE 4).put
      Reg.RPL_DAYBREAK_CTRL_LOAD 0).mark Reg.RPL_REPLAY_EVENT_DAYBREAK_DONE).restoreDone s.rpl.loadCtx) := by
  simp [execDaybreakDone, State.when, hstate, hitems, hread, hplace, hdrained]

theorem execDaybreakDone_in_place_of_undrained (hplace : s.get (Reg.RPL_REPLAY_STATUS_STATE s.rpl.loadCtx) = 2)
    (hfull : s.ringsDrained s.rpl.loadCtx = false) : execDaybreakDone s = .next s := by
  simp [execDaybreakDone, hstate, hitems, hread, hplace, hfull]

theorem execDaybreakDone_of_spare (hplace : s.get (Reg.RPL_REPLAY_STATUS_STATE s.rpl.loadCtx) ≠ 2) :
    let done := ((s.put Reg.RPL_DAYBREAK_STATUS_STATE 4).put Reg.RPL_DAYBREAK_CTRL_LOAD 0).mark Reg.RPL_REPLAY_EVENT_DAYBREAK_DONE
    execDaybreakDone s = .next
      (({ done.mirrorStale with rpl := { done.mirrorStale.rpl with admitted := true } } : State).restoreDone s.rpl.loadCtx) := by
  simp [execDaybreakDone, State.when, hstate, hitems, hread, hplace]
end

end Sys2Proof.Machine
end

section
/-! ## The fence of a cluster, and the checkpoint's commands (R387, R398–R417) -/
namespace Sys2Proof.Machine

section
variable {v : Word} {s : State}

/-! ### The fence (R387) -/

theorem State.writeFence_of_mapped {n d k : Nat} (hgo : bitOn n 31 = true) (hd : bitsOf n 0 2 = d) (hk : bitsOf n 2 4 = k)
    (hfree : s.clusterUser d 8 = none) (hle : k ≤ 7) (huser : (s.clusterUser d k).isSome = true) :
    s.writeFence n = ((s.put Reg.RPL_CL_FENCE_DIE d).put Reg.RPL_CL_FENCE_CLUSTER k).mark Reg.RPL_CL_FENCE_PENDING := by
  subst hd hk
  simp [State.writeFence, hgo, hfree, Nat.not_lt.2 hle, Option.isSome_iff_ne_none.1 huser]

theorem State.writeFence_of_spare_used {n d : Nat} (hgo : bitOn n 31 = true) (hd : bitsOf n 0 2 = d)
    (hused : (s.clusterUser d 8).isSome = true) (hquiet : s.on Reg.HRC_ESC_STATUS_FENCE_REQ = false) :
    s.writeFence n = s.mark Reg.RPL_REPLAY_EVENT_FENCE_REFUSED := by
  subst hd
  simp [State.writeFence, hgo, hused, hquiet]

/-! ### Commands of firmware (R398, R406, R412, R417) -/

theorem State.writeCkptCtrl_arm :
    s.writeCkptCtrl 1 = ((s.put Reg.RPL_CKPT_CTRL_FORCE_FULL 0).mark Reg.RPL_CKPT_CTRL_ARM).mark Reg.RPL_CKPT_STATUS_ARMED := rfl

theorem State.writeCkptCtrl_cancel : s.writeCkptCtrl 2 = (s.put Reg.RPL_CKPT_CTRL_FORCE_FULL 0).ckptCancel := rfl

theorem State.writeCkptCtrl_restore : s.writeCkptCtrl 8 = (s.put Reg.RPL_CKPT_CTRL_FORCE_FULL 0).startRestore := rfl

theorem State.ckptCancel_of_restoring (hstate : s.ckptState = 4 ∨ s.ckptState = 5) :
    s.ckptCancel = (s.ckptDisarm.dropOutbox.setCkpt 0).put Reg.RPL_CKPT_CTRL_RESTORE 0 := by
  have hcopying : s.ckptState ≠ 1 := by omega
  simp [State.ckptCancel, hstate, hcopying]

/-- A target newly enabled starts with an empty ring. -/
theorem State.writeTgtCfg_of_enabled {n : Nat} (hn : bitOn n 0 = true) (hw : s.ckptWritable = true)
    (hoff : s.on Reg.RPL_CKPT_TGT_CFG_ENABLE = false) :
    (s.writeTgtCfg n).ckp.pi = 0 ∧ (s.writeTgtCfg n).ckp.ci = 0 ∧ (s.writeTgtCfg n).mem = s.mem ∧ (s.writeTgtCfg n).sub = s.sub := by
  simp only [State.writeTgtCfg, hw, hn, hoff, State.when, Bool.not_true, Bool.not_false, Bool.and_self, Bool.false_eq_true, if_false, if_true]
  split <;> exact ⟨rfl, rfl, rfl, rfl⟩

/-! ### The copy (R401, R404–R406) -/

theorem State.ckptReady_iff : s.ckptReady = true ↔
    s.ckptState = 1 ∧ s.on Reg.RPL_CKPT_TGT_CFG_ENABLE = true ∧ s.tgtFull = false ∧ s.tgtIdle = true := by
  simp only [State.ckptReady, Bool.and_eq_true, beq_iff_eq, Bool.not_eq_true', and_assoc]

section
variable {e : MemErr} (hready : s.ckptReady = true)
include hready

theorem execCkptPageCopy_of_failed {code : Byte} (hhost : s.tgtRemote = false) :
    execCkptPageCopy e (some code) s = .next (s.targetFails code.toNat) := by
  simp [execCkptPageCopy, hready, hhost, Option.filter]

theorem execCkptPageCopy_of_poison {pa : Nat} (hpoison : s.ckptTabPoison = some pa) :
    execCkptPageCopy e none s = .next (s.ckptUe pa) := by
  simp [execCkptPageCopy, hready, hpoison]

section
variable (hclean : s.ckptTabPoison = none)
include hclean

theorem execCkptPageCopy_of_range {x : CkptRange} (hrange : s.ckptRanges[s.ckp.rangesSent]? = some x) :
    execCkptPageCopy e none s = .next
      ((s.sendRecord none (s.rangeRecord s.ckp.rangesSent x)).modCkp fun y => { y with rangesSent := y.rangesSent + 1 }) := by
  simp [execCkptPageCopy, hready, hclean, hrange]

theorem execCkptPageCopy_of_page {g : Nat} (hsent : s.ckptRanges[s.ckp.rangesSent]? = none) (hpage : s.nextPage = some g) :
    execCkptPageCopy e none s = .next (s.copyOne g e) := by
  simp [execCkptPageCopy, hready, hclean, hsent, hpage]

/-- With every page done the END record leaves. -/
theorem execCkptDone_of_clean (hpages : s.ckp.pending = []) (hranges : s.ckptRanges.length ≤ s.ckp.rangesSent)
    (hdigests : s.poisonIn (s.digAt 0) (16 * s.ckptPages.length) = none) :
    let t := s.sendRecord none (s.ckptRecord 3 (b2n (s.on Reg.RPL_CKPT_STATUS_FULL)) s.ckptRanges.length s.ckp.cutPrev
      (digestBytes (digestOf ((List.range s.ckptPages.length).map s.digEntry))) (leBytes 4 (s.get Reg.RPL_CKPT_COPIED_PAGES)))
    execCkptDone none s = .next (if s.tgtRemote then t.modCkp fun y => { y with endSent := true } else t.ckptComplete) := by
  simp [execCkptDone, hready, hclean, hpages, Nat.not_lt.2 hranges, hdigests]
end
end

theorem execCkptTargetStall_of_full (hcopying : s.ckptState = 1) (hfull : s.tgtFull = true)
    (hlimit : 2048 * s.get Reg.RPL_CKPT_TGT_CFG_TGT_LIMIT ≤ s.ckp.ciSame) : execCkptTargetStall s = .next s.ckptFailsFree := by
  simp [execCkptTargetStall, hcopying, hfull, Nat.not_lt.2 hlimit]

/-! ### The restore of a chain (R412–R415) -/

section
variable (hrestoring : s.ckptState = 4) (hclean : s.ckptTabPoison = none)
include hrestoring hclean

theorem execRestoreRecord_of_restoring (rec : BitVec 512) (page : List Byte) : execRestoreRecord rec page s = .next
    (((s.chainRec (ckptRec rec) (fullPage page)).modCkp fun y => { y with
      ci := mod32 (y.ci + 1), restore := { y.restore with lastSeq := (ckptRec rec).seq } }).tgtWrite 8 (leBytes 4 (s.ckp.ci + 1))).tgtSend := by
  simp only [execRestoreRecord, hrestoring, hclean, bne_self_eq_false, Bool.false_eq_true, if_false]

variable {a : Nat} {b : Nat × Nat} (hprot : s.protPoison = none) (hends : s.endsOk = true)
  (hranges : s.ckp.restore.ranges = s.ckptRanges.length) (hpages : s.ckp.restore.written.length = s.ckptPages.length)
  (hlast : s.ckp.restore.ends.getLast? = some (a, b))
include hprot hends hranges hpages hlast

theorem execCkptRestoreDone_of_wrong_digest
    (hwrong : b ≠ digestOf ((List.range s.ckptPages.length).map fun g => (sget (fun _ => none) s.ckp.restore.written g).getD (0, 0))) :
    execCkptRestoreDone s = .next (s.chainFails s.ckp.restore.lastSeq fDigestMismatch [(2, 0xFFFF), (1, 3)]) := by
  simp [execCkptRestoreDone, hrestoring, hclean, hprot, hends, hranges, hpages, hlast, hwrong]

theorem execCkptRestoreDone_of_digest :
    let hs := (List.range s.ckptPages.length).map fun g => (sget (fun _ => none) s.ckp.restore.written g).getD (0, 0)
    let n := s.ckptPages.length
    let built := s.masterPages.foldl (fun (x : State) va => x.rebuildPage s.ckptCtx va) s
    let table := built.storeAt (built.digAt 0) (hs.flatMap digestBytes)
    let clear := (table.zeroMem (table.bitmapBase 0) (table.bitmapBase 0 + ceilDiv n 8)).zeroMem (table.bitmapBase 1) (table.bitmapBase 1 + ceilDiv n 8)
    b = digestOf hs → execCkptRestoreDone s = .next ((((((clear.put Reg.RPL_CKPT_PREV_EPOCH a).put Reg.RPL_CKPT_PREV_VALID 1).mark
      Reg.RPL_CKPT_STATUS_FULL_NEXT).setCkpt 6).mark Reg.RPL_CKPT_EVENT_RESTORE_DONE).put Reg.RPL_CKPT_CTRL_RESTORE 0) := by
  intro hs n built table clear hb
  have hfold : digestOf ((List.range s.ckptPages.length).map fun g => (sget (fun _ => none) s.ckp.restore.written g).getD (0, 0)) = b := hb.symm
  simp only [execCkptRestoreDone, hrestoring, hclean, hprot, hends, hranges, hpages, hlast, hfold, Option.or_none, Option.map_some,
    Option.getD_some, bne_self_eq_false, Bool.not_true, Bool.false_eq_true, if_false]
  rfl
end
end

/-! ### The obligation -/

/-- Settles O52: each command by the lemma about its case. That LOAD and RESTORE clear at their end, what ends a stalled target and a
failed END, and the operand of the partner's answer are the model's choices (log entries 48, 67, 131), not the manual's. -/
theorem fenceDaybreakCheckpoint : Obligations.FenceDaybreakCheckpoint := by
  intro v ans e rec page s d k t0
  have hbit (i : Nat) : bitOn v.toNat i = v.getLsbD i := bitOn_toNat v i
  have hdie : bitsOf v.toNat 0 2 = d := bitsOf_zero_lo ..
  refine ⟨fun hgo hfree hk huser => congrArg Host.Outcome.next (State.writeFence_of_mapped ((hbit 31).trans hgo) hdie rfl hfree hk huser),
    fun hgo hused hquiet => congrArg Host.Outcome.next (State.writeFence_of_spare_used ((hbit 31).trans hgo) hdie hused hquiet), rfl, ?load,
    fun hplace hmay => State.writeDaybreak_of_not_admitted hplace hmay, fun u => State.daybreakTail_of_read, ?sets, ?done,
    fun hstate => execDaybreakDone_of_early (by omega), ?arm, ?cancel, State.ckptCancel_of_restoring, ?restore, ?target, State.ckptReady_iff,
    ?copy, execCkptTargetStall_of_full, fun hstate hclean => execRestoreRecord_of_restoring hstate hclean rec page, ?chain⟩
  case load =>
    intro a hc hans hgo hidle hplace hstep hpartner hclean
    subst hans
    rw [State.writeDaybreak_of_admitted hc ((hbit 0).trans hgo) hidle hplace hstep hpartner hclean]
    have hready := State.loadReady_canon (a := a) hc
    have hone := State.loadReady_state (a := a) hc
    refine ⟨?_, fun hnone => ?_, fun va hva hroute => ?_⟩
    · rw [State.engineStep_load_rpl, State.readPages_loadSets, State.loadReady_loadSets]
    · rw [hnone, State.readPages_nil]
      exact State.engineStep_load_of_done hready hone (State.xfersDone_dropEngine _)
    · have hpartner : (s.loadReady a).get Reg.RPL_MIR_PARTNER_MODULE = s.get Reg.RPL_MIR_PARTNER_MODULE :=
        State.loadReady_get hc (by decide) (by decide) (by decide)
      rw [hva, State.readPages_of_route (by rwa [hpartner, State.route, State.loadReady_routes])]
      exact State.engineStep_load_of_open (State.readPage_canon hready ..) hone (State.xfersDone_readPage ..)
  case sets =>
    intro hc hnone
    rw [State.readSets_of_none hnone]
    exact ⟨State.get_put_same hc 3 (by decide), rfl⟩
  case done =>
    intro hstate hitems hread
    exact ⟨execDaybreakDone_in_place_of_drained hstate hitems hread, execDaybreakDone_in_place_of_undrained hstate hitems hread,
      execDaybreakDone_of_spare hstate hitems hread⟩
  case arm => exact fun hv => congrArg Host.Outcome.next ((congrArg s.writeCkptCtrl hv).trans State.writeCkptCtrl_arm)
  case cancel => exact fun hv => congrArg Host.Outcome.next ((congrArg s.writeCkptCtrl hv).trans State.writeCkptCtrl_cancel)
  case restore => exact fun hv => congrArg Host.Outcome.next ((congrArg s.writeCkptCtrl hv).trans State.writeCkptCtrl_restore)
  case target => exact fun hgo hw hoff => ⟨_, rfl, State.writeTgtCfg_of_enabled ((hbit 0).trans hgo) hw hoff⟩
  case copy =>
    refine fun hready => ⟨fun x hclean => execCkptPageCopy_of_range hready hclean, fun pa => execCkptPageCopy_of_poison hready,
      fun g hclean => execCkptPageCopy_of_page hready hclean, fun code => execCkptPageCopy_of_failed hready, ?_⟩
    intro hpages hranges hclean hdigests t
    have hdone := execCkptDone_of_clean hready hclean hpages hranges hdigests
    exact ⟨fun hhost => hdone.trans (by rw [hhost]; rfl), fun hremote => hdone.trans (by rw [hremote]; rfl)⟩
  case chain =>
    intro a b hstate hclean hprot hends hranges hpages hlast
    exact ⟨execCkptRestoreDone_of_wrong_digest hstate hclean hprot hends hranges hpages hlast,
      execCkptRestoreDone_of_digest hstate hclean hprot hends hranges hpages hlast⟩

end Sys2Proof.Machine
end
